-- ==== Sys2Proof/Word.lean ====
section
/-! DEFINITION. The words of the machine and the sparse table in which the state holds what is numbered. -/

namespace Sys2Proof

/-- A byte of memory. -/
abbrev Byte := BitVec 8
/-- A slot word, an extension word, a lane, a tile word (00 R3, 03 R51). -/
abbrev Word32 := BitVec 32
/-- A register of the x, y or c file, a special register (03 R53). -/
abbrev Word64 := BitVec 64
/-- A virtual address (10 R257). -/
abbrev VAddr := BitVec 52

/-- A sparse table from numbers to values: pairs with strictly rising keys, none of them holding the value
an unlisted key reads as. Equal tables are equal lists. -/
abbrev Tab (α : Type) := List (Nat × α)

/-- The value at a key, `d` where the key is not listed. -/
def Tab.get {α : Type} (d : α) : Tab α → Nat → α
  | [], _ => d
  | (k, v) :: m, n => if k = n then v else Tab.get d m n

/-- The table without a key (the keys rise, so at most one entry goes). -/
def Tab.del {α : Type} : Tab α → Nat → Tab α
  | [], _ => []
  | (k, v) :: m, n => if k = n then m else (k, v) :: Tab.del m n

/-- The table with a key listed, in its place. -/
def Tab.ins {α : Type} : Tab α → Nat → α → Tab α
  | [], n, x => [(n, x)]
  | (k, v) :: m, n, x =>
    if n < k then (n, x) :: (k, v) :: m else if k = n then (n, x) :: m else (k, v) :: Tab.ins m n x

/-- The table with `x` at a key: the entry goes when `x` is what an unlisted key reads as. -/
def Tab.set {α : Type} [DecidableEq α] (d : α) (m : Tab α) (n : Nat) (x : α) : Tab α :=
  if x = d then Tab.del m n else Tab.ins m n x

/-- The keys rise strictly from above `lo`, and no entry is `d`. -/
def Tab.wfFrom {α : Type} [DecidableEq α] (d : α) : Nat → Tab α → Bool
  | _, [] => true
  | lo, (k, v) :: m => decide (lo ≤ k) && decide (v ≠ d) && Tab.wfFrom d (k + 1) m

/-- The canonical form of a table. -/
def Tab.wf {α : Type} [DecidableEq α] (d : α) (m : Tab α) : Bool := Tab.wfFrom d 0 m

end Sys2Proof
end

