-- ==== Sys2Proof/Syntax.lean ====
section
/-! DEFINITION. The instruction set: one constructor of Instr for every row of spec/opcode_table.json, the slot
operations with their operand formats (04 R78) and the events of the module with what each names. -/

namespace Sys2Proof

/-- A register or predicate index of five bits. -/
abbrev Reg5 := BitVec 5
/-- A c register, c0 to c15 (04 R79). -/
abbrev CReg := BitVec 4

/-- The seven slots of a bundle, in slot order (03 R48). -/
inductive Slot where | c | i0 | i1 | f | m | q | y
deriving DecidableEq, Repr

/-- The slot an I-slot operation stands in; it fixes the register file, x or y (15 R327). -/
inductive ISlot where | i0 | i1
deriving DecidableEq, Repr

/-- The slot of a predicate operation outside C: pi is written from I0 and I1, pv from F (03 R55). -/
inductive PSlot where | i0 | i1 | f
deriving DecidableEq, Repr

/-- The guard fields GE, GS, GP of a slot word (03 R51). -/
structure Guard where
  ge : Bool
  gs : Bool
  gp : Reg5
deriving DecidableEq, Repr

/-- The integer types of 00 R9, codes 0x0 to 0x7 (04 R80). -/
inductive IType where | i8 | i16 | i32 | i64 | n8 | n16 | n32 | n64
deriving DecidableEq, Repr

/-- The two types of a vector element (04 R80, FT). -/
inductive FType where | f32 | bf16
deriving DecidableEq, Repr

/-- The element types of streams, the matrix engine and conversions (04 R80). -/
inductive EType where | int (t : IType) | f32 | bf16 | e4m3 | e5m2 | e3m2 | e2m1
deriving DecidableEq, Repr

/-- The tests of format K (04 R81). -/
inductive Cond where | eq | ne | lt | ge | gt | le
deriving DecidableEq, Repr

/-- The tests of VCMP (19 R527). -/
inductive VCond where | eq | ne | lt | le | gt | ge | un
deriving DecidableEq, Repr

/-- The operation of VRED and VSCAN (19 R546). -/
inductive RedOp where | add | max | min
deriving DecidableEq, Repr

/-- The source file of XMOV (04 R79). -/
inductive XFile where | x | y | c
deriving DecidableEq, Repr

/-- The source bank of PMOV (04 R79). -/
inductive Bank where | pk | pi | pv
deriving DecidableEq, Repr

/-- The synchronisation word (04 R83). -/
structure Sync where
  ws : BitVec 8
  wt : BitVec 12
  ss : BitVec 8
  si : BitVec 4
deriving DecidableEq, Repr

/-- The synchronisation word of a 32-bit form: zero (04 R83). -/
def Sync.none : Sync := ⟨0, 0, 0, 0⟩

/-- Format N. -/
structure OpN where
  g : Guard
deriving DecidableEq, Repr
/-- Format J, 32-bit form. -/
structure OpJ where
  g : Guard
  disp : BitVec 19
deriving DecidableEq, Repr
/-- Format J, 64-bit form. -/
structure OpJ64 where
  g : Guard
  disp : Word32
deriving DecidableEq, Repr
/-- Format K, 32-bit form. -/
structure OpK where
  g : Guard
  a : CReg
  cc : Cond
  disp : BitVec 11
deriving DecidableEq, Repr
/-- Format K, 64-bit form. -/
structure OpK64 where
  g : Guard
  a : CReg
  cc : Cond
  disp : Word32
deriving DecidableEq, Repr
/-- MWB (17 R451). -/
structure OpMwb where
  g : Guard
  nm1 : BitVec 2
  sns : BitVec 4
  tb : CReg
  p0 : Reg5
  p1 : Reg5
  p2 : Reg5
  p3 : Reg5
deriving DecidableEq, Repr
/-- LOOP (16 R414). -/
structure OpLoop where
  g : Guard
  a : CReg
  size4 : BitVec 9
deriving DecidableEq, Repr
/-- TRAP, 32-bit form (19 R509). -/
structure OpTrap where
  g : Guard
  imm : BitVec 16
deriving DecidableEq, Repr
/-- TRAP, 64-bit form. -/
structure OpTrap64 where
  g : Guard
  imm : Word32
deriving DecidableEq, Repr
/-- LAUNCH and DRAFTLD: three c registers (16 R383, R405). -/
structure OpC3 where
  g : Guard
  d : CReg
  a : CReg
  b : CReg
deriving DecidableEq, Repr
/-- FENSET and EVAC: a destination and a source c register (16 R392, R395). -/
structure OpC2 where
  g : Guard
  d : CReg
  a : CReg
deriving DecidableEq, Repr
/-- TLBI (19 R504). -/
structure OpTlbi where
  g : Guard
  a : CReg
  b : CReg
deriving DecidableEq, Repr
/-- Format S: MFSR and MTSR. -/
structure OpS where
  g : Guard
  r : CReg
  srn : BitVec 10
deriving DecidableEq, Repr
/-- CMP in the C slot. -/
structure OpCmpC where
  g : Guard
  d : Reg5
  a : CReg
  b : CReg
  t : IType
deriving DecidableEq, Repr
/-- CMPI in the C slot, 32-bit form. -/
structure OpCmpiC where
  g : Guard
  d : Reg5
  a : CReg
  imm : BitVec 9
deriving DecidableEq, Repr
/-- CMPI in the C slot, 64-bit form. -/
structure OpCmpiC64 where
  g : Guard
  d : Reg5
  a : CReg
  imm : Word32
deriving DecidableEq, Repr
/-- ADDI in the C slot, 32-bit form. -/
structure OpAddiC where
  g : Guard
  d : CReg
  a : CReg
  imm : BitVec 9
deriving DecidableEq, Repr
/-- ADDI in the C slot, 64-bit form. -/
structure OpAddiC64 where
  g : Guard
  d : CReg
  a : CReg
  imm : Word32
deriving DecidableEq, Repr
/-- LI in the C slot, 32-bit form. -/
structure OpLiC where
  g : Guard
  d : CReg
  imm : BitVec 14
deriving DecidableEq, Repr
/-- LI in the C slot, 64-bit form. -/
structure OpLiC64 where
  g : Guard
  d : CReg
  imm : Word32
deriving DecidableEq, Repr
/-- XMOV in the C slot: D is a c register, A a register of the file SF names. -/
structure OpXmovC where
  g : Guard
  d : CReg
  a : Reg5
  sf : XFile
deriving DecidableEq, Repr
/-- PAND, POR, PXOR in the C slot. -/
structure OpP3C where
  g : Guard
  d : Reg5
  a : Reg5
  b : Reg5
deriving DecidableEq, Repr
/-- PNOT in the C slot. -/
structure OpP2C where
  g : Guard
  d : Reg5
  a : Reg5
deriving DecidableEq, Repr
/-- PSET in the C slot, 32-bit form. -/
structure OpPsetC where
  g : Guard
  d : Reg5
  imm : BitVec 14
deriving DecidableEq, Repr
/-- PSET in the C slot, 64-bit form. -/
structure OpPsetC64 where
  g : Guard
  d : Reg5
  imm : Word32
deriving DecidableEq, Repr
/-- PMOV in the C slot. -/
structure OpPmovC where
  g : Guard
  d : Reg5
  a : Reg5
  sf : Bank
deriving DecidableEq, Repr
/-- Format A in an I slot, two sources. -/
structure OpIA where
  sl : ISlot
  g : Guard
  d : Reg5
  a : Reg5
  b : Reg5
  t : IType
deriving DecidableEq, Repr
/-- Format A in an I slot, one source (CLZ, POPC, ABS). -/
structure OpIA1 where
  sl : ISlot
  g : Guard
  d : Reg5
  a : Reg5
  t : IType
deriving DecidableEq, Repr
/-- Format B in an I slot, 32-bit form. -/
structure OpIB where
  sl : ISlot
  g : Guard
  d : Reg5
  a : Reg5
  imm : BitVec 9
deriving DecidableEq, Repr
/-- Format B in an I slot, 64-bit form. -/
structure OpIB64 where
  sl : ISlot
  g : Guard
  d : Reg5
  a : Reg5
  imm : Word32
deriving DecidableEq, Repr
/-- SEL, 32-bit form (18 R491). -/
structure OpSel where
  sl : ISlot
  g : Guard
  d : Reg5
  a : Reg5
  b : Reg5
  p : BitVec 4
deriving DecidableEq, Repr
/-- SEL, 64-bit form. -/
structure OpSel64 where
  sl : ISlot
  g : Guard
  d : Reg5
  a : Reg5
  b : Reg5
  p : Reg5
deriving DecidableEq, Repr
/-- Format U in an I slot, 32-bit form. -/
structure OpIU where
  sl : ISlot
  g : Guard
  d : Reg5
  imm : BitVec 14
deriving DecidableEq, Repr
/-- Format U in an I slot, 64-bit form. -/
structure OpIU64 where
  sl : ISlot
  g : Guard
  d : Reg5
  imm : Word32
deriving DecidableEq, Repr
/-- LEA, 32-bit form (16 R409). -/
structure OpLea where
  sl : ISlot
  g : Guard
  d : Reg5
  a : Reg5
  b : Reg5
  sh : BitVec 3
deriving DecidableEq, Repr
/-- LEA, 64-bit form. -/
structure OpLea64 where
  sl : ISlot
  g : Guard
  d : Reg5
  a : Reg5
  b : Reg5
  sh : BitVec 3
  off : Word32
deriving DecidableEq, Repr
/-- BFX, register form (15 R349). -/
structure OpBfx where
  sl : ISlot
  g : Guard
  d : Reg5
  a : Reg5
  b : Reg5
  sx : Bool
deriving DecidableEq, Repr
/-- BFX, immediate form. -/
structure OpBfxImm where
  sl : ISlot
  g : Guard
  d : Reg5
  a : Reg5
  pos : BitVec 6
  lm1 : BitVec 6
  sx : Bool
deriving DecidableEq, Repr
/-- BFI, register form. -/
structure OpBfi where
  sl : ISlot
  g : Guard
  d : Reg5
  a : Reg5
  b : Reg5
deriving DecidableEq, Repr
/-- BFI, immediate form. -/
structure OpBfiImm where
  sl : ISlot
  g : Guard
  d : Reg5
  a : Reg5
  pos : BitVec 6
  lm1 : BitVec 6
deriving DecidableEq, Repr
/-- XMOV in an I slot. -/
structure OpXmovI where
  sl : ISlot
  g : Guard
  d : Reg5
  a : Reg5
  sf : XFile
deriving DecidableEq, Repr
/-- Format L, 32-bit form: loads and stores. -/
structure OpL where
  sl : ISlot
  g : Guard
  d : Reg5
  a : Reg5
  off : BitVec 5
  t : IType
deriving DecidableEq, Repr
/-- Format L, 64-bit form. -/
structure OpL64 where
  sl : ISlot
  g : Guard
  d : Reg5
  a : Reg5
  off : Word32
  t : IType
deriving DecidableEq, Repr
/-- PAND, POR, PXOR in I0, I1 or F. -/
structure OpP3 where
  sl : PSlot
  g : Guard
  d : Reg5
  a : Reg5
  b : Reg5
deriving DecidableEq, Repr
/-- PNOT in I0, I1 or F. -/
structure OpP2 where
  sl : PSlot
  g : Guard
  d : Reg5
  a : Reg5
deriving DecidableEq, Repr
/-- PSET in I0, I1 or F, 32-bit form. -/
structure OpPset where
  sl : PSlot
  g : Guard
  d : Reg5
  imm : BitVec 14
deriving DecidableEq, Repr
/-- PSET in I0, I1 or F, 64-bit form. -/
structure OpPset64 where
  sl : PSlot
  g : Guard
  d : Reg5
  imm : Word32
deriving DecidableEq, Repr
/-- PMOV in I0, I1 or F. -/
structure OpPmov where
  sl : PSlot
  g : Guard
  d : Reg5
  a : Reg5
  sf : Bank
deriving DecidableEq, Repr
/-- Format V with two sources and no extension field; `wide`: the 64-bit form with a zero extension word (19 R517). -/
structure OpV2 where
  g : Guard
  d : Reg5
  a : Reg5
  b : Reg5
  ha : Bool
  hb : Bool
  ft : FType
  wide : Bool
deriving DecidableEq, Repr
/-- Format V with one source and no extension field; `wide` as in OpV2. -/
structure OpV1 where
  g : Guard
  d : Reg5
  a : Reg5
  ha : Bool
  ft : FType
  wide : Bool
deriving DecidableEq, Repr
/-- Format V with three sources: VFMA, VFMS. -/
structure OpV3 where
  g : Guard
  d : Reg5
  a : Reg5
  b : Reg5
  c : Reg5
  ha : Bool
  hb : Bool
  hc : Bool
  ft : FType
deriving DecidableEq, Repr
/-- VCMP (19 R527). -/
structure OpVcmp where
  g : Guard
  d : Reg5
  a : Reg5
  b : Reg5
  ha : Bool
  hb : Bool
  ft : FType
  cc : VCond
  h : Bool
deriving DecidableEq, Repr
/-- VCLASS (19 R527). -/
structure OpVclass where
  g : Guard
  d : Reg5
  a : Reg5
  ha : Bool
  ft : FType
  mask : BitVec 9
  h : Bool
deriving DecidableEq, Repr
/-- VSEL (19 R548). -/
structure OpVsel where
  g : Guard
  d : Reg5
  a : Reg5
  b : Reg5
  ha : Bool
  hb : Bool
  ft : FType
  p : Reg5
deriving DecidableEq, Repr
/-- VCVT (19 R534). -/
structure OpVcvt where
  g : Guard
  d : Reg5
  a : Reg5
  ha : Bool
  ft : FType
  tt : EType
  cc : BitVec 3
deriving DecidableEq, Repr
/-- VRND and VBCAST, 32-bit form. -/
structure OpVS where
  g : Guard
  d : Reg5
  a : Reg5
  ha : Bool
  ft : FType
deriving DecidableEq, Repr
/-- VRND, 64-bit form. -/
structure OpVrnd64 where
  g : Guard
  d : Reg5
  a : Reg5
  ha : Bool
  ft : FType
  rm : BitVec 2
deriving DecidableEq, Repr
/-- VRED and VSCAN. -/
structure OpVred where
  g : Guard
  d : Reg5
  a : Reg5
  ha : Bool
  ft : FType
  op : RedOp
  wide : Bool
deriving DecidableEq, Repr
/-- VCSWAP (19 R530). -/
structure OpVcswap where
  g : Guard
  d : Reg5
  a : Reg5
  b : Reg5
  ha : Bool
  hb : Bool
  ft : FType
  logd : BitVec 3
  desc : Bool
  logb : BitVec 3
  fol : Bool
deriving DecidableEq, Repr
/-- VBCAST, 64-bit form. -/
structure OpVbcast64 where
  g : Guard
  d : Reg5
  a : Reg5
  ha : Bool
  ft : FType
  idx : BitVec 6
deriving DecidableEq, Repr
/-- VIOTA. -/
structure OpViota where
  g : Guard
  d : Reg5
  ft : FType
  wide : Bool
deriving DecidableEq, Repr
/-- VMOV. -/
structure OpVmov where
  g : Guard
  d : Reg5
  a : Reg5
  ha : Bool
  wide : Bool
deriving DecidableEq, Repr
/-- VPACK, 32-bit form. -/
structure OpVpack where
  g : Guard
  d : Reg5
  a : Reg5
  b : Reg5
  ha : Bool
  hb : Bool
deriving DecidableEq, Repr
/-- VPACK, 64-bit form. -/
structure OpVpack64 where
  g : Guard
  d : Reg5
  a : Reg5
  b : Reg5
  ha : Bool
  hb : Bool
  cc : BitVec 3
deriving DecidableEq, Repr
/-- VUNPK. -/
structure OpVunpk where
  g : Guard
  d : Reg5
  a : Reg5
  ha : Bool
  h : Bool
deriving DecidableEq, Repr
/-- VLD and VST, 32-bit form. -/
structure OpVM where
  g : Guard
  d : Reg5
  a : Reg5
  fs : Bool
  t : FType
deriving DecidableEq, Repr
/-- VLD and VST, 64-bit form. -/
structure OpVM64 where
  g : Guard
  d : Reg5
  a : Reg5
  fs : Bool
  t : FType
  off : Word32
deriving DecidableEq, Repr
/-- VGATH and VSCAT, 32-bit form. -/
structure OpVX where
  g : Guard
  d : Reg5
  a : Reg5
  fs : Bool
  vi : BitVec 4
deriving DecidableEq, Repr
/-- VGATH and VSCAT, 64-bit form. -/
structure OpVX64 where
  g : Guard
  d : Reg5
  a : Reg5
  fs : Bool
  vi : BitVec 4
  off : Word32
deriving DecidableEq, Repr
/-- MCFG (17 R418). -/
structure OpMcfg where
  g : Guard
  mc : BitVec 2
  nc : BitVec 2
  km : BitVec 7
deriving DecidableEq, Repr
/-- MFMT. -/
structure OpMfmt where
  g : Guard
  at' : EType
  bt : EType
  sc : Bool
deriving DecidableEq, Repr
/-- MMA, MMAZ. -/
structure OpMma where
  g : Guard
  z : Reg5
  q : BitVec 4
  boff : BitVec 9
deriving DecidableEq, Repr
/-- MBLD. -/
structure OpMbld where
  g : Guard
  q : BitVec 4
  boff : BitVec 9
deriving DecidableEq, Repr
/-- MZERO. -/
structure OpMzero where
  g : Guard
  z : Reg5
deriving DecidableEq, Repr
/-- MZRD, MZWR. -/
structure OpMrow where
  g : Guard
  v : Reg5
  z : Reg5
  row : BitVec 6
  h : Bool
  ft : FType
deriving DecidableEq, Repr
/-- MZST, MZLD. -/
structure OpMtile where
  g : Guard
  z : Reg5
  q : BitVec 4
deriving DecidableEq, Repr
/-- MTRN. -/
structure OpMtrn where
  g : Guard
  zd : Reg5
  zs : Reg5
deriving DecidableEq, Repr
/-- MBFLY. -/
structure OpMbfly where
  g : Guard
  zb : Reg5
  stg : BitVec 4
  scl : Bool
  ord : Bool
deriving DecidableEq, Repr
/-- MTWID. -/
structure OpMtwid where
  g : Guard
  nm1 : BitVec 16
  inv : Bool
deriving DecidableEq, Repr
/-- QSET (18 R462). -/
structure OpQset where
  g : Guard
  a : Reg5
  q : BitVec 4
  fs : Bool
deriving DecidableEq, Repr
/-- QLD, QST, QGATH, QSCAT. -/
structure OpQstrm where
  g : Guard
  q : BitVec 4
deriving DecidableEq, Repr
/-- QCOPY, QRCOPY, QCCOPY. -/
structure OpQcopy where
  g : Guard
  a : Reg5
  b : Reg5
  c : Reg5
  fs : Bool
deriving DecidableEq, Repr
/-- GCFG (16 R399). -/
structure OpGcfg where
  g : Guard
  a : Reg5
  fs : Bool
  iim1 : BitVec 4
  lut : Bool
deriving DecidableEq, Repr
/-- GRUN. -/
structure OpGrun where
  g : Guard
  a : Reg5
  b : Reg5
  fs : Bool
  keep : Bool
deriving DecidableEq, Repr
/-- QSAVE, QREST. -/
structure OpQsave where
  g : Guard
  a : Reg5
  fs : Bool
deriving DecidableEq, Repr
/-- SPIN, SUNPIN, SWB, SINV. -/
structure OpStash where
  g : Guard
  a : Reg5
  b : Reg5
  fs : Bool
deriving DecidableEq, Repr
/-- SEMSET, SEMADD, SEMWAIT with IMM11 (18 R494). -/
structure OpSem where
  g : Guard
  sem : BitVec 8
  imm : BitVec 11
deriving DecidableEq, Repr
/-- SEMSET and SEMWAIT, 64-bit form. -/
structure OpSem64 where
  g : Guard
  sem : BitVec 8
  imm : BitVec 16
deriving DecidableEq, Repr
/-- FENCE (11 R272). -/
structure OpFence where
  g : Guard
  pred : BitVec 6
  succ : BitVec 6
  scope : BitVec 3
deriving DecidableEq, Repr
/-- STEP: scope 0 the cluster, scope 1 the launch (18 R500). -/
structure OpStep where
  g : Guard
  launch : Bool
deriving DecidableEq, Repr
/-- The atomics, 32-bit form (15 R329). -/
structure OpAtom where
  g : Guard
  d : Reg5
  a : Reg5
  b : Reg5
  fs : Bool
  ord : BitVec 2
  w : Bool
deriving DecidableEq, Repr
/-- The atomics, 64-bit form; `c` is the comparand of ACAS and zero for the others. -/
structure OpAtom64 where
  g : Guard
  d : Reg5
  a : Reg5
  b : Reg5
  c : Reg5
  fs : Bool
  ord : BitVec 2
  w : Bool
  uns : Bool
  off : BitVec 16
deriving DecidableEq, Repr
/-- CHSEND, CHRECV, CHSTART, CHABORT (16 R364). -/
structure OpCh where
  g : Guard
  ch : BitVec 6
deriving DecidableEq, Repr
/-- TSTART (19 R513). -/
structure OpTstart where
  g : Guard
  a : Reg5
  fs : Bool
  sem : BitVec 8
  inc : BitVec 4
deriving DecidableEq, Repr
/-- RDTIME (18 R482). -/
structure OpRdtime where
  g : Guard
  d : Reg5
  fs : Bool
deriving DecidableEq, Repr

/-- A 32-bit word with its poison bit (12 R300). -/
structure PWord where
  w : Word32
  p : Bool
deriving DecidableEq, Repr

/-- A packet: the header flit of 08 Table 1 and its payload words with PMASK as the words' poison bits.
`rows` numbers the rows of flow sends that the packet carries a contribution of, for their acknowledgements (08 R199). -/
structure Packet where
  flow : BitVec 12
  part : BitVec 3
  wide : Bool
  seq : BitVec 16
  src : BitVec 9
  srck : BitVec 2
  vc : BitVec 2
  xt : Bool
  rank : BitVec 16
  inst : BitVec 8
  tgt : BitVec 9
  tgtk : BitVec 3
  daddr : VAddr
  /-- the physical address and the domain that the router's translation gave a packet to a cache slice (08 R206) -/
  pa : Nat
  ed : Nat
  /-- the cache range that it carries to the slice (10 R247) -/
  rng : Option Nat
  /-- of a host write, the bytes of each word that it carries; empty: every byte (13 R317) -/
  ben : List (BitVec 4)
  /-- the endpoint descriptor by which a packet is delivered at a stash, as it stood when the packet reached its endpoint (08 R198, R203) -/
  desc : BitVec 128
  words : List PWord
  rows : List Nat
deriving DecidableEq, Repr

/-- An abort token of a ring: it names ring, FLOW and INST (09 R224), and travels in one direction. -/
structure Token where
  ring : BitVec 4
  flow : BitVec 12
  inst : BitVec 8
  down : Bool
deriving DecidableEq, Repr

/-- What a read of one 64-byte HBM sector met (13 R304): the outcome of its ECC code and of its tag. -/
inductive SectorCheck where
  | clean
  | corrected
  | tagFails (corr : Bool)
  | uncorrectable
deriving DecidableEq, Repr

/-- The residue check of a matrix operation (06 R134, R135): passed, passed at the re-execution, or failed twice
in the rows (or points) listed. -/
inductive ResidueCheck where
  | passed
  | once
  | twice (bad : List Nat)
deriving DecidableEq, Repr

/-- An entry of the partition map (13 R308, Table 3). -/
structure MapEntry where
  clmask : BitVec 128
  crpair : BitVec 192
  lpmask : BitVec 18
  ctlcore : BitVec 9
  ctlctx : BitVec 2
  mgmt : Bool
  seclim : BitVec 8
  en : Bool
  reserved : Bool
deriving DecidableEq, Repr

/-- The partition map as it is laid out (13 R308 Table 3): the header, and the 64-byte entries of partitions 0 to 7, little endian; an entry that is
not listed is zero. -/
structure PartMap where
  header : Word64
  entries : Tab (BitVec 512)
deriving DecidableEq, Repr

/-- What the patrol of HBM meets (12 R302). -/
inductive Patrol where
  /-- a corrected error in a sector, by its number (physical address / 64) -/
  | corrected (sec : Nat)
  /-- an error has come to stand in a sector: what its next read, by whichever access, finds (13 R304) -/
  | arises (sec : Nat) (c : SectorCheck)
  /-- the copy at work has copied its next sector and read it back, with or without an error; `last`: it was the last of the row -/
  | copied (good last : Bool)
  /-- a patrol pass ends -/
  | passEnds
deriving DecidableEq, Repr

/-- What reaches a link port from its peer (09 R229, R231, 13 R312). -/
inductive LinkArrival where
  | packet (p : Packet)
  /-- the peer's acknowledgement of the oldest packet -/
  | ack
  /-- a flit that fails authentication; it is sent again -/
  | authFails
deriving DecidableEq, Repr

/-- What a host access to a function reaches (13 R316): the device memory aperture of BAR2 at an offset, QTAIL or lsem in the doorbell window, BAR0 of the
management function at an offset. -/
inductive HostTarget where
  | aperture (off : VAddr)
  | qtail (q : Nat)
  | lsem (n : Nat)
  | pf0 (off : Nat)
deriving DecidableEq, Repr

/-- What module reset reads from the fuses and the configuration store (14 R326). -/
structure Fuses where
  /-- the fused unique secret (13 R313) -/
  uds : Nat
  cdstep : BitVec 8
  hbstep : BitVec 8
  gfwmaj : BitVec 8
  cld0 : BitVec 7
  cld1 : BitVec 7
  hcd0 : BitVec 8
  hcd1 : BitVec 8
  lpen : BitVec 18
  skip : Tab (BitVec 5)
  /-- unusable rows: key 8 * COREID + point, the bitmap of rows NOT usable -/
  fenRows : Tab (BitVec 8192)
  /-- unusable ways: key 8 * slice + point -/
  fenWays : Tab (BitVec 16)
  firmwareOk : Bool
  fenSigned : Bool
deriving DecidableEq, Repr

/-- An event of the module with what it carries: which part of the module it concerns, and what comes from outside. -/
inductive Event where
  | qtailWrite (part q : Nat) (v : Word32) (ide : Bool) | residencyQuantumBoundary (part : Nat) | dispatch (part : Nat) | launchPlacement (part : Nat)
  | launchSemaphoreWrite (part n : Nat) (v : Word32) (ide : Bool) | launchCompletion (launch : Nat) | clusterPowerGate (cluster : Nat)
  | issueCounterYield (core : Nat) | eventTaken (core ctx : Nat) | noticeTaken (part : Nat)
  | stashFillArrival (core block : Nat) (checks : List SectorCheck) | watchdog (core ctx : Nat) | timeGateFire (core gate : Nat)
  | prectlGo (part : Nat) (v : Word64) | preemptLimitExpiry (launch : Nat)
  | matrixQueueStart (core : Nat) | mmaCompletion (core op : Nat) (chk : ResidueCheck) | mbldCompletion (core op : Nat)
  | mzstCompletion (core op : Nat) | mzldCompletion (core op : Nat) | mtrnCompletion (core op : Nat) (chk : ResidueCheck)
  | mbflyCompletion (core op : Nat) (chk : ResidueCheck) | mtwidCompletion (core op : Nat) | mfmtCompletion (core op : Nat)
  | mdrainStart (core op : Nat) | mzrdCompletion (core op : Nat) | mzwrCompletion (core op : Nat) | mzeroCompletion (core op : Nat)
  | mcfgClear (core : Nat)
  | streamCommandStart (core : Nat) | streamElementFault (core q : Nat) | streamRetire (core q : Nat) | qsetCompletion (core q : Nat)
  | gcfgLoadEnd (core : Nat) | grunCompletion (core : Nat) | gstopBoundary (core : Nat)
  | fabricInvocationStart (slice : Nat) | fabricInvocationEnd (slice : Nat)
  | packetArrival (router port : Nat) (p : Packet) | flowRowSend (core cmd : Nat) | rowLanding (router ep : Nat) (p : Packet)
  | landingAcknowledgement (row : Nat) | lossAcknowledgement (row : Nat) | parkedRowRetry (core : Nat) | flowRowLost (core : Nat)
  | creditTokenArrival (core ch : Nat) | channelCommandStart (core : Nat) | chrecvCompletion (core ch : Nat)
  | ringInstanceStart (core ch : Nat) | ringPacketArrival (port : Nat) (p : Packet) | ringInstanceCompletion (core ch : Nat)
  | remoteTimeout (core ch : Nat) | abortTokenArrival (port : Nat) (t : Token) | ringCommit (part : Nat) (rings : BitVec 16)
  | ringCommitReread (part ring : Nat) | linkTimeout (port : Nat) | linkPacketArrival (port : Nat) (a : LinkArrival)
  | linkTraining (port : Nat) (lanes : BitVec 4) (tsync keyed : Bool) | stepBarrierOpen (launch cluster : Nat) (whole : Bool)
  | drainStart (core op : Nat) | semaddApply (core op : Nat) | atomicResponse (core ctx : Nat) | draftldCompletion (core ctx : Nat)
  | tlbiCompletion (core ctx : Nat) | evacCompletion (core ctx : Nat) | retireAccepted (core ctx : Nat)
  | stashCommandCompletion (core cmd : Nat) | copyCompletion (core cmd : Nat) | qsaveCompletion (core cmd : Nat)
  | opreqGo (part : Option Nat) (v : Word64) | operatingPointStepEnd | thermalThrottle | thermalRecovery | thermalReset (f : Fuses)
  | moduleReset (f : Fuses) | reconfigurationRequest (m : PartMap)
  -- `link`: the link port over which the request comes, none for the management function
  | getDigests (part link : Option Nat) | getCertificate (part link : Option Nat) | challenge (part link : Option Nat) (nonce : Nat)
  | getMeasurements (part link session : Option Nat) (index : Nat) | keyExchange (part link : Option Nat) (data : Nat) | finish (session : Nat) (verify : Nat)
  | keyload (session domain : Nat) (material : BitVec 768) (digest : BitVec 512) | keyclear (session domain : Nat)
  | rowSparing (f : Patrol) | shadowLatchReplay (core : Nat)
  -- `ide`: the request comes on an IDE stream with T = 1
  | hostWrite (part : Nat) (t : HostTarget) (data : List Byte) (ide : Bool) | hostRead (part : Nat) (t : HostTarget) (n : Nat) (ide : Bool) | tdiError (part : Nat)
  | crctlWrite (part k : Nat) (v : Word64) | flogstWrite (core : Nat) (v : Word64) | fqstatWrite (core : Nat) (v : Word64)
  | ststatWrite (core : Nat) (v : Word64) | lpstatWrite (port : Nat) (v : Word64) | notstatWrite (part : Nat) (v : Word64)
  | silcntWrite (core : Nat) (v : Word64) | fetchFault (core : Nat) | bundleWithPmZero (core : Nat) | writeBackPerformed (core wb : Nat)
  | launchAppend (core ctx : Nat) | qrestCompletion (core ctx : Nat) | streamDataArrival (core q : Nat)
  | storeStreamElementPerformed (core q : Nat) | tdispRequest (part : Nat) (st : BitVec 2)
deriving DecidableEq, Repr

/-- Every row of spec/opcode_table.json. The first part are the slot operations, the second the events. -/
inductive Instr where
  | br (o : OpJ) | brc (o : OpK) | call (o : OpJ) | ret (o : OpN) | loop (o : OpLoop) | eret (o : OpN)
  | trap (o : OpTrap) | yield (o : OpN) | retire (o : OpN) | halt (o : OpN) | launch (o : OpC3)
  | mfsr (o : OpS) | mtsr (o : OpS) | tlbi (o : OpTlbi) | fenset (o : OpC2) | evac (o : OpC2) | draftld (o : OpC3)
  | cmpC (o : OpCmpC) | cmpiC (o : OpCmpiC) | addiC (o : OpAddiC) | liC (o : OpLiC) | xmovC (o : OpXmovC)
  | pandC (o : OpP3C) | porC (o : OpP3C) | pxorC (o : OpP3C) | pnotC (o : OpP2C) | psetC (o : OpPsetC) | pmovC (o : OpPmovC)
  | add (o : OpIA) | addiI (o : OpIB) | sub (o : OpIA) | mul (o : OpIA) | mulh (o : OpIA) | div (o : OpIA) | rem (o : OpIA)
  | and (o : OpIA) | or (o : OpIA) | xor (o : OpIA) | andn (o : OpIA) | shl (o : OpIA) | shr (o : OpIA) | sra (o : OpIA)
  | rotl (o : OpIA) | clz (o : OpIA1) | popc (o : OpIA1) | min (o : OpIA) | max (o : OpIA) | abs (o : OpIA1)
  | sel (o : OpSel) | cmpI (o : OpIA) | cmpiI (o : OpIB) | liI (o : OpIU) | lih (o : OpIU) | lea (o : OpLea)
  | bfx (o : OpBfx) | bfi (o : OpBfi) | xmovI (o : OpXmovI)
  | ld (o : OpL) | st (o : OpL) | lda (o : OpL) | chka (o : OpL) | ldacq (o : OpL) | strel (o : OpL)
  | pandIF (o : OpP3) | porIF (o : OpP3) | pxorIF (o : OpP3) | pnotIF (o : OpP2) | psetIF (o : OpPset) | pmovIF (o : OpPmov)
  | vadd (o : OpV2) | vsub (o : OpV2) | vmul (o : OpV2) | vmax (o : OpV2) | vmin (o : OpV2) | vabs (o : OpV1) | vneg (o : OpV1)
  | vrnd (o : OpVS) | vldexp (o : OpV2) | vexp2 (o : OpV1) | vlog2 (o : OpV1) | vrcp (o : OpV1) | vrsq (o : OpV1)
  | vred (o : OpVred) | vscan (o : OpVred) | vperm (o : OpV2) | vbcast (o : OpVS) | viota (o : OpViota) | vmov (o : OpVmov)
  | vpack (o : OpVpack) | vunpk (o : OpVunpk) | vld (o : OpVM) | vst (o : OpVM) | vgath (o : OpVX) | vscat (o : OpVX)
  | mcfg (o : OpMcfg) | mfmt (o : OpMfmt) | mdrain (o : OpN) | mma (o : OpMma) | mmaz (o : OpMma) | mbld (o : OpMbld)
  | mzero (o : OpMzero) | mzrd (o : OpMrow) | mzwr (o : OpMrow) | mzst (o : OpMtile) | mzld (o : OpMtile)
  | mtrn (o : OpMtrn) | mbfly (o : OpMbfly) | mtwid (o : OpMtwid)
  | qset (o : OpQset) | qld (o : OpQstrm) | qst (o : OpQstrm) | qgath (o : OpQstrm) | qscat (o : OpQstrm)
  | qcopy (o : OpQcopy) | qrcopy (o : OpQcopy) | qccopy (o : OpQcopy) | gcfg (o : OpGcfg) | grun (o : OpGrun) | gstop (o : OpN)
  | qsave (o : OpQsave) | qrest (o : OpQsave) | spin (o : OpStash) | sunpin (o : OpStash) | swb (o : OpStash) | sinv (o : OpStash)
  | semset (o : OpSem) | semadd (o : OpSem) | semwait (o : OpSem) | fence (o : OpFence) | drain (o : OpN) | step (o : OpStep)
  | aadd (o : OpAtom) | aand (o : OpAtom) | aor (o : OpAtom) | axor (o : OpAtom) | amin (o : OpAtom) | amax (o : OpAtom) | aswp (o : OpAtom)
  | chsend (o : OpCh) | chrecv (o : OpCh) | chstart (o : OpCh) | chabort (o : OpCh) | tstart (o : OpTstart) | rdtime (o : OpRdtime)
  | br64 (o : OpJ64) | brc64 (o : OpK64) | mwb (o : OpMwb) | call64 (o : OpJ64) | trap64 (o : OpTrap64)
  | cmpiC64 (o : OpCmpiC64) | addiC64 (o : OpAddiC64) | liC64 (o : OpLiC64) | psetC64 (o : OpPsetC64)
  | addiI64 (o : OpIB64) | sel64 (o : OpSel64) | cmpiI64 (o : OpIB64) | liI64 (o : OpIU64) | lih64 (o : OpIU64) | lea64 (o : OpLea64)
  | bfxImm (o : OpBfxImm) | bfiImm (o : OpBfiImm)
  | ld64 (o : OpL64) | st64 (o : OpL64) | lda64 (o : OpL64) | chka64 (o : OpL64) | ldacq64 (o : OpL64) | strel64 (o : OpL64)
  | psetIF64 (o : OpPset64)
  | vfma (o : OpV3) | vfms (o : OpV3) | vcmp (o : OpVcmp) | vsel (o : OpVsel) | vcvt (o : OpVcvt) | vrnd64 (o : OpVrnd64)
  | vclass (o : OpVclass) | vcswap (o : OpVcswap) | vbcast64 (o : OpVbcast64) | vpack64 (o : OpVpack64)
  | vld64 (o : OpVM64) | vst64 (o : OpVM64) | vgath64 (o : OpVX64) | vscat64 (o : OpVX64)
  | mfmt64 (o : OpMfmt) (w : Sync) | mdrain64 (o : OpN) (w : Sync) | mma64 (o : OpMma) (w : Sync) | mmaz64 (o : OpMma) (w : Sync)
  | mbld64 (o : OpMbld) (w : Sync) | mzero64 (o : OpMzero) (w : Sync) | mzrd64 (o : OpMrow) (w : Sync) | mzwr64 (o : OpMrow) (w : Sync)
  | mzst64 (o : OpMtile) (w : Sync) | mzld64 (o : OpMtile) (w : Sync) | mtrn64 (o : OpMtrn) (w : Sync) | mbfly64 (o : OpMbfly) (w : Sync)
  | mtwid64 (o : OpMtwid) (w : Sync)
  | qset64 (o : OpQset) (w : Sync) | qld64 (o : OpQstrm) (w : Sync) | qst64 (o : OpQstrm) (w : Sync) | qgath64 (o : OpQstrm) (w : Sync)
  | qscat64 (o : OpQstrm) (w : Sync) | qcopy64 (o : OpQcopy) (w : Sync) | qrcopy64 (o : OpQcopy) (w : Sync) | qccopy64 (o : OpQcopy) (w : Sync)
  | gcfg64 (o : OpGcfg) (w : Sync) | grun64 (o : OpGrun) (w : Sync) | gstop64 (o : OpN) (w : Sync) | qsave64 (o : OpQsave) (w : Sync)
  | qrest64 (o : OpQsave) (w : Sync) | spin64 (o : OpStash) (w : Sync) | sunpin64 (o : OpStash) (w : Sync) | swb64 (o : OpStash) (w : Sync)
  | sinv64 (o : OpStash) (w : Sync)
  | semset64 (o : OpSem64) | semadd64 (o : OpSem) (w : Sync) | semwait64 (o : OpSem64) | drain64 (o : OpN) (w : Sync) | step64 (o : OpStep) (w : Sync)
  | aadd64 (o : OpAtom64) | aand64 (o : OpAtom64) | aor64 (o : OpAtom64) | axor64 (o : OpAtom64) | amin64 (o : OpAtom64) | amax64 (o : OpAtom64)
  | aswp64 (o : OpAtom64) | acas (o : OpAtom64)
  | chsend64 (o : OpCh) (w : Sync) | chrecv64 (o : OpCh) (w : Sync) | chstart64 (o : OpCh) (w : Sync) | chabort64 (o : OpCh) (w : Sync)
  -- the events; what one of them carries is the Event
  | qtailWrite | residencyQuantumBoundary | dispatch | launchPlacement | launchSemaphoreWrite | launchCompletion
  | clusterPowerGate | issueCounterYield | eventTaken | noticeTaken | stashFillArrival | watchdog | timeGateFire
  | prectlGo | preemptLimitExpiry | matrixQueueStart | mmaCompletion | mbldCompletion | mzstCompletion
  | mzldCompletion | mtrnCompletion | mbflyCompletion | mtwidCompletion | mfmtCompletion | mdrainStart
  | mzrdCompletion | mzwrCompletion | mzeroCompletion | mcfgClear | streamCommandStart | streamElementFault
  | streamRetire | qsetCompletion | gcfgLoadEnd | grunCompletion | gstopBoundary | fabricInvocationStart
  | fabricInvocationEnd | packetArrival | flowRowSend | rowLanding | landingAcknowledgement | lossAcknowledgement
  | parkedRowRetry | flowRowLost | creditTokenArrival | channelCommandStart | chrecvCompletion | ringInstanceStart
  | ringPacketArrival | ringInstanceCompletion | remoteTimeout | abortTokenArrival | ringCommit | ringCommitReread
  | linkTimeout | linkPacketArrival | linkTraining | stepBarrierOpen | drainStart | semaddApply | atomicResponse
  | draftldCompletion | tlbiCompletion | evacCompletion | retireAccepted | stashCommandCompletion | copyCompletion
  | qsaveCompletion | opreqGo | operatingPointStepEnd | thermalThrottle | thermalRecovery | thermalReset
  | moduleReset | reconfigurationRequest | getDigests | getCertificate | challenge | getMeasurements | keyExchange
  | finish | keyload | keyclear | rowSparing | shadowLatchReplay | hostWrite | hostRead | tdiError | crctlWrite
  | flogstWrite | fqstatWrite | ststatWrite | lpstatWrite | notstatWrite | silcntWrite | fetchFault
  | bundleWithPmZero | writeBackPerformed | launchAppend | qrestCompletion | streamDataArrival
  | storeStreamElementPerformed | tdispRequest
deriving DecidableEq, Repr

/-- The row of the table that an event is. -/
def Event.instr : Event → Instr
  | .qtailWrite _ _ _ _ => .qtailWrite
  | .residencyQuantumBoundary _ => .residencyQuantumBoundary
  | .dispatch _ => .dispatch
  | .launchPlacement _ => .launchPlacement
  | .launchSemaphoreWrite _ _ _ _ => .launchSemaphoreWrite
  | .launchCompletion _ => .launchCompletion
  | .clusterPowerGate _ => .clusterPowerGate
  | .issueCounterYield _ => .issueCounterYield
  | .eventTaken _ _ => .eventTaken
  | .noticeTaken _ => .noticeTaken
  | .stashFillArrival _ _ _ => .stashFillArrival
  | .watchdog _ _ => .watchdog
  | .timeGateFire _ _ => .timeGateFire
  | .prectlGo _ _ => .prectlGo
  | .preemptLimitExpiry _ => .preemptLimitExpiry
  | .matrixQueueStart _ => .matrixQueueStart
  | .mmaCompletion _ _ _ => .mmaCompletion
  | .mbldCompletion _ _ => .mbldCompletion
  | .mzstCompletion _ _ => .mzstCompletion
  | .mzldCompletion _ _ => .mzldCompletion
  | .mtrnCompletion _ _ _ => .mtrnCompletion
  | .mbflyCompletion _ _ _ => .mbflyCompletion
  | .mtwidCompletion _ _ => .mtwidCompletion
  | .mfmtCompletion _ _ => .mfmtCompletion
  | .mdrainStart _ _ => .mdrainStart
  | .mzrdCompletion _ _ => .mzrdCompletion
  | .mzwrCompletion _ _ => .mzwrCompletion
  | .mzeroCompletion _ _ => .mzeroCompletion
  | .mcfgClear _ => .mcfgClear
  | .streamCommandStart _ => .streamCommandStart
  | .streamElementFault _ _ => .streamElementFault
  | .streamRetire _ _ => .streamRetire
  | .qsetCompletion _ _ => .qsetCompletion
  | .gcfgLoadEnd _ => .gcfgLoadEnd
  | .grunCompletion _ => .grunCompletion
  | .gstopBoundary _ => .gstopBoundary
  | .fabricInvocationStart _ => .fabricInvocationStart
  | .fabricInvocationEnd _ => .fabricInvocationEnd
  | .packetArrival _ _ _ => .packetArrival
  | .flowRowSend _ _ => .flowRowSend
  | .rowLanding _ _ _ => .rowLanding
  | .landingAcknowledgement _ => .landingAcknowledgement
  | .lossAcknowledgement _ => .lossAcknowledgement
  | .parkedRowRetry _ => .parkedRowRetry
  | .flowRowLost _ => .flowRowLost
  | .creditTokenArrival _ _ => .creditTokenArrival
  | .channelCommandStart _ => .channelCommandStart
  | .chrecvCompletion _ _ => .chrecvCompletion
  | .ringInstanceStart _ _ => .ringInstanceStart
  | .ringPacketArrival _ _ => .ringPacketArrival
  | .ringInstanceCompletion _ _ => .ringInstanceCompletion
  | .remoteTimeout _ _ => .remoteTimeout
  | .abortTokenArrival _ _ => .abortTokenArrival
  | .ringCommit _ _ => .ringCommit
  | .ringCommitReread _ _ => .ringCommitReread
  | .linkTimeout _ => .linkTimeout
  | .linkPacketArrival _ _ => .linkPacketArrival
  | .linkTraining _ _ _ _ => .linkTraining
  | .stepBarrierOpen _ _ _ => .stepBarrierOpen
  | .drainStart _ _ => .drainStart
  | .semaddApply _ _ => .semaddApply
  | .atomicResponse _ _ => .atomicResponse
  | .draftldCompletion _ _ => .draftldCompletion
  | .tlbiCompletion _ _ => .tlbiCompletion
  | .evacCompletion _ _ => .evacCompletion
  | .retireAccepted _ _ => .retireAccepted
  | .stashCommandCompletion _ _ => .stashCommandCompletion
  | .copyCompletion _ _ => .copyCompletion
  | .qsaveCompletion _ _ => .qsaveCompletion
  | .opreqGo _ _ => .opreqGo
  | .operatingPointStepEnd => .operatingPointStepEnd
  | .thermalThrottle => .thermalThrottle
  | .thermalRecovery => .thermalRecovery
  | .thermalReset _ => .thermalReset
  | .moduleReset _ => .moduleReset
  | .reconfigurationRequest _ => .reconfigurationRequest
  | .getDigests _ _ => .getDigests
  | .getCertificate _ _ => .getCertificate
  | .challenge _ _ _ => .challenge
  | .getMeasurements _ _ _ _ => .getMeasurements
  | .keyExchange _ _ _ => .keyExchange
  | .finish _ _ => .finish
  | .keyload _ _ _ _ => .keyload
  | .keyclear _ _ => .keyclear
  | .rowSparing _ => .rowSparing
  | .shadowLatchReplay _ => .shadowLatchReplay
  | .hostWrite _ _ _ _ => .hostWrite
  | .hostRead _ _ _ _ => .hostRead
  | .tdiError _ => .tdiError
  | .crctlWrite _ _ _ => .crctlWrite
  | .flogstWrite _ _ => .flogstWrite
  | .fqstatWrite _ _ => .fqstatWrite
  | .ststatWrite _ _ => .ststatWrite
  | .lpstatWrite _ _ => .lpstatWrite
  | .notstatWrite _ _ => .notstatWrite
  | .silcntWrite _ _ => .silcntWrite
  | .fetchFault _ => .fetchFault
  | .bundleWithPmZero _ => .bundleWithPmZero
  | .writeBackPerformed _ _ => .writeBackPerformed
  | .launchAppend _ _ => .launchAppend
  | .qrestCompletion _ _ => .qrestCompletion
  | .streamDataArrival _ _ => .streamDataArrival
  | .storeStreamElementPerformed _ _ => .storeStreamElementPerformed
  | .tdispRequest _ _ => .tdispRequest

end Sys2Proof
end

