-- ==== Sys2Proof/WellFormed.lean ====
section
/-! DEFINITION. The checks made on an encoding before the guard is read (04 R77) that the shape of a term does not already
make: a term that fails one is no instruction. -/

namespace Sys2Proof

/-- Where GE is 0, GS and GP are zero (03 R51). -/
def Guard.wf (g : Guard) : Bool := g.ge || (!g.gs && g.gp == 0)

/-- The .i types (00 R9). -/
def IType.signed : IType → Bool
  | .i8 | .i16 | .i32 | .i64 => true
  | .n8 | .n16 | .n32 | .n64 => false

/-- The types of LDACQ and STREL (11 R276, 18 STREL). -/
def IType.wide32 : IType → Bool
  | .i32 | .i64 | .n32 | .n64 => true
  | .i8 | .i16 | .n8 | .n16 => false

/-- The fields of a test that MWB does not make are zero, and every target lies in c0 to c15 (17 R451, R453). -/
def OpMwb.wf (o : OpMwb) : Bool :=
  let n := o.nm1.toNat + 1
  decide (o.tb.toNat + n ≤ 15) && decide (o.sns.toNat < 2 ^ n)
    && (2 ≤ n || o.p1 == 0) && (3 ≤ n || o.p2 == 0) && (4 ≤ n || o.p3 == 0)

/-- The ranges of LOGD and LOGB, and VB and HB zero where the keys come from va (19 R530). -/
def OpVcswap.wf (o : OpVcswap) : Bool :=
  let top := if o.ft = .f32 then 5 else 6
  decide (o.logd.toNat < top) && (o.logb == 0 || (decide (o.logd.toNat < o.logb.toNat) && decide (o.logb.toNat ≤ top)))
    && (o.fol || (o.b == 0 && !o.hb))

/-- The target types of VCVT (19 R535). -/
def OpVcvt.wf (o : OpVcvt) : Bool :=
  match o.tt with
  | .bf16 | .int .i16 | .int .n16 => o.ft == .f32
  | .e4m3 | .e5m2 | .e3m2 | .e2m1 | .int .i8 | .int .n8 => true
  | .f32 | .int .i32 | .int .i64 | .int .n32 | .int .n64 => false

/-- The eight-bit and six-bit floating types that may be paired with each other. -/
def EType.fp8 : EType → Bool
  | .e4m3 | .e5m2 | .e3m2 => true
  | .int _ | .f32 | .bf16 | .e2m1 => false

/-- The legal format pairs (06 R121 Table 4). -/
def OpMfmt.wf (o : OpMfmt) : Bool :=
  (o.at' == .bf16 && o.bt == .bf16 && !o.sc) || (o.at' == .f32 && o.bt == .f32 && !o.sc) || (o.at'.fp8 && o.bt.fp8)
    || (o.at' == .e2m1 && o.bt == .e2m1) || (o.at' == .int .i8 && o.bt == .int .i8 && !o.sc)

/-- The guard of a slot operation; an event has none. -/
def Instr.guard : Instr → Option Guard
  | .br o => some o.g
  | .brc o => some o.g
  | .call o => some o.g
  | .ret o => some o.g
  | .loop o => some o.g
  | .eret o => some o.g
  | .trap o => some o.g
  | .yield o => some o.g
  | .retire o => some o.g
  | .halt o => some o.g
  | .launch o => some o.g
  | .mfsr o => some o.g
  | .mtsr o => some o.g
  | .tlbi o => some o.g
  | .fenset o => some o.g
  | .evac o => some o.g
  | .draftld o => some o.g
  | .cmpC o => some o.g
  | .cmpiC o => some o.g
  | .addiC o => some o.g
  | .liC o => some o.g
  | .xmovC o => some o.g
  | .pandC o => some o.g
  | .porC o => some o.g
  | .pxorC o => some o.g
  | .pnotC o => some o.g
  | .psetC o => some o.g
  | .pmovC o => some o.g
  | .add o => some o.g
  | .addiI o => some o.g
  | .sub o => some o.g
  | .mul o => some o.g
  | .mulh o => some o.g
  | .div o => some o.g
  | .rem o => some o.g
  | .and o => some o.g
  | .or o => some o.g
  | .xor o => some o.g
  | .andn o => some o.g
  | .shl o => some o.g
  | .shr o => some o.g
  | .sra o => some o.g
  | .rotl o => some o.g
  | .clz o => some o.g
  | .popc o => some o.g
  | .min o => some o.g
  | .max o => some o.g
  | .abs o => some o.g
  | .sel o => some o.g
  | .cmpI o => some o.g
  | .cmpiI o => some o.g
  | .liI o => some o.g
  | .lih o => some o.g
  | .lea o => some o.g
  | .bfx o => some o.g
  | .bfi o => some o.g
  | .xmovI o => some o.g
  | .ld o => some o.g
  | .st o => some o.g
  | .lda o => some o.g
  | .chka o => some o.g
  | .ldacq o => some o.g
  | .strel o => some o.g
  | .pandIF o => some o.g
  | .porIF o => some o.g
  | .pxorIF o => some o.g
  | .pnotIF o => some o.g
  | .psetIF o => some o.g
  | .pmovIF o => some o.g
  | .vadd o => some o.g
  | .vsub o => some o.g
  | .vmul o => some o.g
  | .vmax o => some o.g
  | .vmin o => some o.g
  | .vabs o => some o.g
  | .vneg o => some o.g
  | .vrnd o => some o.g
  | .vldexp o => some o.g
  | .vexp2 o => some o.g
  | .vlog2 o => some o.g
  | .vrcp o => some o.g
  | .vrsq o => some o.g
  | .vred o => some o.g
  | .vscan o => some o.g
  | .vperm o => some o.g
  | .vbcast o => some o.g
  | .viota o => some o.g
  | .vmov o => some o.g
  | .vpack o => some o.g
  | .vunpk o => some o.g
  | .vld o => some o.g
  | .vst o => some o.g
  | .vgath o => some o.g
  | .vscat o => some o.g
  | .mcfg o => some o.g
  | .mfmt o => some o.g
  | .mdrain o => some o.g
  | .mma o => some o.g
  | .mmaz o => some o.g
  | .mbld o => some o.g
  | .mzero o => some o.g
  | .mzrd o => some o.g
  | .mzwr o => some o.g
  | .mzst o => some o.g
  | .mzld o => some o.g
  | .mtrn o => some o.g
  | .mbfly o => some o.g
  | .mtwid o => some o.g
  | .qset o => some o.g
  | .qld o => some o.g
  | .qst o => some o.g
  | .qgath o => some o.g
  | .qscat o => some o.g
  | .qcopy o => some o.g
  | .qrcopy o => some o.g
  | .qccopy o => some o.g
  | .gcfg o => some o.g
  | .grun o => some o.g
  | .gstop o => some o.g
  | .qsave o => some o.g
  | .qrest o => some o.g
  | .spin o => some o.g
  | .sunpin o => some o.g
  | .swb o => some o.g
  | .sinv o => some o.g
  | .semset o => some o.g
  | .semadd o => some o.g
  | .semwait o => some o.g
  | .fence o => some o.g
  | .drain o => some o.g
  | .step o => some o.g
  | .aadd o => some o.g
  | .aand o => some o.g
  | .aor o => some o.g
  | .axor o => some o.g
  | .amin o => some o.g
  | .amax o => some o.g
  | .aswp o => some o.g
  | .chsend o => some o.g
  | .chrecv o => some o.g
  | .chstart o => some o.g
  | .chabort o => some o.g
  | .tstart o => some o.g
  | .rdtime o => some o.g
  | .br64 o => some o.g
  | .brc64 o => some o.g
  | .mwb o => some o.g
  | .call64 o => some o.g
  | .trap64 o => some o.g
  | .cmpiC64 o => some o.g
  | .addiC64 o => some o.g
  | .liC64 o => some o.g
  | .psetC64 o => some o.g
  | .addiI64 o => some o.g
  | .sel64 o => some o.g
  | .cmpiI64 o => some o.g
  | .liI64 o => some o.g
  | .lih64 o => some o.g
  | .lea64 o => some o.g
  | .bfxImm o => some o.g
  | .bfiImm o => some o.g
  | .ld64 o => some o.g
  | .st64 o => some o.g
  | .lda64 o => some o.g
  | .chka64 o => some o.g
  | .ldacq64 o => some o.g
  | .strel64 o => some o.g
  | .psetIF64 o => some o.g
  | .vfma o => some o.g
  | .vfms o => some o.g
  | .vcmp o => some o.g
  | .vsel o => some o.g
  | .vcvt o => some o.g
  | .vrnd64 o => some o.g
  | .vclass o => some o.g
  | .vcswap o => some o.g
  | .vbcast64 o => some o.g
  | .vpack64 o => some o.g
  | .vld64 o => some o.g
  | .vst64 o => some o.g
  | .vgath64 o => some o.g
  | .vscat64 o => some o.g
  | .mfmt64 o _ => some o.g
  | .mdrain64 o _ => some o.g
  | .mma64 o _ => some o.g
  | .mmaz64 o _ => some o.g
  | .mbld64 o _ => some o.g
  | .mzero64 o _ => some o.g
  | .mzrd64 o _ => some o.g
  | .mzwr64 o _ => some o.g
  | .mzst64 o _ => some o.g
  | .mzld64 o _ => some o.g
  | .mtrn64 o _ => some o.g
  | .mbfly64 o _ => some o.g
  | .mtwid64 o _ => some o.g
  | .qset64 o _ => some o.g
  | .qld64 o _ => some o.g
  | .qst64 o _ => some o.g
  | .qgath64 o _ => some o.g
  | .qscat64 o _ => some o.g
  | .qcopy64 o _ => some o.g
  | .qrcopy64 o _ => some o.g
  | .qccopy64 o _ => some o.g
  | .gcfg64 o _ => some o.g
  | .grun64 o _ => some o.g
  | .gstop64 o _ => some o.g
  | .qsave64 o _ => some o.g
  | .qrest64 o _ => some o.g
  | .spin64 o _ => some o.g
  | .sunpin64 o _ => some o.g
  | .swb64 o _ => some o.g
  | .sinv64 o _ => some o.g
  | .semset64 o => some o.g
  | .semadd64 o _ => some o.g
  | .semwait64 o => some o.g
  | .drain64 o _ => some o.g
  | .step64 o _ => some o.g
  | .aadd64 o => some o.g
  | .aand64 o => some o.g
  | .aor64 o => some o.g
  | .axor64 o => some o.g
  | .amin64 o => some o.g
  | .amax64 o => some o.g
  | .aswp64 o => some o.g
  | .acas o => some o.g
  | .chsend64 o _ => some o.g
  | .chrecv64 o _ => some o.g
  | .chstart64 o _ => some o.g
  | .chabort64 o _ => some o.g
  | .qtailWrite | .residencyQuantumBoundary | .dispatch | .launchPlacement | .launchSemaphoreWrite
  | .launchCompletion | .clusterPowerGate | .issueCounterYield | .eventTaken | .noticeTaken | .stashFillArrival
  | .watchdog | .timeGateFire | .prectlGo | .preemptLimitExpiry | .matrixQueueStart | .mmaCompletion
  | .mbldCompletion | .mzstCompletion | .mzldCompletion | .mtrnCompletion | .mbflyCompletion | .mtwidCompletion
  | .mfmtCompletion | .mdrainStart | .mzrdCompletion | .mzwrCompletion | .mzeroCompletion | .mcfgClear
  | .streamCommandStart | .streamElementFault | .streamRetire | .qsetCompletion | .gcfgLoadEnd | .grunCompletion
  | .gstopBoundary | .fabricInvocationStart | .fabricInvocationEnd | .packetArrival | .flowRowSend | .rowLanding
  | .landingAcknowledgement | .lossAcknowledgement | .parkedRowRetry | .flowRowLost | .creditTokenArrival
  | .channelCommandStart | .chrecvCompletion | .ringInstanceStart | .ringPacketArrival | .ringInstanceCompletion
  | .remoteTimeout | .abortTokenArrival | .ringCommit | .ringCommitReread | .linkTimeout | .linkPacketArrival
  | .linkTraining | .stepBarrierOpen | .drainStart | .semaddApply | .atomicResponse | .draftldCompletion
  | .tlbiCompletion | .evacCompletion | .retireAccepted | .stashCommandCompletion | .copyCompletion
  | .qsaveCompletion | .opreqGo | .operatingPointStepEnd | .thermalThrottle | .thermalRecovery | .thermalReset
  | .moduleReset | .reconfigurationRequest | .getDigests | .getCertificate | .challenge | .getMeasurements
  | .keyExchange | .finish | .keyload | .keyclear | .rowSparing | .shadowLatchReplay | .hostWrite | .hostRead
  | .tdiError | .crctlWrite | .flogstWrite | .fqstatWrite | .ststatWrite | .lpstatWrite | .notstatWrite
  | .silcntWrite | .fetchFault | .bundleWithPmZero | .writeBackPerformed | .launchAppend | .qrestCompletion
  | .streamDataArrival | .storeStreamElementPerformed | .tdispRequest => none

/-- The rules on the operands of one instruction that its operand structure does not already force. -/
def Instr.fieldsOk : Instr → Bool
  | .loop o => 1 ≤ o.size4.toNat && o.size4.toNat ≤ 480
  | .xmovC o => o.sf ≠ .c || o.a.toNat < 16
  | .abs o => o.t.signed
  | .xmovI o => o.sf ≠ .c || o.a.toNat < 16
  | .ldacq o => o.t.wide32
  | .strel o => o.t.wide32
  | .mfmt o => o.wf
  | .mzrd o => o.ft ≠ .bf16 || !o.h
  | .mzwr o => o.ft ≠ .bf16 || !o.h
  | .mtwid o => o.nm1 ≠ 0
  | .fence o => o.scope.toNat < 6
  | .tstart o => o.inc ≠ 0
  | .mwb o => o.wf
  | .bfxImm o => o.pos.toNat + o.lm1.toNat + 1 ≤ 64
  | .bfiImm o => o.pos.toNat + o.lm1.toNat + 1 ≤ 64
  | .ldacq64 o => o.t.wide32
  | .strel64 o => o.t.wide32
  | .vcmp o => o.ft ≠ .f32 || !o.h
  | .vcvt o => o.wf
  | .vclass o => o.ft ≠ .f32 || !o.h
  | .vcswap o => o.wf
  | .vbcast64 o => o.ft ≠ .f32 || o.idx.toNat < 32
  | .mfmt64 o _ => o.wf
  | .mzrd64 o _ => o.ft ≠ .bf16 || !o.h
  | .mzwr64 o _ => o.ft ≠ .bf16 || !o.h
  | .mtwid64 o _ => o.nm1 ≠ 0
  | .aadd64 o => o.c = 0
  | .aand64 o => o.c = 0
  | .aor64 o => o.c = 0
  | .axor64 o => o.c = 0
  | .amin64 o => o.c = 0
  | .amax64 o => o.c = 0
  | .aswp64 o => o.c = 0
  | .br _ | .brc _ | .call _ | .ret _ | .eret _ | .trap _ | .yield _ | .retire _ | .halt _ | .launch _ | .mfsr _
  | .mtsr _ | .tlbi _ | .fenset _ | .evac _ | .draftld _ | .cmpC _ | .cmpiC _ | .addiC _ | .liC _ | .pandC _
  | .porC _ | .pxorC _ | .pnotC _ | .psetC _ | .pmovC _ | .add _ | .addiI _ | .sub _ | .mul _ | .mulh _ | .div _
  | .rem _ | .and _ | .or _ | .xor _ | .andn _ | .shl _ | .shr _ | .sra _ | .rotl _ | .clz _ | .popc _ | .min _
  | .max _ | .sel _ | .cmpI _ | .cmpiI _ | .liI _ | .lih _ | .lea _ | .bfx _ | .bfi _ | .ld _ | .st _ | .lda _
  | .chka _ | .pandIF _ | .porIF _ | .pxorIF _ | .pnotIF _ | .psetIF _ | .pmovIF _ | .vadd _ | .vsub _ | .vmul _
  | .vmax _ | .vmin _ | .vabs _ | .vneg _ | .vrnd _ | .vldexp _ | .vexp2 _ | .vlog2 _ | .vrcp _ | .vrsq _ | .vred _
  | .vscan _ | .vperm _ | .vbcast _ | .viota _ | .vmov _ | .vpack _ | .vunpk _ | .vld _ | .vst _ | .vgath _
  | .vscat _ | .mcfg _ | .mdrain _ | .mma _ | .mmaz _ | .mbld _ | .mzero _ | .mzst _ | .mzld _ | .mtrn _ | .mbfly _
  | .qset _ | .qld _ | .qst _ | .qgath _ | .qscat _ | .qcopy _ | .qrcopy _ | .qccopy _ | .gcfg _ | .grun _ | .gstop _
  | .qsave _ | .qrest _ | .spin _ | .sunpin _ | .swb _ | .sinv _ | .semset _ | .semadd _ | .semwait _ | .drain _
  | .step _ | .aadd _ | .aand _ | .aor _ | .axor _ | .amin _ | .amax _ | .aswp _ | .chsend _ | .chrecv _ | .chstart _
  | .chabort _ | .rdtime _ | .br64 _ | .brc64 _ | .call64 _ | .trap64 _ | .cmpiC64 _ | .addiC64 _ | .liC64 _
  | .psetC64 _ | .addiI64 _ | .sel64 _ | .cmpiI64 _ | .liI64 _ | .lih64 _ | .lea64 _ | .ld64 _ | .st64 _ | .lda64 _
  | .chka64 _ | .psetIF64 _ | .vfma _ | .vfms _ | .vsel _ | .vrnd64 _ | .vpack64 _ | .vld64 _ | .vst64 _ | .vgath64 _
  | .vscat64 _ | .mdrain64 _ _ | .mma64 _ _ | .mmaz64 _ _ | .mbld64 _ _ | .mzero64 _ _ | .mzst64 _ _ | .mzld64 _ _
  | .mtrn64 _ _ | .mbfly64 _ _ | .qset64 _ _ | .qld64 _ _ | .qst64 _ _ | .qgath64 _ _ | .qscat64 _ _ | .qcopy64 _ _
  | .qrcopy64 _ _ | .qccopy64 _ _ | .gcfg64 _ _ | .grun64 _ _ | .gstop64 _ _ | .qsave64 _ _ | .qrest64 _ _
  | .spin64 _ _ | .sunpin64 _ _ | .swb64 _ _ | .sinv64 _ _ | .semset64 _ | .semadd64 _ _ | .semwait64 _
  | .drain64 _ _ | .step64 _ _ | .acas _ | .chsend64 _ _ | .chrecv64 _ _ | .chstart64 _ _ | .chabort64 _ _
  | .qtailWrite | .residencyQuantumBoundary | .dispatch | .launchPlacement | .launchSemaphoreWrite
  | .launchCompletion | .clusterPowerGate | .issueCounterYield | .eventTaken | .noticeTaken | .stashFillArrival
  | .watchdog | .timeGateFire | .prectlGo | .preemptLimitExpiry | .matrixQueueStart | .mmaCompletion
  | .mbldCompletion | .mzstCompletion | .mzldCompletion | .mtrnCompletion | .mbflyCompletion | .mtwidCompletion
  | .mfmtCompletion | .mdrainStart | .mzrdCompletion | .mzwrCompletion | .mzeroCompletion | .mcfgClear
  | .streamCommandStart | .streamElementFault | .streamRetire | .qsetCompletion | .gcfgLoadEnd | .grunCompletion
  | .gstopBoundary | .fabricInvocationStart | .fabricInvocationEnd | .packetArrival | .flowRowSend | .rowLanding
  | .landingAcknowledgement | .lossAcknowledgement | .parkedRowRetry | .flowRowLost | .creditTokenArrival
  | .channelCommandStart | .chrecvCompletion | .ringInstanceStart | .ringPacketArrival | .ringInstanceCompletion
  | .remoteTimeout | .abortTokenArrival | .ringCommit | .ringCommitReread | .linkTimeout | .linkPacketArrival
  | .linkTraining | .stepBarrierOpen | .drainStart | .semaddApply | .atomicResponse | .draftldCompletion
  | .tlbiCompletion | .evacCompletion | .retireAccepted | .stashCommandCompletion | .copyCompletion
  | .qsaveCompletion | .opreqGo | .operatingPointStepEnd | .thermalThrottle | .thermalRecovery | .thermalReset
  | .moduleReset | .reconfigurationRequest | .getDigests | .getCertificate | .challenge | .getMeasurements
  | .keyExchange | .finish | .keyload | .keyclear | .rowSparing | .shadowLatchReplay | .hostWrite | .hostRead
  | .tdiError | .crctlWrite | .flogstWrite | .fqstatWrite | .ststatWrite | .lpstatWrite | .notstatWrite
  | .silcntWrite | .fetchFault | .bundleWithPmZero | .writeBackPerformed | .launchAppend | .qrestCompletion
  | .streamDataArrival | .storeStreamElementPerformed | .tdispRequest => true

/-- An instruction whose encoding raises no ILLEGAL_OP. An event has no encoding and is well formed. -/
def Instr.wf (i : Instr) : Bool :=
  (match i.guard with | some g => g.wf | none => true) && i.fieldsOk

end Sys2Proof
end

