-- ==== Sys2Proof/Decode.lean ====
section
/-! DEFINITION. Decoding: a slot word with its extension word to an instruction or a named rejection (04 R77 to R85), the bundle
header (03 R48, R49); after it the encoder, written from the same tables of the spec. -/

namespace Sys2Proof

/-- Why a slot word is no instruction: TRAPINFO[9] of ILLEGAL_OP (04 R77). -/
inductive Bad where
  /-- an opcode the slot's map does not assign -/
  | unassigned
  /-- a bad field of an assigned opcode, or a form that does not exist -/
  | field
deriving DecidableEq, Repr

/-- One bit as a Bool. -/
def bitOf (v : BitVec 1) : Bool := v == 1
/-- A Bool as one bit. -/
def bitBits (b : Bool) : BitVec 1 := if b then 1 else 0
/-- A c register field: 0 to 15 (04 R79). -/
def cOf (v : BitVec 5) : Option CReg := if v.toNat < 16 then some (v.extractLsb' 0 4) else none
/-- A c register in its five-bit field. -/
def cBits (c : CReg) : BitVec 5 := 0#1 ++ c
/-- The integer type codes (04 R80 Table 2). -/
def iTypeBits : IType → BitVec 4
  | .i8 => 0
  | .i16 => 1
  | .i32 => 2
  | .i64 => 3
  | .n8 => 4
  | .n16 => 5
  | .n32 => 6
  | .n64 => 7
/-- The inverse of iTypeBits; none for a code that is not assigned. -/
def iTypeOf (v : BitVec 4) : Option IType :=
  match v.toNat with
  | 0 => some .i8
  | 1 => some .i16
  | 2 => some .i32
  | 3 => some .i64
  | 4 => some .n8
  | 5 => some .n16
  | 6 => some .n32
  | 7 => some .n64
  | _ => none
/-- All the type codes (04 R80 Table 2). -/
def eTypeBits : EType → BitVec 4
  | .int .i8 => 0
  | .int .i16 => 1
  | .int .i32 => 2
  | .int .i64 => 3
  | .int .n8 => 4
  | .int .n16 => 5
  | .int .n32 => 6
  | .int .n64 => 7
  | .f32 => 8
  | .bf16 => 9
  | .e4m3 => 10
  | .e5m2 => 11
  | .e3m2 => 12
  | .e2m1 => 13
/-- The inverse of eTypeBits; none for a code that is not assigned. -/
def eTypeOf (v : BitVec 4) : Option EType :=
  match v.toNat with
  | 0 => some (.int .i8)
  | 1 => some (.int .i16)
  | 2 => some (.int .i32)
  | 3 => some (.int .i64)
  | 4 => some (.int .n8)
  | 5 => some (.int .n16)
  | 6 => some (.int .n32)
  | 7 => some (.int .n64)
  | 8 => some .f32
  | 9 => some .bf16
  | 10 => some .e4m3
  | 11 => some .e5m2
  | 12 => some .e3m2
  | 13 => some .e2m1
  | _ => none
/-- The FT field of format V (04 R80). -/
def fType2Bits : FType → BitVec 2
  | .f32 => 0
  | .bf16 => 1
/-- The inverse of fType2Bits; none for a code that is not assigned. -/
def fType2Of (v : BitVec 2) : Option FType :=
  match v.toNat with
  | 0 => some .f32
  | 1 => some .bf16
  | _ => none
/-- The T field of VLD and VST (04 R80, 19 R541). -/
def fTypeTBits : FType → BitVec 4
  | .f32 => 8
  | .bf16 => 9
/-- The inverse of fTypeTBits; none for a code that is not assigned. -/
def fTypeTOf (v : BitVec 4) : Option FType :=
  match v.toNat with
  | 8 => some .f32
  | 9 => some .bf16
  | _ => none
/-- The FT bit of MZRD and MZWR (17 R418). -/
def fType1Of (v : BitVec 1) : FType := if v == 1 then .bf16 else .f32
/-- The FT bit of MZRD and MZWR. -/
def fType1Bits : FType → BitVec 1
  | .f32 => 0
  | .bf16 => 1
/-- The CC field of format K (04 R81). -/
def condBits : Cond → BitVec 3
  | .eq => 0
  | .ne => 1
  | .lt => 2
  | .ge => 3
  | .gt => 4
  | .le => 5
/-- The inverse of condBits; none for a code that is not assigned. -/
def condOf (v : BitVec 3) : Option Cond :=
  match v.toNat with
  | 0 => some .eq
  | 1 => some .ne
  | 2 => some .lt
  | 3 => some .ge
  | 4 => some .gt
  | 5 => some .le
  | _ => none
/-- The CC field of VCMP (19 R527). -/
def vCondBits : VCond → BitVec 3
  | .eq => 0
  | .ne => 1
  | .lt => 2
  | .le => 3
  | .gt => 4
  | .ge => 5
  | .un => 6
/-- The inverse of vCondBits; none for a code that is not assigned. -/
def vCondOf (v : BitVec 3) : Option VCond :=
  match v.toNat with
  | 0 => some .eq
  | 1 => some .ne
  | 2 => some .lt
  | 3 => some .le
  | 4 => some .gt
  | 5 => some .ge
  | 6 => some .un
  | _ => none
/-- The OP field of VRED and VSCAN (19 VRED). -/
def redOpBits : RedOp → BitVec 2
  | .add => 0
  | .max => 1
  | .min => 2
/-- The inverse of redOpBits; none for a code that is not assigned. -/
def redOpOf (v : BitVec 2) : Option RedOp :=
  match v.toNat with
  | 0 => some .add
  | 1 => some .max
  | 2 => some .min
  | _ => none
/-- The SF field of XMOV (04 R79). -/
def xFileBits : XFile → BitVec 2
  | .x => 0
  | .y => 1
  | .c => 2
/-- The inverse of xFileBits; none for a code that is not assigned. -/
def xFileOf (v : BitVec 2) : Option XFile :=
  match v.toNat with
  | 0 => some .x
  | 1 => some .y
  | 2 => some .c
  | _ => none
/-- The SF field of PMOV (04 R79). -/
def bankBits : Bank → BitVec 2
  | .pk => 0
  | .pi => 1
  | .pv => 2
/-- The inverse of bankBits; none for a code that is not assigned. -/
def bankOf (v : BitVec 2) : Option Bank :=
  match v.toNat with
  | 0 => some .pk
  | 1 => some .pi
  | 2 => some .pv
  | _ => none

/-- A form without an extension word, or with a zero one (19 R517). -/
def zeroExt (x : Option Word32) : Bool :=
  match x with
  | none => true
  | some e => e == 0

/-- The synchronisation word (04 R83 Table 3). -/
def syncOf (x : Word32) : Sync := ⟨x.extractLsb' 24 8, x.extractLsb' 12 12, x.extractLsb' 4 8, x.extractLsb' 0 4⟩
/-- The bits of a synchronisation word. -/
def syncBits (s : Sync) : Word32 := s.ws ++ s.wt ++ s.ss ++ s.si

/-- The operands OpN in the bits of a word. -/
def parseN (g : Guard) (o : BitVec 19) : Option OpN :=
  if o == 0 then some ⟨g⟩ else none
/-- Bits [18:0] of a word with the operands OpN. -/
def bitsN (_p : OpN) : BitVec 19 := 0#19
/-- The operands OpJ in the bits of a word. -/
def parseJ (g : Guard) (o : BitVec 19) : Option OpJ :=
  some ⟨g, o⟩
/-- Bits [18:0] of a word with the operands OpJ. -/
def bitsJ (p : OpJ) : BitVec 19 := p.disp
/-- The operands OpJ64 in the bits of a word. -/
def parseJ64 (g : Guard) (o : BitVec 19) (x : Word32) : Option OpJ64 :=
  if o == 0 then some ⟨g, x⟩ else none
/-- Bits [18:0] of a word with the operands OpJ64. -/
def bitsJ64 (_p : OpJ64) : BitVec 19 := 0#19
/-- The extension word with the operands OpJ64. -/
def extJ64 (p : OpJ64) : Word32 := p.disp
/-- The operands OpK in the bits of a word. -/
def parseK (g : Guard) (o : BitVec 19) : Option OpK := do
  let a ← cOf (o.extractLsb' 14 5)
  let cc ← condOf (o.extractLsb' 11 3)
  some ⟨g, a, cc, o.extractLsb' 0 11⟩
/-- Bits [18:0] of a word with the operands OpK. -/
def bitsK (p : OpK) : BitVec 19 := cBits p.a ++ condBits p.cc ++ p.disp
/-- The operands OpK64 in the bits of a word. -/
def parseK64 (g : Guard) (o : BitVec 19) (x : Word32) : Option OpK64 := do
  let a ← cOf (o.extractLsb' 14 5)
  let cc ← condOf (o.extractLsb' 11 3)
  if o.extractLsb' 0 11 == 0 then some ⟨g, a, cc, x⟩ else none
/-- Bits [18:0] of a word with the operands OpK64. -/
def bitsK64 (p : OpK64) : BitVec 19 := cBits p.a ++ condBits p.cc ++ 0#11
/-- The extension word with the operands OpK64. -/
def extK64 (p : OpK64) : Word32 := p.disp
/-- The operands OpMwb in the bits of a word. -/
def parseMwb (g : Guard) (o : BitVec 19) (x : Word32) : Option OpMwb := do
  let tb ← cOf (o.extractLsb' 8 5)
  if o.extractLsb' 0 8 == 0 && x.extractLsb' 29 3 == 0 && x.extractLsb' 21 3 == 0 && x.extractLsb' 13 3 == 0 && x.extractLsb' 5 3 == 0 then
    some ⟨g, o.extractLsb' 17 2, o.extractLsb' 13 4, tb, x.extractLsb' 0 5, x.extractLsb' 8 5, x.extractLsb' 16 5, x.extractLsb' 24 5⟩
  else none
/-- Bits [18:0] of a word with the operands OpMwb. -/
def bitsMwb (p : OpMwb) : BitVec 19 := p.nm1 ++ p.sns ++ cBits p.tb ++ 0#8
/-- The extension word with the operands OpMwb. -/
def extMwb (p : OpMwb) : Word32 := 0#3 ++ p.p3 ++ 0#3 ++ p.p2 ++ 0#3 ++ p.p1 ++ 0#3 ++ p.p0
/-- The operands OpLoop in the bits of a word. -/
def parseLoop (g : Guard) (o : BitVec 19) : Option OpLoop := do
  let a ← cOf (o.extractLsb' 14 5)
  if o.extractLsb' 0 5 == 0 then some ⟨g, a, o.extractLsb' 5 9⟩ else none
/-- Bits [18:0] of a word with the operands OpLoop. -/
def bitsLoop (p : OpLoop) : BitVec 19 := cBits p.a ++ p.size4 ++ 0#5
/-- The operands OpTrap in the bits of a word. -/
def parseTrap (g : Guard) (o : BitVec 19) : Option OpTrap :=
  if o.extractLsb' 16 3 == 0 then some ⟨g, o.extractLsb' 0 16⟩ else none
/-- Bits [18:0] of a word with the operands OpTrap. -/
def bitsTrap (p : OpTrap) : BitVec 19 := 0#3 ++ p.imm
/-- The operands OpTrap64 in the bits of a word. -/
def parseTrap64 (g : Guard) (o : BitVec 19) (x : Word32) : Option OpTrap64 :=
  if o == 0 then some ⟨g, x⟩ else none
/-- Bits [18:0] of a word with the operands OpTrap64. -/
def bitsTrap64 (_p : OpTrap64) : BitVec 19 := 0#19
/-- The extension word with the operands OpTrap64. -/
def extTrap64 (p : OpTrap64) : Word32 := p.imm
/-- The operands OpC3 in the bits of a word. -/
def parseC3 (g : Guard) (o : BitVec 19) : Option OpC3 := do
  let d ← cOf (o.extractLsb' 14 5)
  let a ← cOf (o.extractLsb' 9 5)
  let b ← cOf (o.extractLsb' 4 5)
  if o.extractLsb' 0 4 == 0 then some ⟨g, d, a, b⟩ else none
/-- Bits [18:0] of a word with the operands OpC3. -/
def bitsC3 (p : OpC3) : BitVec 19 := cBits p.d ++ cBits p.a ++ cBits p.b ++ 0#4
/-- The operands OpC2 in the bits of a word. -/
def parseC2 (g : Guard) (o : BitVec 19) : Option OpC2 := do
  let d ← cOf (o.extractLsb' 14 5)
  let a ← cOf (o.extractLsb' 9 5)
  if o.extractLsb' 0 9 == 0 then some ⟨g, d, a⟩ else none
/-- Bits [18:0] of a word with the operands OpC2. -/
def bitsC2 (p : OpC2) : BitVec 19 := cBits p.d ++ cBits p.a ++ 0#9
/-- The operands OpTlbi in the bits of a word. -/
def parseTlbi (g : Guard) (o : BitVec 19) : Option OpTlbi := do
  let a ← cOf (o.extractLsb' 14 5)
  let b ← cOf (o.extractLsb' 9 5)
  if o.extractLsb' 0 9 == 0 then some ⟨g, a, b⟩ else none
/-- Bits [18:0] of a word with the operands OpTlbi. -/
def bitsTlbi (p : OpTlbi) : BitVec 19 := cBits p.a ++ cBits p.b ++ 0#9
/-- The operands OpS in the bits of a word. -/
def parseS (g : Guard) (o : BitVec 19) : Option OpS := do
  let r ← cOf (o.extractLsb' 14 5)
  if o.extractLsb' 0 4 == 0 then some ⟨g, r, o.extractLsb' 4 10⟩ else none
/-- Bits [18:0] of a word with the operands OpS. -/
def bitsS (p : OpS) : BitVec 19 := cBits p.r ++ p.srn ++ 0#4
/-- The operands OpCmpC in the bits of a word. -/
def parseCmpC (g : Guard) (o : BitVec 19) : Option OpCmpC := do
  let a ← cOf (o.extractLsb' 9 5)
  let b ← cOf (o.extractLsb' 4 5)
  let t ← iTypeOf (o.extractLsb' 0 4)
  some ⟨g, o.extractLsb' 14 5, a, b, t⟩
/-- Bits [18:0] of a word with the operands OpCmpC. -/
def bitsCmpC (p : OpCmpC) : BitVec 19 := p.d ++ cBits p.a ++ cBits p.b ++ iTypeBits p.t
/-- The operands OpCmpiC in the bits of a word. -/
def parseCmpiC (g : Guard) (o : BitVec 19) : Option OpCmpiC := do
  let a ← cOf (o.extractLsb' 9 5)
  some ⟨g, o.extractLsb' 14 5, a, o.extractLsb' 0 9⟩
/-- Bits [18:0] of a word with the operands OpCmpiC. -/
def bitsCmpiC (p : OpCmpiC) : BitVec 19 := p.d ++ cBits p.a ++ p.imm
/-- The operands OpCmpiC64 in the bits of a word. -/
def parseCmpiC64 (g : Guard) (o : BitVec 19) (x : Word32) : Option OpCmpiC64 := do
  let a ← cOf (o.extractLsb' 9 5)
  if o.extractLsb' 0 9 == 0 then some ⟨g, o.extractLsb' 14 5, a, x⟩ else none
/-- Bits [18:0] of a word with the operands OpCmpiC64. -/
def bitsCmpiC64 (p : OpCmpiC64) : BitVec 19 := p.d ++ cBits p.a ++ 0#9
/-- The extension word with the operands OpCmpiC64. -/
def extCmpiC64 (p : OpCmpiC64) : Word32 := p.imm
/-- The operands OpAddiC in the bits of a word. -/
def parseAddiC (g : Guard) (o : BitVec 19) : Option OpAddiC := do
  let d ← cOf (o.extractLsb' 14 5)
  let a ← cOf (o.extractLsb' 9 5)
  some ⟨g, d, a, o.extractLsb' 0 9⟩
/-- Bits [18:0] of a word with the operands OpAddiC. -/
def bitsAddiC (p : OpAddiC) : BitVec 19 := cBits p.d ++ cBits p.a ++ p.imm
/-- The operands OpAddiC64 in the bits of a word. -/
def parseAddiC64 (g : Guard) (o : BitVec 19) (x : Word32) : Option OpAddiC64 := do
  let d ← cOf (o.extractLsb' 14 5)
  let a ← cOf (o.extractLsb' 9 5)
  if o.extractLsb' 0 9 == 0 then some ⟨g, d, a, x⟩ else none
/-- Bits [18:0] of a word with the operands OpAddiC64. -/
def bitsAddiC64 (p : OpAddiC64) : BitVec 19 := cBits p.d ++ cBits p.a ++ 0#9
/-- The extension word with the operands OpAddiC64. -/
def extAddiC64 (p : OpAddiC64) : Word32 := p.imm
/-- The operands OpLiC in the bits of a word. -/
def parseLiC (g : Guard) (o : BitVec 19) : Option OpLiC := do
  let d ← cOf (o.extractLsb' 14 5)
  some ⟨g, d, o.extractLsb' 0 14⟩
/-- Bits [18:0] of a word with the operands OpLiC. -/
def bitsLiC (p : OpLiC) : BitVec 19 := cBits p.d ++ p.imm
/-- The operands OpLiC64 in the bits of a word. -/
def parseLiC64 (g : Guard) (o : BitVec 19) (x : Word32) : Option OpLiC64 := do
  let d ← cOf (o.extractLsb' 14 5)
  if o.extractLsb' 0 14 == 0 then some ⟨g, d, x⟩ else none
/-- Bits [18:0] of a word with the operands OpLiC64. -/
def bitsLiC64 (p : OpLiC64) : BitVec 19 := cBits p.d ++ 0#14
/-- The extension word with the operands OpLiC64. -/
def extLiC64 (p : OpLiC64) : Word32 := p.imm
/-- The operands OpXmovC in the bits of a word. -/
def parseXmovC (g : Guard) (o : BitVec 19) : Option OpXmovC := do
  let d ← cOf (o.extractLsb' 14 5)
  let sf ← xFileOf (o.extractLsb' 7 2)
  if o.extractLsb' 0 7 == 0 then some ⟨g, d, o.extractLsb' 9 5, sf⟩ else none
/-- Bits [18:0] of a word with the operands OpXmovC. -/
def bitsXmovC (p : OpXmovC) : BitVec 19 := cBits p.d ++ p.a ++ xFileBits p.sf ++ 0#7
/-- The operands OpP3C in the bits of a word. -/
def parseP3C (g : Guard) (o : BitVec 19) : Option OpP3C :=
  if o.extractLsb' 0 4 == 0 then some ⟨g, o.extractLsb' 14 5, o.extractLsb' 9 5, o.extractLsb' 4 5⟩ else none
/-- Bits [18:0] of a word with the operands OpP3C. -/
def bitsP3C (p : OpP3C) : BitVec 19 := p.d ++ p.a ++ p.b ++ 0#4
/-- The operands OpP2C in the bits of a word. -/
def parseP2C (g : Guard) (o : BitVec 19) : Option OpP2C :=
  if o.extractLsb' 0 9 == 0 then some ⟨g, o.extractLsb' 14 5, o.extractLsb' 9 5⟩ else none
/-- Bits [18:0] of a word with the operands OpP2C. -/
def bitsP2C (p : OpP2C) : BitVec 19 := p.d ++ p.a ++ 0#9
/-- The operands OpPsetC in the bits of a word. -/
def parsePsetC (g : Guard) (o : BitVec 19) : Option OpPsetC :=
  some ⟨g, o.extractLsb' 14 5, o.extractLsb' 0 14⟩
/-- Bits [18:0] of a word with the operands OpPsetC. -/
def bitsPsetC (p : OpPsetC) : BitVec 19 := p.d ++ p.imm
/-- The operands OpPsetC64 in the bits of a word. -/
def parsePsetC64 (g : Guard) (o : BitVec 19) (x : Word32) : Option OpPsetC64 :=
  if o.extractLsb' 0 14 == 0 then some ⟨g, o.extractLsb' 14 5, x⟩ else none
/-- Bits [18:0] of a word with the operands OpPsetC64. -/
def bitsPsetC64 (p : OpPsetC64) : BitVec 19 := p.d ++ 0#14
/-- The extension word with the operands OpPsetC64. -/
def extPsetC64 (p : OpPsetC64) : Word32 := p.imm
/-- The operands OpPmovC in the bits of a word. -/
def parsePmovC (g : Guard) (o : BitVec 19) : Option OpPmovC := do
  let sf ← bankOf (o.extractLsb' 7 2)
  if o.extractLsb' 0 7 == 0 then some ⟨g, o.extractLsb' 14 5, o.extractLsb' 9 5, sf⟩ else none
/-- Bits [18:0] of a word with the operands OpPmovC. -/
def bitsPmovC (p : OpPmovC) : BitVec 19 := p.d ++ p.a ++ bankBits p.sf ++ 0#7
/-- The operands OpIA in the bits of a word. -/
def parseIA (sl : ISlot) (g : Guard) (o : BitVec 19) : Option OpIA := do
  let t ← iTypeOf (o.extractLsb' 0 4)
  some ⟨sl, g, o.extractLsb' 14 5, o.extractLsb' 9 5, o.extractLsb' 4 5, t⟩
/-- Bits [18:0] of a word with the operands OpIA. -/
def bitsIA (p : OpIA) : BitVec 19 := p.d ++ p.a ++ p.b ++ iTypeBits p.t
/-- The operands OpIA1 in the bits of a word. -/
def parseIA1 (sl : ISlot) (g : Guard) (o : BitVec 19) : Option OpIA1 := do
  let t ← iTypeOf (o.extractLsb' 0 4)
  if o.extractLsb' 4 5 == 0 then some ⟨sl, g, o.extractLsb' 14 5, o.extractLsb' 9 5, t⟩ else none
/-- Bits [18:0] of a word with the operands OpIA1. -/
def bitsIA1 (p : OpIA1) : BitVec 19 := p.d ++ p.a ++ 0#5 ++ iTypeBits p.t
/-- The operands OpIB in the bits of a word. -/
def parseIB (sl : ISlot) (g : Guard) (o : BitVec 19) : Option OpIB :=
  some ⟨sl, g, o.extractLsb' 14 5, o.extractLsb' 9 5, o.extractLsb' 0 9⟩
/-- Bits [18:0] of a word with the operands OpIB. -/
def bitsIB (p : OpIB) : BitVec 19 := p.d ++ p.a ++ p.imm
/-- The operands OpIB64 in the bits of a word. -/
def parseIB64 (sl : ISlot) (g : Guard) (o : BitVec 19) (x : Word32) : Option OpIB64 :=
  if o.extractLsb' 0 9 == 0 then some ⟨sl, g, o.extractLsb' 14 5, o.extractLsb' 9 5, x⟩ else none
/-- Bits [18:0] of a word with the operands OpIB64. -/
def bitsIB64 (p : OpIB64) : BitVec 19 := p.d ++ p.a ++ 0#9
/-- The extension word with the operands OpIB64. -/
def extIB64 (p : OpIB64) : Word32 := p.imm
/-- The operands OpSel in the bits of a word. -/
def parseSel (sl : ISlot) (g : Guard) (o : BitVec 19) : Option OpSel :=
  some ⟨sl, g, o.extractLsb' 14 5, o.extractLsb' 9 5, o.extractLsb' 4 5, o.extractLsb' 0 4⟩
/-- Bits [18:0] of a word with the operands OpSel. -/
def bitsSel (p : OpSel) : BitVec 19 := p.d ++ p.a ++ p.b ++ p.p
/-- The operands OpSel64 in the bits of a word. -/
def parseSel64 (sl : ISlot) (g : Guard) (o : BitVec 19) (x : Word32) : Option OpSel64 :=
  if o.extractLsb' 0 4 == 0 && x.extractLsb' 5 27 == 0 then
    some ⟨sl, g, o.extractLsb' 14 5, o.extractLsb' 9 5, o.extractLsb' 4 5, x.extractLsb' 0 5⟩
  else none
/-- Bits [18:0] of a word with the operands OpSel64. -/
def bitsSel64 (p : OpSel64) : BitVec 19 := p.d ++ p.a ++ p.b ++ 0#4
/-- The extension word with the operands OpSel64. -/
def extSel64 (p : OpSel64) : Word32 := 0#27 ++ p.p
/-- The operands OpIU in the bits of a word. -/
def parseIU (sl : ISlot) (g : Guard) (o : BitVec 19) : Option OpIU :=
  some ⟨sl, g, o.extractLsb' 14 5, o.extractLsb' 0 14⟩
/-- Bits [18:0] of a word with the operands OpIU. -/
def bitsIU (p : OpIU) : BitVec 19 := p.d ++ p.imm
/-- The operands OpIU64 in the bits of a word. -/
def parseIU64 (sl : ISlot) (g : Guard) (o : BitVec 19) (x : Word32) : Option OpIU64 :=
  if o.extractLsb' 0 14 == 0 then some ⟨sl, g, o.extractLsb' 14 5, x⟩ else none
/-- Bits [18:0] of a word with the operands OpIU64. -/
def bitsIU64 (p : OpIU64) : BitVec 19 := p.d ++ 0#14
/-- The extension word with the operands OpIU64. -/
def extIU64 (p : OpIU64) : Word32 := p.imm
/-- The operands OpLea in the bits of a word. -/
def parseLea (sl : ISlot) (g : Guard) (o : BitVec 19) : Option OpLea :=
  if o.extractLsb' 0 1 == 0 then
    some ⟨sl, g, o.extractLsb' 14 5, o.extractLsb' 9 5, o.extractLsb' 4 5, o.extractLsb' 1 3⟩
  else none
/-- Bits [18:0] of a word with the operands OpLea. -/
def bitsLea (p : OpLea) : BitVec 19 := p.d ++ p.a ++ p.b ++ p.sh ++ 0#1
/-- The operands OpLea64 in the bits of a word. -/
def parseLea64 (sl : ISlot) (g : Guard) (o : BitVec 19) (x : Word32) : Option OpLea64 :=
  if o.extractLsb' 0 1 == 0 then
    some ⟨sl, g, o.extractLsb' 14 5, o.extractLsb' 9 5, o.extractLsb' 4 5, o.extractLsb' 1 3, x⟩
  else none
/-- Bits [18:0] of a word with the operands OpLea64. -/
def bitsLea64 (p : OpLea64) : BitVec 19 := p.d ++ p.a ++ p.b ++ p.sh ++ 0#1
/-- The extension word with the operands OpLea64. -/
def extLea64 (p : OpLea64) : Word32 := p.off
/-- The operands OpBfx in the bits of a word. -/
def parseBfx (sl : ISlot) (g : Guard) (o : BitVec 19) : Option OpBfx :=
  if o.extractLsb' 0 3 == 0 then
    some ⟨sl, g, o.extractLsb' 14 5, o.extractLsb' 9 5, o.extractLsb' 4 5, bitOf (o.extractLsb' 3 1)⟩
  else none
/-- Bits [18:0] of a word with the operands OpBfx. -/
def bitsBfx (p : OpBfx) : BitVec 19 := p.d ++ p.a ++ p.b ++ bitBits p.sx ++ 0#3
/-- The operands OpBfxImm in the bits of a word. -/
def parseBfxImm (sl : ISlot) (g : Guard) (o : BitVec 19) (x : Word32) : Option OpBfxImm :=
  if o.extractLsb' 0 9 == 0 && x.extractLsb' 13 19 == 0 then
    some ⟨sl, g, o.extractLsb' 14 5, o.extractLsb' 9 5, x.extractLsb' 0 6, x.extractLsb' 6 6, bitOf (x.extractLsb' 12 1)⟩
  else none
/-- Bits [18:0] of a word with the operands OpBfxImm. -/
def bitsBfxImm (p : OpBfxImm) : BitVec 19 := p.d ++ p.a ++ 0#9
/-- The extension word with the operands OpBfxImm. -/
def extBfxImm (p : OpBfxImm) : Word32 := 0#19 ++ bitBits p.sx ++ p.lm1 ++ p.pos
/-- The operands OpBfi in the bits of a word. -/
def parseBfi (sl : ISlot) (g : Guard) (o : BitVec 19) : Option OpBfi :=
  if o.extractLsb' 0 4 == 0 then
    some ⟨sl, g, o.extractLsb' 14 5, o.extractLsb' 9 5, o.extractLsb' 4 5⟩
  else none
/-- Bits [18:0] of a word with the operands OpBfi. -/
def bitsBfi (p : OpBfi) : BitVec 19 := p.d ++ p.a ++ p.b ++ 0#4
/-- The operands OpBfiImm in the bits of a word. -/
def parseBfiImm (sl : ISlot) (g : Guard) (o : BitVec 19) (x : Word32) : Option OpBfiImm :=
  if o.extractLsb' 0 9 == 0 && x.extractLsb' 12 20 == 0 then
    some ⟨sl, g, o.extractLsb' 14 5, o.extractLsb' 9 5, x.extractLsb' 0 6, x.extractLsb' 6 6⟩
  else none
/-- Bits [18:0] of a word with the operands OpBfiImm. -/
def bitsBfiImm (p : OpBfiImm) : BitVec 19 := p.d ++ p.a ++ 0#9
/-- The extension word with the operands OpBfiImm. -/
def extBfiImm (p : OpBfiImm) : Word32 := 0#20 ++ p.lm1 ++ p.pos
/-- The operands OpXmovI in the bits of a word. -/
def parseXmovI (sl : ISlot) (g : Guard) (o : BitVec 19) : Option OpXmovI := do
  let sf ← xFileOf (o.extractLsb' 7 2)
  if o.extractLsb' 0 7 == 0 then some ⟨sl, g, o.extractLsb' 14 5, o.extractLsb' 9 5, sf⟩ else none
/-- Bits [18:0] of a word with the operands OpXmovI. -/
def bitsXmovI (p : OpXmovI) : BitVec 19 := p.d ++ p.a ++ xFileBits p.sf ++ 0#7
/-- The operands OpL in the bits of a word. -/
def parseL (sl : ISlot) (g : Guard) (o : BitVec 19) : Option OpL := do
  let t ← iTypeOf (o.extractLsb' 0 4)
  some ⟨sl, g, o.extractLsb' 14 5, o.extractLsb' 9 5, o.extractLsb' 4 5, t⟩
/-- Bits [18:0] of a word with the operands OpL. -/
def bitsL (p : OpL) : BitVec 19 := p.d ++ p.a ++ p.off ++ iTypeBits p.t
/-- The operands OpL64 in the bits of a word. -/
def parseL64 (sl : ISlot) (g : Guard) (o : BitVec 19) (x : Word32) : Option OpL64 := do
  let t ← iTypeOf (o.extractLsb' 0 4)
  if o.extractLsb' 4 5 == 0 then some ⟨sl, g, o.extractLsb' 14 5, o.extractLsb' 9 5, x, t⟩ else none
/-- Bits [18:0] of a word with the operands OpL64. -/
def bitsL64 (p : OpL64) : BitVec 19 := p.d ++ p.a ++ 0#5 ++ iTypeBits p.t
/-- The extension word with the operands OpL64. -/
def extL64 (p : OpL64) : Word32 := p.off
/-- The operands OpP3 in the bits of a word. -/
def parseP3 (sl : PSlot) (g : Guard) (o : BitVec 19) : Option OpP3 :=
  if o.extractLsb' 0 4 == 0 then
    some ⟨sl, g, o.extractLsb' 14 5, o.extractLsb' 9 5, o.extractLsb' 4 5⟩
  else none
/-- Bits [18:0] of a word with the operands OpP3. -/
def bitsP3 (p : OpP3) : BitVec 19 := p.d ++ p.a ++ p.b ++ 0#4
/-- The operands OpP2 in the bits of a word. -/
def parseP2 (sl : PSlot) (g : Guard) (o : BitVec 19) : Option OpP2 :=
  if o.extractLsb' 0 9 == 0 then some ⟨sl, g, o.extractLsb' 14 5, o.extractLsb' 9 5⟩ else none
/-- Bits [18:0] of a word with the operands OpP2. -/
def bitsP2 (p : OpP2) : BitVec 19 := p.d ++ p.a ++ 0#9
/-- The operands OpPset in the bits of a word. -/
def parsePset (sl : PSlot) (g : Guard) (o : BitVec 19) : Option OpPset :=
  some ⟨sl, g, o.extractLsb' 14 5, o.extractLsb' 0 14⟩
/-- Bits [18:0] of a word with the operands OpPset. -/
def bitsPset (p : OpPset) : BitVec 19 := p.d ++ p.imm
/-- The operands OpPset64 in the bits of a word. -/
def parsePset64 (sl : PSlot) (g : Guard) (o : BitVec 19) (x : Word32) : Option OpPset64 :=
  if o.extractLsb' 0 14 == 0 then some ⟨sl, g, o.extractLsb' 14 5, x⟩ else none
/-- Bits [18:0] of a word with the operands OpPset64. -/
def bitsPset64 (p : OpPset64) : BitVec 19 := p.d ++ 0#14
/-- The extension word with the operands OpPset64. -/
def extPset64 (p : OpPset64) : Word32 := p.imm
/-- The operands OpPmov in the bits of a word. -/
def parsePmov (sl : PSlot) (g : Guard) (o : BitVec 19) : Option OpPmov := do
  let sf ← bankOf (o.extractLsb' 7 2)
  if o.extractLsb' 0 7 == 0 then some ⟨sl, g, o.extractLsb' 14 5, o.extractLsb' 9 5, sf⟩ else none
/-- Bits [18:0] of a word with the operands OpPmov. -/
def bitsPmov (p : OpPmov) : BitVec 19 := p.d ++ p.a ++ bankBits p.sf ++ 0#7
/-- The operands OpV2 in the bits of a word. -/
def parseV2 (g : Guard) (o : BitVec 19) (x : Option Word32) : Option OpV2 := do
  let ft ← fType2Of (o.extractLsb' 0 2)
  if zeroExt x then
    some ⟨g, o.extractLsb' 14 5, o.extractLsb' 9 5, o.extractLsb' 4 5, bitOf (o.extractLsb' 3 1), bitOf (o.extractLsb' 2 1), ft, x.isSome⟩
  else none
/-- Bits [18:0] of a word with the operands OpV2. -/
def bitsV2 (p : OpV2) : BitVec 19 := p.d ++ p.a ++ p.b ++ bitBits p.ha ++ bitBits p.hb ++ fType2Bits p.ft
/-- The operands OpV1 in the bits of a word. -/
def parseV1 (g : Guard) (o : BitVec 19) (x : Option Word32) : Option OpV1 := do
  let ft ← fType2Of (o.extractLsb' 0 2)
  if o.extractLsb' 4 5 == 0 && o.extractLsb' 2 1 == 0 && zeroExt x then
    some ⟨g, o.extractLsb' 14 5, o.extractLsb' 9 5, bitOf (o.extractLsb' 3 1), ft, x.isSome⟩
  else none
/-- Bits [18:0] of a word with the operands OpV1. -/
def bitsV1 (p : OpV1) : BitVec 19 := p.d ++ p.a ++ 0#5 ++ bitBits p.ha ++ 0#1 ++ fType2Bits p.ft
/-- The operands OpV3 in the bits of a word. -/
def parseV3 (g : Guard) (o : BitVec 19) (x : Word32) : Option OpV3 := do
  let ft ← fType2Of (o.extractLsb' 0 2)
  if x.extractLsb' 6 26 == 0 then
    some ⟨g, o.extractLsb' 14 5, o.extractLsb' 9 5, o.extractLsb' 4 5, x.extractLsb' 0 5, bitOf (o.extractLsb' 3 1), bitOf (o.extractLsb' 2 1), bitOf (x.extractLsb' 5 1), ft⟩
  else none
/-- Bits [18:0] of a word with the operands OpV3. -/
def bitsV3 (p : OpV3) : BitVec 19 := p.d ++ p.a ++ p.b ++ bitBits p.ha ++ bitBits p.hb ++ fType2Bits p.ft
/-- The extension word with the operands OpV3. -/
def extV3 (p : OpV3) : Word32 := 0#26 ++ bitBits p.hc ++ p.c
/-- The operands OpVcmp in the bits of a word. -/
def parseVcmp (g : Guard) (o : BitVec 19) (x : Word32) : Option OpVcmp := do
  let ft ← fType2Of (o.extractLsb' 0 2)
  let cc ← vCondOf (x.extractLsb' 6 3)
  if x.extractLsb' 10 22 == 0 && x.extractLsb' 0 6 == 0 then
    some ⟨g, o.extractLsb' 14 5, o.extractLsb' 9 5, o.extractLsb' 4 5, bitOf (o.extractLsb' 3 1), bitOf (o.extractLsb' 2 1), ft, cc, bitOf (x.extractLsb' 9 1)⟩
  else none
/-- Bits [18:0] of a word with the operands OpVcmp. -/
def bitsVcmp (p : OpVcmp) : BitVec 19 := p.d ++ p.a ++ p.b ++ bitBits p.ha ++ bitBits p.hb ++ fType2Bits p.ft
/-- The extension word with the operands OpVcmp. -/
def extVcmp (p : OpVcmp) : Word32 := 0#22 ++ bitBits p.h ++ vCondBits p.cc ++ 0#6
/-- The operands OpVclass in the bits of a word. -/
def parseVclass (g : Guard) (o : BitVec 19) (x : Word32) : Option OpVclass := do
  let ft ← fType2Of (o.extractLsb' 0 2)
  if o.extractLsb' 4 5 == 0 && o.extractLsb' 2 1 == 0 && x.extractLsb' 16 16 == 0 && x.extractLsb' 0 6 == 0 then
    some ⟨g, o.extractLsb' 14 5, o.extractLsb' 9 5, bitOf (o.extractLsb' 3 1), ft, x.extractLsb' 6 9, bitOf (x.extractLsb' 15 1)⟩
  else none
/-- Bits [18:0] of a word with the operands OpVclass. -/
def bitsVclass (p : OpVclass) : BitVec 19 := p.d ++ p.a ++ 0#5 ++ bitBits p.ha ++ 0#1 ++ fType2Bits p.ft
/-- The extension word with the operands OpVclass. -/
def extVclass (p : OpVclass) : Word32 := 0#16 ++ bitBits p.h ++ p.mask ++ 0#6
/-- The operands OpVsel in the bits of a word. -/
def parseVsel (g : Guard) (o : BitVec 19) (x : Word32) : Option OpVsel := do
  let ft ← fType2Of (o.extractLsb' 0 2)
  if x.extractLsb' 11 21 == 0 && x.extractLsb' 0 6 == 0 then
    some ⟨g, o.extractLsb' 14 5, o.extractLsb' 9 5, o.extractLsb' 4 5, bitOf (o.extractLsb' 3 1), bitOf (o.extractLsb' 2 1), ft, x.extractLsb' 6 5⟩
  else none
/-- Bits [18:0] of a word with the operands OpVsel. -/
def bitsVsel (p : OpVsel) : BitVec 19 := p.d ++ p.a ++ p.b ++ bitBits p.ha ++ bitBits p.hb ++ fType2Bits p.ft
/-- The extension word with the operands OpVsel. -/
def extVsel (p : OpVsel) : Word32 := 0#21 ++ p.p ++ 0#6
/-- The operands OpVcvt in the bits of a word. -/
def parseVcvt (g : Guard) (o : BitVec 19) (x : Word32) : Option OpVcvt := do
  let ft ← fType2Of (o.extractLsb' 0 2)
  let tt ← eTypeOf (x.extractLsb' 6 4)
  if o.extractLsb' 4 5 == 0 && o.extractLsb' 2 1 == 0 && x.extractLsb' 13 19 == 0 && x.extractLsb' 0 6 == 0 then
    some ⟨g, o.extractLsb' 14 5, o.extractLsb' 9 5, bitOf (o.extractLsb' 3 1), ft, tt, x.extractLsb' 10 3⟩
  else none
/-- Bits [18:0] of a word with the operands OpVcvt. -/
def bitsVcvt (p : OpVcvt) : BitVec 19 := p.d ++ p.a ++ 0#5 ++ bitBits p.ha ++ 0#1 ++ fType2Bits p.ft
/-- The extension word with the operands OpVcvt. -/
def extVcvt (p : OpVcvt) : Word32 := 0#19 ++ p.cc ++ eTypeBits p.tt ++ 0#6
/-- The operands OpVS in the bits of a word. -/
def parseVS (g : Guard) (o : BitVec 19) : Option OpVS := do
  let ft ← fType2Of (o.extractLsb' 0 2)
  if o.extractLsb' 4 5 == 0 && o.extractLsb' 2 1 == 0 then
    some ⟨g, o.extractLsb' 14 5, o.extractLsb' 9 5, bitOf (o.extractLsb' 3 1), ft⟩
  else none
/-- Bits [18:0] of a word with the operands OpVS. -/
def bitsVS (p : OpVS) : BitVec 19 := p.d ++ p.a ++ 0#5 ++ bitBits p.ha ++ 0#1 ++ fType2Bits p.ft
/-- The operands OpVrnd64 in the bits of a word. -/
def parseVrnd64 (g : Guard) (o : BitVec 19) (x : Word32) : Option OpVrnd64 := do
  let ft ← fType2Of (o.extractLsb' 0 2)
  if o.extractLsb' 4 5 == 0 && o.extractLsb' 2 1 == 0 && x.extractLsb' 8 24 == 0 && x.extractLsb' 0 6 == 0 then
    some ⟨g, o.extractLsb' 14 5, o.extractLsb' 9 5, bitOf (o.extractLsb' 3 1), ft, x.extractLsb' 6 2⟩
  else none
/-- Bits [18:0] of a word with the operands OpVrnd64. -/
def bitsVrnd64 (p : OpVrnd64) : BitVec 19 := p.d ++ p.a ++ 0#5 ++ bitBits p.ha ++ 0#1 ++ fType2Bits p.ft
/-- The extension word with the operands OpVrnd64. -/
def extVrnd64 (p : OpVrnd64) : Word32 := 0#24 ++ p.rm ++ 0#6
/-- The operands OpVred in the bits of a word. -/
def parseVred (g : Guard) (o : BitVec 19) (x : Option Word32) : Option OpVred := do
  let op ← redOpOf (o.extractLsb' 4 2)
  let ft ← fType2Of (o.extractLsb' 0 2)
  if o.extractLsb' 6 3 == 0 && o.extractLsb' 2 1 == 0 && zeroExt x then
    some ⟨g, o.extractLsb' 14 5, o.extractLsb' 9 5, bitOf (o.extractLsb' 3 1), ft, op, x.isSome⟩
  else none
/-- Bits [18:0] of a word with the operands OpVred. -/
def bitsVred (p : OpVred) : BitVec 19 := p.d ++ p.a ++ 0#3 ++ redOpBits p.op ++ bitBits p.ha ++ 0#1 ++ fType2Bits p.ft
/-- The operands OpVcswap in the bits of a word. -/
def parseVcswap (g : Guard) (o : BitVec 19) (x : Word32) : Option OpVcswap := do
  let ft ← fType2Of (o.extractLsb' 0 2)
  if x.extractLsb' 14 18 == 0 && x.extractLsb' 0 6 == 0 then
    some ⟨g, o.extractLsb' 14 5, o.extractLsb' 9 5, o.extractLsb' 4 5, bitOf (o.extractLsb' 3 1), bitOf (o.extractLsb' 2 1), ft, x.extractLsb' 6 3, bitOf (x.extractLsb' 9 1), x.extractLsb' 10 3, bitOf (x.extractLsb' 13 1)⟩
  else none
/-- Bits [18:0] of a word with the operands OpVcswap. -/
def bitsVcswap (p : OpVcswap) : BitVec 19 := p.d ++ p.a ++ p.b ++ bitBits p.ha ++ bitBits p.hb ++ fType2Bits p.ft
/-- The extension word with the operands OpVcswap. -/
def extVcswap (p : OpVcswap) : Word32 := 0#18 ++ bitBits p.fol ++ p.logb ++ bitBits p.desc ++ p.logd ++ 0#6
/-- The operands OpVbcast64 in the bits of a word. -/
def parseVbcast64 (g : Guard) (o : BitVec 19) (x : Word32) : Option OpVbcast64 := do
  let ft ← fType2Of (o.extractLsb' 0 2)
  if o.extractLsb' 4 5 == 0 && o.extractLsb' 2 1 == 0 && x.extractLsb' 12 20 == 0 && x.extractLsb' 0 6 == 0 then
    some ⟨g, o.extractLsb' 14 5, o.extractLsb' 9 5, bitOf (o.extractLsb' 3 1), ft, x.extractLsb' 6 6⟩
  else none
/-- Bits [18:0] of a word with the operands OpVbcast64. -/
def bitsVbcast64 (p : OpVbcast64) : BitVec 19 := p.d ++ p.a ++ 0#5 ++ bitBits p.ha ++ 0#1 ++ fType2Bits p.ft
/-- The extension word with the operands OpVbcast64. -/
def extVbcast64 (p : OpVbcast64) : Word32 := 0#20 ++ p.idx ++ 0#6
/-- The operands OpViota in the bits of a word. -/
def parseViota (g : Guard) (o : BitVec 19) (x : Option Word32) : Option OpViota := do
  let ft ← fType2Of (o.extractLsb' 0 2)
  if o.extractLsb' 2 12 == 0 && zeroExt x then some ⟨g, o.extractLsb' 14 5, ft, x.isSome⟩ else none
/-- Bits [18:0] of a word with the operands OpViota. -/
def bitsViota (p : OpViota) : BitVec 19 := p.d ++ 0#12 ++ fType2Bits p.ft
/-- The operands OpVmov in the bits of a word. -/
def parseVmov (g : Guard) (o : BitVec 19) (x : Option Word32) : Option OpVmov :=
  if o.extractLsb' 4 5 == 0 && o.extractLsb' 0 3 == 0 && zeroExt x then
    some ⟨g, o.extractLsb' 14 5, o.extractLsb' 9 5, bitOf (o.extractLsb' 3 1), x.isSome⟩
  else none
/-- Bits [18:0] of a word with the operands OpVmov. -/
def bitsVmov (p : OpVmov) : BitVec 19 := p.d ++ p.a ++ 0#5 ++ bitBits p.ha ++ 0#3
/-- The operands OpVpack in the bits of a word. -/
def parseVpack (g : Guard) (o : BitVec 19) : Option OpVpack :=
  if o.extractLsb' 0 2 == 1 then
    some ⟨g, o.extractLsb' 14 5, o.extractLsb' 9 5, o.extractLsb' 4 5, bitOf (o.extractLsb' 3 1), bitOf (o.extractLsb' 2 1)⟩
  else none
/-- Bits [18:0] of a word with the operands OpVpack. -/
def bitsVpack (p : OpVpack) : BitVec 19 := p.d ++ p.a ++ p.b ++ bitBits p.ha ++ bitBits p.hb ++ 1#2
/-- The operands OpVpack64 in the bits of a word. -/
def parseVpack64 (g : Guard) (o : BitVec 19) (x : Word32) : Option OpVpack64 :=
  if o.extractLsb' 0 2 == 1 && x.extractLsb' 9 23 == 0 && x.extractLsb' 0 6 == 0 then
    some ⟨g, o.extractLsb' 14 5, o.extractLsb' 9 5, o.extractLsb' 4 5, bitOf (o.extractLsb' 3 1), bitOf (o.extractLsb' 2 1), x.extractLsb' 6 3⟩
  else none
/-- Bits [18:0] of a word with the operands OpVpack64. -/
def bitsVpack64 (p : OpVpack64) : BitVec 19 := p.d ++ p.a ++ p.b ++ bitBits p.ha ++ bitBits p.hb ++ 1#2
/-- The extension word with the operands OpVpack64. -/
def extVpack64 (p : OpVpack64) : Word32 := 0#23 ++ p.cc ++ 0#6
/-- The operands OpVunpk in the bits of a word. -/
def parseVunpk (g : Guard) (o : BitVec 19) : Option OpVunpk :=
  if o.extractLsb' 5 4 == 0 && o.extractLsb' 0 3 == 0 then
    some ⟨g, o.extractLsb' 14 5, o.extractLsb' 9 5, bitOf (o.extractLsb' 3 1), bitOf (o.extractLsb' 4 1)⟩
  else none
/-- Bits [18:0] of a word with the operands OpVunpk. -/
def bitsVunpk (p : OpVunpk) : BitVec 19 := p.d ++ p.a ++ 0#4 ++ bitBits p.h ++ bitBits p.ha ++ 0#3
/-- The operands OpVM in the bits of a word. -/
def parseVM (g : Guard) (o : BitVec 19) : Option OpVM := do
  let t ← fTypeTOf (o.extractLsb' 4 4)
  if o.extractLsb' 0 4 == 0 then
    some ⟨g, o.extractLsb' 14 5, o.extractLsb' 9 5, bitOf (o.extractLsb' 8 1), t⟩
  else none
/-- Bits [18:0] of a word with the operands OpVM. -/
def bitsVM (p : OpVM) : BitVec 19 := p.d ++ p.a ++ bitBits p.fs ++ fTypeTBits p.t ++ 0#4
/-- The operands OpVM64 in the bits of a word. -/
def parseVM64 (g : Guard) (o : BitVec 19) (x : Word32) : Option OpVM64 := do
  let t ← fTypeTOf (o.extractLsb' 4 4)
  if o.extractLsb' 0 4 == 0 then
    some ⟨g, o.extractLsb' 14 5, o.extractLsb' 9 5, bitOf (o.extractLsb' 8 1), t, x⟩
  else none
/-- Bits [18:0] of a word with the operands OpVM64. -/
def bitsVM64 (p : OpVM64) : BitVec 19 := p.d ++ p.a ++ bitBits p.fs ++ fTypeTBits p.t ++ 0#4
/-- The extension word with the operands OpVM64. -/
def extVM64 (p : OpVM64) : Word32 := p.off
/-- The operands OpVX in the bits of a word. -/
def parseVX (g : Guard) (o : BitVec 19) : Option OpVX :=
  if o.extractLsb' 4 4 == 8 then
    some ⟨g, o.extractLsb' 14 5, o.extractLsb' 9 5, bitOf (o.extractLsb' 8 1), o.extractLsb' 0 4⟩
  else none
/-- Bits [18:0] of a word with the operands OpVX. -/
def bitsVX (p : OpVX) : BitVec 19 := p.d ++ p.a ++ bitBits p.fs ++ 8#4 ++ p.vi
/-- The operands OpVX64 in the bits of a word. -/
def parseVX64 (g : Guard) (o : BitVec 19) (x : Word32) : Option OpVX64 :=
  if o.extractLsb' 4 4 == 8 then
    some ⟨g, o.extractLsb' 14 5, o.extractLsb' 9 5, bitOf (o.extractLsb' 8 1), o.extractLsb' 0 4, x⟩
  else none
/-- Bits [18:0] of a word with the operands OpVX64. -/
def bitsVX64 (p : OpVX64) : BitVec 19 := p.d ++ p.a ++ bitBits p.fs ++ 8#4 ++ p.vi
/-- The extension word with the operands OpVX64. -/
def extVX64 (p : OpVX64) : Word32 := p.off
/-- The operands OpMcfg in the bits of a word. -/
def parseMcfg (g : Guard) (o : BitVec 19) : Option OpMcfg :=
  if o.extractLsb' 0 8 == 0 then some ⟨g, o.extractLsb' 17 2, o.extractLsb' 15 2, o.extractLsb' 8 7⟩ else none
/-- Bits [18:0] of a word with the operands OpMcfg. -/
def bitsMcfg (p : OpMcfg) : BitVec 19 := p.mc ++ p.nc ++ p.km ++ 0#8
/-- The operands OpMfmt in the bits of a word. -/
def parseMfmt (g : Guard) (o : BitVec 19) : Option OpMfmt := do
  let at' ← eTypeOf (o.extractLsb' 15 4)
  let bt ← eTypeOf (o.extractLsb' 11 4)
  if o.extractLsb' 0 10 == 0 then some ⟨g, at', bt, bitOf (o.extractLsb' 10 1)⟩ else none
/-- Bits [18:0] of a word with the operands OpMfmt. -/
def bitsMfmt (p : OpMfmt) : BitVec 19 := eTypeBits p.at' ++ eTypeBits p.bt ++ bitBits p.sc ++ 0#10
/-- The operands OpMma in the bits of a word. -/
def parseMma (g : Guard) (o : BitVec 19) : Option OpMma :=
  if o.extractLsb' 0 1 == 0 then some ⟨g, o.extractLsb' 14 5, o.extractLsb' 10 4, o.extractLsb' 1 9⟩ else none
/-- Bits [18:0] of a word with the operands OpMma. -/
def bitsMma (p : OpMma) : BitVec 19 := p.z ++ p.q ++ p.boff ++ 0#1
/-- The operands OpMbld in the bits of a word. -/
def parseMbld (g : Guard) (o : BitVec 19) : Option OpMbld :=
  if o.extractLsb' 14 5 == 0 && o.extractLsb' 0 1 == 0 then
    some ⟨g, o.extractLsb' 10 4, o.extractLsb' 1 9⟩
  else none
/-- Bits [18:0] of a word with the operands OpMbld. -/
def bitsMbld (p : OpMbld) : BitVec 19 := 0#5 ++ p.q ++ p.boff ++ 0#1
/-- The operands OpMzero in the bits of a word. -/
def parseMzero (g : Guard) (o : BitVec 19) : Option OpMzero :=
  if o.extractLsb' 0 14 == 0 then some ⟨g, o.extractLsb' 14 5⟩ else none
/-- Bits [18:0] of a word with the operands OpMzero. -/
def bitsMzero (p : OpMzero) : BitVec 19 := p.z ++ 0#14
/-- The operands OpMrow in the bits of a word. -/
def parseMrow (g : Guard) (o : BitVec 19) : Option OpMrow :=
  if o.extractLsb' 0 1 == 0 then
    some ⟨g, o.extractLsb' 14 5, o.extractLsb' 9 5, o.extractLsb' 3 6, bitOf (o.extractLsb' 2 1), fType1Of (o.extractLsb' 1 1)⟩
  else none
/-- Bits [18:0] of a word with the operands OpMrow. -/
def bitsMrow (p : OpMrow) : BitVec 19 := p.v ++ p.z ++ p.row ++ bitBits p.h ++ fType1Bits p.ft ++ 0#1
/-- The operands OpMtile in the bits of a word. -/
def parseMtile (g : Guard) (o : BitVec 19) : Option OpMtile :=
  if o.extractLsb' 0 10 == 0 then some ⟨g, o.extractLsb' 14 5, o.extractLsb' 10 4⟩ else none
/-- Bits [18:0] of a word with the operands OpMtile. -/
def bitsMtile (p : OpMtile) : BitVec 19 := p.z ++ p.q ++ 0#10
/-- The operands OpMtrn in the bits of a word. -/
def parseMtrn (g : Guard) (o : BitVec 19) : Option OpMtrn :=
  if o.extractLsb' 0 9 == 0 then some ⟨g, o.extractLsb' 14 5, o.extractLsb' 9 5⟩ else none
/-- Bits [18:0] of a word with the operands OpMtrn. -/
def bitsMtrn (p : OpMtrn) : BitVec 19 := p.zd ++ p.zs ++ 0#9
/-- The operands OpMbfly in the bits of a word. -/
def parseMbfly (g : Guard) (o : BitVec 19) : Option OpMbfly :=
  if o.extractLsb' 0 8 == 0 then
    some ⟨g, o.extractLsb' 14 5, o.extractLsb' 10 4, bitOf (o.extractLsb' 9 1), bitOf (o.extractLsb' 8 1)⟩
  else none
/-- Bits [18:0] of a word with the operands OpMbfly. -/
def bitsMbfly (p : OpMbfly) : BitVec 19 := p.zb ++ p.stg ++ bitBits p.scl ++ bitBits p.ord ++ 0#8
/-- The operands OpMtwid in the bits of a word. -/
def parseMtwid (g : Guard) (o : BitVec 19) : Option OpMtwid :=
  if o.extractLsb' 0 2 == 0 then some ⟨g, o.extractLsb' 3 16, bitOf (o.extractLsb' 2 1)⟩ else none
/-- Bits [18:0] of a word with the operands OpMtwid. -/
def bitsMtwid (p : OpMtwid) : BitVec 19 := p.nm1 ++ bitBits p.inv ++ 0#2
/-- The operands OpQset in the bits of a word. -/
def parseQset (g : Guard) (o : BitVec 19) : Option OpQset :=
  if o.extractLsb' 0 9 == 0 then
    some ⟨g, o.extractLsb' 14 5, o.extractLsb' 10 4, bitOf (o.extractLsb' 9 1)⟩
  else none
/-- Bits [18:0] of a word with the operands OpQset. -/
def bitsQset (p : OpQset) : BitVec 19 := p.a ++ p.q ++ bitBits p.fs ++ 0#9
/-- The operands OpQstrm in the bits of a word. -/
def parseQstrm (g : Guard) (o : BitVec 19) : Option OpQstrm :=
  if o.extractLsb' 0 15 == 0 then some ⟨g, o.extractLsb' 15 4⟩ else none
/-- Bits [18:0] of a word with the operands OpQstrm. -/
def bitsQstrm (p : OpQstrm) : BitVec 19 := p.q ++ 0#15
/-- The operands OpQcopy in the bits of a word. -/
def parseQcopy (g : Guard) (o : BitVec 19) : Option OpQcopy :=
  if o.extractLsb' 0 3 == 0 then
    some ⟨g, o.extractLsb' 14 5, o.extractLsb' 9 5, o.extractLsb' 4 5, bitOf (o.extractLsb' 3 1)⟩
  else none
/-- Bits [18:0] of a word with the operands OpQcopy. -/
def bitsQcopy (p : OpQcopy) : BitVec 19 := p.a ++ p.b ++ p.c ++ bitBits p.fs ++ 0#3
/-- The operands OpGcfg in the bits of a word. -/
def parseGcfg (g : Guard) (o : BitVec 19) : Option OpGcfg :=
  if o.extractLsb' 0 8 == 0 then
    some ⟨g, o.extractLsb' 14 5, bitOf (o.extractLsb' 13 1), o.extractLsb' 9 4, bitOf (o.extractLsb' 8 1)⟩
  else none
/-- Bits [18:0] of a word with the operands OpGcfg. -/
def bitsGcfg (p : OpGcfg) : BitVec 19 := p.a ++ bitBits p.fs ++ p.iim1 ++ bitBits p.lut ++ 0#8
/-- The operands OpGrun in the bits of a word. -/
def parseGrun (g : Guard) (o : BitVec 19) : Option OpGrun :=
  if o.extractLsb' 0 7 == 0 then
    some ⟨g, o.extractLsb' 14 5, o.extractLsb' 9 5, bitOf (o.extractLsb' 8 1), bitOf (o.extractLsb' 7 1)⟩
  else none
/-- Bits [18:0] of a word with the operands OpGrun. -/
def bitsGrun (p : OpGrun) : BitVec 19 := p.a ++ p.b ++ bitBits p.fs ++ bitBits p.keep ++ 0#7
/-- The operands OpQsave in the bits of a word. -/
def parseQsave (g : Guard) (o : BitVec 19) : Option OpQsave :=
  if o.extractLsb' 0 13 == 0 then some ⟨g, o.extractLsb' 14 5, bitOf (o.extractLsb' 13 1)⟩ else none
/-- Bits [18:0] of a word with the operands OpQsave. -/
def bitsQsave (p : OpQsave) : BitVec 19 := p.a ++ bitBits p.fs ++ 0#13
/-- The operands OpStash in the bits of a word. -/
def parseStash (g : Guard) (o : BitVec 19) : Option OpStash :=
  if o.extractLsb' 0 8 == 0 then
    some ⟨g, o.extractLsb' 14 5, o.extractLsb' 9 5, bitOf (o.extractLsb' 8 1)⟩
  else none
/-- Bits [18:0] of a word with the operands OpStash. -/
def bitsStash (p : OpStash) : BitVec 19 := p.a ++ p.b ++ bitBits p.fs ++ 0#8
/-- The operands OpSem in the bits of a word. -/
def parseSem (g : Guard) (o : BitVec 19) : Option OpSem :=
  some ⟨g, o.extractLsb' 11 8, o.extractLsb' 0 11⟩
/-- Bits [18:0] of a word with the operands OpSem. -/
def bitsSem (p : OpSem) : BitVec 19 := p.sem ++ p.imm
/-- The operands OpSem64 in the bits of a word. -/
def parseSem64 (g : Guard) (o : BitVec 19) (x : Word32) : Option OpSem64 :=
  if o.extractLsb' 0 11 == 0 && x.extractLsb' 16 16 == 0 then
    some ⟨g, o.extractLsb' 11 8, x.extractLsb' 0 16⟩
  else none
/-- Bits [18:0] of a word with the operands OpSem64. -/
def bitsSem64 (p : OpSem64) : BitVec 19 := p.sem ++ 0#11
/-- The extension word with the operands OpSem64. -/
def extSem64 (p : OpSem64) : Word32 := 0#16 ++ p.imm
/-- The operands OpFence in the bits of a word. -/
def parseFence (g : Guard) (o : BitVec 19) : Option OpFence :=
  if o.extractLsb' 0 4 == 0 then some ⟨g, o.extractLsb' 13 6, o.extractLsb' 7 6, o.extractLsb' 4 3⟩ else none
/-- Bits [18:0] of a word with the operands OpFence. -/
def bitsFence (p : OpFence) : BitVec 19 := p.pred ++ p.succ ++ p.scope ++ 0#4
/-- The operands OpStep in the bits of a word. -/
def parseStep (g : Guard) (o : BitVec 19) : Option OpStep :=
  if o.extractLsb' 18 1 == 0 && o.extractLsb' 0 17 == 0 then some ⟨g, bitOf (o.extractLsb' 17 1)⟩ else none
/-- Bits [18:0] of a word with the operands OpStep. -/
def bitsStep (p : OpStep) : BitVec 19 := 0#1 ++ bitBits p.launch ++ 0#17
/-- The operands OpAtom in the bits of a word. -/
def parseAtom (g : Guard) (o : BitVec 19) : Option OpAtom :=
  some ⟨g, o.extractLsb' 14 5, o.extractLsb' 9 5, o.extractLsb' 4 5, bitOf (o.extractLsb' 3 1), o.extractLsb' 1 2, bitOf (o.extractLsb' 0 1)⟩
/-- Bits [18:0] of a word with the operands OpAtom. -/
def bitsAtom (p : OpAtom) : BitVec 19 := p.d ++ p.a ++ p.b ++ bitBits p.fs ++ p.ord ++ bitBits p.w
/-- The operands OpAtom64 in the bits of a word. -/
def parseAtom64 (g : Guard) (o : BitVec 19) (x : Word32) : Option OpAtom64 :=
  if x.extractLsb' 6 10 == 0 then
    some ⟨g, o.extractLsb' 14 5, o.extractLsb' 9 5, o.extractLsb' 4 5, x.extractLsb' 0 5, bitOf (o.extractLsb' 3 1), o.extractLsb' 1 2, bitOf (o.extractLsb' 0 1), bitOf (x.extractLsb' 5 1), x.extractLsb' 16 16⟩
  else none
/-- Bits [18:0] of a word with the operands OpAtom64. -/
def bitsAtom64 (p : OpAtom64) : BitVec 19 := p.d ++ p.a ++ p.b ++ bitBits p.fs ++ p.ord ++ bitBits p.w
/-- The extension word with the operands OpAtom64. -/
def extAtom64 (p : OpAtom64) : Word32 := p.off ++ 0#10 ++ bitBits p.uns ++ p.c
/-- The operands OpCh in the bits of a word. -/
def parseCh (g : Guard) (o : BitVec 19) : Option OpCh :=
  if o.extractLsb' 0 13 == 0 then some ⟨g, o.extractLsb' 13 6⟩ else none
/-- Bits [18:0] of a word with the operands OpCh. -/
def bitsCh (p : OpCh) : BitVec 19 := p.ch ++ 0#13
/-- The operands OpTstart in the bits of a word. -/
def parseTstart (g : Guard) (o : BitVec 19) : Option OpTstart :=
  if o.extractLsb' 0 1 == 0 then
    some ⟨g, o.extractLsb' 14 5, bitOf (o.extractLsb' 13 1), o.extractLsb' 5 8, o.extractLsb' 1 4⟩
  else none
/-- Bits [18:0] of a word with the operands OpTstart. -/
def bitsTstart (p : OpTstart) : BitVec 19 := p.a ++ bitBits p.fs ++ p.sem ++ p.inc ++ 0#1
/-- The operands OpRdtime in the bits of a word. -/
def parseRdtime (g : Guard) (o : BitVec 19) : Option OpRdtime :=
  if o.extractLsb' 0 13 == 0 then some ⟨g, o.extractLsb' 14 5, bitOf (o.extractLsb' 13 1)⟩ else none
/-- Bits [18:0] of a word with the operands OpRdtime. -/
def bitsRdtime (p : OpRdtime) : BitVec 19 := p.d ++ bitBits p.fs ++ 0#13

/-- An operation with a 32-bit form only. -/
def only32 (x : Option Word32) (r : Option Instr) : Option Instr := if x.isNone then r else none
/-- An operation with a 64-bit form only. -/
def only64 (x : Option Word32) (r : Word32 → Option Instr) : Option Instr := x.bind r
/-- An operation with both forms. -/
def both (x : Option Word32) (r : Option Instr) (r64 : Word32 → Option Instr) : Option Instr :=
  match x with
  | none => r
  | some e => r64 e
/-- An engine command: its extension word is the synchronisation word (04 R83, R84). -/
def engine {α : Type} (x : Option Word32) (p : Option α) (f : α → Instr) (f64 : α → Sync → Instr) : Option Instr :=
  match x with
  | none => p.map f
  | some e => p.map (fun o => f64 o (syncOf e))
/-- An opcode's outcome: none where the map does not assign it. -/
def assigned (r : Option (Option Instr)) : Except Bad Instr :=
  match r with
  | none => .error .unassigned
  | some none => .error .field
  | some (some i) => .ok i

/-- The C slot (04 Table 4). -/
def decodeC (op : Nat) (g : Guard) (o : BitVec 19) (x : Option Word32) : Except Bad Instr :=
  assigned <| match op with
  | 0x01 => some <| both x ((parseJ g o).map .br) (fun e => (parseJ64 g o e).map .br64)
  | 0x02 => some <| both x ((parseK g o).map .brc) (fun e => (parseK64 g o e).map .brc64)
  | 0x03 => some <| only64 x (fun e => (parseMwb g o e).map .mwb)
  | 0x04 => some <| both x ((parseJ g o).map .call) (fun e => (parseJ64 g o e).map .call64)
  | 0x05 => some <| only32 x ((parseN g o).map .ret)
  | 0x06 => some <| only32 x ((parseLoop g o).map .loop)
  | 0x07 => some <| only32 x ((parseN g o).map .eret)
  | 0x08 => some <| both x ((parseTrap g o).map .trap) (fun e => (parseTrap64 g o e).map .trap64)
  | 0x09 => some <| only32 x ((parseN g o).map .yield)
  | 0x0A => some <| only32 x ((parseN g o).map .retire)
  | 0x0B => some <| only32 x ((parseN g o).map .halt)
  | 0x0C => some <| only32 x ((parseC3 g o).map .launch)
  | 0x10 => some <| only32 x ((parseS g o).map .mfsr)
  | 0x11 => some <| only32 x ((parseS g o).map .mtsr)
  | 0x12 => some <| only32 x ((parseTlbi g o).map .tlbi)
  | 0x13 => some <| only32 x ((parseC2 g o).map .fenset)
  | 0x14 => some <| only32 x ((parseC2 g o).map .evac)
  | 0x15 => some <| only32 x ((parseC3 g o).map .draftld)
  | 0x18 => some <| only32 x ((parseCmpC g o).map .cmpC)
  | 0x19 => some <| both x ((parseCmpiC g o).map .cmpiC) (fun e => (parseCmpiC64 g o e).map .cmpiC64)
  | 0x1A => some <| both x ((parseAddiC g o).map .addiC) (fun e => (parseAddiC64 g o e).map .addiC64)
  | 0x1B => some <| both x ((parseLiC g o).map .liC) (fun e => (parseLiC64 g o e).map .liC64)
  | 0x1C => some <| only32 x ((parseXmovC g o).map .xmovC)
  | 0x20 => some <| only32 x ((parseP3C g o).map .pandC)
  | 0x21 => some <| only32 x ((parseP3C g o).map .porC)
  | 0x22 => some <| only32 x ((parseP3C g o).map .pxorC)
  | 0x23 => some <| only32 x ((parseP2C g o).map .pnotC)
  | 0x24 => some <| both x ((parsePsetC g o).map .psetC) (fun e => (parsePsetC64 g o e).map .psetC64)
  | 0x25 => some <| only32 x ((parsePmovC g o).map .pmovC)
  | _ => none

/-- The I0 and I1 slots (04 Table 5). -/
def decodeI (sl : ISlot) (op : Nat) (g : Guard) (o : BitVec 19) (x : Option Word32) : Except Bad Instr :=
  assigned <| match op with
  | 0x01 => some <| only32 x ((parseIA sl g o).map .add)
  | 0x02 => some <| both x ((parseIB sl g o).map .addiI) (fun e => (parseIB64 sl g o e).map .addiI64)
  | 0x03 => some <| only32 x ((parseIA sl g o).map .sub)
  | 0x04 => some <| only32 x ((parseIA sl g o).map .mul)
  | 0x05 => some <| only32 x ((parseIA sl g o).map .mulh)
  | 0x06 => some <| only32 x ((parseIA sl g o).map .div)
  | 0x07 => some <| only32 x ((parseIA sl g o).map .rem)
  | 0x08 => some <| only32 x ((parseIA sl g o).map .and)
  | 0x09 => some <| only32 x ((parseIA sl g o).map .or)
  | 0x0A => some <| only32 x ((parseIA sl g o).map .xor)
  | 0x0B => some <| only32 x ((parseIA sl g o).map .andn)
  | 0x0C => some <| only32 x ((parseIA sl g o).map .shl)
  | 0x0D => some <| only32 x ((parseIA sl g o).map .shr)
  | 0x0E => some <| only32 x ((parseIA sl g o).map .sra)
  | 0x0F => some <| only32 x ((parseIA sl g o).map .rotl)
  | 0x10 => some <| only32 x ((parseIA1 sl g o).map .clz)
  | 0x11 => some <| only32 x ((parseIA1 sl g o).map .popc)
  | 0x12 => some <| only32 x ((parseIA sl g o).map .min)
  | 0x13 => some <| only32 x ((parseIA sl g o).map .max)
  | 0x14 => some <| only32 x ((parseIA1 sl g o).map .abs)
  | 0x15 => some <| both x ((parseSel sl g o).map .sel) (fun e => (parseSel64 sl g o e).map .sel64)
  | 0x16 => some <| only32 x ((parseIA sl g o).map .cmpI)
  | 0x17 => some <| both x ((parseIB sl g o).map .cmpiI) (fun e => (parseIB64 sl g o e).map .cmpiI64)
  | 0x18 => some <| both x ((parseIU sl g o).map .liI) (fun e => (parseIU64 sl g o e).map .liI64)
  | 0x19 => some <| both x ((parseIU sl g o).map .lih) (fun e => (parseIU64 sl g o e).map .lih64)
  | 0x1A => some <| both x ((parseLea sl g o).map .lea) (fun e => (parseLea64 sl g o e).map .lea64)
  | 0x1B => some <| both x ((parseBfx sl g o).map .bfx) (fun e => (parseBfxImm sl g o e).map .bfxImm)
  | 0x1C => some <| both x ((parseBfi sl g o).map .bfi) (fun e => (parseBfiImm sl g o e).map .bfiImm)
  | 0x1D => some <| only32 x ((parseXmovI sl g o).map .xmovI)
  | 0x20 => some <| both x ((parseL sl g o).map .ld) (fun e => (parseL64 sl g o e).map .ld64)
  | 0x21 => some <| both x ((parseL sl g o).map .st) (fun e => (parseL64 sl g o e).map .st64)
  | 0x22 => some <| both x ((parseL sl g o).map .lda) (fun e => (parseL64 sl g o e).map .lda64)
  | 0x23 => some <| both x ((parseL sl g o).map .chka) (fun e => (parseL64 sl g o e).map .chka64)
  | 0x24 => some <| both x ((parseL sl g o).map .ldacq) (fun e => (parseL64 sl g o e).map .ldacq64)
  | 0x25 => some <| both x ((parseL sl g o).map .strel) (fun e => (parseL64 sl g o e).map .strel64)
  | 0x28 => some <| only32 x ((parseP3 (match sl with | .i0 => .i0 | .i1 => .i1) g o).map .pandIF)
  | 0x29 => some <| only32 x ((parseP3 (match sl with | .i0 => .i0 | .i1 => .i1) g o).map .porIF)
  | 0x2A => some <| only32 x ((parseP3 (match sl with | .i0 => .i0 | .i1 => .i1) g o).map .pxorIF)
  | 0x2B => some <| only32 x ((parseP2 (match sl with | .i0 => .i0 | .i1 => .i1) g o).map .pnotIF)
  | 0x2C => some <| both x ((parsePset (match sl with | .i0 => .i0 | .i1 => .i1) g o).map .psetIF) (fun e => (parsePset64 (match sl with | .i0 => .i0 | .i1 => .i1) g o e).map .psetIF64)
  | 0x2D => some <| only32 x ((parsePmov (match sl with | .i0 => .i0 | .i1 => .i1) g o).map .pmovIF)
  | _ => none

/-- The F slot (04 Table 6). -/
def decodeF (op : Nat) (g : Guard) (o : BitVec 19) (x : Option Word32) : Except Bad Instr :=
  assigned <| match op with
  | 0x01 => some <| (parseV2 g o x).map .vadd
  | 0x02 => some <| (parseV2 g o x).map .vsub
  | 0x03 => some <| (parseV2 g o x).map .vmul
  | 0x04 => some <| only64 x (fun e => (parseV3 g o e).map .vfma)
  | 0x05 => some <| only64 x (fun e => (parseV3 g o e).map .vfms)
  | 0x06 => some <| (parseV2 g o x).map .vmax
  | 0x07 => some <| (parseV2 g o x).map .vmin
  | 0x08 => some <| (parseV1 g o x).map .vabs
  | 0x09 => some <| (parseV1 g o x).map .vneg
  | 0x0A => some <| only64 x (fun e => (parseVcmp g o e).map .vcmp)
  | 0x0B => some <| only64 x (fun e => (parseVsel g o e).map .vsel)
  | 0x0C => some <| only64 x (fun e => (parseVcvt g o e).map .vcvt)
  | 0x0D => some <| both x ((parseVS g o).map .vrnd) (fun e => (parseVrnd64 g o e).map .vrnd64)
  | 0x0E => some <| only64 x (fun e => (parseVclass g o e).map .vclass)
  | 0x0F => some <| (parseV2 g o x).map .vldexp
  | 0x10 => some <| (parseV1 g o x).map .vexp2
  | 0x11 => some <| (parseV1 g o x).map .vlog2
  | 0x12 => some <| (parseV1 g o x).map .vrcp
  | 0x13 => some <| (parseV1 g o x).map .vrsq
  | 0x14 => some <| (parseVred g o x).map .vred
  | 0x15 => some <| (parseVred g o x).map .vscan
  | 0x16 => some <| only64 x (fun e => (parseVcswap g o e).map .vcswap)
  | 0x18 => some <| (parseV2 g o x).map .vperm
  | 0x19 => some <| both x ((parseVS g o).map .vbcast) (fun e => (parseVbcast64 g o e).map .vbcast64)
  | 0x1A => some <| (parseViota g o x).map .viota
  | 0x1B => some <| (parseVmov g o x).map .vmov
  | 0x1C => some <| both x ((parseVpack g o).map .vpack) (fun e => (parseVpack64 g o e).map .vpack64)
  | 0x1D => some <| only32 x ((parseVunpk g o).map .vunpk)
  | 0x20 => some <| both x ((parseVM g o).map .vld) (fun e => (parseVM64 g o e).map .vld64)
  | 0x21 => some <| both x ((parseVM g o).map .vst) (fun e => (parseVM64 g o e).map .vst64)
  | 0x22 => some <| both x ((parseVX g o).map .vgath) (fun e => (parseVX64 g o e).map .vgath64)
  | 0x23 => some <| both x ((parseVX g o).map .vscat) (fun e => (parseVX64 g o e).map .vscat64)
  | 0x28 => some <| only32 x ((parseP3 .f g o).map .pandIF)
  | 0x29 => some <| only32 x ((parseP3 .f g o).map .porIF)
  | 0x2A => some <| only32 x ((parseP3 .f g o).map .pxorIF)
  | 0x2B => some <| only32 x ((parseP2 .f g o).map .pnotIF)
  | 0x2C => some <| both x ((parsePset .f g o).map .psetIF) (fun e => (parsePset64 .f g o e).map .psetIF64)
  | 0x2D => some <| only32 x ((parsePmov .f g o).map .pmovIF)
  | _ => none

/-- The M slot (04 Table 7). -/
def decodeM (op : Nat) (g : Guard) (o : BitVec 19) (x : Option Word32) : Except Bad Instr :=
  assigned <| match op with
  | 0x01 => some <| only32 x ((parseMcfg g o).map .mcfg)
  | 0x02 => some <| engine x (parseMfmt g o) .mfmt .mfmt64
  | 0x03 => some <| engine x (parseN g o) .mdrain .mdrain64
  | 0x04 => some <| engine x (parseMma g o) .mma .mma64
  | 0x05 => some <| engine x (parseMma g o) .mmaz .mmaz64
  | 0x06 => some <| engine x (parseMbld g o) .mbld .mbld64
  | 0x07 => some <| engine x (parseMzero g o) .mzero .mzero64
  | 0x08 => some <| engine x (parseMrow g o) .mzrd .mzrd64
  | 0x09 => some <| engine x (parseMrow g o) .mzwr .mzwr64
  | 0x0A => some <| engine x (parseMtile g o) .mzst .mzst64
  | 0x0B => some <| engine x (parseMtile g o) .mzld .mzld64
  | 0x0C => some <| engine x (parseMtrn g o) .mtrn .mtrn64
  | 0x0D => some <| engine x (parseMbfly g o) .mbfly .mbfly64
  | 0x0E => some <| engine x (parseMtwid g o) .mtwid .mtwid64
  | _ => none

/-- The Q slot (04 Table 8). -/
def decodeQ (op : Nat) (g : Guard) (o : BitVec 19) (x : Option Word32) : Except Bad Instr :=
  assigned <| match op with
  | 0x01 => some <| engine x (parseQset g o) .qset .qset64
  | 0x02 => some <| engine x (parseQstrm g o) .qld .qld64
  | 0x03 => some <| engine x (parseQstrm g o) .qst .qst64
  | 0x04 => some <| engine x (parseQstrm g o) .qgath .qgath64
  | 0x05 => some <| engine x (parseQstrm g o) .qscat .qscat64
  | 0x06 => some <| engine x (parseQcopy g o) .qcopy .qcopy64
  | 0x07 => some <| engine x (parseQcopy g o) .qrcopy .qrcopy64
  | 0x08 => some <| engine x (parseQcopy g o) .qccopy .qccopy64
  | 0x09 => some <| engine x (parseGcfg g o) .gcfg .gcfg64
  | 0x0A => some <| engine x (parseGrun g o) .grun .grun64
  | 0x0B => some <| engine x (parseN g o) .gstop .gstop64
  | 0x0C => some <| engine x (parseQsave g o) .qsave .qsave64
  | 0x0D => some <| engine x (parseQsave g o) .qrest .qrest64
  | 0x10 => some <| engine x (parseStash g o) .spin .spin64
  | 0x11 => some <| engine x (parseStash g o) .sunpin .sunpin64
  | 0x12 => some <| engine x (parseStash g o) .swb .swb64
  | 0x13 => some <| engine x (parseStash g o) .sinv .sinv64
  | _ => none

/-- The Y slot (04 Table 9). -/
def decodeY (op : Nat) (g : Guard) (o : BitVec 19) (x : Option Word32) : Except Bad Instr :=
  assigned <| match op with
  | 0x01 => some <| both x ((parseSem g o).map .semset) (fun e => (parseSem64 g o e).map .semset64)
  | 0x02 => some <| engine x (parseSem g o) .semadd .semadd64
  | 0x03 => some <| both x ((parseSem g o).map .semwait) (fun e => (parseSem64 g o e).map .semwait64)
  | 0x04 => some <| only32 x ((parseFence g o).map .fence)
  | 0x05 => some <| engine x (parseN g o) .drain .drain64
  | 0x06 => some <| engine x (parseStep g o) .step .step64
  | 0x08 => some <| both x ((parseAtom g o).map .aadd) (fun e => (parseAtom64 g o e).map .aadd64)
  | 0x09 => some <| both x ((parseAtom g o).map .aand) (fun e => (parseAtom64 g o e).map .aand64)
  | 0x0A => some <| both x ((parseAtom g o).map .aor) (fun e => (parseAtom64 g o e).map .aor64)
  | 0x0B => some <| both x ((parseAtom g o).map .axor) (fun e => (parseAtom64 g o e).map .axor64)
  | 0x0C => some <| both x ((parseAtom g o).map .amin) (fun e => (parseAtom64 g o e).map .amin64)
  | 0x0D => some <| both x ((parseAtom g o).map .amax) (fun e => (parseAtom64 g o e).map .amax64)
  | 0x0E => some <| both x ((parseAtom g o).map .aswp) (fun e => (parseAtom64 g o e).map .aswp64)
  | 0x0F => some <| only64 x (fun e => (parseAtom64 g o e).map .acas)
  | 0x10 => some <| engine x (parseCh g o) .chsend .chsend64
  | 0x11 => some <| engine x (parseCh g o) .chrecv .chrecv64
  | 0x12 => some <| engine x (parseCh g o) .chstart .chstart64
  | 0x13 => some <| engine x (parseCh g o) .chabort .chabort64
  | 0x14 => some <| only32 x ((parseTstart g o).map .tstart)
  | 0x15 => some <| only32 x ((parseRdtime g o).map .rdtime)
  | _ => none

/-- The guard fields of a slot word (03 R51). -/
def guardOf (w : Word32) : Guard := ⟨bitOf (w.extractLsb' 25 1), bitOf (w.extractLsb' 24 1), w.extractLsb' 19 5⟩

/-- The opcode of a slot word. -/
def opOf (w : Word32) : BitVec 6 := w.extractLsb' 26 6

/-- A slot word by the map of its slot, before the checks of Instr.wf. -/
def decodeFields (sl : Slot) (w : Word32) (x : Option Word32) : Except Bad Instr :=
  let op := (opOf w).toNat
  let g := guardOf w
  let o := w.extractLsb' 0 19
  match sl with
  | .c => decodeC op g o x
  | .i0 => decodeI .i0 op g o x
  | .i1 => decodeI .i1 op g o x
  | .f => decodeF op g o x
  | .m => decodeM op g o x
  | .q => decodeQ op g o x
  | .y => decodeY op g o x

/-- The instruction in a slot: its slot word, and its extension word where WX is set (04 R77 to R85). -/
def decodeSlot (sl : Slot) (w : Word32) (x : Option Word32) : Except Bad Instr :=
  match decodeFields sl w x with
  | .error e => .error e
  | .ok i => if i.wf then .ok i else .error .field

/-- The slots in the order of PM, WX and the words of a bundle (03 R48). -/
def Slot.all : List Slot := [.c, .i0, .i1, .f, .m, .q, .y]

/-- The index of a slot: 0 for C to 6 for Y. -/
def Slot.index : Slot → Nat
  | .c => 0 | .i0 => 1 | .i1 => 2 | .f => 3 | .m => 4 | .q => 5 | .y => 6

/-- The slot of an I-slot operation. -/
def ISlot.slot : ISlot → Slot
  | .i0 => .i0 | .i1 => .i1
/-- The slot of a predicate operation. -/
def PSlot.slot : PSlot → Slot
  | .i0 => .i0 | .i1 => .i1 | .f => .f

/-- A bundle header (03 R48 Table 1). -/
structure Header where
  pm : BitVec 7
  wx : BitVec 7
  er : BitVec 8
deriving DecidableEq, Repr

/-- The header word, none where it makes the bundle an ILLEGAL_BUNDLE (03 R49). -/
def decodeHeader (w : Word32) : Option Header :=
  if w.extractLsb' 22 2 == 0 && w.extractLsb' 24 4 == 5 && w.extractLsb' 28 4 == 0 && w.extractLsb' 7 7 &&& ~~~(w.extractLsb' 0 7) == 0 then
    some ⟨w.extractLsb' 0 7, w.extractLsb' 7 7, w.extractLsb' 14 8⟩
  else none

/-- The header word of a header. -/
def headerBits (h : Header) : Word32 := 0#4 ++ 5#4 ++ 0#2 ++ h.er ++ h.wx ++ h.pm

/-- The number of words of a bundle that follow its header (03 R49). -/
def Header.words (h : Header) : Nat :=
  (Slot.all.map fun s => (if h.pm.getLsbD s.index then 1 else 0) + (if h.wx.getLsbD s.index then 1 else 0)).sum

/-- The length of a bundle in bytes: 4 to 60 (03 R49). -/
def Header.len (h : Header) : Nat := 4 + 4 * h.words

/-- One operation of a bundle: its slot, its slot word and its extension word. -/
structure SlotWord where
  slot : Slot
  w : Word32
  x : Option Word32
deriving DecidableEq, Repr

/-- The operations of a bundle, from the words after its header, in slot order (03 R49). -/
def slotWords (h : Header) : List Slot → List Word32 → List SlotWord
  | [], _ => []
  | s :: ss, ws =>
    if h.pm.getLsbD s.index then
      if h.wx.getLsbD s.index then ⟨s, ws.getD 0 0, some (ws.getD 1 0)⟩ :: slotWords h ss (ws.drop 2)
      else ⟨s, ws.getD 0 0, none⟩ :: slotWords h ss (ws.drop 1)
    else slotWords h ss ws

/-- What a slot of a bundle holds. -/
def SlotWord.decode (s : SlotWord) : Except Bad Instr := decodeSlot s.slot s.w s.x

/-- The slot word with an opcode, a guard and operand bits (03 R51). -/
def wordOf (op : BitVec 6) (g : Guard) (o : BitVec 19) : Word32 :=
  op ++ bitBits g.ge ++ bitBits g.gs ++ g.gp ++ o

/-- The extension word of an F-slot operation whose 64-bit form has none of its own (19 R517). -/
def wideExt (b : Bool) : Option Word32 := if b then some 0 else none

/-- The words of a well-formed slot operation; an event has no encoding. -/
def encode : Instr → Option SlotWord
  | .br o => some ⟨.c, wordOf 0x01 o.g (bitsJ o), none⟩
  | .brc o => some ⟨.c, wordOf 0x02 o.g (bitsK o), none⟩
  | .call o => some ⟨.c, wordOf 0x04 o.g (bitsJ o), none⟩
  | .ret o => some ⟨.c, wordOf 0x05 o.g (bitsN o), none⟩
  | .loop o => some ⟨.c, wordOf 0x06 o.g (bitsLoop o), none⟩
  | .eret o => some ⟨.c, wordOf 0x07 o.g (bitsN o), none⟩
  | .trap o => some ⟨.c, wordOf 0x08 o.g (bitsTrap o), none⟩
  | .yield o => some ⟨.c, wordOf 0x09 o.g (bitsN o), none⟩
  | .retire o => some ⟨.c, wordOf 0x0A o.g (bitsN o), none⟩
  | .halt o => some ⟨.c, wordOf 0x0B o.g (bitsN o), none⟩
  | .launch o => some ⟨.c, wordOf 0x0C o.g (bitsC3 o), none⟩
  | .mfsr o => some ⟨.c, wordOf 0x10 o.g (bitsS o), none⟩
  | .mtsr o => some ⟨.c, wordOf 0x11 o.g (bitsS o), none⟩
  | .tlbi o => some ⟨.c, wordOf 0x12 o.g (bitsTlbi o), none⟩
  | .fenset o => some ⟨.c, wordOf 0x13 o.g (bitsC2 o), none⟩
  | .evac o => some ⟨.c, wordOf 0x14 o.g (bitsC2 o), none⟩
  | .draftld o => some ⟨.c, wordOf 0x15 o.g (bitsC3 o), none⟩
  | .cmpC o => some ⟨.c, wordOf 0x18 o.g (bitsCmpC o), none⟩
  | .cmpiC o => some ⟨.c, wordOf 0x19 o.g (bitsCmpiC o), none⟩
  | .addiC o => some ⟨.c, wordOf 0x1A o.g (bitsAddiC o), none⟩
  | .liC o => some ⟨.c, wordOf 0x1B o.g (bitsLiC o), none⟩
  | .xmovC o => some ⟨.c, wordOf 0x1C o.g (bitsXmovC o), none⟩
  | .pandC o => some ⟨.c, wordOf 0x20 o.g (bitsP3C o), none⟩
  | .porC o => some ⟨.c, wordOf 0x21 o.g (bitsP3C o), none⟩
  | .pxorC o => some ⟨.c, wordOf 0x22 o.g (bitsP3C o), none⟩
  | .pnotC o => some ⟨.c, wordOf 0x23 o.g (bitsP2C o), none⟩
  | .psetC o => some ⟨.c, wordOf 0x24 o.g (bitsPsetC o), none⟩
  | .pmovC o => some ⟨.c, wordOf 0x25 o.g (bitsPmovC o), none⟩
  | .add o => some ⟨o.sl.slot, wordOf 0x01 o.g (bitsIA o), none⟩
  | .addiI o => some ⟨o.sl.slot, wordOf 0x02 o.g (bitsIB o), none⟩
  | .sub o => some ⟨o.sl.slot, wordOf 0x03 o.g (bitsIA o), none⟩
  | .mul o => some ⟨o.sl.slot, wordOf 0x04 o.g (bitsIA o), none⟩
  | .mulh o => some ⟨o.sl.slot, wordOf 0x05 o.g (bitsIA o), none⟩
  | .div o => some ⟨o.sl.slot, wordOf 0x06 o.g (bitsIA o), none⟩
  | .rem o => some ⟨o.sl.slot, wordOf 0x07 o.g (bitsIA o), none⟩
  | .and o => some ⟨o.sl.slot, wordOf 0x08 o.g (bitsIA o), none⟩
  | .or o => some ⟨o.sl.slot, wordOf 0x09 o.g (bitsIA o), none⟩
  | .xor o => some ⟨o.sl.slot, wordOf 0x0A o.g (bitsIA o), none⟩
  | .andn o => some ⟨o.sl.slot, wordOf 0x0B o.g (bitsIA o), none⟩
  | .shl o => some ⟨o.sl.slot, wordOf 0x0C o.g (bitsIA o), none⟩
  | .shr o => some ⟨o.sl.slot, wordOf 0x0D o.g (bitsIA o), none⟩
  | .sra o => some ⟨o.sl.slot, wordOf 0x0E o.g (bitsIA o), none⟩
  | .rotl o => some ⟨o.sl.slot, wordOf 0x0F o.g (bitsIA o), none⟩
  | .clz o => some ⟨o.sl.slot, wordOf 0x10 o.g (bitsIA1 o), none⟩
  | .popc o => some ⟨o.sl.slot, wordOf 0x11 o.g (bitsIA1 o), none⟩
  | .min o => some ⟨o.sl.slot, wordOf 0x12 o.g (bitsIA o), none⟩
  | .max o => some ⟨o.sl.slot, wordOf 0x13 o.g (bitsIA o), none⟩
  | .abs o => some ⟨o.sl.slot, wordOf 0x14 o.g (bitsIA1 o), none⟩
  | .sel o => some ⟨o.sl.slot, wordOf 0x15 o.g (bitsSel o), none⟩
  | .cmpI o => some ⟨o.sl.slot, wordOf 0x16 o.g (bitsIA o), none⟩
  | .cmpiI o => some ⟨o.sl.slot, wordOf 0x17 o.g (bitsIB o), none⟩
  | .liI o => some ⟨o.sl.slot, wordOf 0x18 o.g (bitsIU o), none⟩
  | .lih o => some ⟨o.sl.slot, wordOf 0x19 o.g (bitsIU o), none⟩
  | .lea o => some ⟨o.sl.slot, wordOf 0x1A o.g (bitsLea o), none⟩
  | .bfx o => some ⟨o.sl.slot, wordOf 0x1B o.g (bitsBfx o), none⟩
  | .bfi o => some ⟨o.sl.slot, wordOf 0x1C o.g (bitsBfi o), none⟩
  | .xmovI o => some ⟨o.sl.slot, wordOf 0x1D o.g (bitsXmovI o), none⟩
  | .ld o => some ⟨o.sl.slot, wordOf 0x20 o.g (bitsL o), none⟩
  | .st o => some ⟨o.sl.slot, wordOf 0x21 o.g (bitsL o), none⟩
  | .lda o => some ⟨o.sl.slot, wordOf 0x22 o.g (bitsL o), none⟩
  | .chka o => some ⟨o.sl.slot, wordOf 0x23 o.g (bitsL o), none⟩
  | .ldacq o => some ⟨o.sl.slot, wordOf 0x24 o.g (bitsL o), none⟩
  | .strel o => some ⟨o.sl.slot, wordOf 0x25 o.g (bitsL o), none⟩
  | .pandIF o => some ⟨o.sl.slot, wordOf 0x28 o.g (bitsP3 o), none⟩
  | .porIF o => some ⟨o.sl.slot, wordOf 0x29 o.g (bitsP3 o), none⟩
  | .pxorIF o => some ⟨o.sl.slot, wordOf 0x2A o.g (bitsP3 o), none⟩
  | .pnotIF o => some ⟨o.sl.slot, wordOf 0x2B o.g (bitsP2 o), none⟩
  | .psetIF o => some ⟨o.sl.slot, wordOf 0x2C o.g (bitsPset o), none⟩
  | .pmovIF o => some ⟨o.sl.slot, wordOf 0x2D o.g (bitsPmov o), none⟩
  | .vadd o => some ⟨.f, wordOf 0x01 o.g (bitsV2 o), wideExt o.wide⟩
  | .vsub o => some ⟨.f, wordOf 0x02 o.g (bitsV2 o), wideExt o.wide⟩
  | .vmul o => some ⟨.f, wordOf 0x03 o.g (bitsV2 o), wideExt o.wide⟩
  | .vmax o => some ⟨.f, wordOf 0x06 o.g (bitsV2 o), wideExt o.wide⟩
  | .vmin o => some ⟨.f, wordOf 0x07 o.g (bitsV2 o), wideExt o.wide⟩
  | .vabs o => some ⟨.f, wordOf 0x08 o.g (bitsV1 o), wideExt o.wide⟩
  | .vneg o => some ⟨.f, wordOf 0x09 o.g (bitsV1 o), wideExt o.wide⟩
  | .vrnd o => some ⟨.f, wordOf 0x0D o.g (bitsVS o), none⟩
  | .vldexp o => some ⟨.f, wordOf 0x0F o.g (bitsV2 o), wideExt o.wide⟩
  | .vexp2 o => some ⟨.f, wordOf 0x10 o.g (bitsV1 o), wideExt o.wide⟩
  | .vlog2 o => some ⟨.f, wordOf 0x11 o.g (bitsV1 o), wideExt o.wide⟩
  | .vrcp o => some ⟨.f, wordOf 0x12 o.g (bitsV1 o), wideExt o.wide⟩
  | .vrsq o => some ⟨.f, wordOf 0x13 o.g (bitsV1 o), wideExt o.wide⟩
  | .vred o => some ⟨.f, wordOf 0x14 o.g (bitsVred o), wideExt o.wide⟩
  | .vscan o => some ⟨.f, wordOf 0x15 o.g (bitsVred o), wideExt o.wide⟩
  | .vperm o => some ⟨.f, wordOf 0x18 o.g (bitsV2 o), wideExt o.wide⟩
  | .vbcast o => some ⟨.f, wordOf 0x19 o.g (bitsVS o), none⟩
  | .viota o => some ⟨.f, wordOf 0x1A o.g (bitsViota o), wideExt o.wide⟩
  | .vmov o => some ⟨.f, wordOf 0x1B o.g (bitsVmov o), wideExt o.wide⟩
  | .vpack o => some ⟨.f, wordOf 0x1C o.g (bitsVpack o), none⟩
  | .vunpk o => some ⟨.f, wordOf 0x1D o.g (bitsVunpk o), none⟩
  | .vld o => some ⟨.f, wordOf 0x20 o.g (bitsVM o), none⟩
  | .vst o => some ⟨.f, wordOf 0x21 o.g (bitsVM o), none⟩
  | .vgath o => some ⟨.f, wordOf 0x22 o.g (bitsVX o), none⟩
  | .vscat o => some ⟨.f, wordOf 0x23 o.g (bitsVX o), none⟩
  | .mcfg o => some ⟨.m, wordOf 0x01 o.g (bitsMcfg o), none⟩
  | .mfmt o => some ⟨.m, wordOf 0x02 o.g (bitsMfmt o), none⟩
  | .mdrain o => some ⟨.m, wordOf 0x03 o.g (bitsN o), none⟩
  | .mma o => some ⟨.m, wordOf 0x04 o.g (bitsMma o), none⟩
  | .mmaz o => some ⟨.m, wordOf 0x05 o.g (bitsMma o), none⟩
  | .mbld o => some ⟨.m, wordOf 0x06 o.g (bitsMbld o), none⟩
  | .mzero o => some ⟨.m, wordOf 0x07 o.g (bitsMzero o), none⟩
  | .mzrd o => some ⟨.m, wordOf 0x08 o.g (bitsMrow o), none⟩
  | .mzwr o => some ⟨.m, wordOf 0x09 o.g (bitsMrow o), none⟩
  | .mzst o => some ⟨.m, wordOf 0x0A o.g (bitsMtile o), none⟩
  | .mzld o => some ⟨.m, wordOf 0x0B o.g (bitsMtile o), none⟩
  | .mtrn o => some ⟨.m, wordOf 0x0C o.g (bitsMtrn o), none⟩
  | .mbfly o => some ⟨.m, wordOf 0x0D o.g (bitsMbfly o), none⟩
  | .mtwid o => some ⟨.m, wordOf 0x0E o.g (bitsMtwid o), none⟩
  | .qset o => some ⟨.q, wordOf 0x01 o.g (bitsQset o), none⟩
  | .qld o => some ⟨.q, wordOf 0x02 o.g (bitsQstrm o), none⟩
  | .qst o => some ⟨.q, wordOf 0x03 o.g (bitsQstrm o), none⟩
  | .qgath o => some ⟨.q, wordOf 0x04 o.g (bitsQstrm o), none⟩
  | .qscat o => some ⟨.q, wordOf 0x05 o.g (bitsQstrm o), none⟩
  | .qcopy o => some ⟨.q, wordOf 0x06 o.g (bitsQcopy o), none⟩
  | .qrcopy o => some ⟨.q, wordOf 0x07 o.g (bitsQcopy o), none⟩
  | .qccopy o => some ⟨.q, wordOf 0x08 o.g (bitsQcopy o), none⟩
  | .gcfg o => some ⟨.q, wordOf 0x09 o.g (bitsGcfg o), none⟩
  | .grun o => some ⟨.q, wordOf 0x0A o.g (bitsGrun o), none⟩
  | .gstop o => some ⟨.q, wordOf 0x0B o.g (bitsN o), none⟩
  | .qsave o => some ⟨.q, wordOf 0x0C o.g (bitsQsave o), none⟩
  | .qrest o => some ⟨.q, wordOf 0x0D o.g (bitsQsave o), none⟩
  | .spin o => some ⟨.q, wordOf 0x10 o.g (bitsStash o), none⟩
  | .sunpin o => some ⟨.q, wordOf 0x11 o.g (bitsStash o), none⟩
  | .swb o => some ⟨.q, wordOf 0x12 o.g (bitsStash o), none⟩
  | .sinv o => some ⟨.q, wordOf 0x13 o.g (bitsStash o), none⟩
  | .semset o => some ⟨.y, wordOf 0x01 o.g (bitsSem o), none⟩
  | .semadd o => some ⟨.y, wordOf 0x02 o.g (bitsSem o), none⟩
  | .semwait o => some ⟨.y, wordOf 0x03 o.g (bitsSem o), none⟩
  | .fence o => some ⟨.y, wordOf 0x04 o.g (bitsFence o), none⟩
  | .drain o => some ⟨.y, wordOf 0x05 o.g (bitsN o), none⟩
  | .step o => some ⟨.y, wordOf 0x06 o.g (bitsStep o), none⟩
  | .aadd o => some ⟨.y, wordOf 0x08 o.g (bitsAtom o), none⟩
  | .aand o => some ⟨.y, wordOf 0x09 o.g (bitsAtom o), none⟩
  | .aor o => some ⟨.y, wordOf 0x0A o.g (bitsAtom o), none⟩
  | .axor o => some ⟨.y, wordOf 0x0B o.g (bitsAtom o), none⟩
  | .amin o => some ⟨.y, wordOf 0x0C o.g (bitsAtom o), none⟩
  | .amax o => some ⟨.y, wordOf 0x0D o.g (bitsAtom o), none⟩
  | .aswp o => some ⟨.y, wordOf 0x0E o.g (bitsAtom o), none⟩
  | .chsend o => some ⟨.y, wordOf 0x10 o.g (bitsCh o), none⟩
  | .chrecv o => some ⟨.y, wordOf 0x11 o.g (bitsCh o), none⟩
  | .chstart o => some ⟨.y, wordOf 0x12 o.g (bitsCh o), none⟩
  | .chabort o => some ⟨.y, wordOf 0x13 o.g (bitsCh o), none⟩
  | .tstart o => some ⟨.y, wordOf 0x14 o.g (bitsTstart o), none⟩
  | .rdtime o => some ⟨.y, wordOf 0x15 o.g (bitsRdtime o), none⟩
  | .br64 o => some ⟨.c, wordOf 0x01 o.g (bitsJ64 o), some (extJ64 o)⟩
  | .brc64 o => some ⟨.c, wordOf 0x02 o.g (bitsK64 o), some (extK64 o)⟩
  | .mwb o => some ⟨.c, wordOf 0x03 o.g (bitsMwb o), some (extMwb o)⟩
  | .call64 o => some ⟨.c, wordOf 0x04 o.g (bitsJ64 o), some (extJ64 o)⟩
  | .trap64 o => some ⟨.c, wordOf 0x08 o.g (bitsTrap64 o), some (extTrap64 o)⟩
  | .cmpiC64 o => some ⟨.c, wordOf 0x19 o.g (bitsCmpiC64 o), some (extCmpiC64 o)⟩
  | .addiC64 o => some ⟨.c, wordOf 0x1A o.g (bitsAddiC64 o), some (extAddiC64 o)⟩
  | .liC64 o => some ⟨.c, wordOf 0x1B o.g (bitsLiC64 o), some (extLiC64 o)⟩
  | .psetC64 o => some ⟨.c, wordOf 0x24 o.g (bitsPsetC64 o), some (extPsetC64 o)⟩
  | .addiI64 o => some ⟨o.sl.slot, wordOf 0x02 o.g (bitsIB64 o), some (extIB64 o)⟩
  | .sel64 o => some ⟨o.sl.slot, wordOf 0x15 o.g (bitsSel64 o), some (extSel64 o)⟩
  | .cmpiI64 o => some ⟨o.sl.slot, wordOf 0x17 o.g (bitsIB64 o), some (extIB64 o)⟩
  | .liI64 o => some ⟨o.sl.slot, wordOf 0x18 o.g (bitsIU64 o), some (extIU64 o)⟩
  | .lih64 o => some ⟨o.sl.slot, wordOf 0x19 o.g (bitsIU64 o), some (extIU64 o)⟩
  | .lea64 o => some ⟨o.sl.slot, wordOf 0x1A o.g (bitsLea64 o), some (extLea64 o)⟩
  | .bfxImm o => some ⟨o.sl.slot, wordOf 0x1B o.g (bitsBfxImm o), some (extBfxImm o)⟩
  | .bfiImm o => some ⟨o.sl.slot, wordOf 0x1C o.g (bitsBfiImm o), some (extBfiImm o)⟩
  | .ld64 o => some ⟨o.sl.slot, wordOf 0x20 o.g (bitsL64 o), some (extL64 o)⟩
  | .st64 o => some ⟨o.sl.slot, wordOf 0x21 o.g (bitsL64 o), some (extL64 o)⟩
  | .lda64 o => some ⟨o.sl.slot, wordOf 0x22 o.g (bitsL64 o), some (extL64 o)⟩
  | .chka64 o => some ⟨o.sl.slot, wordOf 0x23 o.g (bitsL64 o), some (extL64 o)⟩
  | .ldacq64 o => some ⟨o.sl.slot, wordOf 0x24 o.g (bitsL64 o), some (extL64 o)⟩
  | .strel64 o => some ⟨o.sl.slot, wordOf 0x25 o.g (bitsL64 o), some (extL64 o)⟩
  | .psetIF64 o => some ⟨o.sl.slot, wordOf 0x2C o.g (bitsPset64 o), some (extPset64 o)⟩
  | .vfma o => some ⟨.f, wordOf 0x04 o.g (bitsV3 o), some (extV3 o)⟩
  | .vfms o => some ⟨.f, wordOf 0x05 o.g (bitsV3 o), some (extV3 o)⟩
  | .vcmp o => some ⟨.f, wordOf 0x0A o.g (bitsVcmp o), some (extVcmp o)⟩
  | .vsel o => some ⟨.f, wordOf 0x0B o.g (bitsVsel o), some (extVsel o)⟩
  | .vcvt o => some ⟨.f, wordOf 0x0C o.g (bitsVcvt o), some (extVcvt o)⟩
  | .vrnd64 o => some ⟨.f, wordOf 0x0D o.g (bitsVrnd64 o), some (extVrnd64 o)⟩
  | .vclass o => some ⟨.f, wordOf 0x0E o.g (bitsVclass o), some (extVclass o)⟩
  | .vcswap o => some ⟨.f, wordOf 0x16 o.g (bitsVcswap o), some (extVcswap o)⟩
  | .vbcast64 o => some ⟨.f, wordOf 0x19 o.g (bitsVbcast64 o), some (extVbcast64 o)⟩
  | .vpack64 o => some ⟨.f, wordOf 0x1C o.g (bitsVpack64 o), some (extVpack64 o)⟩
  | .vld64 o => some ⟨.f, wordOf 0x20 o.g (bitsVM64 o), some (extVM64 o)⟩
  | .vst64 o => some ⟨.f, wordOf 0x21 o.g (bitsVM64 o), some (extVM64 o)⟩
  | .vgath64 o => some ⟨.f, wordOf 0x22 o.g (bitsVX64 o), some (extVX64 o)⟩
  | .vscat64 o => some ⟨.f, wordOf 0x23 o.g (bitsVX64 o), some (extVX64 o)⟩
  | .mfmt64 o w => some ⟨.m, wordOf 0x02 o.g (bitsMfmt o), some (syncBits w)⟩
  | .mdrain64 o w => some ⟨.m, wordOf 0x03 o.g (bitsN o), some (syncBits w)⟩
  | .mma64 o w => some ⟨.m, wordOf 0x04 o.g (bitsMma o), some (syncBits w)⟩
  | .mmaz64 o w => some ⟨.m, wordOf 0x05 o.g (bitsMma o), some (syncBits w)⟩
  | .mbld64 o w => some ⟨.m, wordOf 0x06 o.g (bitsMbld o), some (syncBits w)⟩
  | .mzero64 o w => some ⟨.m, wordOf 0x07 o.g (bitsMzero o), some (syncBits w)⟩
  | .mzrd64 o w => some ⟨.m, wordOf 0x08 o.g (bitsMrow o), some (syncBits w)⟩
  | .mzwr64 o w => some ⟨.m, wordOf 0x09 o.g (bitsMrow o), some (syncBits w)⟩
  | .mzst64 o w => some ⟨.m, wordOf 0x0A o.g (bitsMtile o), some (syncBits w)⟩
  | .mzld64 o w => some ⟨.m, wordOf 0x0B o.g (bitsMtile o), some (syncBits w)⟩
  | .mtrn64 o w => some ⟨.m, wordOf 0x0C o.g (bitsMtrn o), some (syncBits w)⟩
  | .mbfly64 o w => some ⟨.m, wordOf 0x0D o.g (bitsMbfly o), some (syncBits w)⟩
  | .mtwid64 o w => some ⟨.m, wordOf 0x0E o.g (bitsMtwid o), some (syncBits w)⟩
  | .qset64 o w => some ⟨.q, wordOf 0x01 o.g (bitsQset o), some (syncBits w)⟩
  | .qld64 o w => some ⟨.q, wordOf 0x02 o.g (bitsQstrm o), some (syncBits w)⟩
  | .qst64 o w => some ⟨.q, wordOf 0x03 o.g (bitsQstrm o), some (syncBits w)⟩
  | .qgath64 o w => some ⟨.q, wordOf 0x04 o.g (bitsQstrm o), some (syncBits w)⟩
  | .qscat64 o w => some ⟨.q, wordOf 0x05 o.g (bitsQstrm o), some (syncBits w)⟩
  | .qcopy64 o w => some ⟨.q, wordOf 0x06 o.g (bitsQcopy o), some (syncBits w)⟩
  | .qrcopy64 o w => some ⟨.q, wordOf 0x07 o.g (bitsQcopy o), some (syncBits w)⟩
  | .qccopy64 o w => some ⟨.q, wordOf 0x08 o.g (bitsQcopy o), some (syncBits w)⟩
  | .gcfg64 o w => some ⟨.q, wordOf 0x09 o.g (bitsGcfg o), some (syncBits w)⟩
  | .grun64 o w => some ⟨.q, wordOf 0x0A o.g (bitsGrun o), some (syncBits w)⟩
  | .gstop64 o w => some ⟨.q, wordOf 0x0B o.g (bitsN o), some (syncBits w)⟩
  | .qsave64 o w => some ⟨.q, wordOf 0x0C o.g (bitsQsave o), some (syncBits w)⟩
  | .qrest64 o w => some ⟨.q, wordOf 0x0D o.g (bitsQsave o), some (syncBits w)⟩
  | .spin64 o w => some ⟨.q, wordOf 0x10 o.g (bitsStash o), some (syncBits w)⟩
  | .sunpin64 o w => some ⟨.q, wordOf 0x11 o.g (bitsStash o), some (syncBits w)⟩
  | .swb64 o w => some ⟨.q, wordOf 0x12 o.g (bitsStash o), some (syncBits w)⟩
  | .sinv64 o w => some ⟨.q, wordOf 0x13 o.g (bitsStash o), some (syncBits w)⟩
  | .semset64 o => some ⟨.y, wordOf 0x01 o.g (bitsSem64 o), some (extSem64 o)⟩
  | .semadd64 o w => some ⟨.y, wordOf 0x02 o.g (bitsSem o), some (syncBits w)⟩
  | .semwait64 o => some ⟨.y, wordOf 0x03 o.g (bitsSem64 o), some (extSem64 o)⟩
  | .drain64 o w => some ⟨.y, wordOf 0x05 o.g (bitsN o), some (syncBits w)⟩
  | .step64 o w => some ⟨.y, wordOf 0x06 o.g (bitsStep o), some (syncBits w)⟩
  | .aadd64 o => some ⟨.y, wordOf 0x08 o.g (bitsAtom64 o), some (extAtom64 o)⟩
  | .aand64 o => some ⟨.y, wordOf 0x09 o.g (bitsAtom64 o), some (extAtom64 o)⟩
  | .aor64 o => some ⟨.y, wordOf 0x0A o.g (bitsAtom64 o), some (extAtom64 o)⟩
  | .axor64 o => some ⟨.y, wordOf 0x0B o.g (bitsAtom64 o), some (extAtom64 o)⟩
  | .amin64 o => some ⟨.y, wordOf 0x0C o.g (bitsAtom64 o), some (extAtom64 o)⟩
  | .amax64 o => some ⟨.y, wordOf 0x0D o.g (bitsAtom64 o), some (extAtom64 o)⟩
  | .aswp64 o => some ⟨.y, wordOf 0x0E o.g (bitsAtom64 o), some (extAtom64 o)⟩
  | .acas o => some ⟨.y, wordOf 0x0F o.g (bitsAtom64 o), some (extAtom64 o)⟩
  | .chsend64 o w => some ⟨.y, wordOf 0x10 o.g (bitsCh o), some (syncBits w)⟩
  | .chrecv64 o w => some ⟨.y, wordOf 0x11 o.g (bitsCh o), some (syncBits w)⟩
  | .chstart64 o w => some ⟨.y, wordOf 0x12 o.g (bitsCh o), some (syncBits w)⟩
  | .chabort64 o w => some ⟨.y, wordOf 0x13 o.g (bitsCh o), some (syncBits w)⟩
  | .qtailWrite | .residencyQuantumBoundary | .dispatch | .launchPlacement | .launchSemaphoreWrite
  | .launchCompletion | .clusterPowerGate | .issueCounterYield | .eventTaken | .noticeTaken | .stashFillArrival
  | .watchdog | .timeGateFire | .prectlGo | .preemptLimitExpiry | .matrixQueueStart | .mmaCompletion
  | .mbldCompletion | .mzstCompletion | .mzldCompletion | .mtrnCompletion | .mbflyCompletion | .mtwidCompletion
  | .mfmtCompletion | .mdrainStart | .mzrdCompletion | .mzwrCompletion | .mzeroCompletion | .mcfgClear
  | .streamCommandStart | .streamElementFault | .streamRetire | .qsetCompletion | .gcfgLoadEnd | .grunCompletion
  | .gstopBoundary | .fabricInvocationStart | .fabricInvocationEnd | .packetArrival | .flowRowSend | .rowLanding
  | .landingAcknowledgement | .lossAcknowledgement | .parkedRowRetry | .flowRowLost | .creditTokenArrival
  | .channelCommandStart | .chrecvCompletion | .ringInstanceStart | .ringPacketArrival | .ringInstanceCompletion
  | .remoteTimeout | .abortTokenArrival | .ringCommit | .ringCommitReread | .linkTimeout | .linkPacketArrival
  | .linkTraining | .stepBarrierOpen | .drainStart | .semaddApply | .atomicResponse | .draftldCompletion
  | .tlbiCompletion | .evacCompletion | .retireAccepted | .stashCommandCompletion | .copyCompletion
  | .qsaveCompletion | .opreqGo | .operatingPointStepEnd | .thermalThrottle | .thermalRecovery | .thermalReset
  | .moduleReset | .reconfigurationRequest | .getDigests | .getCertificate | .challenge | .getMeasurements
  | .keyExchange | .finish | .keyload | .keyclear | .rowSparing | .shadowLatchReplay | .hostWrite | .hostRead
  | .tdiError | .crctlWrite | .flogstWrite | .fqstatWrite | .ststatWrite | .lpstatWrite | .notstatWrite
  | .silcntWrite | .fetchFault | .bundleWithPmZero | .writeBackPerformed | .launchAppend | .qrestCompletion
  | .streamDataArrival | .storeStreamElementPerformed | .tdispRequest => none

/-- The bytes of a list of words as memory holds them, little endian (00 R3). -/
def wordsBytes : List Word32 → List Byte
  | [] => []
  | w :: ws => w.extractLsb' 0 8 :: w.extractLsb' 8 8 :: w.extractLsb' 16 8 :: w.extractLsb' 24 8 :: wordsBytes ws

/-- The word of four bytes, the first the least significant. -/
def wordOfBytes (b0 b1 b2 b3 : Byte) : Word32 := b3 ++ b2 ++ b1 ++ b0

/-- The words of a list of bytes. -/
def bytesWords : List Byte → List Word32
  | b0 :: b1 :: b2 :: b3 :: bs => wordOfBytes b0 b1 b2 b3 :: bytesWords bs
  | _ => []

/-- The header of a bundle with one operation. -/
def soloHeader (s : SlotWord) : Header :=
  ⟨BitVec.ofNat 7 (2 ^ s.slot.index), if s.x.isSome then BitVec.ofNat 7 (2 ^ s.slot.index) else 0, 0⟩

/-- The words of a bundle with one operation. -/
def soloWords (s : SlotWord) : List Word32 :=
  headerBits (soloHeader s) :: s.w :: (match s.x with | none => [] | some e => [e])

/-- The operations of a bundle held as bytes from its header on; none where the header is bad (03 R48, R49). -/
def decodeBytes (bs : List Byte) : Option (Header × List SlotWord) :=
  match bytesWords bs with
  | [] => none
  | w :: ws => (decodeHeader w).map fun h => (h, slotWords h Slot.all ws)

/-- Whether a slot accepts a word. -/
def accepts (s : SlotWord) : Bool :=
  match s.decode with
  | .ok _ => true
  | .error _ => false

/-- Which slot a word of the opcode table is taken in. The slot is no part of the word, so it is the first in slot order in which the
word, in its 32-bit form, decodes; then the first in which its 64-bit form decodes, the extension word being the bits above 31. -/
def tableSlot (nbits w : Nat) : Option SlotWord :=
  let lo := BitVec.ofNat 32 w
  let hi := BitVec.ofNat 32 (w / 2 ^ 32)
  let short := Slot.all.map fun s => (⟨s, lo, none⟩ : SlotWord)
  let long := Slot.all.map fun s => (⟨s, lo, some hi⟩ : SlotWord)
  if nbits ≤ 32 then (short ++ long).find? accepts else long.find? accepts

/-- The instruction the decoder reads from a word of the opcode table, laid out as a bundle of its own. -/
def decodeTableWord (nbits w : Nat) : Option Instr :=
  match tableSlot nbits w with
  | none => none
  | some s =>
    match decodeBytes (wordsBytes (soloWords s)) with
    | some (_, [t]) => (match t.decode with | .ok i => some i | .error _ => none)
    | _ => none

end Sys2Proof
end

