-- ==== Sys2Proof/Config.lean ====
section
/-! DEFINITION. What the spec leaves open: constants without a body, so that nothing can be proved of what they are. -/

namespace Sys2Proof.Config

/-- A latency that the spec does not bound, or the part of one below its bound; its argument is the state's counter of free values. -/
opaque latency : Nat → Nat

/-- Whether a fetch of a bundle that the instruction cache holds as before a write gives that one, by the state's counter of free values (03 R76). -/
opaque fetchesOld : Nat → Bool

/-- What a byte of a physical address at or above 768 GiB reads as: no HBM stands there (10 R246). -/
opaque offHbm : Nat → Byte

/-- The bits of a poisoned word of a sector whose check failed, by the word's physical address and the number of the key its sector is sealed under (13 R304). -/
opaque failedWord : Nat → Nat → Word32

/-- TIMEST.OFFS, the largest estimated offset between time bases in ns, by TIME (09 R233). -/
opaque timeOffs : Nat → BitVec 8

/-- The digest of some content, SHAKE256 with 64 bytes of output (13 R313). -/
opaque digest : List Nat → BitVec 512

/-- The ROM's content (13 R313). -/
opaque rom : Nat

/-- The Gradrir firmware's content, by its major version (13 R313). -/
opaque firmware : Nat → Nat

/-- The device identity key that is derived from the fused unique secret (13 R313). -/
opaque deviceKey : Nat → Nat

/-- The layer-1 key that is derived from a layer-0 secret and the firmware's measurement (13 R313). -/
opaque layerOneKey : Nat → BitVec 512 → Nat

/-- The partition key that is derived from the layer-1 secret, the partition's number and the digest of its map entry (13 R313). -/
opaque partKey : Nat → Nat → BitVec 512 → Nat

/-- The cryptographic content of an answer of the Gradrir core, by the request and by what it answers for (13 R314). -/
opaque spdmBody : Nat → List Nat → Nat

/-- What the Gradrir core's DRBG draws, by the number of the draw (13 R306, R314). -/
opaque drbg : Nat → BitVec 768

/-- The set of a cache slice in which a line lies, by its line number (10 R246). -/
opaque setOf : Nat → Nat

/-- Which line a placement in the common ways displaces, by the counter of free values (10 R247). -/
opaque victim : Nat → Nat

/-- The HBM bank and the row of the bank in which a sector lies, by its number (12 R302). -/
opaque bankOf : Nat → Nat
opaque rowOf : Nat → Nat

/-- Whether the verify data of a FINISH is right (13 R314). -/
opaque finishOk : Nat → Nat → Bool

/-- The digest of a launch image, by its words (13 R315). -/
opaque imageDigest : List Word32 → BitVec 512

/-- Which of the tiles on the outer edges of its die a link port attaches to (09 R230, 01 R11), modulo their number. -/
opaque portRouter : Nat → Nat

/-- The COREID of the router at whose local port the replies of a fabric slice enter (08 R181), modulo 512. -/
opaque sliceRouter : Nat → Nat

end Sys2Proof.Config
end

