-- ==== Sys2Proof/Machine/State.lean ====
section
/-! DEFINITION. The state of the module as plain data: everything the spec gives it, and the few fields of the model's own
(the agenda, the bundle being issued, the counters), each marked so. -/

namespace Sys2Proof.Machine

/-- Why the machine stops with a fault. -/
inductive Fault where
  /-- Raised by the meaning of a slot operation when the core named by `State.cur` has no issuing context. The spec has no such
  step: a slot operation is always part of a bundle that a context issues (02 R40). Safe: no step of the machine reaches it. -/
  | noIssuingContext
deriving DecidableEq, Repr

/-- Why an instruction has no meaning. -/
inductive Refusal where
  /-- Raised by an arm of exec whose instruction the model gives no meaning yet. Safe: the run stops. -/
  | notModelled (mnemonic : String)
deriving DecidableEq, Repr

/-- The value of an x, y or c register with its poison bit (03 R53, 12 R300). -/
structure RV where
  v : Word64
  p : Bool
deriving DecidableEq, Repr

/-- A predicate register with its poison bit. -/
structure PV where
  v : Word32
  p : Bool
deriving DecidableEq, Repr

/-- A v register with a poison bit for each of its 32 lanes. -/
structure VV where
  v : BitVec 1024
  p : Word32
deriving DecidableEq, Repr

/-- The register files of a context (03 R53). A register not listed holds zero without poison. -/
structure Regs where
  x : Tab RV
  y : Tab RV
  c : Tab RV
  v : Tab VV
  pk : Tab PV
  pi : Tab PV
  pv : Tab PV
deriving DecidableEq, Repr

/-- The names of registers, for the scoreboard and the clash rule (03 R56, R59). -/
inductive RegName where
  | x (n : Nat) | y (n : Nat) | c (n : Nat) | v (n : Nat) | pk (n : Nat) | pi (n : Nat) | pv (n : Nat)
deriving DecidableEq, Repr

/-- The states of a context (02 R40). -/
inductive CtxState where | empty | ready | issuing | blocked
deriving DecidableEq, Repr

/-- A wait that a blocked bundle has armed (12 R290): the slot it stands in, the semaphore, the threshold; whether it is an engine command's. -/
structure Armed where
  slot : Slot
  sem : Nat
  thr : Nat
  engine : Bool
deriving DecidableEq, Repr

/-- An open delay window (03 R61): `left` delay bundles are still to issue, 2 or 1. -/
structure Window where
  left : Nat
  tkn : Bool
  tgt : VAddr
  call : Bool
deriving DecidableEq, Repr

/-- An open level of the loop nest (03 R70): `seen` holds the body's fetched bundles issued so far, by their addresses, each with the words that the
loop buffer holds of it; none where it holds them no longer. -/
structure LoopLevel where
  start : VAddr
  size4 : Nat
  rem : Nat
  seen : List (VAddr × List Word32)
deriving DecidableEq, Repr

/-- A record of the watch table (03 R73). `y`: the destination is a y register. -/
structure Watch where
  y : Bool
  d : Nat
  addr : Nat
  n : Nat
deriving DecidableEq, Repr

/-- A reported stream fault that waits to be taken (07 R174): field [55:52], the cause, the address, and the command
that ERET resumes. -/
structure SFault where
  reg : Nat
  cause : Nat
  addr : Nat
  /-- what stands stopped: 0 stream, 1 a command of the stream queue, 2 the grid loader, 3 nothing to resume, 4 a CHSEND -/
  kind : Nat
  cmd : Nat
deriving DecidableEq, Repr

/-- The pending events of a context (12 R286). -/
structure Pending where
  preempt : Option Word64
  watchdog : Option Nat
  faults : List SFault
  semOvf : List Word64
deriving DecidableEq, Repr

/-- A translation that succeeded: the physical address, and what the leaf says of the page. -/
structure Leaf where
  pa : Nat
  cc : Nat
  ed : Nat
  psn : Bool
  /-- the offset bits of the page -/
  sz : Nat
deriving DecidableEq, Repr

/-- What an atomic computes. -/
inductive AtomFn where | add | and | or | xor | min | max | swp | cas
deriving DecidableEq, Repr

/-- An atomic with its operands decoded. -/
structure AtomOp where
  fn : AtomFn
  g : Guard
  d : Reg5
  a : Reg5
  b : Reg5
  c : Reg5
  fs : Bool
  ord : BitVec 2
  w : Bool
  uns : Bool
  off : Word64
deriving DecidableEq, Repr

/-- An atomic as its bundle has read it: its address and translation, the values of its B and C registers, and whether its guard is poisoned. -/
structure ReadyAtomic where
  op : AtomOp
  at' : Nat
  leaf : Leaf
  b : RV
  cmp : RV
  gp : Bool
deriving DecidableEq, Repr

/-- An atomic that has performed and whose old value is on its way back (15 R333). -/
structure AtomicFlight where
  y : Bool
  d : Nat
  old : RV
  acquire : Bool
deriving DecidableEq, Repr

/-- How far a DRAFTLD has come: it waits or reads; its result; a good Draft, which is to take the place of the old one; the cause and TRAPINFO of a read
that faulted. -/
inductive DraftEnd where
  | going
  | result (r : Nat)
  | load
  | fault (cause : Nat) (info : Word64)
deriving DecidableEq, Repr

/-- What holds a context in place across cycles: an instruction that the spec lets end later (12 R286, 18 R479). -/
inductive Hold where
  | none
  | tlbi (all : Bool) (reach : Nat) (addr : VAddr) (seq : Nat)
  | evac (d : Nat) (t scope : Nat) (seq : Nat) (gp : Bool)
  /-- its bundle stands in place and has performed nothing. `bad`: the length is poisoned; `due`: when the combine groups are judged, in eighteenths of a
  nanosecond, none once they have been; the words of the Draft read so far -/
  | draftld (seq : Nat) (addr len : Word64) (bad : Bool) (due : Option Nat) (ws : List PWord) (out : DraftEnd)
  /-- the entry's words as read, the result, the ring slot with what its translation gave; `gp`: the result is poisoned by what the guard read -/
  | launch (d : Nat) (q : RV) (e : List Word32) (r slot pa ed : Nat) (gp : Bool)
  | mcfg (mc : BitVec 2) (nc : BitVec 2) (km : BitVec 7)
  /-- the record at hand; the gathers that start after the last register's record: their records' numbers, slot words, synchronisation words, NEXT -/
  | qrest (addr : Word64) (pos : Nat) (sync : Sync) (late : List (Nat × Word32 × Sync × Nat))
  | retire
  | acquire
deriving DecidableEq, Repr

/-- Whether what holds a context has ended, so that the bundle at which it stands performs or traps. -/
def Hold.ready : Hold → Bool
  | .draftld _ _ _ _ _ _ out => out != .going
  | _ => false

/-- A release half at work (11 R271): the dirty rows that have not gone into write-back (core of the quarter, block, physical address), and the
write-backs it waits for (core of the quarter, number). -/
structure Release where
  todo : List (Nat × Nat × Nat)
  wbs : List (Nat × Nat)
deriving DecidableEq, Repr

/-- A FENCE that does not stall its context (11 R273): commands with a larger number and accesses on a path of `succ` do not
start until the commands of `cmds` have completed, then the release half, then the acquire half have. -/
structure FenceWait where
  id : Nat
  pred : BitVec 6
  succ : BitVec 6
  cmds : List Nat
  /-- the release half, once it has begun -/
  half : Option Release
  /-- the effective scopes of the halves; 0: none -/
  rel : Nat
  acq : Nat
deriving DecidableEq, Repr

/-- The special registers of a context (04 R86, 03 R64, R72, 12 R283, R290, 10 R251, 07 R157, 09 R228). -/
structure CtxRegs where
  trappc : Word64
  trapcause : Word64
  trapinfo : Word64
  brpend : Word64
  tvec : Word64
  tscratch : Word64
  loopc : Tab Word64
  loopb : Tab Word64
  tmode : Bool
  nest : Bool
  taskid : Word64
  gridsel : Word64
  fensel : Word64
  semsel : Word64
  chsel : Word64
deriving DecidableEq, Repr

/-- A context (02 R19, R40; 03). -/
structure Ctx where
  st : CtxState
  /-- the cycle at which it entered READY -/
  since : Nat
  armed : List Armed
  /-- the slots of the blocked bundle whose wait has been satisfied (12 R290) -/
  sat : List Slot
  /-- the satisfied waits of bundles that a trap or an event has set aside, by the bundle's address: nothing revokes them (12 R290) -/
  satKept : List (VAddr × List Slot)
  /-- the rows (core of the quarter, block) whose fill a blocked load awaits (03 R58) -/
  fills : List (Nat × Nat)
  regs : Regs
  pc : VAddr
  win : Option Window
  /-- innermost first -/
  loops : List LoopLevel
  /-- levels that a trap has closed: which bundles of their bodies have been issued is known again at the ERET (03 R70, R72) -/
  loopsKept : List LoopLevel
  sr : CtxRegs
  pend : Pending
  /-- oldest first -/
  watch : List Watch
  /-- the issue counter of 02 R42 -/
  counter : Nat
  /-- the cycle from which the issue counter has not counted yet -/
  mark : Nat
  /-- TIME at which the no-progress timer last started; none: it does not run (12 R291) -/
  timer : Option Nat
  /-- what holds it by the C slot, by MCFG and by QREST, which one bundle may all issue -/
  hold : Hold
  holdM : Hold
  holdQ : Hold
  /-- the release half of the stalled bundle, once it has begun (11 R271) -/
  rel : Option Release
  /-- oldest first -/
  fences : List FenceWait
  /-- the fills that the bundle at hand has waited for (core of the quarter, block), each with the cycle at which it reached the row (10 R238) -/
  filled : List (Nat × Nat × Nat)
  /-- the addresses of the loads of the bundle at hand that have missed (10 R238) -/
  missed : List Nat
  atomics : List AtomicFlight
  /-- the atomic of its last bundle, which another slot of that bundle, holding the context in place, must go before (15 R334) -/
  late : Option ReadyAtomic
  /-- pending writes of the scoreboard: a register and the cycle at which it is available (03 R56) -/
  score : List (RegName × Nat)
  /-- an earlier row of this context was lost (08 R210) -/
  lost : Bool
  /-- the cause and TIME of its kill (12 R287) -/
  killed : Option (Nat × Nat)
  /-- it has taken PREEMPT for the request in progress (12 R296) -/
  tookPreempt : Bool
  /-- its kill has been decided, by cause and TRAPINFO; it dies at its next fetched-bundle boundary (12 R301 kind 2, 19 R510) -/
  doom : Option (Nat × Word64)
  /-- a YIELD waits for its boundary (19 R555) -/
  yreq : Bool
  /-- a YIELD of a delay window that a trap has set aside: it waits for the window after the ERET (03 R67) -/
  yheld : Bool
  /-- the stream fault that the trap routine at work has been told of: its ERET resumes it (07 R174) -/
  resume : Option SFault
  /-- it issues no bundle before this cycle (06 R130, R134) -/
  holdUntil : Nat
  /-- v registers with an F-slot write in flight: the register, its value before, the cycle at which the write completes, the lanes it writes (03 R57) -/
  vold : List (Nat × VV × Nat × Word32)
  /-- pk predicates with a write in flight: the predicate, its value before, the cycle at which the write is delivered (03 R55, R57) -/
  pold : List (Nat × PV × Nat)
deriving DecidableEq, Repr

/-- A semaphore (12 R289). -/
structure Sem where
  val : BitVec 16
  ovf : Bool
  err : Bool
deriving DecidableEq, Repr

/-- A row of the stash (10 R236). `data` holds byte i of the block at bits 8i to 8i + 7. -/
structure Row where
  block : Nat
  data : BitVec 2048
  v : BitVec 256
  d : BitVec 256
  o : BitVec 64
  psn : BitVec 64
  pin : Bool
  /-- the physical address of the block, by the frame of its fill or allocation -/
  frame : Nat
  /-- the coherence class of its page, and the encryption domain it was filled under -/
  cc : Nat
  ed : Nat
  part : Nat
  /-- the offset bits of the page it was allocated under: 16 or 29 -/
  sz : Nat
deriving DecidableEq, Repr

/-- A row in write-back (10 R242): the bytes of `mask` go to physical address `pa`. -/
structure WriteBack where
  id : Nat
  pa : Nat
  data : BitVec 2048
  mask : BitVec 256
  psn : BitVec 64
  cc : Nat
  ed : Nat
  part : Nat
  /-- the cache range it carries to the home slices (10 R247) -/
  range : Option Nat
  /-- its block, and the offset bits of the page that gave its address -/
  block : Nat
  sz : Nat
deriving DecidableEq, Repr

/-- A fill that a quarter has requested (10 R239). -/
structure Fill where
  block : Nat
  pa : Nat
  ed : Nat
  part : Nat
  range : Option Nat
deriving DecidableEq, Repr

/-- The stash quarter of a core. Rows are keyed by their number, 0 to 8191. -/
structure Stash where
  rows : Tab (Option Row)
  limpt : Nat
  fulls : BitVec 16
  fills : List Fill
  wbs : List WriteBack
  nextWb : Nat
deriving DecidableEq, Repr

/-- An entry of a TLB (10 R261). `size`: 16 or 29, the page's offset bits. -/
structure TlbEntry where
  part : Nat
  vpn : Nat
  size : Nat
  pte : Word64
  ptePa : Nat
deriving DecidableEq, Repr

/-- One row of an accumulator tile: 64 words and their poison bits (06 R119, R133). -/
structure TileRow where
  w : BitVec 2048
  p : BitVec 64
deriving DecidableEq, Repr

/-- The transform set-up that an MTWID captured (06 R139). -/
structure Twid where
  nm1 : Nat
  inv : Bool
  rad : List Nat
deriving DecidableEq, Repr

/-- An element on its way between a stream and its consumer: its bits as stored, their poison, its scale byte and the poison of that. -/
structure Elem where
  bits : Word64
  p : Bool
  scale : Byte
  sp : Bool
deriving DecidableEq, Repr

/-- A matrix operation (17 R418). -/
inductive MKind where
  | mma (zero : Bool) (z q boff : Nat)
  | mbld (q boff : Nat)
  | mzst (z q : Nat)
  | mzld (z q : Nat)
  | mtrn (zd zs : Nat)
  | mbfly (zb stg : Nat) (scl ord : Bool)
  | mtwid (t : Twid) (rseq : Word64)
  | mfmt (at' bt : EType) (sc : Bool)
  | mdrain
  | mzrd (v : Nat) (h : Bool) (ft : FType) (row : TileRow)
  | mzwr (z row : Nat) (h : Bool) (ft : FType) (u : VV)
  | mzero (z : Nat)
deriving DecidableEq, Repr

/-- A matrix operation that has been issued and is not complete (06 R126, R127). -/
structure MOp where
  id : Nat
  kind : MKind
  ctx : Nat
  sync : Sync
  /-- the slot word with its guard fields zero, for a save record (12 R295) -/
  word : Word32
  issue : Nat
  start : Option Nat
  m : Nat
  n : Nat
  k : Nat
  at' : EType
  bt : EType
  sc : Bool
  /-- elements taken from the stream so far, newest first -/
  taken : List Elem
  /-- steps of the array done (06 R121) -/
  step : Nat
  /-- cycles the operation waited for elements (06 R129) -/
  waited : Nat
  rowsRead : Nat
  /-- rows written; of an MBLD, bytes of its operand -/
  rowsWritten : Nat
  /-- rows read and computed, not yet written -/
  acc : List TileRow
  /-- elements taken from, or handed to, its streams -/
  given : Nat
  /-- the twiddle set-up in force at the issue of an MBFLY -/
  twid : Option Twid
  /-- the tile words an MBFLY or MTRN read at its start -/
  src : List TileRow
  /-- the B operand as the last step of an MMA read it: a list of elements for each column -/
  bcap : List (List Elem)
  /-- rows or points that the residue check has condemned (06 R135) -/
  bad : List Nat
  /-- its last effect has happened, and it is signalled -/
  fin : Bool
  /-- the stream that took an MZST's last element, and how many elements that stream had received then -/
  lastStrm : Nat × Nat
  /-- issued under a poisoned guard: what it writes is poisoned (12 R300) -/
  psn : Bool
deriving DecidableEq, Repr

/-- The matrix engine of a core (06 R119). Tile row r of tile z has key 64 z + r; word j of slice n of the B store has key 16384 n + j. -/
structure Matrix where
  tiles : Tab TileRow
  b : Tab PWord
  cfg : Word64
  fmt : Word64
  bfc : Word64
  rseq : Word64
  err : Word64
  /-- the set-up of the last MTWID that has completed -/
  twidDone : Option Twid
  /-- radix codes of stages 10 to 15, not shown by MXBFC -/
  hirad : BitVec 18
  /-- the configuration in force at issue (17 R417) -/
  cfgIssued : Word64
  fmtIssued : Word64
  twidIssued : Option Twid
  queue : List MOp
  run : List MOp
  port : List MOp
  /-- the owner's preceding matrix-slot operation was an MDRAIN (06 R131) -/
  drained : Bool
  /-- every effect of cycles before this one has happened -/
  clock : Nat
deriving DecidableEq, Repr

/-- A stream descriptor as read (07 R164). -/
structure Desc where
  base : Word64
  count : List Nat
  stride : List Int
  et : EType
  cc : BitVec 3
  sc : Bool
  home : Bool
  ix : Bool
  iq : Nat
  idim : Nat
  sbase : Word64
  srow : Nat
  on : Nat
  off : Nat
  /-- a word that forms addresses was poisoned (18 R481) -/
  psn : Bool
deriving DecidableEq, Repr

/-- A started stream (07 R169 to R176). -/
structure Strm where
  id : Nat
  store : Bool
  ctx : Nat
  sync : Sync
  word : Word32
  total : Nat
  /-- elements delivered (load) or performed (store) -/
  done : Nat
  /-- elements taken by the consumer (load) or received from the producer (store) -/
  taken : Nat
  /-- delivered and not taken, or received and not performed; oldest first -/
  buf : List Elem
  /-- the IDX values held, oldest first, with the number of index elements taken (07 R176) -/
  idx : List Int
  idxTaken : Nat
  /-- the scale byte of a block, with its poison, and which block that is: of a load, the number of its first element plus 1; of a store, counted from 1 -/
  scl : Byte
  sclPsn : Bool
  sclBlk : Nat
  /-- it is on path M (11 R264) -/
  pathM : Bool
  cancelled : Bool
  faulted : Bool
  stopped : Bool
  /-- a pre-emption has stopped it: it goes on only for an operation that has started (12 R293) -/
  frozen : Bool
  /-- its QST or QSCAT was issued under a poisoned guard: what it stores is poisoned (12 R300) -/
  psn : Bool
deriving DecidableEq, Repr

/-- A stream register (07 R163, R168). -/
structure SReg where
  /-- 0 FREE, 1 SET, 2 ACTIVE, 3 FAULTED, 4 BAD -/
  st : Nat
  owner : Nat
  alloc : Bool
  desc : Option Desc
  descAddr : Word64
  fcause : Byte
  strm : Option Strm
deriving DecidableEq, Repr

/-- The operations of the stream command queue with their captured operands (18 R462). -/
inductive QKind where
  | qset (q : Nat) (addr : Word64)
  | strm (q : Nat) (store ix : Bool)
  | qcopy (d s n : Word64)
  | qccopy (d s v : Word64)
  | qrcopy (s n h : Word64)
  | gcfg (addr : Word64) (ii : Nat) (lut : Bool)
  | grun (bind : Word64) (turns : Nat) (keep : Bool)
  | qsave (addr : Word64)
  /-- 0 SPIN, 1 SUNPIN, 2 SWB, 3 SINV -/
  | stash (op : Nat) (addr len : Word64)
deriving DecidableEq, Repr

/-- A command of the stream command queue. -/
structure QCmd where
  id : Nat
  ctx : Nat
  kind : QKind
  sync : Sync
  word : Word32
  started : Bool
  /-- rows, records or bytes done -/
  prog : Nat
  faulted : Bool
  /-- a QREST restored it: a stream starts at this element (12 R297) -/
  next : Nat
  /-- write-backs awaited -/
  wbs : List Nat
  /-- issued under a poisoned guard: what it writes is poisoned (12 R300) -/
  psn : Bool
deriving DecidableEq, Repr

/-- An operation in flight in a grid element (07 R148): it is readable from advancing cycle `due`. -/
structure Flight where
  el : Nat
  /-- the result's place: the code of its unit's first trigger; 0x0B the flag -/
  code : Nat
  due : Nat
  val : PWord
deriving DecidableEq, Repr

/-- A grid run (07 R160 to R162). -/
structure GRun where
  bind : Word64
  turns : Nat
  /-- cycles of this run done -/
  cyc : Nat
  /-- TURN at the start of the run -/
  base : Nat
  ctx : Nat
  sync : Sync
  stopping : Bool
  stopSync : List (Nat × Sync)
  /-- ports 0 to 3 GIN, 4 and 5 GOUT: the port has taken or received its last element -/
  done : List Nat
  /-- the cycle of the machine at which it may next advance -/
  nextAt : Nat
  /-- the number of its command -/
  id : Nat
  /-- its GRUN stood under a poisoned guard: what it writes is poisoned (12 R300) -/
  psn : Bool
deriving DecidableEq, Repr

/-- The loader of a grid at work (07 R159): its command and context, the images' address, whether the LUT image follows, the words read so far. -/
structure GLoad where
  id : Nat
  ctx : Nat
  addr : Word64
  lut : Bool
  iim1 : Nat
  words : List PWord
  /-- its fault has been reported and not been resumed -/
  faulted : Bool
deriving DecidableEq, Repr

/-- The grid of a core or of a fabric slice. Word state of element e has key 64 e + port code: registers, operand latches (0x20, 0x28, 0x29, 0x30),
the last value received on a link, and results and the accumulator under the code of their unit's first trigger (0x21, 0x2A, 0x31, 0x38, 0x3C).
Flags have key e; LUT entry j has key 256 e + j; move words have key 32 e + 2 b + s. -/
structure Grid where
  /-- 0 UNCONFIGURED, 1 LOADING, 2 IDLE, 3 RUNNING, 4 STOPPING -/
  st : Nat
  held : Bool
  cfgerr : Bool
  eelem : Nat
  ebun : Nat
  eslot : Nat
  iim1 : Nat
  turns : Word32
  img : Tab PWord
  imgAddr : Word64
  lut : Tab PWord
  els : Tab PWord
  flags : Tab PV
  flight : List Flight
  /-- advancing cycles since the run's state began -/
  clock : Nat
  run : Option GRun
  heldRun : Option GRun
  load : Option GLoad
deriving DecidableEq, Repr

/-- A command of the channel command queue (09 R215, R216). -/
inductive YKind where
  | chsend (ch : Nat) | chrecv (ch : Nat) | chstart (ch : Nat) | chabort (ch : Nat)
  | semadd (sem : Nat) (imm : Nat) | drain | step (launch : Bool)
deriving DecidableEq, Repr

/-- A channel command with its issuing context; `started`: it waits for its completion. -/
structure YCmd where
  id : Nat
  ctx : Nat
  kind : YKind
  sync : Sync
  word : Word32
  started : Bool
  /-- a STEP has arrived; the row of a CHSEND has been sent -/
  arrived : Bool
  /-- the release half of a STEP, once it has begun (11 R280) -/
  rel : Option Release
  /-- a CHRECV whose credit was sent before it was restored (12 R297) -/
  crsent : Bool
  /-- the source read of a CHSEND has faulted -/
  faulted : Bool
  /-- issued under a poisoned guard: the row of a CHSEND is poisoned (12 R300) -/
  psn : Bool
  /-- a pre-emption holds it: a CHRECV that has not completed, a STEP that has not signalled (12 R293) -/
  held : Bool
  /-- of a STEP that has arrived: the number that the next row to be sent had then (09 R235) -/
  mark : Nat
deriving DecidableEq, Repr

/-- A ring instance at this member (09 R220). -/
structure RingRun where
  id : Nat
  inst : Nat
  ctx : Nat
  sync : Sync
  /-- it has made its reservation and is past Load -/
  started : Bool
  since : Nat
  n : Nat
  pos : Nat
  len : Nat
  /-- the buffer as words: its own values, then partials and results -/
  data : Tab PWord
  /-- Load is over -/
  loaded : Bool
  /-- the last step whose rows have all been received -/
  step : Nat
  /-- during Load, the blocks read; then the rows received of the current step -/
  got : Nat
  early : List Packet
  /-- the write-back has begun: its blocks are rows of this instance; one of them was lost -/
  writing : Bool
  wbLost : Bool
deriving DecidableEq, Repr

/-- A channel of a core: its table entry and its counters (09 R213, R217, R222). -/
structure Chan where
  /-- the 32-byte entry, little endian -/
  entry : BitVec 256
  sent : Nat
  cred : Nat
  next : Nat
  map : BitVec 256
  lostMap : BitVec 256
  /-- ring: I, and the state 1 IDLE, 2 ACTIVE, 3 ACTIVE with pending, 4 RESETTING -/
  inst : Nat
  rst : Nat
  run : Option RingRun
  pend : Option YCmd
  resetSince : Nat
  /-- tokens forwarded since the last commit -/
  fwd : List Token
deriving DecidableEq, Repr

/-- A time gate (09 R234): armed with a time, a semaphore and an increment, by a context. -/
structure Gate where
  t : Word64
  sem : Nat
  inc : Nat
  ctx : Nat
  stopped : Bool
deriving DecidableEq, Repr

/-- A command set aside by the freeze of a pre-emption, in issue order (12 R293). -/
inductive Frozen where
  | m (op : MOp) (abandoned : Bool)
  | q (cmd : QCmd)
  | y (cmd : YCmd)
deriving DecidableEq, Repr

/-- A core (01 R11, R12) while its cluster has power. -/
structure Core where
  id : Nat
  launch : Option Nat
  ctxs : Tab (Option Ctx)
  /-- the issuing context (02 R40) -/
  issuing : Option Nat
  /-- the first cycle at which the core may issue or switch again -/
  freeAt : Nat
  /-- the core is frozen before this cycle (10 R255) -/
  frozenTo : Nat
  /-- the blocks of the rows that move while it is frozen (10 R255) -/
  moving : List Nat
  lpos : Word64
  mxown : Option Nat
  /-- the cycles from which the dividers of I0 and I1 are free (16 R382) -/
  div0 : Nat
  div1 : Nat
  stashneed : Nat
  sems : Tab Sem
  chans : Tab (Option Chan)
  mx : Matrix
  sregs : Tab (Option SReg)
  qcmds : List QCmd
  ycmds : List YCmd
  nextCmd : Nat
  grid : Grid
  gates : Tab (Option Gate)
  stash : Stash
  tlb : List TlbEntry
  frozen : List Frozen
  silcnt : Word64
  /-- the instruction cache: the bundles it holds, by the physical address of their headers, newest first (03 R76) -/
  icache : List (Nat × List Word32)
  /-- addresses of the grid images of the running launch (07 R157), and GRIDCNT -/
  gridVa : Tab Word64
  gridCnt : Nat
deriving DecidableEq, Repr

/-- A contribution held or folded in a combine group (08 R189, R191). -/
structure Contribution where
  rank : Nat
  src : Nat
  seqNo : Nat
  pkt : Packet
deriving DecidableEq, Repr

/-- A round of a combine group: its FLOW and SEQ, the ranks taken, the partial and what is held. -/
structure Round where
  flow : Nat
  seq : Nat
  ecm1 : Nat
  wide : Bool
  /-- ranks taken in this round -/
  ranks : List Nat
  /-- the next rank to fold, and the partial as FP32 words -/
  next : Nat
  acc : List PWord
  held : List Contribution
  /-- rows the folded contributions carry -/
  rows : List Nat
deriving DecidableEq, Repr

/-- A parked row (08 R206): its packet, its endpoint and the TIME at which it was parked. -/
structure Parked where
  pkt : Packet
  ep : Nat
  since : Nat
  /-- the TIME of its next retry by the 64 µs (08 R207) -/
  next : Nat
  /-- the cycle at which a retry goes on that waits for its row -/
  again : Option Nat
deriving DecidableEq, Repr

/-- A router with the fault queue of its tile (08 R186, R204, R211). -/
structure Router where
  part : Option Nat
  entries : List (BitVec 128)
  eps : Tab (BitVec 128)
  rounds : List Round
  arrivals : Nat
  /-- newest first, at most eight -/
  flog : List Word64
  flogOvf : Bool
  drops : BitVec 16
  /-- a FLOW_MISS of this router waits to be taken (08 R205) -/
  missed : Bool
  fq : List Parked
  lost : BitVec 16
  limit : BitVec 16
  /-- packets that wait: under their input port for a slot, under 16 + EPX for the fault queue; oldest first (08 R190, R208) -/
  waiting : List (Nat × Packet)
  /-- until when an output is taken: ports 0 to 4; 5 the transit of packets with XT = 1; 16 + flow the folds of a group (08 R212) -/
  busy : Tab Nat
deriving DecidableEq, Repr

/-- The state that the row of a flow send keeps until it has ended (08 R199): who sent it, its semaphore, and how many copies are on their way. -/
structure SendRow where
  core : Nat
  ctx : Nat
  launch : Nat
  sync : Sync
  copies : Nat
  /-- its data carries poison (12 R301 kind 2) -/
  psn : Bool
  /-- the command it belongs to -/
  cmd : Nat
  /-- the Draft leads it to the host port or to a link port (11 R271) -/
  ext : Bool
  /-- a copy of it has been lost: it has ended, though other copies are on their way (08 R187, R199) -/
  lost : Bool
deriving DecidableEq, Repr

/-- A cluster (01 R12, 02 R20, R38). -/
structure Cluster where
  launch : Option Nat
  gated : Bool
  /-- TIME since which it has been free -/
  freeSince : Nat
  tlb : List TlbEntry
  /-- LIMPT of its four quarters while it is gated; a powered quarter holds its own -/
  limpts : List Nat
deriving DecidableEq, Repr

/-- A stream of a fabric invocation (07 R178): its descriptor, the elements taken or received, the IDX and the scale byte at hand, the elements
of a group that is not complete. -/
structure FStrm where
  desc : Desc
  pos : Nat
  idx : Int
  idxTaken : Nat
  scl : Byte
  sclPsn : Bool
  buf : List Elem
deriving DecidableEq, Repr

/-- A fabric invocation that runs (07 R179, R180): its record as received, the streams by descriptor number. -/
structure FRun where
  pkt : Packet
  strms : Tab (Option FStrm)
deriving DecidableEq, Repr

/-- A line of a cache slice (10 R246, 11 R270, 13 R304, R306): its number (physical address / 128), its way, the partition and the domain of its fill; its 32
words with their poison and registered owners (0 none, 1 + COREID, 513 + CLUSTERID); by sector, whether it is to be written to HBM. -/
structure Line where
  no : Nat
  way : Nat
  part : Nat
  ed : Nat
  ws : List PWord
  own : List Nat
  dirty : BitVec 2
deriving DecidableEq, Repr

/-- A cache slice with its fabric slice (10 R246, R252, 07 R178). -/
structure Slice where
  limpt : Nat
  /-- the lines it holds, the most recently used first -/
  lines : List Line
  /-- access counters: key 16 * partition + range -/
  counters : Tab Nat
  /-- the reserved ways: 1 + 16 * partition + range by way, 0 for a common one (10 R247) -/
  resv : Tab Nat
  grid : Grid
  /-- invocation records that wait, oldest first, with the partition and the row of the flow -/
  waiting : List Packet
  run : Option FRun
deriving DecidableEq, Repr

/-- A packet a link port has accepted (09 R231): since when it waits for the peer's acknowledgement. -/
structure LinkPacket where
  pkt : Packet
  since : Nat
  launch : Option Nat
  /-- the link has taken it: its checks and retransmission bring it to the peer exactly once (09 R229) -/
  given : Bool
deriving DecidableEq, Repr

/-- A link port (09 R229). -/
structure Port where
  up : Bool
  lanes : BitVec 4
  tsync : Bool
  stale : BitVec 16
  retrain : BitVec 16
  bpart : BitVec 3
  sent : List LinkPacket
  /-- ring packets of instances that have not started here, with the port they came in at (09 R223) -/
  early : List (Nat × Packet)
  /-- ring packets that came in here and wait for a credit of the sequencer they go to, oldest first (09 R221) -/
  blocked : List Packet
  /-- the number of the key its flits are encrypted under; flits in a row that failed authentication (13 R312) -/
  key : Nat
  authFails : Nat
  /-- it has trained since bring-up, and RETRAIN is to count its next training -/
  again : Bool
deriving DecidableEq, Repr

/-- A notice (12 R288). -/
structure Notice where
  cause : Nat
  info : Word64
deriving DecidableEq, Repr

/-- A launch semaphore (02 R35). -/
structure LSem where
  val : BitVec 16
  err : Bool
  ovf : Bool
deriving DecidableEq, Repr

/-- A key domain (13 R306): its key material and the launch-image digest it is restricted to. -/
structure KeyDomain where
  /-- which key it is: 2n for the n-th that was drawn, 2m + 1 for one loaded with key material m -/
  serial : Nat
  material : BitVec 768
  digest : BitVec 512
deriving DecidableEq, Repr

/-- A queue as the scheduler sees it (02 R31, R32, R571). -/
structure Queue where
  bound : Bool
  /-- TIME at which it was bound -/
  since : Nat
  age : Nat
  faulted : Bool
  /-- the read fault (cause, TRAPINFO) of which the notice has been sent, until the reads succeed -/
  noticed : Option (Nat × Word64)
  /-- its tail has been written: the scheduler looks at it -/
  known : Bool
deriving DecidableEq, Repr

/-- A launch entry (02 R30). -/
structure Entry where
  limg : Word64
  arg : Word64
  crec : Word64
  wsem : BitVec 8
  wthr : BitVec 16
  ssem : BitVec 8
  sinc : BitVec 8
  deperr : Bool
  irq : Bool
  vec : BitVec 12
  bad : Bool
deriving DecidableEq, Repr

/-- The record of a committed ring (09 R219). -/
structure Ring where
  nm1 : Nat
  pos : Nat
  dport : Nat
  uport : Nat
deriving DecidableEq, Repr

/-- A flow entry or an endpoint descriptor. -/
abbrev Rec128 := BitVec 128

/-- A Draft record: the logical core index of its router (four times the clusters of the launch where LX or LY lies outside), whether it is an endpoint
descriptor, EPX, BODY. -/
structure DraftRec where
  at' : Nat
  ep : Bool
  epx : Nat
  body : Rec128
deriving DecidableEq, Repr

/-- What a valid launch image says of a core: its task offsets, MXOWN, STASHNEED, its channel table. -/
structure CoreRec where
  tasks : List Nat
  mxown : Option Nat
  need : Nat
  chans : List (BitVec 256)
deriving DecidableEq, Repr

/-- A valid launch image. -/
structure Image where
  cw : Nat
  ch : Nat
  dieLocal : Bool
  draft : List DraftRec
  cores : List CoreRec
  grids : List Nat
  /-- its digest, by its header, Draft, core table and grid table (DESIGN CHOICE, log entry 14: 13 R315 does not say what it covers) -/
  digest : BitVec 512
deriving DecidableEq, Repr

/-- A partition (13 R308 to R311): its map entry, its special registers and what the scheduler keeps for it. -/
structure Part where
  entry : MapEntry
  ptbase : Word64
  qtbase : Word64
  schedcfg : Word64
  ptvec : Word64
  wdcfg : Word64
  ringbase : Word64
  rngcfg : Word64
  commits : BitVec 16
  badRings : BitVec 16
  rings : Tab (Option Ring)
  prectlCluster : BitVec 7
  prectlBusy : Bool
  prectlRej : Bool
  notices : List Notice
  ndrop : BitVec 16
  crbase : Tab Word64
  crctl : Tab Word64
  crrej : BitVec 16
  seccnt : Byte
  fenced : Bool
  tdist : BitVec 2
  keys : Tab (Option KeyDomain)
  lsems : Tab LSem
  qtails : Tab Word32
  queues : Tab Queue
  /-- bound and waiting queues, in order -/
  boundQ : List Nat
  waitQ : List Nat
  /-- the dispatched entry that waits for placement, and its LSEQ -/
  selected : Option (Entry × Nat × Image)
  dispatched : Nat
deriving DecidableEq, Repr

/-- A running launch (02 R45). -/
structure Launch where
  part : Nat
  entry : Entry
  ox : Nat
  oy : Nat
  cw : Nat
  ch : Nat
  lseq : Nat
  tstart : Nat
  /-- kills: TIME, COREID, CTXID, cause -/
  kills : List (Nat × Nat × Nat × Nat)
  remote : Bool
  aborted : Bool
  /-- its tasks have started (02 R37 step 7) -/
  started : Bool
  /-- TIME at which its pre-emption was accepted -/
  preempt : Option Nat
  /-- its image, as it was validated (02 R37 step 1) -/
  image : Image
deriving DecidableEq, Repr

/-- An SPDM session (13 R314): its partition (none: the management function) and whether FINISH has completed it. -/
structure Session where
  id : Nat
  part : Option Nat
  /-- the map entry that the partition key it was opened with was derived from (13 R313) -/
  entry : Option MapEntry
  live : Bool
  /-- the link port over which it runs, none for PF0 (13 R314, R318) -/
  link : Option Nat
  /-- the launch image that its key messages have bound to it, as a digest; 0: none (13 R313, R315) -/
  image : BitVec 512
deriving DecidableEq, Repr

/-- The answer to a host read (13 R317). -/
inductive HostAnswer where
  | data (bytes : List Byte)
  /-- Unsupported Request -/
  | unsupported
  /-- completer abort: a poisoned word -/
  | abort
deriving DecidableEq, Repr

/-- What the module gives to the outside, newest last. -/
inductive Output where
  /-- a row that landed at the host port (13 R317) -/
  | hostRow (part : Nat) (addr : Nat) (data : List (Nat × Byte))
  /-- an MSI-X vector of a partition's function (02 R45) -/
  | irq (part : Nat) (vec : Nat)
  /-- the answer to a host read -/
  | hostData (part : Nat) (a : HostAnswer)
  /-- a posted host write reported as an Unsupported Request -/
  | hostError (part : Nat)
  /-- a packet given to the peer of a link port -/
  | link (port : Nat) (p : Packet)
  | token (port : Nat) (t : Token)
  /-- an answer of the Gradrir core: the request's number, the link port it goes to (none: the management function), and the cryptographic value -/
  | spdm (req : Nat) (link : Option Nat) (body : Nat)
  /-- the outcome of a reconfiguration request, a key message or a TDISP request -/
  | mgmt (ok : Bool)
  /-- bring-up stopped with BOOTERR (14 R326) -/
  | booterr (n : Nat)
deriving DecidableEq, Repr

/-- How a bundle stands while its slots execute. -/
inductive BundleStatus where
  /-- its slots perform -/
  | normal
  /-- a precise trap was taken or the context was killed precisely: nothing of the bundle performed -/
  | trapped
  /-- it blocked; the context has switched out -/
  | blocked
  /-- it stalls in place -/
  | stalled
  /-- the task has ended (HALT) -/
  | ended
  /-- ERET performed: the program counter is set -/
  | eret
  /-- TRAP: the trap is taken after the bundle -/
  | trap (info : Word64)
  /-- YIELD: the context switches out after the bundle -/
  | yields
deriving DecidableEq, Repr

/-- The bundle being issued (the model's own): its address, length and ER, the values of the registers before it (03 R59), and how it stands. -/
structure Bundle where
  pc : VAddr
  len : Nat
  er : Nat
  old : Regs
  /-- the registers as the M slot, which is not interlocked, reads its guard in (03 R55, R57) -/
  oldM : Regs
  /-- the delay window before it (03 R61) -/
  win : Option Window
  /-- the loop nest before it -/
  loops : List LoopLevel
  /-- its header and the words after it -/
  raw : List Word32
  /-- its slots have been judged in the state before it, and perform now -/
  performs : Bool
  status : BundleStatus
  /-- the number of the first command that its slots can issue: those before it are earlier ones (11 R265) -/
  cmd0 : Nat
deriving DecidableEq, Repr

/-- The spare rows of an HBM bank (12 R302): those in use and those marked bad, of 8. -/
structure HbmBank where
  used : BitVec 8
  bad : BitVec 8
deriving DecidableEq, Repr

/-- The copy of an HBM row to a spare (12 R302): a sector of the row that names it in notices, its bank and row, the spare, the sectors copied. -/
structure Sparing where
  sec : Nat
  bank : Nat
  row : Nat
  spare : Nat
  sector : Nat
deriving DecidableEq, Repr

/-- The module's own registers and units (01 R17, 04 R88, 12 R302, 14). -/
structure Module where
  fuses : Fuses
  pt : Nat
  opTgt : Nat
  /-- the point that a step in progress goes to -/
  opTo : Nat
  opStep : Bool
  opRej : Bool
  opWhy : Nat
  rspThr : Byte
  spared : BitVec 16
  restart : BitVec 16
  retired : BitVec 16
  /-- spare rows by bank; corrected errors of the patrol pass by bank and row; the copy in progress, and the rows that wait for theirs by a sector -/
  banks : Tab HbmBank
  rowErrs : List (Nat × Nat × Nat)
  sparing : Option Sparing
  toSpare : List Nat
  /-- the rows, by bank and row, for which no good spare remained: they keep serving -/
  kept : List (Nat × Nat)
  throttled : Bool
  cmode : Bool
  /-- the partition map in force, as it was requested (13 R308) -/
  map : PartMap
  locked : Bool
  sessions : List Session
  nextSession : Nat
  nextKey : Nat
  /-- held in reset by a failed bring-up: BOOTERR -/
  booterr : Nat
deriving DecidableEq, Repr

/-- The module. -/
structure State where
  /-- cycles of the main clock since module reset (00 R4) -/
  cycle : Nat
  /-- TIME in eighteenths of a nanosecond (09 R233) -/
  time18 : Nat
  /-- MODEL'S OWN: the COREID of the core whose bundle executes -/
  cur : Nat
  /-- MODEL'S OWN: the bundle that executes -/
  bun : Bundle
  /-- MODEL'S OWN: the events to come with the cycle each is due at, earliest first -/
  agenda : List (Nat × Event)
  /-- MODEL'S OWN: the event that happens -/
  ev : Event
  /-- MODEL'S OWN: the counter of free values -/
  free : Nat
  module : Module
  parts : Tab (Option Part)
  cores : Tab (Option Core)
  clusters : Tab (Option Cluster)
  routers : Tab (Option Router)
  slices : Tab (Option Slice)
  ports : Tab (Option Port)
  launches : Tab (Option Launch)
  nextLaunch : Nat
  /-- rows of flow sends that have not ended, and the number of the next -/
  rows : Tab (Option SendRow)
  nextRow : Nat
  /-- HBM by physical address, an unlisted byte reads 0 (14 R326 step 5) -/
  mem : List Host.Cell
  /-- PMASK of HBM by word, physical address / 4 (13 R303) -/
  memPsn : Tab Bool
  /-- OWN of HBM by sector, physical address / 64 (13 R303): 0 none, 1 + COREID, 513 + CLUSTERID -/
  owner : Tab Nat
  /-- the key under which a sector was written, by sector, physical address / 64 (13 R303, R307): 0 the key its channel region was filled under,
  n + 1 the key with number n -/
  sealed : Tab Nat
  /-- the number of the key under which a channel region was filled with zero sectors (13 R310) -/
  regionKey : Tab Nat
  /-- errors that stand in HBM sectors, by physical address / 64: what the next read of one meets (13 R304) -/
  errs : Tab SectorCheck
  out : List Output
deriving DecidableEq, Repr

/-- Registers all zero, no poison (02 R39). -/
def Regs.zero : Regs := ⟨[], [], [], [], [], [], []⟩

/-- No event pending. -/
def Pending.none : Pending := ⟨.none, .none, [], []⟩

/-- The special registers of a context at their reset values; TVEC as given (12 R283). -/
def CtxRegs.fresh (tvec : Word64) : CtxRegs :=
  ⟨0, 0, 0, 0, tvec, 0, [], [], false, false, 0, 0, 0, 0, 0⟩

/-- A context without a task. -/
def Ctx.empty : Ctx where
  st := .empty
  since := 0
  armed := []
  sat := []
  satKept := []
  fills := []
  regs := Regs.zero
  pc := 0
  win := none
  loops := []
  loopsKept := []
  sr := CtxRegs.fresh 0
  pend := Pending.none
  watch := []
  counter := 0
  mark := 0
  timer := none
  hold := .none
  holdM := .none
  holdQ := .none
  rel := none
  fences := []
  filled := []
  missed := []
  atomics := []
  late := none
  score := []
  lost := false
  killed := none
  tookPreempt := false
  doom := none
  yreq := false
  yheld := false
  resume := none
  holdUntil := 0
  vold := []
  pold := []

/-- A stash quarter without a row, at a limit point (02 R39, 10 R252). -/
def Stash.empty (limpt : Nat) : Stash := ⟨[], limpt, 0, [], [], 0⟩

/-- The matrix engine at launch start (06 R119): MXCFG reads MC = NC = 3, MXFMT the BF16 pair, MXBFC NM1 = 1. -/
def Matrix.fresh : Matrix where
  tiles := []
  b := []
  cfg := 0xF
  fmt := 0x99
  bfc := 1
  rseq := 0
  err := 0
  hirad := 0
  cfgIssued := 0xF
  fmtIssued := 0x99
  twidIssued := none
  twidDone := none
  queue := []
  run := []
  port := []
  drained := false
  clock := 0

/-- A grid at launch start: UNCONFIGURED (07 R155). -/
def Grid.fresh : Grid where
  st := 0
  held := false
  cfgerr := false
  eelem := 0
  ebun := 0
  eslot := 0
  iim1 := 0
  turns := 0
  img := []
  imgAddr := 0
  lut := []
  els := []
  flags := []
  flight := []
  clock := 0
  run := none
  heldRun := none
  load := none

/-- The four contexts of a core, EMPTY. -/
def Core.noTasks : Tab (Option Ctx) := [(0, some .empty), (1, some .empty), (2, some .empty), (3, some .empty)]

/-- A core whose cluster has just been given power (02 R37, R38). -/
def Core.fresh (id limpt : Nat) : Core where
  id := id
  launch := none
  ctxs := Core.noTasks
  issuing := none
  freeAt := 0
  frozenTo := 0
  moving := []
  lpos := 0
  mxown := none
  div0 := 0
  div1 := 0
  stashneed := 0
  sems := []
  chans := []
  mx := Matrix.fresh
  sregs := []
  qcmds := []
  ycmds := []
  nextCmd := 0
  grid := Grid.fresh
  gates := []
  stash := Stash.empty limpt
  tlb := []
  frozen := []
  silcnt := 0
  icache := []
  gridVa := []
  gridCnt := 0

/-- The fuses and the configuration store of a full part: compute dies of stepping B1, base dies of stepping A2, firmware version 3 (00 R1, 04 R88); every
cluster, HBM channel and link port enabled (01 R17), no tile failing (02 R27), every row and way usable at every point. DESIGN CHOICE 5. -/
def Fuses.full : Fuses where
  uds := 0
  cdstep := 0x11
  hbstep := 0x02
  gfwmaj := 3
  cld0 := 64
  cld1 := 64
  hcd0 := 192
  hcd1 := 192
  lpen := 0x3FFFF
  skip := (List.range 32).map fun r => (r, 16)
  fenRows := []
  fenWays := []
  firmwareOk := true
  fenSigned := true

/-- The module's own registers after bring-up (14 R319 to R326). -/
def Module.fresh (f : Fuses) : Module where
  fuses := f
  pt := 0
  opTgt := 0
  opTo := 0
  opStep := false
  opRej := false
  opWhy := 0
  rspThr := 4
  spared := 0
  restart := 0
  retired := 0
  banks := []
  rowErrs := []
  sparing := none
  toSpare := []
  kept := []
  throttled := false
  cmode := false
  map := ⟨0, []⟩
  locked := true
  sessions := []
  nextSession := 0
  nextKey := 1
  booterr := 0

/-- No bundle. -/
def Bundle.none : Bundle := ⟨0, 0, 0, Regs.zero, Regs.zero, .none, [], [], false, .normal, 0⟩

/-- A router after reset: no Draft (08 R186). -/
def Router.fresh : Router where
  part := none
  entries := []
  eps := []
  rounds := []
  arrivals := 0
  flog := []
  flogOvf := false
  drops := 0
  missed := false
  fq := []
  lost := 0
  limit := 50
  waiting := []
  busy := []

/-- A cluster after reset: it belongs to no partition and is gated (14 R326 step 7). -/
def Cluster.fresh : Cluster := ⟨none, true, 0, [], [0, 0, 0, 0]⟩

/-- A cache slice after bring-up: every LIMPT is 0 (14 R326 step 4). -/
def Slice.fresh : Slice := ⟨0, [], [], [], Grid.fresh, [], none⟩

/-- A link port after reset, before it trains (14 R326 step 8). -/
def Port.fresh : Port := ⟨false, 0, false, 0, 0, 0, [], [], [], 0, 0, false⟩

/-- A partition with its special registers at their reset values and domain 0 keyed (13 R306). -/
def Part.fresh (e : MapEntry) : Part where
  entry := e
  ptbase := 0
  qtbase := 0
  schedcfg := 0x144
  ptvec := 0
  wdcfg := 0x6400FA
  ringbase := 0
  rngcfg := 0x640032
  commits := 0
  badRings := 0xFFFF
  rings := []
  prectlCluster := 0
  prectlBusy := false
  prectlRej := false
  notices := []
  ndrop := 0
  crbase := []
  crctl := []
  crrej := 0
  seccnt := 0
  fenced := false
  tdist := 0
  keys := [(0, some ⟨0, Config.drbg 0, 0⟩)]
  lsems := []
  qtails := []
  queues := []
  boundQ := []
  waitQ := []
  selected := none
  dispatched := 0

/-- The module after reset and bring-up (14 R326): TIME 0, operating point OP0, no partition, every cluster gated, HBM filled with
zero sectors. -/
def State.resetWith (f : Fuses) : State where
  cycle := 0
  time18 := 0
  cur := 0
  bun := Bundle.none
  agenda := []
  ev := .thermalRecovery
  free := 0
  module := Module.fresh f
  parts := []
  cores := []
  clusters := (List.range 128).map fun c => (c, some Cluster.fresh)
  routers := (List.range 512).map fun r => (r, some Router.fresh)
  slices := (List.range 192).map fun r => (r, some Slice.fresh)
  ports := (List.range 18).map fun r => (r, some Port.fresh)
  launches := []
  nextLaunch := 0
  rows := []
  nextRow := 0
  mem := []
  memPsn := []
  owner := []
  sealed := []
  regionKey := []
  errs := []
  out := []

/-- The machine right after reset, on a full part. -/
def State.reset : State := State.resetWith Fuses.full

/-- The canonical form of memory: addresses strictly rising, no entry that is what an unlisted address reads as. -/
def Memory.wf (m : List Host.Cell) : Bool := Tab.wf (0 : Byte) m

end Sys2Proof.Machine
end

