-- ==== Sys2Proof/Machine/Ops.lean ====
section
/-! DEFINITION. The named operations on the state: time and the agenda, cores and contexts, registers, semaphores, notices, taking a
trap, returning from one, killing a context, switching. -/

namespace Sys2Proof.Machine

/-! ## Bits -/

/-- Bits `lo` to `lo + len - 1` of a word as a number. -/
def bitsOf {w : Nat} (v : BitVec w) (lo len : Nat) : Nat := v.toNat / 2 ^ lo % 2 ^ len

/-- A word with bits `lo` to `lo + len - 1` replaced by the low bits of `x`. -/
def setBits {w : Nat} (v : BitVec w) (lo len x : Nat) : BitVec w :=
  (v &&& ~~~(BitVec.ofNat w (2 ^ len - 1) <<< lo)) ||| (BitVec.ofNat w (x % 2 ^ len) <<< lo)

/-- A Bool as a number. -/
def bitN (b : Bool) : Nat := if b then 1 else 0

/-- A saturating 16-bit count. -/
def satInc16 (v : BitVec 16) (n : Nat) : BitVec 16 := BitVec.ofNat 16 (min 65535 (v.toNat + n))

/-! ## Time and the agenda -/

/-- Eighteenths of a nanosecond per cycle at an operating point (14 R319 Table 1). -/
def pointRate (pt : Nat) : Nat :=
  match pt with
  | 0 => 12
  | 1 => 12
  | 2 => 15
  | 3 => 20
  | _ => 30

/-- Eighteenths of a nanosecond per cycle now; twice as many while cores and routers issue on alternate cycles (14 R324). -/
def State.rate (s : State) : Nat := pointRate s.module.pt * (if s.module.throttled then 2 else 1)

/-- TIME.TICKS: nanoseconds since module reset (09 R233). -/
def State.ticks (s : State) : Nat := s.time18 / 18

/-- The state at a later cycle; TIME runs along. -/
def State.advance (s : State) (t : Nat) : State :=
  if t ≤ s.cycle then s else { s with cycle := t, time18 := s.time18 + (t - s.cycle) * s.rate }

/-- The cycles that a number of nanoseconds takes at the point in force, rounded up. -/
def State.cyclesOf (s : State) (ns : Nat) : Nat := (ns * 18 + s.rate - 1) / s.rate

/-- The agenda with an event in its place: after every event due at the same cycle or earlier. -/
def addEvent (due : Nat) (e : Event) : List (Nat × Event) → List (Nat × Event)
  | [] => [(due, e)]
  | (d, x) :: l => if due < d then (due, e) :: (d, x) :: l else (d, x) :: addEvent due e l

/-- An event to come after `delay` cycles. -/
def State.post (s : State) (delay : Nat) (e : Event) : State :=
  { s with agenda := addEvent (s.cycle + delay) e s.agenda }

/-- An event to come after at least `bound` cycles: the rest is a free value (10 R238, 11 R268). -/
def State.postOpen (s : State) (bound : Nat) (e : Event) : State :=
  { s with agenda := addEvent (s.cycle + bound + Config.latency s.free) e s.agenda, free := s.free + 1 }

/-- An event to come after `delay` cycles, where it is not to come in that cycle anyway. -/
def State.postOnce (s : State) (delay : Nat) (e : Event) : State :=
  if s.agenda.any fun a => a.1 == s.cycle + delay && a.2 == e then s else s.post delay e

/-- Something the module gives to the outside. -/
def State.emit (s : State) (o : Output) : State := { s with out := s.out ++ [o] }

/-! ## Parts of the machine -/

/-- The core with a COREID, while it has power. -/
def State.core? (s : State) (c : Nat) : Option Core := Tab.get none s.cores c
/-- The state with a core replaced. -/
def State.setCore (s : State) (c : Nat) (k : Core) : State := { s with cores := Tab.set none s.cores c (some k) }
/-- The state with a core changed, where there is one. -/
def State.updCore (s : State) (c : Nat) (f : Core → Core) : State :=
  match s.core? c with
  | none => s
  | some k => s.setCore c (f k)
/-- The context of a core with a CTXID. -/
def Core.ctx? (k : Core) (n : Nat) : Option Ctx := Tab.get none k.ctxs n
/-- The core with a context replaced. -/
def Core.setCtx (k : Core) (n : Nat) (x : Ctx) : Core := { k with ctxs := Tab.set none k.ctxs n (some x) }
/-- A context of a core. -/
def State.ctx? (s : State) (c n : Nat) : Option Ctx := (s.core? c).bind fun k => k.ctx? n
/-- The state with a context changed, where there is one. -/
def State.updCtx (s : State) (c n : Nat) (f : Ctx → Ctx) : State :=
  s.updCore c fun k =>
    match k.ctx? n with
    | none => k
    | some x => k.setCtx n (f x)
/-- The partition with a number. -/
def State.part? (s : State) (p : Nat) : Option Part := Tab.get none s.parts p
/-- The state with a partition changed, where there is one. -/
def State.updPart (s : State) (p : Nat) (f : Part → Part) : State :=
  match s.part? p with
  | none => s
  | some q => { s with parts := Tab.set none s.parts p (some (f q)) }
/-- A running launch. -/
def State.launch? (s : State) (l : Nat) : Option Launch := Tab.get none s.launches l
/-- The state with a launch changed, where there is one. -/
def State.updLaunch (s : State) (l : Nat) (f : Launch → Launch) : State :=
  match s.launch? l with
  | none => s
  | some q => { s with launches := Tab.set none s.launches l (some (f q)) }
/-- A cluster of the module. -/
def State.cluster? (s : State) (c : Nat) : Option Cluster := Tab.get none s.clusters c
/-- The state with a cluster changed, where there is one. -/
def State.updCluster (s : State) (c : Nat) (f : Cluster → Cluster) : State :=
  match s.cluster? c with
  | none => s
  | some q => { s with clusters := Tab.set none s.clusters c (some (f q)) }
/-- The router of a tile. -/
def State.router? (s : State) (r : Nat) : Option Router := Tab.get none s.routers r
/-- The state with a router changed, where there is one. -/
def State.updRouter (s : State) (r : Nat) (f : Router → Router) : State :=
  match s.router? r with
  | none => s
  | some q => { s with routers := Tab.set none s.routers r (some (f q)) }
/-- A cache slice with its fabric slice. -/
def State.slice? (s : State) (n : Nat) : Option Slice := Tab.get none s.slices n
/-- The state with a slice changed, where there is one. -/
def State.updSlice (s : State) (n : Nat) (f : Slice → Slice) : State :=
  match s.slice? n with
  | none => s
  | some q => { s with slices := Tab.set none s.slices n (some (f q)) }
/-- A link port. -/
def State.port? (s : State) (n : Nat) : Option Port := Tab.get none s.ports n
/-- The state with a port changed, where there is one. -/
def State.updPort (s : State) (n : Nat) (f : Port → Port) : State :=
  match s.port? n with
  | none => s
  | some q => { s with ports := Tab.set none s.ports n (some (f q)) }

/-- CLUSTERID of a core: d × 64 + (row ÷ 2) × 8 + col ÷ 2 (01 R12). -/
def clusterOf (c : Nat) : Nat := c / 256 * 64 + c / 16 % 16 / 2 * 8 + c % 16 / 2
/-- The tile index of a core in its cluster (02 R24). -/
def tileOf (c : Nat) : Nat := c / 16 % 2 * 2 + c % 2
/-- The core with a tile index in a cluster. -/
def coreAt (cl t : Nat) : Nat := cl / 64 * 256 + (cl / 8 % 8 * 2 + t / 2) * 16 + cl % 8 * 2 + t % 2

/-- The partition whose map entry holds a cluster (13 R308). -/
def State.partOfCluster (s : State) (cl : Nat) : Option Nat :=
  (s.parts.find? fun kv =>
    match kv.2 with
    | none => false
    | some p => p.entry.en && p.entry.clmask.getLsbD cl).map (·.1)
/-- The partition of a core; 8 where no partition has it. -/
def State.partOf (s : State) (c : Nat) : Nat := (s.partOfCluster (clusterOf c)).getD 8

/-- The context that issues on the core whose bundle executes: its COREID, its core, its CTXID and itself. -/
def State.issuer (s : State) : Option (Core × Nat × Ctx) :=
  match s.core? s.cur with
  | none => none
  | some k =>
    match k.issuing with
    | none => none
    | some n => (k.ctx? n).map fun x => (k, n, x)

/-- The state with the issuing context changed. -/
def State.updIssuer (s : State) (f : Ctx → Ctx) : State :=
  match s.issuer with
  | none => s
  | some (_, n, _) => s.updCtx s.cur n f

/-- The meaning of a slot operation: it acts for the context that issues. -/
def slotOp (s : State) (f : Core → Nat → Ctx → State) : Host.Outcome State Fault Refusal :=
  match s.issuer with
  | none => .fault .noIssuingContext
  | some (k, n, x) => .next (f k n x)

/-! ## Registers (03 R53, R54) -/

/-- A zero without poison. -/
def RV.zero : RV := ⟨0, false⟩
/-- All predicate bits set: what pk0, pi0 and pv0 read as. -/
def PV.ones : PV := ⟨0xFFFFFFFF, false⟩

/-- x register; x0 reads as zero. -/
def Regs.getX (r : Regs) (n : Nat) : RV := if n = 0 then RV.zero else Tab.get RV.zero r.x n
/-- y register; y0 reads as zero. -/
def Regs.getY (r : Regs) (n : Nat) : RV := if n = 0 then RV.zero else Tab.get RV.zero r.y n
/-- c register; c0 reads as zero. -/
def Regs.getC (r : Regs) (n : Nat) : RV := if n = 0 then RV.zero else Tab.get RV.zero r.c n
/-- v register. -/
def Regs.getV (r : Regs) (n : Nat) : VV := Tab.get ⟨0, 0⟩ r.v n
/-- pk predicate; pk0 reads as all ones. -/
def Regs.getPk (r : Regs) (n : Nat) : PV := if n = 0 then PV.ones else Tab.get ⟨0, false⟩ r.pk n
/-- pi predicate; pi0 reads as all ones. -/
def Regs.getPi (r : Regs) (n : Nat) : PV := if n = 0 then PV.ones else Tab.get ⟨0, false⟩ r.pi n
/-- pv predicate; pv0 reads as all ones. -/
def Regs.getPv (r : Regs) (n : Nat) : PV := if n = 0 then PV.ones else Tab.get ⟨0, false⟩ r.pv n

/-- A write of an x register with its poison; to x0 it is discarded. -/
def Regs.setX (r : Regs) (n : Nat) (v : RV) : Regs := if n = 0 then r else { r with x := Tab.set RV.zero r.x n v }
/-- A write of a y register; to y0 it is discarded. -/
def Regs.setY (r : Regs) (n : Nat) (v : RV) : Regs := if n = 0 then r else { r with y := Tab.set RV.zero r.y n v }
/-- A write of a c register; to c0 it is discarded. -/
def Regs.setC (r : Regs) (n : Nat) (v : RV) : Regs := if n = 0 then r else { r with c := Tab.set RV.zero r.c n v }
/-- A write of a v register. -/
def Regs.setV (r : Regs) (n : Nat) (v : VV) : Regs := { r with v := Tab.set ⟨0, 0⟩ r.v n v }
/-- A write of a pk predicate; to pk0 it is discarded. -/
def Regs.setPk (r : Regs) (n : Nat) (v : PV) : Regs := if n = 0 then r else { r with pk := Tab.set ⟨0, false⟩ r.pk n v }
/-- A write of a pi predicate; to pi0 it is discarded. -/
def Regs.setPi (r : Regs) (n : Nat) (v : PV) : Regs := if n = 0 then r else { r with pi := Tab.set ⟨0, false⟩ r.pi n v }
/-- A write of a pv predicate; to pv0 it is discarded. -/
def Regs.setPv (r : Regs) (n : Nat) (v : PV) : Regs := if n = 0 then r else { r with pv := Tab.set ⟨0, false⟩ r.pv n v }

/-- The x or the y file, as an FS bit chooses (04 R82). -/
def Regs.getXY (r : Regs) (y : Bool) (n : Nat) : RV := if y then r.getY n else r.getX n
/-- A write to the x or the y file. -/
def Regs.setXY (r : Regs) (y : Bool) (n : Nat) (v : RV) : Regs := if y then r.setY n v else r.setX n v
/-- The predicate of a bank. -/
def Regs.getP (r : Regs) (b : Bank) (n : Nat) : PV :=
  match b with
  | .pk => r.getPk n
  | .pi => r.getPi n
  | .pv => r.getPv n
/-- A write to a predicate of a bank. -/
def Regs.setP (r : Regs) (b : Bank) (n : Nat) (v : PV) : Regs :=
  match b with
  | .pk => r.setPk n v
  | .pi => r.setPi n v
  | .pv => r.setPv n v

/-- The name of an x or y register. -/
def xyName (y : Bool) (n : Nat) : RegName := if y then .y n else .x n
/-- The name of a predicate. -/
def bankName (b : Bank) (n : Nat) : RegName :=
  match b with
  | .pk => .pk n
  | .pi => .pi n
  | .pv => .pv n

/-- The scoreboard with a result that is available after `lat` cycles (03 R56). A later write of the register replaces the entry. -/
def scoreAdd (sc : List (RegName × Nat)) (now : Nat) (r : RegName) (lat : Nat) : List (RegName × Nat) :=
  (sc.filter fun e => e.1 ≠ r && now < e.2) ++ [(r, now + lat)]

/-- The watch table without the record of a register (03 R73). -/
def dropWatch (w : List Watch) (y : Bool) (d : Nat) : List Watch := w.filter fun e => !(e.y == y && e.d == d)

/-- The context after a write to an x or y register at cycle `now`, available after `lat` cycles. -/
def Ctx.putXY (x : Ctx) (now : Nat) (y : Bool) (d : Nat) (v : RV) (lat : Nat) : Ctx :=
  { x with regs := x.regs.setXY y d v, watch := dropWatch x.watch y d, score := scoreAdd x.score now (xyName y d) lat }
/-- The context after a write to a c register. -/
def Ctx.putC (x : Ctx) (now : Nat) (d : Nat) (v : RV) (lat : Nat) : Ctx :=
  { x with regs := x.regs.setC d v, score := scoreAdd x.score now (.c d) lat }
/-- Some lanes of a v register from one value, the others from another. -/
def VV.merge (lanes : Word32) (a b : VV) : VV :=
  let bits : BitVec 1024 := (List.range 32).foldl (fun m i => if lanes.getLsbD i then m ||| (0xFFFFFFFF#1024 <<< (32 * i)) else m) 0
  ⟨(a.v &&& bits) ||| (b.v &&& ~~~bits), (a.p &&& lanes) ||| (b.p &&& ~~~lanes)⟩

/-- The context after an F-slot write to lanes of a v register: what it held before is kept while the write is in flight (03 R57). -/
def Ctx.putV (x : Ctx) (now : Nat) (d : Nat) (v : VV) (lat : Nat) (lanes : Word32) : Ctx :=
  { x with
    regs := x.regs.setV d v
    score := scoreAdd x.score now (.v d) lat
    vold := (x.vold.filter fun e => decide (now < e.2.2.1) && e.1 ≠ d) ++ [(d, x.regs.getV d, now + lat, lanes)] }
/-- A v register as it stands at a cycle: an F-slot write that has not completed is not seen (03 R57, 17 R458). -/
def Ctx.vNow (x : Ctx) (now d : Nat) : VV :=
  match x.vold.find? fun e => e.1 = d && decide (now < e.2.2.1) with
  | some e => e.2.1
  | none => x.regs.getV d
/-- A matrix write to a v register: an F-slot write that completes later still comes after it in the lanes it writes, one that completes in the
same cycle does not (03 R57). -/
def Ctx.matrixV (x : Ctx) (now d : Nat) (v : VV) : Ctx :=
  match x.vold.find? fun e => e.1 = d && decide (now < e.2.2.1) with
  | some f =>
    { x with
      regs := x.regs.setV d (VV.merge f.2.2.2 (x.regs.getV d) v)
      vold := x.vold.map fun e => if e.1 = d then (d, v, e.2.2) else e }
  | none => { x with regs := x.regs.setV d v }
/-- The context after a write to a predicate: what a pk predicate held before is kept while a write of more than a cycle is in flight (03 R55). -/
def Ctx.putP (x : Ctx) (now : Nat) (b : Bank) (d : Nat) (v : PV) (lat : Nat) : Ctx :=
  { x with
    regs := x.regs.setP b d v
    score := scoreAdd x.score now (bankName b d) lat
    pold := if b = .pk && decide (1 < lat) then (x.pold.filter fun e => decide (now < e.2.2) && e.1 ≠ d) ++ [(d, x.regs.getPk d, now + lat)] else x.pold }
/-- The registers as the M slot reads its guard in: a pk predicate whose write has not been delivered has its old value (03 R55, R57). -/
def Ctx.regsM (x : Ctx) (now : Nat) : Regs := x.pold.foldl (fun r e => if now < e.2.2 then r.setPk e.1 e.2.1 else r) x.regs

/-! ## Contexts -/

/-- A context with pending events of its own (TSTAT.HELD, 12 R283). -/
def Pending.any (p : Pending) : Bool := p.preempt.isSome || p.watchdog.isSome || !p.faults.isEmpty || !p.semOvf.isEmpty

/-- A BLOCKED context becomes READY (02 R40). -/
def Ctx.ready (x : Ctx) (now : Nat) : Ctx := if x.st = .blocked then { x with st := .ready, since := now } else x

/-- A BLOCKED context whose waits and fills have all arrived becomes READY. -/
def Ctx.release (x : Ctx) (now : Nat) : Ctx :=
  if x.armed.isEmpty && x.fills.isEmpty then x.ready now else x

/-- A context that has got a pending event: a BLOCKED one becomes READY to take it, where it may take it (12 R286, 03 R67). -/
def Ctx.wake (x : Ctx) (now : Nat) : Ctx :=
  if x.pend.any && !x.sr.tmode && x.win.isNone then x.ready now else x

/-- Whether an instruction holds a context across cycles. -/
def Ctx.held (x : Ctx) : Bool := x.hold != .none || x.holdM != .none || x.holdQ != .none

/-- The contexts of a core that hold a task. -/
def Core.tasks (k : Core) : List Nat := (List.range 4).filter fun n =>
  match k.ctx? n with
  | none => false
  | some x => x.st ≠ .empty

/-- Whether a context of a core is the control context of a partition and holds a task (13 R311). -/
def State.isControl (s : State) (c n : Nat) : Bool :=
  match s.part? (s.partOf c), s.ctx? c n with
  | some p, some x => decide (p.entry.ctlcore.toNat = c) && decide (p.entry.ctlctx.toNat = n) && decide (x.st ≠ .empty)
  | _, _ => false

/-- Privileged code (12 R282). -/
def State.privileged (s : State) (c n : Nat) : Bool :=
  (match s.ctx? c n with
    | none => false
    | some x => x.sr.tmode) || s.isControl c n

/-- A BLOCKED control context becomes READY to take a notice, where it may take it (12 R286, R288). -/
def State.wakeControl (s : State) (p : Nat) : State :=
  match s.part? p with
  | none => s
  | some q =>
    s.updCtx q.entry.ctlcore.toNat q.entry.ctlctx.toNat fun x => if !x.sr.tmode && x.win.isNone then x.ready s.cycle else x

/-- A notice to the control context of a partition; a full queue drops and counts it (12 R288). -/
def State.notice (s : State) (p cause : Nat) (info : Word64) : State :=
  (s.updPart p fun q =>
    if q.notices.length < 32 then { q with notices := q.notices ++ [⟨cause, info⟩] } else { q with ndrop := satInc16 q.ndrop 1 }).wakeControl p

/-- The no-progress timer starts where it does not run; WATCHDOG is looked at when WDLIM has passed (12 R291). -/
def State.startTimer (s : State) (c n : Nat) : State :=
  match s.ctx? c n, s.part? (s.partOf c) with
  | some x, some p =>
    let lim := bitsOf p.wdcfg 0 16
    if x.timer.isSome then s
    else
      let s := s.updCtx c n fun x => { x with timer := some s.ticks }
      let due := s.cycle + s.cyclesOf (lim * 1000000)
      -- an earlier look finds that the limit has not passed and comes again
      if lim = 0 || s.agenda.any fun a => a.1 ≤ due && a.2 == .watchdog c n then s else s.post (due - s.cycle) (.watchdog c n)
  | some _, none => s.updCtx c n fun x => { x with timer := some s.ticks }
  | none, _ => s

/-- The cycle from which another context of a core has been READY; none: no other is. -/
def Core.othersReady (k : Core) (n : Nat) : Option Nat :=
  (List.range 4).foldl (fun best m =>
    match k.ctx? m with
    | none => best
    | some x => if m = n || x.st ≠ .ready then best else some (match best with | none => x.since | some t => min t x.since)) none

/-- The issue counter of the context that holds issue is brought up to this cycle (02 R42). -/
def State.countIssue (s : State) (c n : Nat) : State :=
  match (s.core? c).bind fun k => k.othersReady n with
  | none => s.updCtx c n fun x => { x with mark := s.cycle }
  | some t => s.updCtx c n fun x => { x with counter := x.counter + (s.cycle - max x.mark t), mark := s.cycle }

/-- A context gives up issue in a state: this cycle is the switch cycle (02 R41). Where it was READY, and another holds issue, the cycles until now count in
that one's issue counter (02 R42). -/
def State.switchOut (s : State) (c n : Nat) (st : CtxState) : State :=
  let s := match (s.core? c).bind (·.issuing) with
    | none => s
    | some m => if m = n then s else s.countIssue c m
  (s.updCtx c n fun x => { x with st := st, since := s.cycle, counter := 0 }).updCore c fun k =>
    if k.issuing = some n then { k with issuing := none, freeAt := max k.freeAt (s.cycle + 1) } else k

/-! ## Semaphores (12 R289, R290) -/

/-- A semaphore of a core. -/
def Core.sem (k : Core) (n : Nat) : Sem := Tab.get ⟨0, false, false⟩ k.sems n
/-- A core with a semaphore replaced. -/
def Core.setSem (k : Core) (n : Nat) (v : Sem) : Core := { k with sems := Tab.set ⟨0, false, false⟩ k.sems n v }

/-- A wait is met when ERR = 1 or VALUE has reached the threshold. -/
def Sem.met (m : Sem) (thr : Nat) : Bool := m.err || decide (thr ≤ m.val.toNat)

/-- A signal of `n`: the value saturates, and OVF is set where it did. -/
def Sem.signal (m : Sem) (n : Nat) : Sem :=
  { m with val := BitVec.ofNat 16 (min 65535 (m.val.toNat + n)), ovf := m.ovf || decide (65535 < m.val.toNat + n) }

/-- The armed waits of a context on a semaphore are tested again: those that are met are satisfied. -/
def Ctx.retest (x : Ctx) (now sem : Nat) (m : Sem) : Ctx :=
  let hit := fun (a : Armed) => a.sem = sem && m.met a.thr
  { x with armed := x.armed.filter fun a => !hit a, sat := x.sat ++ (x.armed.filter hit).map fun (a : Armed) => a.slot }.release now

/-- A context of a core changed, for each of the four. -/
def Core.mapCtxs (k : Core) (f : Nat → Ctx → Ctx) : Core :=
  { k with ctxs := k.ctxs.map fun kv => (kv.1, kv.2.map (f kv.1)) }

/-- A semaphore of a core takes a value, and every armed wait on it is tested again. -/
def State.putSem (s : State) (c n : Nat) (v : Sem) : State :=
  s.updCore c fun k =>
    (k.setSem n v).mapCtxs fun _ x => if x.armed.any fun a => a.sem = n then x.retest s.cycle n v else x

/-- A signal to a semaphore of a core, attributed to context `by'` (12 R289): where OVF becomes set, SEM_OVERFLOW is pending there. -/
def State.signal (s : State) (c n inc by' : Nat) : State :=
  match s.core? c with
  | none => s
  | some k =>
    let m := k.sem n
    let m' := m.signal inc
    let s := s.putSem c n m'
    if m'.ovf && !m.ovf then
      s.updCtx c by' fun x =>
        if x.st = .empty then x
        else { x with pend := { x.pend with semOvf := x.pend.semOvf ++ [BitVec.ofNat 64 (n + c * 256)] } }.wake s.cycle
    else s

/-- A signal with the error flag: ERR is set, VALUE stays (12 R289). -/
def State.signalErr (s : State) (c n : Nat) : State :=
  match s.core? c with
  | none => s
  | some k => s.putSem c n { k.sem n with err := true }

/-- The signal of a synchronisation word: SI = 0 signals nothing (04 R83). -/
def State.post1 (s : State) (c ctx : Nat) (w : Sync) : State :=
  if w.si = 0 then s else s.signal c w.ss.toNat w.si.toNat ctx

/-- The signal of a synchronisation word with the error flag. -/
def State.postErr (s : State) (c : Nat) (w : Sync) : State :=
  if w.si = 0 then s else s.signalErr c w.ss.toNat

/-! ## BRPEND and the loop registers (03 R64, R72) -/

/-- BRPEND of a bundle that is a delay bundle of this window. -/
def Window.brpend (w : Window) : Word64 :=
  BitVec.ofNat 64 (1 + 2 * bitN (w.left == 1) + w.tgt.toNat / 4 * 4 + 2 ^ 52 * bitN w.call + 2 ^ 63 * bitN w.tkn)

/-- BRPEND in a window or outside one. -/
def brpendOf (w : Option Window) : Word64 :=
  match w with
  | none => 0
  | some w => w.brpend

/-- The window that a saved BRPEND describes (03 R65). -/
def windowOf (b : Word64) : Option Window :=
  if b.getLsbD 0 then
    some ⟨if b.getLsbD 1 then 1 else 2, b.getLsbD 63, BitVec.ofNat 52 (bitsOf b 2 50 * 4), b.getLsbD 52⟩
  else none

/-- LOOPC of an open level. -/
def LoopLevel.loopc (l : LoopLevel) : Word64 := BitVec.ofNat 64 (l.rem % 2 ^ 32 + 2 ^ 32 * l.size4 + 2 ^ 41)
/-- LOOPB of an open level. -/
def LoopLevel.loopb (l : LoopLevel) : Word64 := BitVec.ofNat 64 (l.start.toNat / 4 * 4)

/-- The live nest in LOOPC0 to LOOPC2 or LOOPB0 to LOOPB2, innermost first; a level that is not open leaves zero. -/
def nestRegs (f : LoopLevel → Word64) (ls : List LoopLevel) : Tab Word64 :=
  (List.range 3).foldl (fun t n => Tab.set 0 t n ((ls[n]?.map f).getD 0)) []

/-- The bundles of a body that are known to have been issued, from the levels that traps have closed: the loop buffer holds them no longer. -/
def keptBody (kept : List LoopLevel) (start : VAddr) (size4 : Nat) : List (VAddr × List Word32) :=
  match kept.find? fun l => l.start = start && l.size4 = size4 with
  | none => []
  | some l => l.seen.map fun e => (e.1, [])

/-- The nest that LOOPB and LOOPC describe; ACT = 1 with SIZE4 = 0 or REM = 0 opens no level (03 R72). -/
def nestOf (sr : CtxRegs) (kept : List LoopLevel) : List LoopLevel :=
  (List.range 3).filterMap fun n =>
    let c := Tab.get 0 sr.loopc n
    let b := Tab.get 0 sr.loopb n
    let rem := bitsOf c 0 32
    let size4 := bitsOf c 32 9
    let start := BitVec.ofNat 52 (bitsOf b 2 50 * 4)
    if c.getLsbD 41 && size4 ≠ 0 && rem ≠ 0 then some ⟨start, size4, rem, keptBody kept start size4⟩ else none

/-! ## Traps (12 R284, R285) -/

/-- The address of the trap routine. -/
def CtxRegs.routine (sr : CtxRegs) : VAddr := BitVec.ofNat 52 (bitsOf sr.tvec 2 50 * 4)

/-- The context in its trap routine (12 R284): TRAPPC, TRAPCAUSE, TRAPINFO and BRPEND written, the loop nest moved into its registers,
the watch table emptied, TMODE set, NEST cleared, fetch at TVEC. The wait of an abandoned bundle is armed no longer; one that is satisfied stays so
for that bundle (12 R290). A YIELD of the open window waits for it (03 R67). -/
def Ctx.enterTrap (x : Ctx) (pc : VAddr) (cause : Nat) (async : Bool) (info brpend : Word64) : Ctx :=
  { x with
    pc := x.sr.routine
    win := none
    loops := []
    loopsKept := x.loops ++ x.loopsKept.filter fun l => !x.loops.any fun m => m.start = l.start && m.size4 = l.size4
    watch := []
    armed := []
    sat := []
    yreq := x.yreq && !brpend.getLsbD 0
    yheld := x.yheld || (x.yreq && brpend.getLsbD 0)
    satKept := (if x.sat.isEmpty then [] else [(pc, x.sat)]) ++ x.satKept.filter fun e => e.1 ≠ pc
    filled := []
    missed := []
    rel := none
    sr := { x.sr with
      trappc := pc.zeroExtend 64
      trapcause := BitVec.ofNat 64 (cause + 256 * bitN async)
      trapinfo := info
      brpend := brpend
      loopc := nestRegs LoopLevel.loopc x.loops
      loopb := nestRegs LoopLevel.loopb x.loops
      tmode := true
      nest := false } }

/-- Whether a trap enters the routine (12 R284). `sync`: it is of kind P or T. -/
def Ctx.traps (x : Ctx) (sync : Bool) : Bool := x.sr.tvec.getLsbD 0 && (!x.sr.tmode || (sync && x.sr.nest))

/-- A stream that is cancelled: from now on it delivers poisoned +0, or discards (07 R175). -/
def SReg.cancel (q : SReg) : SReg := { q with strm := q.strm.map fun t => { t with cancelled := true, faulted := false } }

/-- The streams of a context are cancelled (07 R175). -/
def State.cancelStreams (s : State) (c n : Nat) : State :=
  match s.core? c with
  | none => s
  | some k =>
    let mine := (List.range 16).filter fun q =>
      match Tab.get none k.sregs q with
      | none => false
      | some r => r.alloc && decide (r.owner = n)
    let s := s.updCore c fun k =>
      { k with sregs := mine.foldl (fun t q => Tab.set none t q ((Tab.get none t q).map SReg.cancel)) k.sregs }
    mine.foldl (fun s q => (s.post 1 (.streamDataArrival c q)).post 1 (.streamRetire c q)) s

/-- The fold of a list of indexes over the state. -/
def State.forEach {α : Type} (s : State) (l : List α) (f : State → α → State) : State := l.foldl f s

/-- The ring instances that have not started are tried again. -/
def State.wakeRings (s : State) : State :=
  s.forEach s.cores fun s kv =>
    match kv.2 with
    | none => s
    | some k => s.forEach k.chans fun s hv =>
        match hv.2.bind (·.run) with
        | none => s
        | some r => if r.started then s else s.postOnce 0 (.ringInstanceStart k.id hv.1)

/-- What held the flow operations of a launch at their start is over: they are tried again (16 R384). -/
def State.wakeFlows (s : State) (l : Nat) : State :=
  (s.forEach s.cores fun s kv =>
    match kv.2 with
    | none => s
    | some k => if k.launch = some l then (s.postOnce 1 (.streamCommandStart kv.1)).postOnce 1 (.channelCommandStart kv.1) else s).wakeRings

/-- A context is held no longer; where a DRAFTLD held it, the flow operations of its launch go on. -/
def State.endHolding (s : State) (c n : Nat) : State :=
  let held := match (s.ctx? c n).map (·.hold) with
    | some (.draftld _ _ _ _ _ _ _) => true
    | _ => false
  let s := s.updCtx c n fun x => { x with hold := .none }
  match (s.core? c).bind (·.launch) with
  | none => s
  | some l => if held then s.wakeFlows l else s

/-- A context that RETIRE holds goes on with it once nothing else of the bundle holds it (18 R489). -/
def State.retryRetire (s : State) (c n : Nat) : State :=
  match s.ctx? c n with
  | none => s
  | some x => if x.hold == .retire && x.holdM == .none && x.holdQ == .none then s.postOnce 0 (.retireAccepted c n) else s

/-- A kill (12 R287): TRAPCAUSE receives the cause, the context becomes EMPTY, its pending events are discarded, its streams are cancelled,
and the kill counts toward the launch at this TIME. -/
def State.kill (s : State) (c n cause : Nat) (info : Word64) : State :=
  match s.core? c with
  | none => s
  | some k =>
    let s := (s.switchOut c n .empty).endHolding c n
    let s := s.updCtx c n fun x =>
      { x with
        pend := Pending.none, armed := [], sat := [], fills := [], timer := none, rel := none, win := none, holdQ := .none
        killed := some (cause, s.ticks)
        sr := { x.sr with trapcause := BitVec.ofNat 64 cause, trapinfo := info, taskid := 0 } }
    let s := s.cancelStreams c n
    let s := (s.updCore c fun k =>
      { k with
        qcmds := k.qcmds.filter fun q => !(q.ctx = n && q.faulted)
        ycmds := k.ycmds.map fun y => if y.ctx = n then { y with faulted := false } else y
        grid := { k.grid with load := k.grid.load.map fun l => if l.ctx = n then { l with faulted := false } else l } }).postOnce 1
      (.streamCommandStart c)
    -- a CHSEND that stood at a fault goes on (16 R368); a STEP that waited for a copy or a QSET that goes with the context arrives (09 R235)
    let s := if (k.ycmds.any fun y => y.ctx == n && y.faulted) || k.qcmds.any (fun q => q.ctx == n && q.faulted) then s.postOnce 1 (.channelCommandStart c) else s
    let s := if (k.grid.load.map fun l => l.ctx == n && l.faulted) == some true then s.postOnce 1 (.gcfgLoadEnd c) else s
    match k.launch with
    | none => s
    | some l =>
      -- a killed context counts as arrived at a STEP (09 R235)
      (((s.updLaunch l fun q => { q with kills := q.kills ++ [(s.ticks, c, n, cause)] }).post 1 (.launchCompletion l)).postOnce 0
        (.stepBarrierOpen l (clusterOf c) false)).postOnce 0 (.stepBarrierOpen l (clusterOf c) true)

/-- The launch of a core without a task looks whether it is over (02 R45). -/
def State.tellLaunch (s : State) (c : Nat) : State :=
  match s.core? c with
  | none => s
  | some k =>
    match k.launch with
    | none => s
    | some l => if k.tasks.isEmpty then s.postOnce 1 (.launchCompletion l) else s

/-- A precise trap of the bundle that executes (12 R284 kind P, 03 R60, R65): nothing of it performs; the routine's first bundle issues no
earlier than five cycles after the attempt. A trap that does not enter kills. -/
def State.trap (s : State) (cause : Nat) (info : Word64) : State :=
  match s.issuer with
  | none => s
  | some (_, n, x) =>
    let t := { s with bun := { s.bun with status := .trapped } }.endHolding s.cur n
    if x.traps true then
      (t.updCtx s.cur n fun x => { x.enterTrap s.bun.pc cause false info (brpendOf s.bun.win) with timer := none }).updCore s.cur fun k =>
        { k with freeAt := s.cycle + 5 }
    else t.kill s.cur n cause info

/-- A POISON_KILL of kind 0 or 1 (12 R301): the bundle performs nothing and the context is killed, whatever TMODE is. -/
def State.poisonKill (s : State) (kind : Nat) (addr : Nat) : State :=
  match s.issuer with
  | none => s
  | some (_, n, _) =>
    let s := { s with bun := { s.bun with status := .trapped } }
    let s := s.updCore s.cur fun k =>
      { k with silcnt := setBits k.silcnt 16 16 (min 65535 (bitsOf k.silcnt 16 16 + 1)) }
    s.kill s.cur n 0x0B (BitVec.ofNat 64 (addr % 2 ^ 52 + kind * 2 ^ 52))

/-- An event or a notice taken by a context at a bundle boundary (12 R286, R288): TRAPPC names the bundle that would have issued next,
PEND is 0, and the routine's first bundle issues four cycles after the boundary. -/
def State.enterAsync (s : State) (c n cause : Nat) (info : Word64) : State :=
  (s.updCtx c n fun x => { x.enterTrap x.pc cause true info 0 with timer := none, fills := [] }).updCore c fun k =>
    { k with freeAt := s.cycle + 4 }

/-- The return from a trap routine (12 R285, 03 R65): the context resumes at TRAPPC, in the window BRPEND describes, with the loop nest of
LOOPB and LOOPC; TMODE and NEST are 0. The waits of the resumed bundle that had been satisfied are so still (12 R290). -/
def Ctx.eret (x : Ctx) : Ctx :=
  let pc : VAddr := BitVec.ofNat 52 (bitsOf x.sr.trappc 2 50 * 4)
  { x with
    pc := pc
    sat := ((x.satKept.find? fun e => e.1 = pc).map (·.2)).getD []
    satKept := x.satKept.filter fun e => e.1 ≠ pc
    win := windowOf x.sr.brpend
    yreq := x.yreq || x.yheld
    yheld := false
    loops := nestOf x.sr x.loopsKept
    loopsKept := []
    sr := { x.sr with tmode := false, nest := false } }

/-- The bundle that executes stalls in place for this cycle (02 R41, 03 R56, R58). -/
def State.stall (s : State) : State :=
  match s.issuer with
  | none => s
  | some (_, n, _) =>
    ({ s with bun := { s.bun with status := .stalled } }.updCore s.cur fun k => { k with freeAt := s.cycle + 1 }).startTimer s.cur n

/-- The bundle that executes blocks (03 R58): the context is BLOCKED, and this is the switch cycle. -/
def State.block (s : State) : State :=
  match s.issuer with
  | none => s
  | some (_, n, _) =>
    ({ s with bun := { s.bun with status := .blocked } }.updCtx s.cur n fun x => { x with st := .blocked }).startTimer s.cur n

/-- The bundle blocks on a semaphore wait, which it arms (12 R290). -/
def State.arm (s : State) (sl : Slot) (sem thr : Nat) (engine : Bool) : State :=
  (s.updIssuer fun x => { x with armed := x.armed ++ [⟨sl, sem, thr, engine⟩] }).block

/-- TRAPINFO of ILLEGAL_OP for a bad field: slot index, OP, [9] (04 R77). -/
def illegalInfo (sl op : Nat) (field : Bool) : Word64 := BitVec.ofNat 64 (sl + 8 * op + 512 * bitN field)

end Sys2Proof.Machine
end

