-- ==== Sys2Proof/Machine/Memory.lean ====
section
/-! DEFINITION. Memory: the home slices with keys, owners and poison (10 R246, 11 R267, R270, 13 R303 to R307), translation (10 R257 to R261),
the stash (10 R236 to R245), the halves of release and acquire (11 R271). -/

namespace Sys2Proof.Machine

/-! ## The outcome of an attempt that accesses memory -/

/-- What an attempt comes to: it goes on with a value; it traps with a cause and TRAPINFO; it waits (it blocks or stalls, as the state
says); it kills with POISON_KILL of a kind at an address. -/
inductive Try (α : Type) where
  | ok (s : State) (a : α)
  | trap (s : State) (cause : Nat) (info : Word64)
  | wait (s : State)
  | kill (s : State) (kind addr : Nat)

/-- One attempt after another. -/
def Try.bind {α β : Type} (t : Try α) (f : State → α → Try β) : Try β :=
  match t with
  | .ok s a => f s a
  | .trap s c i => .trap s c i
  | .wait s => .wait s
  | .kill s k a => .kill s k a

/-- The state that the attempt of a bundle leaves. -/
def Try.finish (t : Try State) : State :=
  match t with
  | .ok _ s => s
  | .trap s c i => s.trap c i
  | .wait s => s
  | .kill s k a => s.poisonKill k a

/-! ## Home memory -/

/-- Physical addresses from here on are no HBM (10 R246): 768 GiB. -/
def hbmTop : Nat := 824633720832

/-- Who accesses: a partition, the encryption domain of the page, the launch on whose behalf, and the cache range that the access carries to the home
slice (10 R247). -/
structure Access where
  part : Nat
  ed : Nat
  launch : Option Nat
  range : Option Nat
deriving DecidableEq, Repr

/-- The byte of HBM at a physical address. -/
def State.hbmByte (s : State) (pa : Nat) : Byte := if pa < hbmTop then Tab.get 0 s.mem pa else Config.offHbm pa

/-- The state with a byte of HBM written; there is nothing to write where no HBM stands. -/
def State.setHbmByte (s : State) (pa : Nat) (b : Byte) : State :=
  if pa < hbmTop then { s with mem := Tab.set 0 s.mem pa b } else s

/-- The word of HBM at an aligned physical address, with its poison. -/
def State.hbmWord (s : State) (pa : Nat) : PWord :=
  ⟨s.hbmByte (pa + 3) ++ s.hbmByte (pa + 2) ++ s.hbmByte (pa + 1) ++ s.hbmByte pa, Tab.get false s.memPsn (pa / 4)⟩

/-- A word of HBM written, with its poison. -/
def State.setHbmWord (s : State) (pa : Nat) (w : PWord) : State :=
  let s := s.forEach (List.range 4) fun s i => s.setHbmByte (pa + i) (w.w.extractLsb' (8 * i) 8)
  { s with memPsn := Tab.set false s.memPsn (pa / 4) w.p }

/-- The home slice of a line (10 R246). -/
def State.homeSlice (s : State) (pa : Nat) : Nat :=
  let g := pa / 2 ^ 31
  if s.module.cmode then 16 * (g / 32) + g % 32 / 2 else pa / 128 % 192

/-- A word of a line, the first of 32 with number 0. -/
def Line.word (x : Line) (j : Nat) : PWord := x.ws.getD j ⟨0, false⟩

/-- The registered owner of a word of a line. -/
def Line.owner (x : Line) (j : Nat) : Nat := x.own.getD j 0

/-- Whether two lines are copies of one address under one domain. -/
def Line.same (x y : Line) : Bool := x.no == y.no && x.part == y.part && x.ed == y.ed

/-- The most recently used line that holds a physical address, under whichever domain. -/
def State.frontLine (s : State) (pa : Nat) : Option Line := (s.slice? (s.homeSlice pa)).bind fun sl => sl.lines.find? fun x => x.no == pa / 128

/-- The byte at a physical address as its home slice or else HBM holds it: where lines of several domains hold the address, as the most recently used one
does. -/
def State.homeByte (s : State) (pa : Nat) : Byte :=
  match if pa < hbmTop then s.frontLine pa else none with
  | none => s.hbmByte pa
  | some x => (x.word (pa % 128 / 4)).w.extractLsb' (8 * (pa % 4)) 8

/-! ## Keys and fences (13 R304 to R307) -/

/-- The key of a domain for an access: its number, none where it is not loaded (that of a partition that is no more neither), or restricted to another launch
image (13 R304, R307, R315). -/
def State.keyOf (s : State) (a : Access) : Option Nat :=
  match s.part? a.part with
  | none => none
  | some p =>
    match Tab.get none p.keys a.ed with
    | none => none
    | some k =>
      if k.digest = 0 then some k.serial
      else
        match a.launch.bind s.launch? with
        | none => none
        | some l => if l.image.digest = k.digest then some k.serial else none

/-- Whether the domain of an access is loaded, for whichever launch. -/
def State.keyLoaded (s : State) (a : Access) : Bool :=
  match s.part? a.part with
  | none => false
  | some p => (Tab.get none p.keys a.ed).isSome

/-- Whether the domain of an access is loaded, but for another launch image than that of its launch (13 R315). -/
def State.barred (s : State) (a : Access) : Bool := (s.keyOf a).isNone && s.keyLoaded a

/-- The number of the key that a domain of a partition holds, for whichever launch. -/
def State.domainKey (s : State) (p e : Nat) : Nat := ((s.part? p).bind fun q => (Tab.get none q.keys e).map (·.serial)).getD 0

/-- The number of the key under which a sector of HBM was written. -/
def State.sealOf (s : State) (sec : Nat) : Nat :=
  match Tab.get 0 s.sealed sec with
  | 0 => Tab.get 0 s.regionKey (sec * 64 / 2 ^ 31)
  | n + 1 => n

/-- A sector of HBM is written under a key: no error stands in it. -/
def State.seal (s : State) (sec k : Nat) : State :=
  { s with
    sealed := Tab.set 0 s.sealed sec (if Tab.get 0 s.regionKey (sec * 64 / 2 ^ 31) = k then 0 else k + 1)
    errs := Tab.set .clean s.errs sec .clean }

/-! ## Owners (11 R270) -/

/-- A revoke (11 R270): the owner's O bit of a word is cleared. Owners are numbered as in OWN (13 R303). -/
def State.revoke (s : State) (own pa : Nat) : State :=
  let clear := fun (st : Stash) =>
    { st with rows := st.rows.map fun kv =>
        (kv.1, kv.2.map fun r =>
          if r.frame = pa / 256 * 256 then { r with o := r.o &&& ~~~(BitVec.ofNat 64 1 <<< (pa / 4 % 64)) } else r) }
  if own = 0 then s
  else if own ≤ 512 then s.updCore (own - 1) fun k => { k with stash := clear k.stash }
  else s.forEach (List.range 4) fun s t => s.updCore (coreAt (own - 513) t) fun k => { k with stash := clear k.stash }

/-! ## Cache lines (10 R246 to R252, 13 R303, R306) -/

/-- The range that claims an address: the lowest-numbered enabled one that holds it. -/
def Part.rangeOf (p : Part) (va : Nat) : Option Nat :=
  (List.range 16).find? fun k =>
    let c := Tab.get 0 p.crctl k
    c.getLsbD 44 && decide (bitsOf (Tab.get 0 p.crbase k) 16 36 ≤ va / 65536) && decide (va / 65536 ≤ bitsOf c 0 36)

/-- The range that an access of a partition carries (10 R247). -/
def State.rangeAt (s : State) (part va : Nat) : Option Nat := (s.part? part).bind fun p => p.rangeOf va

/-- The access of a core on behalf of its launch, to a virtual address in a page of a domain. -/
def State.access (s : State) (c ed va : Nat) : Access := ⟨s.partOf c, ed, (s.core? c).bind (·.launch), s.rangeAt (s.partOf c) va⟩

/-- Whether a way of a slice is usable at a point (10 R250). -/
def State.wayUsable (s : State) (n pt w : Nat) : Bool := !(Tab.get 0 s.module.fuses.fenWays (8 * n + pt)).getLsbD w

/-- The ways of a slice that are usable at its limit point. -/
def State.ways (s : State) (n limpt : Nat) : List Nat := (List.range 16).filter (s.wayUsable n limpt)

/-- The reservations in force in a slice: partition, range and number of ways. -/
def State.reservations (s : State) (n : Nat) : List (Nat × Nat × Nat) :=
  (s.parts.flatMap fun kv =>
    match kv.2 with
    | none => []
    | some p =>
      if s.module.cmode && !p.entry.crpair.getLsbD n then []
      else (List.range 16).map fun k =>
        let c := Tab.get 0 p.crctl k
        (kv.1, k, if c.getLsbD 44 then bitsOf c 36 4 else 0))

/-- Which of the usable ways are reserved, and for what: each reservation (its number, how many ways) keeps the ways it has, and takes what it lacks from
those that no reservation has, the last first. Which ways a reservation takes is the model's choice (DESIGN CHOICE, log entry 88). -/
def settle (usable : List Nat) (res : List (Nat × Nat)) (old : Tab Nat) : Tab Nat :=
  let keep := fun (r : Nat × Nat) => (usable.filter fun w => Tab.get 0 old w == r.1).take r.2
  let kept := res.flatMap keep
  let free := usable.reverse.filter fun w => !kept.contains w
  (res.foldl (fun (acc : List Nat × Tab Nat) r =>
    let more := r.2 - (keep r).length
    (acc.1.drop more, (keep r ++ acc.1.take more).foldl (fun t w => Tab.set 0 t w r.1) acc.2)) (free, [])).2

/-- The reserved ways of a slice brought to what CRCTL and the limit point say now. -/
def State.settleWays (s : State) (n : Nat) : State :=
  s.updSlice n fun sl => { sl with resv := settle (s.ways n sl.limpt) ((s.reservations n).map fun r => (1 + 16 * r.1 + r.2.1, r.2.2)) sl.resv }

/-- The usable ways of a slice that are reserved for a range of a partition, numbered 1 + 16 × partition + range, or, with number 0, the common ones. -/
def State.waysOf (s : State) (n id : Nat) : List Nat :=
  match s.slice? n with
  | none => []
  | some sl => (s.ways n sl.limpt).filter fun w => Tab.get 0 sl.resv w == id

/-- A sector of a line is written to HBM under the key of the line's domain (13 R303, R306): its words with their poison, and their common owner; where they
have none, every owner of one is revoked first. -/
def State.writeSector (s : State) (x : Line) (i : Nat) : State :=
  let sec := 2 * x.no + i
  let owns := (List.range 16).map fun j => x.owner (16 * i + j)
  let one := owns.all fun o => o == owns.headD 0
  let s := if one then s else s.forEach (List.range 16) fun s j => s.revoke (x.owner (16 * i + j)) (64 * sec + 4 * j)
  let s := { s with owner := Tab.set 0 s.owner sec (if one then owns.headD 0 else 0) }
  let s := s.forEach (List.range 16) fun s j => s.setHbmWord (64 * sec + 4 * j) (x.word (16 * i + j))
  s.seal sec (s.domainKey x.part x.ed)

/-- The dirty sectors of a line are written to HBM. -/
def State.writeLine (s : State) (x : Line) : State :=
  s.forEach [0, 1] fun s i => if x.dirty.getLsbD i then s.writeSector x i else s

/-- A line leaves its slice. -/
def State.leaveLine (s : State) (n : Nat) (x : Line) : State :=
  (s.updSlice n fun sl => { sl with lines := sl.lines.filter fun y => y != x }).writeLine x

/-- The lines of a slice that `sel` chooses leave it. -/
def State.leaveLines (s : State) (n : Nat) (sel : Line → Bool) : State :=
  match s.slice? n with
  | none => s
  | some sl => s.forEach (sl.lines.filter sel) fun s x => s.leaveLine n x

/-- The set of a slice in which a line lies: 16 MiB in 16 ways of 128-byte lines are 8192 sets (01 R13). Which lines share one is a free value (log entry
88). -/
def setOfLine (no : Nat) : Nat := Config.setOf no % 8192

/-- A way for a line among those of its class, with the line of its set that it displaces there: in the reserved ways the least recently used one, in the
common ways a free value (log entry 88). While a way holds no line at all, no set of it does. -/
def State.pickWay (s : State) (sl : Slice) (no : Nat) (allowed : List Nat) (retained : Bool) : Option (Nat × Option Line) :=
  match allowed.find? fun w => !sl.lines.any fun x => x.way == w with
  | some w => some (w, none)
  | none =>
    let set := sl.lines.filter fun x => setOfLine x.no == setOfLine no && allowed.contains x.way
    match allowed.find? fun w => !set.any fun x => x.way == w with
    | some w => some (w, none)
    | none =>
      let v := if retained then set.getLast? else set[Config.victim s.free % set.length]?
      v.map fun x => (x.way, some x)

/-- A line is placed in its home slice, after what the placement displaces; one for which there is no way is written through. -/
def State.placeLine (s : State) (n : Nat) (x : Line) (allowed : List Nat) (retained : Bool) : State :=
  match (s.slice? n).bind fun sl => s.pickWay sl x.no allowed retained with
  | none => s.writeLine x
  | some (w, v) =>
    let s := { (match v with | none => s | some y => s.leaveLine n y) with free := s.free + 1 }
    s.updSlice n fun sl => { sl with lines := { x with way := w } :: sl.lines }

/-- An access reaches the home slice of a line: the counter of its range counts it; whether it is of the retained class (10 R247). -/
def State.countLine (s : State) (a : Access) (pa : Nat) : State × Bool :=
  match a.range, s.part? a.part with
  | some k, some p =>
    let n := s.homeSlice pa
    let key := 16 * a.part + k
    let cnt := match s.slice? n with | none => 0 | some sl => Tab.get 0 sl.counters key
    let c := Tab.get 0 p.crctl k
    (s.updSlice n fun sl => { sl with counters := Tab.set 0 sl.counters key (cnt + 1) },
      decide (bitsOf c 36 4 ≠ 0) && cnt % 2 ^ min 8 (bitsOf c 40 4) == 0)
  | _, _ => (s, false)

/-! ## Sectors (12 R302, 13 R304) -/

/-- The stash rows of the partition's cores that hold pages of a domain are invalidated (13 R307); a pin stays. -/
def State.dropDomainRows (s : State) (p e : Nat) : State :=
  { s with cores := s.cores.map fun kv =>
      (kv.1, kv.2.map fun k =>
        { k with stash := { k.stash with rows := k.stash.rows.filterMap fun r =>
            match r.2 with
            | none => none
            | some x =>
              if x.part == p && x.ed == e then (if x.pin then some (r.1, some { x with v := 0, d := 0, o := 0, psn := 0, data := 0 }) else none)
              else some r } }) }

/-- A domain of a partition is erased (13 R307): its lines leave the slices, its stash rows go, then its key. -/
def State.eraseDomain (s : State) (p e : Nat) : State :=
  let s := s.forEach (s.slices.map (·.1)) fun s n => s.leaveLines n fun x => x.part == p && x.ed == e
  (s.dropDomainRows p e).updPart p fun q => { q with keys := Tab.set none q.keys e none }

/-- A launch is to complete with status ABORTED. -/
def State.abortLaunch (s : State) (l : Nat) : State :=
  (s.updLaunch l fun q => { q with aborted := true }).post 1 (.launchCompletion l)

/-- The running launches of a partition. -/
def State.launchesOf (s : State) (p : Nat) : List Nat :=
  (s.launches.filter fun kv =>
    match kv.2 with
    | none => false
    | some l => l.part == p).map (·.1)

/-- Every launch of a partition ends ABORTED, the dispatched entry that waits for its placement too (13 R305, R318): the scheduler completes it when it
next looks. -/
def State.abortAll (s : State) (p : Nat) : State := (s.forEach (s.launchesOf p) State.abortLaunch).postOnce 1 (.launchPlacement p)

/-- The partition is fenced (13 R305): its launches end ABORTED, its domain keys are erased. The keys go at once, the launches complete after, so that their records
and their dirty rows are lost: R305 gives no order (DESIGN CHOICE, log entry 114). -/
def State.fence (s : State) (p : Nat) : State :=
  let s := s.updPart p fun q => { q with fenced := true }
  (s.forEach (List.range 8) fun s e => s.eraseDomain p e).abortAll p

/-- SECCNT + 1; at SECLIM (0 is taken as 1) the partition is fenced (13 R305). -/
def State.countIntegrity (s : State) (p : Nat) : State :=
  match s.part? p with
  | none => s
  | some q =>
    let n := min 255 (q.seccnt.toNat + 1)
    let s := s.updPart p fun q => { q with seccnt := BitVec.ofNat 8 n }
    if max 1 q.entry.seclim.toNat ≤ n && !q.fenced then s.fence p else s

/-- TRAPINFO of INTEGRITY and MEDIA (13 R304). -/
def sectorInfo (sec ed : Nat) (noKey corr tagu : Bool) : Word64 :=
  BitVec.ofNat 64 (sec * 64 % 2 ^ 46 + ed % 8 * 2 ^ 46 + 2 ^ 49 * bitN noKey + 2 ^ 50 * bitN corr + 2 ^ 51 * bitN tagu)

/-- The partition that owns the channel region of a physical address. -/
def State.regionPart (s : State) (pa : Nat) : Option Nat :=
  (s.parts.find? fun kv =>
    match kv.2 with
    | none => false
    | some p => p.entry.crpair.getLsbD (pa / 2 ^ 32)).map (·.1)

/-- The lowest-numbered good spare of a bank that is free, of 8 (12 R302). -/
def HbmBank.spare (b : HbmBank) : Option Nat := (List.range 8).find? fun i => !b.used.getLsbD i && !b.bad.getLsbD i

/-- The sparing of the row that holds a sector begins, or is given up with a notice where no good spare remains (12 R302). -/
def State.startSparing (s : State) (sec : Nat) : State :=
  let bank := Config.bankOf sec
  match (Tab.get (⟨0, 0⟩ : HbmBank) s.module.banks bank).spare with
  | some i => { s with module := { s.module with sparing := some ⟨sec, bank, Config.rowOf sec, i, 0⟩ } }
  | none =>
    let s := { s with module := { s.module with kept := (bank, Config.rowOf sec) :: s.module.kept } }
    match s.regionPart (sec * 64) with
    | none => s
    | some p =>
      ({ s with module := { s.module with retired := satInc16 s.module.retired 1 } } : State).notice p 0x14
        (BitVec.ofNat 64 (sec * 64 / 65536 % 2 ^ 30 * 65536 + 2 ^ 63))

/-- The errors that a copy corrects (12 R302): once accesses move to the spare, they find the corrected ciphertext and side data of each sector of the row. -/
def correctedCopy (bank row : Nat) (errs : Tab SectorCheck) : Tab SectorCheck :=
  errs.filterMap fun e =>
    if (Config.bankOf e.1, Config.rowOf e.1) == (bank, row) then
      match e.2 with
      | .corrected => none
      | .tagFails _ => some (e.1, .tagFails false)
      | _ => some e
    else some e

/-- A corrected error of a sector counts toward its row (12 R302); at RSPCFG.THR (0 is taken as 1) the row is spared, after a copy in progress. -/
def State.countCorrected (s : State) (sec : Nat) : State :=
  let key := (Config.bankOf sec, Config.rowOf sec)
  let n := ((s.module.rowErrs.find? fun e => (e.1, e.2.1) == key).elim 0 fun e => e.2.2) + 1
  let s := { s with module := { s.module with
    rowErrs := (key.1, key.2, n) :: s.module.rowErrs.filter fun e => !((e.1, e.2.1) == key) } }
  let known := s.module.kept.contains key || (s.module.sparing.any fun x => (x.bank, x.row) == key)
    || s.module.toSpare.any fun t => (Config.bankOf t, Config.rowOf t) == key
  if n < max 1 s.module.rspThr.toNat || known then s
  else if s.module.sparing.isSome then { s with module := { s.module with toSpare := s.module.toSpare ++ [sec] } }
  else s.startSparing sec

/-- Errors that have come to stand in sectors of HBM, from a sector on (13 R304). -/
def State.meet (s : State) (sec : Nat) (checks : List SectorCheck) : State :=
  { s with errs := (checks.zipIdx).foldl (fun t x => if x.1 = .clean then t else Tab.set .clean t (sec + x.2) x.1) s.errs }

/-- A read of a sector from HBM through a domain (13 R304 Table 2): whether its words are delivered. A tag fails where the sector was sealed under
another key, whatever else is found. A correction counts where its data are delivered. -/
def State.checkSector (s : State) (a : Access) (sec : Nat) : State × Bool :=
  match Tab.get SectorCheck.clean s.errs sec, s.keyOf a with
  | .uncorrectable, _ => (s.notice a.part 0x14 (sectorInfo sec a.ed false false true), false)
  | _, none => (s.notice a.part 0x13 (sectorInfo sec a.ed true false false), false)
  | .tagFails corr, some _ =>
    ((s.notice a.part 0x13 (sectorInfo sec a.ed false corr false)).countIntegrity a.part, false)
  | .clean, some k =>
    if s.sealOf sec = k then (s, true)
    else ((s.notice a.part 0x13 (sectorInfo sec a.ed false false false)).countIntegrity a.part, false)
  | .corrected, some k =>
    if s.sealOf sec = k then (s.countCorrected sec, true)
    else ((s.notice a.part 0x13 (sectorInfo sec a.ed false true false)).countIntegrity a.part, false)

/-! ## Accesses at the home slice -/

/-- The line of an access where its home slice holds it. -/
def State.lineOf (s : State) (a : Access) (no : Nat) : Option Line :=
  (s.slice? (s.homeSlice (128 * no))).bind fun sl => sl.lines.find? fun x => x.no == no && x.part == a.part && x.ed == a.ed

/-- One sector of a line that is filled: its words as HBM holds them, read and judged unless they are to be overwritten whole; those of a sector whose check
failed are poisoned, with what bits the spec does not say. -/
def State.fillSector (a : Access) (no : Nat) (whole : Nat → Bool) (acc : State × List PWord) (i : Nat) : State × List PWord :=
  let sec := 2 * no + i
  match if whole i then (acc.1, true) else acc.1.checkSector a sec with
  | (s, true) => (s, acc.2 ++ (List.range 16).map fun j => s.hbmWord (64 * sec + 4 * j))
  | (s, false) => (s, acc.2 ++ (List.range 16).map fun j => ⟨Config.failedWord (64 * sec + 4 * j) (s.sealOf sec), true⟩)

/-- A line as an access finds it in its home slice: a hit, or filled from HBM, where each sector that `whole` does not say to be overwritten is read and
judged; in a way of the class of the access. A launch that the key is not for finds no word of it (13 R315); a line whose domain was erased by the checks of
its own fill does not come into the slice (13 R305, R307). -/
def State.openLine (s : State) (a : Access) (no : Nat) (whole : Nat → Bool) : State × Line :=
  let n := s.homeSlice (128 * no)
  let loaded := s.keyLoaded a
  match (s.settleWays n).countLine a (128 * no) with
  | (s, retained) =>
    let allowed := s.waysOf n (match retained, a.range with
      | true, some k => 1 + 16 * a.part + k
      | _, _ => 0)
    match if s.barred a then none else s.lineOf a no with
    | some x =>
      let t := s.updSlice n fun sl => { sl with lines := sl.lines.filter fun y => y != x }
      (if retained && (s.waysOf n 0).contains x.way then t.placeLine n x allowed true
        else t.updSlice n fun sl => { sl with lines := x :: sl.lines }, x)
    | none =>
      match [0, 1].foldl (State.fillSector a no whole) (s, []) with
      | (s, ws) =>
        let x : Line := ⟨no, 0, a.part, a.ed, ws, (List.range 32).map fun j => Tab.get 0 s.owner (2 * no + j / 16), 0⟩
        (if s.barred a || (loaded && !s.keyLoaded a) then s else s.placeLine n x allowed retained, x)

/-- `n` words of one line from a physical address on. -/
def State.lineWords (s : State) (a : Access) (pa n : Nat) : State × List PWord :=
  if hbmTop ≤ pa then (s, (List.range n).map fun i => s.hbmWord (pa + 4 * i))
  else
    match s.openLine a (pa / 128) fun _ => false with
    | (s, x) => (s, (List.range n).map fun i => x.word (pa % 128 / 4 + i))

/-- `n` words of home memory from an aligned physical address on, line by line. -/
def State.homeWords (s : State) (a : Access) : Nat → Nat → Nat → State × List PWord
  | 0, _, _ => (s, [])
  | fuel + 1, pa, n =>
    if n = 0 then (s, [])
    else
      let here := min n ((128 - pa % 128) / 4)
      match s.lineWords a pa here with
      | (s, ws) =>
        match s.homeWords a fuel (pa + 4 * here) (n - here) with
        | (s, ws') => (s, ws ++ ws')

/-- The value of a list of words, the first the least significant. -/
def wordsNat : List PWord → Nat
  | [] => 0
  | w :: ws => w.w.toNat + 2 ^ 32 * wordsNat ws

/-- `n` bytes from a physical address on, as a little-endian number, with the poison of the words they lie in. -/
def State.homeRead (s : State) (a : Access) (pa n : Nat) : State × Nat × Bool :=
  let b := pa / 4 * 4
  let cnt := (pa + n - b + 3) / 4
  match s.homeWords a (cnt + 1) b cnt with
  | (s, ws) => (s, wordsNat ws / 2 ^ (8 * (pa - b)) % 2 ^ (8 * n), ws.any (·.p))

/-- A word with the bytes of a mask taken from another. -/
def mergeBytes (old new : Word32) (mask : Nat) : Word32 :=
  let b := fun i => (if mask / 2 ^ i % 2 = 1 then new else old).extractLsb' (8 * i) 8
  b 3 ++ b 2 ++ b 1 ++ b 0

/-- A word merged into a line for an owner (0: none): the bytes of `mask` of `w`. Its poison is that of `w`, and the word's own where bytes of it stay. -/
def Line.merge (x : Line) (own j : Nat) (w : PWord) (mask : Nat) : Line :=
  { x with
    ws := x.ws.set j ⟨mergeBytes (x.word j).w w.w mask, w.p || (mask % 16 ≠ 15 && (x.word j).p)⟩
    own := x.own.set j own
    dirty := x.dirty ||| BitVec.ofNat 2 (2 ^ (j / 16)) }

/-- A word merged into a line at its home slice: a different owner that is replaced is revoked (11 R270). -/
def State.mergeWord (own : Nat) (acc : State × Line) (j : Nat) (w : PWord) (mask : Nat) : State × Line :=
  if mask % 16 = 0 then acc
  else
    let old := acc.2.owner j
    (if old = own then acc.1 else acc.1.revoke old (128 * acc.2.no + 4 * j), acc.2.merge own j w mask)

/-- A line that its home slice holds takes new contents; one that found no way there is written through. -/
def State.setLine (s : State) (n : Nat) (y : Line) : State :=
  match s.slice? n with
  | none => s.writeLine y
  | some sl =>
    if sl.lines.any fun z => z.same y then
      s.updSlice n fun sl => { sl with lines := sl.lines.map fun z => if z.same y then { y with way := z.way } else z }
    else s.writeLine y

/-- Words of one line written through a domain (13 R303, R304), each with its byte mask: discarded where its key is not loaded, be it that the checks of the
fill have erased it (13 R307). A sector of which all words are written whole is not read. -/
def State.lineWrite (s : State) (a : Access) (own pa : Nat) (ws : List (PWord × Nat)) : State :=
  let first := pa % 128 / 4
  let masks := fun (i : Nat) => (List.range 16).map fun j => if 16 * i + j < first then 0 else (ws.getD (16 * i + j - first) (⟨0, false⟩, 0)).2 % 16
  let touched := [0, 1].filter fun i => (masks i).any fun m => m != 0
  if hbmTop ≤ pa || touched.isEmpty then s
  else
    let noKey := fun (s : State) => s.forEach touched fun s i => s.notice a.part 0x13 (sectorInfo (2 * (pa / 128) + i) a.ed true false false)
    match s.keyOf a with
    | none => noKey s
    | some _ =>
      match s.openLine a (pa / 128) fun i => (masks i).all fun m => m == 15 with
      | (s, x) =>
        if (s.keyOf a).isNone then noKey s
        else match ws.zipIdx.foldl (fun acc w => State.mergeWord own acc (first + w.2) w.1.1 w.1.2) (s, x) with
        | (s, y) => s.setLine (s.homeSlice pa) y

/-- Words merged at their home slices from an aligned address on, each with its byte mask, line by line. -/
def State.homeWrite (s : State) (a : Access) (own : Nat) : Nat → Nat → List (PWord × Nat) → State
  | 0, _, _ => s
  | fuel + 1, pa, ws =>
    if ws.isEmpty then s
    else
      let here := (128 - pa % 128) / 4
      (s.lineWrite a own pa (ws.take here)).homeWrite a own fuel (pa + 4 * here) (ws.drop here)

/-- The words and masks of `n` bytes of a number, stored from byte `off` of the first word on. -/
def maskedWords (off n val : Nat) (psn : Bool) : List (PWord × Nat) :=
  let v := val % 2 ^ (8 * n) * 2 ^ (8 * off)
  let m := (2 ^ n - 1) * 2 ^ off
  (List.range ((off + n + 3) / 4)).map fun i => (⟨BitVec.ofNat 32 (v / 2 ^ (32 * i)), psn⟩, m / 2 ^ (4 * i) % 16)

/-- `n` bytes written at home by a write that bypasses the stash (11 R266, R270). -/
def State.homePut (s : State) (a : Access) (pa n val : Nat) (psn : Bool) : State :=
  let ws := maskedWords (pa % 4) n val psn
  s.homeWrite a 0 (ws.length + 1) (pa / 4 * 4) ws

/-! ## Translation -/

/-- What an access does with a page (10 R259). -/
inductive Use where | read | write | fetch
deriving DecidableEq, Repr

/-- The outcome of a translation: a leaf, or a cause with TRAPINFO. -/
inductive Xlat where
  | leaf (l : Leaf)
  | fault (cause : Nat) (info : Word64)
deriving DecidableEq, Repr

/-- TRAPINFO of a translation fault (10 R259). -/
def xlatInfo (va : Nat) (u : Use) (level : Nat) (frame psn : Bool) : Word64 :=
  BitVec.ofNat 64 (va % 2 ^ 52 + 2 ^ 52 * bitN (u == .write) + 2 ^ 53 * bitN (u == .fetch) + 2 ^ 54 * level + 2 ^ 56 * bitN frame
    + 2 ^ 57 * bitN psn)

/-- Whether an entry is well formed for its level: V, LEAF, reserved fields, the alignment of PFN (10 R258, R259). -/
def pteOk (e : Word64) (level : Nat) : Bool :=
  let leaf := e.getLsbD 1
  e.getLsbD 0 && bitsOf e 46 12 == 0
    && (match level with
      | 0 => !leaf && bitsOf e 2 12 == 0
      | 1 => if leaf then bitsOf e 16 13 == 0 && decide (bitsOf e 10 2 < 2) else bitsOf e 2 12 == 0
      | _ => leaf && decide (bitsOf e 10 2 < 2))

/-- The index bits of a level (10 R257). -/
def levelIndex (va level : Nat) : Nat :=
  match level with
  | 0 => va / 2 ^ 42 % 1024
  | 1 => va / 2 ^ 29 % 8192
  | _ => va / 2 ^ 16 % 8192

/-- A walk from a level down: the leaf entry with its physical address, its level, or the fault (10 R257, R259). Tables are read in
domain 0 of the partition. -/
def State.walkFrom (s : State) (part va : Nat) (u : Use) : Nat → Nat → Nat → State × (Word64 × Nat × Nat ⊕ Nat × Word64)
  | 0, _, level => (s, .inr (0x07, xlatInfo va u level false false))
  | fuel + 1, table, level =>
    let pa := table + 8 * levelIndex va level
    match s.homeRead ⟨part, 0, none, none⟩ pa 8 with
    | (s, v, psn) =>
      let e := BitVec.ofNat 64 v
      if psn then (s, .inr (0x07, xlatInfo va u level false true))
      else if !pteOk e level then (s, .inr (0x07, xlatInfo va u level false false))
      else if e.getLsbD 1 then (s, .inl (e, pa, level))
      else s.walkFrom part va u fuel (bitsOf e 16 30 * 65536) (level + 1)

/-- A walk of the partition's tables. -/
def State.walk (s : State) (part va : Nat) (u : Use) : State × (Word64 × Nat × Nat ⊕ Nat × Word64) :=
  match s.part? part with
  | none => (s, .inr (0x07, xlatInfo va u 0 false false))
  | some p => s.walkFrom part va u 3 (bitsOf p.ptbase 13 33 * 8192) 0

/-- The physical address that a leaf gives; a 512 MiB page at level 1, a 64 KiB page at level 2. -/
def leafPa (e : Word64) (level va : Nat) : Nat :=
  if level = 1 then bitsOf e 29 17 * 2 ^ 29 + va % 2 ^ 29 else bitsOf e 16 30 * 65536 + va % 65536

/-- Whether a partition owns the channel region of a physical address (10 R246, 13 R308). -/
def State.ownsFrame (s : State) (part pa : Nat) : Bool :=
  match s.part? part with
  | none => false
  | some p => decide (pa < hbmTop) && p.entry.crpair.getLsbD (pa / 2 ^ 32)

/-- The rows of 10 R259 that a leaf entry decides, in order. -/
def State.leafFault (s : State) (part va : Nat) (u : Use) (e : Word64) (level : Nat) : Option (Nat × Word64) :=
  if !s.ownsFrame part (leafPa e level va) then some (0x08, xlatInfo va u level true false)
  else if u == .fetch && !e.getLsbD 3 then some (0x08, xlatInfo va u level false false)
  else if u == .write && e.getLsbD 4 then some (0x09, xlatInfo va u level false false)
  else if u == .write && !e.getLsbD 2 then some (0x08, xlatInfo va u level false false)
  else if u == .write && e.getLsbD 6 then some (0x08, xlatInfo va u level false false)
  else none

/-- The offset bits of the page whose leaf stands at a level. -/
def pageBits (level : Nat) : Nat := if level = 1 then 29 else 16

/-- What a leaf entry says of a page. -/
def leafOf (e : Word64) (level va : Nat) : Leaf := ⟨leafPa e level va, bitsOf e 10 2, bitsOf e 7 3, e.getLsbD 6, pageBits level⟩

/-- The walker's atomic OR of bits into an entry at its home slice (10 R260). -/
def State.orPte (s : State) (part pa bits : Nat) : State :=
  match s.homeRead ⟨part, 0, none, none⟩ pa 8 with
  | (s, v, psn) => if v ||| bits = v then s else s.homePut ⟨part, 0, none, none⟩ pa 8 (v ||| bits) psn

/-- The TLB entry that covers an address. -/
def tlbFind (t : List TlbEntry) (part va : Nat) : Option TlbEntry :=
  t.find? fun e => e.part == part && e.vpn == va / 2 ^ e.size

/-- A TLB with an entry installed: where it is full, the oldest entry without PIN goes; where every entry is pinned, nothing is installed
(10 R261). -/
def tlbInstall (cap : Nat) (t : List TlbEntry) (e : TlbEntry) : List TlbEntry :=
  let t := t.filter fun f => !(f.part == e.part && f.vpn == e.vpn && f.size == e.size)
  if t.length < cap then t ++ [e]
  else
    match t.findIdx? fun f => !f.pte.getLsbD 5 with
    | none => t
    | some i => t.eraseIdx i ++ [e]

/-- An entry changed in a TLB, where it stands as it was: one that a fresh walk has put in the place of a stale one stays (10 R262). -/
def tlbSet (t : List TlbEntry) (old new : TlbEntry) : List TlbEntry := t.map fun f => if f == old then new else f

/-- An access through an entry: the checks of 10 R259, and D before the first write (10 R260). -/
def State.useEntry (s : State) (c : Nat) (va : Nat) (u : Use) (e : TlbEntry) : State × Xlat :=
  let level := if e.size = 29 then 1 else 2
  match s.leafFault e.part va u e.pte level with
  | some (cause, info) => (s, .fault cause info)
  | none =>
    if u == .write && !e.pte.getLsbD 13 then
      let f := { e with pte := e.pte ||| 0x2000 }
      let s := s.orPte e.part e.ptePa 0x2000
      let s := s.updCore c fun k => { k with tlb := tlbSet k.tlb e f }
      let s := s.updCluster (clusterOf c) fun k => { k with tlb := tlbSet k.tlb e f }
      (s, .leaf (leafOf f.pte level va))
    else (s, .leaf (leafOf e.pte level va))

/-- The translation of an address for a core: its TLB, its cluster's, a walk (10 R261). A faulting walk installs nothing and sets no bit. -/
def State.translate (s : State) (c : Nat) (va : Nat) (u : Use) : State × Xlat :=
  let part := s.partOf c
  match ((s.core? c).map (·.tlb)).bind fun t => tlbFind t part va with
  | some e => s.useEntry c va u e
  | none =>
    match ((s.cluster? (clusterOf c)).map (·.tlb)).bind fun t => tlbFind t part va with
    | some e => (s.updCore c fun k => { k with tlb := tlbInstall 64 k.tlb e }).useEntry c va u e
    | none =>
      match s.walk part va u with
      | (s, .inr (cause, info)) => (s, .fault cause info)
      | (s, .inl (e, pa, level)) =>
        match s.leafFault part va u e level with
        | some (cause, info) => (s, .fault cause info)
        | none =>
          let s := s.orPte part pa 0x1000
          let t : TlbEntry := ⟨part, va / 2 ^ pageBits level, pageBits level, e ||| 0x1000, pa⟩
          let s := s.updCore c fun k => { k with tlb := tlbInstall 64 k.tlb t }
          let s := s.updCluster (clusterOf c) fun k => { k with tlb := tlbInstall 1024 k.tlb t }
          s.useEntry c va u t

/-- The translation of an address for the scheduler, the host port or a home slice: a walk without a TLB. It sets A,
and D for a write, though no TLB entry is filled (10 R260 speaks of entries alone: DESIGN CHOICE, log entry 110). -/
def State.translateHome (s : State) (part va : Nat) (u : Use) : State × Xlat :=
  match s.walk part va u with
  | (s, .inr (cause, info)) => (s, .fault cause info)
  | (s, .inl (e, pa, level)) =>
    match s.leafFault part va u e level with
    | some (cause, info) => (s, .fault cause info)
    | none => ((s.orPte part pa (if u == .write then 0x3000 else 0x1000)), .leaf (leafOf e level va))

/-! ## The stash -/

/-- The quarter of a block (10 R237): that of the core for class 0, quarter VA[9:8] of the cluster for class 1. -/
def quarterOf (c va cc : Nat) : Nat := if cc = 1 then coreAt (clusterOf c) (va / 256 % 4) else c

/-- The row that holds a block, with its number. -/
def Stash.find (st : Stash) (block : Nat) : Option (Nat × Row) :=
  st.rows.findSome? fun kv =>
    match kv.2 with
    | none => none
    | some r => if r.block = block then some (kv.1, r) else none

/-- A stash with a row replaced. -/
def Stash.set (st : Stash) (n : Nat) (r : Row) : Stash := { st with rows := Tab.set none st.rows n (some r) }

/-- Whether a row of a quarter is usable at a point (10 R250). -/
def State.rowUsable (s : State) (q pt r : Nat) : Bool := !(Tab.get 0 s.module.fuses.fenRows (8 * q + pt)).getLsbD r

/-- The lowest-numbered usable row without a block. -/
def State.freeRow (s : State) (q pt : Nat) (rows : Tab (Option Row)) : Nat → Nat → Option Nat
  | 0, _ => none
  | fuel + 1, r =>
    if (Tab.get none rows r).isNone && s.rowUsable q pt r then some r else s.freeRow q pt rows fuel (r + 1)

/-- The bytes of a block as words with their poison. -/
def rowWords (data : BitVec 2048) (psn : BitVec 64) : List PWord :=
  (List.range 64).map fun i => ⟨data.extractLsb' (32 * i) 32, psn.getLsbD i⟩

/-- The byte masks of a block's words. -/
def rowMasks (m : BitVec 256) : List Nat := (List.range 64).map fun i => (m.extractLsb' (4 * i) 4).toNat

/-- The owner number of a quarter's row: a core for class 0, its cluster for class 1 (11 R270, 13 R303). -/
def ownerNo (q cc : Nat) : Nat := if cc = 1 then 513 + clusterOf q else 1 + q

/-- The bytes of a write-back merge at the home slices of its lines, and its writer is registered (10 R242, 11 R270). -/
def State.mergeWb (s : State) (q : Nat) (w : WriteBack) : State :=
  let launch := (s.core? q).bind (·.launch)
  let s := s.updCore q fun k => { k with stash := { k.stash with wbs := k.stash.wbs.filter fun v => v.id ≠ w.id } }
  s.homeWrite ⟨w.part, w.ed, launch, w.range⟩ (ownerNo q w.cc) 65 w.pa ((rowWords w.data w.psn).zip (rowMasks w.mask))

/-- A write-back performs; earlier ones of the same block perform before it. -/
def State.performWb (s : State) (q id : Nat) : State :=
  match s.core? q with
  | none => s
  | some k =>
    match k.stash.wbs.find? fun w => w.id = id with
    | none => s
    | some w => (k.stash.wbs.filter fun v => v.pa = w.pa && v.id ≤ id).foldl (fun s v => s.mergeWb q v) s

/-- The oldest write-back of a quarter performs. -/
def State.oldestWb (s : State) (q : Nat) : State :=
  match (s.core? q).bind fun k => k.stash.wbs.head? with
  | none => s
  | some w => s.performWb q w.id

/-- The dirty bytes of a row go into write-back (10 R241, R242); V, O and the pin stay. -/
def State.writeBackRow (s : State) (q n : Nat) : State :=
  match s.core? q with
  | none => s
  | some k =>
    match Tab.get none k.stash.rows n with
    | none => s
    | some r =>
      if r.d = 0 then s
      else
        let id := k.stash.nextWb
        let st := { (k.stash.set n { r with d := 0 }) with
          nextWb := id + 1, wbs := k.stash.wbs ++ [⟨id, r.frame, r.data, r.d, r.psn, r.cc, r.ed, r.part, s.rangeAt r.part (256 * r.block), r.block, r.sz⟩] }
        (s.updCore q fun k => { k with stash := st }).postOpen 1 (.writeBackPerformed q id)

/-- A row without a block is none. -/
def Stash.drop (st : Stash) (n : Nat) : Stash := { st with rows := Tab.set none st.rows n none }

/-- Whether a quarter waits for the fill of a block. -/
def Stash.filling (st : Stash) (block : Nat) : Bool := st.fills.any fun f => f.block = block

/-- A row after its V bits changed: one that holds nothing, is not pinned and awaits no fill goes. -/
def Stash.tidy (st : Stash) (n : Nat) : Stash :=
  match Tab.get none st.rows n with
  | none => st
  | some r => if r.v = 0 && !r.pin && !st.filling r.block then st.drop n else st

/-- The outcome of an allocation (10 R241, R244). -/
inductive Alloc where | row (n : Nat) | full | busy
deriving DecidableEq, Repr

/-- The victim of an eviction: the lowest-numbered unpinned valid row among the usable ones. -/
def State.victim (s : State) (q : Nat) (st : Stash) : Option Nat :=
  (st.rows.find? fun kv =>
    match kv.2 with
    | none => false
    | some r => !r.pin && r.v ≠ 0 && !st.filling r.block && s.rowUsable q st.limpt kv.1).map (·.1)

/-- The row of a block in a quarter, allocated where there is none, evicting where none is free (10 R239 to R244).
Every attempt that finds the quarter full counts in FULLS, a retry too (08 R207 says of a failing retry that it raises nothing new; 10 R245 counts events: DESIGN
CHOICE, log entry 111). -/
def State.ensureRow (s : State) (q block : Nat) (l : Leaf) : State × Alloc :=
  match s.core? q with
  | none => (s, .busy)
  | some k =>
    match k.stash.find block with
    | some (n, r) =>
      -- a row that holds nothing (a pinned one after a TLBI) goes by the page as it is mapped now (10 R262)
      if r.v = 0 && !k.stash.filling block then
        (s.updCore q fun k => { k with stash := k.stash.set n { r with frame := l.pa / 256 * 256, cc := l.cc, ed := l.ed, part := s.partOf q, sz := l.sz } },
          .row n)
      else (s, .row n)
    | none =>
      let fresh : Row := ⟨block, 0, 0, 0, 0, 0, false, l.pa / 256 * 256, l.cc, l.ed, s.partOf q, l.sz⟩
      match s.freeRow q k.stash.limpt k.stash.rows 8192 0 with
      | some n => (s.updCore q fun k => { k with stash := k.stash.set n fresh }, .row n)
      | none =>
        match s.victim q k.stash with
        | some n =>
          let clean := match Tab.get none k.stash.rows n with | none => true | some r => r.d = 0
          if 16 ≤ k.stash.wbs.length && !clean then (s, .busy)
          else ((s.writeBackRow q n).updCore q fun k => { k with stash := k.stash.set n fresh }, .row n)
        | none =>
          if k.stash.rows.all fun kv => match kv.2 with | none => true | some r => r.pin || !s.rowUsable q k.stash.limpt kv.1 then
            (s.updCore q fun k => { k with stash := { k.stash with fulls := satInc16 k.stash.fulls 1 } }, .full)
          else (s, .busy)

/-- A fill is asked for, once for a block (10 R239). -/
def State.requestFill (s : State) (q block : Nat) (l : Leaf) : State :=
  match s.core? q with
  | none => s
  | some k =>
    if k.stash.filling block then s
    else
      (s.updCore q fun k =>
        { k with stash := { k.stash with fills := k.stash.fills ++ [⟨block, l.pa / 256 * 256, l.ed, s.partOf q, s.rangeAt (s.partOf q) (256 * block)⟩] } }).postOpen 1
        (.stashFillArrival q block [])

/-- Every pending write-back of a block performs: a fill finds what the quarter has written back. -/
def State.flushWbs (s : State) (q pa : Nat) : State :=
  match s.core? q with
  | none => s
  | some k => s.forEach (k.stash.wbs.filter fun w => w.pa = pa) fun s w => s.performWb q w.id

/-- A row filled from home words (10 R239): bytes that are valid stay, the others are taken; a word completed takes the OR of both poisons. -/
def Row.fill (r : Row) (ws : List PWord) : Row :=
  let f := fun (acc : Nat × Nat) (x : PWord × Nat) =>
    let m := bitsOf r.v (4 * x.2) 4
    let old := (r.data.extractLsb' (32 * x.2) 32).toNat
    let pick := fun i => if m / 2 ^ i % 2 = 1 then old / 2 ^ (8 * i) % 256 else x.1.w.toNat / 2 ^ (8 * i) % 256
    let w := pick 0 + 2 ^ 8 * pick 1 + 2 ^ 16 * pick 2 + 2 ^ 24 * pick 3
    let p := if m = 15 then r.psn.getLsbD x.2 else if m = 0 then x.1.p else r.psn.getLsbD x.2 || x.1.p
    (acc.1 + w * 2 ^ (32 * x.2), acc.2 + bitN p * 2 ^ x.2)
  match (ws.zipIdx).foldl f (0, 0) with
  | (d, p) => { r with data := BitVec.ofNat 2048 d, psn := BitVec.ofNat 64 p, v := BitVec.allOnes 256 }

/-- A write of `n` bytes at byte `off` of a row (10 R240, 11 R269): V, D and O are set; a word written in part keeps its poison too. -/
def Row.write (r : Row) (off n val : Nat) (psn : Bool) : Row :=
  let m := BitVec.ofNat 256 ((2 ^ n - 1) * 2 ^ off)
  let words := (List.range 64).filter fun i => bitsOf m (4 * i) 4 ≠ 0
  let p := words.foldl (fun (p : BitVec 64) i =>
    setBits p i 1 (bitN (psn || (bitsOf m (4 * i) 4 ≠ 15 && r.psn.getLsbD i)))) r.psn
  { r with
    data := setBits r.data (8 * off) (8 * n) val
    v := r.v ||| m
    d := r.d ||| m
    o := words.foldl (fun (o : BitVec 64) i => setBits o i 1 1) r.o
    psn := p }

/-- Whether `n` bytes at byte `off` of a row are valid. -/
def Row.has (r : Row) (off n : Nat) : Bool := bitsOf r.v off n == 2 ^ n - 1

/-- The poison of the words that `n` bytes at byte `off` lie in. -/
def Row.poisoned (r : Row) (off n : Nat) : Bool :=
  (List.range 64).any fun i => decide (off < 4 * i + 4) && decide (4 * i < off + n) && r.psn.getLsbD i

/-- A value read, with its poison, the cycles of a hit, and the cycle of the fill where the bundle has waited for one (10 R238). -/
structure Loaded where
  val : Nat
  psn : Bool
  lat : Nat
  filled : Option Nat
deriving DecidableEq, Repr

/-- The cycle at which the row of an address was last filled for a load of the bundle that executes, where that load has missed (10 R238). -/
def State.filledAt (s : State) (q va : Nat) : Option Nat :=
  match s.issuer with
  | none => none
  | some (_, _, x) =>
    if x.missed.contains va then (x.filled.find? fun f => f.1 = q && f.2.1 = va / 256).map (·.2.2) else none

/-- A load through the stash of `n` bytes that lie in one block: a miss allocates, asks for the fill and blocks the bundle (10 R238, R239);
an allocation that fails traps (10 R244); one that must wait for a write-back blocks the bundle too, and is tried again after it (02 R41). -/
def State.stashLoad (s : State) (c va n : Nat) : Try Loaded :=
  match s.translate c va .read with
  | (s, .fault cause info) => .trap s cause info
  | (s, .leaf l) =>
    let q := quarterOf c va l.cc
    let lat := if q = c then 4 else 12
    let hit := ((s.core? q).bind fun k => k.stash.find (va / 256)).bind fun r =>
      if r.2.has (va % 256) n then some r.2 else none
    match hit with
    | some r =>
      .ok s ⟨(r.data.toNat / 2 ^ (8 * (va % 256))) % 2 ^ (8 * n), l.psn || r.poisoned (va % 256) n, lat, s.filledAt q va⟩
    | none =>
      let await := fun (s : State) =>
        (s.updIssuer fun x => { x with
          missed := if x.missed.contains va then x.missed else va :: x.missed
          fills := if x.fills.contains (q, va / 256) then x.fills else x.fills ++ [(q, va / 256)] }).block
      match s.ensureRow q (va / 256) l with
      | (s, .full) => .trap s 0x0A (BitVec.ofNat 64 va)
      | (s, .busy) => .wait (await s)
      | (s, .row _) => .wait (await (s.requestFill q (va / 256) l))

/-- The watch table after a store of its own context to `n` bytes (03 R73). -/
def storeWatch (w : List Watch) (va n : Nat) : List Watch :=
  w.filter fun e => !(decide (va < e.addr + e.n) && decide (e.addr < va + n))

/-- The write of a store whose row is there. -/
def State.rowWrite (s : State) (q n off len val : Nat) (psn : Bool) : State :=
  s.updCore q fun k =>
    match Tab.get none k.stash.rows n with
    | none => k
    | some r => { k with stash := k.stash.set n (r.write off len val psn) }

/-- The poison of the word at a byte of a row goes, before a store that gives the word the poison of its lane (19 R542). -/
def State.rowClean (s : State) (q n off : Nat) : State :=
  s.updCore q fun k =>
    match Tab.get none k.stash.rows n with
    | none => k
    | some r => { k with stash := k.stash.set n { r with psn := setBits r.psn (off / 4) 1 0 } }

/-- The row of a block for a store of the bundle that executes. One that performs, and so finds every write-back of the quarter taken by its own
evictions, waits for the oldest of them within its cycle (10 R242). -/
def State.rowFor (s : State) (q block : Nat) (l : Leaf) : State × Alloc :=
  match s.ensureRow q block l with
  | (t, .busy) => if t.bun.performs then (t.oldestWb q).ensureRow q block l else (t, .busy)
  | r => r

/-- A store through the stash of `n` bytes that lie in one block, by a context (10 R240). `anew`: their word keeps no poison it had. -/
def State.stashStore (s : State) (c ctx va n val : Nat) (psn anew : Bool) : Try State :=
  match s.translate c va .write with
  | (s, .fault cause info) => .trap s cause info
  | (s, .leaf l) =>
    let q := quarterOf c va l.cc
    match s.rowFor q (va / 256) l with
    | (s, .full) => .trap s 0x0A (BitVec.ofNat 64 va)
    | (s, .busy) => .wait s.stall
    | (s, .row r) =>
      let s := if anew then s.rowClean q r (va % 256) else s
      let s := (s.rowWrite q r (va % 256) n val psn).updCtx c ctx fun x => { x with watch := storeWatch x.watch va n }
      .ok s s

/-! ## Release and acquire (11 R271) -/

/-- The quarters that a half at a scope covers, and of which class: the core's own, at cluster scope its class-0 rows alone, at module scope
every row of it and the class-1 rows of the cluster. -/
def halfCovers (c scope q : Nat) (r : Row) : Bool :=
  if scope ≤ 1 then false
  else if scope = 2 then q == c && r.cc == 0
  else q == c || (clusterOf q == clusterOf c && r.cc == 1)

/-- The four quarters of a core's cluster. -/
def clusterCores (c : Nat) : List Nat := (List.range 4).map fun t => coreAt (clusterOf c) t

/-- The dirty rows that a release half covers, as quarter, block and physical address. -/
def State.dirtyRows (s : State) (c scope : Nat) : List (Nat × Nat × Nat) :=
  (clusterCores c).flatMap fun q =>
    match s.core? q with
    | none => []
    | some k => k.stash.rows.filterMap fun kv =>
        match kv.2 with
        | none => none
        | some r => if halfCovers c scope q r && r.d ≠ 0 then some (q, r.block, r.frame) else none

/-- The write-backs that a release half at a scope waits for, as quarter and number. -/
def State.releaseWbs (s : State) (c scope : Nat) : List (Nat × Nat) :=
  (clusterCores c).flatMap fun q =>
    match s.core? q with
    | none => []
    | some k =>
      (k.stash.wbs.filter fun w =>
        halfCovers c scope q ⟨0, 0, 0, 0, 0, 0, false, 0, w.cc, 0, 0, 16⟩).map fun w => (q, w.id)

/-- A release half goes on: rows go into write-back as long as their quarter has one of its 16 free (10 R242); of a row that has gone meanwhile the
write-backs are waited for. -/
def State.pushRelease (s : State) (r : Release) : State × Release :=
  r.todo.foldl (fun (a : State × Release) e =>
    match a.1.core? e.1 with
    | none => a
    | some k =>
      let own := (k.stash.wbs.filter fun w => w.pa = e.2.2).map fun w => (e.1, w.id)
      match k.stash.find e.2.1 with
      | none => (a.1, { a.2 with wbs := a.2.wbs ++ own })
      | some (n, row) =>
        if row.d = 0 then (a.1, { a.2 with wbs := a.2.wbs ++ own })
        else if 16 ≤ k.stash.wbs.length then (a.1, { a.2 with todo := a.2.todo ++ [e] })
        else (a.1.writeBackRow e.1 n, { a.2 with wbs := a.2.wbs ++ [(e.1, k.stash.nextWb)] })) (s, { r with todo := [] })

/-- A release half begins: every covered dirty row is to go into write-back. -/
def State.startRelease (s : State) (c scope : Nat) : State × Release := s.pushRelease ⟨s.dirtyRows c scope, s.releaseWbs c scope⟩

/-- Whether a write-back has performed. -/
def State.wbDone (s : State) (w : Nat × Nat) : Bool :=
  match s.core? w.1 with
  | none => true
  | some k => !k.stash.wbs.any fun v => v.id = w.2

/-- Whether a release half is complete. -/
def State.released (s : State) (r : Release) : Bool := r.todo.isEmpty && r.wbs.all s.wbDone

/-- Every dirty byte that a release half at a scope covers is written back at once. -/
def State.releaseNow (s : State) (c scope : Nat) : State :=
  let s := (s.dirtyRows c scope).foldl (fun s e =>
    match (s.core? e.1).bind fun k => (k.stash.find e.2.1).map fun r => (k.stash.nextWb, r.1) with
    | none => s
    | some (id, n) => (s.writeBackRow e.1 n).performWb e.1 id) s
  (s.releaseWbs c scope).foldl (fun s w => s.performWb w.1 w.2) s

/-- The words of a row that an acquire half drops: valid, not owned, not dirty. -/
def Row.stale (r : Row) : List Nat :=
  (List.range 64).filter fun i => bitsOf r.v (4 * i) 4 ≠ 0 && bitsOf r.d (4 * i) 4 = 0 && !r.o.getLsbD i

/-- The records of a watch table on bytes of some words of a block go. -/
def wordsWatch (w : List Watch) (block : Nat) (words : List Nat) : List Watch :=
  w.filter fun e => !words.any fun i => decide (block * 256 + 4 * i < e.addr + e.n) && decide (e.addr < block * 256 + 4 * i + 4)

/-- Words of a row of a quarter become invalid (11 R271, 03 R73). The contexts of the cores that may load from the row lose the records. -/
def State.dropWords (s : State) (q n : Nat) (words : List Nat) : State :=
  match (s.core? q).bind fun k => Tab.get none k.stash.rows n with
  | none => s
  | some r =>
    let v := words.foldl (fun (v : BitVec 256) i => setBits v (4 * i) 4 0) r.v
    let o := words.foldl (fun (o : BitVec 64) i => setBits o i 1 0) r.o
    let d := words.foldl (fun (v : BitVec 256) i => setBits v (4 * i) 4 0) r.d
    let s := s.updCore q fun k => { k with stash := (k.stash.set n { r with v := v, o := o, d := d }).tidy n }
    s.forEach (if r.cc = 1 then clusterCores q else [q]) fun s c =>
      s.updCore c fun k => k.mapCtxs fun _ x => { x with watch := wordsWatch x.watch r.block words }

/-- The acquire half at a scope: stale words of the covered rows are dropped, and the records that watch them. -/
def State.acquire (s : State) (c scope : Nat) : State :=
  s.forEach (clusterCores c) fun s q =>
    match s.core? q with
    | none => s
    | some k =>
      s.forEach (k.stash.rows.map (·.1)) fun s n =>
        match ((s.core? q).bind fun k => Tab.get none k.stash.rows n) with
        | none => s
        | some r => if halfCovers c scope q r then s.dropWords q n r.stale else s

/-- Whether a quarter holds the bytes of a watch record, in a row of a class, with the value and the poison of a register. -/
def State.holdsStill (s : State) (c cc : Nat) (e : Watch) (v : RV) : Bool :=
  match (s.core? (quarterOf c e.addr cc)).bind fun k => k.stash.find (e.addr / 256) with
  | none => false
  | some (_, r) =>
    r.cc == cc && r.has (e.addr % 256) e.n && bitsOf r.data (8 * (e.addr % 256)) (8 * e.n) == bitsOf v.v 0 (8 * e.n)
      && r.poisoned (e.addr % 256) e.n == v.p

/-- The acquire half of a context. It takes with it the context's records whose bytes a load would no longer find as the register has them, their row gone or
stored to by another context: 03 R74 has CHKA then give the value of a load, though R73 does not name these two (DEDUCED, log entry 91). -/
def State.acquireBy (s : State) (c n scope : Nat) : State :=
  let s := s.acquire c scope
  s.updCtx c n fun x =>
    { x with watch := x.watch.filter fun e => let v := x.regs.getXY e.y e.d; s.holdsStill c 0 e v || s.holdsStill c 1 e v }

/-- The release half of the bundle that executes: it begins at the first attempt, and the bundle stalls in place until its write-backs have
performed. What other slots of the bundle have stored by the time it performs is written back with it (15 R334). -/
def State.releaseHalf (s : State) (scope : Nat) : Try State :=
  match s.issuer with
  | none => .wait s
  | some (_, _, x) =>
    if s.bun.performs then
      let s := (s.releaseNow s.cur scope).updIssuer fun x => { x with rel := none }
      .ok s s
    else
      match (match x.rel with | none => s.startRelease s.cur scope | some r => s.pushRelease r) with
      | (s, r) =>
        if s.released r then .ok s s else .wait ((s.updIssuer fun x => { x with rel := some r }).stall)

/-- The dirty bytes of one word of a row are written back at once, and its V and O cleared: what an atomic does before it performs
(11 R276). -/
def State.evictWord (s : State) (c va : Nat) (l : Leaf) : State :=
  let q := quarterOf c va l.cc
  match (s.core? q).bind fun k => k.stash.find (va / 256) with
  | none => s.flushWbs q (l.pa / 256 * 256)
  | some (n, r) =>
    let i := va % 256 / 4
    let s := s.flushWbs q r.frame
    let s := s.homeWrite (s.access c r.ed va) (ownerNo q r.cc) 2 (r.frame + 4 * i)
      [(⟨r.data.extractLsb' (32 * i) 32, r.psn.getLsbD i⟩, bitsOf r.d (4 * i) 4)]
    s.dropWords q n [i]

end Sys2Proof.Machine
end

