-- ==== Sys2Proof/Machine/Operands.lean ====
section
/-! DEFINITION. Operands: guards (03 R52), the files and banks of the slots (03 R53, R55), types (15 R327), addresses, and the writes of results.
Every read takes the value from before the bundle (03 R59): the registers of the bundle at hand. -/

namespace Sys2Proof.Machine

/-- Whether an I slot's file is y. -/
def ISlot.y : ISlot → Bool
  | .i0 => false
  | .i1 => true

/-- The bank a predicate operation outside the C slot writes, and its guard bank (03 R53, R55). -/
def PSlot.bank : PSlot → Bank
  | .i0 => .pi
  | .i1 => .pi
  | .f => .pv

/-- A guard on bit 0 of a predicate: the scalar rule (03 R52). -/
def Guard.pass (g : Guard) (p : PV) : Bool := !g.ge || (p.v.getLsbD 0 != g.gs)

/-- The guard passes, with the registers before the bundle. -/
def Guard.ok (g : Guard) (b : Bank) (r : Regs) : Bool := Guard.pass g (r.getP b g.gp.toNat)

/-- The guard acts on a poisoned predicate: it poisons everything the slot writes (12 R300). -/
def Guard.psn (g : Guard) (b : Bank) (r : Regs) : Bool := g.ge && (r.getP b g.gp.toNat).p

/-- The bits of a per-lane guard (03 R52). -/
def Guard.lanes (g : Guard) (r : Regs) : Word32 :=
  if g.ge then (if g.gs then ~~~(r.getPv g.gp.toNat).v else (r.getPv g.gp.toNat).v) else BitVec.allOnes 32

/-- A value with more poison. -/
def RV.taint (v : RV) (p : Bool) : RV := { v with p := v.p || p }
/-- A predicate with more poison. -/
def PV.taint (v : PV) (p : Bool) : PV := { v with p := v.p || p }

/-- The width of an integer type in bits. -/
def IType.width : IType → Nat
  | .i8 | .n8 => 8
  | .i16 | .n16 => 16
  | .i32 | .n32 => 32
  | .i64 | .n64 => 64

/-- The access size of a type in bytes. -/
def IType.bytes (t : IType) : Nat := IType.width t / 8

/-- Fit(v, T): SEXT(v, w) for the .i types and ZEXT(v, w) for the .n types (15 R327). -/
def IType.fit (t : IType) (v : Word64) : Word64 :=
  match t with
  | .i8 => (v.truncate 8).signExtend 64
  | .i16 => (v.truncate 16).signExtend 64
  | .i32 => (v.truncate 32).signExtend 64
  | .i64 => v
  | .n8 => (v.truncate 8).zeroExtend 64
  | .n16 => (v.truncate 16).zeroExtend 64
  | .n32 => (v.truncate 32).zeroExtend 64
  | .n64 => v

/-- The low w bits of a value as the integer that the type makes of them. -/
def IType.int (t : IType) (v : Word64) : Int := if IType.signed t then (IType.fit t v).toInt else (IType.fit t v).toNat

/-- An integer as a 64-bit word. -/
def ofInt (i : Int) : Word64 := BitVec.ofInt 64 i

/-- The value of a register of an I slot's file. -/
def Regs.getI (r : Regs) (sl : ISlot) (n : Reg5) : RV := r.getXY (ISlot.y sl) n.toNat

/-- A result of an I slot: its register is written, available after `lat` cycles. -/
def State.writeXY (s : State) (y : Bool) (d : Reg5) (v : RV) (lat : Nat) : State :=
  s.updIssuer fun x => x.putXY s.cycle y d.toNat v lat
/-- A result in a c register. -/
def State.writeC (s : State) (d : CReg) (v : RV) (lat : Nat) : State := s.updIssuer fun x => x.putC s.cycle d.toNat v lat
/-- A result in a predicate. -/
def State.writeP (s : State) (b : Bank) (d : Reg5) (v : PV) (lat : Nat) : State :=
  s.updIssuer fun x => x.putP s.cycle b d.toNat v lat

/-- An operation of an I slot that writes register D alone: where its guard passes, D takes the result, poisoned where a value read or the
guard's predicate is (03 R52, 12 R300). -/
def iResult (s : State) (sl : ISlot) (g : Guard) (d : Reg5) (lat : Nat) (v : RV) : Host.Outcome State Fault Refusal :=
  slotOp s fun _ _ _ =>
    if Guard.ok g .pi s.bun.old then s.writeXY (ISlot.y sl) d (v.taint (Guard.psn g .pi s.bun.old)) lat else s

/-- An operation of the C slot that writes a c register alone. -/
def cResult (s : State) (g : Guard) (d : CReg) (lat : Nat) (v : RV) : Host.Outcome State Fault Refusal :=
  slotOp s fun _ _ _ => if Guard.ok g .pk s.bun.old then s.writeC d (v.taint (Guard.psn g .pk s.bun.old)) lat else s

/-- An operation of the C, I0 or I1 slot that writes a predicate alone: every bit, with the poison of its result (12 R300). -/
def pResult (s : State) (g : Guard) (b : Bank) (d : Reg5) (lat : Nat) (v : PV) : Host.Outcome State Fault Refusal :=
  slotOp s fun _ _ _ => if Guard.ok g b s.bun.old then s.writeP b d (v.taint (Guard.psn g b s.bun.old)) lat else s

/-- A result computed from two registers of an I slot's file. -/
def binary (r : Regs) (sl : ISlot) (a b : Reg5) (f : Word64 → Word64 → Word64) : RV :=
  ⟨f (r.getI sl a).v (r.getI sl b).v, (r.getI sl a).p || (r.getI sl b).p⟩

/-- A result computed from one register of an I slot's file. -/
def unary (r : Regs) (sl : ISlot) (a : Reg5) (f : Word64 → Word64) : RV := ⟨f (r.getI sl a).v, (r.getI sl a).p⟩

/-- A sign-extended immediate (04 R81). -/
def sext {w : Nat} (v : BitVec w) : Word64 := v.signExtend 64

/-- The register of a file that XMOV names. -/
def Regs.getFile (r : Regs) (f : XFile) (n : Reg5) : RV :=
  match f with
  | .x => r.getX n.toNat
  | .y => r.getY n.toNat
  | .c => r.getC n.toNat

/-- A branch target: the bundle's address + 4 × DISP, modulo 2^52 (04 R81, 15 R354). -/
def branchTarget {w : Nat} (pc : VAddr) (disp : BitVec w) : VAddr := pc + BitVec.ofInt 52 (4 * disp.toInt)

/-- The test of BRC on a signed 64-bit value (04 R81). -/
def Cond.holds (c : Cond) (v : Word64) : Bool :=
  match c with
  | .eq => v.toInt == 0
  | .ne => v.toInt != 0
  | .lt => decide (v.toInt < 0)
  | .ge => decide (0 ≤ v.toInt)
  | .gt => decide (0 < v.toInt)
  | .le => decide (v.toInt ≤ 0)

/-- The sum of a base and an offset, 64 bits. -/
def effAddr (base : Word64) (off : Word64) : Nat := (base + off).toNat

/-- The checks of an integer access before its translation: a poisoned base kills (12 R301), an address of 2^52 or more and a misaligned one
trap (15 R332, 16 R372). -/
def State.checkAddr (s : State) (base : RV) (a size : Nat) (write : Bool) : Try State :=
  if base.p then .kill s 0 a
  else if 2 ^ 52 ≤ a then .trap s 0x07 (BitVec.ofNat 64 (a % 2 ^ 52 + 2 ^ 52 * bitN write))
  else if a % size ≠ 0 then .trap s 0x05 (BitVec.ofNat 64 a)
  else .ok s s

/-- A slot operation whose guard, under the scalar rule, lets it attempt something. -/
def guarded (s : State) (g : Guard) (b : Bank) (f : Core → Nat → Ctx → Try State) : Host.Outcome State Fault Refusal :=
  slotOp s fun k n x => if Guard.ok g b s.bun.old then (f k n x).finish else s

/-- An operation of the M slot likewise: its guard is not interlocked, so it reads a pk predicate as it stood before a write that has not been
delivered (03 R55). -/
def guardedM (s : State) (g : Guard) (f : Core → Nat → Ctx → Try State) : Host.Outcome State Fault Refusal :=
  slotOp s fun k n x => if Guard.ok g .pk s.bun.oldM then (f k n x).finish else s

end Sys2Proof.Machine
end

