-- ==== Sys2Proof/Machine/Flags.lean ====
section
/-! DEFINITION. The flags of this hardware are its predicates: what comparisons and predicate operations write. No instruction sets any
other flag (05 R102, 15 R327). -/

namespace Sys2Proof.Machine

/-- A predicate with every bit equal: all ones where a relation holds, zero where it does not (16 R379). -/
def truth (b p : Bool) : PV := ⟨if b then BitVec.allOnes 32 else 0, p⟩

/-- CMP: less than, signed for .i types and unsigned for .n types (16 R379). -/
def cmpLess (t : IType) (a b : RV) : PV := truth (decide (IType.int t a.v < IType.int t b.v)) (a.p || b.p)

/-- CMPI: equal, over all 64 bits (16 R379). -/
def cmpEqual (a : RV) (imm : Word64) : PV := truth (a.v == imm) a.p

/-- A predicate computed from two. -/
def predBinary (f : Word32 → Word32 → Word32) (a b : PV) : PV := ⟨f a.v b.v, a.p || b.p⟩

/-- A predicate computed from one. -/
def predUnary (f : Word32 → Word32) (a : PV) : PV := ⟨f a.v, a.p⟩

/-- An F-slot predicate write under a per-bit guard: bits whose guard fails keep their old value; the predicate is poisoned where a written
bit is, where the guard is, or where it was and a bit stays (12 R300). -/
def predMerge (old new : PV) (lanes : Word32) (guardPsn : Bool) : PV :=
  ⟨(new.v &&& lanes) ||| (old.v &&& ~~~lanes),
    (lanes != 0 && (new.p || guardPsn)) || (old.p && lanes != BitVec.allOnes 32)⟩

/-- An operation of the F slot that writes a pv predicate, bit by bit under its guard. -/
def pvResult (s : State) (g : Guard) (d : Reg5) (lat : Nat) (v : PV) : Host.Outcome State Fault Refusal :=
  slotOp s fun _ _ _ =>
    s.writeP .pv d (predMerge (s.bun.old.getPv d.toNat) v (Guard.lanes g s.bun.old) (Guard.psn g .pv s.bun.old)) lat

end Sys2Proof.Machine
end

