-- ==== Sys2Proof/Machine/Alu.lean ====
section
/-! DEFINITION. Integer arithmetic of the C, I0 and I1 slots (15 to 19): one meaning per instruction over iResult, cResult and pResult. -/

namespace Sys2Proof.Machine

/-- Fit of a number (15 R327). -/
def fitInt (t : IType) (i : Int) : Word64 := IType.fit t (ofInt i)
/-- The low w bits of a value as an unsigned number. -/
def IType.low (t : IType) (v : Word64) : Nat := v.toNat % 2 ^ IType.width t
/-- The low w bits of a value as a signed number. -/
def IType.slow (t : IType) (v : Word64) : Int := (BitVec.ofNat (IType.width t) v.toNat).toInt

/-- SHL (18 R465). -/
def shlW (t : IType) (a s : Word64) : Word64 :=
  if IType.width t ≤ s.toNat then IType.fit t 0 else IType.fit t (BitVec.ofNat 64 (IType.low t a * 2 ^ s.toNat))
/-- SHR: logical for every type (18 R465). -/
def shrW (t : IType) (a s : Word64) : Word64 :=
  if IType.width t ≤ s.toNat then IType.fit t 0 else IType.fit t (BitVec.ofNat 64 (IType.low t a / 2 ^ s.toNat))
/-- SRA: arithmetic for every type (18 R465). -/
def sraW (t : IType) (a s : Word64) : Word64 :=
  if IType.width t ≤ s.toNat then fitInt t (if IType.slow t a < 0 then -1 else 0) else fitInt t (IType.slow t a / (2 ^ s.toNat : Nat))
/-- ROTL (18 R465). -/
def rotlW (t : IType) (a s : Word64) : Word64 :=
  let w := IType.width t
  let k := s.toNat % w
  IType.fit t (BitVec.ofNat 64 (IType.low t a * 2 ^ k + IType.low t a / 2 ^ (w - k)))
/-- The set bits of a number below 2^n. -/
def popCount : Nat → Nat → Nat
  | 0, _ => 0
  | n + 1, v => v % 2 + popCount n (v / 2)
/-- POPC (18 R465). -/
def popcW (t : IType) (a : Word64) : Word64 := IType.fit t (BitVec.ofNat 64 (popCount 64 (IType.low t a)))
/-- The zero bits above the highest set bit of the low n bits. -/
def leadingZeros : Nat → Nat → Nat
  | 0, _ => 0
  | n + 1, v => if v / 2 ^ n % 2 = 1 then 0 else 1 + leadingZeros n v
/-- CLZ (16 R376). -/
def clzW (t : IType) (a : Word64) : Word64 := BitVec.ofNat 64 (leadingZeros (IType.width t) (IType.low t a))
/-- ABS (15 R337). -/
def absW (t : IType) (a : Word64) : Word64 := fitInt t (if IType.slow t a < 0 then -IType.slow t a else IType.slow t a)
/-- MUL (17 R449). -/
def mulW (t : IType) (a b : Word64) : Word64 := fitInt t (IType.int t a * IType.int t b)
/-- MULH (17 R449). -/
def mulhW (t : IType) (a b : Word64) : Word64 := fitInt t (IType.int t a * IType.int t b / (2 ^ IType.width t : Nat))
/-- DIV (16 R381); the quotient is truncated toward zero. The most negative number over −1 gives itself, as Fit does of the exact quotient. -/
def divW (t : IType) (a b : Word64) : Word64 :=
  if IType.int t b = 0 then fitInt t ((2 ^ IType.width t - 1 : Nat) : Int) else fitInt t (Int.tdiv (IType.int t a) (IType.int t b))
/-- REM (18 R485). -/
def remW (t : IType) (a b : Word64) : Word64 :=
  if IType.int t b = 0 then fitInt t (IType.int t a) else fitInt t (Int.tmod (IType.int t a) (IType.int t b))
/-- MIN (17 R420). -/
def minW (t : IType) (a b : Word64) : Word64 := fitInt t (if IType.int t a ≤ IType.int t b then IType.int t a else IType.int t b)
/-- MAX (17 R420). -/
def maxW (t : IType) (a b : Word64) : Word64 := fitInt t (if IType.int t b ≤ IType.int t a then IType.int t a else IType.int t b)
/-- BFX (15 R350). -/
def bfxW (a : Word64) (pos len : Nat) (sx : Bool) : Word64 :=
  let f := a.toNat / 2 ^ pos % 2 ^ len
  if sx && decide (2 ^ (len - 1) ≤ f) then ofInt ((f : Int) - (2 ^ len : Nat)) else BitVec.ofNat 64 f
/-- BFI (15 R350). -/
def bfiW (d a : Word64) (pos len : Nat) : Word64 :=
  let m := BitVec.ofNat 64 ((2 ^ len - 1) * 2 ^ pos)
  (d &&& ~~~m) ||| (BitVec.ofNat 64 (a.toNat * 2 ^ pos) &&& m)
/-- The position of a bit field that a register gives. -/
def fieldPos (b : Word64) : Nat := bitsOf b 0 6
/-- Its length. -/
def fieldLen (b : Word64) : Nat := bitsOf b 8 6 + 1
/-- LEA (16 R410). -/
def leaW (a b : Word64) (sh : Nat) (off : Word64) : Word64 := a + BitVec.ofNat 64 (b.toNat * 2 ^ sh) + off
/-- LIH (16 R412). -/
def lihW (d imm : Word64) : Word64 := BitVec.ofNat 64 (imm.toNat % 2 ^ 32 * 2 ^ 32 + d.toNat % 2 ^ 32)

/-- An I-slot instruction of format A with two sources. -/
def aluResult (s : State) (o : OpIA) (lat : Nat) (f : Word64 → Word64 → Word64) : Host.Outcome State Fault Refusal :=
  iResult s o.sl o.g o.d lat (binary s.bun.old o.sl o.a o.b f)
/-- An I-slot instruction of format A with one source. -/
def aluUnary (s : State) (o : OpIA1) (f : Word64 → Word64) : Host.Outcome State Fault Refusal :=
  iResult s o.sl o.g o.d 1 (unary s.bun.old o.sl o.a f)

/-- ADD (15 R341): Integer addition, fitted to the type. -/
def execAdd (o : OpIA) (s : State) : Host.Outcome State Fault Refusal := aluResult s o 1 fun a b => IType.fit o.t (a + b)
/-- SUB (18 R465): Integer subtraction, fitted to the type. -/
def execSub (o : OpIA) (s : State) : Host.Outcome State Fault Refusal := aluResult s o 1 fun a b => IType.fit o.t (a - b)
/-- MUL (17 R449): Low half of an integer product. -/
def execMul (o : OpIA) (s : State) : Host.Outcome State Fault Refusal := aluResult s o 3 (mulW o.t)
/-- MULH (17 R449): High half of an integer product. -/
def execMulh (o : OpIA) (s : State) : Host.Outcome State Fault Refusal := aluResult s o 3 (mulhW o.t)
/-- AND (15 R341): Bitwise AND. -/
def execAnd (o : OpIA) (s : State) : Host.Outcome State Fault Refusal := aluResult s o 1 fun a b => IType.fit o.t (a &&& b)
/-- OR (18 R465): Bitwise OR. -/
def execOr (o : OpIA) (s : State) : Host.Outcome State Fault Refusal := aluResult s o 1 fun a b => IType.fit o.t (a ||| b)
/-- XOR (19 R553): Bitwise XOR. -/
def execXor (o : OpIA) (s : State) : Host.Outcome State Fault Refusal := aluResult s o 1 fun a b => IType.fit o.t (a ^^^ b)
/-- ANDN (15 R341): Bitwise AND with the complement of the second source. -/
def execAndn (o : OpIA) (s : State) : Host.Outcome State Fault Refusal := aluResult s o 1 fun a b => IType.fit o.t (a &&& ~~~b)
/-- SHL (18 R465): Logical shift left. -/
def execShl (o : OpIA) (s : State) : Host.Outcome State Fault Refusal := aluResult s o 1 (shlW o.t)
/-- SHR (18 R465): Logical shift right. -/
def execShr (o : OpIA) (s : State) : Host.Outcome State Fault Refusal := aluResult s o 1 (shrW o.t)
/-- SRA (18 R465): Arithmetic shift right. -/
def execSra (o : OpIA) (s : State) : Host.Outcome State Fault Refusal := aluResult s o 1 (sraW o.t)
/-- ROTL (18 R465): Rotate left within the type width. -/
def execRotl (o : OpIA) (s : State) : Host.Outcome State Fault Refusal := aluResult s o 1 (rotlW o.t)
/-- MIN (17 R420): Integer minimum. -/
def execMin (o : OpIA) (s : State) : Host.Outcome State Fault Refusal := aluResult s o 1 (minW o.t)
/-- MAX (17 R420): Integer maximum. -/
def execMax (o : OpIA) (s : State) : Host.Outcome State Fault Refusal := aluResult s o 1 (maxW o.t)
/-- CLZ (16 R376): Count of leading zero bits. -/
def execClz (o : OpIA1) (s : State) : Host.Outcome State Fault Refusal := aluUnary s o (clzW o.t)
/-- POPC (18 R465): Population count. -/
def execPopc (o : OpIA1) (s : State) : Host.Outcome State Fault Refusal := aluUnary s o (popcW o.t)
/-- ABS (15 R337): Integer absolute value. -/
def execAbs (o : OpIA1) (s : State) : Host.Outcome State Fault Refusal := aluUnary s o (absW o.t)

/-- A divide: its slot's divider is busy for 20 cycles, and one that finds it busy stalls the bundle (16 R382). -/
def divideResult (s : State) (o : OpIA) (f : Word64 → Word64 → Word64) : Host.Outcome State Fault Refusal :=
  slotOp s fun k _ _ =>
    if Guard.ok o.g .pi s.bun.old then
      if s.cycle < (if ISlot.y o.sl then k.div1 else k.div0) then s.stall
      else
        (s.writeXY (ISlot.y o.sl) o.d ((binary s.bun.old o.sl o.a o.b f).taint (Guard.psn o.g .pi s.bun.old)) 20).updCore s.cur fun k =>
          if ISlot.y o.sl then { k with div1 := s.cycle + 20 } else { k with div0 := s.cycle + 20 }
    else s

/-- DIV (16 R381): Integer quotient truncated toward zero; never traps. -/
def execDiv (o : OpIA) (s : State) : Host.Outcome State Fault Refusal := divideResult s o (divW o.t)
/-- REM (18 R485): Integer remainder with the sign of the dividend. -/
def execRem (o : OpIA) (s : State) : Host.Outcome State Fault Refusal := divideResult s o (remW o.t)

/-- ADDI_I (15 R345): I-slot addition of a register and IMM9. -/
def execAddiI (o : OpIB) (s : State) : Host.Outcome State Fault Refusal :=
  iResult s o.sl o.g o.d 1 (unary s.bun.old o.sl o.a fun a => a + sext o.imm)
/-- ADDI_I_64 (15 R345): I-slot ADDI with an IMM32 extension word. -/
def execAddiI64 (o : OpIB64) (s : State) : Host.Outcome State Fault Refusal :=
  iResult s o.sl o.g o.d 1 (unary s.bun.old o.sl o.a fun a => a + sext o.imm)

/-- SEL of two registers by a predicate of bank pi (18 R492). -/
def selValue (r : Regs) (sl : ISlot) (p : Nat) (a b : Reg5) : RV :=
  ⟨if (r.getPi p).v.getLsbD 0 then (r.getI sl a).v else (r.getI sl b).v, (r.getPi p).p || (r.getI sl a).p || (r.getI sl b).p⟩

/-- SEL (18 R492): Selects one of two registers by bit 0 of a pi predicate. -/
def execSel (o : OpSel) (s : State) : Host.Outcome State Fault Refusal :=
  iResult s o.sl o.g o.d 1 (selValue s.bun.old o.sl o.p.toNat o.a o.b)
/-- SEL_64 (18 R492): SEL with a 5-bit predicate index in the extension word. -/
def execSel64 (o : OpSel64) (s : State) : Host.Outcome State Fault Refusal :=
  iResult s o.sl o.g o.d 1 (selValue s.bun.old o.sl o.p.toNat o.a o.b)

/-- LI_I (16 R412): Loads a sign-extended IMM14 into an x or y register. -/
def execLiI (o : OpIU) (s : State) : Host.Outcome State Fault Refusal := iResult s o.sl o.g o.d 1 ⟨sext o.imm, false⟩
/-- LI_I_64 (16 R412): I-slot LI with an IMM32 extension word. -/
def execLiI64 (o : OpIU64) (s : State) : Host.Outcome State Fault Refusal := iResult s o.sl o.g o.d 1 ⟨sext o.imm, false⟩
/-- LIH (16 R412): Sets bits [63:32] of the destination from an immediate. -/
def execLih (o : OpIU) (s : State) : Host.Outcome State Fault Refusal :=
  iResult s o.sl o.g o.d 1 (unary s.bun.old o.sl o.d fun d => lihW d (sext o.imm))
/-- LIH_64 (16 R412): LIH with an IMM32 extension word. -/
def execLih64 (o : OpIU64) (s : State) : Host.Outcome State Fault Refusal :=
  iResult s o.sl o.g o.d 1 (unary s.bun.old o.sl o.d fun d => lihW d (sext o.imm))

/-- LEA (16 R410): Computes a base plus a shifted index. -/
def execLea (o : OpLea) (s : State) : Host.Outcome State Fault Refusal :=
  iResult s o.sl o.g o.d 1 (binary s.bun.old o.sl o.a o.b fun a b => leaW a b o.sh.toNat 0)
/-- LEA_64 (16 R410): LEA with an OFF32 extension word. -/
def execLea64 (o : OpLea64) (s : State) : Host.Outcome State Fault Refusal :=
  iResult s o.sl o.g o.d 1 (binary s.bun.old o.sl o.a o.b fun a b => leaW a b o.sh.toNat (sext o.off))

/-- BFX (15 R350): Extracts a bit field whose position and length come from a register. -/
def execBfx (o : OpBfx) (s : State) : Host.Outcome State Fault Refusal :=
  iResult s o.sl o.g o.d 1 (binary s.bun.old o.sl o.a o.b fun a b => bfxW a (fieldPos b) (fieldLen b) o.sx)
/-- BFX_IMM (15 R350): BFX with immediate position and length in the extension word. -/
def execBfxImm (o : OpBfxImm) (s : State) : Host.Outcome State Fault Refusal :=
  iResult s o.sl o.g o.d 1 (unary s.bun.old o.sl o.a fun a => bfxW a o.pos.toNat (o.lm1.toNat + 1) o.sx)
/-- BFI (15 R350): Inserts a bit field whose position and length come from a register. -/
def execBfi (o : OpBfi) (s : State) : Host.Outcome State Fault Refusal :=
  let d := s.bun.old.getI o.sl o.d
  iResult s o.sl o.g o.d 1 ((binary s.bun.old o.sl o.a o.b fun a b => bfiW d.v a (fieldPos b) (fieldLen b)).taint d.p)
/-- BFI_IMM (15 R350): BFI with immediate position and length in the extension word. -/
def execBfiImm (o : OpBfiImm) (s : State) : Host.Outcome State Fault Refusal :=
  iResult s o.sl o.g o.d 1 (binary s.bun.old o.sl o.d o.a fun d a => bfiW d a o.pos.toNat (o.lm1.toNat + 1))

/-- XMOV_I (19 R551): Copies an x, y or c register into an x or y register. -/
def execXmovI (o : OpXmovI) (s : State) : Host.Outcome State Fault Refusal := iResult s o.sl o.g o.d 2 (s.bun.old.getFile o.sf o.a)

/-- CMP_I (16 R379): I-slot less-than comparison into a pi predicate. -/
def execCmpI (o : OpIA) (s : State) : Host.Outcome State Fault Refusal :=
  pResult s o.g .pi o.d 1 (cmpLess o.t (s.bun.old.getI o.sl o.a) (s.bun.old.getI o.sl o.b))
/-- CMPI_I (16 R379): I-slot equality comparison with IMM9 into a pi predicate. -/
def execCmpiI (o : OpIB) (s : State) : Host.Outcome State Fault Refusal :=
  pResult s o.g .pi o.d 1 (cmpEqual (s.bun.old.getI o.sl o.a) (sext o.imm))
/-- CMPI_I_64 (16 R379): I-slot CMPI with an IMM32 extension word. -/
def execCmpiI64 (o : OpIB64) (s : State) : Host.Outcome State Fault Refusal :=
  pResult s o.g .pi o.d 1 (cmpEqual (s.bun.old.getI o.sl o.a) (sext o.imm))

/-- CMP_C (16 R379): C-slot less-than comparison of c registers into a pk predicate. -/
def execCmpC (o : OpCmpC) (s : State) : Host.Outcome State Fault Refusal :=
  pResult s o.g .pk o.d 1 (cmpLess o.t (s.bun.old.getC o.a.toNat) (s.bun.old.getC o.b.toNat))
/-- CMPI_C (16 R379): C-slot equality comparison of a c register with IMM9 into a pk predicate. -/
def execCmpiC (o : OpCmpiC) (s : State) : Host.Outcome State Fault Refusal :=
  pResult s o.g .pk o.d 1 (cmpEqual (s.bun.old.getC o.a.toNat) (sext o.imm))
/-- CMPI_C_64 (16 R379): C-slot CMPI with an IMM32 extension word. -/
def execCmpiC64 (o : OpCmpiC64) (s : State) : Host.Outcome State Fault Refusal :=
  pResult s o.g .pk o.d 1 (cmpEqual (s.bun.old.getC o.a.toNat) (sext o.imm))

/-- ADDI in the C slot (15 R345). -/
def addiCResult (s : State) (g : Guard) (d a : CReg) (imm : Word64) : Host.Outcome State Fault Refusal :=
  cResult s g d 1 ⟨(s.bun.old.getC a.toNat).v + imm, (s.bun.old.getC a.toNat).p⟩

/-- ADDI_C (15 R345): C-slot addition of a c register and IMM9. -/
def execAddiC (o : OpAddiC) (s : State) : Host.Outcome State Fault Refusal := addiCResult s o.g o.d o.a (sext o.imm)
/-- ADDI_C_64 (15 R345): C-slot ADDI with an IMM32 extension word. -/
def execAddiC64 (o : OpAddiC64) (s : State) : Host.Outcome State Fault Refusal := addiCResult s o.g o.d o.a (sext o.imm)
/-- LI_C (16 R412): Loads a sign-extended IMM14 into a c register. -/
def execLiC (o : OpLiC) (s : State) : Host.Outcome State Fault Refusal := cResult s o.g o.d 1 ⟨sext o.imm, false⟩
/-- LI_C_64 (16 R412): C-slot LI with an IMM32 extension word. -/
def execLiC64 (o : OpLiC64) (s : State) : Host.Outcome State Fault Refusal := cResult s o.g o.d 1 ⟨sext o.imm, false⟩
/-- XMOV_C (19 R551): Copies an x, y or c register into a c register. -/
def execXmovC (o : OpXmovC) (s : State) : Host.Outcome State Fault Refusal := cResult s o.g o.d 2 (s.bun.old.getFile o.sf o.a)

end Sys2Proof.Machine
end

