-- ==== Sys2Proof/Machine/Order.lean ====
section
/-! DEFINITION. The order of memory accesses: which engine commands of a context are not complete and on which paths they access memory
(11 R263, R264), what a release waits for (11 R271, R273). Path masks have the bit order of 11 Table 1: I, V, Q, M, F, K. -/

namespace Sys2Proof.Machine

/-- The stream register that an MBLD, MZST or MZLD names. -/
def MKind.memReg : MKind → Option Nat
  | .mbld q _ => some q
  | .mzst _ q => some q
  | .mzld _ q => some q
  | .mma _ _ _ _ => none
  | .mtrn _ _ => none
  | .mbfly _ _ _ _ => none
  | .mtwid _ _ => none
  | .mfmt _ _ _ => none
  | .mdrain => none
  | .mzrd _ _ _ _ => none
  | .mzwr _ _ _ _ _ => none
  | .mzero _ => none

/-- The stream register that a matrix operation takes from or gives to. -/
def MKind.reg : MKind → Option Nat
  | .mma _ _ q _ => some q
  | .mbld q _ => some q
  | .mzst _ q => some q
  | .mzld _ q => some q
  | .mtrn _ _ => none
  | .mbfly _ _ _ _ => none
  | .mtwid _ _ => none
  | .mfmt _ _ _ => none
  | .mdrain => none
  | .mzrd _ _ _ _ => none
  | .mzwr _ _ _ _ _ => none
  | .mzero _ => none

/-- The stream register bound to a port: 0 to 3 GIN, 4 and 5 GOUT. -/
def bindOf (bind : Word64) (p : Nat) : Option Nat := if bind.getLsbD (5 * p + 4) then some (bitsOf bind (5 * p) 4) else none

/-- The registers that a binding word binds. -/
def boundRegs (b : Word64) : List Nat := (List.range 6).filterMap (bindOf b)

/-- The stream registers that a command names; a stash command counts as naming register 15 (10 R243). -/
def QKind.names : QKind → List Nat
  | .qset q _ => [q]
  | .strm q _ _ => [q]
  | .qcopy _ _ _ => []
  | .qccopy _ _ _ => []
  | .qrcopy _ _ _ => []
  | .gcfg _ _ _ => []
  | .grun b _ _ => boundRegs b
  | .qsave _ => []
  | .stash _ _ _ => [15]

/-- Whether a command is a GCFG. -/
def QKind.isGcfg : QKind → Bool
  | .gcfg _ _ _ => true
  | .qset _ _ | .strm _ _ _ | .qcopy _ _ _ | .qccopy _ _ _ | .qrcopy _ _ _ | .grun _ _ _ | .qsave _ | .stash _ _ _ => false
/-- Whether a command is a GRUN. -/
def QKind.isGrun : QKind → Bool
  | .grun _ _ _ => true
  | .qset _ _ | .strm _ _ _ | .qcopy _ _ _ | .qccopy _ _ _ | .qrcopy _ _ _ | .gcfg _ _ _ | .qsave _ | .stash _ _ _ => false
/-- The matrix operations that have been issued and are not complete. -/
def Matrix.live (m : Matrix) : List MOp := m.run ++ m.port ++ m.queue

/-- Whether a stream that starts now on a register is on path M (11 R264). -/
def Core.pathM (k : Core) (n q : Nat) : Bool := k.mx.live.any fun o => o.ctx == n && !o.fin && MKind.memReg o.kind == some q

/-- The path of a stream command's accesses, where it starts now. -/
def QKind.path (k : Core) (n : Nat) : QKind → Nat
  | .qset _ _ => 4
  | .strm q _ _ => if k.pathM n q then 8 else 4
  | .qcopy _ _ _ => 32
  | .qccopy _ _ _ => 32
  | .qrcopy _ _ _ => 16
  | .gcfg _ _ _ => 4
  | .grun _ _ _ => 0
  | .qsave _ => 4
  | .stash _ _ _ => 0

/-- The path of a channel command's accesses. -/
def YKind.path : YKind → Nat
  | .chsend _ => 16
  | .chrecv _ => 0
  | .chstart _ => 16
  | .chabort _ => 0
  | .semadd _ _ => 0
  | .drain => 0
  | .step _ => 0

/-- The paths that a stream command not yet complete may have its accesses on: a stream's path is known once it has started (11 R264). -/
def QKind.mayPath (k : Core) (n : Nat) (q : QKind) : Nat :=
  match q with
  | .strm _ _ _ => 12
  | .qset _ _ | .qcopy _ _ _ | .qccopy _ _ _ | .qrcopy _ _ _ | .gcfg _ _ _ | .grun _ _ _ | .qsave _ | .stash _ _ _ => QKind.path k n q

/-- The engine commands of a context that are not complete, each with the mask of its paths. -/
def Core.live (k : Core) (n : Nat) : List (Nat × Nat) :=
  ((k.mx.live.filter fun o => o.ctx = n && !o.fin).map fun o => (o.id, if (MKind.memReg o.kind).isSome then 8 else 0))
    ++ ((k.qcmds.filter fun c => c.ctx = n).map fun c => (c.id, QKind.mayPath k n c.kind))
    ++ ((k.ycmds.filter fun c => c.ctx = n).map fun c => (c.id, YKind.path c.kind))
    ++ (k.sregs.filterMap fun kv =>
      match kv.2.bind (·.strm) with
      | none => none
      | some t => if t.ctx = n then some (t.id, if t.pathM then 8 else 4) else none)
    ++ (k.chans.flatMap fun kv =>
      match kv.2 with
      | none => []
      | some h =>
        (match h.run with | none => [] | some r => if r.ctx = n then [(r.id, 16)] else [])
          ++ (match h.pend with | none => [] | some y => if y.ctx = n then [(y.id, 16)] else []))

/-- Whether two masks have a path in common. -/
def meets (a b : Nat) : Bool := a &&& b != 0

/-- Whether a context is in the routine of a STREAM_FAULT whose ERET is to resume what stands stopped. -/
def Core.inStreamFault (k : Core) (n : Nat) : Bool := (k.ctx? n).any fun x => x.sr.tmode && x.resume.isSome

/-- The stream registers of a context whose streams stand stopped by a fault, or go on only with one that does: one more link of the chain through
the matrix queue, which is in order, and through the grid. -/
def Core.stuckRegs (k : Core) (rs : List Nat) : List Nat :=
  let ops := k.mx.live.dropWhile fun o => !(match MKind.reg o.kind with | none => false | some q => rs.contains q)
  let run := match k.grid.run with
    | none => []
    | some r => if (boundRegs r.bind).any rs.contains then boundRegs r.bind else []
  (rs ++ ops.filterMap (fun o => MKind.reg o.kind) ++ run).dedup

/-- The commands of a core that can complete only after the ERET that resumes what stands stopped by a fault: the stopped ones, the operations and
runs that take from or give to their streams, and the commands that must start after these. -/
def Core.stuck (k : Core) : List Nat :=
  let stopped := k.sregs.filterMap fun kv =>
    match kv.2.bind (·.strm) with
    | none => none
    | some t => if t.faulted then some kv.1 else none
  let rs := (List.range 16).foldl (fun l _ => k.stuckRegs l) stopped
  let ops := k.mx.live.dropWhile fun o => !(match MKind.reg o.kind with | none => false | some q => rs.contains q)
  let load := match k.grid.load with | none => [] | some l => if l.faulted then [l.id] else []
  let run := match k.grid.run with
    | none => []
    | some r => if (boundRegs r.bind).any rs.contains then [r.id] else []
  let strms := k.sregs.filterMap fun kv =>
    match kv.2.bind (·.strm) with
    | none => none
    | some t => if rs.contains kv.1 then some t.id else none
  let q := k.qcmds.foldl (fun (a : List Nat × List Nat × Bool) c =>
    let onGrid := QKind.isGcfg c.kind || QKind.isGrun c.kind
    if c.faulted || (QKind.names c.kind).any a.2.1.contains || (onGrid && a.2.2) then
      (a.1 ++ [c.id], a.2.1 ++ QKind.names c.kind, a.2.2 || onGrid) else a) ([], rs, !(load ++ run).isEmpty)
  (ops.map fun o => o.id) ++ strms ++ load ++ run ++ q.1 ++ (k.ycmds.filter fun y => y.faulted).map fun y => y.id

/-- The commands of a context with accesses on a path of a mask that are not complete: a FENCE waits for them (11 R273). -/
def Core.pending (k : Core) (n mask : Nat) : List Nat := (k.live n).filterMap fun c => if meets c.2 mask then some c.1 else none

/-- Those of them that another release waits for. In the routine of a STREAM_FAULT it does not wait for those that only its ERET lets complete (DEDUCED,
log entry 30: the routine of 20 R560 performs a STREL before the ERET that resumes the stopped gather). -/
def Core.pendingOn (k : Core) (n mask : Nat) : List Nat :=
  if k.inStreamFault n then (k.pending n mask).filter fun i => !k.stuck.contains i else k.pending n mask

/-- The rows of flow sends that have not ended (08 R199) and that `sel` chooses. -/
def State.openRows (s : State) (sel : SendRow → Bool) : List Nat :=
  (s.rows.filter fun kv =>
    match kv.2 with
    | none => false
    | some r => !r.lost && sel r).map (·.1)

/-- Those of a context that go to the host or to a link port (11 R271). -/
def State.rowsOut (s : State) (c n : Nat) : List Nat := s.openRows fun r => r.core == c && r.ctx == n && r.ext

/-- The scopes of the halves of a FENCE (11 R272): K raises the other half to module; 0 where the mask of a half is empty. -/
def fenceScopes (pred succ : BitVec 6) (scope : Nat) : Nat × Nat :=
  (if pred = 0 then 0 else if succ.getLsbD 5 then max 4 scope else scope,
   if succ = 0 then 0 else if pred.getLsbD 5 then max 4 scope else scope)

/-- A release at a scope, by the bundle that executes, after the commands that `pend` names (11 R271, R273, R277): the context stalls in place until
they have completed, then until the write-backs of the release half have performed; at system scope until its rows to the host and to link ports have
ended, too. -/
def State.releaseAfter (s : State) (pend : Core → Nat → List Nat) (scope : Nat) : Try State :=
  match s.issuer with
  | none => .wait s
  | some (k, n, _) =>
    -- the commands of the bundle's other slots are not earlier ones (11 R265)
    if s.bun.performs then s.releaseHalf scope
    else if !(pend k n).isEmpty then .wait s.stall
    else if scope = 5 && !(s.rowsOut s.cur n).isEmpty then .wait s.stall
    else s.releaseHalf scope

/-- The release of a STREL, an atomic or a LAUNCH, after its context's commands with accesses on some paths. -/
def State.releaseAll (s : State) (mask scope : Nat) : Try State := s.releaseAfter (fun k n => k.pendingOn n mask) scope

/-- The words of `n` bytes at an address. -/
def wordsAt (a n : Nat) : List Nat := (List.range ((n + 3) / 4)).map fun i => a + 4 * i

/-- What an atomic, an LDACQ or a STREL does to its words before it performs (11 R276, 15 R334). -/
def State.evictWords (s : State) (c a n : Nat) (l : Leaf) : State :=
  let s := s.forEach (wordsAt a n) fun s w => s.evictWord c w { l with pa := l.pa - a % 256 + w % 256 }
  s.updCore c fun k => k.mapCtxs fun _ x => { x with watch := wordsWatch x.watch (a / 256) ((wordsAt a n).map fun w => w % 256 / 4) }

end Sys2Proof.Machine
end

