-- ==== Sys2Proof/Machine/Atomics.lean ====
section
/-! DEFINITION. The atomics of the Y slot (15 R328 to R334, 11 R276, R277). -/

namespace Sys2Proof.Machine

/-- The 32-bit form: offset 0, a signed type. -/
def OpAtom.op (f : AtomFn) (o : OpAtom) : AtomOp := ⟨f, o.g, o.d, o.a, o.b, 0, o.fs, o.ord, o.w, false, 0⟩
/-- The 64-bit form. -/
def OpAtom64.op (f : AtomFn) (o : OpAtom64) : AtomOp := ⟨f, o.g, o.d, o.a, o.b, o.c, o.fs, o.ord, o.w, o.uns, sext o.off⟩

/-- The type of the access. -/
def AtomOp.type (o : AtomOp) : IType :=
  match o.w, o.uns with
  | false, false => .i32
  | true, false => .i64
  | false, true => .n32
  | true, true => .n64

/-- The new value of the word, before it is cut to its width; none: nothing is written (15 R331). -/
def AtomOp.result (o : AtomOp) (old b cmp : Word64) : Option Word64 :=
  let t := AtomOp.type o
  match o.fn with
  | .add => some (old + b)
  | .and => some (old &&& b)
  | .or => some (old ||| b)
  | .xor => some (old ^^^ b)
  | .min => some (if IType.int t old ≤ IType.int t b then old else b)
  | .max => some (if IType.int t b ≤ IType.int t old then old else b)
  | .swp => some b
  | .cas => if IType.fit t old = IType.fit t cmp then some b else none

/-- Whether the words written are poisoned (15 R331). -/
def AtomOp.taints (o : AtomOp) (old b cmp : Bool) : Bool :=
  match o.fn with
  | .swp => b
  | .cas => b || cmp || old
  | .add | .and | .or | .xor | .min | .max => b || old

/-- The effective address (15 R330). -/
def AtomOp.addr (o : AtomOp) (r : Regs) : Nat := effAddr (r.getXY o.fs o.a.toNat).v o.off

/-- An atomic as its bundle has read it. -/
def AtomOp.ready (o : AtomOp) (r : Regs) (l : Leaf) : ReadyAtomic := ⟨o, o.addr r, l, r.getXY o.fs o.b.toNat, r.getXY o.fs o.c.toNat, Guard.psn o.g .pk r⟩

/-- An atomic of a context performs, in one step, one access of its home slice (10 R247, 11 R276); its old value returns to D no earlier than 16 cycles
later. -/
def State.atomLand (s : State) (c n : Nat) (y : ReadyAtomic) : State :=
  let t := AtomOp.type y.op
  let size := IType.bytes t
  let s := s.evictWords c y.at' size y.leaf
  match s.homeRead (s.access c y.leaf.ed y.at') y.leaf.pa size with
  | (s, old, psn) =>
    let old := BitVec.ofNat 64 old
    let s := match y.op.result old y.b.v y.cmp.v with
      | none => s
      | some v => s.homePut { s.access c y.leaf.ed y.at' with range := none } y.leaf.pa size v.toNat (y.op.taints psn y.b.p y.cmp.p || y.gp)
    let s := s.updCtx c n fun x =>
      { x with atomics := x.atomics ++ [⟨y.op.fs, y.op.d.toNat, ⟨IType.fit t old, psn || y.gp⟩, y.op.ord.getLsbD 0⟩], watch := storeWatch x.watch y.at' size }
    s.postOpen 16 (.atomicResponse c n)

/-- An atomic that has waited for the other slots of its bundle performs (15 R334). -/
def State.landLate (s : State) (c n : Nat) : State :=
  match (s.ctx? c n).bind (·.late) with
  | none => s
  | some y => (s.updCtx c n fun x => { x with late := none }).atomLand c n y

/-- Whether a write of an MTSR to CRCTLk or NOTSTAT of a partition, which an atomic comes after (15 R334), is still to act in this cycle. -/
def State.writesDue (s : State) (p : Nat) : Bool :=
  s.agenda.any fun a =>
    match a.2 with
    | .crctlWrite q _ _ | .notstatWrite q _ => q == p && decide (a.1 ≤ s.cycle)
    | _ => false

/-- An atomic whose checks have passed and whose release half is complete: it performs with its bundle, but after every other slot of it (15 R334): where one
of those holds the context in place and has still to perform (a LAUNCH, a TLBI, an EVAC, an MCFG, a QREST), once the context goes on; where an MTSR writes
CRCTLk or NOTSTAT, after that write. -/
def atomPerform (s : State) (n : Nat) (o : AtomOp) (l : Leaf) : State :=
  if ((s.ctx? s.cur n).map Ctx.held) == some true || s.writesDue (s.partOf s.cur) then s.updCtx s.cur n fun x => { x with late := some (o.ready s.bun.old l) }
  else s.atomLand s.cur n (o.ready s.bun.old l)

/-- An atomic. -/
def atomicOp (s : State) (o : AtomOp) : Host.Outcome State Fault Refusal :=
  guarded s o.g .pk fun _ n _ =>
    let r := s.bun.old
    (s.checkAddr (r.getXY o.fs o.a.toNat) (o.addr r) (IType.bytes (AtomOp.type o)) true).bind fun s _ =>
      match s.translate s.cur (o.addr r) .write with
      | (s, .fault cause info) => .trap s cause info
      | (s, .leaf l) =>
        if o.ord.getLsbD 1 then (s.releaseAll 63 4).bind fun s _ => .ok s (atomPerform s n o l)
        else .ok s (atomPerform s n o l)

/-- AADD (15 R331): Atomic add at the home slice. -/
def execAadd (o : OpAtom) (s : State) : Host.Outcome State Fault Refusal := atomicOp s (OpAtom.op .add o)
/-- AADD_64 (15 R331): AADD with an offset and UNS in the extension word. -/
def execAadd64 (o : OpAtom64) (s : State) : Host.Outcome State Fault Refusal := atomicOp s (OpAtom64.op .add o)
/-- AAND (15 R331): Atomic AND. -/
def execAand (o : OpAtom) (s : State) : Host.Outcome State Fault Refusal := atomicOp s (OpAtom.op .and o)
/-- AAND_64 (15 R331): AAND with an extension word. -/
def execAand64 (o : OpAtom64) (s : State) : Host.Outcome State Fault Refusal := atomicOp s (OpAtom64.op .and o)
/-- AOR (15 R331): Atomic OR. -/
def execAor (o : OpAtom) (s : State) : Host.Outcome State Fault Refusal := atomicOp s (OpAtom.op .or o)
/-- AOR_64 (15 R331): AOR with an extension word. -/
def execAor64 (o : OpAtom64) (s : State) : Host.Outcome State Fault Refusal := atomicOp s (OpAtom64.op .or o)
/-- AXOR (15 R331): Atomic XOR. -/
def execAxor (o : OpAtom) (s : State) : Host.Outcome State Fault Refusal := atomicOp s (OpAtom.op .xor o)
/-- AXOR_64 (15 R331): AXOR with an extension word. -/
def execAxor64 (o : OpAtom64) (s : State) : Host.Outcome State Fault Refusal := atomicOp s (OpAtom64.op .xor o)
/-- AMIN (15 R331): Atomic minimum. -/
def execAmin (o : OpAtom) (s : State) : Host.Outcome State Fault Refusal := atomicOp s (OpAtom.op .min o)
/-- AMIN_64 (15 R331): AMIN with an extension word. -/
def execAmin64 (o : OpAtom64) (s : State) : Host.Outcome State Fault Refusal := atomicOp s (OpAtom64.op .min o)
/-- AMAX (15 R331): Atomic maximum. -/
def execAmax (o : OpAtom) (s : State) : Host.Outcome State Fault Refusal := atomicOp s (OpAtom.op .max o)
/-- AMAX_64 (15 R331): AMAX with an extension word. -/
def execAmax64 (o : OpAtom64) (s : State) : Host.Outcome State Fault Refusal := atomicOp s (OpAtom64.op .max o)
/-- ASWP (15 R331): Atomic swap. -/
def execAswp (o : OpAtom) (s : State) : Host.Outcome State Fault Refusal := atomicOp s (OpAtom.op .swp o)
/-- ASWP_64 (15 R331): ASWP with an extension word. -/
def execAswp64 (o : OpAtom64) (s : State) : Host.Outcome State Fault Refusal := atomicOp s (OpAtom64.op .swp o)
/-- ACAS (15 R331): Atomic compare-and-swap. -/
def execAcas (o : OpAtom64) (s : State) : Host.Outcome State Fault Refusal := atomicOp s (OpAtom64.op .cas o)

/-- ATOMIC_RESPONSE: the old value of the context's oldest atomic in flight is written; codes 1 and 3 take their acquire half (15 R333). -/
def execAtomicResponse (s : State) : Host.Outcome State Fault Refusal :=
  match s.ev with
  | .atomicResponse c n =>
    match (s.ctx? c n).bind fun x => x.atomics.head? with
    | none => .next s
    | some f =>
      let s := s.updCtx c n fun x => { x.putXY s.cycle f.y f.d f.old 0 with atomics := x.atomics.drop 1 }
      .next (if f.acquire then s.acquireBy c n 4 else s)
  | _ => .next s

end Sys2Proof.Machine
end

