-- ==== Sys2Proof/Machine/Engine.lean ====
section
/-! DEFINITION. What the engines of a core share: their accesses to memory (10 R239, R240, 11 R266), the faults they report (07 R173 to R175, 18 R461),
waking those that wait, the FENCEs that hold them (11 R273), the poison that kills (12 R301). -/

namespace Sys2Proof.Machine

/-- What an access of an engine comes to. -/
inductive Got (α : Type) where
  | got (a : α)
  /-- it awaits a fill, a write-back or a producer -/
  | wait
  | fault (cause addr : Nat)
  /-- an address formed from poison (12 R301 kind 0) -/
  | poison (addr : Nat)

/-- A read of `n` bytes that lie in one block, through the stash or at home: the value and its poison. -/
def State.readVia (s : State) (c : Nat) (home : Bool) (va n : Nat) : State × Got (Nat × Bool) :=
  if 2 ^ 52 < va + n then (s, .fault 0x07 va)
  else
    match s.translate c va .read with
    | (s, .fault cause _) => (s, .fault cause va)
    | (s, .leaf l) =>
      if home then
        match s.homeRead (s.access c l.ed va) l.pa n with
        | (s, v, p) => (s, .got (v, p || l.psn))
      else
        let q := quarterOf c va l.cc
        match ((s.core? q).bind fun k => k.stash.find (va / 256)).bind fun r => if r.2.has (va % 256) n then some r.2 else none with
        | some r => (s, .got (r.data.toNat / 2 ^ (8 * (va % 256)) % 2 ^ (8 * n), l.psn || r.poisoned (va % 256) n))
        | none =>
          match s.ensureRow q (va / 256) l with
          | (s, .full) => (s, .fault 0x0A va)
          | (s, .busy) => (s, .wait)
          | (s, .row _) => (s.requestFill q (va / 256) l, .wait)

/-- A write of `n` bytes that lie in one block, through the stash or at home, on behalf of a context. -/
def State.writeVia (s : State) (c ctx : Nat) (home : Bool) (va n val : Nat) (psn : Bool) : State × Got Unit :=
  if 2 ^ 52 < va + n then (s, .fault 0x07 va)
  else
    match s.translate c va .write with
    | (s, .fault cause _) => (s, .fault cause va)
    | (s, .leaf l) =>
      let done := fun (s : State) => (s.updCtx c ctx fun x => { x with watch := storeWatch x.watch va n }, Got.got ())
      if home then done (s.homePut (s.access c l.ed va) l.pa n val psn)
      else
        let q := quarterOf c va l.cc
        match s.ensureRow q (va / 256) l with
        | (s, .full) => (s, .fault 0x0A va)
        | (s, .busy) => (s, .wait)
        | (s, .row r) => done (s.rowWrite q r (va % 256) n val psn)

/-- `n` bytes read one after another, each by itself. -/
def State.readBytes (s : State) (c : Nat) (home : Bool) (va : Nat) : Nat → State × Got (Nat × Bool)
  | 0 => (s, .got (0, false))
  | n + 1 =>
    match s.readVia c home va 1 with
    | (s, .got (v, p)) =>
      (match s.readBytes c home (va + 1) n with
        | (s, .got (w, q)) => (s, .got (v + 256 * w, p || q))
        | r => r)
    | r => r

/-- The words of `n` consecutive words from an aligned address on. -/
def State.readWords (s : State) (c : Nat) (home : Bool) (va : Nat) : Nat → State × Got (List PWord)
  | 0 => (s, .got [])
  | n + 1 =>
    match s.readVia c home va 4 with
    | (s, .got (v, p)) =>
      (match s.readWords c home (va + 4) n with
        | (s, .got ws) => (s, .got (⟨BitVec.ofNat 32 v, p⟩ :: ws))
        | r => r)
    | (s, .wait) =>
      -- the fills of the words behind it are asked for too
      (match s.readWords c home (va + 4) n with
        | (s, .got _) => (s, .wait)
        | r => r)
    | (s, .fault c a) => (s, .fault c a)
    | (s, .poison a) => (s, .poison a)

/-- `n` bytes written one after another. -/
def State.writeBytes (s : State) (c ctx : Nat) (home : Bool) (va val : Nat) (psn : Bool) : Nat → State × Got Unit
  | 0 => (s, .got ())
  | n + 1 =>
    match s.writeVia c ctx home va 1 val psn with
    | (s, .got _) => s.writeBytes c ctx home (va + 1) (val / 256) psn n
    | r => r

/-! ## Engine commands (04 R83, 03 R58) -/

/-- The slot word of an engine command with its guard fields zero, as a save record holds it (12 R295). -/
def engineWord (i : Instr) : Word32 :=
  match encode i with
  | none => 0
  | some t => t.w &&& ~~~(0x7F#32 <<< 19)

/-- Whether the bundle that executes issues an engine command under a poisoned guard: everything it writes is poisoned (12 R300). -/
def Instr.guardPsn (r : Regs) (i : Instr) : Bool :=
  match Instr.guard i with
  | none => false
  | some g => Guard.psn g .pk r

/-- The wait of a synchronisation word, tested at the issue: met, satisfied before, or armed now (04 R83, 12 R290). -/
def State.syncWait (s : State) (k : Core) (x : Ctx) (sl : Slot) (w : Sync) : Try State :=
  if w.wt = 0 || x.sat.contains sl || (k.sem w.ws.toNat).met w.wt.toNat then .ok s s else .wait (s.arm sl w.ws.toNat w.wt.toNat true)

/-- A context's stream register for a command in a slot: one that it does not own is ILLEGAL_OP (07 R163). -/
def State.ownedReg (s : State) (k : Core) (n q sl op : Nat) : Try State :=
  match (Tab.get none k.sregs q).map fun (r : SReg) => r.alloc && decide (r.owner = n) with
  | some true => .ok s s
  | _ => .trap s 0x01 (illegalInfo sl op true)

/-! ## Stream registers -/

/-- A stream register; FREE where none is held. -/
def Core.sreg (k : Core) (q : Nat) : SReg := (Tab.get none k.sregs q).getD ⟨0, 0, false, none, 0, 0, none⟩
/-- A core with a stream register replaced. -/
def Core.setSreg (k : Core) (q : Nat) (r : SReg) : Core := { k with sregs := Tab.set none k.sregs q (some r) }
/-- The state with a stream register changed. -/
def State.updSreg (s : State) (c q : Nat) (f : SReg → SReg) : State := s.updCore c fun k => k.setSreg q (f (k.sreg q))
/-- The stream of a register changed, where there is one. -/
def State.updStrm (s : State) (c q : Nat) (f : Strm → Strm) : State :=
  s.updSreg c q fun r => { r with strm := r.strm.map f }

/-! ## Waking -/

/-- What waits on a core for memory, a buffer or a start is tried again: streams, copies and stash commands, the loader, the queues. -/
def State.wakeCore (s : State) (c : Nat) : State :=
  match s.core? c with
  | none => s
  | some k =>
    let s := s.forEach (List.range 16) fun s q =>
      match (k.sreg q).strm with
      | none => s
      | some t => if t.faulted then s else s.postOnce 1 (if t.store then .storeStreamElementPerformed c q else .streamDataArrival c q)
    let s := s.forEach (k.qcmds.filter fun q => q.started && !q.faulted) fun s q =>
      match q.kind with
      | .qset r _ => s.postOnce 1 (.qsetCompletion c r)
      | .stash _ _ _ => s.postOnce 1 (.stashCommandCompletion c q.id)
      | .qsave _ => s.postOnce 1 (.qsaveCompletion c q.id)
      | .qcopy _ _ _ | .qccopy _ _ _ | .qrcopy _ _ _ => s.postOnce 1 (.copyCompletion c q.id)
      | .strm _ _ _ | .gcfg _ _ _ | .grun _ _ _ => s
    let s := if (k.grid.load.map fun l => !l.faulted) == some true then s.postOnce 1 (.gcfgLoadEnd c) else s
    let s := if k.qcmds.any fun q => !q.started then s.postOnce 1 (.streamCommandStart c) else s
    let s := if k.mx.queue.isEmpty then s else s.postOnce 1 (.matrixQueueStart c)
    let s := if k.ycmds.isEmpty then s else s.postOnce 1 (.channelCommandStart c)
    let s := s.forEach k.chans fun s kv =>
      match kv.2.bind (·.run) with
      | none => s
      | some _ => s.postOnce 1 (.ringInstanceStart c kv.1)
    s.forEach (List.range 4) fun s n =>
      match (k.ctx? n).map fun (x : Ctx) => (x.hold, x.holdQ) with
      | some (.draftld _ _ _ _ _ _ _, _) => s.postOnce 1 (.draftldCompletion c n)
      | some (_, .qrest _ _ _ _) => s.postOnce 1 (.qrestCompletion c n)
      | _ => s

/-- Every core of a cluster is woken: a row of one of its quarters has changed. -/
def State.wakeCluster (s : State) (c : Nat) : State := s.forEach (clusterCores c) State.wakeCore

/-! ## Faults -/

/-- TRAPINFO of STREAM_FAULT (07 R174). -/
def SFault.info (f : SFault) : Word64 := BitVec.ofNat 64 (f.addr % 2 ^ 52 + f.reg % 16 * 2 ^ 52 + f.cause % 256 * 2 ^ 56)

/-- A fault put among others, lowest register first (07 R174). -/
def addFault (f : SFault) : List SFault → List SFault
  | [] => [f]
  | g :: l => if f.reg < g.reg then f :: g :: l else g :: addFault f l

/-- Whether the launch of a core counts a context as killed. -/
def State.countsKilled (s : State) (c n : Nat) : Bool :=
  match ((s.core? c).bind (·.launch)).bind s.launch? with
  | none => false
  | some q => q.kills.any fun v => v.2.1 == c && v.2.2.1 == n

/-- A kill that a context's launch counts though the context holds its task no longer (07 R175, 12 R301); a context is killed once (02 R47). -/
def State.countKill (s : State) (c n cause : Nat) : State :=
  match (s.core? c).bind (·.launch) with
  | none => s
  | some l => if s.countsKilled c n then s else s.updLaunch l fun q => { q with kills := q.kills ++ [(s.ticks, c, n, cause)] }

/-- A fault is reported to the context that issued the command; after its task has ended it counts as a kill (07 R174, R175). -/
def State.reportFault (s : State) (c n : Nat) (f : SFault) : State :=
  match s.ctx? c n with
  | none => s
  | some x =>
    if x.st = .empty then s.countKill c n 0x0F
    else s.updCtx c n fun x => { x with pend := { x.pend with faults := addFault f x.pend.faults } }.wake s.cycle

/-- Whether a fault of this cause can be resumed (07 R174). -/
def resumable (cause : Nat) : Bool := [0x07, 0x08, 0x09, 0x0A].contains cause

/-- A stream stops at an element (07 R173 to R175): it is FAULTED until ERET resumes it, or cancelled where nothing can resume it. -/
def State.faultStream (s : State) (c q cause addr : Nat) : State :=
  match (s.core? c).bind fun k => (k.sreg q).strm.map fun t => (k.sreg q, t) with
  | none => s
  | some (_, t) =>
    let s := s.updSreg c q fun r => { r with fcause := BitVec.ofNat 8 cause }
    let gone := match s.ctx? c t.ctx with | none => true | some x => x.st = .empty
    let s := s.reportFault c t.ctx ⟨q, cause, addr, 0, t.id⟩
    if resumable cause && !gone then
      s.updSreg c q fun r => { r with st := 3, strm := r.strm.map fun t => { t with faulted := true } }
    else (s.updSreg c q SReg.cancel).postOnce 1 (if t.store then .streamRetire c q else .streamDataArrival c q)

/-- ERET after a STREAM_FAULT: what stood still goes on (07 R174, R159, 18 R461). -/
def State.resumeFault (s : State) (c : Nat) (f : SFault) : State :=
  match f.kind with
  | 0 =>
    (match (s.core? c).bind fun k => (k.sreg f.reg).strm with
      | none => s
      | some t =>
        if t.faulted && t.id = f.cmd then
          (s.updSreg c f.reg fun r => { r with st := 2, strm := r.strm.map fun t => { t with faulted := false } }).postOnce 1
            (if t.store then .storeStreamElementPerformed c f.reg else .streamDataArrival c f.reg)
        else s)
  | 1 =>
    (s.updCore c fun k =>
      { k with qcmds := k.qcmds.map fun q => if q.id = f.cmd then { q with faulted := false } else q }).wakeCore c
  | 2 => (s.updCore c fun k => { k with grid := { k.grid with load := k.grid.load.map fun l => { l with faulted := false } } }).wakeCore c
  | 4 =>
    (s.updCore c fun k =>
      { k with ycmds := k.ycmds.map fun y => if y.id = f.cmd then { y with faulted := false } else y }).wakeCore c
  | _ => s

/-! ## Poison that kills (12 R301) -/

/-- TRAPINFO of a POISON_KILL. -/
def poisonInfo (kind addr : Nat) : Word64 := BitVec.ofNat 64 (addr % 2 ^ 52 + kind % 4 * 2 ^ 52)

/-- A context is killed by poison that an engine or a port met: at its next fetched-bundle boundary where it issues, at once where it does not;
one that has retired counts as killed. Of a context that dies already, nothing more is counted. -/
def State.poisonLater (s : State) (c n kind addr : Nat) : State :=
  match s.ctx? c n with
  | none => s
  | some x =>
    let dies := match x.st with
      | .empty => s.countsKilled c n
      | .ready | .issuing | .blocked => x.doom.isSome
    let s := if dies then s
      else s.updCore c fun k => { k with silcnt := setBits k.silcnt 16 16 (min 65535 (bitsOf k.silcnt 16 16 + 1)) }
    match x.st with
    | .empty => s.countKill c n 0x0B
    | .issuing => s.updCtx c n fun x => { x with doom := x.doom.or (some (0x0B, poisonInfo kind addr)) }
    | .ready | .blocked => s.kill c n 0x0B (poisonInfo kind addr)

/-! ## Commands -/

/-- Whether a FENCE of a context holds the start of a later command, or of its accesses, on a path of a mask (11 R273). -/
def Core.fenced (k : Core) (n id mask : Nat) : Bool :=
  match k.ctx? n with
  | none => false
  | some x => x.fences.any fun f => decide (f.id < id) && meets f.succ.toNat mask

/-- A number for a command. -/
def Core.takeId (k : Core) : Core × Nat := ({ k with nextCmd := k.nextCmd + 1 }, k.nextCmd)

/-- The FENCEs of a context are tried after each completion of one of its commands or write-backs (11 R273): first the commands, then the release
half, then the acquire half, then it is gone. -/
def State.fenceStep (s : State) (c n : Nat) : List FenceWait → State × List FenceWait
  | [] => (s, [])
  | f :: fs =>
    match s.core? c with
    | none => (s, [])
    | some k =>
      -- a stream that has started on another path than those of PRED is waited for no longer
      let cmds := f.cmds.filter fun i => (k.live n).any fun z => z.1 == i && meets z.2 f.pred.toNat
      let r :=
        if !cmds.isEmpty then (s, { f with cmds := cmds })
        else
          match (match f.half with | none => s.startRelease c f.rel | some h => s.pushRelease h) with
          | (s, h) => (s, { f with cmds := [], half := some h })
      match r with
      | (s, f) =>
        if (match f.half with | none => false | some h => s.released h) && (f.rel ≠ 5 || (s.rowsOut c n).isEmpty) then
          (s.acquireBy c n f.acq).fenceStep c n fs
        else
          match s.fenceStep c n fs with
          | (s, l) => (s, f :: l)

/-- The FENCEs of every context of a core. -/
def State.tryFences (s : State) (c : Nat) : State :=
  s.forEach (List.range 4) fun s n =>
    match s.ctx? c n with
    | none => s
    | some x =>
      if x.fences.isEmpty then s
      else
        match s.fenceStep c n x.fences with
        | (s, l) =>
          let s := s.updCtx c n fun x => { x with fences := l }
          if l.length < x.fences.length then s.wakeCore c else s

/-- Whether a STEP of a launch has arrived and waits for its barrier (09 R235). -/
def State.stepWaits (s : State) (l : Nat) : Bool :=
  s.cores.any fun kv => kv.2.any fun k => k.launch == some l && k.ycmds.any fun y =>
    y.arrived && (match y.kind with
      | .step _ => true
      | .chsend _ | .chrecv _ | .chstart _ | .chabort _ | .semadd _ _ | .drain => false)

/-- The barriers of a core's cluster and of its launch are looked at again, where a STEP waits for one. -/
def State.lookBarriers (s : State) (c : Nat) : State :=
  match (s.core? c).bind (·.launch) with
  | none => s
  | some l => if s.stepWaits l then s.postOnce 0 (.stepBarrierOpen l (clusterOf c) false) else s

/-- A command of a core has completed or is abandoned: what this may let go on is tried. -/
def State.afterCommand (s : State) (c : Nat) : State := ((s.tryFences c).wakeCore c).lookBarriers c

end Sys2Proof.Machine
end

