-- ==== Sys2Proof/Machine/Hazards.lean ====
section
/-! DEFINITION. The registers that an operation reads and writes by its encoding, for the scoreboard (03 R56) and for the rule on destinations
(03 R59). The M slot is not interlocked: its entries name its v destination alone (03 R57). -/

namespace Sys2Proof.Machine

/-- The registers read and the registers written. -/
structure Uses where
  reads : List RegName
  writes : List RegName
deriving DecidableEq, Repr

/-- The name of a register of a file. -/
def fileName (f : XFile) (n : Nat) : RegName :=
  match f with
  | .x => .x n
  | .y => .y n
  | .c => .c n

/-- The guard's predicate, where the guard is enabled. -/
def guardUse (g : Guard) (b : Bank) : List RegName := if g.ge then [bankName b g.gp.toNat] else []

/-- An operation guarded by pk. -/
def usesK (g : Guard) (r w : List RegName) : Uses := ⟨guardUse g .pk ++ r, w⟩
/-- An operation guarded by pv. -/
def usesV (g : Guard) (r w : List RegName) : Uses := ⟨guardUse g .pv ++ r, w⟩
/-- An operation of an I slot, by the numbers of its registers. -/
def usesI (sl : ISlot) (g : Guard) (r w : List Reg5) : Uses :=
  ⟨guardUse g .pi ++ r.map fun n => xyName (ISlot.y sl) n.toNat, w.map fun n => xyName (ISlot.y sl) n.toNat⟩
/-- A predicate operation of I0, I1 or F. -/
def usesP (sl : PSlot) (g : Guard) (r w : List Reg5) : Uses :=
  ⟨guardUse g (PSlot.bank sl) ++ r.map fun n => bankName (PSlot.bank sl) n.toNat, w.map fun n => bankName (PSlot.bank sl) n.toNat⟩

/-- The tested predicates and the targets of MWB. -/
def mwbUses (o : OpMwb) : List RegName :=
  let n := o.nm1.toNat + 1
  ([o.p0, o.p1, o.p2, o.p3].take n).map (fun p => RegName.pk p.toNat) ++ (List.range (n + 1)).map fun i => RegName.c (o.tb.toNat + i)

/-- What an operation reads and writes, by its encoding. -/
def Instr.uses : Instr → Uses
  | .br o => usesK o.g [] []
  | .brc o => usesK o.g [.c o.a.toNat] []
  | .call o => usesK o.g [] []
  | .ret o => usesK o.g [.c 15] []
  | .loop o => usesK o.g [.c o.a.toNat] []
  | .eret o => usesK o.g [] []
  | .trap o => usesK o.g [] []
  | .yield o => usesK o.g [] []
  | .retire o => usesK o.g [] []
  | .halt o => usesK o.g [] []
  | .launch o => usesK o.g [.c o.a.toNat, .c o.b.toNat] [.c o.d.toNat]
  | .mfsr o => usesK o.g [] [.c o.r.toNat]
  | .mtsr o => usesK o.g [.c o.r.toNat] []
  | .tlbi o => usesK o.g [.c o.a.toNat, .c o.b.toNat] []
  | .fenset o => usesK o.g [.c o.a.toNat] [.c o.d.toNat]
  | .evac o => usesK o.g [.c o.a.toNat] [.c o.d.toNat]
  | .draftld o => usesK o.g [.c o.a.toNat, .c o.b.toNat] [.c o.d.toNat]
  | .cmpC o => usesK o.g [.c o.a.toNat, .c o.b.toNat] [.pk o.d.toNat]
  | .cmpiC o => usesK o.g [.c o.a.toNat] [.pk o.d.toNat]
  | .addiC o => usesK o.g [.c o.a.toNat] [.c o.d.toNat]
  | .liC o => usesK o.g [] [.c o.d.toNat]
  | .xmovC o => usesK o.g [fileName o.sf o.a.toNat] [.c o.d.toNat]
  | .pandC o => usesK o.g [.pk o.a.toNat, .pk o.b.toNat] [.pk o.d.toNat]
  | .porC o => usesK o.g [.pk o.a.toNat, .pk o.b.toNat] [.pk o.d.toNat]
  | .pxorC o => usesK o.g [.pk o.a.toNat, .pk o.b.toNat] [.pk o.d.toNat]
  | .pnotC o => usesK o.g [.pk o.a.toNat] [.pk o.d.toNat]
  | .psetC o => usesK o.g [] [.pk o.d.toNat]
  | .pmovC o => usesK o.g [bankName o.sf o.a.toNat] [.pk o.d.toNat]
  | .add o => usesI o.sl o.g [o.a, o.b] [o.d]
  | .addiI o => usesI o.sl o.g [o.a] [o.d]
  | .sub o => usesI o.sl o.g [o.a, o.b] [o.d]
  | .mul o => usesI o.sl o.g [o.a, o.b] [o.d]
  | .mulh o => usesI o.sl o.g [o.a, o.b] [o.d]
  | .div o => usesI o.sl o.g [o.a, o.b] [o.d]
  | .rem o => usesI o.sl o.g [o.a, o.b] [o.d]
  | .and o => usesI o.sl o.g [o.a, o.b] [o.d]
  | .or o => usesI o.sl o.g [o.a, o.b] [o.d]
  | .xor o => usesI o.sl o.g [o.a, o.b] [o.d]
  | .andn o => usesI o.sl o.g [o.a, o.b] [o.d]
  | .shl o => usesI o.sl o.g [o.a, o.b] [o.d]
  | .shr o => usesI o.sl o.g [o.a, o.b] [o.d]
  | .sra o => usesI o.sl o.g [o.a, o.b] [o.d]
  | .rotl o => usesI o.sl o.g [o.a, o.b] [o.d]
  | .clz o => usesI o.sl o.g [o.a] [o.d]
  | .popc o => usesI o.sl o.g [o.a] [o.d]
  | .min o => usesI o.sl o.g [o.a, o.b] [o.d]
  | .max o => usesI o.sl o.g [o.a, o.b] [o.d]
  | .abs o => usesI o.sl o.g [o.a] [o.d]
  | .sel o => ⟨(usesI o.sl o.g [o.a, o.b] []).reads ++ [.pi o.p.toNat], [xyName (ISlot.y o.sl) o.d.toNat]⟩
  | .cmpI o => ⟨(usesI o.sl o.g [o.a, o.b] []).reads, [.pi o.d.toNat]⟩
  | .cmpiI o => ⟨(usesI o.sl o.g [o.a] []).reads, [.pi o.d.toNat]⟩
  | .liI o => usesI o.sl o.g [] [o.d]
  | .lih o => usesI o.sl o.g [o.d] [o.d]
  | .lea o => usesI o.sl o.g [o.a, o.b] [o.d]
  | .bfx o => usesI o.sl o.g [o.a, o.b] [o.d]
  | .bfi o => usesI o.sl o.g [o.d, o.a, o.b] [o.d]
  | .xmovI o => ⟨guardUse o.g .pi ++ [fileName o.sf o.a.toNat], [xyName (ISlot.y o.sl) o.d.toNat]⟩
  | .ld o => usesI o.sl o.g [o.a] [o.d]
  | .st o => usesI o.sl o.g [o.d, o.a] []
  | .lda o => usesI o.sl o.g [o.a] [o.d]
  | .chka o => usesI o.sl o.g [o.a, o.d] [o.d]
  | .ldacq o => usesI o.sl o.g [o.a] [o.d]
  | .strel o => usesI o.sl o.g [o.d, o.a] []
  | .pandIF o => usesP o.sl o.g [o.a, o.b] [o.d]
  | .porIF o => usesP o.sl o.g [o.a, o.b] [o.d]
  | .pxorIF o => usesP o.sl o.g [o.a, o.b] [o.d]
  | .pnotIF o => usesP o.sl o.g [o.a] [o.d]
  | .psetIF o => usesP o.sl o.g [] [o.d]
  | .pmovIF o => ⟨guardUse o.g (PSlot.bank o.sl) ++ [bankName o.sf o.a.toNat], [bankName (PSlot.bank o.sl) o.d.toNat]⟩
  | .vadd o => usesV o.g [.v o.a.toNat, .v o.b.toNat] [.v o.d.toNat]
  | .vsub o => usesV o.g [.v o.a.toNat, .v o.b.toNat] [.v o.d.toNat]
  | .vmul o => usesV o.g [.v o.a.toNat, .v o.b.toNat] [.v o.d.toNat]
  | .vmax o => usesV o.g [.v o.a.toNat, .v o.b.toNat] [.v o.d.toNat]
  | .vmin o => usesV o.g [.v o.a.toNat, .v o.b.toNat] [.v o.d.toNat]
  | .vabs o => usesV o.g [.v o.a.toNat] [.v o.d.toNat]
  | .vneg o => usesV o.g [.v o.a.toNat] [.v o.d.toNat]
  | .vrnd o => usesV o.g [.v o.a.toNat] [.v o.d.toNat]
  | .vldexp o => usesV o.g [.v o.a.toNat, .v o.b.toNat] [.v o.d.toNat]
  | .vexp2 o => usesV o.g [.v o.a.toNat] [.v o.d.toNat]
  | .vlog2 o => usesV o.g [.v o.a.toNat] [.v o.d.toNat]
  | .vrcp o => usesV o.g [.v o.a.toNat] [.v o.d.toNat]
  | .vrsq o => usesV o.g [.v o.a.toNat] [.v o.d.toNat]
  | .vred o => usesV o.g [.v o.a.toNat] [.v o.d.toNat]
  | .vscan o => usesV o.g [.v o.a.toNat] [.v o.d.toNat]
  | .vperm o => usesV o.g [.v o.a.toNat, .v o.b.toNat] [.v o.d.toNat]
  | .vbcast o => usesV o.g [.v o.a.toNat] [.v o.d.toNat]
  | .viota o => usesV o.g [] [.v o.d.toNat]
  | .vmov o => usesV o.g [.v o.a.toNat] [.v o.d.toNat]
  | .vpack o => usesV o.g [.v o.a.toNat, .v o.b.toNat] [.v o.d.toNat]
  | .vunpk o => usesV o.g [.v o.a.toNat] [.v o.d.toNat]
  | .vld o => usesV o.g [xyName o.fs o.a.toNat] [.v o.d.toNat]
  | .vst o => usesV o.g [xyName o.fs o.a.toNat, .v o.d.toNat] []
  | .vgath o => usesV o.g [xyName o.fs o.a.toNat, .v o.vi.toNat] [.v o.d.toNat]
  | .vscat o => usesV o.g [xyName o.fs o.a.toNat, .v o.vi.toNat, .v o.d.toNat] []
  | .mzrd o => ⟨[], [.v o.v.toNat]⟩
  | .qset o => usesK o.g [xyName o.fs o.a.toNat] []
  | .qld o => usesK o.g [] []
  | .qst o => usesK o.g [] []
  | .qgath o => usesK o.g [] []
  | .qscat o => usesK o.g [] []
  | .qcopy o => usesK o.g [xyName o.fs o.a.toNat, xyName o.fs o.b.toNat, xyName o.fs o.c.toNat] []
  | .qrcopy o => usesK o.g [xyName o.fs o.a.toNat, xyName o.fs o.b.toNat, xyName o.fs o.c.toNat] []
  | .qccopy o => usesK o.g [xyName o.fs o.a.toNat, xyName o.fs o.b.toNat, xyName o.fs o.c.toNat] []
  | .gcfg o => usesK o.g [xyName o.fs o.a.toNat] []
  | .grun o => usesK o.g [xyName o.fs o.a.toNat, xyName o.fs o.b.toNat] []
  | .gstop o => usesK o.g [] []
  | .qsave o => usesK o.g [xyName o.fs o.a.toNat] []
  | .qrest o => usesK o.g [xyName o.fs o.a.toNat] []
  | .spin o => usesK o.g [xyName o.fs o.a.toNat, xyName o.fs o.b.toNat] []
  | .sunpin o => usesK o.g [xyName o.fs o.a.toNat, xyName o.fs o.b.toNat] []
  | .swb o => usesK o.g [xyName o.fs o.a.toNat, xyName o.fs o.b.toNat] []
  | .sinv o => usesK o.g [xyName o.fs o.a.toNat, xyName o.fs o.b.toNat] []
  | .semset o => usesK o.g [] []
  | .semadd o => usesK o.g [] []
  | .semwait o => usesK o.g [] []
  | .fence o => usesK o.g [] []
  | .drain o => usesK o.g [] []
  | .step o => usesK o.g [] []
  | .aadd o => usesK o.g [xyName o.fs o.a.toNat, xyName o.fs o.b.toNat] [xyName o.fs o.d.toNat]
  | .aand o => usesK o.g [xyName o.fs o.a.toNat, xyName o.fs o.b.toNat] [xyName o.fs o.d.toNat]
  | .aor o => usesK o.g [xyName o.fs o.a.toNat, xyName o.fs o.b.toNat] [xyName o.fs o.d.toNat]
  | .axor o => usesK o.g [xyName o.fs o.a.toNat, xyName o.fs o.b.toNat] [xyName o.fs o.d.toNat]
  | .amin o => usesK o.g [xyName o.fs o.a.toNat, xyName o.fs o.b.toNat] [xyName o.fs o.d.toNat]
  | .amax o => usesK o.g [xyName o.fs o.a.toNat, xyName o.fs o.b.toNat] [xyName o.fs o.d.toNat]
  | .aswp o => usesK o.g [xyName o.fs o.a.toNat, xyName o.fs o.b.toNat] [xyName o.fs o.d.toNat]
  | .chsend o => usesK o.g [] []
  | .chrecv o => usesK o.g [] []
  | .chstart o => usesK o.g [] []
  | .chabort o => usesK o.g [] []
  | .tstart o => usesK o.g [xyName o.fs o.a.toNat] []
  | .rdtime o => usesK o.g [] [xyName o.fs o.d.toNat]
  | .br64 o => usesK o.g [] []
  | .brc64 o => usesK o.g [.c o.a.toNat] []
  | .mwb o => usesK o.g (mwbUses o) []
  | .call64 o => usesK o.g [] []
  | .trap64 o => usesK o.g [] []
  | .cmpiC64 o => usesK o.g [.c o.a.toNat] [.pk o.d.toNat]
  | .addiC64 o => usesK o.g [.c o.a.toNat] [.c o.d.toNat]
  | .liC64 o => usesK o.g [] [.c o.d.toNat]
  | .psetC64 o => usesK o.g [] [.pk o.d.toNat]
  | .addiI64 o => usesI o.sl o.g [o.a] [o.d]
  | .sel64 o => ⟨(usesI o.sl o.g [o.a, o.b] []).reads ++ [.pi o.p.toNat], [xyName (ISlot.y o.sl) o.d.toNat]⟩
  | .cmpiI64 o => ⟨(usesI o.sl o.g [o.a] []).reads, [.pi o.d.toNat]⟩
  | .liI64 o => usesI o.sl o.g [] [o.d]
  | .lih64 o => usesI o.sl o.g [o.d] [o.d]
  | .lea64 o => usesI o.sl o.g [o.a, o.b] [o.d]
  | .bfxImm o => usesI o.sl o.g [o.a] [o.d]
  | .bfiImm o => usesI o.sl o.g [o.d, o.a] [o.d]
  | .ld64 o => usesI o.sl o.g [o.a] [o.d]
  | .st64 o => usesI o.sl o.g [o.d, o.a] []
  | .lda64 o => usesI o.sl o.g [o.a] [o.d]
  | .chka64 o => usesI o.sl o.g [o.a, o.d] [o.d]
  | .ldacq64 o => usesI o.sl o.g [o.a] [o.d]
  | .strel64 o => usesI o.sl o.g [o.d, o.a] []
  | .psetIF64 o => usesP o.sl o.g [] [o.d]
  | .vfma o => usesV o.g [.v o.a.toNat, .v o.b.toNat, .v o.c.toNat] [.v o.d.toNat]
  | .vfms o => usesV o.g [.v o.a.toNat, .v o.b.toNat, .v o.c.toNat] [.v o.d.toNat]
  | .vcmp o => usesV o.g [.v o.a.toNat, .v o.b.toNat] [.pv o.d.toNat]
  | .vsel o => usesV o.g [.v o.a.toNat, .v o.b.toNat, .pv o.p.toNat] [.v o.d.toNat]
  | .vcvt o => usesV o.g [.v o.a.toNat] [.v o.d.toNat]
  | .vrnd64 o => usesV o.g [.v o.a.toNat] [.v o.d.toNat]
  | .vclass o => usesV o.g [.v o.a.toNat] [.pv o.d.toNat]
  | .vcswap o => usesV o.g (if o.fol then [.v o.a.toNat, .v o.b.toNat] else [.v o.a.toNat]) [.v o.d.toNat]
  | .vbcast64 o => usesV o.g [.v o.a.toNat] [.v o.d.toNat]
  | .vpack64 o => usesV o.g [.v o.a.toNat, .v o.b.toNat] [.v o.d.toNat]
  | .vld64 o => usesV o.g [xyName o.fs o.a.toNat] [.v o.d.toNat]
  | .vst64 o => usesV o.g [xyName o.fs o.a.toNat, .v o.d.toNat] []
  | .vgath64 o => usesV o.g [xyName o.fs o.a.toNat, .v o.vi.toNat] [.v o.d.toNat]
  | .vscat64 o => usesV o.g [xyName o.fs o.a.toNat, .v o.vi.toNat, .v o.d.toNat] []
  | .mzrd64 o _ => ⟨[], [.v o.v.toNat]⟩
  | .qset64 o _ => usesK o.g [xyName o.fs o.a.toNat] []
  | .qld64 o _ => usesK o.g [] []
  | .qst64 o _ => usesK o.g [] []
  | .qgath64 o _ => usesK o.g [] []
  | .qscat64 o _ => usesK o.g [] []
  | .qcopy64 o _ => usesK o.g [xyName o.fs o.a.toNat, xyName o.fs o.b.toNat, xyName o.fs o.c.toNat] []
  | .qrcopy64 o _ => usesK o.g [xyName o.fs o.a.toNat, xyName o.fs o.b.toNat, xyName o.fs o.c.toNat] []
  | .qccopy64 o _ => usesK o.g [xyName o.fs o.a.toNat, xyName o.fs o.b.toNat, xyName o.fs o.c.toNat] []
  | .gcfg64 o _ => usesK o.g [xyName o.fs o.a.toNat] []
  | .grun64 o _ => usesK o.g [xyName o.fs o.a.toNat, xyName o.fs o.b.toNat] []
  | .gstop64 o _ => usesK o.g [] []
  | .qsave64 o _ => usesK o.g [xyName o.fs o.a.toNat] []
  | .qrest64 o _ => usesK o.g [xyName o.fs o.a.toNat] []
  | .spin64 o _ => usesK o.g [xyName o.fs o.a.toNat, xyName o.fs o.b.toNat] []
  | .sunpin64 o _ => usesK o.g [xyName o.fs o.a.toNat, xyName o.fs o.b.toNat] []
  | .swb64 o _ => usesK o.g [xyName o.fs o.a.toNat, xyName o.fs o.b.toNat] []
  | .sinv64 o _ => usesK o.g [xyName o.fs o.a.toNat, xyName o.fs o.b.toNat] []
  | .semset64 o => usesK o.g [] []
  | .semadd64 o _ => usesK o.g [] []
  | .semwait64 o => usesK o.g [] []
  | .drain64 o _ => usesK o.g [] []
  | .step64 o _ => usesK o.g [] []
  | .aadd64 o => usesK o.g [xyName o.fs o.a.toNat, xyName o.fs o.b.toNat, xyName o.fs o.c.toNat] [xyName o.fs o.d.toNat]
  | .aand64 o => usesK o.g [xyName o.fs o.a.toNat, xyName o.fs o.b.toNat, xyName o.fs o.c.toNat] [xyName o.fs o.d.toNat]
  | .aor64 o => usesK o.g [xyName o.fs o.a.toNat, xyName o.fs o.b.toNat, xyName o.fs o.c.toNat] [xyName o.fs o.d.toNat]
  | .axor64 o => usesK o.g [xyName o.fs o.a.toNat, xyName o.fs o.b.toNat, xyName o.fs o.c.toNat] [xyName o.fs o.d.toNat]
  | .amin64 o => usesK o.g [xyName o.fs o.a.toNat, xyName o.fs o.b.toNat, xyName o.fs o.c.toNat] [xyName o.fs o.d.toNat]
  | .amax64 o => usesK o.g [xyName o.fs o.a.toNat, xyName o.fs o.b.toNat, xyName o.fs o.c.toNat] [xyName o.fs o.d.toNat]
  | .aswp64 o => usesK o.g [xyName o.fs o.a.toNat, xyName o.fs o.b.toNat, xyName o.fs o.c.toNat] [xyName o.fs o.d.toNat]
  | .acas o => usesK o.g [xyName o.fs o.a.toNat, xyName o.fs o.b.toNat, xyName o.fs o.c.toNat] [xyName o.fs o.d.toNat]
  | .chsend64 o _ => usesK o.g [] []
  | .chrecv64 o _ => usesK o.g [] []
  | .chstart64 o _ => usesK o.g [] []
  | .chabort64 o _ => usesK o.g [] []
  | .mcfg _ | .mfmt _ | .mdrain _ | .mma _ | .mmaz _ | .mbld _ | .mzero _ | .mzwr _ | .mzst _ | .mzld _ | .mtrn _
  | .mbfly _ | .mtwid _ | .mfmt64 _ _ | .mdrain64 _ _ | .mma64 _ _ | .mmaz64 _ _ | .mbld64 _ _ | .mzero64 _ _
  | .mzwr64 _ _ | .mzst64 _ _ | .mzld64 _ _ | .mtrn64 _ _ | .mbfly64 _ _ | .mtwid64 _ _ | .qtailWrite
  | .residencyQuantumBoundary | .dispatch | .launchPlacement | .launchSemaphoreWrite | .launchCompletion
  | .clusterPowerGate | .issueCounterYield | .eventTaken | .noticeTaken | .stashFillArrival | .watchdog
  | .timeGateFire | .prectlGo | .preemptLimitExpiry | .matrixQueueStart | .mmaCompletion | .mbldCompletion
  | .mzstCompletion | .mzldCompletion | .mtrnCompletion | .mbflyCompletion | .mtwidCompletion | .mfmtCompletion
  | .mdrainStart | .mzrdCompletion | .mzwrCompletion | .mzeroCompletion | .mcfgClear | .streamCommandStart
  | .streamElementFault | .streamRetire | .qsetCompletion | .gcfgLoadEnd | .grunCompletion | .gstopBoundary
  | .fabricInvocationStart | .fabricInvocationEnd | .packetArrival | .flowRowSend | .rowLanding
  | .landingAcknowledgement | .lossAcknowledgement | .parkedRowRetry | .flowRowLost | .creditTokenArrival
  | .channelCommandStart | .chrecvCompletion | .ringInstanceStart | .ringPacketArrival | .ringInstanceCompletion
  | .remoteTimeout | .abortTokenArrival | .ringCommit | .ringCommitReread | .linkTimeout | .linkPacketArrival
  | .linkTraining | .stepBarrierOpen | .drainStart | .semaddApply | .atomicResponse | .draftldCompletion
  | .tlbiCompletion | .evacCompletion | .retireAccepted | .stashCommandCompletion | .copyCompletion
  | .qsaveCompletion | .opreqGo | .operatingPointStepEnd | .thermalThrottle | .thermalRecovery | .thermalReset
  | .moduleReset | .reconfigurationRequest | .getDigests | .getCertificate | .challenge | .getMeasurements
  | .keyExchange | .finish | .keyload | .keyclear | .rowSparing | .shadowLatchReplay | .hostWrite | .hostRead
  | .tdiError | .crctlWrite | .flogstWrite | .fqstatWrite | .ststatWrite | .lpstatWrite | .notstatWrite
  | .silcntWrite | .fetchFault | .bundleWithPmZero | .writeBackPerformed | .launchAppend | .qrestCompletion
  | .streamDataArrival | .storeStreamElementPerformed | .tdispRequest => ⟨[], []⟩

/-- A register that is hard-wired: nothing is ever pending on it (03 R54). -/
def RegName.fixed : RegName → Bool
  | .x n | .y n | .c n | .pk n | .pi n | .pv n => n == 0
  | .v _ => false

/-- Whether a register waits for a result (03 R56). -/
def Ctx.pending (x : Ctx) (now : Nat) (r : RegName) : Bool :=
  !RegName.fixed r && (x.score.any (fun e => e.1 == r && decide (now < e.2)) || x.atomics.any fun f => xyName f.y f.d == r)

/-- An MZRD. -/
def Instr.isMzrd : Instr → Bool
  | .mzrd _ => true
  | .mzrd64 _ _ => true
  | _ => false

/-- Whether an operation must wait for a register; the M slot is not interlocked (03 R57). -/
def Ctx.interlocked (x : Ctx) (now : Nat) (i : Instr) : Bool :=
  !Instr.isMzrd i && ((Instr.uses i).reads.any (x.pending now) || (Instr.uses i).writes.any (x.pending now))

/-- Whether a list of names holds one twice. -/
def twice : List RegName → Bool
  | [] => false
  | r :: l => l.contains r || twice l

end Sys2Proof.Machine
end

