-- ==== Sys2Proof/Machine/Sequencer.lean ====
section
/-! DEFINITION. The sequencer around the meanings: fetching a bundle, the checks on a whole bundle (03 R49, R59, R62, R63, R70), what follows a
bundle (windows 03 R61, R62, loops R70, R71, the trap of TRAP R66), issue among the contexts of a core (02 R41, R42). -/

namespace Sys2Proof.Machine

/-! ## Fetch -/

/-- A bundle as fetched: its header word, its other words. -/
structure Raw where
  head : Word32
  words : List Word32
deriving DecidableEq, Repr

/-- What a fetch comes to. -/
inductive Fetch where
  | raw (b : Raw)
  | fault (cause : Nat) (info : Word64)
deriving DecidableEq, Repr

/-- The number of words after a header, by its masks alone (03 R49). -/
def rawWords (w : Word32) : Nat :=
  (Slot.all.map fun s => bitN (w.getLsbD s.index) + bitN (w.getLsbD (7 + s.index))).sum

/-- `n` words from an aligned address on, line by line, each line translated for a fetch and read as one access (10 R247). -/
def State.fetchWords (s : State) (c : Nat) : Nat → Nat → VAddr → State × (List Word32 ⊕ Nat × Word64)
  | 0, _, _ => (s, .inl [])
  | fuel + 1, n, a =>
    if n = 0 then (s, .inl [])
    else
      match s.translate c a.toNat .fetch with
      | (s, .fault cause info) => (s, .inr (cause, info))
      | (s, .leaf l) =>
        let here := min n ((128 - l.pa % 128) / 4)
        match s.homeWords (s.access c l.ed a.toNat) 2 l.pa here with
        | (s, ws) =>
          match s.fetchWords c fuel (n - here) (a + BitVec.ofNat 52 (4 * here)) with
          | (s, .inl ws') => (s, .inl (ws.map (·.w) ++ ws'))
          | (s, .inr f) => (s, .inr f)

/-- The bundle at an address as memory holds it at its issue, with the physical address of its header. -/
def State.freshBundle (s : State) (c : Nat) (pc : VAddr) : State × Nat × Fetch :=
  match s.translate c pc.toNat .fetch with
  | (s, .fault cause info) => (s, 0, .fault cause info)
  | (s, .leaf l) =>
    match s.homeWords (s.access c l.ed pc.toNat) 2 l.pa 1 with
    | (s, ws) =>
      let h := ((ws.map (·.w)).head?).getD 0
      match s.fetchWords c 3 (rawWords h) (pc + 4) with
      | (s, .inr f) => (s, l.pa, .fault f.1 f.2)
      | (s, .inl ws) => (s, l.pa, .raw ⟨h, ws⟩)

/-- The words of a list of bundles that the cache of 64 KiB holds, the newest first: what no longer fits falls out (03 R76). -/
def icacheFit : Nat → List (Nat × List Word32) → List (Nat × List Word32)
  | _, [] => []
  | room, e :: es => if room < e.2.length then [] else e :: icacheFit (room - e.2.length) es

/-- A bundle enters the instruction cache of a core. -/
def Core.cacheBundle (k : Core) (pa : Nat) (b : Raw) : Core :=
  { k with icache := icacheFit 16384 ((pa, b.head :: b.words) :: k.icache.filter fun e => e.1 ≠ pa) }

/-- The bundle at an address (03 R76). The instruction cache of the core is not coherent with stores: where it holds the bundle as it was before a write, the
free Config.fetchesOld says whether the bundle is fetched whole as before the write or whole as memory holds it, and the latter refills the cache
(DESIGN CHOICE, log entry 24). -/
def State.fetchBundle (s : State) (c : Nat) (pc : VAddr) : State × Fetch :=
  match s.freshBundle c pc with
  | (s, _, .fault cause info) => (s, .fault cause info)
  | (s, pa, .raw b) =>
    match (s.core? c).bind fun k => k.icache.find? fun e => e.1 = pa with
    | none => (s.updCore c fun k => k.cacheBundle pa b, .raw b)
    | some e =>
      if e.2 = b.head :: b.words then (s, .raw b)
      else
        let s' := { s with free := s.free + 1 }
        match e.2, Config.fetchesOld s.free with
        | h :: ws, true => (s', .raw ⟨h, ws⟩)
        | _, _ => (s'.updCore c fun k => k.cacheBundle pa b, .raw b)

/-- A bundle that the loop buffer of an open level holds: it issues without fetch (03 R70). -/
def bufferedBundle (ls : List LoopLevel) (pc : VAddr) : Option Raw :=
  ls.findSome? fun l =>
    match (l.seen.find? fun e => e.1 = pc).map (·.2) with
    | some (h :: ws) => some ⟨h, ws⟩
    | _ => none

/-- The bundle that a context attempts next: from the loop buffer, else as fetched. -/
def State.nextBundle (s : State) (c : Nat) (x : Ctx) : State × Fetch :=
  match bufferedBundle x.loops x.pc with
  | some b => (s, .raw b)
  | none => s.fetchBundle c x.pc

/-- The length of a bundle in bytes. -/
def Raw.len (b : Raw) : Nat := 4 + 4 * rawWords b.head
/-- The empty run of a bundle. -/
def Raw.er (b : Raw) : Nat := (b.head.extractLsb' 14 8).toNat
/-- The operations of a bundle; none where its header is bad. -/
def Raw.slots (b : Raw) : Option (List SlotWord) := (decodeHeader b.head).map fun h => slotWords h Slot.all b.words

/-! ## Checks on a whole bundle -/

/-- The C slot's opcode is a control transfer's: BR, BRC, MWB, CALL, RET, LOOP or ERET (03 R61). -/
def SlotWord.control (t : SlotWord) : Bool :=
  t.slot == .c && decide (1 ≤ (t.w.extractLsb' 26 6).toNat) && decide ((t.w.extractLsb' 26 6).toNat ≤ 7)
/-- It is a branch's. -/
def SlotWord.branch (t : SlotWord) : Bool := SlotWord.control t && decide ((t.w.extractLsb' 26 6).toNat ≤ 5)

/-- The operations that decode. -/
def decoded (ts : List SlotWord) : List Instr :=
  ts.filterMap fun t =>
    match t.decode with
    | .ok i => some i
    | .error _ => none

/-- Whether an address lies in the body of a loop level. -/
def LoopLevel.holds (l : LoopLevel) (a : VAddr) : Bool :=
  decide (l.start.toNat ≤ a.toNat) && decide (a.toNat < l.start.toNat + 4 * l.size4)

/-- The end address of a loop body. -/
def LoopLevel.stop (l : LoopLevel) : VAddr := l.start + BitVec.ofNat 52 (4 * l.size4)

/-- A body bundle that crosses the end of its body, or is the 33rd (03 R70). -/
def LoopLevel.broken (l : LoopLevel) (a : VAddr) (len : Nat) : Bool :=
  l.holds a && (decide (l.start.toNat + 4 * l.size4 < a.toNat + len) || (!(l.seen.any fun e => e.1 = a) && decide (32 ≤ l.seen.length)))

/-- Whether a bundle raises ILLEGAL_BUNDLE (03 R49, R59, R62, R70). A slot whose word fails a check of 04 R77 counts as writing nothing, so that such a
bundle raises ILLEGAL_OP although the word names the destination of another slot (DESIGN CHOICE, log entry 89). -/
def Raw.illegal (b : Raw) (a : VAddr) (w : Option Window) (ls : List LoopLevel) : Bool :=
  match b.slots with
  | none => true
  | some ts =>
    twice ((decoded ts).flatMap fun i => (Instr.uses i).writes)
      || (match w with
        | some w => decide (w.left < 1 + b.er)
        | none => ts.any SlotWord.branch && decide (3 ≤ b.er))
      || ls.any fun l => l.broken a b.len

/-- Whether a bundle is a delay bundle with a control transfer (03 R63). -/
def Raw.delayBranch (b : Raw) (w : Option Window) : Bool :=
  w.isSome && (match b.slots with | none => false | some ts => ts.any SlotWord.control)

/-- Whether the context that issues must stall the bundle on a register or on an atomic that acquires (03 R56, 15 R333). -/
def Raw.stalls (b : Raw) (x : Ctx) (now : Nat) : Bool :=
  x.atomics.any (·.acquire)
    || (match b.slots with | none => false | some ts => (decoded ts).any fun i => x.interlocked now i)

/-- The state in which a fetched bundle is attempted: the program counter stands at the next bundle in sequence. -/
def State.begin (s : State) (c n : Nat) (x : Ctx) (b : Raw) : State :=
  { s with cur := c, bun := ⟨x.pc, b.len, b.er, x.regs, x.regsM s.cycle, x.win, x.loops, b.head :: b.words, false, .normal,
    (match s.core? c with | none => 0 | some k => k.nextCmd)⟩ }.updCtx c n fun x =>
    { x with pc := x.pc + BitVec.ofNat 52 b.len }

/-! ## After a bundle -/

/-- The loop nest and the program counter after the last bundle of bodies that end at it: the inner back-edge first (03 R70, R71). -/
def backEdge : List LoopLevel → VAddr → List LoopLevel × VAddr
  | [], pc => ([], pc)
  | l :: ls, pc =>
    if pc = l.stop then
      if l.rem ≤ 1 then backEdge ls pc else ({ l with rem := l.rem - 1 } :: ls, l.start)
    else (l :: ls, pc)

/-- The loop nest after a transfer: every level whose body does not hold the target closes (03 R71). -/
def retarget (ls : List LoopLevel) (tgt : VAddr) : List LoopLevel := ls.filter fun l => l.holds tgt

/-- A bundle of the body is noted in every level that holds it, and goes into the level's buffer. -/
def noteBody (ls : List LoopLevel) (a : VAddr) (ws : List Word32) : List LoopLevel :=
  ls.map fun l =>
    if !l.holds a then l
    else if l.seen.any fun e => e.1 = a then { l with seen := l.seen.map fun e => if e.1 = a then (a, ws) else e }
    else { l with seen := l.seen ++ [(a, ws)] }

/-- The result of an instruction that holds its context is dropped where it would be written to c15: the transfer of a CALL writes c15 after it
(16 R362). -/
def Hold.loseC15 : Hold → Hold
  | .evac d t scope seq gp => .evac (if d = 15 then 0 else d) t scope seq gp
  | .launch d q e r a p x g => .launch (if d = 15 then 0 else d) q e r a p x g
  | h => h

/-- The context after a bundle that performed, outside traps: the loop nest, then the delay window, then the transfer (03 R61, R62, R68). The spec does
not order a back-edge and a transfer after one bundle (03 R61, R70): DEDUCED, log entry 79, the back-edge comes first. -/
def Ctx.follow (x : Ctx) (b : Bundle) : Ctx :=
  let le := backEdge (noteBody x.loops b.pc b.raw) x.pc
  let x := { x with loops := le.1, pc := le.2 }
  match x.win with
  | none => x
  | some w =>
    let left := match b.win with
      | none => w.left - b.er
      | some _ => w.left - (1 + b.er)
    if left = 0 then
      if w.tkn then
        let seq := x.pc
        let x := { x with win := none, pc := w.tgt, loops := retarget x.loops w.tgt }
        if w.call then { x with regs := x.regs.setC 15 ⟨seq.zeroExtend 64, false⟩, hold := Hold.loseC15 x.hold } else x
      else { x with win := none }
    else { x with win := some { w with left := left } }

/-- The trap of TRAP, taken after its bundle (03 R66, 12 R284 kind T). One that does not enter kills at the boundary after the bundle and its empty run. -/
def State.trapAfter (s : State) (c n : Nat) (info : Word64) : State :=
  match s.ctx? c n with
  | none => s
  | some x =>
    if x.traps true then
      (s.updCtx c n fun x => x.enterTrap x.pc 0x16 false info (brpendOf x.win)).updCore c fun k => { k with freeAt := k.freeAt + 4 }
    else s.updCtx c n fun x => { x with doom := x.doom.or (some (0x16, info)) }

/-- The bundle is done with, as its status says. -/
def State.finish (s : State) (c n : Nat) : State :=
  let fresh := fun (x : Ctx) => { x with timer := none, filled := [], missed := [], sat := [], rel := none }
  let next := s.cycle + 1 + s.bun.er
  match s.bun.status with
  | .trapped | .ended => s
  | .stalled => s.updCtx c n fun x => { x with pc := s.bun.pc }
  | .blocked => (s.updCtx c n fun x => { x with pc := s.bun.pc }).switchOut c n .blocked
  | .eret => (s.updCtx c n fun x => { x with timer := none, filled := [], missed := [], rel := none }).updCore c fun k => { k with freeAt := max k.freeAt (s.cycle + 1) }
  | .normal =>
    let s := (s.updCtx c n fun x => fresh (x.follow s.bun)).updCore c fun k => { k with freeAt := max k.freeAt next }
    -- an instruction that holds its context stalls it in place (12 R291)
    if ((s.ctx? c n).map Ctx.held) == some true then s.startTimer c n else s
  | .yields =>
    (s.updCtx c n fun x => { fresh (x.follow s.bun) with yreq := true }).updCore c fun k => { k with freeAt := max k.freeAt next }
  | .trap info =>
    ((s.updCtx c n fun x => fresh (x.follow s.bun)).updCore c fun k => { k with freeAt := max k.freeAt next }).trapAfter c n info

/-! ## Issue among the contexts of a core -/

/-- The READY context that entered READY earliest; ties go to the lower CTXID (02 R41). -/
def Core.oldestReady (k : Core) : Option (Nat × Nat) :=
  (List.range 4).foldl (fun best n =>
    match k.ctx? n with
    | none => best
    | some x =>
      if x.st ≠ .ready then best
      else
        match best with
        | none => some (n, x.since)
        | some (m, t) => if x.since < t then some (n, x.since) else some (m, t)) none

/-- The cycle at which a core next attempts a bundle or gives issue to a context; none: it has nothing to issue. -/
def Core.nextIssue (k : Core) (now : Nat) : Option Nat :=
  match k.issuing with
  | some n =>
    match k.ctx? n with
    | none => none
    | some x => if !x.held || (x.hold.ready && x.holdM == .none && x.holdQ == .none) then some (max (max now k.freeAt) (max x.holdUntil k.frozenTo)) else none
  | none => k.oldestReady.map fun b => max (max (max now k.freeAt) k.frozenTo) (b.2 + 1)

/-- The core that issues earliest; ties go to the lowest COREID. -/
def State.nextCore (s : State) : Option (Nat × Nat) :=
  s.cores.foldl (fun best kv =>
    match kv.2.bind fun k => k.nextIssue s.cycle with
    | none => best
    | some t =>
      match best with
      | none => some (kv.1, t)
      | some (c, u) => if t < u then some (kv.1, t) else some (c, u)) none

/-- The no-progress timer of a context stood still while it was READY (12 R291). -/
def State.resumeTimer (s : State) (c n : Nat) : State :=
  match s.ctx? c n, s.part? (s.partOf c) with
  | some x, some p =>
    (match x.timer with
      | none => s
      | some t =>
        let t := t + (s.cycle - x.since) * s.rate / 18
        let lim := bitsOf p.wdcfg 0 16 * 1000000
        let s := s.updCtx c n fun x => { x with timer := some t }
        if lim = 0 then s else s.postOnce (s.cyclesOf (t + lim - s.ticks)) (.watchdog c n))
  | _, _ => s

/-- A READY context gets issue (02 R41). -/
def State.selectCtx (s : State) (c : Nat) : State :=
  match (s.core? c).bind Core.oldestReady with
  | none => s
  | some (n, _) =>
    ((s.resumeTimer c n).updCore c fun k => { k with issuing := some n }).updCtx c n fun x => { x with st := .issuing, counter := 0, mark := s.cycle }

/-- Whether a context takes a notice at this boundary (12 R288): it is the control context, outside trap mode and outside a window. -/
def State.noticeDue (s : State) (c n : Nat) (x : Ctx) : Bool :=
  s.isControl c n && !x.sr.tmode && x.win.isNone
    && (match s.part? (s.partOf c) with | none => false | some p => !p.notices.isEmpty)

/-- Whether a context gives up issue at this boundary: its counter has reached 1,024 (02 R42), or a YIELD asked for it and another context is
READY (19 R555); never inside a window (03 R67). A context that an interlock stalls in place yields so before the stalled bundle has issued: R42 does not say
whether it is at a boundary then (DESIGN CHOICE, log entry 107). -/
def State.yieldDue (s : State) (c n : Nat) (x : Ctx) : Bool :=
  x.win.isNone && (decide (1024 ≤ x.counter) || (x.yreq && ((s.core? c).bind fun k => k.othersReady n).isSome))

/-- A context whose YIELD or whose issue counter asks for it gives up issue and is READY at the switch cycle (02 R41, R42). -/
def State.yieldNow (s : State) (c n : Nat) : State := (s.switchOut c n .ready).updCtx c n fun x => { x with yreq := false }

end Sys2Proof.Machine
end

