-- ==== Sys2Proof/Machine/Control.lean ====
section
/-! DEFINITION. Control transfers and the other instructions of the C slot that steer a context: BR, BRC (15), CALL, LOOP, ERET, HALT (16), MWB (17), RET, RETIRE (18),
TRAP, YIELD (19); the events of the sequencer: FETCH_FAULT, BUNDLE_WITH_PM_ZERO, ISSUE_COUNTER_YIELD. -/

namespace Sys2Proof.Machine

/-- A control transfer: in a delay bundle it is DELAY_BRANCH (03 R63); a poisoned guard predicate kills (12 R301), even where the guard fails if
`always` (03 R52). -/
def transfer (s : State) (g : Guard) (always : Bool) (f : Ctx → Try State) : Host.Outcome State Fault Refusal :=
  slotOp s fun _ _ x =>
    (if s.bun.win.isSome then .trap s 0x04 (brpendOf s.bun.win)
     else if Guard.psn g .pk s.bun.old && (always || Guard.ok g .pk s.bun.old) then .kill s 1 0
     else f x : Try State).finish

/-- A branch opens its delay window (03 R61). -/
def openWindow (s : State) (tkn : Bool) (tgt : VAddr) (call : Bool) : Try State :=
  let s := s.updIssuer fun x => { x with win := some ⟨2, tkn, tgt, call⟩ }
  .ok s s

/-- A branch to a register's address: its low 52 bits, which must be aligned (03 R68). -/
def openTo (s : State) (v : RV) : Try State :=
  if v.p then .kill s 1 0
  else if bitsOf v.v 0 2 ≠ 0 then .trap s 0x05 (BitVec.ofNat 64 (bitsOf v.v 0 52))
  else openWindow s true (BitVec.ofNat 52 (bitsOf v.v 0 52)) false

/-- BR and CALL (15 R354, 16 R360): that a poisoned guard kills where it fails is said of BR alone (15 R355, 16 R361). -/
def jumpOp {w : Nat} (s : State) (g : Guard) (disp : BitVec w) (call : Bool) : Host.Outcome State Fault Refusal :=
  transfer s g (!call) fun _ => openWindow s (Guard.ok g .pk s.bun.old) (branchTarget s.bun.pc disp) call

/-- BR (15 R354): Opens a two-bundle delay window and then transfers unconditionally to a PC-relative target. -/
def execBr (o : OpJ) (s : State) : Host.Outcome State Fault Refusal := jumpOp s o.g o.disp false
/-- BR_64 (15 R354): BR with a 32-bit displacement in the extension word. -/
def execBr64 (o : OpJ64) (s : State) : Host.Outcome State Fault Refusal := jumpOp s o.g o.disp false
/-- CALL (16 R360): Branch that writes the return address into c15 when its transfer takes effect. -/
def execCall (o : OpJ) (s : State) : Host.Outcome State Fault Refusal := jumpOp s o.g o.disp true
/-- CALL_64 (16 R360): CALL with a 32-bit displacement in the extension word. -/
def execCall64 (o : OpJ64) (s : State) : Host.Outcome State Fault Refusal := jumpOp s o.g o.disp true

/-- BRC: a poisoned register kills even where the guard fails (15 R355). -/
def brcOp {w : Nat} (s : State) (g : Guard) (a : CReg) (cc : Cond) (disp : BitVec w) : Host.Outcome State Fault Refusal :=
  transfer s g true fun _ =>
    let v := s.bun.old.getC a.toNat
    if v.p then .kill s 1 0
    else openWindow s (Guard.ok g .pk s.bun.old && Cond.holds cc v.v) (branchTarget s.bun.pc disp) false

/-- BRC (15 R354): Conditional branch on a c register compared with zero, with two delay bundles. -/
def execBrc (o : OpK) (s : State) : Host.Outcome State Fault Refusal := brcOp s o.g o.a o.cc o.disp
/-- BRC_64 (15 R354): BRC with a 32-bit displacement in the extension word. -/
def execBrc64 (o : OpK64) (s : State) : Host.Outcome State Fault Refusal := brcOp s o.g o.a o.cc o.disp

/-- The tests of MWB, each a predicate and its sense. -/
def OpMwb.tests (o : OpMwb) : List (Reg5 × Bool) :=
  ([o.p0, o.p1, o.p2, o.p3].zipIdx.take (o.nm1.toNat + 1)).map fun p => (p.1, o.sns.getLsbD p.2)

/-- The first test that holds, n where none does (17 R452). -/
def mwbSel (r : Regs) : List (Reg5 × Bool) → Nat
  | [] => 0
  | t :: ts => if (r.getPk t.1.toNat).v.getLsbD 0 != t.2 then 0 else 1 + mwbSel r ts

/-- MWB (17 R452, R453). -/
def execMwb (o : OpMwb) (s : State) : Host.Outcome State Fault Refusal :=
  transfer s o.g true fun _ =>
    let r := s.bun.old
    if (OpMwb.tests o).any fun t => (r.getPk t.1.toNat).p then .kill s 1 0
    else if Guard.ok o.g .pk r then openTo s (r.getC (o.tb.toNat + mwbSel r (OpMwb.tests o)))
    else openWindow s false 0 false

/-- RET (18 R487). -/
def execRet (o : OpN) (s : State) : Host.Outcome State Fault Refusal :=
  transfer s o.g false fun _ => if Guard.ok o.g .pk s.bun.old then openTo s (s.bun.old.getC 15) else openWindow s false 0 false

/-- LOOP (16 R415, R416, 03 R71): where the guard passes, ILLEGAL_OP is judged first, then the poison of the count and of the guard. -/
def execLoop (o : OpLoop) (s : State) : Host.Outcome State Fault Refusal :=
  slotOp s fun _ _ x =>
    (if s.bun.win.isSome then .trap s 0x04 (brpendOf s.bun.win)
    else if Guard.ok o.g .pk s.bun.old then
      let v := s.bun.old.getC o.a.toNat
      let n := bitsOf v.v 0 32
      let start := s.bun.pc + BitVec.ofNat 52 s.bun.len
      let level : LoopLevel := ⟨start, o.size4.toNat, n, []⟩
      let beyond := match x.loops with
        | [] => false
        | l :: _ => decide (l.start.toNat + 4 * l.size4 < start.toNat + 4 * o.size4.toNat)
      if beyond || (n ≠ 0 && decide (3 ≤ x.loops.length)) then .trap s 0x01 (illegalInfo 0 6 true)
      else if v.p || Guard.psn o.g .pk s.bun.old then .kill s 1 0
      else
        let s := s.updIssuer fun x => if n = 0 then { x with pc := level.stop } else { x with loops := level :: x.loops }
        .ok s s
    else .ok s s : Try State).finish

/-- TRAPINFO of PRIV (12 Table 1). -/
def privInfo (sl op srn : Nat) : Word64 := BitVec.ofNat 64 (sl + 8 * op + 512 * srn)

/-- The stream fault that the trap routine was told of goes on at its ERET (07 R174). -/
def State.resumeTold (s : State) (c n : Nat) : State :=
  match (s.ctx? c n).bind (·.resume) with
  | none => s
  | some f => (s.updCtx c n fun x => { x with resume := none }).resumeFault c f

/-- ERET (16 R390, 12 R285): PRIV comes before the poison of the guard (04 R77). -/
def execEret (o : OpN) (s : State) : Host.Outcome State Fault Refusal :=
  slotOp s fun _ n _ =>
    (if s.bun.win.isSome then .trap s 0x04 (brpendOf s.bun.win)
     else if Guard.ok o.g .pk s.bun.old then
       if !s.privileged s.cur n then .trap s 0x03 (privInfo 0 7 0)
       else if Guard.psn o.g .pk s.bun.old then .kill s 1 0
       else
         let s := ({ s with bun := { s.bun with status := .eret } }.updIssuer Ctx.eret).resumeTold s.cur n
         .ok s s
     else .ok s s : Try State).finish

/-- TRAP: its bundle performs in full, and the trap is taken after it (19 R510, 03 R66). -/
def trapOp (s : State) (g : Guard) (info : Word64) : Host.Outcome State Fault Refusal :=
  slotOp s fun _ _ _ => if Guard.ok g .pk s.bun.old then { s with bun := { s.bun with status := .trap info } } else s

/-- TRAP (19 R510): Performs its bundle and then takes a TRAP_INSN trap with a 16-bit immediate. -/
def execTrap (o : OpTrap) (s : State) : Host.Outcome State Fault Refusal := trapOp s o.g (o.imm.zeroExtend 64)
/-- TRAP_64 (19 R510): TRAP with a 32-bit immediate in the extension word. -/
def execTrap64 (o : OpTrap64) (s : State) : Host.Outcome State Fault Refusal := trapOp s o.g (o.imm.zeroExtend 64)

/-- YIELD: judged at the boundary after its bundle (19 R555). -/
def execYield (o : OpN) (s : State) : Host.Outcome State Fault Refusal :=
  slotOp s fun _ _ _ => if Guard.ok o.g .pk s.bun.old then { s with bun := { s.bun with status := .yields } } else s

/-- The cycle after the bundle that executes is a switch cycle, in which nothing issues (02 R41). -/
def State.switchAfter (s : State) : State := s.updCore s.cur fun k => { k with freeAt := max k.freeAt (s.cycle + 2) }

/-- RETIRE: the context is held until its engine commands have been accepted (18 R489). A command is accepted at its issue. -/
def execRetire (o : OpN) (s : State) : Host.Outcome State Fault Refusal :=
  slotOp s fun _ n _ =>
    if Guard.ok o.g .pk s.bun.old then
      (({ s with bun := { s.bun with status := .ended } }.updIssuer fun x => { x with hold := .retire, win := none }).switchAfter).post 0
        (.retireAccepted s.cur n)
    else s

/-- HALT: the context is killed at the end of the bundle, in trap mode with the cause it holds (16 R404, 12 R287). Where an MCFG or a QREST of the bundle holds
it, which is to perform before, the kill comes when that has ended. -/
def execHalt (o : OpN) (s : State) : Host.Outcome State Fault Refusal :=
  slotOp s fun _ n x =>
    if Guard.ok o.g .pk s.bun.old then
      let cause := if x.sr.tmode then bitsOf x.sr.trapcause 0 8 else 0x16
      let s := { s with bun := { s.bun with status := .ended } }
      if x.held then (s.updIssuer fun x => { x with doom := some (cause, x.sr.trapinfo), win := none }).startTimer s.cur n
      else ((s.landLate s.cur n).kill s.cur n cause x.sr.trapinfo).switchAfter
    else s

/-- FETCH_FAULT: the bundle that could not be fetched counts as attempted (12 R284, 03 R68). -/
def execFetchFault (s : State) : Host.Outcome State Fault Refusal :=
  match s.ev with
  | .fetchFault c =>
    match (s.core? c).bind fun k => k.issuing.bind fun n => (k.ctx? n).map fun x => (n, x) with
    | none => .next s
    | some (n, x) =>
      match s.nextBundle c x with
      | (s, .fault cause info) => .next ((s.begin c n x ⟨0, []⟩).trap cause info)
      | (_, .raw _) => .next s
  | _ => .next s

/-- BUNDLE_WITH_PM_ZERO: it takes its cycle and its empty run, and counts toward windows and loop bodies (03 R50). -/
def execBundleWithPmZero (s : State) : Host.Outcome State Fault Refusal :=
  match s.ev with
  | .bundleWithPmZero c =>
    match (s.core? c).bind fun k => k.issuing.bind fun n => (k.ctx? n).map fun x => (n, x) with
    | none => .next s
    | some (n, x) =>
      match s.nextBundle c x with
      | (_, .fault _ _) => .next s
      | (s, .raw b) => .next (if bitsOf b.head 0 7 = 0 && !b.stalls x s.cycle then (s.begin c n x b).finish c n else
          if bitsOf b.head 0 7 = 0 then ((s.begin c n x b).stall).finish c n else s)
  | _ => .next s

/-- ISSUE_COUNTER_YIELD: the context yields at this boundary (02 R42); a YIELD that waited for it does so too (19 R555). -/
def execIssueCounterYield (s : State) : Host.Outcome State Fault Refusal :=
  match s.ev with
  | .issueCounterYield c =>
    match (s.core? c).bind fun k => k.issuing.bind fun n => (k.ctx? n).map fun x => (n, x) with
    | none => .next s
    | some (n, x) => .next (if s.yieldDue c n x then s.yieldNow c n else s)
  | _ => .next s

end Sys2Proof.Machine
end

