-- ==== Sys2Proof/Machine/Float.lean ====
section
/-! DEFINITION. Number formats and exact arithmetic (05): values as exact dyadic numbers, one rounding at each place the manual states, and the four
functions that are algorithms (05 R114 to R118). -/

namespace Sys2Proof.Machine

/-- A floating value: ±m × 2^e exactly, an infinity, or a NaN. `neg` is the sign, of zero too. -/
inductive Val where
  | nan
  | inf (neg : Bool)
  | fin (neg : Bool) (m : Nat) (e : Int)
deriving DecidableEq, Repr

/-- A floating format: exponent and mantissa bits, bias, and how its largest exponent field is used (05 Table 1). -/
structure Fmt where
  eb : Nat
  mb : Nat
  bias : Nat
  /-- 0: infinities and NaNs; 1: E4M3, the one NaN pattern; 2: neither -/
  top : Nat
deriving DecidableEq, Repr

def fp32 : Fmt := ⟨8, 23, 127, 0⟩
def bf16 : Fmt := ⟨8, 7, 127, 0⟩
def e5m2 : Fmt := ⟨5, 2, 15, 0⟩
def e4m3 : Fmt := ⟨4, 3, 7, 1⟩
def e3m2 : Fmt := ⟨3, 2, 3, 2⟩
def e2m1 : Fmt := ⟨2, 1, 1, 2⟩

/-- The format of a vector element type. -/
def FType.fmt : FType → Fmt
  | .f32 => fp32
  | .bf16 => Sys2Proof.Machine.bf16

/-- The exponent of the last place of a subnormal. -/
def Fmt.emin (f : Fmt) : Int := 1 - (f.bias : Int) - (f.mb : Int)
/-- The code of an infinity: the largest exponent field, mantissa 0. -/
def Fmt.infCode (f : Fmt) : Nat := (2 ^ f.eb - 1) * 2 ^ f.mb
/-- The code of the largest finite magnitude. -/
def Fmt.maxCode (f : Fmt) : Nat :=
  if f.top = 0 then f.infCode - 1 else if f.top = 1 then 2 ^ (f.eb + f.mb) - 2 else 2 ^ (f.eb + f.mb) - 1
/-- The code of the canonical NaN; formats without one have +0 there (05 R97, Table 3). -/
def Fmt.nanCode (f : Fmt) : Nat :=
  if f.top = 0 then f.infCode + 2 ^ (f.mb - 1) else if f.top = 1 then 2 ^ (f.eb + f.mb) - 1 else 0

/-- The value of a code of a format (05 R92). -/
def Fmt.decode (f : Fmt) (code : Nat) : Val :=
  let mag := code % 2 ^ (f.eb + f.mb)
  let neg := code / 2 ^ (f.eb + f.mb) % 2 = 1
  if f.top = 0 && f.infCode ≤ mag then (if mag = f.infCode then .inf neg else .nan)
  else if f.top = 1 && mag = 2 ^ (f.eb + f.mb) - 1 then .nan
  else
    let ex := mag / 2 ^ f.mb
    if ex = 0 then .fin neg mag f.emin else .fin neg (2 ^ f.mb + mag % 2 ^ f.mb) (f.emin + (ex : Int) - 1)

/-- Rounding modes: nearest even, toward zero, down, up (05 R99). -/
inductive RMode where | rne | rtz | rdn | rup
deriving DecidableEq, Repr

/-- The rounding mode of a code of two bits. -/
def rmodeOf (n : Nat) : RMode := if n = 0 then .rne else if n = 1 then .rtz else if n = 2 then .rdn else .rup

/-- m ÷ 2^k rounded to an integer, the magnitude of a number of that sign. -/
def roundShift (rm : RMode) (neg : Bool) (m k : Nat) : Nat :=
  let q := m / 2 ^ k
  let r := m % 2 ^ k
  match rm with
  | .rtz => q
  | .rdn => if neg && r ≠ 0 then q + 1 else q
  | .rup => if !neg && r ≠ 0 then q + 1 else q
  | .rne => if 2 ^ k < 2 * r || (2 * r = 2 ^ k && k ≠ 0 && q % 2 = 1) then q + 1 else q

/-- The code of a magnitude m × 2^e rounded to a format's precision, the exponent range unbounded above (05 R100 step 1). -/
def Fmt.roundMag (f : Fmt) (rm : RMode) (neg : Bool) (m : Nat) (e : Int) : Nat :=
  if m = 0 then 0
  else
    let q := max f.emin ((Nat.log2 m : Int) + e - (f.mb : Int))
    let n := if q ≤ e then m * 2 ^ (e - q).toNat else roundShift rm neg m (q - e).toNat
    (q - f.emin).toNat * 2 ^ f.mb + n

/-- A sign put before the code of a magnitude. -/
def Fmt.signed (f : Fmt) (neg : Bool) (mag : Nat) : Nat := (if neg then 2 ^ (f.eb + f.mb) else 0) + mag

/-- A conversion to a format under a rounding mode and SAT (05 R100, Table 3). -/
def Fmt.convert (f : Fmt) (rm : RMode) (sat : Bool) (x : Val) : Nat :=
  match x with
  | .nan => f.nanCode
  | .inf neg =>
    if f.top = 0 then f.signed neg f.infCode
    else if f.top = 1 then (if sat then f.signed neg f.maxCode else f.nanCode)
    else f.signed neg f.maxCode
  | .fin neg m e =>
    let c := f.roundMag rm neg m e
    if c ≤ f.maxCode then f.signed neg c
    else
      let goes := !sat && (rm == .rne || (rm == .rup && !neg) || (rm == .rdn && neg))
      if f.top = 0 then f.signed neg (if goes then f.infCode else f.maxCode)
      else if f.top = 1 then (if goes then f.nanCode else f.signed neg f.maxCode)
      else f.signed neg f.maxCode

/-- The value of an FP32 word. -/
def f32 (w : Word32) : Val := fp32.decode w.toNat
/-- RNE32. -/
def rne32 (x : Val) : Word32 := BitVec.ofNat 32 (fp32.convert .rne false x)

/-! ## Exact operations (05 R96, R97) -/

/-- A value times 2^n. -/
def Val.scale (x : Val) (n : Int) : Val :=
  match x with
  | .fin s m e => .fin s m (e + n)
  | .inf s => .inf s
  | .nan => .nan

/-- A value with its sign inverted. -/
def Val.neg : Val → Val
  | .nan => .nan
  | .inf s => .inf !s
  | .fin s m e => .fin (!s) m e

/-- The exact product; 0 × ∞ is invalid. -/
def Val.mul (x y : Val) : Val :=
  match x, y with
  | .nan, _ => .nan
  | _, .nan => .nan
  | .inf s, .inf t => .inf (s != t)
  | .inf s, .fin t m _ => if m = 0 then .nan else .inf (s != t)
  | .fin s m _, .inf t => if m = 0 then .nan else .inf (s != t)
  | .fin s m e, .fin t n g => .fin (s != t) (m * n) (e + g)

/-- The signed integer that a finite value is, counted in units of 2^q, q not above its exponent. -/
def scaledInt (s : Bool) (m : Nat) (e q : Int) : Int :=
  let v : Int := (m * 2 ^ (e - q).toNat : Nat)
  if s then -v else v

/-- The exact sum of two values; ∞ − ∞ is invalid; a zero sum is −0 where both addends are. -/
def Val.add (x y : Val) : Val :=
  match x, y with
  | .nan, _ => .nan
  | _, .nan => .nan
  | .inf s, .inf t => if s = t then .inf s else .nan
  | .inf s, .fin _ _ _ => .inf s
  | .fin _ _ _, .inf t => .inf t
  | .fin s m e, .fin t n g =>
    if m = 0 && n = 0 then .fin (s && t) 0 0
    else if m = 0 then .fin t n g
    else if n = 0 then .fin s m e
    else
      let q := min e g
      let v := scaledInt s m e q + scaledInt t n g q
      .fin (decide (v < 0)) v.natAbs q

/-- An integer as a value; zero is +0. -/
def Val.ofInt (i : Int) : Val := .fin (decide (i < 0)) i.natAbs 0

/-- Whether a value is a NaN. -/
def Val.isNan : Val → Bool
  | .nan => true
  | .inf _ => false
  | .fin _ _ _ => false

/-- The IEEE order: strictly below. -/
def Val.lt (x y : Val) : Bool :=
  match x, y with
  | .nan, _ => false
  | _, .nan => false
  | .inf s, .inf t => s && !t
  | .inf s, .fin _ _ _ => s
  | .fin _ _ _, .inf t => !t
  | .fin s m e, .fin t n g =>
    let q := min e g
    decide (scaledInt s m e q < scaledInt t n g q)

/-- IEEE equality: −0 equals +0, a NaN equals nothing. -/
def Val.eq (x y : Val) : Bool := !x.isNan && !y.isNan && !x.lt y && !y.lt x

/-- Whether a value is negative, −0 among them. -/
def Val.sign : Val → Bool
  | .nan => false
  | .inf s => s
  | .fin s _ _ => s

/-- VMAX (05 R104). -/
def Val.max (x y : Val) : Val :=
  if x.isNan then y else if y.isNan then x
  else if x.lt y then y else if y.lt x then x else if x.sign then y else x
/-- VMIN (05 R104). -/
def Val.min (x y : Val) : Val :=
  if x.isNan then y else if y.isNan then x
  else if x.lt y then x else if y.lt x then y else if x.sign then x else y

/-- A value rounded to an integer; none for a NaN or an infinity. -/
def Val.round (rm : RMode) : Val → Option Int
  | .nan => none
  | .inf _ => none
  | .fin s m e =>
    let n : Int := ((if 0 ≤ e then m * 2 ^ e.toNat else roundShift rm s m (-e).toNat : Nat) : Int)
    some (if s then -n else n)

/-- A conversion to an integer range, saturating (05 R101). -/
def Val.toRange (rm : RMode) (lo hi : Int) (x : Val) : Int :=
  match x with
  | .nan => 0
  | .inf s => if s then lo else hi
  | .fin _ _ _ => Max.max lo (Min.min hi ((x.round rm).getD 0))

/-- RNE32 of a sum. -/
def addW (a b : Word32) : Word32 := rne32 ((f32 a).add (f32 b))
/-- RNE32 of a difference. -/
def subW (a b : Word32) : Word32 := rne32 ((f32 a).add (f32 b).neg)
/-- RNE32 of a product. -/
def mulF (a b : Word32) : Word32 := rne32 ((f32 a).mul (f32 b))
/-- RNE32 (a × b + c). -/
def fmaW (a b c : Word32) : Word32 := rne32 (((f32 a).mul (f32 b)).add (f32 c))
/-- The R104 maximum as an FP32 word. -/
def maxF (a b : Word32) : Word32 := rne32 ((f32 a).max (f32 b))
/-- The R104 minimum as an FP32 word. -/
def minF (a b : Word32) : Word32 := rne32 ((f32 a).min (f32 b))

/-- A BF16 code widened to FP32 bits, exactly; a NaN becomes canonical by the operation that uses it. -/
def widen (b : Nat) : Word32 := BitVec.ofNat 32 (b % 65536 * 65536)
/-- RNE16 of an FP32 word. -/
def rne16 (w : Word32) : Nat := Sys2Proof.Machine.bf16.convert .rne false (f32 w)

/-- The total key of VCSWAP (05 R105) of a code of n bits. -/
def totalKey (f : Fmt) (code : Nat) : Nat :=
  let n := f.eb + f.mb + 1
  if (f.decode code).isNan then 0
  else if 2 ^ (n - 1) ≤ code then 2 ^ n - 1 - code else code + 2 ^ (n - 1)

/-! ## The four functions (05 R114 to R118) -/

/-- Table T2 of 05 R114: 2^(j / 64). -/
def tableT2 : List Word32 :=
  [0x3F800000, 0x3F8164D2, 0x3F82CD87, 0x3F843A29, 0x3F85AAC3, 0x3F871F62, 0x3F88980F, 0x3F8A14D5]
    ++ [0x3F8B95C2, 0x3F8D1ADF, 0x3F8EA43A, 0x3F9031DC, 0x3F91C3D3, 0x3F935A2B, 0x3F94F4F0, 0x3F96942D]
    ++ [0x3F9837F0, 0x3F99E046, 0x3F9B8D3A, 0x3F9D3EDA, 0x3F9EF532, 0x3FA0B051, 0x3FA27043, 0x3FA43516]
    ++ [0x3FA5FED7, 0x3FA7CD94, 0x3FA9A15B, 0x3FAB7A3A, 0x3FAD583F, 0x3FAF3B79, 0x3FB123F6, 0x3FB311C4]
    ++ [0x3FB504F3, 0x3FB6FD92, 0x3FB8FBAF, 0x3FBAFF5B, 0x3FBD08A4, 0x3FBF179A, 0x3FC12C4D, 0x3FC346CD]
    ++ [0x3FC5672A, 0x3FC78D75, 0x3FC9B9BE, 0x3FCBEC15, 0x3FCE248C, 0x3FD06334, 0x3FD2A81E, 0x3FD4F35B]
    ++ [0x3FD744FD, 0x3FD99D16, 0x3FDBFBB8, 0x3FDE60F5, 0x3FE0CCDF, 0x3FE33F89, 0x3FE5B907, 0x3FE8396A]
    ++ [0x3FEAC0C7, 0x3FED4F30, 0x3FEFE4BA, 0x3FF28177, 0x3FF5257D, 0x3FF7D0DF, 0x3FFA83B3, 0x3FFD3E0C]

/-- Table RL: 64 / (64 + j). -/
def tableRL : List Word32 :=
  [0x3F800000, 0x3F7C0FC1, 0x3F783E10, 0x3F74898D, 0x3F70F0F1, 0x3F6D7304, 0x3F6A0EA1, 0x3F66C2B4]
    ++ [0x3F638E39, 0x3F607038, 0x3F5D67C9, 0x3F5A740E, 0x3F579436, 0x3F54C77B, 0x3F520D21, 0x3F4F6475]
    ++ [0x3F4CCCCD, 0x3F4A4588, 0x3F47CE0C, 0x3F4565C8, 0x3F430C31, 0x3F40C0C1, 0x3F3E82FA, 0x3F3C5264]
    ++ [0x3F3A2E8C, 0x3F381703, 0x3F360B61, 0x3F340B41, 0x3F321643, 0x3F302C0B, 0x3F2E4C41, 0x3F2C7692]
    ++ [0x3F2AAAAB, 0x3F28E83F, 0x3F272F05, 0x3F257EB5, 0x3F23D70A, 0x3F2237C3, 0x3F20A0A1, 0x3F1F1166]
    ++ [0x3F1D89D9, 0x3F1C09C1, 0x3F1A90E8, 0x3F191F1A, 0x3F17B426, 0x3F164FDA, 0x3F14F209, 0x3F139A86]
    ++ [0x3F124925, 0x3F10FDBC, 0x3F0FB824, 0x3F0E7835, 0x3F0D3DCB, 0x3F0C08C1, 0x3F0AD8F3, 0x3F09AE41]
    ++ [0x3F088889, 0x3F0767AB, 0x3F064B8A, 0x3F053408, 0x3F042108, 0x3F03126F, 0x3F020821, 0x3F010204]

/-- Table LL: log2 (1 + j / 64). -/
def tableLL : List Word32 :=
  [0x00000000, 0x3CB73CB4, 0x3D35D69C, 0x3D8759C5, 0x3DB31FB8, 0x3DDE4212, 0x3E0462C4, 0x3E19574F]
    ++ [0x3E2E00D2, 0x3E42615F, 0x3E567AF1, 0x3E6A4F72, 0x3E7DE0B6, 0x3E88983F, 0x3E92203D, 0x3E9B8926]
    ++ [0x3EA4D3C2, 0x3EAE00D2, 0x3EB7110E, 0x3EC0052B, 0x3EC8DDD4, 0x3ED19BB0, 0x3EDA3F60, 0x3EE2C97D]
    ++ [0x3EEB3A9F, 0x3EF39355, 0x3EFBD42B, 0x3F01FED4, 0x3F060828, 0x3F0A0650, 0x3F0DF989, 0x3F11E20F]
    ++ [0x3F15C01A, 0x3F1993E3, 0x3F1D5DA0, 0x3F211D84, 0x3F24D3C2, 0x3F28808C, 0x3F2C2411, 0x3F2FBE80]
    ++ [0x3F335004, 0x3F36D8CB, 0x3F3A58FF, 0x3F3DD0C8, 0x3F41404F, 0x3F44A7BA, 0x3F480731, 0x3F4B5ED7]
    ++ [0x3F4EAED0, 0x3F51F740, 0x3F553848, 0x3F587209, 0x3F5BA4A4, 0x3F5ED039, 0x3F61F4E5, 0x3F6512C7]
    ++ [0x3F6829FB, 0x3F6B3A9F, 0x3F6E44CD, 0x3F7148A1, 0x3F744636, 0x3F773DA4, 0x3F7A2F04, 0x3F7D1A71]

/-- Table RC: 128 / (129 + 2 j). -/
def tableRC : List Word32 :=
  [0x3F7E03F8, 0x3F7A232D, 0x3F76603E, 0x3F72B9D6, 0x3F6F2EB7, 0x3F6BBDB3, 0x3F6865AC, 0x3F652598]
    ++ [0x3F61FC78, 0x3F5EE95C, 0x3F5BEB62, 0x3F5901B2, 0x3F562B81, 0x3F53680D, 0x3F50B6A0, 0x3F4E168A]
    ++ [0x3F4B8728, 0x3F4907DA, 0x3F46980C, 0x3F443730, 0x3F41E4BC, 0x3F3FA030, 0x3F3D6910, 0x3F3B3EE7]
    ++ [0x3F392144, 0x3F370FBB, 0x3F3509E7, 0x3F330F63, 0x3F311FD4, 0x3F2F3ADE, 0x3F2D602B, 0x3F2B8F6A]
    ++ [0x3F29C84A, 0x3F280A81, 0x3F2655C4, 0x3F24A9CF, 0x3F23065E, 0x3F216B31, 0x3F1FD80A, 0x3F1E4CAD]
    ++ [0x3F1CC8E1, 0x3F1B4C70, 0x3F19D723, 0x3F1868C8, 0x3F17012E, 0x3F15A025, 0x3F144581, 0x3F12F114]
    ++ [0x3F11A2B4, 0x3F105A38, 0x3F0F177A, 0x3F0DDA52, 0x3F0CA29C, 0x3F0B7034, 0x3F0A42F8, 0x3F091AC7]
    ++ [0x3F07F781, 0x3F06D905, 0x3F05BF37, 0x3F04A9FA, 0x3F039930, 0x3F028CC0, 0x3F01848E, 0x3F008081]

/-- Table RS: 1 / √a_j. -/
def tableRS : List Word32 :=
  [0x3F7E05EC, 0x3F7A33F9, 0x3F768CDC, 0x3F730D8A, 0x3F6FB345, 0x3F6C7B90, 0x3F69642A, 0x3F666B02]
    ++ [0x3F638E39, 0x3F60CC16, 0x3F5E2305, 0x3F5B9193, 0x3F59166B, 0x3F56B051, 0x3F545E22, 0x3F521ED0]
    ++ [0x3F4FF162, 0x3F4DD4ED, 0x3F4BC89B, 0x3F49CBA2, 0x3F47DD45, 0x3F45FCD6, 0x3F4429AF, 0x3F426337]
    ++ [0x3F40A8DE, 0x3F3EFA1C, 0x3F3D5671, 0x3F3BBD67, 0x3F3A2E8C, 0x3F38A975, 0x3F372DBF, 0x3F35BB09]
    ++ [0x3F339F19, 0x3F30EB96, 0x3F2E565C, 0x3F2BDD46, 0x3F297E62, 0x3F2737F0, 0x3F250855, 0x3F22EE1D]
    ++ [0x3F20E7F5, 0x3F1EF4A4, 0x3F1D130E, 0x3F1B422C, 0x3F19810C, 0x3F17CED0, 0x3F162AA9, 0x3F1493D9]
    ++ [0x3F1309AF, 0x3F118B87, 0x3F1018C6, 0x3F0EB0E0, 0x3F0D534F, 0x3F0BFF97, 0x3F0AB544, 0x3F0973E8]
    ++ [0x3F083B1E, 0x3F070A87, 0x3F05E1C7, 0x3F04C08B, 0x3F03A682, 0x3F029362, 0x3F0186E2, 0x3F0080C1]

/-- An entry of a table. -/
def entry (t : List Word32) (j : Nat) : Word32 := t.getD j 0

/-- RNE32 (p × x + c) with an exact x. -/
def horner (p : Word32) (x : Val) (c : Word32) : Word32 := rne32 (((f32 p).mul x).add (f32 c))

/-- EXP2 (05 R115). -/
def exp2 (w : Word32) : Word32 :=
  match f32 w with
  | .nan => 0x7FC00000
  | .inf s => if s then 0 else 0x7F800000
  | .fin s m e =>
    let x := Val.fin s m e
    if !x.lt (Val.ofInt 128) then 0x7F800000
    else if x.lt (Val.ofInt (-160)) then 0
    else
      let n := ((x.scale 6).round .rne).getD 0
      let k := n / 64
      let j := (n % 64).toNat
      let f := x.add ((Val.ofInt n).neg.scale (-6))
      let q := horner 0x3C1D9557 f 0x3D635845
      let q := horner q f 0x3E75FDFA
      let q := horner q f 0x3F317218
      let q := rne32 ((f32 q).mul f)
      let y := fmaW (entry tableT2 j) q (entry tableT2 j)
      rne32 ((f32 y).scale k)

/-- m × 2^e with 1 ≤ m < 2, of a finite non-zero value: the exponent, and m as an exact value. -/
def splitVal (m : Nat) (e : Int) : Int × Val := ((Nat.log2 m : Int) + e, .fin false m (-(Nat.log2 m : Int)))
/-- floor ((m − 1) × n) for that m. -/
def splitIndex (m n : Nat) : Nat := (m - 2 ^ Nat.log2 m) * n / 2 ^ Nat.log2 m

/-- LOG2 (05 R116). -/
def log2 (w : Word32) : Word32 :=
  match f32 w with
  | .nan => 0x7FC00000
  | .inf s => if s then 0x7FC00000 else 0x7F800000
  | .fin s m e =>
    if m = 0 then 0xFF800000
    else if s then 0x7FC00000
    else
      let me := splitVal m e
      let j := splitIndex m 64
      let u := rne32 ((me.2.mul (f32 (entry tableRL j))).add (Val.ofInt (-1)))
      let p := fmaW 0x3E93BB62 u 0xBEB8AA3B
      let p := fmaW p u 0x3EF63851
      let p := fmaW p u 0xBF38AA3B
      let p := fmaW p u 0x3FB8AA3B
      let y := fmaW p u (entry tableLL j)
      rne32 ((f32 y).add (Val.ofInt me.1))

/-- RCP (05 R117). -/
def rcp (w : Word32) : Word32 :=
  match f32 w with
  | .nan => 0x7FC00000
  | .inf s => if s then 0x80000000 else 0
  | .fin s m e =>
    if m = 0 then (if s then 0xFF800000 else 0x7F800000)
    else
      let me := splitVal m e
      let r := entry tableRC (splitIndex m 64)
      let h := rne32 ((Val.ofInt 1).add (me.2.mul (f32 r)).neg)
      let p := fmaW 0x3F800000 h 0x3F800000
      let p := fmaW p h 0x3F800000
      let p := fmaW p h 0x3F800000
      let p := fmaW p h 0x3F800000
      let y := mulF r p
      let v := (f32 y).scale (-me.1)
      rne32 (if s then v.neg else v)

/-- RSQ (05 R118). -/
def rsq (w : Word32) : Word32 :=
  match f32 w with
  | .nan => 0x7FC00000
  | .inf s => if s then 0x7FC00000 else 0
  | .fin s m e =>
    if m = 0 then (if s then 0xFF800000 else 0x7F800000)
    else if s then 0x7FC00000
    else
      let me := splitVal m e
      let odd := me.1 % 2 = 1
      let g := if odd then me.2.scale 1 else me.2
      let e2 := if odd then me.1 - 1 else me.1
      let r := entry tableRS ((if odd then 32 else 0) + splitIndex m 32)
      let w := rne32 (g.mul (f32 r))
      let h := rne32 ((Val.ofInt 1).add ((f32 w).mul (f32 r)).neg)
      let p := fmaW 0x3E8C0000 h 0x3EA00000
      let p := fmaW p h 0x3EC00000
      let p := fmaW p h 0x3F000000
      let p := fmaW p h 0x3F800000
      let y := mulF r p
      rne32 ((f32 y).scale (-(e2 / 2)))

/-! ## Element types of streams, conversions and the matrix engine (04 R80, 05 R92 to R94) -/

/-- The floating format of an element type; none for an integer. -/
def EType.fmt : EType → Option Fmt
  | .int _ => none
  | .f32 => some fp32
  | .bf16 => some Sys2Proof.Machine.bf16
  | .e4m3 => some Sys2Proof.Machine.e4m3
  | .e5m2 => some Sys2Proof.Machine.e5m2
  | .e3m2 => some Sys2Proof.Machine.e3m2
  | .e2m1 => some Sys2Proof.Machine.e2m1

/-- The bits of an element as stored (05 R93). -/
def EType.bits : EType → Nat
  | .int t => (match t with | .i8 | .n8 => 8 | .i16 | .n16 => 16 | .i32 | .n32 => 32 | .i64 | .n64 => 64)
  | .f32 => 32
  | .bf16 => 16
  | .e4m3 => 8
  | .e5m2 => 8
  | .e3m2 => 6
  | .e2m1 => 4

/-- A scaled element decoded to FP32 (05 R94): scale 0xFF gives the canonical NaN. -/
def scaledF32 (x : Val) (b : Nat) : Word32 := if b = 255 then 0x7FC00000 else rne32 (x.scale ((b : Int) - 127))

end Sys2Proof.Machine
end

