-- ==== Sys2Proof/Machine/Streams.lean ====
section
/-! DEFINITION. Streams: descriptors (07 R164, R165), addresses (R166), conversions (R167), delivery, performing, retirement (R169 to R176). -/

namespace Sys2Proof.Machine

/-! ## Descriptors -/

/-- The element type of a 4-bit code (04 R80); none where it is reserved. -/
def etypeOf (n : Nat) : Option EType :=
  match n with
  | 0 => some (.int .i8) | 1 => some (.int .i16) | 2 => some (.int .i32) | 3 => some (.int .i64)
  | 4 => some (.int .n8) | 5 => some (.int .n16) | 6 => some (.int .n32) | 7 => some (.int .n64)
  | 8 => some .f32 | 9 => some .bf16 | 10 => some .e4m3 | 11 => some .e5m2 | 12 => some .e3m2 | 13 => some .e2m1
  | _ => none

/-- Bits `lo` to `lo + len - 1` of a structure given as words. -/
def wordsBits (ws : List PWord) (lo len : Nat) : Nat := wordsNat ws / 2 ^ lo % 2 ^ len

/-- The product of a list. -/
def product (l : List Nat) : Nat := l.foldl (· * ·) 1

/-- The elements of a stream. -/
def Desc.total (d : Desc) : Nat := product d.count

/-- A descriptor read for register q; none where it is bad (07 R165). A descriptor's word is kept with its poison: `psn` says whether one that
forms addresses is poisoned (18 R481). -/
def parseDesc (q : Nat) (ws : List PWord) : Option Desc :=
  let f := wordsBits ws
  let sc := f 455 1 = 1
  let on := f 640 8
  let off := f 648 8
  let psn := (ws.zipIdx).any fun x => x.1.p && (decide (x.2 < 15) || (sc && decide (16 ≤ x.2) && decide (x.2 ≤ 18)))
  match etypeOf (f 448 4) with
  | none => none
  | some et =>
    let d : Desc := {
      base := BitVec.ofNat 64 (f 0 64)
      count := (List.range 6).map fun n => f (64 + 64 * n) 32
      stride := (List.range 6).map fun n => (BitVec.ofNat 32 (f (96 + 64 * n) 32)).toInt
      et := et, cc := BitVec.ofNat 3 (f 452 3), sc := sc, home := f 456 2 = 1, ix := f 458 1 = 1, iq := f 459 4, idim := f 463 3
      sbase := BitVec.ofNat 64 (f 512 64), srow := f 576 32
      on := if on = 0 && off = 0 then 48 else on, off := if on = 0 && off = 0 then 112 else off, psn := psn }
    let packed := et == .e3m2 || et == .e2m1
    let count0 := f 64 32
    let bad :=
      f 52 12 ≠ 0 || f 466 46 ≠ 0 || f 608 32 ≠ 0 || f 656 48 ≠ 0 || f 704 320 ≠ 0
        || 2 ≤ f 456 2
        || (packed && f 96 32 ≠ 0)
        || (et == .e3m2 && count0 % 4 ≠ 0) || (et == .e2m1 && count0 % 2 ≠ 0)
        || (sc && (!(et == .e4m3 || et == .e5m2 || packed) || count0 % 32 ≠ 0 || f 458 1 = 1))
        || (f 458 1 = 1 && (f 463 3 = 0 || 5 < f 463 3 || f 459 4 = q))
        || (!(on = 0 && off = 0) && (off ≤ on || 128 < off))
        || 2 ^ 48 ≤ product d.count
    if bad then none else some d

/-! ## Addresses -/

/-- The indexes i0 to i5 of stream element i. -/
def Desc.index (d : Desc) (i : Nat) : List Nat :=
  (d.count.foldl (fun (acc : List Nat × Nat) c => (acc.1 ++ [acc.2 % c], acc.2 / c)) ([], i)).1

/-- The bit of stream element i from its byte address's own byte, and that byte address (07 R166); `v` is the IDX it uses. -/
def Desc.address (d : Desc) (i : Nat) (v : Int) : Int × Nat :=
  let ix := d.index i
  let off := ((List.range 6).drop 1).foldl (fun (o : Int) n =>
    o + (if d.ix && n = d.idim then v else (ix.getD n 0 : Nat)) * d.stride.getD n 0) (d.base.toNat : Int)
  let i0 := ix.getD 0 0
  if d.stride.getD 0 0 = 0 then (off + ((i0 * EType.bits d.et / 8 : Nat) : Int), i0 * EType.bits d.et % 8)
  else (off + i0 * d.stride.getD 0 0, 0)

/-- The address of the scale byte of stream element i. -/
def Desc.scaleAddr (d : Desc) (i : Nat) : Nat :=
  let ix := d.index i
  let row := ((ix.zip d.count).drop 1).foldr (fun x n => x.1 + x.2 * n) 0
  d.sbase.toNat + d.srow * row + ix.getD 0 0 / 32

/-- The number of stream elements that share one IDX. -/
def Desc.perIdx (d : Desc) : Nat := product (d.count.take d.idim)

/-! ## Reading an element -/

/-- The bytes that hold `bits` bits from bit `sub` of a byte on. -/
def spanBytes (sub bits : Nat) : Nat := (sub + bits + 7) / 8

/-- The checks on an element's address: the address space, alignment (07 R166). -/
def Desc.checkAddr (d : Desc) (a : Int) : Option (Nat × Nat) :=
  let bytes := EType.bits d.et / 8
  if a < 0 || 2 ^ 52 ≤ a then some (0x07, (a % 2 ^ 52).toNat)
  else if 1 < bytes && a % bytes ≠ 0 then some (0x05, a.toNat)
  else none

/-- An element read as it is stored. -/
def State.readElem (s : State) (c : Nat) (d : Desc) (a : Int) (sub : Nat) : State × Got (Nat × Bool) :=
  match d.checkAddr a with
  | some (cause, addr) => (s, .fault cause addr)
  | none =>
    let bits := EType.bits d.et
    let r := if bits % 8 = 0 then s.readVia c d.home a.toNat (bits / 8) else s.readBytes c d.home a.toNat (spanBytes sub bits)
    match r with
    | (s, .got (v, p)) => (s, .got (v / 2 ^ sub % 2 ^ bits, p))
    | r => r

/-- The IDX of stream element i, taken where it is not held (07 R166, R176). -/
def State.takeIdx (s : State) (c q : Nat) (d : Desc) (t : Strm) (i : Nat) : State × Got Int :=
  if !d.ix then (s, .got 0)
  else
    let j := i / d.perIdx
    if t.idxTaken = j + 1 then (s, .got (t.idx.getD 0 0))
    else
      match (s.core? c).bind fun k => (k.sreg d.iq).desc with
      | none => (s, .wait)
      | some e =>
        if e.total ≤ j then (s, .wait)
        else if e.psn then (s, .poison e.base.toNat)
        else
          let a := e.address j 0
          match s.readElem c e a.1 a.2 with
          | (s, .got (v, p)) =>
            if p then (s, .poison (a.1 % 2 ^ 52).toNat)
            else
              let n : Int := match e.et with
                | .int t => IType.int t (BitVec.ofNat 64 v)
                | _ => v
              (s.updStrm c q fun t => { t with idx := [n], idxTaken := j + 1 }, .got n)
          | (s, .wait) => (s, .wait)
          | (s, .fault cause addr) => (s, .fault cause addr)
          | (s, .poison addr) => (s, .poison addr)

/-- The scale byte of stream element i with its poison; it is read with the first element that the stream takes of its block. -/
def State.takeScale (s : State) (c q : Nat) (d : Desc) (t : Strm) (i : Nat) : State × Got (Byte × Bool) :=
  let block := i - (d.index i).getD 0 0 % 32 + 1
  if !d.sc then (s, .got (127, false))
  else if t.sclBlk = block then (s, .got (t.scl, t.sclPsn))
  else
    match s.readVia c d.home (d.scaleAddr i) 1 with
    | (s, .got (v, p)) => (s.updStrm c q fun t => { t with scl := BitVec.ofNat 8 v, sclPsn := p, sclBlk := block }, .got (BitVec.ofNat 8 v, p))
    | (s, .wait) => (s, .wait)
    | (s, .fault cause addr) => (s, .fault cause addr)
    | (s, .poison addr) => (s, .poison addr)

/-- Stream element i of a load stream. -/
def State.fetchElem (s : State) (c q : Nat) (d : Desc) (t : Strm) (i : Nat) : State × Got Elem :=
  if d.psn then (s, .poison d.base.toNat)
  else
    match s.takeIdx c q d t i with
    | (s, .got v) =>
      (match s.takeScale c q d t i with
        | (s, .got (sc, sp)) =>
          let a := d.address i v
          (match s.readElem c d a.1 a.2 with
            | (s, .got (b, p)) => (s, .got ⟨BitVec.ofNat 64 b, p, sc, sp⟩)
            | (s, .wait) => (s, .wait)
            | (s, .fault cause addr) => (s, .fault cause addr)
            | (s, .poison addr) => (s, .poison addr))
        | (s, .wait) => (s, .wait)
        | (s, .fault cause addr) => (s, .fault cause addr)
        | (s, .poison addr) => (s, .poison addr))
    | (s, .wait) => (s, .wait)
    | (s, .fault cause addr) => (s, .fault cause addr)
    | (s, .poison addr) => (s, .poison addr)

/-! ## Conversions at the ports (07 R167) -/

/-- The FP32 word, or the integer word, that a delivered element becomes: 05 R94 decodes it to FP32, rounding to nearest, and what 07 R167 then has 05 R100
convert under CC is an FP32 word already, which no CC changes (DEDUCED, log entry 80). -/
def Elem.word (e : Elem) (et : EType) : PWord :=
  match et, EType.fmt et with
  | .int t, _ => ⟨(IType.fit t e.bits).truncate 32, e.p⟩
  | .f32, _ => ⟨e.bits.truncate 32, e.p⟩
  | _, some f => ⟨scaledF32 (f.decode e.bits.toNat) e.scale.toNat, e.p || e.sp⟩
  | _, none => ⟨0, e.p⟩

/-- The poisoned +0 of a cancelled stream (07 R175). -/
def Elem.dead : Elem := ⟨0, true, 127, false⟩

/-- A word converted for a store stream without scale bytes. -/
def storeBits (et : EType) (cc : BitVec 3) (w : Word32) : Nat :=
  match et, EType.fmt et with
  | .int t, _ =>
    let v : Int := if IType.signed t then w.toInt else w.toNat
    let lim : Int × Int := if IType.signed t then (-(2 ^ (IType.width t - 1) : Nat), (2 ^ (IType.width t - 1) : Nat) - 1) else (0, (2 ^ IType.width t : Nat) - 1)
    (BitVec.ofInt 64 (Max.max lim.1 (Min.min lim.2 v))).toNat % 2 ^ IType.width t
  | .f32, _ => w.toNat
  | _, some f => f.convert (rmodeOf (bitsOf cc 0 2)) (cc.getLsbD 2) (f32 w)
  | _, none => 0

/-- The exponent of a finite non-zero value. -/
def Val.log : Val → Option Int
  | .fin _ m e => if m = 0 then none else some ((Nat.log2 m : Int) + e)
  | .nan => none
  | .inf _ => none

/-- Emax of a narrow format. -/
def EType.emax : EType → Int
  | .e4m3 => 8
  | .e5m2 => 15
  | .e3m2 => 4
  | .e2m1 => 2
  | .int _ => 0
  | .f32 => 0
  | .bf16 => 0

/-- The scale byte of a block, before a NaN of a format without one makes it 0xFF. -/
def blockScale (et : EType) (ws : List Word32) : Nat :=
  match (ws.filterMap fun w => (f32 w).log) with
  | [] => 127
  | l :: ls => (Max.max 0 (Min.min 254 (ls.foldl Max.max l - EType.emax et + 127))).toNat

/-! ## Buffers (07 R170) -/

/-- The elements that a buffer can hold before its occupancy reaches a level (07 R170). A 64-byte unit that is filled in part counts as a unit: the spec does
not say (DESIGN CHOICE, log entry 82). -/
def levelElems (units bits : Nat) : Nat := (units - 1) * 512 / bits + 1

/-- A load stream's buffered elements. -/
def Core.loadBuf (k : Core) (q : Nat) : List Elem :=
  match (k.sreg q).strm with
  | none => []
  | some t => if t.store then [] else t.buf

/-- A load stream's first `n` elements are taken. -/
def Core.takeElems (k : Core) (q n : Nat) : Core × List Elem :=
  let l := (k.loadBuf q).take n
  (k.setSreg q (let r := k.sreg q
    { r with strm := r.strm.map fun t => if t.store then t else { t with buf := t.buf.drop n, taken := t.taken + l.length } }), l)

/-- The elements that a store stream performs together: a block with its scale byte, a group packed in whole bytes. -/
def Desc.group (d : Desc) : Nat :=
  if d.sc then 32
  else
    match d.et with
    | .e3m2 => 4
    | .e2m1 => 2
    | .int _ | .f32 | .bf16 | .e4m3 | .e5m2 => 1

/-- Whether a store stream that has stood at OFF has not yet fallen to ON (07 R170). -/
def Strm.shut (t : Strm) (d : Desc) : Bool := t.stopped && decide (d.on * 512 < t.buf.length * EType.bits d.et)

/-- How many words a register's store stream takes now: up to the level OFF, none from there until it has fallen to ON, and always what the group at hand
still needs. -/
def Core.storeRoom (k : Core) (q : Nat) : Nat :=
  let r := k.sreg q
  match r.strm, r.desc with
  | some t, some d =>
    if !t.store then 0
    else if t.cancelled then t.total - t.taken
    else min (t.total - t.taken) (max (if t.shut d then 0 else levelElems d.off (EType.bits d.et)) (d.group - t.done % d.group) - t.buf.length)
  | _, _ => 0

/-- Words given to a register's store stream; a cancelled one discards them. -/
def Core.giveWords (k : Core) (q : Nat) (ws : List PWord) : Core :=
  let r := k.sreg q
  k.setSreg q { r with strm := r.strm.map fun t =>
    { t with
      taken := t.taken + ws.length
      done := if t.cancelled then t.done + ws.length else t.done
      buf := if t.cancelled then t.buf else t.buf ++ ws.map fun w => ⟨w.w.zeroExtend 64, w.p, 127, false⟩
      stopped := match r.desc with
        | none => t.stopped
        | some d => t.shut d || decide (levelElems d.off (EType.bits d.et) ≤ t.buf.length + ws.length) } }

/-- Whether a stream has a consumer or a producer: a matrix operation that names its register, the running grid, a GRUN to come. -/
def Core.consumer (k : Core) (q : Nat) : Bool :=
  (k.mx.live.any fun o =>
    match o.kind with
    | .mma _ _ r _ => r == q
    | .mbld r _ => r == q
    | .mzst _ r => r == q
    | .mzld _ r => r == q
    | .mtrn _ _ | .mbfly _ _ _ _ | .mtwid _ _ | .mfmt _ _ _ | .mdrain | .mzrd _ _ _ _ | .mzwr _ _ _ _ _ | .mzero _ => false)
    || (match k.grid.run with
        | none => false
        | some r => (List.range 6).any fun i => r.bind.getLsbD (5 * i + 4) && bitsOf r.bind (5 * i) 4 == q)
    || (k.qcmds.any fun y =>
        match y.kind with
        | .grun b _ _ => (List.range 6).any fun i => b.getLsbD (5 * i + 4) && bitsOf b (5 * i) 4 == q
        | .qset _ _ | .strm _ _ _ | .qcopy _ _ _ | .qccopy _ _ _ | .qrcopy _ _ _ | .gcfg _ _ _ | .qsave _ | .stash _ _ _ => false)

/-- After elements have been taken from or given to the streams of a core: those that are through retire, those that stood still go on. -/
def State.afterTake (s : State) (c : Nat) : State :=
  match s.core? c with
  | none => s
  | some k =>
    s.forEach k.sregs fun s kv =>
      match kv.2.bind (·.strm) with
      | none => s
      | some t =>
        if t.store then
          if t.cancelled && (t.done = t.total || !k.consumer kv.1) then s.postOnce 0 (.streamRetire c kv.1)
          else if t.buf.isEmpty || t.faulted then s else s.postOnce 1 (.storeStreamElementPerformed c kv.1)
        else if t.taken = t.total then s.postOnce 0 (.streamRetire c kv.1)
        else if t.done < t.total && t.stopped && !t.faulted then s.postOnce 1 (.streamDataArrival c kv.1)
        else s

/-- Whether the task that owns a stream register has ended. -/
def State.orphan (s : State) (c n : Nat) : Bool :=
  match s.ctx? c n with
  | none => true
  | some x => x.st = .empty

/-! ## Delivery -/

/-- What became of a delivery. -/
inductive Pump where | more | waits | ends
deriving DecidableEq, Repr

/-- Up to `n` elements of a load stream arrive in the buffer and are delivered (07 R169, R170). One that a pre-emption has stopped delivers to
an operation that has started, and to no other (12 R293). -/
def State.pump (s : State) (c q : Nat) : Nat → State × Pump
  | 0 => (s, .more)
  | n + 1 =>
    match (s.core? c).map fun k => (k, k.sreg q) with
    | none => (s, .ends)
    | some (k, r) =>
      match r.strm, r.desc with
      | some t, some d =>
        if t.store || t.faulted || t.total ≤ t.done then (s, .ends)
        else if t.frozen && !k.consumer q then (s, .ends)
        else
          let bits := EType.bits d.et
          if t.stopped && decide (d.on * 512 < t.buf.length * bits) then (s, .waits)
          else if levelElems d.off bits ≤ t.buf.length then (s.updStrm c q fun t => { t with stopped := true }, .waits)
          else
            let put := fun (s : State) (e : Elem) =>
              s.updStrm c q fun t => { t with buf := t.buf ++ [e], done := t.done + 1, stopped := false }
            if t.cancelled then (put s .dead).pump c q n
            else
              match s.fetchElem c q d t t.done with
              | (s, .got e) => (put s e).pump c q n
              | (s, .wait) => (s, .waits)
              -- the fault is counted and reported where the element is tried again, at STREAM_ELEMENT_FAULT
              | (_, .fault _ _) => (s.postOnce 0 (.streamElementFault c q), .ends)
              | (s, .poison a) =>
                (((s.updSreg c q SReg.cancel).poisonLater c t.ctx 0 a).postOnce 1 (.streamDataArrival c q), .ends)
      | _, _ => (s, .ends)

/-- A batch of a load stream: at most 256 bytes a cycle (07 R169). A cancelled stream whose owner's task has ended and that nothing takes from has nothing to
deliver: no later consumer can name its register (07 R163, R175). -/
def State.deliver (s : State) (c q : Nat) : State :=
  match (s.core? c).map fun k => (k, k.sreg q) with
  | none => s
  | some (k, r) =>
    match r.strm, r.desc with
    | some t, some d =>
      if t.store then s
      else if t.cancelled && !k.consumer q && s.orphan c t.ctx then
        (s.updStrm c q fun t => { t with buf := [], done := t.total, taken := t.total }).postOnce 0 (.streamRetire c q)
      else
        match s.pump c q (max 1 (2048 / EType.bits d.et)) with
        | (s, .more) => if t.total ≤ t.done then s else s.postOnce 1 (.streamDataArrival c q)
        | (s, .waits) => s
        | (s, .ends) => s
    | _, _ => s

/-! ## Performing -/

/-- Codes packed from bit 0 on. -/
def packCodes (bits : Nat) : List Nat → Nat
  | [] => 0
  | c :: l => c % 2 ^ bits + 2 ^ bits * packCodes bits l

/-- `n` bits written from bit `sub` of a byte on; the other bits of a byte written in part stay as they are (05 R93). -/
def State.writeBits (s : State) (c ctx : Nat) (home : Bool) (va sub n val : Nat) (psn : Bool) : State × Got Unit :=
  let nb := spanBytes sub n
  if sub = 0 && n % 8 = 0 then s.writeBytes c ctx home va val psn nb
  else
    match s.readBytes c home va nb with
    | (s, .got (old, p)) =>
      let v := old % 2 ^ sub + 2 ^ sub * (val % 2 ^ n) + old / 2 ^ (sub + n) * 2 ^ (sub + n)
      s.writeBytes c ctx home va v (psn || p) nb
    | (s, .wait) => (s, .wait)
    | (s, .fault cause a) => (s, .fault cause a)
    | (s, .poison a) => (s, .poison a)

/-- How far a group of a store stream has got: the state with its first `k` elements written, the state after what was tried last, and what that
came to. -/
structure Performed where
  s : State
  k : Nat
  after : State
  got : Got Unit

/-- The codes of elements are written one after another; `i` is the first, `k` how many are written already (07 R173). -/
def State.writeElems (s : State) (c ctx : Nat) (d : Desc) (v : Int) (i k : Nat) : List (Nat × Bool) → Performed
  | [] => ⟨s, k, s, .got ()⟩
  | (code, p) :: l =>
    let a := d.address i v
    match d.checkAddr a.1 with
    | some (cause, addr) => ⟨s, k, s, .fault cause addr⟩
    | none =>
      let bits := EType.bits d.et
      match (if bits % 8 = 0 then s.writeVia c ctx d.home a.1.toNat (bits / 8) code p else s.writeBits c ctx d.home a.1.toNat a.2 bits code p) with
      | (s', .got _) => s'.writeElems c ctx d v (i + 1) (k + 1) l
      | (s', r) => ⟨s, k, s', r⟩

/-- The codes of elements that lie one behind another are written: packed ones in whole bytes where none faults. -/
def State.writeCodes (s : State) (c ctx : Nat) (d : Desc) (v : Int) (i : Nat) (l : List (Nat × Bool)) : Performed :=
  let bits := EType.bits d.et
  let a := d.address i v
  if bits % 8 = 0 || (d.checkAddr a.1).isSome then s.writeElems c ctx d v i 0 l
  else
    match s.writeBits c ctx d.home a.1.toNat a.2 (l.length * bits) (packCodes bits (l.map (·.1))) (l.any (·.2)) with
    | (s', .got _) => ⟨s', l.length, s', .got ()⟩
    | (s', .wait) => ⟨s, 0, s', .wait⟩
    | _ => s.writeElems c ctx d v i 0 l

/-- The code of a word in a block under the scale computed for it. -/
def blockCode (et : EType) (cc : BitVec 3) (b : Nat) (w : Word32) : Nat :=
  match EType.fmt et with
  | none => 0
  | some f => f.convert (rmodeOf (bitsOf cc 0 2)) (cc.getLsbD 2) ((f32 w).scale (127 - (b : Int)))

/-- Whether a word has no code in a format with scale bytes: the scale byte of its block becomes 0xFF (05 R100 Table 3). -/
def lacksCode (et : EType) (w : Word32) : Bool := (et == .e3m2 || et == .e2m1) && (f32 w).isNan

/-- The scale of the block that element i lies in: the one computed for it before, where the block has been begun; the one in memory, where another stream
has begun it before a pre-emption (DEDUCED, log entry 81); else that of the words at hand, which is written first, or 0xFF in its place where one of
them has no code. -/
def State.blockByte (s : State) (c q : Nat) (d : Desc) (t : Strm) (i : Nat) (es : List Elem) : State × Got Nat :=
  let ws := es.map fun e => e.bits.truncate 32
  let put := fun (s : State) (b : Nat) =>
    match s.writeVia c t.ctx d.home (d.scaleAddr i) 1 (if ws.any (lacksCode d.et) then 255 else b) (es.any (·.p)) with
    | (s, .got _) => (s.updStrm c q fun t => { t with scl := BitVec.ofNat 8 b, sclBlk := i / 32 + 1 }, .got b)
    | (s, .wait) => (s, .wait)
    | (s, .fault cause a) => (s, .fault cause a)
    | (s, .poison a) => (s, .poison a)
  if i % 32 = 0 && t.sclBlk ≠ i / 32 + 1 then put s (blockScale d.et ws)
  else if t.sclBlk = i / 32 + 1 then (s, .got t.scl.toNat)
  else
    match s.readVia c d.home (d.scaleAddr i) 1 with
    | (s, .got (m, _)) =>
      let b := if m = 255 then blockScale d.et ws else m
      if ws.any (lacksCode d.et) then put s b else (s.updStrm c q fun t => { t with scl := BitVec.ofNat 8 b, sclBlk := i / 32 + 1 }, .got b)
    | (s, .wait) => (s, .wait)
    | (s, .fault cause a) => (s, .fault cause a)
    | (s, .poison a) => (s, .poison a)

/-- Elements of one group of a store stream perform at its endpoint, from element i on. -/
def State.performGroup (s : State) (c q : Nat) (d : Desc) (t : Strm) (i : Nat) (es : List Elem) : Performed :=
  if d.psn then ⟨s, 0, s, .poison d.base.toNat⟩
  else
    match s.takeIdx c q d t i with
    | (s1, .got v) =>
      let ws : List Word32 := es.map fun e => e.bits.truncate 32
      if d.sc then
        match s1.blockByte c q d t i es with
        | (s2, .got b) => s2.writeCodes c t.ctx d v i ((ws.map (blockCode d.et d.cc b)).zip (es.map (·.p)))
        | (s2, .wait) => ⟨s, 0, s2, .wait⟩
        | (s2, .fault cause addr) => ⟨s, 0, s2, .fault cause addr⟩
        | (s2, .poison addr) => ⟨s, 0, s2, .poison addr⟩
      else s1.writeCodes c t.ctx d v i ((ws.map (storeBits d.et d.cc)).zip (es.map (·.p)))
    | (s1, .wait) => ⟨s, 0, s1, .wait⟩
    | (s1, .fault cause addr) => ⟨s, 0, s1, .fault cause addr⟩
    | (s1, .poison addr) => ⟨s, 0, s1, .poison addr⟩

/-- The elements of a store stream that perform next: the rest of the group at hand, fewer where a pre-emption has stopped the stream and no producer
is left (12 R293 Table 7). -/
def Core.groupNow (k : Core) (q : Nat) (d : Desc) (t : Strm) : List Elem :=
  let need := d.group - t.done % d.group
  let es := t.buf.take need
  if es.length < need && !(t.frozen && !k.consumer q) then [] else es

/-- Groups of a store stream perform, as many as `n` elements hold. -/
def State.performStore (s : State) (c q : Nat) : Nat → State × Pump
  | 0 => (s, .more)
  | n + 1 =>
    match (s.core? c).map fun k => (k, k.sreg q) with
    | none => (s, .ends)
    | some (k, r) =>
      match r.strm, r.desc with
      | some t, some d =>
        if !t.store || t.faulted || t.cancelled then (s, .ends)
        else
          let es := k.groupNow q d t
          if es.isEmpty then (s, .ends)
          else
            let p := s.performGroup c q d t t.done (es.map fun e => { e with p := e.p || t.psn })
            let took := fun (s : State) => s.updStrm c q fun t => { t with buf := t.buf.drop p.k, done := t.done + p.k }
            match p.got with
            | .got _ => (took p.s).performStore c q n
            | .wait => (took p.after, .waits)
            | .fault _ _ => ((took p.s).postOnce 0 (.streamElementFault c q), .ends)
            | .poison a =>
              ((((took p.s).updSreg c q SReg.cancel).poisonLater c t.ctx 0 a).postOnce 1 (.streamRetire c q), .ends)
      | _, _ => (s, .ends)

/-- The next element of a stream is tried; where it faults, the stream stops there (07 R173). -/
def State.streamFaultNow (s : State) (c q : Nat) : State :=
  match (s.core? c).map fun k => (k, k.sreg q) with
  | none => s
  | some (k, r) =>
    match r.strm, r.desc with
    | some t, some d =>
      if t.faulted || t.cancelled then s
      else if t.store then
        let p := s.performGroup c q d t t.done ((k.groupNow q d t).map fun e => { e with p := e.p || t.psn })
        (match p.got with
          | .fault cause addr => p.after.faultStream c q cause addr
          | .got _ => s.postOnce 1 (.storeStreamElementPerformed c q)
          | .wait => p.after
          | .poison _ => s.postOnce 1 (.storeStreamElementPerformed c q))
      else
        match s.fetchElem c q d t t.done with
        | (s', .fault cause addr) => s'.faultStream c q cause addr
        | (s', .wait) => s'
        | _ => s.postOnce 1 (.streamDataArrival c q)
    | _, _ => s

/-- A stream that is through retires: the command signals, the register returns to SET, or to FREE where its owner's task has ended and no accepted command
names it (07 R163, R171). -/
def State.retireStream (s : State) (c q : Nat) : State :=
  match (s.core? c).bind fun k => (k.sreg q).strm with
  | none => s
  | some t =>
    -- a cancelled store stream discards what it holds, and goes on receiving while it has a producer (07 R175)
    let alone := match s.core? c with | none => true | some k => !k.consumer q
    let s := if t.store && t.cancelled then s.updStrm c q fun t =>
        if alone then { t with done := t.total, taken := t.total, buf := [] } else { t with done := t.taken, buf := [] }
      else if !t.store && t.cancelled && alone && s.orphan c t.ctx then s.updStrm c q fun t => { t with buf := [], done := t.total, taken := t.total }
      else s
    let through := match (s.core? c).bind fun k => (k.sreg q).strm with
      | none => false
      | some t => if t.store then t.done == t.total else t.taken == t.total
    if !through then s
    else
      let named := match s.core? c with | none => false | some k => k.qcmds.any fun p => (QKind.names p.kind).contains q
      let free := s.orphan c t.ctx && !named
      let s := s.updSreg c q fun r =>
        if free then ⟨0, 0, false, none, 0, r.fcause, none⟩
        else { r with st := if r.desc.isSome then 1 else 4, strm := none }
      (s.post1 c t.ctx t.sync).afterCommand c

end Sys2Proof.Machine
end

