-- ==== Sys2Proof/Machine/Grid.lean ====
section
/-! DEFINITION. The grid (07 R146 to R162): moves and units, the checks of a configuration image, one cycle, the loader, runs and stops of a core's
grid. A fabric slice uses the same cycle with rows of four. -/

namespace Sys2Proof.Machine

/-! ## Move words (07 R147, R152, R154) -/

/-- A move word's fields, and the poison of the word: what the move writes takes it (12 R300). -/
structure Move where
  gd : Nat
  dst : Nat
  src : Nat
  imm : Nat
  psn : Bool
deriving DecidableEq, Repr

/-- The move of a valid word. -/
def moveOf (w : PWord) : Option Move :=
  if w.w.getLsbD 31 then some ⟨bitsOf w.w 29 2, bitsOf w.w 23 6, bitsOf w.w 17 6, bitsOf w.w 0 17, w.p⟩ else none

/-- Codes legal as a destination (07 Table 1). -/
def dstCode (d : Nat) : Bool :=
  decide (d ≤ 0x08) || d == 0x0B || (decide (0x10 ≤ d) && decide (d ≤ 0x13)) || d == 0x15 || (decide (0x20 ≤ d) && decide (d ≤ 0x2D))
    || (decide (0x30 ≤ d) && decide (d ≤ 0x36)) || d == 0x38 || (decide (0x3C ≤ d) && decide (d ≤ 0x3E))
/-- Codes legal as a source. -/
def srcCode (d : Nat) : Bool :=
  decide (d ≤ 0x0C) || (decide (0x10 ≤ d) && decide (d ≤ 0x14)) || [0x20, 0x28, 0x30, 0x38, 0x3C].contains d

/-- Whether a move word of element e breaks a rule of R154; rows have `w` elements. -/
def badMove (w e : Nat) (m : Move) : Bool :=
  !dstCode m.dst || !srcCode m.src || (m.src == 0x14 && e % w != 0) || (m.dst == 0x15 && e != w - 1 && e != 4 * w - 1)
    || (m.imm != 0 && m.src != 0x09 && m.src != 0x0A)

/-- The first word of bundles 0 to II − 1, in ascending offset, that breaks a rule. -/
def badImage (w : Nat) (ii : Nat) (ws : List PWord) : Option (Nat × Nat × Nat) :=
  ((ws.zipIdx).find? fun x =>
    decide (x.2 % 32 / 2 < ii) && (match moveOf x.1 with | none => false | some m => badMove w (x.2 / 32) m)).map fun x =>
    (x.2 / 32, x.2 % 32 / 2, x.2 % 2)

/-! ## The state of grid elements -/

/-- A word of an element's state. -/
def Grid.el (g : Grid) (e code : Nat) : PWord := Tab.get ⟨0, false⟩ g.els (64 * e + code)
/-- A word of an element's state replaced. -/
def Grid.setEl (g : Grid) (e code : Nat) (v : PWord) : Grid := { g with els := Tab.set ⟨0, false⟩ g.els (64 * e + code) v }
/-- An element's flag. -/
def Grid.flag (g : Grid) (e : Nat) : PV := Tab.get ⟨0, false⟩ g.flags e
/-- An element's flag replaced. -/
def Grid.setFlag (g : Grid) (e : Nat) (v : PV) : Grid := { g with flags := Tab.set ⟨0, false⟩ g.flags e v }

/-- The reset state of a run with KEEP = 0: every word but the LUTs +0 (07 R160). -/
def Grid.clear (g : Grid) : Grid := { g with els := [], flags := [], flight := [], clock := 0 }

/-- The results that are readable now take their places (07 R148). -/
def Grid.land (g : Grid) : Grid :=
  let g' := { g with flight := g.flight.filter fun f => decide (g.clock < f.due) }
  (g.flight.filter fun f => decide (f.due ≤ g.clock)).foldl (fun g f =>
    if f.code = 0x0B then g.setFlag f.el ⟨f.val.w, f.val.p⟩ else g.setEl f.el f.code f.val) g'

/-- The place in which a source port is kept. -/
def resultCode (src : Nat) : Nat :=
  match src with
  | 0x20 => 0x21
  | 0x28 => 0x2A
  | 0x30 => 0x31
  | n => n

/-- The unit of a trigger; none where a destination is no trigger. -/
def unitOf (dst : Nat) : Option Nat :=
  if 0x21 ≤ dst && dst ≤ 0x27 then some 0x21
  else if 0x2A ≤ dst && dst ≤ 0x2D then some 0x2A
  else if 0x31 ≤ dst && dst ≤ 0x36 then some 0x31
  else if dst = 0x38 then some 0x38
  else if 0x3C ≤ dst && dst ≤ 0x3E then some 0x3C
  else none

/-- Whether two destinations of one cycle clash (07 R149). -/
def clash (a b : Nat) : Bool :=
  a != 0 && (a == b || (match unitOf a, unitOf b with | some u, some v => u == v | _, _ => false))

/-- Whether a move's guard passes (07 R152). -/
def Move.passes (m : Move) (f : PV) (last : Bool) : Bool :=
  if m.gd = 0 then true else if m.gd = 1 then f.v != 0 else if m.gd = 2 then f.v == 0 else last

/-- The moves of an element that perform in a cycle: slot 1's alone where the two clash. -/
def Grid.moves (g : Grid) (e b : Nat) (last : Bool) : List Move :=
  let ms := (List.range 2).filterMap fun i =>
    match moveOf (Tab.get ⟨0, false⟩ g.img (32 * e + 2 * b + i)) with
    | none => none
    | some m => if m.passes (g.flag e) last then some m else none
  match ms with
  | [m, n] => if clash m.dst n.dst then [n] else [m, n]
  | l => l

/-- An operation started by a trigger: its unit's place, its latency, its result (07 R148, R150). -/
def Grid.fire (g : Grid) (e dst : Nat) (t : PWord) (flag : PV) : List Flight :=
  let o := g.el e 0x20
  let a := g.el e 0x28
  let b := g.el e 0x29
  let c := g.el e 0x30
  let acc := g.el e 0x3C
  let out := fun (code lat : Nat) (w : Word32) (p : Bool) => (⟨e, code, g.clock + lat, ⟨w, p⟩⟩ : Flight)
  let alu := fun (w : Word32) => [out 0x21 1 w (o.p || t.p)]
  let cmp := fun (r : Bool) =>
    let w : Word32 := if r then 1 else 0
    [out 0x31 1 w (c.p || t.p), out 0x0B 1 w (c.p || t.p)]
  match dst with
  | 0x21 => alu (o.w + t.w)
  | 0x22 => alu (o.w - t.w)
  | 0x23 => alu (o.w &&& t.w)
  | 0x24 => alu (o.w ||| t.w)
  | 0x25 => alu (o.w ^^^ t.w)
  | 0x26 => alu (o.w <<< (t.w.toNat % 32))
  | 0x27 => alu (o.w >>> (t.w.toNat % 32))
  | 0x2A => [out 0x2A 4 (fmaW t.w a.w b.w) (t.p || a.p || b.p)]
  | 0x2B => [out 0x2A 4 (mulF t.w a.w) (t.p || a.p)]
  | 0x2C => [out 0x2A 4 (addW t.w b.w) (t.p || b.p)]
  | 0x2D => [out 0x2A 4 (subW t.w b.w) (t.p || b.p)]
  | 0x31 => cmp ((f32 c.w).lt (f32 t.w))
  | 0x32 => cmp ((f32 c.w).lt (f32 t.w) || (f32 c.w).eq (f32 t.w))
  | 0x33 => cmp ((f32 c.w).eq (f32 t.w))
  | 0x34 => [out 0x31 1 (if flag.v = 0 then t.w else c.w) (c.p || t.p || flag.p)]
  | 0x35 => [out 0x31 1 (maxF c.w t.w) (c.p || t.p)]
  | 0x36 => [out 0x31 1 (minF c.w t.w) (c.p || t.p)]
  | 0x38 =>
    let l := Tab.get ⟨0, false⟩ g.lut (256 * e + t.w.toNat % 256)
    [out 0x38 2 l.w (l.p || t.p)]
  | 0x3C => [out 0x3C 1 (addW acc.w t.w) (acc.p || t.p)]
  | 0x3D => [out 0x3C 1 (maxF acc.w t.w) (acc.p || t.p)]
  | 0x3E => [out 0x3C 1 t.w t.p]
  | _ => []

/-! ## One cycle (07 R149, R161) -/

/-- What a GIN port gives in a cycle. -/
inductive GinNow where
  | zero
  | wait
  | word (w : PWord)

/-- What a GOUT port does with a write. -/
inductive GoutNow where | discard | wait | room
deriving DecidableEq, Repr

/-- The GIN port of an element in rows of `w`. -/
def ginPort (w e : Nat) : Nat := e / w
/-- The GOUT port of an element. -/
def goutPort (w e : Nat) : Nat := if e = w - 1 then 0 else 1

/-- The neighbour on a side, with the side it receives from: 0 north, 1 east, 2 south, 3 west. -/
def neighbour (w e side : Nat) : Option (Nat × Nat) :=
  match side with
  | 0 => if w ≤ e then some (e - w, 2) else none
  | 1 => if e % w + 1 < w then some (e + 1, 3) else none
  | 2 => if e + w < 4 * w then some (e + w, 0) else none
  | _ => if 0 < e % w then some (e - 1, 1) else none

/-- A cycle of the grid, at whose start the results that are due take their places; `psn`: all that is written is poisoned (12 R300). DESIGN CHOICE (log entry 85): where a compare's flag and a move to
FLAG fall in one cycle, the compare's flag stands, as it lands after the cycle; 07 R149 does not say. The new state, the GIN ports that gave an element, the words written to the GOUT ports; none where it stalls. -/
def Grid.cycle (g : Grid) (w : Nat) (b : Nat) (turn : Word32) (last psn : Bool) (gin : Nat → GinNow) (gout : Nat → GoutNow) :
    Option (Grid × List Nat × List (Nat × PWord)) :=
  let g := g.land
  let ms := (List.range (4 * w)).flatMap fun e => (g.moves e b last).map fun m => (e, m)
  let stalls := ms.any fun x =>
    (x.2.src == 0x14 && (match gin (ginPort w x.1) with | .wait => true | .zero => false | .word _ => false))
      || (x.2.dst == 0x15 && gout (goutPort w x.1) == .wait)
  if stalls then none
  else
    let source := fun (e : Nat) (m : Move) =>
      let v : PWord := match m.src with
        | 0x00 => ⟨0, false⟩
        | 0x09 => ⟨(BitVec.ofNat 17 m.imm).signExtend 32, false⟩
        | 0x0A => ⟨BitVec.ofNat 32 (m.imm * 2 ^ 15), false⟩
        | 0x0B => ⟨(g.flag e).v, (g.flag e).p⟩
        | 0x0C => ⟨turn, false⟩
        | 0x14 => (match gin (ginPort w e) with | .word x => x | .zero => ⟨0, false⟩ | .wait => ⟨0, false⟩)
        | n => g.el e (resultCode n)
      (⟨v.w, v.p || m.psn || psn || ((m.gd == 1 || m.gd == 2) && (g.flag e).p)⟩ : PWord)
    let vs := ms.map fun x => (x.1, x.2.dst, source x.1 x.2)
    let latched := vs.foldl (fun h x => if [0x20, 0x28, 0x29, 0x30].contains x.2.1 then h.setEl x.1 x.2.1 x.2.2 else h) g
    let fired := vs.flatMap fun x => latched.fire x.1 x.2.1 x.2.2 (g.flag x.1)
    let put := fun (h : Grid) (x : Nat × Nat × PWord) =>
      let e := x.1
      let d := x.2.1
      if 1 ≤ d && d ≤ 8 then h.setEl e d x.2.2
      else if d = 0x0B then h.setFlag e ⟨if x.2.2.w = 0 then 0 else 1, x.2.2.p⟩
      else if 0x10 ≤ d && d ≤ 0x13 then
        match neighbour w e (d - 0x10) with
        | none => h
        | some t => h.setEl t.1 (0x10 + t.2) x.2.2
      else h
    let h := vs.foldl put latched
    some ({ h with flight := h.flight ++ fired, clock := h.clock + 1 },
      (List.range 4).filter (fun p => ms.any fun x => x.2.src == 0x14 && ginPort w x.1 == p),
      vs.filterMap fun x => if x.2.1 = 0x15 && gout (goutPort w x.1) = .room then some (goutPort w x.1, x.2.2) else none)

/-! ## Runs of a core's grid (07 R160 to R162) -/

/-- The turns of a run. -/
def GRun.turnsDone (r : GRun) (ii : Nat) : Nat := r.cyc / ii

/-- What GIN port p gives now. -/
def Core.ginNow (k : Core) (r : GRun) (p : Nat) : GinNow :=
  match bindOf r.bind p with
  | none => .zero
  | some q =>
    if r.done.contains p then .zero
    else
      match k.loadBuf q, (k.sreg q).desc with
      | e :: _, some d => .word (e.word d.et)
      | _, _ => .wait

/-- What GOUT port p does with a write in a turn of the run. At a store stream that an earlier run has given its last element and that has not retired, a write
stalls until the stream has (DEDUCED, log entry 73: 07 R161 discards a write after the last element and does not name another run's). -/
def Core.goutNow (k : Core) (r : GRun) (turn p : Nat) : GoutNow :=
  match bindOf r.bind (4 + p) with
  | none => .discard
  | some q =>
    if r.done.contains (4 + p) || decide (turn < bitsOf r.bind (30 + 4 * p) 4) then .discard
    else if k.storeRoom q = 0 then .wait
    else .room

/-- The run after a port has taken or given; the port is through with the stream's last element. -/
def Core.portDone (k : Core) (q p : Nat) (done : List Nat) : List Nat :=
  match (k.sreg q).strm with
  | none => done
  | some t => if t.taken = t.total then done ++ [p] else done

/-- One advancing cycle of a core's grid; none where it stalls. -/
def Core.gridCycle (k : Core) (r : GRun) : Option Core :=
  let g := k.grid
  let ii := g.iim1 + 1
  let turn := r.cyc / ii
  match g.cycle 8 (r.cyc % ii) (BitVec.ofNat 32 (r.base + turn)) (turn + 1 == r.turns) r.psn (k.ginNow r) (k.goutNow r turn) with
  | none => none
  | some (g, takes, gives) =>
    let k := { k with grid := g }
    let a := takes.foldl (fun (a : Core × List Nat) p =>
      match bindOf r.bind p with
      | none => a
      | some q => if r.done.contains p then a else
        let k := (a.1.takeElems q 1).1
        (k, k.portDone q p a.2)) (k, r.done)
    let b := gives.foldl (fun (a : Core × List Nat) x =>
      match bindOf r.bind (4 + x.1) with
      | none => a
      | some q =>
        let k := a.1.giveWords q [x.2]
        (k, k.portDone q (4 + x.1) a.2)) a
    let r := { r with cyc := r.cyc + 1, done := b.2 }
    some { b.1 with grid := { b.1.grid with run := some r, turns := BitVec.ofNat 32 (r.base + r.cyc / ii) } }

/-- The run leaves the grid IDLE: GRUN completes and signals, and the GSTOPs with it; `held`: its state is held (07 R161, R162). -/
def State.gridEnd (s : State) (c : Nat) (r : GRun) (held : Bool) : State :=
  let s := s.updCore c fun k => { k with
    grid := { k.grid.land with st := 2, held := held, run := none, heldRun := if held then some r else none }
    qcmds := k.qcmds.filter fun q => q.id ≠ r.id }
  let s := s.post1 c r.ctx r.sync
  let s := r.stopSync.foldl (fun (s : State) x => s.post1 c x.1 x.2) s
  (s.afterCommand c).afterTake c

/-- The grid of a core in a cycle: it advances or stalls, and the run ends where it is through (07 R161). -/
def State.gridTick (s : State) (c : Nat) : State :=
  match (s.core? c).bind fun k => k.grid.run.map fun r => (k, r) with
  | none => s
  | some (k, r) =>
    if s.cycle < r.nextAt then s
    else
      let ii := k.grid.iim1 + 1
      let total := r.turns * ii
      let through := fun (k : Core) (r : GRun) => decide (total ≤ r.cyc) && k.grid.flight.all fun f => decide (f.due ≤ k.grid.clock)
      if r.stopping && r.cyc % ii = 0 then s.gridEnd c r true
      else if through k r then s.gridEnd c r false
      else
        let next : Option Core :=
          if r.cyc < total then k.gridCycle r
          else some { k with grid := { k.grid.land with clock := k.grid.clock + 1 } }
        match next with
        | none => s
        | some k =>
          match k.grid.run with
          | none => s
          | some r =>
            let r := { r with nextAt := s.cycle + 1 }
            let k := { k with grid := { k.grid with run := some r } }
            let s := (s.setCore c k).afterTake c
            if r.stopping && r.cyc % ii = 0 then s.postOnce 0 (.gstopBoundary c)
            else if through k r then s.gridEnd c r false
            else s.post 1 (.grunCompletion c)

/-- GRUN_COMPLETION: the cycles of a run, up to its last (07 R161). -/
def execGrunCompletion (s : State) : Host.Outcome State Fault Refusal :=
  match s.ev with
  | .grunCompletion c => .next (s.gridTick c)
  | _ => .next s

/-- GSTOP_BOUNDARY: a run whose stop is requested ends at a turn boundary and is held (07 R162). -/
def execGstopBoundary (s : State) : Host.Outcome State Fault Refusal :=
  match s.ev with
  | .gstopBoundary c =>
    .next (match (s.core? c).bind fun k => k.grid.run.map fun r => (k, r) with
      | none => s
      | some (k, r) => if r.stopping && r.cyc % (k.grid.iim1 + 1) = 0 then s.gridEnd c r true else s)
  | _ => .next s

/-- GSTOP takes effect: on a running grid it asks for a stop; otherwise it signals at once (07 R162). -/
def State.gridStop (s : State) (c n : Nat) (w : Sync) : State :=
  match (s.core? c).bind fun k => if k.grid.st = 3 then k.grid.run else none with
  | none => s.post1 c n w
  | some r =>
    (s.updCore c fun k => { k with grid := { k.grid with
      st := 4, run := some { r with stopping := true, stopSync := r.stopSync ++ [(n, w)] } } }).postOnce 0 (.gstopBoundary c)

/-! ## The loader (07 R159) -/

/-- How many words a load reads. -/
def GLoad.size (l : GLoad) : Nat := if l.lut then 9216 else 1024

/-- The word of a list as a sparse table. -/
def tabOf {α : Type} [DecidableEq α] (d : α) (ws : List α) : Tab α :=
  (ws.zipIdx).filterMap fun x => if x.1 = d then none else some (x.2, x.1)

/-- The load is over: the checks of R154, then IDLE or UNCONFIGURED. DESIGN CHOICE (log entry 86): after a failed load, GRSTAT.IIM1 reads the II − 1 of
the GCFG that failed; 07 R156 says it for a loaded image alone. -/
def Grid.loaded (g : Grid) (w : Nat) (l : GLoad) : Grid :=
  let img := l.words.take (128 * w)
  let g := { g with load := none, iim1 := l.iim1 }
  match badImage w (l.iim1 + 1) img with
  | some (e, b, i) => { g with st := 0, cfgerr := true, eelem := e, ebun := b, eslot := i, img := [] }
  | none =>
    { g with
      st := 2, img := tabOf ⟨0, false⟩ img, imgAddr := l.addr
      lut := if l.lut then tabOf ⟨0, false⟩ (l.words.drop (128 * w)) else g.lut }

/-- The loader's command is complete (07 R159). -/
def State.gridLoaded (s : State) (c : Nat) (l : GLoad) (g : Grid) : State :=
  let sync := match (s.core? c).bind fun k => k.qcmds.find? fun q => q.id = l.id with
    | none => Sync.none
    | some q => q.sync
  let s := s.updCore c fun k => { k with grid := g, qcmds := k.qcmds.filter fun q => q.id ≠ l.id }
  (s.post1 c l.ctx sync).afterCommand c

/-- The words of the images are read, sixteen after sixteen, as far as they go. -/
def State.gridRead (s : State) (c : Nat) (l : GLoad) : Nat → State × Got GLoad
  | 0 => (s, .got l)
  | n + 1 =>
    if l.size ≤ l.words.length then (s, .got l)
    else
      match s.readWords c false (l.addr.toNat + 4 * l.words.length) 16 with
      | (s, .got ws) =>
        let l := { l with words := l.words ++ ws }
        (s.updCore c fun k => { k with grid := { k.grid with load := some l } }).gridRead c l n
      | (s, .wait) => (s, .wait)
      | (s, .fault cause a) => (s, .fault cause a)
      | (s, .poison a) => (s, .poison a)

/-- GCFG_LOAD_END (07 R159): the image has been transferred and is judged. A fault of the loader is a STREAM_FAULT with register field 0xF. -/
def execGcfgLoadEnd (s : State) : Host.Outcome State Fault Refusal :=
  match s.ev with
  | .gcfgLoadEnd c =>
    .next (match (s.core? c).bind fun k => k.grid.load.map fun l => (k, l) with
      | none => s
      | some (k, l) =>
        if l.faulted then s
        else if l.addr.toNat % 4096 ≠ 0 then
          s.gridLoaded c l { k.grid with load := none, st := 0, cfgerr := true, eelem := 0, ebun := 0, eslot := 0, iim1 := l.iim1, img := [] }
        else
          match s.gridRead c l 577 with
          | (s, .got l) =>
            (match s.core? c with
              | none => s
              | some k =>
                let psn := k.qcmds.any fun q => q.id == l.id && q.psn
                s.gridLoaded c l (k.grid.loaded 8 { l with words := l.words.map fun w => ⟨w.w, w.p || psn⟩ }))
          | (s, .fault cause a) =>
            let s := s.reportFault c l.ctx ⟨15, cause, a, 2, l.id⟩
            if s.orphan c l.ctx || !resumable cause then
              (match s.core? c with
                | none => s
                | some k => s.gridLoaded c l { k.grid with load := none, st := 0, img := [] })
            else s.updCore c fun k => { k with grid := { k.grid with load := k.grid.load.map fun l => { l with faulted := true } } }
          | (s, .wait) => s
          | (s, .poison _) => s)
  | _ => .next s

end Sys2Proof.Machine
end

