-- ==== Sys2Proof/Machine/Butterfly.lean ====
section
/-! DEFINITION. Butterfly mode (06 R138 to R145): twiddles, the stage of a mixed-radix transform, digit reversal. -/

namespace Sys2Proof.Machine

/-! ## Twiddles (06 R140) -/

/-- ⌊π × 2^192⌋. -/
def piFix : Nat := 0x3243f6a8885a308d313198a2e03707344a4093822299f31d0

/-- The terms of the series of sine or cosine, counted in 2^-192: each is the one before times x² ÷ (k (k + 1)). -/
def trigTerms (x2 : Nat) : Nat → Nat → Nat → List Nat
  | 0, _, _ => []
  | n + 1, k, t => t :: trigTerms x2 n (k + 2) (t * x2 / 2 ^ 192 / (k * (k + 1)))

/-- The sum of terms of alternating sign. -/
def alternate : List Nat → Int
  | [] => 0
  | t :: ts => t - alternate ts

/-- The sine of an angle below π ÷ 4 + 2^-190, in 2^-192. -/
def sinFix (x : Nat) : Int := alternate (trigTerms (x * x / 2 ^ 192) 30 2 x)
/-- The cosine. -/
def cosFix (x : Nat) : Int := alternate (trigTerms (x * x / 2 ^ 192) 30 1 (2 ^ 192))

/-- A number counted in 2^-192 as a value. -/
def fixVal (i : Int) : Val := .fin (decide (i < 0)) i.natAbs (-192)

/-- W(e) for e that is no multiple of a quarter turn: the FP32 values nearest to cos(2πe/N) and ±sin(2πe/N). The error of the fixed-point value,
below 2^-180, moves none of the values of N up to 65,536 across a rounding boundary but onto the exact ones. -/
def twiddle (n : Nat) (inv : Bool) (e : Nat) : Word32 × Word32 :=
  let q := 4 * (e % n) / n
  let rem := 4 * (e % n) % n
  let low := decide (2 * rem ≤ n)
  let x := piFix * (if low then rem else n - rem) / (2 * n)
  let c := if low then cosFix x else sinFix x
  let t := if low then sinFix x else cosFix x
  let cs : Int × Int := if q = 0 then (c, t) else if q = 1 then (-t, c) else if q = 2 then (-c, -t) else (t, -c)
  (rne32 (fixVal cs.1), rne32 (fixVal (if inv then cs.2 else -cs.2)))

/-- A negated word; a NaN gives the canonical NaN (06 R141). -/
def negW (w : Word32) : Word32 := rne32 (f32 w).neg

/-- CMUL(u, e) (06 R141). -/
def cmul (n : Nat) (inv : Bool) (u : Word32 × Word32) (e : Nat) : Word32 × Word32 :=
  if e % n = 0 then u
  else if 4 * e % n = 0 then
    let q := 4 * e / n % 4
    let q := if inv && q ≠ 2 then 4 - q else q
    if q = 1 then (u.2, negW u.1) else if q = 2 then (negW u.1, negW u.2) else (negW u.2, u.1)
  else
    let w := twiddle n inv e
    (rne32 (((f32 u.1).mul (f32 w.1)).add (f32 (mulF u.2 w.2)).neg), rne32 (((f32 u.1).mul (f32 w.2)).add (f32 (mulF u.2 w.1))))

/-! ## A stage (06 R142) -/

/-- A complex point with its poison. -/
structure Point where
  re : Word32
  im : Word32
  p : Bool
deriving DecidableEq, Repr

/-- The radix of a code (06 Table 8); none for 5 to 7. -/
def radixOf (code : Nat) : Option Nat :=
  match code with
  | 0 => some 2
  | 1 => some 3
  | 2 => some 4
  | 3 => some 5
  | 4 => some 8
  | _ => none

/-- Cr: the FP32 value nearest to 1/r (06 R143). -/
def radixScale (r : Nat) : Word32 :=
  match r with
  | 2 => 0x3F000000
  | 3 => 0x3EAAAAAB
  | 4 => 0x3E800000
  | 5 => 0x3E4CCCCD
  | _ => 0x3E000000

/-- The product of a list of radices. -/
def radixProduct (l : List Nat) : Nat := l.foldl (· * ·) 1

/-- The points of a transform (06 R139). -/
def Twid.n (t : Twid) : Nat := t.nm1 + 1

/-- Y[n] of stage `stg`: butterfly (b, j), output p. -/
def stagePoint (t : Twid) (stg : Nat) (scl : Bool) (pts : Array Point) (n : Nat) : Point :=
  let r := t.rad.getD stg 2
  let ns := radixProduct (t.rad.drop stg)
  let m := ns / r
  let b := n / ns
  let p := n % ns / m
  let j := n % m
  let u := fun q => pts.getD (b * ns + j + q * m) ⟨0, 0, false⟩
  let acc := (List.range (r - 1)).foldl (fun (a : Word32 × Word32) i =>
    let q := i + 1
    let x := cmul t.n t.inv ((u q).re, (u q).im) (p * q % r * (t.n / r))
    (addW a.1 x.1, addW a.2 x.2)) ((u 0).re, (u 0).im)
  let acc := if scl then (mulF acc.1 (radixScale r), mulF acc.2 (radixScale r)) else acc
  let y := cmul t.n t.inv acc (j * p * (t.n / ns))
  ⟨y.1, y.2, (List.range r).any fun q => (u q).p⟩

/-- The position n with DREV(n) = k (06 R144): the digits of k, lowest radix first, weighed as the digits of a position are. -/
def undrev : List Nat → Nat → Nat
  | [], _ => 0
  | r :: rs, k => k % r * radixProduct rs + undrev rs (k / r)

/-- Position k after stage `stg`. -/
def stageOut (t : Twid) (stg : Nat) (scl ord : Bool) (pts : Array Point) (k : Nat) : Point :=
  stagePoint t stg scl pts (if ord then undrev t.rad k else k)

/-- The stage time T (06 R145). -/
def stageTime (t : Twid) (stg : Nat) : Nat :=
  let w := match t.rad.getD stg 2 with
    | 2 => 4
    | 4 => 4
    | 8 => 8
    | 3 => 12
    | _ => 20
  (t.n * w + 2047) / 2048 + 40

/-- The tiles a transform covers. -/
def Twid.tiles (t : Twid) : Nat := (t.n + 2047) / 2048

end Sys2Proof.Machine
end

