-- ==== Sys2Proof/Machine/Matrix.lean ====
section
/-! DEFINITION. The matrix engine (06, 17 R417 to R460): its state cycle by cycle, the start and the completion of its operations, the meanings of
the M-slot instructions and of the engine's events. The effects of a cycle happen when the engine is next looked at in a later cycle. -/

namespace Sys2Proof.Machine

/-! ## Tiles (06 R119, R128) -/

/-- Word j of a row, with its poison. -/
def TileRow.word (r : TileRow) (j : Nat) : PWord := ⟨r.w.extractLsb' (32 * j) 32, r.p.getLsbD j⟩

/-- The bits of a list of Bools, the first at bit 0. -/
def boolsNat : List Bool → Nat
  | [] => 0
  | b :: l => bitN b + 2 * boolsNat l

/-- The row of 64 words. -/
def rowOf (ws : List PWord) : TileRow := ⟨BitVec.ofNat 2048 (wordsNat ws), BitVec.ofNat 64 (boolsNat (ws.map (·.p)))⟩

/-- A row as an operation under a poisoned guard writes it (12 R300). -/
def TileRow.under (r : TileRow) (psn : Bool) : TileRow := ⟨r.w, if psn then BitVec.allOnes 64 else r.p⟩

/-- Row i of a tile. -/
def Matrix.row (m : Matrix) (z i : Nat) : TileRow := Tab.get ⟨0, 0⟩ m.tiles (64 * z + i)
/-- A row replaced. -/
def Matrix.setRow (m : Matrix) (z i : Nat) (r : TileRow) : Matrix := { m with tiles := Tab.set ⟨0, 0⟩ m.tiles (64 * z + i) r }
/-- A row with words replaced: `f j` gives word j where it is written. -/
def TileRow.put (r : TileRow) (f : Nat → Option PWord) : TileRow :=
  rowOf ((List.range 64).map fun j =>
    match f j with
    | none => r.word j
    | some w => w)

/-! ## Configuration (06 R120, R121) -/

/-- M of an MXCFG value. -/
def cfgM (c : Word64) : Nat := 8 * 2 ^ bitsOf c 0 2
/-- N. -/
def cfgN (c : Word64) : Nat := 8 * 2 ^ bitsOf c 2 2
/-- K. -/
def cfgK (c : Word64) : Nat := 32 * (bitsOf c 4 7 + 1)

/-- An MXFMT value. -/
def fmtWord (a b : EType) (sc : Bool) : Word64 := BitVec.ofNat 64 ((eTypeBits a).toNat + 16 * (eTypeBits b).toNat + 256 * bitN sc)

/-- A floating format of eight or six bits. -/
def EType.narrow : EType → Bool
  | .e4m3 => true
  | .e5m2 => true
  | .e3m2 => true
  | .e2m1 => false
  | .int _ => false
  | .f32 => false
  | .bf16 => false

/-- The legal format pairs (06 Table 4). -/
def legalPair (a b : EType) (sc : Bool) : Bool :=
  (a == .bf16 && b == .bf16 && !sc) || (a == .f32 && b == .f32 && !sc) || (EType.narrow a && EType.narrow b)
    || (a == .e2m1 && b == .e2m1) || (a == .int .i8 && b == .int .i8 && !sc)

/-- The elements of a row that a step takes, or two steps for FP32 (06 R123). -/
def groupSize (a : EType) : Nat :=
  match a with
  | .bf16 => 2
  | .f32 => 1
  | .e2m1 => 8
  | .e4m3 => 4
  | .e5m2 => 4
  | .e3m2 => 4
  | .int _ => 4
/-- The steps in which an element group of a row is taken. -/
def groupSteps (a : EType) : Nat := if a == .f32 then 2 else 1
/-- S (06 Table 4). -/
def stepsOf (a : EType) (k : Nat) : Nat := k / groupSize a * groupSteps a

/-! ## The B store (06 R124, R426) -/

/-- The bytes that a column's B operand occupies. -/
def colBytes (bt : EType) (sc : Bool) (k : Nat) : Nat := k * EType.bits bt / 8 + (if sc then k / 32 else 0)
/-- Its 128-byte units. -/
def colUnits (bt : EType) (sc : Bool) (k : Nat) : Nat := (colBytes bt sc k + 127) / 128

/-- Word j of slice n. -/
def Matrix.bWord (m : Matrix) (n j : Nat) : PWord := Tab.get ⟨0, false⟩ m.b (16384 * n + j % 16384)

/-- The elements of column n of a B operand; all of them are poisoned where a word of the column is. -/
def Matrix.column (m : Matrix) (bt : EType) (sc : Bool) (k boff n : Nat) : List Elem :=
  let ws := (List.range ((colBytes bt sc k + 3) / 4)).map fun j => m.bWord n (32 * boff + j)
  let v := wordsNat ws
  let bits := EType.bits bt
  let p := ws.any (·.p)
  (List.range k).map fun i =>
    ⟨BitVec.ofNat 64 (v / 2 ^ (i * bits) % 2 ^ bits), p, if sc then BitVec.ofNat 8 (v / 2 ^ (k * bits + 8 * (i / 32))) else 127, false⟩

/-- The bytes of a column as an MBLD writes them, each with its poison. -/
def columnBytes (bt : EType) (sc : Bool) (es : List Elem) : List (Nat × Bool) :=
  let bits := EType.bits bt
  let v := packCodes bits (es.map fun e => e.bits.toNat)
  let arr := es.toArray
  let at8 := fun (i : Nat) =>
    (List.range ((8 * i + 7) / bits - 8 * i / bits + 1)).any fun d => (arr.getD (8 * i / bits + d) ⟨0, false, 0, false⟩).p
  ((List.range (es.length * bits / 8)).map fun i => (v / 2 ^ (8 * i) % 256, at8 i))
    ++ (if sc then (List.range (es.length / 32)).map fun b =>
        let e := arr.getD (32 * b) ⟨0, false, 0, false⟩
        (e.scale.toNat, e.sp)
      else [])

/-- The bytes `bs` of a column stand in its slice, those before `lo` already written: a word is poisoned where something written into it is, and where bytes of
a poisoned word stay (17 R426, 12 R300). -/
def Matrix.putColumn (m : Matrix) (n boff lo : Nat) (bs : List (Nat × Bool)) : Matrix :=
  { m with b := (List.range ((bs.length + 3) / 4 - lo / 4)).foldl (fun t i =>
      let j := lo / 4 + i
      let here := (bs.drop (4 * j)).take 4
      let old := Tab.get ⟨0, false⟩ t (16384 * n + (32 * boff + j) % 16384)
      let v := packCodes 8 (here.map (·.1)) + old.w.toNat / 2 ^ (8 * here.length) * 2 ^ (8 * here.length)
      Tab.set ⟨0, false⟩ t (16384 * n + (32 * boff + j) % 16384)
        ⟨BitVec.ofNat 32 v, here.any (·.2) || (decide (here.length < 4) && old.p)⟩) m.b }

/-- Whether two ranges of 128-byte units in a slice of 512 have one in common. -/
def rangesMeet (a la b lb : Nat) : Bool := (List.range la).any fun i => decide ((a + i + 512 - b % 512) % 512 < lb)

/-! ## Sums of the array (05 R108 to R110) -/

/-- The value of an element's code. -/
def Elem.val (e : Elem) (t : EType) : Val :=
  match t, EType.fmt t with
  | .int i, _ => Val.ofInt (IType.int i e.bits)
  | _, some f => f.decode e.bits.toNat
  | _, none => .nan

/-- The exact sum of the products of elements lo to lo + n − 1. -/
def dot (a b : Array Val) (lo n : Nat) : Val :=
  (List.range n).foldl (fun s i => s.add ((a.getD (lo + i) .nan).mul (b.getD (lo + i) .nan))) (.fin true 0 0)

/-- 2^(b − 127), or a NaN for 0xFF. -/
def scaleVal (b : Byte) : Val := if b = 0xFF then .nan else .fin false 1 ((b.toNat : Int) - 127)

/-- One word of the array after K elements: fold by fold, one rounding each. DEDUCED (log entry 83): an infinite accumulator and an infinite sum of
products of the other sign give the canonical NaN, as an infinity minus an infinity does (05 R97); 05 R110 names the products alone. -/
def accumulate (at' bt : EType) (k : Nat) (acc : Word32) (a b : Array Elem) : Word32 :=
  let av := a.map fun e => e.val at'
  let bv := b.map fun e => e.val bt
  match at' with
  | .bf16 => (List.range (k / 2)).foldl (fun (w : Word32) j => rne32 ((f32 w).add (dot av bv (2 * j) 2))) acc
  | .f32 => (List.range k).foldl (fun (w : Word32) j => rne32 ((f32 w).add (dot av bv j 1))) acc
  | .int i =>
    (List.range k).foldl (fun (w : Word32) j =>
      w + BitVec.ofInt 32 (IType.int i (a.getD j .dead).bits * IType.int i (b.getD j .dead).bits)) acc
  | .e4m3 | .e5m2 | .e3m2 | .e2m1 =>
    (List.range (k / 32)).foldl (fun (w : Word32) j =>
      let p := ((dot av bv (32 * j) 32).mul (scaleVal (a.getD (32 * j) .dead).scale)).mul
        (scaleVal (b.getD (32 * j) .dead).scale)
      rne32 ((f32 w).add p)) acc

/-- The elements of row i of A, from the elements as taken (06 R123). -/
def MOp.aRow (o : MOp) (all : Array Elem) (i : Nat) : Array Elem :=
  let g := groupSize o.at'
  ((List.range o.k).map fun k => all.getD (k / g * (o.m * g) + i * g + k % g) .dead).toArray

/-- Row i of an MMA from the row it reads: words 0 to N − 1 (17 R440, 06 R133, R135). The scale bytes of A that poison it are those of each element that the row
takes, found as 07 R166 finds them (DEDUCED, log entry 98). -/
def MOp.mmaRow (o : MOp) (zero : Bool) (old : TileRow) (i : Nat) : TileRow :=
  let a := o.aRow o.taken.reverse.toArray i
  let ap := a.any fun e => e.p || e.sp
  rowOf ((o.bcap.zipIdx).map fun c =>
    let b := c.1.toArray
    let w := old.word c.2
    ⟨accumulate o.at' o.bt o.k (if zero then 0 else w.w) a b, (!zero && w.p) || ap || b.any (·.p) || o.bad.contains i⟩)

/-! ## Times (06 R127) -/

/-- S of an MMA. -/
def MOp.steps (o : MOp) : Nat := stepsOf o.at' o.k

/-- The start of an operation, put off by the cycles it has waited. -/
def MOp.base (o : MOp) : Nat := o.start.getD 0 + o.waited

/-- The stage time of an MBFLY. -/
def MOp.stage (o : MOp) : Nat :=
  match o.kind, o.twid with
  | .mbfly _ stg _ _, some t => stageTime t stg
  | _, _ => 0

/-- The cycle of an operation's last effect, while it waits no longer; none: what it moves decides. -/
def MOp.lastCycle (o : MOp) : Option Nat :=
  match o.kind with
  | .mma _ _ _ _ => some (o.base + o.steps + 23 + o.m)
  | .mbld _ _ => none
  | .mzst _ _ => none
  | .mzld _ _ => none
  | .mtrn _ _ => some (o.base + 127)
  | .mbfly _ _ _ _ => some (o.base + o.stage)
  | .mtwid _ _ => some (o.base + 1)
  | .mfmt _ _ _ => some (o.base + 1)
  | .mdrain => some o.base
  | .mzrd _ _ _ _ => some (o.base + 3)
  | .mzwr _ _ _ _ _ => some (o.base + 2)
  | .mzero _ => some (o.base + 2)

/-- The event at an operation's last effect. -/
def MOp.event (c : Nat) (o : MOp) : Event :=
  match o.kind with
  | .mma _ _ _ _ => .mmaCompletion c o.id .passed
  | .mbld _ _ => .mbldCompletion c o.id
  | .mzst _ _ => .mzstCompletion c o.id
  | .mzld _ _ => .mzldCompletion c o.id
  | .mtrn _ _ => .mtrnCompletion c o.id .passed
  | .mbfly _ _ _ _ => .mbflyCompletion c o.id .passed
  | .mtwid _ _ => .mtwidCompletion c o.id
  | .mfmt _ _ _ => .mfmtCompletion c o.id
  | .mdrain => .mdrainStart c o.id
  | .mzrd _ _ _ _ => .mzrdCompletion c o.id
  | .mzwr _ _ _ _ _ => .mzwrCompletion c o.id
  | .mzero _ => .mzeroCompletion c o.id

/-! ## One cycle of the engine -/

/-- The bits of the B operand that an MBLD can have written once it has taken `n` elements: each column's scale bytes follow its elements (06 R125). -/
def MOp.mbldBits (o : MOp) (n : Nat) : Nat := n / o.k * (8 * colBytes o.bt o.sc o.k) + n % o.k * EType.bits o.bt
/-- The elements of an MBLD that lie in the first `n` bits of its B operand. -/
def MOp.mbldElems (o : MOp) (n : Nat) : Nat :=
  let col := 8 * colBytes o.bt o.sc o.k
  min (o.n * o.k) (n / col * o.k + min o.k (n % col / EType.bits o.bt))

/-- The B range of an operation: its first unit and its units. -/
def MOp.bRange (o : MOp) : Option (Nat × Nat) :=
  match o.kind with
  | .mma _ _ _ boff => some (boff, colUnits o.bt o.sc o.k)
  | .mbld _ boff => some (boff, colUnits o.bt o.sc o.k)
  | .mzst _ _ | .mzld _ _ | .mtrn _ _ | .mbfly _ _ _ _ | .mtwid _ _ | .mfmt _ _ _ | .mdrain | .mzrd _ _ _ _ | .mzwr _ _ _ _ _
  | .mzero _ => none

/-- Whether the B ranges of two operations overlap. -/
def MOp.bMeets (o p : MOp) : Bool :=
  match o.bRange, p.bRange with
  | some a, some b => rangesMeet a.1 a.2 b.1 b.2
  | _, _ => false

/-- Whether an operation is an MBLD. -/
def MKind.isMbld : MKind → Bool
  | .mbld _ _ => true
  | .mma _ _ _ _ | .mzst _ _ | .mzld _ _ | .mtrn _ _ | .mbfly _ _ _ _ | .mtwid _ _ | .mfmt _ _ _ | .mdrain | .mzrd _ _ _ _
  | .mzwr _ _ _ _ _ | .mzero _ => false
/-- Whether an MBLD takes and writes nothing yet: an earlier MBLD that its range overlaps is to write first (06 R126), or one on its register has elements to
take, which come before its own in visiting order (17 R417). -/
def Core.mbldWaits (k : Core) (o : MOp) : Bool :=
  (k.mx.run ++ k.mx.queue).any fun p =>
    MKind.isMbld p.kind && decide (p.id < o.id)
      && ((decide (p.rowsWritten < p.n * colBytes p.bt p.sc p.k) && o.bMeets p) || (decide (p.given < p.n * p.k) && MKind.memReg p.kind == MKind.memReg o.kind))

/-- What an operation takes and reads in a cycle. An MBLD takes what the 256 bytes hold that it writes; its `step` counts the bits come to. An MZLD
takes up to 64 elements and writes at most one row: 06 R127 gives no rate (DESIGN CHOICE, log entry 94). -/
def Core.mxRead (k : Core) (c : Nat) (o : MOp) : Core × MOp :=
  match o.kind with
  | .mma zero z q boff =>
    if o.step < o.steps then
      let want := (o.step + 1) * (o.m * groupSize o.at') / groupSteps o.at'
      let t := k.takeElems q (want - o.given)
      let o := { o with taken := t.2.reverse ++ o.taken, given := o.given + t.2.length }
      if o.given = want then
        (t.1, { o with
          step := o.step + 1
          bcap := if o.step + 1 = o.steps then (List.range o.n).map fun n => k.mx.column o.bt o.sc o.k boff n else o.bcap })
      else (t.1, { o with waited := o.waited + 1 })
    else if o.rowsRead < o.m && c = o.base + o.steps + 23 + o.rowsRead then
      (k, { o with acc := o.acc ++ [o.mmaRow zero (k.mx.row z o.rowsRead) o.rowsRead], rowsRead := o.rowsRead + 1 })
    else (k, o)
  | .mbld q _ =>
    if k.mbldWaits o then (k, o)
    else
    let t := k.takeElems q (o.mbldElems (o.step + 2048) - o.given)
    let given := o.given + t.2.length
    (t.1, { o with taken := t.2.reverse ++ o.taken, given := given, step := min (o.step + 2048) (o.mbldBits given) })
  | .mzst z q =>
    let o' := if o.acc.isEmpty && o.rowsRead < 64 then { o with acc := [k.mx.row z o.rowsRead], rowsRead := o.rowsRead + 1 } else o
    let ws := (List.range 64).map fun j => ((o'.acc.getD 0 ⟨0, 0⟩).under o.psn).word j
    let left := 64 * o'.rowsRead - o'.given
    let n := min left (k.storeRoom q)
    let now := (ws.drop (64 - left)).take n
    let k' := k.giveWords q now
    let last := match (k'.sreg q).strm with
      | some t => if now.isEmpty then o'.lastStrm else (t.id, t.taken)
      | none => o'.lastStrm
    (k', { o' with
      given := o'.given + now.length, lastStrm := last
      acc := if now.length = left then [] else o'.acc
      waited := o'.waited + bitN (!o.acc.isEmpty && o.rowsRead < 64) })
  | .mzld _ q =>
    if 64 ≤ o.rowsRead then (k, o)
    else
      let et := match (k.sreg q).desc with | some d => d.et | none => .f32
      let t := k.takeElems q (64 - o.taken.length)
      let taken : List Elem := (t.2.map fun e => ⟨(e.word et).w.zeroExtend 64, (e.word et).p, 127, false⟩).reverse ++ o.taken
      if taken.length = 64 then
        (t.1, { o with
          taken := [], given := o.given + t.2.length, rowsRead := o.rowsRead + 1
          acc := [rowOf (taken.reverse.map fun e => ⟨e.bits.truncate 32, e.p⟩)] })
      else (t.1, { o with taken := taken, given := o.given + t.2.length })
  | .mtrn _ zs =>
    if o.rowsRead = 0 then (k, { o with rowsRead := 64, src := (List.range 64).map fun i => k.mx.row zs i }) else (k, o)
  | .mbfly zb _ _ _ =>
    if o.rowsRead = 0 then
      let n := match o.twid with | none => 0 | some t => 64 * t.tiles
      (k, { o with rowsRead := n, src := (List.range n).map fun i => k.mx.row zb i })
    else (k, o)
  | .mtwid _ _ => (k, o)
  | .mfmt _ _ _ => (k, o)
  | .mdrain => (k, o)
  | .mzrd _ _ _ _ => (k, o)
  | .mzwr _ _ _ _ _ => (k, o)
  | .mzero _ => (k, o)

/-- Row i of a transposed tile (06 R137). -/
def MOp.mtrnRow (o : MOp) (i : Nat) : TileRow :=
  rowOf (o.src.map fun r => let w := r.word i; ⟨w.w, w.p || o.bad.contains i⟩)

/-- The points of a transform as its rows hold them (06 R138). -/
def pointsOf (rows : List TileRow) : List Point :=
  rows.flatMap fun r => (List.range 32).map fun j =>
    let a := r.word (2 * j)
    let b := r.word (2 * j + 1)
    ⟨a.w, b.w, a.p || b.p⟩

/-- The tiles after a stage: words beyond the last point keep what they hold now (17 R424). -/
def MOp.mbflyWrite (o : MOp) (m : Matrix) (t : Twid) (zb stg : Nat) (scl ord : Bool) : Matrix :=
  let pts := (pointsOf o.src).toArray
  (List.range (64 * t.tiles)).foldl (fun m i =>
    m.setRow zb i ((m.row zb i).put fun j =>
      let p := 32 * i + j / 2
      if p < t.n then
        let y := stageOut t stg scl ord pts p
        some ⟨if j % 2 = 0 then y.re else y.im, y.p || o.psn || o.bad.contains p⟩
      else none)) m

/-- What MZWR writes into a row: lanes of a half, or 64 widened elements (17 R458). -/
def mzwrRow (old : TileRow) (h : Bool) (ft : FType) (u : VV) : TileRow :=
  old.put fun j =>
    match ft with
    | .f32 =>
      if j / 32 = bitN h then some ⟨u.v.extractLsb' (32 * (j % 32)) 32, u.p.getLsbD (j % 32)⟩ else none
    | .bf16 =>
      let w := widen (bitsOf u.v (16 * j) 16)
      some ⟨if (f32 w).isNan then 0x7FC00000 else w, u.p.getLsbD (j / 2)⟩

/-- An MBLD writes the bytes that it has come to since its last write, column after column (06 R125): of its operand it has written `rowsWritten` bytes, and
`taken` holds the elements from the column at hand on. -/
def MOp.mbldWrite (o : MOp) (m : Matrix) (boff : Nat) : Matrix × MOp :=
  let col := colBytes o.bt o.sc o.k
  let upto := o.step / 8
  let first := o.rowsWritten / col
  let es := o.taken.reverse
  ((List.range ((upto + col - 1) / col - first)).foldl (fun m i =>
      m.putColumn (first + i) boff (o.rowsWritten - (first + i) * col)
        (((columnBytes o.bt o.sc ((es.drop (i * o.k)).take o.k)).take (upto - (first + i) * col)).map fun b => (b.1, b.2 || o.psn))) m,
    { o with rowsWritten := upto, taken := (es.drop ((upto / col - first) * o.k)).reverse })

/-- What an operation writes in a cycle. -/
def Matrix.mxWrite (m : Matrix) (c : Nat) (o : MOp) : Matrix × MOp :=
  match o.kind with
  | .mma _ z _ _ =>
    if o.rowsWritten < o.rowsRead && c = o.base + o.steps + 24 + o.rowsWritten then
      let r := o.acc.getD 0 ⟨0, 0⟩
      (m.setRow z o.rowsWritten ((m.row z o.rowsWritten).put fun j => if j < o.n then some ((r.under o.psn).word j) else none),
        { o with acc := o.acc.drop 1, rowsWritten := o.rowsWritten + 1 })
    else (m, o)
  | .mbld _ boff => if o.rowsWritten < o.step / 8 then o.mbldWrite m boff else (m, o)
  | .mzst _ _ => (m, o)
  | .mzld z _ =>
    if o.rowsWritten < o.rowsRead then
      (m.setRow z o.rowsWritten ((o.acc.getD 0 ⟨0, 0⟩).under o.psn), { o with acc := [], rowsWritten := o.rowsWritten + 1 })
    else (m, o)
  | .mtrn zd _ =>
    if o.rowsWritten < 64 && c = o.base + 64 + o.rowsWritten then
      (m.setRow zd o.rowsWritten ((o.mtrnRow o.rowsWritten).under o.psn), { o with rowsWritten := o.rowsWritten + 1 })
    else (m, o)
  | .mbfly zb stg scl ord =>
    (match o.twid with
      | none => (m, o)
      | some t => if c = o.base + o.stage then (o.mbflyWrite m t zb stg scl ord, o) else (m, o))
  | .mtwid _ _ => (m, o)
  | .mfmt _ _ _ => (m, o)
  | .mdrain => (m, o)
  | .mzrd _ _ _ _ => (m, o)
  | .mzwr z row h ft u => if c = o.base + 2 then (m.setRow z row (mzwrRow (m.row z row) h ft ⟨u.v, if o.psn then BitVec.allOnes 32 else u.p⟩), o) else (m, o)
  | .mzero z =>
    if c = o.base + 2 then
      let m := { m with tiles := m.tiles.filter fun kv => !(kv.1 / 64 == z) }
      (if o.psn then (List.range 64).foldl (fun m i => m.setRow z i ⟨0, BitVec.allOnes 64⟩) m else m, o)
    else (m, o)

/-- The operations in the order of their issue. -/
def insertOp (o : MOp) : List MOp → List MOp
  | [] => [o]
  | p :: l => if o.id < p.id then o :: p :: l else p :: insertOp o l

/-- One cycle of the engine: every read, then every write, the later-issued last (06 R128); what has had its last effect is gone after it. -/
def Core.mxCycle (k : Core) (c : Nat) : Core :=
  let ops := (k.mx.run ++ k.mx.port).foldl (fun l o => insertOp o l) []
  let r := ops.foldl (fun (acc : Core × List MOp) o =>
    let t := acc.1.mxRead c o
    (t.1, acc.2 ++ [t.2])) (k, [])
  let w := r.2.foldl (fun (acc : Matrix × List MOp) o =>
    let t := acc.1.mxWrite c o
    (t.1, acc.2 ++ [t.2])) (r.1.mx, [])
  let port := fun (o : MOp) => k.mx.port.any fun p => p.id = o.id
  let keep := w.2.filter fun o => !o.fin
  { r.1 with mx := { w.1 with run := keep.filter fun o => !port o, port := keep.filter port, clock := c + 1 } }

/-- `n` cycles of the engine. -/
def Core.mxCycles (k : Core) : Nat → Core
  | 0 => k
  | n + 1 => (k.mxCycle k.mx.clock).mxCycles n

/-- The engine brought up to a cycle: everything of cycles before it has happened. -/
def Core.mxRunTo (k : Core) (now : Nat) : Core :=
  if k.mx.run.isEmpty && k.mx.port.isEmpty then { k with mx := { k.mx with clock := max k.mx.clock now } }
  else k.mxCycles (now - k.mx.clock)

/-- Whether the last element of an MZST has performed: its stream has gone or has performed that many (17 R456). -/
def Core.mzstDone (k : Core) (q : Nat) (o : MOp) : Bool :=
  o.given = 4096 && (match (k.sreg q).strm with
    | none => true
    | some t => t.id != o.lastStrm.1 || decide (o.lastStrm.2 ≤ t.done))

/-- The operation with a number that has started. -/
def Core.mxOp (k : Core) (id : Nat) : Option MOp := (k.mx.run ++ k.mx.port).find? fun o => o.id = id

/-- How many rows, or bytes of an MBLD, a load into the engine has written by the end of a cycle. -/
def Core.mxLoaded (k : Core) (now : Nat) (o : MOp) : Nat :=
  if k.mx.clock ≤ now then ((k.mxCycle now).mxOp o.id).elim o.rowsWritten (·.rowsWritten) else o.rowsWritten

/-- Whether the last effect of an operation has happened or is of this cycle. -/
def Core.mxThrough (k : Core) (now : Nat) (o : MOp) : Bool :=
  match o.kind with
  | .mbld _ _ => k.mxLoaded now o == o.n * colBytes o.bt o.sc o.k
  | .mzst _ q => k.mzstDone q o
  | .mzld _ _ => k.mxLoaded now o == 64
  | .mma _ _ _ _ => o.step == o.steps && (match o.lastCycle with | some t => decide (t ≤ now) | none => false)
  | .mtrn _ _ | .mbfly _ _ _ _ | .mtwid _ _ | .mfmt _ _ _ | .mdrain | .mzrd _ _ _ _ | .mzwr _ _ _ _ _ | .mzero _ =>
    match o.lastCycle with
    | some t => decide (t ≤ now)
    | none => false

/-! ## Starts (06 R125 to R127) -/

/-- Whether an operation occupies the array: MMA or MMAZ. -/
def MKind.onArray : MKind → Bool
  | .mma _ _ _ _ => true
  | .mbld _ _ | .mzst _ _ | .mzld _ _ | .mtrn _ _ | .mbfly _ _ _ _ | .mtwid _ _ | .mfmt _ _ _ | .mdrain | .mzrd _ _ _ _
  | .mzwr _ _ _ _ _ | .mzero _ => false
/-- Whether an operation is an MFMT. -/
def MKind.isMfmt : MKind → Bool
  | .mfmt _ _ _ => true
  | .mma _ _ _ _ | .mbld _ _ | .mzst _ _ | .mzld _ _ | .mtrn _ _ | .mbfly _ _ _ _ | .mtwid _ _ | .mdrain | .mzrd _ _ _ _
  | .mzwr _ _ _ _ _ | .mzero _ => false

/-- Whether the start condition of 06 Table 7 holds for an operation of the queue. A FENCE may hold it back (11 R273). -/
def Core.mxStarts (k : Core) (o : MOp) : Bool :=
  let m := k.mx
  let earlier := (m.run ++ m.queue).filter fun p => decide (p.id < o.id)
  let stepping := fun (p : MOp) => MKind.onArray p.kind && decide (p.step < p.steps)
  !k.fenced o.ctx o.id (if (MKind.memReg o.kind).isSome then 8 else 0) &&
    (match o.kind with
      | .mma _ _ _ _ =>
        !(m.run.any stepping) && !(earlier.any fun p => MKind.isMbld p.kind && o.bMeets p)
          && earlier.all fun p => MKind.onArray p.kind || MKind.isMbld p.kind || MKind.isMfmt p.kind
      | .mbld _ _ => !(earlier.any fun p => stepping p && o.bMeets p)
      | .mdrain => earlier.isEmpty && m.port.all fun p => decide (o.id < p.id)
      | .mzst _ _ | .mzld _ _ | .mtrn _ _ | .mbfly _ _ _ _ | .mtwid _ _ | .mfmt _ _ _ | .mzrd _ _ _ _ | .mzwr _ _ _ _ _ | .mzero _ =>
        earlier.isEmpty)

/-- An operation starts in this cycle. -/
def State.mxStart (s : State) (c : Nat) (o : MOp) : State :=
  let o := { o with start := some s.cycle }
  let s := s.updCore c fun k =>
    { k with mx := { k.mx with queue := k.mx.queue.filter fun p => p.id ≠ o.id, run := k.mx.run ++ [o] } }
  let s := match o.lastCycle with
    | some t => s.post (t - s.cycle) (o.event c)
    | none => s
  let s := match o.kind with
    | .mma _ _ q _ => (s.post o.steps (.matrixQueueStart c)).postOnce 1 (.streamDataArrival c q)
    | .mbld q _ => s.postOnce 1 (.streamDataArrival c q)
    | .mzld _ q => s.postOnce 1 (.streamDataArrival c q)
    | .mzst _ q => s.postOnce 1 (.storeStreamElementPerformed c q)
    | .mtrn _ _ | .mbfly _ _ _ _ | .mtwid _ _ | .mfmt _ _ _ | .mdrain | .mzrd _ _ _ _ | .mzwr _ _ _ _ _ | .mzero _ => s
  s

/-- Every operation of the queue that can start does: the MBLDs by themselves, the others in issue order (06 R126). -/
def State.mxStartAll (s : State) (c : Nat) : List MOp → Bool → State
  | [], _ => s
  | o :: os, held =>
    match s.core? c with
    | none => s
    | some k =>
      if (MKind.isMbld o.kind || !held) && k.mxStarts o then (s.mxStart c o).mxStartAll c os held
      else s.mxStartAll c os (held || !MKind.isMbld o.kind)

/-- The engine at a cycle: brought up to it, its streams served, what is through signalled by its event. -/
def State.mxSettle (s : State) (c : Nat) : State :=
  match s.core? c with
  | none => s
  | some k =>
    if k.mx.run.isEmpty && k.mx.port.isEmpty then s.setCore c (k.mxRunTo s.cycle)
    else
      let k' := k.mxRunTo s.cycle
      let s := (s.setCore c k').afterTake c
      k'.mx.run.foldl (fun (s : State) (o : MOp) =>
        if !(o.lastCycle.isNone && !o.fin) then s
        else if k'.mxThrough s.cycle o then s.postOnce 0 (o.event c)
        -- an MBLD that has every element goes on writing
        else if MKind.isMbld o.kind && o.given = o.n * o.k then s.postOnce 1 (o.event c)
        else s) s

/-- MATRIX_QUEUE_START (06 R126, R127). -/
def execMatrixQueueStart (s : State) : Host.Outcome State Fault Refusal :=
  match s.ev with
  | .matrixQueueStart c =>
    let s := s.mxSettle c
    .next (match s.core? c with
      | none => s
      | some k =>
        if s.cycle < k.mx.clock then s.postOnce (k.mx.clock - s.cycle) (.matrixQueueStart c)
        else
          let s := s.mxStartAll c k.mx.queue false
          match s.core? c with
          | none => s
          | some k =>
            -- the steps of the MMA on the array end later than thought where it waits for elements
            let s := if k.mx.queue.isEmpty then s
              else k.mx.run.foldl (fun (s : State) (o : MOp) =>
                if MKind.onArray o.kind && o.step < o.steps then s.postOnce (o.steps - o.step) (.matrixQueueStart c) else s) s
            if k.mx.live.isEmpty then s.postOnce 0 (.mcfgClear c) else s)
  | _ => .next s

/-! ## Completions -/

/-- The engine with an operation changed. -/
def Matrix.updOp (m : Matrix) (id : Nat) (f : MOp → MOp) : Matrix :=
  let g := fun (o : MOp) => if o.id = id then f o else o
  { m with run := m.run.map g, port := m.port.map g }

/-- What a completion does besides its signal: the registers of MTWID and MFMT, the v register of MZRD. -/
def State.mxFinal (s : State) (c : Nat) (o : MOp) : State :=
  match o.kind with
  | .mtwid t rseq =>
    s.updCore c fun k => { k with mx := { k.mx with
      bfc := BitVec.ofNat 64 (t.nm1 + 2 ^ 16 * bitN t.inv + 2 ^ 17 * bitsOf rseq 0 30 + 2 ^ 48 * bitsOf rseq 48 4)
      hirad := BitVec.ofNat 18 (bitsOf rseq 30 18), twidDone := some t } }
  | .mfmt a b sc => s.updCore c fun k => { k with mx := { k.mx with fmt := fmtWord a b sc } }
  | .mzrd v h ft row =>
    let lanes := (List.range 32).map fun j =>
      match ft with
      | .f32 => row.word (32 * bitN h + j)
      | .bf16 =>
        let a := row.word (2 * j)
        let b := row.word (2 * j + 1)
        ⟨BitVec.ofNat 32 (rne16 a.w + 65536 * rne16 b.w), a.p || b.p⟩
    s.updCtx c o.ctx fun x =>
      x.matrixV s.cycle v ⟨BitVec.ofNat 1024 (wordsNat lanes), if o.psn then BitVec.allOnes 32 else BitVec.ofNat 32 (boolsNat (lanes.map (·.p)))⟩
  | .mma _ _ _ _ | .mbld _ _ | .mzst _ _ | .mzld _ _ | .mtrn _ _ | .mbfly _ _ _ _ | .mdrain | .mzwr _ _ _ _ _ | .mzero _ => s

/-- The completion of an operation, where it is due: its signal and what follows it; one that waited is looked at again later. -/
def State.mxComplete (s : State) (c id : Nat) : State :=
  let s := s.mxSettle c
  match (s.core? c).bind fun k => (k.mxOp id).map fun o => (k, o) with
  | none => s
  | some (k, o) =>
    if o.fin then s
    else if k.mxThrough s.cycle o && k.mx.clock ≤ s.cycle then
      let s := s.mxFinal c o
      let s := s.updCore c fun k => { k with mx := k.mx.updOp id fun o => { o with fin := true } }
      let s := s.post1 c o.ctx o.sync
      (s.postOnce 1 (.matrixQueueStart c)).afterCommand c
    else
      match o.lastCycle with
      | some t => s.postOnce (max 1 (t - s.cycle)) (o.event c)
      | none => s

/-- A count of MXERR, saturating (06 Table 6). -/
def mxCount (e : Word64) (lo : Nat) : Word64 := setBits e lo 16 (min 65535 (bitsOf e lo 16 + 1))

/-- The cycle at which the check of an operation is decided, and what its re-execution costs (06 R134, R135). DEDUCED (log entry 84): the own duration
of an MTRN is the 127 cycles from its start to its signal. -/
def MOp.checked (o : MOp) : Option (Nat × Nat) :=
  match o.kind with
  | .mma _ _ _ _ => if o.step = o.steps then some (o.base + o.steps + 22, o.steps + 24) else none
  | .mtrn _ _ => some (o.base + 63, 127)
  | .mbfly _ _ _ _ => some (o.base + o.stage - 1, o.stage)
  | .mbld _ _ | .mzst _ _ | .mzld _ _ | .mtwid _ _ | .mfmt _ _ _ | .mdrain | .mzrd _ _ _ _ | .mzwr _ _ _ _ _ | .mzero _ => none

/-- A residue check of an operation fails: it runs again; every effect of the engine to come, and the owner, are put off by the cycles this costs.
Where it fails again the rows or points named are poisoned (06 R134, R135), and PSN counts at the same cycle as REEX: the spec gives none (DESIGN CHOICE,
log entry 99). -/
def State.mxMismatch (s : State) (c id : Nat) (bad : Option (List Nat)) : State :=
  let s := s.mxSettle c
  match (s.core? c).bind fun k => (k.mxOp id).map fun o => (k, o) with
  | none => s
  | some (k, o) =>
    match o.checked with
    | none => s
    | some (t, cost) =>
      if t ≠ s.cycle || s.cycle < k.mx.clock then s
      else
        let late := fun (o : MOp) => { o with waited := o.waited + cost, bad := if o.id = id then bad.getD [] else o.bad }
        let err := mxCount k.mx.err 0
        let k := { k with mx := { k.mx with
          run := k.mx.run.map late, port := k.mx.port.map late, clock := s.cycle + cost
          err := if bad.isSome then mxCount err 16 else err } }
        let s := (s.setCore c k).postOnce cost (.matrixQueueStart c)
        match k.mxown with
        | none => s
        | some n =>
          -- the cycles the owner's empty run, or an earlier hold, still has to go are put off too
          (s.updCore c fun k => if k.issuing = some n then { k with freeAt := max k.freeAt s.cycle + cost } else k).updCtx c n fun x =>
            { x with holdUntil := max x.holdUntil s.cycle + cost }

/-- A completion with the outcome of its check. -/
def State.mxChecked (s : State) (c id : Nat) (chk : ResidueCheck) : State :=
  match chk with
  | .passed => s.mxComplete c id
  | .once => s.mxMismatch c id none
  | .twice bad => s.mxMismatch c id (some bad)

/-- MMA_COMPLETION (06 R127, R133 to R135). -/
def execMmaCompletion (s : State) : Host.Outcome State Fault Refusal :=
  match s.ev with
  | .mmaCompletion c id chk => .next (s.mxChecked c id chk)
  | _ => .next s
/-- MBLD_COMPLETION (06 R125): MBLD signals when the last byte of its B operand has been written. -/
def execMbldCompletion (s : State) : Host.Outcome State Fault Refusal :=
  match s.ev with
  | .mbldCompletion c id => .next (s.mxComplete c id)
  | _ => .next s
/-- MZST_COMPLETION (17 R456): MZST signals when its 4,096th element has performed at its endpoint. -/
def execMzstCompletion (s : State) : Host.Outcome State Fault Refusal :=
  match s.ev with
  | .mzstCompletion c id => .next (s.mxComplete c id)
  | _ => .next s
/-- MZLD_COMPLETION (17 R456): MZLD signals after its last tile row has been written from the stream. -/
def execMzldCompletion (s : State) : Host.Outcome State Fault Refusal :=
  match s.ev with
  | .mzldCompletion c id => .next (s.mxComplete c id)
  | _ => .next s
/-- MTRN_COMPLETION (06 R137): MTRN writes the transposed rows and signals at s + 127. -/
def execMtrnCompletion (s : State) : Host.Outcome State Fault Refusal :=
  match s.ev with
  | .mtrnCompletion c id chk => .next (s.mxChecked c id chk)
  | _ => .next s
/-- MBFLY_COMPLETION (06 R142): A butterfly stage writes every tile it covers and signals at s + T. -/
def execMbflyCompletion (s : State) : Host.Outcome State Fault Refusal :=
  match s.ev with
  | .mbflyCompletion c id chk => .next (s.mxChecked c id chk)
  | _ => .next s
/-- MTWID_COMPLETION (17 R446): MTWID loads MXBFC and sets the twiddle generator at s + 1. -/
def execMtwidCompletion (s : State) : Host.Outcome State Fault Refusal :=
  match s.ev with
  | .mtwidCompletion c id => .next (s.mxComplete c id)
  | _ => .next s
/-- MFMT_COMPLETION (17 R433): MFMT writes MXFMT at s + 1 and signals. -/
def execMfmtCompletion (s : State) : Host.Outcome State Fault Refusal :=
  match s.ev with
  | .mfmtCompletion c id => .next (s.mxComplete c id)
  | _ => .next s
/-- MDRAIN_START (06 R127): MDRAIN starts and signals once every earlier matrix operation of both pipes is complete. -/
def execMdrainStart (s : State) : Host.Outcome State Fault Refusal :=
  match s.ev with
  | .mdrainStart c id => .next (s.mxComplete c id)
  | _ => .next s
/-- MZRD_COMPLETION (17 R458): MZRD writes the row it read into its v register at t + 3, without the scoreboard. -/
def execMzrdCompletion (s : State) : Host.Outcome State Fault Refusal :=
  match s.ev with
  | .mzrdCompletion c id => .next (s.mxComplete c id)
  | _ => .next s
/-- MZWR_COMPLETION (17 R458): MZWR writes the tile row from the v register at t + 2. -/
def execMzwrCompletion (s : State) : Host.Outcome State Fault Refusal :=
  match s.ev with
  | .mzwrCompletion c id => .next (s.mxComplete c id)
  | _ => .next s
/-- MZERO_COMPLETION (06 R136): MZERO writes +0 into every word of the tile and clears its poison bits at t + 2. -/
def execMzeroCompletion (s : State) : Host.Outcome State Fault Refusal :=
  match s.ev with
  | .mzeroCompletion c id => .next (s.mxComplete c id)
  | _ => .next s

/-- MCFG_CLEAR (06 R130): with the engine idle, MXCFG is loaded and the tiles are cleared; the owner issues no earlier than 64 cycles later. -/
def execMcfgClear (s : State) : Host.Outcome State Fault Refusal :=
  match s.ev with
  | .mcfgClear c =>
    let s := s.mxSettle c
    .next (match (s.core? c).bind fun k => k.mxown.map fun n => (k, n) with
      | none => s
      | some (k, n) =>
        match (k.ctx? n).map fun (x : Ctx) => x.holdM with
        | some (Hold.mcfg mc nc km) =>
          if k.mx.live.isEmpty then
            ((s.updCore c fun k => { k with mx := { k.mx with
              cfg := BitVec.ofNat 64 (mc.toNat + 4 * nc.toNat + 16 * km.toNat), tiles := [] } }).updCtx c n fun x =>
              { x with holdM := .none, holdUntil := max x.holdUntil (s.cycle + 64) }).retryRetire c n
          else s
        | _ => s)
  | _ => .next s

/-! ## The M-slot instructions (17 R417) -/

/-- ILLEGAL_OP of a matrix instruction, TRAPINFO[9] = 1. -/
def mxIllegal (s : State) (op : Nat) : Try State := .trap s 0x01 (illegalInfo 4 op true)

/-- A matrix operation that has passed its checks takes its place: the wait, then room in the queue. -/
def State.mxIssue (s : State) (k : Core) (n : Nat) (x : Ctx) (i : Instr) (w : Sync) (port : Bool) (kind : MKind) : Try State :=
  (s.syncWait k x .m w).bind fun s _ =>
    if !port && decide (16 ≤ k.mx.queue.length) then .wait s.stall
    else
      let id := k.nextCmd
      let o : MOp := {
        id := id, kind := kind, ctx := n, sync := w, word := engineWord i, issue := s.cycle, start := if port then some s.cycle else none
        m := cfgM k.mx.cfgIssued, n := cfgN k.mx.cfgIssued, k := cfgK k.mx.cfgIssued
        at' := (etypeOf (bitsOf k.mx.fmtIssued 0 4)).getD .bf16, bt := (etypeOf (bitsOf k.mx.fmtIssued 4 4)).getD .bf16
        sc := k.mx.fmtIssued.getLsbD 8
        taken := [], step := 0, waited := 0, rowsRead := 0, rowsWritten := 0, acc := [], given := 0, twid := k.mx.twidIssued, src := []
        bcap := [], bad := [], fin := false, lastStrm := (0, 0)
        psn := Instr.guardPsn s.bun.oldM i }
      let s := s.updCore s.cur fun k => { k with
        nextCmd := id + 1
        mx := { k.mx with
          queue := if port then k.mx.queue else k.mx.queue ++ [o]
          port := if port then k.mx.port ++ [o] else k.mx.port
          drained := kind == .mdrain
          fmtIssued := (match kind with | .mfmt a b sc => fmtWord a b sc | _ => k.mx.fmtIssued)
          twidIssued := (match kind with | .mtwid t _ => some t | _ => k.mx.twidIssued) } }
      let s := if port then (match o.lastCycle with | some t => s.post (t - s.cycle) (o.event s.cur) | none => s)
        else s.postOnce 0 (.matrixQueueStart s.cur)
      .ok s s

/-- A matrix instruction: its guard, its encoding checks, its owner, its state checks (17 R417). -/
def mxSlot (s : State) (g : Guard) (op : Nat) (bad : Bool) (f : State → Core → Nat → Ctx → Try State) : Host.Outcome State Fault Refusal :=
  guardedM s g fun _ _ _ =>
    let s := s.mxSettle s.cur
    match s.issuer with
    | none => .ok s s
    | some (k, n, x) =>
      if bad then mxIllegal s op
      else if k.mxown ≠ some n then .trap s 0x0C 1
      else f s k n x

/-- The stream register of a matrix instruction: owned, its QSETs complete, not BAD, of the format asked for (17 R417, 06 R123). -/
def State.mxStream (s : State) (k : Core) (n q op : Nat) (fmt : Option (EType × Bool)) : Try State :=
  (s.ownedReg k n q 4 op).bind fun s _ =>
    let setting := k.qcmds.any fun c =>
      match c.kind with
      | .qset r _ => r == q
      | .strm _ _ _ | .qcopy _ _ _ | .qccopy _ _ _ | .qrcopy _ _ _ | .gcfg _ _ _ | .grun _ _ _ | .qsave _ | .stash _ _ _ => false
    if setting then .wait s.stall
    else if (k.sreg q).st = 4 then mxIllegal s op
    else
      match fmt, (k.sreg q).desc with
      | some (t, sc), some d => if d.et = t && d.sc = sc then .ok s s else mxIllegal s op
      | some _, none => mxIllegal s op
      | none, _ => .ok s s

/-- The element types and the scale setting in force. -/
def Matrix.pair (m : Matrix) : EType × EType × Bool :=
  ((etypeOf (bitsOf m.fmtIssued 0 4)).getD .bf16, (etypeOf (bitsOf m.fmtIssued 4 4)).getD .bf16, m.fmtIssued.getLsbD 8)

/-- MMA and MMAZ (17 R439 to R443). -/
def mmaOp (s : State) (o : OpMma) (w : Sync) (zero : Bool) : Host.Outcome State Fault Refusal :=
  let op := if zero then 0x05 else 0x04
  mxSlot s o.g op false fun s k n x =>
    (s.mxStream k n o.q.toNat op (some (k.mx.pair.1, k.mx.pair.2.2))).bind fun s _ =>
      s.mxIssue k n x (if zero then .mmaz o else .mma o) w false (.mma zero o.z.toNat o.q.toNat o.boff.toNat)

/-- MMA (17 R440): Queues an accumulate of A times B into a tile. -/
def execMma (o : OpMma) (s : State) : Host.Outcome State Fault Refusal := mmaOp s o Sync.none false
/-- MMA_64 (17 R440): MMA with a synchronisation word. -/
def execMma64 (o : OpMma) (w : Sync) (s : State) : Host.Outcome State Fault Refusal := mmaOp s o w false
/-- MMAZ (17 R440): Queues a product written onto a zero accumulator. -/
def execMmaz (o : OpMma) (s : State) : Host.Outcome State Fault Refusal := mmaOp s o Sync.none true
/-- MMAZ_64 (17 R440): MMAZ with a synchronisation word. -/
def execMmaz64 (o : OpMma) (w : Sync) (s : State) : Host.Outcome State Fault Refusal := mmaOp s o w true

/-- MBLD (17 R425 to R427). -/
def mbldOp (s : State) (o : OpMbld) (w : Sync) : Host.Outcome State Fault Refusal :=
  mxSlot s o.g 0x06 false fun s k n x =>
    (s.mxStream k n o.q.toNat 0x06 (some (k.mx.pair.2.1, k.mx.pair.2.2))).bind fun s _ =>
      s.mxIssue k n x (.mbld o) w false (.mbld o.q.toNat o.boff.toNat)

/-- MBLD (17 R426): Loads a B operand from a stream into the B store. -/
def execMbld (o : OpMbld) (s : State) : Host.Outcome State Fault Refusal := mbldOp s o Sync.none
/-- MBLD_64 (17 R426): MBLD with a synchronisation word. -/
def execMbld64 (o : OpMbld) (w : Sync) (s : State) : Host.Outcome State Fault Refusal := mbldOp s o w

/-- MZST and MZLD (17 R455, R456). -/
def mtileOp (s : State) (o : OpMtile) (w : Sync) (store : Bool) : Host.Outcome State Fault Refusal :=
  let op := if store then 0x0A else 0x0B
  mxSlot s o.g op false fun s k n x =>
    (s.mxStream k n o.q.toNat op none).bind fun s _ =>
      s.mxIssue k n x (if store then .mzst o else .mzld o) w false
        (if store then .mzst o.z.toNat o.q.toNat else .mzld o.z.toNat o.q.toNat)

/-- MZST (17 R456): Queues a store of a whole tile into a stream. -/
def execMzst (o : OpMtile) (s : State) : Host.Outcome State Fault Refusal := mtileOp s o Sync.none true
/-- MZST_64 (17 R456): MZST with a synchronisation word. -/
def execMzst64 (o : OpMtile) (w : Sync) (s : State) : Host.Outcome State Fault Refusal := mtileOp s o w true
/-- MZLD (17 R456): Queues a load of a whole tile from a stream. -/
def execMzld (o : OpMtile) (s : State) : Host.Outcome State Fault Refusal := mtileOp s o Sync.none false
/-- MZLD_64 (17 R456): MZLD with a synchronisation word. -/
def execMzld64 (o : OpMtile) (w : Sync) (s : State) : Host.Outcome State Fault Refusal := mtileOp s o w false

/-- MTRN (17 R444). -/
def mtrnOp (s : State) (o : OpMtrn) (w : Sync) : Host.Outcome State Fault Refusal :=
  mxSlot s o.g 0x0C false fun s k n x => s.mxIssue k n x (.mtrn o) w false (.mtrn o.zd.toNat o.zs.toNat)

/-- MTRN (06 R137): Queues a transpose of a tile. -/
def execMtrn (o : OpMtrn) (s : State) : Host.Outcome State Fault Refusal := mtrnOp s o Sync.none
/-- MTRN_64 (06 R137): MTRN with a synchronisation word. -/
def execMtrn64 (o : OpMtrn) (w : Sync) (s : State) : Host.Outcome State Fault Refusal := mtrnOp s o w

/-- MBFLY, with the checks of 17 R423. -/
def mbflyOp (s : State) (o : OpMbfly) (w : Sync) : Host.Outcome State Fault Refusal :=
  mxSlot s o.g 0x0D false fun s k n x =>
    match k.mx.twidIssued with
    | none => mxIllegal s 0x0D
    | some t =>
      if t.rad.length ≤ o.stg.toNat then mxIllegal s 0x0D
      else if o.ord && o.stg.toNat + 1 ≠ t.rad.length then mxIllegal s 0x0D
      else if 32 < o.zb.toNat + t.tiles then mxIllegal s 0x0D
      else s.mxIssue k n x (.mbfly o) w false (.mbfly o.zb.toNat o.stg.toNat o.scl o.ord)

/-- MBFLY (17 R422): Queues one butterfly stage of a transform. -/
def execMbfly (o : OpMbfly) (s : State) : Host.Outcome State Fault Refusal := mbflyOp s o Sync.none
/-- MBFLY_64 (17 R422): MBFLY with a synchronisation word. -/
def execMbfly64 (o : OpMbfly) (w : Sync) (s : State) : Host.Outcome State Fault Refusal := mbflyOp s o w

/-- The set-up that MTWID captures from MXRSEQ; none where 06 R139 forbids it. -/
def twidOf (nm1 : Nat) (inv : Bool) (rseq : Word64) : Option Twid :=
  let codes := (List.range (bitsOf rseq 48 4 + 1)).map fun i => bitsOf rseq (3 * i) 3
  let rads := codes.filterMap radixOf
  if rads.length ≠ codes.length || radixProduct rads ≠ nm1 + 1 then none else some ⟨nm1, inv, rads⟩

/-- MTWID (17 R445 to R447). -/
def mtwidOp (s : State) (o : OpMtwid) (w : Sync) : Host.Outcome State Fault Refusal :=
  mxSlot s o.g 0x0E (o.nm1 = 0) fun s k n x =>
    match twidOf o.nm1.toNat o.inv k.mx.rseq with
    | none => mxIllegal s 0x0E
    | some t => s.mxIssue k n x (.mtwid o) w false (.mtwid t k.mx.rseq)

/-- MTWID (17 R446): Queues the set-up of a transform's twiddles and radix sequence. -/
def execMtwid (o : OpMtwid) (s : State) : Host.Outcome State Fault Refusal := mtwidOp s o Sync.none
/-- MTWID_64 (17 R446): MTWID with a synchronisation word. -/
def execMtwid64 (o : OpMtwid) (w : Sync) (s : State) : Host.Outcome State Fault Refusal := mtwidOp s o w

/-- MFMT, with the checks of 17 R434. -/
def mfmtOp (s : State) (o : OpMfmt) (w : Sync) : Host.Outcome State Fault Refusal :=
  mxSlot s o.g 0x02 (!legalPair o.at' o.bt o.sc) fun s k n x =>
    if o.at' == .f32 && decide (1024 < cfgK k.mx.cfgIssued) then mxIllegal s 0x02
    else if fmtWord o.at' o.bt o.sc ≠ k.mx.fmtIssued && !k.mx.drained then .trap s 0x0C 2
    else s.mxIssue k n x (.mfmt o) w false (.mfmt o.at' o.bt o.sc)

/-- MFMT (17 R433): Queues a change of the matrix format pair. -/
def execMfmt (o : OpMfmt) (s : State) : Host.Outcome State Fault Refusal := mfmtOp s o Sync.none
/-- MFMT_64 (17 R433): MFMT with a synchronisation word. -/
def execMfmt64 (o : OpMfmt) (w : Sync) (s : State) : Host.Outcome State Fault Refusal := mfmtOp s o w

/-- MDRAIN (17 R431). -/
def mdrainOp (s : State) (o : OpN) (w : Sync) : Host.Outcome State Fault Refusal :=
  mxSlot s o.g 0x03 false fun s k n x => s.mxIssue k n x (.mdrain o) w false .mdrain

/-- MDRAIN (06 R127): Queues a drain of the matrix engine. -/
def execMdrain (o : OpN) (s : State) : Host.Outcome State Fault Refusal := mdrainOp s o Sync.none
/-- MDRAIN_64 (06 R127): MDRAIN with a synchronisation word. -/
def execMdrain64 (o : OpN) (w : Sync) (s : State) : Host.Outcome State Fault Refusal := mdrainOp s o w

/-- MZRD: the row as it stands at the issue (17 R457 to R460). -/
def mzrdOp (s : State) (o : OpMrow) (w : Sync) : Host.Outcome State Fault Refusal :=
  mxSlot s o.g 0x08 (o.ft == .bf16 && o.h) fun s k n x =>
    s.mxIssue k n x (.mzrd o) w true (.mzrd o.v.toNat o.h o.ft (k.mx.row o.z.toNat o.row.toNat))

/-- MZRD (17 R458): Reads a tile row into a v register. -/
def execMzrd (o : OpMrow) (s : State) : Host.Outcome State Fault Refusal := mzrdOp s o Sync.none
/-- MZRD_64 (17 R458): MZRD with a synchronisation word. -/
def execMzrd64 (o : OpMrow) (w : Sync) (s : State) : Host.Outcome State Fault Refusal := mzrdOp s o w

/-- MZWR: the v register as it stands at the issue, without writes that have not completed. -/
def mzwrOp (s : State) (o : OpMrow) (w : Sync) : Host.Outcome State Fault Refusal :=
  mxSlot s o.g 0x09 (o.ft == .bf16 && o.h) fun s k n x =>
    s.mxIssue k n x (.mzwr o) w true (.mzwr o.z.toNat o.row.toNat o.h o.ft (x.vNow s.cycle o.v.toNat))

/-- MZWR (17 R458): Writes a v register into a tile row. -/
def execMzwr (o : OpMrow) (s : State) : Host.Outcome State Fault Refusal := mzwrOp s o Sync.none
/-- MZWR_64 (17 R458): MZWR with a synchronisation word. -/
def execMzwr64 (o : OpMrow) (w : Sync) (s : State) : Host.Outcome State Fault Refusal := mzwrOp s o w

/-- MZERO (17 R454). -/
def mzeroOp (s : State) (o : OpMzero) (w : Sync) : Host.Outcome State Fault Refusal :=
  mxSlot s o.g 0x07 false fun s k n x => s.mxIssue k n x (.mzero o) w true (.mzero o.z.toNat)

/-- MZERO (06 R136): Zeroes a tile through the accumulator port. -/
def execMzero (o : OpMzero) (s : State) : Host.Outcome State Fault Refusal := mzeroOp s o Sync.none
/-- MZERO_64 (06 R136): MZERO with a synchronisation word. -/
def execMzero64 (o : OpMzero) (w : Sync) (s : State) : Host.Outcome State Fault Refusal := mzeroOp s o w

/-- MCFG (17 R428 to R430): the context is held until the engine is idle. -/
def execMcfg (o : OpMcfg) (s : State) : Host.Outcome State Fault Refusal :=
  mxSlot s o.g 0x01 false fun s k n _ =>
    if k.mx.pair.1 == .f32 && decide (31 < o.km.toNat) then mxIllegal s 0x01
    else
      let s := s.updCore s.cur fun k => { k with mx := { k.mx with
        cfgIssued := BitVec.ofNat 64 (o.mc.toNat + 4 * o.nc.toNat + 16 * o.km.toNat), drained := false } }
      let s := s.updCtx s.cur n fun x => { x with holdM := .mcfg o.mc o.nc o.km }
      let s := s.postOnce 0 (.mcfgClear s.cur)
      .ok s s

end Sys2Proof.Machine
end

