-- ==== Sys2Proof/Machine/Queue.lean ====
section
/-! DEFINITION. The Q slot (07 R163 to R172, 16 R399 to R402, 18 R461 to R497): issue and start of stream commands, the events of streams, QSET, copies,
stash commands. QSAVE and QREST, and the rows that QRCOPY sends, stand in their own files. -/

namespace Sys2Proof.Machine

/-! ## Issue (18 R461) -/

/-- ILLEGAL_OP of a Q-slot command, TRAPINFO[9] = 1. -/
def qIllegal (s : State) (op : Nat) : Try State := .trap s 0x01 (illegalInfo 5 op true)

/-- A command that has passed its checks enters the stream command queue: its wait, then room among those that have not started (07 R172). -/
def State.qIssue (s : State) (k : Core) (n : Nat) (x : Ctx) (i : Instr) (w : Sync) (kind : QKind) (f : State → State) : Try State :=
  (s.syncWait k x .q w).bind fun s _ =>
    if 16 ≤ (k.qcmds.filter fun q => !q.started).length then .wait s.stall
    else
      let q : QCmd := ⟨k.nextCmd, n, kind, w, engineWord i, false, 0, false, 0, [], Instr.guardPsn s.bun.old i⟩
      let s := s.updCore s.cur fun k => { k with nextCmd := k.nextCmd + 1, qcmds := k.qcmds ++ [q] }
      let s := (f s).postOnce 0 (.streamCommandStart s.cur)
      .ok s s

/-- A Q-slot operation whose guard passes. -/
def qSlot (s : State) (g : Guard) (f : State → Core → Nat → Ctx → Try State) : Host.Outcome State Fault Refusal :=
  guarded s g .pk fun k n x => f s k n x

/-- QSET: at its issue it allocates the register (07 R163, R164, 18 R481). -/
def qsetOp (s : State) (o : OpQset) (w : Sync) : Host.Outcome State Fault Refusal :=
  qSlot s o.g fun s k n x =>
    let a := s.bun.old.getXY o.fs o.a.toNat
    let q := o.q.toNat
    let r := k.sreg q
    if a.p then .kill s 0 a.v.toNat
    else if r.alloc && r.owner ≠ n then qIllegal s 0x01
    else if a.v.toNat % 128 ≠ 0 then .trap s 0x05 (a.v &&& 0xFFFFFFFFFFFFF)
    else
      s.qIssue k n x (.qset o) w (.qset q a.v) fun s =>
        s.updSreg s.cur q fun r => { r with alloc := true, owner := n }

/-- QSET (18 R481): Allocates a stream register and loads its descriptor, or frees it. -/
def execQset (o : OpQset) (s : State) : Host.Outcome State Fault Refusal := qsetOp s o Sync.none
/-- QSET_64 (18 R481): QSET with a synchronisation word. -/
def execQset64 (o : OpQset) (w : Sync) (s : State) : Host.Outcome State Fault Refusal := qsetOp s o w

/-- QLD, QST, QGATH and QSCAT (18 R477). -/
def qstrmOp (s : State) (o : OpQstrm) (w : Sync) (op : Nat) (i : Instr) (store ix : Bool) : Host.Outcome State Fault Refusal :=
  qSlot s o.g fun s k n x =>
    (s.ownedReg k n o.q.toNat 5 op).bind fun s _ => s.qIssue k n x i w (.strm o.q.toNat store ix) id

/-- QLD (18 R477): Starts a load stream. -/
def execQld (o : OpQstrm) (s : State) : Host.Outcome State Fault Refusal := qstrmOp s o Sync.none 0x02 (.qld o) false false
/-- QLD_64 (18 R477): QLD with a synchronisation word. -/
def execQld64 (o : OpQstrm) (w : Sync) (s : State) : Host.Outcome State Fault Refusal := qstrmOp s o w 0x02 (.qld o) false false
/-- QST (18 R477): Starts a store stream. -/
def execQst (o : OpQstrm) (s : State) : Host.Outcome State Fault Refusal := qstrmOp s o Sync.none 0x03 (.qst o) true false
/-- QST_64 (18 R477): QST with a synchronisation word. -/
def execQst64 (o : OpQstrm) (w : Sync) (s : State) : Host.Outcome State Fault Refusal := qstrmOp s o w 0x03 (.qst o) true false
/-- QGATH (18 R477): Starts a gather load stream with its index stream. -/
def execQgath (o : OpQstrm) (s : State) : Host.Outcome State Fault Refusal := qstrmOp s o Sync.none 0x04 (.qgath o) false true
/-- QGATH_64 (18 R477): QGATH with a synchronisation word. -/
def execQgath64 (o : OpQstrm) (w : Sync) (s : State) : Host.Outcome State Fault Refusal := qstrmOp s o w 0x04 (.qgath o) false true
/-- QSCAT (18 R477): Starts a scatter store stream with its index stream. -/
def execQscat (o : OpQstrm) (s : State) : Host.Outcome State Fault Refusal := qstrmOp s o Sync.none 0x05 (.qscat o) true true
/-- QSCAT_64 (18 R477): QSCAT with a synchronisation word. -/
def execQscat64 (o : OpQstrm) (w : Sync) (s : State) : Host.Outcome State Fault Refusal := qstrmOp s o w 0x05 (.qscat o) true true

/-- The three operands of a copy; a poisoned one kills (18 R461). -/
def copyOp (s : State) (o : OpQcopy) (f : State → Core → Nat → Ctx → Word64 → Word64 → Word64 → Try State) : Host.Outcome State Fault Refusal :=
  qSlot s o.g fun s k n x =>
    let a := s.bun.old.getXY o.fs o.a.toNat
    let b := s.bun.old.getXY o.fs o.b.toNat
    let c := s.bun.old.getXY o.fs o.c.toNat
    if a.p || b.p || c.p then .kill s 0 (if a.p then a.v.toNat else if b.p then b.v.toNat else c.v.toNat) else f s k n x a.v b.v c.v

/-- QCOPY, with the limits of 18 Table 3. -/
def qcopyOp (s : State) (o : OpQcopy) (w : Sync) : Host.Outcome State Fault Refusal :=
  copyOp s o fun s k n x d a l =>
    if 2 ^ 32 < l.toNat || 2 ^ 52 < d.toNat + l.toNat || 2 ^ 52 < a.toNat + l.toNat then qIllegal s 0x06
    else s.qIssue k n x (.qcopy o) w (.qcopy d a l) id

/-- QCOPY (18 R471): Bulk copy performed at the home slices. -/
def execQcopy (o : OpQcopy) (s : State) : Host.Outcome State Fault Refusal := qcopyOp s o Sync.none
/-- QCOPY_64 (18 R471): QCOPY with a synchronisation word. -/
def execQcopy64 (o : OpQcopy) (w : Sync) (s : State) : Host.Outcome State Fault Refusal := qcopyOp s o w

/-- QCCOPY: the limits, then the alignment (18 R474). -/
def qccopyOp (s : State) (o : OpQcopy) (w : Sync) : Host.Outcome State Fault Refusal :=
  copyOp s o fun s k n x d a v =>
    let l := bitsOf v 32 16
    if l % 4 ≠ 0 || l < 4 || 16384 < l || bitsOf v 48 16 ≠ 0 then qIllegal s 0x08
    else if d.toNat % 4 ≠ 0 then .trap s 0x05 (d &&& 0xFFFFFFFFFFFFF)
    else if a.toNat % 4 ≠ 0 then .trap s 0x05 (a &&& 0xFFFFFFFFFFFFF)
    else s.qIssue k n x (.qccopy o) w (.qccopy d a v) id

/-- QCCOPY (18 R472): Copy committed all-or-nothing against a version word. -/
def execQccopy (o : OpQcopy) (s : State) : Host.Outcome State Fault Refusal := qccopyOp s o Sync.none
/-- QCCOPY_64 (18 R472): QCCOPY with a synchronisation word. -/
def execQccopy64 (o : OpQcopy) (w : Sync) (s : State) : Host.Outcome State Fault Refusal := qccopyOp s o w

/-- QRCOPY. -/
def qrcopyOp (s : State) (o : OpQcopy) (w : Sync) : Host.Outcome State Fault Refusal :=
  copyOp s o fun s k n x a l h =>
    if l.toNat % 4 ≠ 0 || l.toNat < 4 || 2 ^ 24 < l.toNat || bitsOf h 44 20 ≠ 0 then qIllegal s 0x07
    else if a.toNat % 4 ≠ 0 then .trap s 0x05 (a &&& 0xFFFFFFFFFFFFF)
    else s.qIssue k n x (.qrcopy o) w (.qrcopy a l h) id

/-- QRCOPY (18 R473): Sends a source range as flow rows. -/
def execQrcopy (o : OpQcopy) (s : State) : Host.Outcome State Fault Refusal := qrcopyOp s o Sync.none
/-- QRCOPY_64 (18 R473): QRCOPY with a synchronisation word. -/
def execQrcopy64 (o : OpQcopy) (w : Sync) (s : State) : Host.Outcome State Fault Refusal := qrcopyOp s o w

/-- GCFG (16 R399 to R401). -/
def gcfgOp (s : State) (o : OpGcfg) (w : Sync) : Host.Outcome State Fault Refusal :=
  qSlot s o.g fun s k n x =>
    let a := s.bun.old.getXY o.fs o.a.toNat
    if a.p then .kill s 0 a.v.toNat else s.qIssue k n x (.gcfg o) w (.gcfg a.v o.iim1.toNat o.lut) id

/-- GCFG (07 R159): Loads a grid configuration image, and optionally the LUT image. -/
def execGcfg (o : OpGcfg) (s : State) : Host.Outcome State Fault Refusal := gcfgOp s o Sync.none
/-- GCFG_64 (07 R159): GCFG with a synchronisation word. -/
def execGcfg64 (o : OpGcfg) (w : Sync) (s : State) : Host.Outcome State Fault Refusal := gcfgOp s o w

/-- Whether a list of numbers holds one twice. -/
def dupNat : List Nat → Bool
  | [] => false
  | r :: l => l.contains r || dupNat l

/-- GRUN: the poison of its binding word (18 R461), the checks of 07 R160, then the poison of its turn count (16 R401). -/
def grunOp (s : State) (o : OpGrun) (w : Sync) : Host.Outcome State Fault Refusal :=
  qSlot s o.g fun s k n x =>
    let a := s.bun.old.getXY o.fs o.a.toNat
    let b := s.bun.old.getXY o.fs o.b.toNat
    let rs := boundRegs a.v
    if a.p then .kill s 0 0
    else if (rs.any fun q => !((k.sreg q).alloc && decide ((k.sreg q).owner = n))) || dupNat rs || bitsOf a.v 38 26 ≠ 0 then qIllegal s 0x0A
    else if b.p then .kill s 1 0
    else s.qIssue k n x (.grun o) w (.grun a.v b.v.toNat o.keep) id

/-- GRUN (07 R160): Binds streams and runs the grid for a turn count. -/
def execGrun (o : OpGrun) (s : State) : Host.Outcome State Fault Refusal := grunOp s o Sync.none
/-- GRUN_64 (07 R160): GRUN with a synchronisation word. -/
def execGrun64 (o : OpGrun) (w : Sync) (s : State) : Host.Outcome State Fault Refusal := grunOp s o w

/-- GSTOP acts at its issue, outside the queue (07 R162). -/
def gstopOp (s : State) (o : OpN) (w : Sync) : Host.Outcome State Fault Refusal :=
  qSlot s o.g fun s k n x => (s.syncWait k x .q w).bind fun s _ =>
    let s := s.gridStop s.cur n w
    .ok s s

/-- GSTOP (07 R162): Requests that a running grid stop at its next turn boundary. -/
def execGstop (o : OpN) (s : State) : Host.Outcome State Fault Refusal := gstopOp s o Sync.none
/-- GSTOP_64 (07 R162): GSTOP with a synchronisation word. -/
def execGstop64 (o : OpN) (w : Sync) (s : State) : Host.Outcome State Fault Refusal := gstopOp s o w

/-- SPIN, SUNPIN, SWB, SINV: `sub` 0 to 3 (10 R243, 18 R497). -/
def stashOp (s : State) (o : OpStash) (w : Sync) (sub : Nat) (i : Instr) : Host.Outcome State Fault Refusal :=
  qSlot s o.g fun s k n x =>
    let a := s.bun.old.getXY o.fs o.a.toNat
    let b := s.bun.old.getXY o.fs o.b.toNat
    if a.p || b.p then .kill s 0 (if a.p then a.v.toNat else b.v.toNat)
    else if 8388608 < b.v.toNat || 2 ^ 52 < a.v.toNat + b.v.toNat then qIllegal s (0x10 + sub)
    else s.qIssue k n x i w (.stash sub a.v b.v) id

/-- SPIN (18 R497): Fills and pins the stash rows of a range. -/
def execSpin (o : OpStash) (s : State) : Host.Outcome State Fault Refusal := stashOp s o Sync.none 0 (.spin o)
/-- SPIN_64 (18 R497): SPIN with a synchronisation word. -/
def execSpin64 (o : OpStash) (w : Sync) (s : State) : Host.Outcome State Fault Refusal := stashOp s o w 0 (.spin o)
/-- SUNPIN (18 R497): Unpins the stash rows of a range. -/
def execSunpin (o : OpStash) (s : State) : Host.Outcome State Fault Refusal := stashOp s o Sync.none 1 (.sunpin o)
/-- SUNPIN_64 (18 R497): SUNPIN with a synchronisation word. -/
def execSunpin64 (o : OpStash) (w : Sync) (s : State) : Host.Outcome State Fault Refusal := stashOp s o w 1 (.sunpin o)
/-- SWB (18 R497): Writes back the dirty bytes of a range. -/
def execSwb (o : OpStash) (s : State) : Host.Outcome State Fault Refusal := stashOp s o Sync.none 2 (.swb o)
/-- SWB_64 (18 R497): SWB with a synchronisation word. -/
def execSwb64 (o : OpStash) (w : Sync) (s : State) : Host.Outcome State Fault Refusal := stashOp s o w 2 (.swb o)
/-- SINV (18 R497): Invalidates the stash rows of a range, discarding dirty bytes. -/
def execSinv (o : OpStash) (s : State) : Host.Outcome State Fault Refusal := stashOp s o Sync.none 3 (.sinv o)
/-- SINV_64 (18 R497): SINV with a synchronisation word. -/
def execSinv64 (o : OpStash) (w : Sync) (s : State) : Host.Outcome State Fault Refusal := stashOp s o w 3 (.sinv o)

/-! ## Starts (07 R172 Table 11) -/

/-- Whether a command is a copy, a QSET, a stash command. -/
def QKind.isCopy : QKind → Bool
  | .qcopy _ _ _ => true
  | .qccopy _ _ _ => true
  | .qrcopy _ _ _ => true
  | .qset _ _ | .strm _ _ _ | .gcfg _ _ _ | .grun _ _ _ | .qsave _ | .stash _ _ _ => false
def QKind.isQset : QKind → Bool
  | .qset _ _ => true
  | .strm _ _ _ | .qcopy _ _ _ | .qccopy _ _ _ | .qrcopy _ _ _ | .gcfg _ _ _ | .grun _ _ _ | .qsave _ | .stash _ _ _ => false
def QKind.isStash : QKind → Bool
  | .stash _ _ _ => true
  | .qset _ _ | .strm _ _ _ | .qcopy _ _ _ | .qccopy _ _ _ | .qrcopy _ _ _ | .gcfg _ _ _ | .grun _ _ _ | .qsave _ => false

/-- The stream engines in use: one for each stream, one for each copy that has started (07 R169, 18 R461). -/
def Core.enginesUsed (k : Core) : Nat :=
  (k.sregs.filter fun kv => (kv.2.bind (·.strm)).isSome).length + (k.qcmds.filter fun q => q.started && QKind.isCopy q.kind).length

/-- Whether a register is ACTIVE or FAULTED. -/
def Core.regBusy (k : Core) (q : Nat) : Bool := (k.sreg q).strm.isSome || (k.sreg q).st == 2 || (k.sreg q).st == 3

/-- Whether a DRAIN of a context waits that was issued before a command: flow operations wait for it (11 R274, 09 R216). -/
def Core.drainBefore (k : Core) (n id : Nat) : Bool :=
  k.ycmds.any fun y => y.ctx == n && decide (y.id < id) && !y.started && (match y.kind with
    | .drain => true
    | .chsend _ | .chrecv _ | .chstart _ | .chabort _ | .semadd _ _ | .step _ => false)

/-- Whether a command of the queue may start now: its condition in Table 11, and no earlier one that has not started names what it names. -/
def Core.qStarts (k : Core) (q : QCmd) : Bool :=
  let before := k.qcmds.filter fun p => decide (p.id < q.id)
  let waiting := before.filter fun p => !p.started
  let common := fun (p : QCmd) => (QKind.names p.kind).any fun r => (QKind.names q.kind).contains r
  let grid := fun (p : QCmd) => QKind.isGcfg p.kind || QKind.isGrun p.kind
  !q.started && !k.fenced q.ctx q.id (QKind.path k q.ctx q.kind) && !(waiting.any common)
    && (match q.kind with
      | .qset r _ => !(before.any common) && !k.regBusy r
      | .strm r _ _ =>
        !(before.any fun p => QKind.isQset p.kind && common p) && !k.regBusy r
          && (match (k.sreg r).desc with
            | none => true
            | some d => !d.ix || !k.regBusy d.iq)
          && decide (k.enginesUsed < 6)
      | .gcfg _ _ _ => !(before.any grid)
      | .grun _ _ _ => !(before.any grid) && !(before.any fun p => QKind.isQset p.kind && common p)
      | .qcopy _ _ _ | .qccopy _ _ _ => !(waiting.any fun p => QKind.isCopy p.kind) && decide (k.enginesUsed < 6)
      | .qrcopy _ _ _ => !(waiting.any fun p => QKind.isCopy p.kind) && decide (k.enginesUsed < 6) && !k.drainBefore q.ctx q.id
      | .qsave _ => true
      | .stash _ _ _ => true)

/-- A command of the queue changed. -/
def Core.updQ (k : Core) (id : Nat) (f : QCmd → QCmd) : Core := { k with qcmds := k.qcmds.map fun q => if q.id = id then f q else q }
/-- The queue without a command. -/
def Core.dropQ (k : Core) (id : Nat) : Core := { k with qcmds := k.qcmds.filter fun q => q.id ≠ id }
/-- A command of the queue. -/
def Core.qcmd (k : Core) (id : Nat) : Option QCmd := k.qcmds.find? fun q => q.id = id

/-- A command completes and signals. -/
def State.qDone (s : State) (c : Nat) (q : QCmd) : State :=
  ((s.updCore c fun k => k.dropQ q.id).post1 c q.ctx q.sync).afterCommand c

/-- A register whose owner's task has ended, without a stream and without a command that names it, becomes FREE (07 R163). -/
def State.freeOrphan (s : State) (c q : Nat) : State :=
  match (s.core? c).map fun k => (k, k.sreg q) with
  | none => s
  | some (k, r) =>
    if r.alloc && s.orphan c r.owner && r.strm.isNone && !(k.qcmds.any fun p => (QKind.names p.kind).contains q) then
      s.updCore c fun k => { k with sregs := Tab.set none k.sregs q none }
    else s

/-- A command meets a fault: it stands until ERET resumes it; where its task has ended it is abandoned (18 R461). The register that an abandoned QSET names becomes
FREE with it, and so leaves FAULTED, where no other accepted command names it; else it shows FAULTED until the last of those has gone (DEDUCED, log entry
46: the spec is silent on a QSET abandoned so). -/
def State.qFault (s : State) (c : Nat) (q : QCmd) (reg cause addr : Nat) : State :=
  let s := s.reportFault c q.ctx ⟨reg, cause, addr, 1, q.id⟩
  if s.orphan c q.ctx then
    ((s.updCore c fun k => k.dropQ q.id).forEach (QKind.names q.kind) fun s r => s.freeOrphan c r).afterCommand c
  else s.updCore c fun k => k.updQ q.id fun q => { q with faulted := true }

/-- The checks of 18 R477 on a stream's start. -/
def Core.strmBad (k : Core) (n q : Nat) (store ix : Bool) : Bool :=
  match (k.sreg q).desc with
  | none => true
  | some d =>
    (k.sreg q).st == 4 || d.ix != ix
      || (ix && (let r := k.sreg d.iq
        !r.alloc || r.owner != n || r.st == 4 || (match r.desc with
          | none => true
          | some e => !([EType.int .i32, .int .n32, .int .i64, .int .n64].contains e.et) || e.ix || e.sc)))
      || (match k.grid.run with
        | none => false
        | some r => (List.range 6).any fun p => bindOf r.bind p == some q && decide (p < 4) == store)

/-- A stream starts on a register, at an element; `psn`: under a poisoned guard. It is on path M where an operation that names its register is not complete now
(11 R264). It is ACTIVE until it retires (07 R169, R171); one whose start fails is cancelled at once (07 R175). One that finds its register FREE, by a QSET of
address 0 that stood between, fails as on a BAD one, and the register shows BAD: 07 R169 names BAD alone (DESIGN CHOICE, log entry 100). -/
def State.startStream (s : State) (c id n q : Nat) (store ix : Bool) (sync : Sync) (word : Word32) (at' : Nat) (psn : Bool) : State :=
  match s.core? c with
  | none => s
  | some k =>
    let r := k.sreg q
    let bad := k.strmBad n q store ix
    let onM := (k.mxRunTo s.cycle).mx.live.any fun o => o.ctx == n && MKind.memReg o.kind == some q && !o.fin && !(k.mxRunTo s.cycle).mxThrough s.cycle o
    let total := match r.desc with | none => 0 | some d => if bad then 0 else d.total
    let t : Strm := {
      id := id, store := store, ctx := n, sync := sync, word := word, total := total, done := min at' total, taken := min at' total, buf := [], idx := []
      idxTaken := 0, scl := 127, sclPsn := false, sclBlk := 0, pathM := onM, cancelled := bad, faulted := false, stopped := false, frozen := false, psn := psn }
    let s := s.updSreg c q fun r => { r with
      st := if r.desc.isNone || r.st = 4 then 4 else 2, strm := some t, fcause := if bad then 1 else r.fcause }
    let s := match r.desc with
      | some d => if ix && !bad then s.updSreg c d.iq fun r => { r with st := 2 } else s
      | none => s
    let s := if bad then s.reportFault c n ⟨q, 0x01, 0, 3, id⟩ else s
    if total = min at' total then s.postOnce 0 (.streamRetire c q)
    else if store then s.postOnce 0 (.storeStreamElementPerformed c q)
    else
      match r.desc with
      | none => s
      | some d => if d.home then s.postOpen 1 (.streamDataArrival c q) else s.postOnce 1 (.streamDataArrival c q)

/-- A run starts on the grid (07 R160, R172, 16 R402). -/
def State.startRun (s : State) (c : Nat) (q : QCmd) (bind : Word64) (turns : Nat) (keep : Bool) : State :=
  match s.core? c with
  | none => s
  | some k =>
    if k.grid.st = 0 then
      ((s.updCore c fun k => k.dropQ q.id).reportFault c q.ctx ⟨15, 0x01, 0, 3, q.id⟩).afterCommand c
    else
      let cont := keep && k.grid.held
      let base := if cont then k.grid.turns.toNat else 0
      let g := if cont then k.grid else k.grid.clear
      let r : GRun := ⟨bind, turns, 0, base, q.ctx, q.sync, false, [], [], s.cycle, q.id, q.psn⟩
      (s.updCore c fun k => { k with grid := { g with st := 3, held := false, heldRun := none, run := some r, turns := BitVec.ofNat 32 base } }).postOnce 0
        (.grunCompletion c)

/-- A command starts. A SUNPIN of length 0 acts on no row and has no parked row tried again: 08 R207 does not say whether it is one of 'each SUNPIN on its
tile' (DESIGN CHOICE, log entry 103). -/
def State.qStart (s : State) (c : Nat) (q : QCmd) : State :=
  let s := s.updCore c fun k => k.updQ q.id fun q => { q with started := true }
  match q.kind with
  | .qset r _ => s.postOnce 1 (.qsetCompletion c r)
  | .strm r store ix => (s.updCore c fun k => k.dropQ q.id).startStream c q.id q.ctx r store ix q.sync q.word q.next q.psn
  | .qcopy _ _ n => if n = 0 then s.qDone c q else s.postOpen 1 (.copyCompletion c q.id)
  | .qccopy _ _ _ => s.postOpen 1 (.copyCompletion c q.id)
  | .qrcopy _ _ _ => s.postOnce 1 (.flowRowSend c q.id)
  | .gcfg a ii lut =>
    (s.updCore c fun k => { k with grid := { k.grid with
      st := 1, held := false, heldRun := none, cfgerr := false, eelem := 0, ebun := 0, eslot := 0, load := some ⟨q.id, q.ctx, a, lut, ii, [], false⟩ } }).postOnce
      (if lut then 576 else 64) (.gcfgLoadEnd c)
  | .grun b t keep => s.startRun c q b (t % 2 ^ 32) keep
  | .qsave _ => s.postOnce 0 (.qsaveCompletion c q.id)
  | .stash _ _ n => if n = 0 then s.qDone c q else s.postOnce 1 (.stashCommandCompletion c q.id)

/-- Whether a command is a QRCOPY. -/
def QKind.isRcopy : QKind → Bool
  | .qrcopy _ _ _ => true
  | .qset _ _ | .strm _ _ _ | .qcopy _ _ _ | .qccopy _ _ _ | .gcfg _ _ _ | .grun _ _ _ | .qsave _ | .stash _ _ _ => false

/-- Whether a DRAFTLD holds the flow operations of a core's launch (16 R384). -/
def State.flowsHeld (s : State) (c : Nat) : Bool :=
  match (s.core? c).bind (·.launch) with
  | none => false
  | some l => s.cores.any fun kv =>
      match kv.2 with
      | none => false
      | some k => k.launch == some l && k.ctxs.any fun x =>
          match x.2.map fun (y : Ctx) => y.hold with
          | some (Hold.draftld _ _ _ _ _ _ _) => true
          | _ => false

/-- Every command of the queue that can start does, in issue order. -/
def State.qStartAll (s : State) (c : Nat) : List QCmd → State
  | [] => s
  | q :: qs =>
    match s.core? c with
    | none => s
    | some k => if k.qStarts q && !(QKind.isRcopy q.kind && s.flowsHeld c) then (s.qStart c q).qStartAll c qs else s.qStartAll c qs

/-- STREAM_COMMAND_START (07 R172). -/
def execStreamCommandStart (s : State) : Host.Outcome State Fault Refusal :=
  match s.ev with
  | .streamCommandStart c =>
    .next (match s.core? c with
      | none => s
      | some k => s.qStartAll c k.qcmds)
  | _ => .next s

/-! ## The events of streams -/

/-- Whether a matrix operation at work takes from or gives to a register. -/
def Core.mxTakes (k : Core) (q : Nat) : Bool :=
  k.mx.run.any fun o =>
    match o.kind with
    | .mma _ _ r _ => r == q
    | .mbld r _ => r == q
    | .mzst _ r => r == q
    | .mzld _ r => r == q
    | .mtrn _ _ | .mbfly _ _ _ _ | .mtwid _ _ | .mfmt _ _ _ | .mdrain | .mzrd _ _ _ _ | .mzwr _ _ _ _ _ | .mzero _ => false

/-- The grid of a core goes on where it runs: something it waited for may be there. -/
def State.kickGrid (s : State) (c : Nat) : State :=
  match (s.core? c).bind fun k => k.grid.run with
  | none => s
  | some _ => s.postOnce 0 (.grunCompletion c)

/-- STREAM_DATA_ARRIVAL (07 R169, R170): elements arrive and are delivered; the consumers go on. -/
def execStreamDataArrival (s : State) : Host.Outcome State Fault Refusal :=
  match s.ev with
  | .streamDataArrival c q =>
    let s := ((((s.mxSettle c).afterTake c).deliver c q).mxSettle c).kickGrid c
    .next (match (s.core? c).map fun k => (k, k.sreg q) with
      | none => s
      | some (k, r) =>
        match r.strm with
        | none => s
        | some t =>
          if t.store then s
          else if k.mxTakes q && (!t.buf.isEmpty || t.stopped) then s.postOnce 1 (.streamDataArrival c q) else s)
  | _ => .next s

/-- STORE_STREAM_ELEMENT_PERFORMED (07 R169 to R171): elements of a store stream perform, at most 256 bytes a cycle; the producers go on. -/
def execStoreStreamElementPerformed (s : State) : Host.Outcome State Fault Refusal :=
  match s.ev with
  | .storeStreamElementPerformed c q =>
    let s := s.mxSettle c
    .next (match (s.core? c).map fun k => (k, k.sreg q) with
      | none => s
      | some (k, r) =>
        let again := fun (s : State) => if k.mxTakes q then s.postOnce 1 (.storeStreamElementPerformed c q) else s
        match r.strm, r.desc with
        | some t, some d =>
          if !t.store || t.faulted then s
          else
            match s.performStore c q (max 1 (2048 / EType.bits d.et / d.group)) with
            | (s, p) =>
              let s := (s.mxSettle c).kickGrid c
              match ((s.core? c).map fun k => k.sreg q).bind (·.strm) with
              | none => s
              | some t =>
                if t.done = t.total then s.postOnce 0 (.streamRetire c q)
                else if p == .more && !(((s.core? c).map fun k => k.groupNow q d t).getD []).isEmpty then s.postOnce 1 (.storeStreamElementPerformed c q)
                else again s
        | _, _ => again s)
  | _ => .next s

/-- A command put among those set aside, in issue order. -/
def addFrozen (f : Frozen) (id : Nat) (idOf : Frozen → Nat) : List Frozen → List Frozen
  | [] => [f]
  | g :: l => if id < idOf g then f :: g :: l else g :: addFrozen f id idOf l

/-- The number of a command set aside. -/
def Frozen.id : Frozen → Nat
  | .m op _ => op.id
  | .q cmd => cmd.id
  | .y cmd => cmd.id
/-- The context of a command set aside. -/
def Frozen.ctx : Frozen → Nat
  | .m op _ => op.ctx
  | .q cmd => cmd.ctx
  | .y cmd => cmd.ctx

/-- Whether an operation at work needs more of the stream of a register before it completes: an MZST until its last element has performed. -/
def MOp.needs (o : MOp) (q : Nat) : Bool :=
  !o.fin && (match o.kind with
    | .mma _ _ r _ => r == q && decide (o.step < o.steps)
    | .mbld r _ => r == q && decide (o.given < o.n * o.k)
    | .mzst _ r => r == q
    | .mzld _ r => r == q && decide (o.rowsRead < 64)
    | .mtrn _ _ | .mbfly _ _ _ _ | .mtwid _ _ | .mfmt _ _ _ | .mdrain | .mzrd _ _ _ _ | .mzwr _ _ _ _ _ | .mzero _ => false)

/-- Under a pre-emption, the matrix operations that a stream's fault keeps from completing are abandoned (12 R294): they are set aside, and the stream
stands at the first element of the first of them. -/
def State.abandonOp (s : State) (c q : Nat) : Option State :=
  match (s.core? c).bind fun k => (k.sreg q).strm.map fun t => (k, t) with
  | none => none
  | some (k, t) =>
    let ops := k.mx.run.filter fun o => o.needs q
    if !t.frozen || ops.isEmpty then none
    else
      let again := fun (o : MOp) =>
        { o with start := none, taken := [], given := 0, step := 0, waited := 0, rowsRead := 0, rowsWritten := 0, acc := [], bcap := [], bad := [] }
      let first := t.taken - (ops.map (·.given)).sum
      some ((s.updCore c fun k => { k with
        mx := { k.mx with run := k.mx.run.filter fun o => !o.needs q }
        frozen := ops.foldl (fun l o => addFrozen (.m (again o) true) o.id Frozen.id l) k.frozen }).updStrm c q fun t =>
          { t with taken := first, done := first, buf := [], idx := [], idxTaken := 0, stopped := !t.store })

/-- STREAM_ELEMENT_FAULT (07 R173). -/
def execStreamElementFault (s : State) : Host.Outcome State Fault Refusal :=
  match s.ev with
  | .streamElementFault c q =>
    let s := s.mxSettle c
    .next (match s.abandonOp c q with
      | some t => t.postOnce 1 (.matrixQueueStart c)
      | none => s.streamFaultNow c q)
  | _ => .next s

/-- The register that a gather or scatter took its indexes by is ACTIVE no longer. -/
def State.freeIndex (s : State) (c q : Nat) : State :=
  match (s.core? c).map fun k => k.sreg q with
  | none => s
  | some r =>
    match r.strm, r.desc with
    | some _, some d => if d.ix then s.updSreg c d.iq fun r => if r.st = 2 && r.strm.isNone then { r with st := 1 } else r else s
    | _, _ => s

/-- STREAM_RETIRE (07 R171, R175, R163). -/
def execStreamRetire (s : State) : Host.Outcome State Fault Refusal :=
  match s.ev with
  | .streamRetire c q =>
    let s := s.mxSettle c
    let t := s.retireStream c q
    let gone := (match (t.core? c).bind fun k => (k.sreg q).strm with | none => true | some _ => false)
    .next ((if gone then (s.freeIndex c q).retireStream c q else t).freeOrphan c q)
  | _ => .next s

/-! ## QSET (07 R164, R165, 18 R481) -/

/-- QSET_COMPLETION: the descriptor is read and judged; the register becomes SET or BAD, or FREE for the address 0. -/
def execQsetCompletion (s : State) : Host.Outcome State Fault Refusal :=
  match s.ev with
  | .qsetCompletion c q =>
    .next (match (s.core? c).bind fun k => k.qcmds.find? fun p => p.started && !p.faulted && (match p.kind with
        | .qset r _ => r == q
        | .strm _ _ _ | .qcopy _ _ _ | .qccopy _ _ _ | .qrcopy _ _ _ | .gcfg _ _ _ | .grun _ _ _ | .qsave _ | .stash _ _ _ => false) with
      | none => s
      | some p =>
        match p.kind with
        | .qset _ a =>
          if a = 0 then
            -- a later QSET of the register has allocated it again (07 R163)
            let again := ((s.core? c).map fun k => k.qcmds.any fun b => decide (p.id < b.id) && QKind.isQset b.kind && (QKind.names b.kind).contains q) == some true
            let s := s.updCore c fun k => { k with sregs := Tab.set none k.sregs q none }
            (if again then s.updSreg c q fun r => { r with alloc := true, owner := p.ctx } else s).qDone c p
          else
            match s.readWords c false a.toNat 32 with
            | (s, .got ws) =>
              let d := parseDesc q (ws.map fun w => { w with p := w.p || p.psn })
              ((s.updSreg c q fun r => { r with st := if d.isSome then 1 else 4, desc := d, descAddr := a }).qDone c p).postOnce 0 (.streamRetire c q)
            | (s, .wait) => s
            | (s, .fault cause addr) =>
              (s.updSreg c q fun r => { r with st := 3, fcause := BitVec.ofNat 8 cause }).qFault c p q cause addr
            | (s, .poison _) => s
        | .strm _ _ _ | .qcopy _ _ _ | .qccopy _ _ _ | .qrcopy _ _ _ | .gcfg _ _ _ | .grun _ _ _ | .qsave _ | .stash _ _ _ => s)
  | _ => .next s

/-! ## Copies (18 R471, R472) -/

/-- A range of bytes cut at word boundaries: address and length of each piece. -/
def wordPieces (a n : Nat) : List (Nat × Nat) :=
  (List.range ((a + n + 3) / 4 - a / 4)).filterMap fun i =>
    let lo := max a ((a / 4 + i) * 4)
    let hi := min (a + n) ((a / 4 + i) * 4 + 4)
    if lo < hi then some (lo, hi - lo) else none

/-- The pieces of a destination read from the source at home: each with its value and poison. -/
def State.copyReads (s : State) (c d a : Nat) : List (Nat × Nat) → State × Got (List (Nat × Nat × Nat × Bool))
  | [] => (s, .got [])
  | (p, n) :: ps =>
    match s.readBytes c true (a + (p - d)) n with
    | (s, .got (v, psn)) =>
      (match s.copyReads c d a ps with
        | (s, .got l) => (s, .got ((p, n, v, psn) :: l))
        | r => r)
    | (s, .wait) => (s, .wait)
    | (s, .fault cause addr) => (s, .fault cause addr)
    | (s, .poison addr) => (s, .poison addr)

/-- Pieces written at home; `gp`: all of them poisoned. -/
def State.copyWrites (s : State) (c ctx : Nat) (gp : Bool) : List (Nat × Nat × Nat × Bool) → State × Got Unit
  | [] => (s, .got ())
  | (p, n, v, psn) :: ps =>
    match s.writeVia c ctx true p n v (psn || gp) with
    | (s, .got _) => s.copyWrites c ctx gp ps
    | r => r

/-- The translations of every page of a range; none: no fault. -/
def State.pagesFault (s : State) (c : Nat) (u : Use) (a : Nat) : Nat → Nat → State × Option (Nat × Nat)
  | 0, _ => (s, none)
  | fuel + 1, n =>
    if n = 0 then (s, none)
    else if 2 ^ 52 ≤ a then (s, some (0x07, a))
    else
      match s.translate c a u with
      | (s, .fault cause _) => (s, some (cause, a))
      | (s, .leaf _) =>
        let step := min n (65536 - a % 65536)
        s.pagesFault c u (a + step) fuel (n - step)

/-- A row of a QCOPY (18 R471): reads, then writes; a fault leaves the row unwritten. -/
def State.qcopyRow (s : State) (c : Nat) (q : QCmd) (d a n : Nat) : State :=
  if n ≤ q.prog then s.qDone c q
  else
    let at' := d + q.prog
    let len := min (n - q.prog) (256 - at' % 256)
    match s.copyReads c at' (a + q.prog) (wordPieces at' len) with
    | (s, .got l) =>
      (match s.copyWrites c q.ctx q.psn l with
        | (s, .got _) =>
          let q := { q with prog := q.prog + len }
          let s := s.updCore c fun k => k.updQ q.id fun _ => q
          if n ≤ q.prog then s.qDone c q else s.postOpen 1 (.copyCompletion c q.id)
        | (s, .fault cause addr) => s.qFault c q 15 cause addr
        | (s, .wait) => s
        | (s, .poison _) => s)
    | (s, .fault cause addr) => s.qFault c q 15 cause addr
    | (s, .wait) => s
    | (s, .poison _) => s

/-- Whether commands of a context before one have accesses that are not complete: a release by an engine command waits for them (11 R273, R277). -/
def State.earlierPending (s : State) (c n id : Nat) : Bool :=
  match s.core? c with
  | none => false
  | some k => (k.pendingOn n 63).any fun i => decide (i < id)

/-- A QCCOPY (18 R472): all of it or nothing, at one moment. Its version word is written as if by a STREL, that is after its context's earlier commands and the
release half at module scope (11 R277, R278). -/
def State.qccopyNow (s : State) (c : Nat) (q : QCmd) (d a : Nat) (v : Word64) : State :=
  let n := bitsOf v 32 16
  match s.pagesFault c .read a 2 n with
  | (s, some f) => s.qFault c q 15 f.1 f.2
  | (s, none) =>
    match s.pagesFault c .write d 2 (n + 4) with
    | (s, some f) => s.qFault c q 15 f.1 f.2
    | (s, none) =>
      match s.copyReads c (d + 4) a (wordPieces (d + 4) n) with
      | (s, .got l) =>
        (match s.readVia c true d 4 with
          | (s, .got (e, _)) =>
            if e = bitsOf v 0 32 then
              if s.earlierPending c q.ctx q.id then s
              else
              -- a write of the data may change what translates those after it: then nothing is written
              (match s.copyWrites c q.ctx q.psn l with
                | (t, .got _) =>
                  (match t.translate c d .write with
                    | (t, .leaf f) => ((((t.releaseNow c 4).evictWords c d 4 f).writeVia c q.ctx true d 4 ((e + 1) % 2 ^ 32) q.psn).1).qDone c q
                    | (_, .fault cause _) => s.qFault c q 15 cause d)
                | (_, .fault cause addr) => s.qFault c q 15 cause addr
                | (_, _) => s)
            else (((s.updCore c fun k => k.dropQ q.id).postErr c q.sync).afterCommand c)
          | (s, .fault cause addr) => s.qFault c q 15 cause addr
          | (s, _) => s)
      | (s, .fault cause addr) => s.qFault c q 15 cause addr
      | (s, _) => s

/-- COPY_COMPLETION: a row of a QCOPY, a QCCOPY as a whole (18 R471 to R475). -/
def execCopyCompletion (s : State) : Host.Outcome State Fault Refusal :=
  match s.ev with
  | .copyCompletion c id =>
    .next (match (s.core? c).bind fun k => k.qcmd id with
      | none => s
      | some q =>
        if !q.started || q.faulted then s
        else
          match q.kind with
          | .qcopy d a n => s.qcopyRow c q d.toNat a.toNat n.toNat
          | .qccopy d a v => s.qccopyNow c q d.toNat a.toNat v
          | .qrcopy _ _ _ => s.postOnce 0 (.flowRowSend c id)
          | .qset _ _ | .strm _ _ _ | .gcfg _ _ _ | .grun _ _ _ | .qsave _ | .stash _ _ _ => s)
  | _ => .next s

/-! ## Stash commands (10 R243, R244) -/

/-- The next row of a stash command. -/
def State.stashRow (s : State) (c : Nat) (q : QCmd) (op a n : Nat) : State :=
  let next := fun (s : State) (ids : List Nat) =>
    (s.updCore c fun k => k.updQ q.id fun q => { q with prog := q.prog + 1, wbs := q.wbs ++ ids }).postOnce 1 (.stashCommandCompletion c q.id)
  let rows := if n = 0 then 0 else (a + n - 1) / 256 - a / 256 + 1
  if rows ≤ q.prog then
    -- SWB waits for its write-backs: (quarter, number) packed as 512 × number + quarter
    if q.wbs.all fun w => s.wbDone (w % 512, w / 512) then s.qDone c q else s
  else
    let block := a / 256 + q.prog
    let va := max a (block * 256)
    match s.translate c va .read with
    | (s, .fault cause _) => s.qFault c q 15 cause va
    | (s, .leaf l) =>
      let t := quarterOf c (block * 256) l.cc
      let l := { l with pa := l.pa / 256 * 256 }
      let here := (s.core? t).bind fun k => k.stash.find block
      match op with
      | 0 =>
        (match s.ensureRow t block l with
          | (s, .full) => s.qFault c q 15 0x0A va
          | (s, .busy) => s
          | (s, .row r) =>
            let s := s.updCore t fun k =>
              match Tab.get none k.stash.rows r with
              | none => k
              | some w => { k with stash := k.stash.set r { w with pin := true } }
            match (s.core? t).bind fun k => Tab.get none k.stash.rows r with
            | none => s
            | some w => if w.v = BitVec.allOnes 256 then next s [] else s.requestFill t block l)
      | 1 =>
        -- the parked rows of the quarter's tile are tried again once a row is free of its pin (08 R207)
        let s := (s.postOnce 0 (.parkedRowRetry c)).postOnce 0 (.parkedRowRetry t)
        (match here with
          | none => next s []
          | some (r, w) => next (s.updCore t fun k => { k with stash := (k.stash.set r { w with pin := false }).tidy r }) [])
      | 2 =>
        (match here with
          | none => next s []
          | some (r, w) =>
            match s.core? t with
            | none => s
            | some k =>
              if w.d = 0 then next s ((k.stash.wbs.filter fun b => b.pa = w.frame).map fun b => 512 * b.id + t)
              else if 16 ≤ k.stash.wbs.length then s
              else next (s.writeBackRow t r) [512 * k.stash.nextWb + t])
      | _ =>
        (match here with
          | none => next s []
          | some (r, _) => next (s.dropWords t r (List.range 64)) [])

/-- STASH_COMMAND_COMPLETION: a row of a stash command, and its end. -/
def execStashCommandCompletion (s : State) : Host.Outcome State Fault Refusal :=
  match s.ev with
  | .stashCommandCompletion c id =>
    .next (match (s.core? c).bind fun k => k.qcmd id with
      | none => s
      | some q =>
        if !q.started || q.faulted then s
        else
          match q.kind with
          | .stash op a n => s.stashRow c q op a.toNat n.toNat
          | .qset _ _ | .strm _ _ _ | .qcopy _ _ _ | .qccopy _ _ _ | .qrcopy _ _ _ | .gcfg _ _ _ | .grun _ _ _ | .qsave _ => s)
  | _ => .next s

end Sys2Proof.Machine
end

