-- ==== Sys2Proof/Machine/SpecialRegs.lean ====
section
/-! DEFINITION. The special registers (04 R86 to R88 and the chapters' tables), MFSR and MTSR (17 R435 to R438). A write with a side effect of its
own becomes an event of the same cycle. -/

namespace Sys2Proof.Machine

/-- How a special register may be accessed (00 R5, 04 R87). -/
inductive SrKind where
  /-- no table assigns it -/
  | none
  /-- no field is PRW -/
  | free
  /-- a field is PRW -/
  | prw
  /-- every field that a write can change is WO -/
  | wo
deriving DecidableEq, Repr

/-- The kind of a special register number. -/
def srKind (n : Nat) : SrKind :=
  if n = 0x00A then .prw
  else if n ≤ 0x00E then .free
  else if n < 0x010 then .none
  else if n ≤ 0x015 then .prw
  else if n < 0x018 then .none
  else if n ≤ 0x01A then .prw
  else if n = 0x01B then .none
  else if n ≤ 0x01E then .prw
  else if n = 0x01F then .none
  else if n ≤ 0x021 then .prw
  else if n < 0x040 then .none
  else if n ≤ 0x041 then .prw
  else if n < 0x044 then .none
  else if n ≤ 0x045 then .free
  else if n < 0x050 then .none
  else if n ≤ 0x06F then .prw
  else if n < 0x080 then .none
  else if n ≤ 0x083 then .prw
  else if n ≤ 0x085 then .free
  else if n ≤ 0x088 then .prw
  else if n = 0x089 then .free
  else if n < 0x0C0 then .none
  else if n ≤ 0x0C1 then .prw
  else if n = 0x0C2 then .wo
  else if n = 0x0C3 then .none
  else if n ≤ 0x0C6 then .free
  else if n = 0x0C7 then .none
  else if n ≤ 0x0D9 then .prw
  else if n < 0x100 then .none
  else if n ≤ 0x101 then .free
  else if n < 0x140 then .none
  else if n = 0x140 then .prw
  else if n ≤ 0x148 then .free
  else if n < 0x150 then .none
  else if n ≤ 0x151 then .prw
  else if n < 0x180 then .none
  else if n ≤ 0x1A3 then .free
  else if n < 0x1C0 then .none
  else if n ≤ 0x1C4 then .free
  else if n = 0x1C5 then .prw
  else .none

/-- A field of a register: a number placed at a bit. -/
def fieldAt (lo : Nat) (v : Nat) : Nat := v * 2 ^ lo

/-! ## What the registers read as -/

/-- DEVID (04 Table 11). -/
def Fuses.devid (f : Fuses) : Nat :=
  f.cdstep.toNat + fieldAt 8 f.hbstep.toNat + fieldAt 16 5 + fieldAt 20 f.gfwmaj.toNat + fieldAt 28 0xD9E1
/-- MODINV (01 Table 5). -/
def Fuses.modinv (f : Fuses) : Nat :=
  f.cld0.toNat + fieldAt 7 f.cld1.toNat + fieldAt 14 f.hcd0.toNat + fieldAt 22 f.hcd1.toNat + fieldAt 30 f.lpen.toNat
/-- SKIP0 to SKIP3: rows 0 to 11 of a die in one, rows 12 to 15 in the next (14 R325). -/
def Fuses.skipReg (f : Fuses) (i : Nat) : Nat :=
  let first := if i % 2 = 0 then 0 else 12
  let count := if i % 2 = 0 then 12 else 4
  (List.range count).foldl (fun n r => n + fieldAt (5 * r) (Tab.get 0 f.skip (16 * (i / 2) + first + r)).toNat) 0
/-- Whether a cluster is enabled: the first CLD0 of die 0 and the first CLD1 of die 1 are (01 R17). -/
def Fuses.enabled (f : Fuses) (cl : Nat) : Bool :=
  if cl < 64 then decide (cl < f.cld0.toNat) else decide (cl < 128) && decide (cl - 64 < f.cld1.toNat)
/-- The number of rows of a quarter that are usable at a point (10 R253). -/
def Fuses.usableRows (f : Fuses) (q pt : Nat) : Nat :=
  let m := Tab.get 0 f.fenRows (8 * q + pt)
  if m = 0 then 8192 else 8192 - ((List.range 8192).filter fun r => m.getLsbD r).length
/-- FENDATA for a FENSEL (10 R251). The tiles of a disabled cluster are taken as outside the enabled mesh (DESIGN CHOICE, log entry 112). -/
def Fuses.fendata (f : Fuses) (sel : Word64) : Nat :=
  let idx := bitsOf sel 1 9
  let pt := bitsOf sel 10 3
  let word := bitsOf sel 13 7
  if 4 < pt then 0
  else if sel.getLsbD 0 then
    (if 191 < idx || word ≠ 0 then 0 else 0xFFFF - (Tab.get 0 f.fenWays (8 * idx + pt)).toNat)
  else if !Fuses.enabled f (clusterOf idx) then 0
  else (2 ^ 64 - 1) - bitsOf (Tab.get 0 f.fenRows (8 * idx + pt)) (64 * word) 64

/-- OPREQ (14 Table 2). -/
def Module.opreq (m : Module) : Nat := m.opTgt + fieldAt 4 (bitN m.opRej) + fieldAt 5 m.opWhy
/-- RSPSTAT (12 Table 10). -/
def Module.rspstat (m : Module) : Nat :=
  m.spared.toNat + fieldAt 16 m.restart.toNat + fieldAt 32 m.retired.toNat + fieldAt 48 (bitN m.sparing.isSome)

/-- STSTAT (10 Table 2). -/
def Core.ststat (k : Core) (f : Fuses) : Nat :=
  let rows := k.stash.rows.filterMap (·.2)
  (rows.filter fun r => r.v ≠ 0).length + fieldAt 14 (rows.filter (·.pin)).length + fieldAt 28 (Fuses.usableRows f k.id k.stash.limpt)
    + fieldAt 42 k.stash.limpt + fieldAt 45 k.stash.fulls.toNat

/-- TSTAT (12 Table 2). -/
def State.tstat (s : State) (c n : Nat) (x : Ctx) : Nat :=
  let held := x.pend.any || (s.isControl c n && (match s.part? (s.partOf c) with | none => false | some p => !p.notices.isEmpty))
  bitN x.sr.tmode + 2 * bitN x.sr.nest + 4 * bitN held

/-- SEMVAL (12 Table 4). -/
def Sem.semval (m : Sem) : Nat := m.val.toNat + fieldAt 16 (bitN m.ovf) + fieldAt 17 (bitN m.err)

/-- The kind of a channel entry: 0 empty, 1 send, 2 receive, 3 ring (09 Table 1). -/
def Chan.kind (h : Chan) : Nat := bitsOf h.entry 0 2

/-- CHINFO (09 Table 3). -/
def chinfo (h : Option Chan) : Nat :=
  match h with
  | none => 0
  | some h =>
    match h.kind with
    | 0 => 0
    | 1 => 1 + fieldAt 11 (h.cred % 512) + fieldAt 20 (h.sent % 65536)
    | 2 => 1 + fieldAt 20 (h.next % 65536)
    | _ => h.rst + fieldAt 3 (h.inst % 256)

/-- LPSTAT (09 Table 4). -/
def State.lpstat (s : State) (n : Nat) : Nat :=
  match s.port? n with
  | none => 0
  | some p =>
    bitN (s.module.fuses.lpen.getLsbD n) + 2 * bitN p.up + fieldAt 2 p.lanes.toNat + fieldAt 6 (bitN p.tsync) + fieldAt 7 p.stale.toNat
      + fieldAt 23 p.retrain.toNat + fieldAt 39 p.bpart.toNat

/-- TIMEST (09 R233): the dies share one TIME, so they are aligned. -/
def State.timest (s : State) : Nat :=
  1 + 2 * bitN ((List.range 18).any fun n => match s.port? n with | none => false | some p => p.up && p.tsync)
    + fieldAt 2 (Config.timeOffs s.ticks).toNat

/-- A value of the registers of the partition of a core; zero where no partition has it. -/
def State.ofPart (s : State) (c : Nat) (f : Part → Nat) : Nat :=
  match s.part? (s.partOf c) with
  | none => 0
  | some p => f p
/-- A value of the router of a core's tile. -/
def State.ofRouter (s : State) (c : Nat) (f : Router → Nat) : Nat :=
  match s.router? c with
  | none => 0
  | some r => f r

/-- KEYSTAT (13 Table 4). -/
def Part.keystat (p : Part) : Nat :=
  (List.range 8).foldl (fun n e => n + fieldAt e (bitN (Tab.get none p.keys e).isSome)) 0
/-- SECSTAT (13 Table 4). -/
def Part.secstat (p : Part) : Nat :=
  p.seccnt.toNat + fieldAt 8 p.entry.seclim.toNat + fieldAt 16 (bitN p.fenced) + fieldAt 17 p.tdist.toNat

/-- Whether the running GRUN's binding word names a stream register (07 Table 7). -/
def Grid.binds (g : Grid) (q : Nat) : Bool :=
  match g.run with
  | none => false
  | some r => (List.range 6).any fun i => r.bind.getLsbD (5 * i + 4) && bitsOf r.bind (5 * i) 4 == q

/-- QSTAT (07 Table 9). -/
def Core.qstat (k : Core) (q : Nat) : Nat :=
  let r := k.sreg q
  r.st + fieldAt 3 (r.owner % 4) + fieldAt 5 (bitN (match r.strm with | none => false | some t => t.store)) + fieldAt 6 (bitN (k.grid.binds q))
    + fieldAt 7 r.fcause.toNat
/-- QREM (07 Table 10). -/
def Core.qrem (k : Core) (q : Nat) : Nat :=
  match (k.sreg q).strm with
  | none => 0
  | some t => (t.total - t.done) % 2 ^ 48

/-- GRSTAT (07 Table 5). -/
def Grid.grstat (g : Grid) : Nat :=
  g.st + fieldAt 3 (bitN g.held) + fieldAt 4 (bitN g.cfgerr) + fieldAt 5 (g.eelem % 32) + fieldAt 10 (g.ebun % 16) + fieldAt 14 (g.eslot % 2)
    + fieldAt 15 (g.iim1 % 16)

/-- MXSTAT (06 Table 5). -/
def Matrix.mxstat (m : Matrix) : Nat :=
  m.queue.length % 32 + fieldAt 5 (bitN (m.run.any fun o => MKind.onArray o.kind && decide (o.step < o.steps))) + fieldAt 6 (bitN m.live.isEmpty)

/-- LOOPC0 to LOOPC2 or LOOPB0 to LOOPB2 as a context shows them (03 R72): outside a routine the nest that is open; in a routine, where the nest that the
trap moved there waits for ERET, and where no level is open, what the registers hold (DEDUCED, log entry 97). -/
def Ctx.loopRegs (x : Ctx) (f : LoopLevel → Word64) (held : Tab Word64) : Tab Word64 :=
  if x.sr.tmode || x.loops.isEmpty then held else nestRegs f x.loops

/-- The value of a special register, as the context at hand reads it; every WO and reserved field is zero. -/
def State.readSr (s : State) (k : Core) (n : Nat) (x : Ctx) (r : Nat) : Word64 :=
  let c := k.id
  let w := fun (v : Nat) => BitVec.ofNat 64 v
  match r with
  | 0x000 => w (Fuses.devid s.module.fuses)
  | 0x001 => w (Fuses.modinv s.module.fuses)
  | 0x002 => w c
  | 0x003 => w (clusterOf c)
  | 0x004 => w (s.ofPart c fun p => s.partOf c % 8 + 8 * bitN p.entry.mgmt + 16 * bitN s.module.cmode)
  | 0x005 => x.sr.taskid
  | 0x006 => w n
  | 0x007 => k.lpos
  | 0x008 => w s.ticks
  | 0x009 => w (s.module.pt + 8 * bitN s.module.opStep)
  | 0x00A => w s.module.opreq
  | 0x00B => w (Fuses.skipReg s.module.fuses 0)
  | 0x00C => w (Fuses.skipReg s.module.fuses 1)
  | 0x00D => w (Fuses.skipReg s.module.fuses 2)
  | 0x00E => w (Fuses.skipReg s.module.fuses 3)
  | 0x010 => x.sr.trappc
  | 0x011 => x.sr.trapcause
  | 0x012 => x.sr.trapinfo
  | 0x013 => x.sr.brpend
  | 0x014 => x.sr.tvec
  | 0x015 => x.sr.tscratch
  | 0x018 => Tab.get 0 (x.loopRegs LoopLevel.loopc x.sr.loopc) 0
  | 0x019 => Tab.get 0 (x.loopRegs LoopLevel.loopc x.sr.loopc) 1
  | 0x01A => Tab.get 0 (x.loopRegs LoopLevel.loopc x.sr.loopc) 2
  | 0x01C => Tab.get 0 (x.loopRegs LoopLevel.loopb x.sr.loopb) 0
  | 0x01D => Tab.get 0 (x.loopRegs LoopLevel.loopb x.sr.loopb) 1
  | 0x01E => Tab.get 0 (x.loopRegs LoopLevel.loopb x.sr.loopb) 2
  | 0x020 => w (s.ofPart c fun p => p.qtbase.toNat)
  | 0x021 => w (s.ofPart c fun p => p.schedcfg.toNat)
  | 0x040 => w (k.ststat s.module.fuses)
  | 0x041 => w (s.ofPart c fun p => p.ptbase.toNat)
  | 0x044 => x.sr.fensel
  | 0x045 => w (Fuses.fendata s.module.fuses x.sr.fensel)
  | 0x080 => w (s.tstat c n x)
  | 0x081 => w (s.ofPart c fun p => p.ptvec.toNat)
  | 0x082 => w (s.ofPart c fun p => p.prectlCluster.toNat + fieldAt 8 (bitN p.prectlBusy) + fieldAt 9 (bitN p.prectlRej))
  | 0x083 => w (s.ofPart c fun p => p.wdcfg.toNat)
  | 0x084 => x.sr.semsel
  | 0x085 => w (k.sem (bitsOf x.sr.semsel 0 8)).semval
  | 0x086 => w (s.ofPart c fun p => p.notices.length + fieldAt 6 p.ndrop.toNat)
  | 0x087 => k.silcnt
  | 0x088 => w s.module.rspThr.toNat
  | 0x089 => w s.module.rspstat
  | 0x0C0 => w (s.ofPart c fun p => p.ringbase.toNat)
  | 0x0C1 => w (s.ofPart c fun p => p.rngcfg.toNat)
  | 0x0C2 => w (s.ofPart c fun p => fieldAt 16 p.commits.toNat + fieldAt 32 p.badRings.toNat)
  | 0x0C4 => w s.timest
  | 0x0C5 => x.sr.chsel
  | 0x0C6 => w (chinfo (Tab.get none k.chans (bitsOf x.sr.chsel 0 6)))
  | 0x100 => w (s.ofPart c Part.keystat)
  | 0x101 => w (s.ofPart c Part.secstat)
  | 0x140 => w (s.ofRouter c fun r => r.flog.length + fieldAt 4 (bitN r.flogOvf) + fieldAt 5 r.drops.toNat)
  | 0x150 => w (s.ofRouter c fun r => r.fq.length + fieldAt 6 (bitN (r.fq.length == 32)) + fieldAt 7 r.lost.toNat)
  | 0x151 => w (s.ofRouter c fun r => r.limit.toNat)
  | 0x1A0 => w k.grid.grstat
  | 0x1A1 => k.grid.turns.zeroExtend 64
  | 0x1A2 => x.sr.gridsel
  | 0x1A3 => if bitsOf x.sr.gridsel 0 8 < k.gridCnt then Tab.get 0 k.gridVa (bitsOf x.sr.gridsel 0 8) else 0
  | 0x1C0 => k.mx.cfg
  | 0x1C1 => k.mx.fmt
  | 0x1C2 => k.mx.bfc
  | 0x1C3 => k.mx.rseq
  | 0x1C4 => w k.mx.mxstat
  | 0x1C5 => k.mx.err
  | r =>
    if 0x050 ≤ r && r ≤ 0x06F then
      w (s.ofPart c fun p => (Tab.get 0 (if r % 2 = 0 then p.crbase else p.crctl) ((r - 0x050) / 2)).toNat
        + (if r % 2 = 1 then fieldAt 45 (bitN (p.crrej.getLsbD ((r - 0x050) / 2))) else 0))
    else if 0x0C8 ≤ r && r ≤ 0x0D9 then w (s.lpstat (r - 0x0C8))
    else if 0x141 ≤ r && r ≤ 0x148 then w (s.ofRouter c fun t => (t.flog.getD (r - 0x141) 0).toNat)
    else if 0x180 ≤ r && r ≤ 0x18F then w (k.qstat (r - 0x180))
    else if 0x190 ≤ r && r ≤ 0x19F then w (k.qrem (r - 0x190))
    else 0

/-! ## What a write does -/

/-- Bits `lo` to `lo + len - 1` kept, the others zero. -/
def keepBits (v : Word64) (lo len : Nat) : Word64 := BitVec.ofNat 64 (fieldAt lo (bitsOf v lo len))

/-- A trap vector with its reserved bits zero. -/
def tvecMask (v : Word64) : Word64 := keepBits v 0 1 ||| keepBits v 2 50

/-- The special registers of a context after a write. -/
def CtxRegs.write (sr : CtxRegs) (r : Nat) (v : Word64) : CtxRegs :=
  match r with
  | 0x010 => { sr with trappc := keepBits v 2 50 }
  | 0x011 => { sr with trapcause := keepBits v 0 9 }
  | 0x012 => { sr with trapinfo := v }
  | 0x013 => { sr with brpend := keepBits v 0 53 ||| keepBits v 63 1 }
  | 0x014 => { sr with tvec := tvecMask v }
  | 0x015 => { sr with tscratch := v }
  | 0x018 => { sr with loopc := Tab.set 0 sr.loopc 0 (keepBits v 0 42) }
  | 0x019 => { sr with loopc := Tab.set 0 sr.loopc 1 (keepBits v 0 42) }
  | 0x01A => { sr with loopc := Tab.set 0 sr.loopc 2 (keepBits v 0 42) }
  | 0x01C => { sr with loopb := Tab.set 0 sr.loopb 0 (keepBits v 2 50) }
  | 0x01D => { sr with loopb := Tab.set 0 sr.loopb 1 (keepBits v 2 50) }
  | 0x01E => { sr with loopb := Tab.set 0 sr.loopb 2 (keepBits v 2 50) }
  | 0x044 => { sr with fensel := keepBits v 0 20 }
  | 0x080 => { sr with nest := v.getLsbD 1 }
  | 0x084 => { sr with semsel := keepBits v 0 8 }
  | 0x0C5 => { sr with chsel := keepBits v 0 6 }
  | 0x1A2 => { sr with gridsel := keepBits v 0 8 }
  | _ => sr

/-- SCHEDCFG after a write: a QUANTUM of 0 leaves the field unchanged (02 R34). -/
def schedcfgWrite (old v : Word64) : Word64 := keepBits (if bitsOf v 0 5 = 0 then setBits v 0 5 (bitsOf old 0 5) else v) 0 13

/-- The access counters of a range start at 0 in every slice (10 R247). -/
def State.clearCounters (s : State) (p k : Nat) : State :=
  { s with slices := s.slices.map fun kv => (kv.1, kv.2.map fun sl => { sl with counters := Tab.set 0 sl.counters (16 * p + k) 0 }) }

/-- The registers of a partition after a write. -/
def Part.write (p : Part) (r : Nat) (v : Word64) : Part :=
  match r with
  | 0x020 => { p with qtbase := keepBits v 12 40 }
  | 0x021 => { p with schedcfg := schedcfgWrite p.schedcfg v }
  | 0x041 => { p with ptbase := keepBits v 13 33 }
  | 0x081 => { p with ptvec := tvecMask v }
  | 0x082 => { p with prectlCluster := BitVec.ofNat 7 (bitsOf v 0 7) }
  | 0x083 => { p with wdcfg := keepBits v 0 32 }
  | 0x0C0 => { p with ringbase := keepBits v 8 56 }
  | 0x0C1 => { p with rngcfg := keepBits v 0 32 }
  | _ => p

/-- The no-progress timers that run are judged by the new WDLIM (12 R291). -/
def State.rearm (s : State) (p : Nat) : State :=
  let lim := s.ofPart (s.cur) fun q => bitsOf q.wdcfg 0 16
  if lim = 0 then s
  else
    s.forEach s.cores fun s kv =>
      if s.partOf kv.1 ≠ p then s
      else
        s.forEach (List.range 4) fun s n =>
          match (s.ctx? kv.1 n).bind (·.timer) with
          | none => s
          | some t => s.post (s.cyclesOf (t + lim * 1000000 - s.ticks)) (.watchdog kv.1 n)

/-- The pre-emption limit of a partition in nanoseconds (12 Table 5). -/
def Part.prelim (p : Part) : Nat := max 1 (bitsOf p.wdcfg 16 16) * 100000

/-- The pre-emptions under way in a partition are judged by the new PRELIM, from their acceptance on (12 R298: the register as it stands; DEDUCED, log entry
104). -/
def State.reprelim (s : State) (p : Nat) : State :=
  match s.part? p with
  | none => s
  | some x =>
    s.forEach s.launches fun s kv =>
      match kv.2 with
      | none => s
      | some q =>
        match q.preempt with
        | none => s
        | some t => if q.part ≠ p then s else s.postOnce (s.cyclesOf (t + x.prelim - s.ticks)) (.preemptLimitExpiry kv.1)

/-- The free clusters of a partition that have power are judged by its new GATEDLY (02 R38). -/
def State.regate (s : State) (p : Nat) : State :=
  let delay := match s.part? p with | none => 0 | some x => bitsOf x.schedcfg 5 8 * 10000
  if delay = 0 then s
  else
    s.forEach s.clusters fun s kv =>
      match kv.2 with
      | none => s
      | some x =>
        if x.gated || x.launch.isSome || s.partOfCluster kv.1 != some p then s
        else s.postOnce (s.cyclesOf (x.freeSince + delay - s.ticks)) (.clusterPowerGate kv.1)

/-- A write to a special register by a context of the core at hand. -/
def State.writeSr (s : State) (c n r : Nat) (v : Word64) : State :=
  let p := s.partOf c
  match r with
  | 0x00A =>
    let s := if (s.part? p).any fun q => q.entry.mgmt then { s with module := { s.module with opTgt := bitsOf v 0 3 } } else s
    if v.getLsbD 3 then s.post 0 (.opreqGo (some p) v) else s
  | 0x021 => (s.updPart p fun q => q.write r v).regate p
  | 0x040 => s.post 0 (.ststatWrite c v)
  | 0x082 =>
    if v.getLsbD 7 then s.post 0 (.prectlGo p v) else s.updPart p fun q => q.write r v
  | 0x083 => ((s.updPart p fun q => q.write r v).rearm p).reprelim p
  | 0x086 => s.post 0 (.notstatWrite p v)
  | 0x087 => s.post 0 (.silcntWrite c v)
  | 0x088 => { s with module := { s.module with rspThr := BitVec.ofNat 8 (bitsOf v 0 8) } }
  | 0x0C2 => if bitsOf v 0 16 = 0 then s else s.post 0 (.ringCommit p (BitVec.ofNat 16 (bitsOf v 0 16)))
  | 0x140 => s.post 0 (.flogstWrite c v)
  | 0x150 => s.post 0 (.fqstatWrite c v)
  | 0x151 => (s.updRouter c fun t => { t with limit := BitVec.ofNat 16 (bitsOf v 0 16) }).post 0 (.flowRowLost c)
  | 0x1C3 => s.updCore c fun k => { k with mx := { k.mx with rseq := keepBits v 0 52 } }
  | 0x1C5 => s.updCore c fun k => { k with mx := { k.mx with err := keepBits v 0 32 } }
  | r =>
    if 0x050 ≤ r && r ≤ 0x06F then
      let k := (r - 0x050) / 2
      if r % 2 = 1 then s.post 0 (.crctlWrite p k v)
      else (s.updPart p fun q => { q with crbase := Tab.set 0 q.crbase k (keepBits v 16 36) }).clearCounters p k
    else if 0x0C8 ≤ r && r ≤ 0x0D9 then s.post 0 (.lpstatWrite (r - 0x0C8) v)
    else (s.updPart p fun q => q.write r v).updCtx c n fun x => { x with sr := x.sr.write r v }

/-- The checks of MFSR and MTSR that come before the guard: an unassigned number, a write to a WO register outside privileged code. -/
def srIllegal (kind : SrKind) (write priv : Bool) : Bool := kind == .none || (kind == .wo && write && !priv)

/-- MFSR (17 R436): the value is available after 2 cycles and carries no poison. -/
def execMfsr (o : OpS) (s : State) : Host.Outcome State Fault Refusal :=
  slotOp s fun k n x =>
    let s := s.mxSettle s.cur
    let k := (s.core? s.cur).getD k
    let kind := srKind o.srn.toNat
    (if srIllegal kind false (s.privileged s.cur n) then .trap s 0x01 (illegalInfo 0 0x10 true)
     else if !Guard.ok o.g .pk s.bun.old then .ok s s
     else if kind == .prw && !s.privileged s.cur n then .trap s 0x03 (privInfo 0 0x10 o.srn.toNat)
     else
       let s := s.writeC o.r ⟨s.readSr k n x o.srn.toNat, Guard.psn o.g .pk s.bun.old⟩ 2
       .ok s s : Try State).finish

/-- MTSR (17 R436, R437). -/
def execMtsr (o : OpS) (s : State) : Host.Outcome State Fault Refusal :=
  slotOp s fun _ n _ =>
    let kind := srKind o.srn.toNat
    let v := s.bun.old.getC o.r.toNat
    (if srIllegal kind true (s.privileged s.cur n) then .trap s 0x01 (illegalInfo 0 0x11 true)
     else if !Guard.ok o.g .pk s.bun.old then .ok s s
     else if kind == .prw && !s.privileged s.cur n then .trap s 0x03 (privInfo 0 0x11 o.srn.toNat)
     else if v.p then .kill s 1 0
     else
       let s := s.writeSr s.cur n o.srn.toNat v.v
       .ok s s : Try State).finish

/-! ## The writes with effects of their own -/

/-- STSTAT_WRITE: any write clears FULLS (10 R245). -/
def execStstatWrite (s : State) : Host.Outcome State Fault Refusal :=
  match s.ev with
  | .ststatWrite c _ => .next (s.updCore c fun k => { k with stash := { k.stash with fulls := 0 } })
  | _ => .next s

/-- FLOGST_WRITE: the log is cleared; OVF and DROPS take the bits written (08 R204, 17 R436). -/
def execFlogstWrite (s : State) : Host.Outcome State Fault Refusal :=
  match s.ev with
  | .flogstWrite c v =>
    .next (s.updRouter c fun r => { r with flog := [], flogOvf := v.getLsbD 4, drops := BitVec.ofNat 16 (bitsOf v 5 16) })
  | _ => .next s

/-- FQSTAT_WRITE: any write clears LOST (08 Table 10). -/
def execFqstatWrite (s : State) : Host.Outcome State Fault Refusal :=
  match s.ev with
  | .fqstatWrite c _ => .next (s.updRouter c fun r => { r with lost := 0 })
  | _ => .next s

/-- LPSTAT_WRITE: any write clears STALE; BPART takes the bits written (09 Table 4). -/
def execLpstatWrite (s : State) : Host.Outcome State Fault Refusal :=
  match s.ev with
  | .lpstatWrite n v => .next (s.updPort n fun p => { p with stale := 0, bpart := BitVec.ofNat 3 (bitsOf v 39 3) })
  | _ => .next s

/-- NOTSTAT_WRITE: any write clears DROP (12 Table 3). -/
def execNotstatWrite (s : State) : Host.Outcome State Fault Refusal :=
  match s.ev with
  | .notstatWrite p _ => .next (s.updPart p fun q => { q with ndrop := 0 })
  | _ => .next s

/-- SILCNT_WRITE: any write clears the register (12 Table 9). -/
def execSilcntWrite (s : State) : Host.Outcome State Fault Refusal :=
  match s.ev with
  | .silcntWrite c _ => .next (s.updCore c fun k => { k with silcnt := 0 })
  | _ => .next s

/-- The smallest number of ways usable at LIMPT in the slices that a partition uses (10 R248): its own in private mode, all in shared mode. -/
def State.waysU (s : State) (p : Nat) : Nat :=
  let own := fun (n : Nat) =>
    !s.module.cmode || (match s.part? p with | none => false | some q => q.entry.crpair.getLsbD n)
  (List.range 192).foldl (fun u n =>
    match s.slice? n with
    | none => u
    | some sl =>
      if own n then min u (16 - ((List.range 16).filter fun w => (Tab.get 0 s.module.fuses.fenWays (8 * n + sl.limpt)).getLsbD w).length) else u) 16

/-- The ways that a partition's enabled ranges reserve. -/
def Part.reserved (p : Part) : Nat :=
  (List.range 16).foldl (fun n k =>
    let c := Tab.get 0 p.crctl k
    if c.getLsbD 44 then n + bitsOf c 36 4 else n) 0

/-- The sum that R248 bounds for a partition: its own ranges in private mode, every partition's in shared mode. -/
def State.reservedSum (s : State) (p : Nat) : Nat :=
  if s.module.cmode then (match s.part? p with | none => 0 | some q => q.reserved)
  else s.parts.foldl (fun n kv => match kv.2 with | none => n | some q => n + q.reserved) 0

/-- CRCTL_WRITE: refused where the reservations would break R248: the register keeps its value and REJ is set (10 R247, R248). -/
def execCrctlWrite (s : State) : Host.Outcome State Fault Refusal :=
  match s.ev with
  | .crctlWrite p k v =>
    let t := (s.updPart p fun q => { q with crctl := Tab.set 0 q.crctl k (keepBits v 0 45), crrej := setBits q.crrej k 1 0 }).clearCounters p k
    if t.reservedSum p + 4 ≤ t.waysU p then .next t
    else .next (s.updPart p fun q => { q with crrej := setBits q.crrej k 1 1 })
  | _ => .next s

end Sys2Proof.Machine
end

