-- ==== Sys2Proof/Machine/Flows.lean ====
section
/-! DEFINITION. Flows (08): matching, the actions of flow entries, combine groups, endpoints, drops, parked rows, acknowledgements, and the rows that
QRCOPY sends. -/

namespace Sys2Proof.Machine

/-! ## Fields of entries and descriptors (08 Tables 3 and 6) -/

/-- ACT: 0 forward, 1 combine, 2 hold, 3 scan, 4 transpose, 5 normalise. -/
def Rec128.act (e : Rec128) : Nat := bitsOf e 16 3
/-- Whether an entry's contributions join a combine group. -/
def Rec128.groups (e : Rec128) : Bool := [1, 2, 3, 5].contains (Rec128.act e)
/-- The ports 0 to 3 of OUTM. -/
def Rec128.ports (e : Rec128) : List Nat := (List.range 4).filter fun i => e.getLsbD (22 + i)
/-- The number of copies of every output. -/
def Rec128.copies (e : Rec128) : Nat := (Rec128.ports e).length + bitN (e.getLsbD 26)
/-- XCNT. -/
def Rec128.xcnt (e : Rec128) : Nat := bitsOf e 32 16
/-- RLO. -/
def Rec128.rlo (e : Rec128) : Nat := bitsOf e 48 16
/-- OFLOW. -/
def Rec128.oflow (e : Rec128) : Nat := bitsOf e 86 12
/-- QUOTA. -/
def Rec128.quota (e : Rec128) : Nat := bitsOf e 98 8
/-- DK of an endpoint descriptor. -/
def Rec128.dk (d : Rec128) : Nat := bitsOf d 0 4
/-- NROWS: 0 means 65,536. -/
def Rec128.nrows (d : Rec128) : Nat := if bitsOf d 16 16 = 0 then 65536 else bitsOf d 16 16
/-- BASE. -/
def Rec128.base (d : Rec128) : Nat := bitsOf d 32 44

/-- ECM1 + 1. -/
def Packet.count (p : Packet) : Nat := p.words.length
/-- The cycles a packet takes on a mesh link (08 R212). -/
def Packet.occupies (p : Packet) : Nat := (Packet.count p + 15) / 16 + 1

/-! ## The mesh (01 R12, 02 R27, 08 R212) -/

/-- The router at a port of a router: 0 N, 1 E, 2 S, 3 W; none at an edge of the mesh. -/
def meshNext (r port : Nat) : Option Nat :=
  let d := r / 256
  let row := r / 16 % 16
  let col := r % 16
  match port with
  | 0 => if row = 0 then none else some (r - 16)
  | 1 => if col < 15 then some (r + 1) else if d = 0 then some (256 + 16 * row) else none
  | 2 => if row = 15 then none else some (r + 16)
  | _ => if 0 < col then some (r - 1) else if d = 1 then some (16 * row + 15) else none

/-- The port on which the neighbour receives. -/
def oppositePort (port : Nat) : Nat := (port + 2) % 4

/-- The cycles that a crossing adds: the seam, a skipped tile passed, a link steered across (02 R27). -/
def State.crossing (s : State) (r port : Nat) : Nat :=
  let skip := fun (row : Nat) => (Tab.get 0 s.module.fuses.skip (r / 256 * 16 + row)).toNat
  let row := r / 16 % 16
  let col := r % 16
  match port with
  | 1 => if col = 15 then 4 else bitN (skip row == col + 1)
  | 3 => if col = 0 then 4 else bitN (skip row == col)
  | _ =>
    let other := if port = 0 then row - 1 else row + 1
    bitN (decide (min (skip row) (skip other) ≤ col) && decide (col < max (skip row) (skip other)))

/-! ## Rows of flow sends and their acknowledgements (08 R187, R199, R209, R210) -/

/-- A row of a flow send that has not ended. -/
def State.row? (s : State) (i : Nat) : Option SendRow := Tab.get none s.rows i

/-- Rows are reported landed: an acknowledgement on its way for each. -/
def State.ackRows (s : State) (rows : List Nat) : State := s.forEach rows fun s i => s.postOpen 1 (.landingAcknowledgement i)
/-- Rows are reported lost. -/
def State.loseRows (s : State) (rows : List Nat) : State := s.forEach rows fun s i => s.postOpen 1 (.lossAcknowledgement i)

/-- The copies of rows on their way change: `k` copies take the place of one; with none of them, the copy has landed. -/
def State.fanRows (s : State) (rows : List Nat) (k : Nat) : State :=
  if k = 0 then s.ackRows rows
  else
    { s with rows := rows.foldl (fun t i => Tab.set none t i ((Tab.get none t i).map fun r => { r with copies := r.copies + k - 1 })) s.rows }

/-! ## Drops (08 R187, R204, R205) -/

/-- An entry of the fault log. -/
def flogEntry (p : Packet) (inp why : Nat) : Word64 :=
  BitVec.ofNat 64 (p.flow.toNat + fieldAt 12 inp + fieldAt 15 why + fieldAt 18 p.seq.toNat + fieldAt 34 p.rank.toNat + fieldAt 50 p.src.toNat
    + fieldAt 59 p.part.toNat + fieldAt 62 1)

/-- TRAPINFO of FLOW_MISS. -/
def missInfo (r : Nat) (p : Packet) (inp why : Nat) : Word64 :=
  BitVec.ofNat 64 (r + fieldAt 9 why + fieldAt 12 p.flow.toNat + fieldAt 24 p.seq.toNat + fieldAt 40 p.rank.toNat + fieldAt 56 inp)

/-- A router drops a packet. -/
def State.drop (s : State) (r inp why : Nat) (p : Packet) : State :=
  match s.router? r with
  | none => s
  | some t =>
    let room := match s.part? p.part.toNat with | none => false | some q => decide (q.notices.length < 32)
    let s := s.updRouter r fun t =>
      { t with
        flog := (flogEntry p inp why :: t.flog).take 8
        flogOvf := t.flogOvf || decide (8 ≤ t.flog.length)
        drops := satInc16 t.drops 1
        missed := t.missed || room }
    let s := if t.missed then s else s.notice p.part.toNat 0x11 (missInfo r p inp why)
    s.loseRows p.rows

/-! ## Sending on -/

/-- An output of a router is taken from its first free cycle at or after `due` on; the cycle after which the packet has left. -/
def State.takeOut (s : State) (r key due cost : Nat) : State × Nat :=
  match s.router? r with
  | none => (s, due + cost)
  | some t =>
    let at' := max due (Tab.get 0 t.busy key) + cost
    (s.updRouter r fun t => { t with busy := Tab.set 0 t.busy key at' }, at')

/-- A packet leaves on a mesh port at or after a cycle: it arrives at the neighbour, in the order of leaving (08 R185). -/
def State.sendMesh (s : State) (r port due : Nat) (p : Packet) : State :=
  match meshNext r port with
  | none => s.loseRows p.rows
  | some n =>
    match s.takeOut r port due (Packet.occupies p) with
    | (s, at') => s.post (at' - s.cycle + s.crossing r port) (.packetArrival n (oppositePort port) p)

/-- A packet leaves in transit (08 R184) to the unit that TGTK names: how long it travels is open; one that left earlier for the same unit arrives
no later. -/
def State.sendTransit (s : State) (r ep due : Nat) (p : Packet) : State :=
  match s.takeOut r 5 due (Packet.occupies p) with
  | (s, at') =>
    match s.takeOut r (65536 + 1024 * p.tgtk.toNat + p.tgt.toNat) (at' + Config.latency s.free) 0 with
    | (s, at') => { s with free := s.free + 1 }.post (at' - s.cycle) (.rowLanding r ep { p with xt := true })

/-- The address of a packet's row at an endpoint (08 R198). -/
def rowAddr (d : Rec128) (p : Packet) : Nat := (Rec128.base d + p.seq.toNat) * 256

/-- TRAPINFO of a parked or lost row (08 R206). -/
def rowInfo (va core : Nat) : Word64 := BitVec.ofNat 64 (va % 2 ^ 52 + fieldAt 52 core + fieldAt 61 1)

/-- A row is lost at a receiver (08 R209, R210): LOST counts it, FLOW_ROW_LOST reports it, and its loss is acknowledged. -/
def State.loseRow (s : State) (r va : Nat) (p : Packet) : State :=
  ((s.updRouter r fun t => { t with lost := satInc16 t.lost 1 }).notice (s.partOf r) 0x12 (rowInfo va r)).loseRows p.rows

/-- A copy goes to endpoint EPX of its router (08 R198). `inp` is the port that a drop records. -/
def State.toEndpoint (s : State) (r ep inp due : Nat) (p : Packet) : State :=
  match (s.router? r).map fun t => Tab.get 0 t.eps ep with
  | none => s.loseRows p.rows
  | some d =>
    let dk := Rec128.dk d
    let va := rowAddr d p
    let addressed := dk == 0 || dk == 1 || dk == 2 || dk == 5
    if Rec128.nrows d ≤ p.seq.toNat || (addressed && decide (2 ^ 52 ≤ va)) then s.drop r inp 4 p
    else
      match dk with
      | 0 | 1 => s.post (due - s.cycle + 4) (.rowLanding r ep { p with desc := d })
      | 2 =>
        (match s.translateHome (s.partOf r) va .write with
          | (s, .fault _ _) => s.loseRow r va p
          | (s, .leaf l) =>
            let tgt := s.homeSlice l.pa
            s.sendTransit r ep due { p with
              tgtk := 1, tgt := BitVec.ofNat 9 tgt, daddr := BitVec.ofNat 52 va, pa := l.pa, ed := l.ed, rng := s.rangeAt (s.partOf r) va })
      | 3 =>
        if Packet.count p ≠ 32 || p.wide then s.drop r inp 7 p
        else s.sendTransit r ep due { p with tgtk := 2, tgt := BitVec.ofNat 9 (bitsOf d 32 8) }
      | 4 =>
        if !s.module.fuses.lpen.getLsbD (bitsOf d 32 5) then s.drop r inp 6 p
        else s.sendTransit r ep due { p with tgtk := 3, tgt := BitVec.ofNat 9 (bitsOf d 32 5), daddr := BitVec.ofNat 52 (bitsOf d 37 16) }
      | _ => s.sendTransit r ep due { p with tgtk := 4, tgt := 0, daddr := BitVec.ofNat 52 va }

/-- An output of an entry: a copy to every port of OUTM and to its endpoint, under OFLOW and OVC. -/
def State.output (s : State) (r inp due : Nat) (e : Rec128) (p : Packet) : State :=
  let p := { p with flow := BitVec.ofNat 12 (Rec128.oflow e), vc := BitVec.ofNat 2 (bitsOf e 27 2), xt := false }
  let s := s.fanRows p.rows (Rec128.copies e)
  let s := s.forEach (Rec128.ports e) fun s port => s.sendMesh r port due p
  if e.getLsbD 26 then s.toEndpoint r (bitsOf e 80 6) inp due p else s

/-! ## Combine groups (08 R189 to R196) -/

/-- The words of a BF16 payload, each element widened exactly (08 R195). -/
def widenWords (ws : List PWord) : List PWord :=
  ws.flatMap fun x => [⟨widen x.w.toNat, x.p⟩, ⟨widen (x.w.toNat / 65536), x.p⟩]

/-- One merge of softmax pairs (05 R112). -/
def mergePair (a c : PWord × PWord) : PWord × PWord :=
  let m := maxF a.1.w c.1.w
  let diff := fun (x : Word32) => if (f32 x).eq (f32 m) then (0 : Word32) else subW x m
  let s := rne32 (((f32 a.2.w).mul (f32 (exp2 (diff a.1.w)))).add (f32 (mulF c.2.w (exp2 (diff c.1.w)))))
  let p := a.1.p || a.2.p || c.1.p || c.2.p
  (⟨m, p⟩, ⟨s, p⟩)

/-- Softmax pairs merged, pair after pair. -/
def mergePairs : List PWord → List PWord → List PWord
  | m :: t :: acc, n :: u :: ws =>
    match mergePair (m, t) (n, u) with
    | (x, y) => x :: y :: mergePairs acc ws
  | acc, _ => acc

/-- A contribution folded into a partial (05 R111, R112, R104). -/
def foldWords (act op : Nat) (acc ws : List PWord) : List PWord :=
  if act = 5 then mergePairs acc ws
  else
    (acc.zip ws).map fun x =>
      ⟨if op = 1 then maxF x.1.w x.2.w else if op = 2 then minF x.1.w x.2.w else addW x.1.w x.2.w, x.1.p || x.2.p⟩

/-- The words a contribution folds as. -/
def foldInput (e : Rec128) (p : Packet) : List PWord := if e.getLsbD 21 && !p.wide then widenWords p.words else p.words

/-- The first contribution, taken exactly; both words of a poisoned pair are poisoned under normalise. -/
def firstWords (act : Nat) (ws : List PWord) : List PWord :=
  if act = 5 then
    (ws.zipIdx).map fun x => ⟨x.1.w, x.1.p || (ws.getD (x.2 / 2 * 2) x.1).p || (ws.getD (x.2 / 2 * 2 + 1) x.1).p⟩
  else ws

/-- The cycles of one fold (08 Table 12). -/
def foldCost (e : Rec128) (p : Packet) : Nat :=
  if Rec128.act e = 5 then 8 * ((Packet.count p + 31) / 32)
  else if e.getLsbD 21 && !p.wide then (Packet.count p + 7) / 8
  else (Packet.count p + 15) / 16

/-- The slots a round occupies (08 R190). -/
def Round.slots (q : Round) : Nat := bitN (!q.acc.isEmpty) + q.held.length

/-- The slots of a group. -/
def Router.groupSlots (t : Router) (flow : Nat) : Nat := ((t.rounds.filter fun q => q.flow = flow).map Round.slots).sum

/-- The round of a SEQ. -/
def Router.round? (t : Router) (flow seq : Nat) : Option Round := t.rounds.find? fun q => q.flow = flow && q.seq = seq

/-- A router with a round put in its place. -/
def Router.setRound (t : Router) (q : Round) : Router :=
  { t with rounds := (t.rounds.filter fun u => !(u.flow == q.flow && u.seq == q.seq)) ++ [q] }
/-- A router without a round. -/
def Router.endRound (t : Router) (q : Round) : Router :=
  { t with rounds := t.rounds.filter fun u => !(u.flow == q.flow && u.seq == q.seq) }

/-- The reason for which a contribution is dropped (08 R196); none: it joins. -/
def badContribution (e : Rec128) (inp : Nat) (p : Packet) (q : Option Round) : Option Nat :=
  let r := p.rank.toNat
  let lo := Rec128.rlo e
  let inRange := decide (lo ≤ r) && (Rec128.act e == 2 || decide (r < lo + Rec128.xcnt e))
  let taken := Rec128.act e != 2 && (match q with | none => false | some q => q.ranks.contains r)
  let differs := match q with | none => false | some q => q.ecm1 != Packet.count p - 1 || q.wide != p.wide
  let long := e.getLsbD 21 && !p.wide && decide (32 < Packet.count p)
  if !inRange then some 1
  else if taken then some 2
  else if differs || long || (Rec128.act e == 5 && Packet.count p % 2 == 1) || (inp != 4 && p.vc != 2) then some 3
  else none

/-- Whether a contribution needs a slot of its own: the first of the order, one that must be held, one that is stored. -/
def needsSlot (e : Rec128) (p : Packet) (q : Option Round) : Bool :=
  Rec128.act e == 2 || (match q with | none => true | some q => q.acc.isEmpty || q.next != p.rank.toNat)

/-- A contribution put among those held: by rank, within a rank by SRC, within both by arrival. -/
def insertHeld (c : Contribution) : List Contribution → List Contribution
  | [] => [c]
  | d :: l => if c.rank < d.rank || (c.rank = d.rank && c.src < d.src) then c :: d :: l else d :: insertHeld c l

/-- The output packet of a round (08 R189, R192). Contributions to an FP32 group that came WIDE make it WIDE: the spec neither drops them nor says so
(DESIGN CHOICE, log entry 92). -/
def outPacket (e : Rec128) (r : Nat) (q : Round) (p : Packet) (rank seq : Nat) : Packet :=
  { p with rank := BitVec.ofNat 16 rank, seq := BitVec.ofNat 16 seq, src := BitVec.ofNat 9 r, srck := 0, inst := 0, words := q.acc
           wide := e.getLsbD 21 || q.wide, rows := q.rows }

/-- A contribution folds into its round; the state, the round, and the cycle at which the fold is done. -/
def State.foldOne (s : State) (r : Nat) (e : Rec128) (q : Round) (c : Contribution) : State × Round × Nat :=
  let ws := foldInput e c.pkt
  let cost := if q.acc.isEmpty then 1 else foldCost e c.pkt
  match s.takeOut r (16 + q.flow) (s.cycle + 2) cost with
  | (s, at') =>
    let acc := if q.acc.isEmpty then firstWords (Rec128.act e) ws else foldWords (Rec128.act e) (bitsOf e 19 2) q.acc ws
    (s, { q with acc := acc, next := c.rank + 1, rows := q.rows ++ c.pkt.rows }, at')

/-- The held contributions whose turn has come fold, one rank after another; scan sends the partial after each (08 R189, R192). -/
def State.foldReady (s : State) (r inp : Nat) (e : Rec128) : Nat → Round → State × Round × Nat
  | 0, q => (s, q, s.cycle)
  | fuel + 1, q =>
    match q.held.find? fun c => c.rank = q.next with
    | none => (s, q, s.cycle)
    | some c =>
      match s.foldOne r e { q with held := q.held.filter fun d => d.seqNo ≠ c.seqNo } c with
      | (s, q, at') =>
        let s :=
          if Rec128.act e = 3 then
            -- every row of rank c.rank is on its way in the outputs of this rank and of those above it
            let left := Rec128.rlo e + Rec128.xcnt e - c.rank
            (s.fanRows c.pkt.rows left).output r inp at'
              e (outPacket e r q c.pkt c.rank ((q.seq * Rec128.xcnt e + c.rank - Rec128.rlo e) % 65536))
          else s
        match s.foldReady r inp e fuel q with
        | (s, q, last) => (s, q, max at' last)

/-- The contributions of a hold fold in their order. -/
def State.foldAll (s : State) (r : Nat) (e : Rec128) (q : Round) : List Contribution → State × Round × Nat
  | [] => (s, q, s.cycle)
  | c :: cs =>
    match s.foldOne r e q c with
    | (s, q, at') =>
      match s.foldAll r e q cs with
      | (s, q, last) => (s, q, max at' last)

/-- A contribution that has its slot joins its round; a round that is complete ends. Where an output of it is dropped, the port recorded is that on which the
contribution came that completed or advanced it: 08 R204 does not say (DESIGN CHOICE, log entry 92). -/
def State.join (s : State) (r inp : Nat) (e : Rec128) (p : Packet) : State :=
  match s.router? r with
  | none => s
  | some t =>
    let flow := bitsOf e 4 12
    let seq := p.seq.toNat
    let q := (t.round? flow seq).getD ⟨flow, seq, Packet.count p - 1, p.wide, [], Rec128.rlo e, [], [], []⟩
    let c : Contribution := ⟨p.rank.toNat, p.src.toNat, t.arrivals, p⟩
    let q := { q with ranks := q.ranks ++ [c.rank], held := insertHeld c q.held }
    let s := s.updRouter r fun t => { t with arrivals := t.arrivals + 1 }
    let complete := decide (Rec128.xcnt e ≤ q.ranks.length)
    let f :=
      if Rec128.act e = 2 then
        if complete then s.foldAll r e { q with held := [] } q.held else (s, q, s.cycle)
      else s.foldReady r inp e q.held.length q
    match f with
    | (s, q, at') =>
      if complete then
        let s := s.updRouter r fun t => t.endRound q
        if Rec128.act e = 3 then s
        else s.output r inp at' e (outPacket e r q p (bitsOf e 64 16) seq)
      else s.updRouter r fun t => t.setRound q

/-! ## Matching (08 R187, R188, R193) -/

/-- The entry that a packet matches on a port. -/
def Router.matching (t : Router) (port : Nat) (p : Packet) : Option Rec128 :=
  t.entries.find? fun e => e.getLsbD 0 && bitsOf e 1 3 == port && bitsOf e 4 12 == p.flow.toNat

/-- The virtual channel on which a packet enters a port: at the local port, that of the entry it matches (08 R183). -/
def Router.arrivalVc (t : Router) (port : Nat) (p : Packet) : BitVec 2 :=
  if port ≠ 4 || p.srck = 3 then p.vc
  else
    match t.matching port p with
    | some e => if Rec128.groups e then 2 else 0
    | none => 0

/-- A packet is matched: it is dropped, sent on, or joins its group; none: it must wait for a slot (08 R190). Where several reasons to drop it hold at once,
WHY names the first in this order: no entry, another partition; RANGE of a transpose; RANK, DUP, LEN of a contribution; at an endpoint RANGE before its
kind (08 R187 gives no order; DESIGN CHOICE, log entry 92). -/
def State.matchPacket (s : State) (r port : Nat) (p : Packet) : Option State :=
  match s.router? r with
  | none => some s
  | some t =>
    match t.matching port p with
    | none => some (s.drop r port 0 p)
    | some e =>
      if t.part ≠ some p.part.toNat then some (s.drop r port 5 p)
      else if Rec128.act e = 4 then
        let w := bitsOf e 98 8 + 1
        let h := bitsOf e 106 8 + 1
        let seq := p.seq.toNat
        if w * h ≤ seq then some (s.drop r port 4 p)
        else some (s.output r port (s.cycle + 2) e { p with seq := BitVec.ofNat 16 (seq % w * h + seq / w) })
      else if Rec128.groups e then
        let q := t.round? (bitsOf e 4 12) p.seq.toNat
        match badContribution e port p q with
        | some why => some (s.drop r port why p)
        | none =>
          if needsSlot e p q && decide (Rec128.quota e ≤ t.groupSlots (bitsOf e 4 12)) then none
          else some (s.join r port e p)
      else some (s.output r port (s.cycle + 2) e p)

/-- The packets that wait at the input ports of a router are tried in order; one that still waits holds those behind it on its port and channel. -/
def State.retryPorts (s : State) (r : Nat) : List (Nat × Packet) → List (Nat × BitVec 2) → State × Bool
  | [], _ => (s, false)
  | (port, p) :: l, held =>
    if held.contains (port, p.vc) || 16 ≤ port then
      match s.retryPorts r l held with
      | (s, b) => (s.updRouter r fun t => { t with waiting := (port, p) :: t.waiting }, b)
    else
      match s.matchPacket r port p with
      | some s =>
        (match s.retryPorts r l held with
          | (s, _) => (s, true))
      | none =>
        match s.retryPorts r l ((port, p.vc) :: held) with
        | (s, b) => (s.updRouter r fun t => { t with waiting := (port, p) :: t.waiting }, b)

/-- Slots have become free: what waits for them goes on, as far as it can. -/
def State.settlePorts (s : State) (r : Nat) : Nat → State
  | 0 => s
  | n + 1 =>
    match s.router? r with
    | none => s
    | some t =>
      if t.waiting.all fun w => 16 ≤ w.1 then s
      else
        match (s.updRouter r fun t => { t with waiting := [] }).retryPorts r t.waiting [] with
        | (s, true) => s.settlePorts r n
        | (s, false) => s

/-- PACKET_ARRIVAL (08 R187 to R196): a packet with XT = 0 reaches a router on a port, 4 the local one. -/
def State.arrive (s : State) (r port : Nat) (p : Packet) : State :=
  match s.router? r with
  | none => s.loseRows p.rows
  | some t =>
    let p := { p with vc := t.arrivalVc port p }
    let wait := fun (s : State) => s.updRouter r fun t => { t with waiting := t.waiting ++ [(port, p)] }
    if t.waiting.any fun w => w.1 == port && w.2.vc == p.vc then wait s
    else
      match s.matchPacket r port p with
      | none => wait s
      | some s => s.settlePorts r t.waiting.length

/-- PACKET_ARRIVAL (08 R187): A packet arriving at a router is matched against the flow entries and forwarded, combined, held, scanned, transposed, normalised, transited or dropped. -/
def execPacketArrival (s : State) : Host.Outcome State Fault Refusal :=
  match s.ev with
  | .packetArrival r port p => .next (s.arrive r port p)
  | _ => .next s

/-! ## Landing at a stash (08 R198, R199, R206 to R209) -/

/-- The payload as words with byte masks, as it lies in its row; a WIDE packet is rounded to BF16 (08 R195, R198); a host write names its bytes. -/
def Packet.rowWords (p : Packet) : List (PWord × Nat) :=
  if p.wide then
    (List.range ((Packet.count p + 1) / 2)).map fun i =>
      let a := p.words.getD (2 * i) ⟨0, false⟩
      let b := p.words.getD (2 * i + 1) ⟨0, false⟩
      (⟨BitVec.ofNat 32 (rne16 a.w + 65536 * rne16 b.w), a.p || b.p⟩, if 2 * i + 1 < Packet.count p then 15 else 3)
  else (p.words.zipIdx).map fun w => (w.1, ((p.ben.getD w.2 15#4).toNat))

/-- The bytes that a packet covers from its address on. -/
def Packet.size (p : Packet) : Nat := if p.wide then 2 * Packet.count p else 4 * Packet.count p

/-- What a landing comes to. -/
inductive Land where
  | landed
  /-- it goes on at this many cycles from now -/
  | later (n : Nat)
  | faulted (cause : Nat)
deriving DecidableEq, Repr

/-- How long the fill of a block that a quarter has asked for is still to take. -/
def State.fillDue (s : State) (q block : Nat) : Nat :=
  match s.agenda.find? fun a =>
    match a.2 with
    | .stashFillArrival c b _ => c == q && b == block
    | _ => false with
  | none => 1
  | some a => max 1 (a.1 - s.cycle)

/-- A word lands in a row: its bytes, V, D, O and its poison. -/
def State.landWord (s : State) (q n off : Nat) (x : PWord × Nat) : State :=
  if x.2 = 15 then s.rowWrite q n off 4 x.1.w.toNat x.1.p else s.rowWrite q n off 2 (x.1.w.toNat % 65536) x.1.p

/-- The records that a flow write to a row of a page class lands on go (03 R73): those of the core's contexts, and for a row of the cluster stash, which
the four cores share, those of the cluster's (DESIGN CHOICE, log entry 87). -/
def State.landWatch (s : State) (r cc va n : Nat) : State :=
  s.forEach (if cc = 1 then clusterCores r else [r]) fun s c => s.updCore c fun k => k.mapCtxs fun _ x => { x with watch := storeWatch x.watch va n }

/-- How long a landing at a block of a quarter has still to wait for a row that moves (10 R255); 0: not at all. -/
def State.movingFor (s : State) (q block : Nat) : Nat :=
  match s.core? q with
  | none => 0
  | some k => if k.moving.contains block then k.frozenTo - s.cycle else 0

/-- A row lands in the stash of a tile at an address, pinned where its endpoint pins it. -/
def State.stashLand (s : State) (r va : Nat) (pin : Bool) (p : Packet) : State × Land :=
  match s.core? r with
  | none => (s, .faulted 0)
  | some _ =>
    match s.translate r va .write with
    | (s, .fault cause _) => (s, .faulted cause)
    | (s, .leaf l) =>
      let q := quarterOf r va l.cc
      if 0 < s.movingFor q (va / 256) then (s, .later (s.movingFor q (va / 256)))
      else
      match s.ensureRow q (va / 256) l with
      | (s, .full) => (s, .faulted 0x0A)
      | (s, .busy) => (s, .later 1)
      | (s, .row n) =>
        let s := if pin then
            s.updCore q fun k =>
              match Tab.get none k.stash.rows n with
              | none => k
              | some w => { k with stash := k.stash.set n { w with pin := true } }
          else s
        match (s.core? q).bind fun k => Tab.get none k.stash.rows n with
        | none => (s, .later 1)
        | some w =>
          let ws := Packet.rowWords p
          let whole := decide (64 ≤ ws.length) && ws.all fun x => x.2 == 15
          -- an absent row is filled first (08 R198), one that is there where bytes of it are left that the landing does not write (10 R239)
          let filling := (s.core? q).any fun k => k.stash.filling (va / 256)
          if w.v ≠ BitVec.allOnes 256 && (!whole || w.v = 0 || filling) then
            let s := s.requestFill q (va / 256) l
            (s, .later (s.fillDue q (va / 256)))
          else
            let s := (ws.zipIdx).foldl (fun s x => s.landWord q n (4 * x.2) x.1) s
            ((s.landWatch r l.cc va (Packet.size p)).wakeCluster r, .landed)

/-- The signal of a landed row on RSEM, attributed to the context that sent it (12 R289): of a combined row the sender of the packet's first contribution, and no
context where no row of it is from this module (DESIGN CHOICE, log entry 52). -/
def State.signalRow (s : State) (r : Nat) (d : Rec128) (p : Packet) : State :=
  let n := bitsOf d 4 8
  let inc := bitsOf d 12 4
  if inc = 0 then s
  else
    match s.core? r with
    | none => s
    | some k =>
      let m := k.sem n
      let v := m.signal inc
      let s := s.putSem r n v
      match p.rows.findSome? s.row? with
      | none => s
      | some row =>
        if v.ovf && !m.ovf then
          s.updCtx row.core row.ctx fun x =>
            if x.st = .empty then x
            else { x with pend := { x.pend with semOvf := x.pend.semOvf ++ [BitVec.ofNat 64 (n + r * 256)] } }.wake s.cycle
        else s

/-- The receive channel of a core whose elements land at an endpoint (09 R214, R217): its FLOW, and its buffer at BASE. -/
def Core.recvChannel (k : Core) (d : Rec128) (flow : Nat) : Option Nat :=
  k.chans.findSome? fun kv =>
    match kv.2 with
    | none => none
    | some h => if h.kind = 2 && bitsOf h.entry 20 12 = flow && bitsOf h.entry 64 64 / 256 = Rec128.base d then some kv.1 else none

/-- A row of a receive channel has landed or been lost: its map bit is set (09 R217). -/
def State.markChannel (s : State) (r : Nat) (d : Rec128) (p : Packet) (lost : Bool) : State :=
  match (s.core? r).bind fun k => k.recvChannel d p.flow.toNat with
  | none => s
  | some ch =>
    (s.updCore r fun k =>
      match Tab.get none k.chans ch with
      | none => k
      | some h => { k with chans := Tab.set none k.chans ch (some { h with
          map := setBits h.map p.seq.toNat 1 1
          lostMap := if lost then setBits h.lostMap p.seq.toNat 1 1 else h.lostMap }) }).postOnce 0 (.chrecvCompletion r ch)

/-- A row has landed at a stash endpoint. -/
def State.landedRow (s : State) (r : Nat) (d : Rec128) (p : Packet) : State :=
  ((s.signalRow r d p).markChannel r d p false).ackRows p.rows

/-- A row that faults is parked (08 R206, R208): the cause goes to the control context, retries and the limit are due. -/
def State.park (s : State) (r ep va cause : Nat) (p : Packet) : State :=
  let s := s.updRouter r fun t => { t with fq := t.fq ++ [⟨p, ep, s.ticks, s.ticks + 64000, none⟩] }
  let s := s.notice (s.partOf r) cause (rowInfo va r)
  let lim := match s.router? r with | none => 1 | some t => max 1 t.limit.toNat
  (s.postOnce (s.cyclesOf 64000) (.parkedRowRetry r)).post (s.cyclesOf (lim * 100000)) (.flowRowLost r)

/-- A delivery to a stash endpoint. While an earlier one on its channel waits for the fault queue, it waits too (08 R208). -/
def State.landStash (s : State) (r ep : Nat) (p : Packet) : State :=
  let d := p.desc
  let va := rowAddr d p
  let wait := fun (s : State) => s.updRouter r fun t => { t with waiting := t.waiting ++ [(16 + ep, p)] }
  match s.router? r with
  | none => s.loseRows p.rows
  | some t =>
    if t.waiting.any fun w => 16 ≤ w.1 && w.2.vc == p.vc then wait s
    else
      match s.stashLand r va (Rec128.dk d == 1) p with
      | (s, .landed) => s.landedRow r d p
      | (s, .later n) => s.post n (.rowLanding r ep p)
      | (s, .faulted cause) =>
        if cause = 0 then s.loseRows p.rows
        else if 32 ≤ t.fq.length then wait s
        else s.park r ep va cause p

/-- The fault queue has room again: the deliveries that wait go on, in order. -/
def State.settleDeliveries (s : State) (r : Nat) : State :=
  match s.router? r with
  | none => s
  | some t =>
    let l := t.waiting.filter fun w => 16 ≤ w.1
    if l.isEmpty then s
    else
      let s := s.updRouter r fun t => { t with waiting := t.waiting.filter fun w => !decide (16 ≤ w.1) }
      s.forEach l fun s w => s.landStash r (w.1 - 16) w.2

/-- Whether the launch of a core's cluster is completing: every task of it has ended. -/
def State.completing (s : State) (c : Nat) : Bool :=
  match (s.core? c).bind (·.launch) with
  | none => true
  | some l => s.cores.all fun kv =>
      match kv.2 with
      | none => true
      | some k => k.launch ≠ some l || k.tasks.isEmpty

/-- A row leaves the fault queue lost (08 R209): its channel marks it. -/
def State.loseParked (s : State) (r : Nat) (x : Parked) : State :=
  let d := x.pkt.desc
  (s.markChannel r d x.pkt true).loseRow r (rowAddr d x.pkt) x.pkt

/-- The parked rows of a tile that `sel` chooses are tried again: those that land leave the queue, the others stay. A retry that must wait for its row goes on
by itself, and no other row is tried at that. -/
def State.retryRows (s : State) (r : Nat) (sel : Parked → Bool) : State :=
  match s.router? r with
  | none => s
  | some t =>
    let one := fun (a : State × List Parked) (x : Parked) =>
      let d := x.pkt.desc
      if !sel x then (a.1, a.2 ++ [x])
      else if a.1.completing r then (a.1.loseParked r x, a.2)
      else
        match a.1.stashLand r (rowAddr d x.pkt) (Rec128.dk d == 1) x.pkt with
        | (s, .landed) => (s.landedRow r d x.pkt, a.2)
        | (s, .later n) => (s.postOnce n (.parkedRowRetry r), a.2 ++ [{ x with again := some (s.cycle + n) }])
        | (s, .faulted _) => (s, a.2 ++ [{ x with again := none }])
    match t.fq.foldl one (s, []) with
    | (s, l) =>
      let s := s.updRouter r fun t => { t with fq := l }
      if l.length < 32 then s.settleDeliveries r else s

/-- The parked rows of a tile whose addresses `sel` chooses are tried again: a TLBI or a SUNPIN (08 R207). -/
def State.retryParked (s : State) (r : Nat) (sel : Nat → Bool) : State := s.retryRows r fun x => sel (rowAddr x.pkt.desc x.pkt)

/-- Whether a parked row is to be tried now: its 64 µs have passed, or its retry has waited long enough for its row. -/
def Parked.due (x : Parked) (cycle ticks : Nat) : Bool := decide (x.next ≤ ticks) || x.again.any fun t => decide (t ≤ cycle)

/-- PARKED_ROW_RETRY: each row every 64 µs while it is parked, from its parking on (08 R207). -/
def execParkedRowRetry (s : State) : Host.Outcome State Fault Refusal :=
  match s.ev with
  | .parkedRowRetry r =>
    let now := s.ticks
    let s := s.retryRows r fun x => x.due s.cycle s.ticks
    let s := s.updRouter r fun t => { t with fq := t.fq.map fun x => if x.next ≤ now then { x with next := now + 64000 } else x }
    .next (s.forEach (match s.router? r with | none => [] | some t => t.fq) fun s x => s.postOnce (s.cyclesOf (x.next - s.ticks)) (.parkedRowRetry r))
  | _ => .next s

/-- FLOW_ROW_LOST: rows parked for LIMIT are lost (08 R209). -/
def execFlowRowLost (s : State) : Host.Outcome State Fault Refusal :=
  match s.ev with
  | .flowRowLost r =>
    .next (match s.router? r with
      | none => s
      | some t =>
        let lim := max 1 t.limit.toNat * 100000
        let old := t.fq.filter fun x => x.since + lim ≤ s.ticks
        let rest := t.fq.filter fun x => !decide (x.since + lim ≤ s.ticks)
        let s := s.updRouter r fun t => { t with fq := rest }
        let s := s.forEach old fun s x => s.loseParked r x
        let s := if old.isEmpty then s else s.settleDeliveries r
        match rest with
        | [] => s
        | x :: _ => s.postOnce (max 1 (s.cyclesOf (x.since + lim - s.ticks))) (.flowRowLost r))
  | _ => .next s

/-! ## The other endpoints -/

/-- The contexts whose contribution to a packet carried poison are killed (12 R301 kind 2). -/
def State.poisonSenders (s : State) (rows : List Nat) : State :=
  s.forEach rows fun s i =>
    match s.row? i with
    | none => s
    | some r => if r.psn && (s.core? r.core).bind (·.launch) == some r.launch then s.poisonLater r.core r.ctx 2 0 else s

/-- The launch on whose behalf a packet travels; none for one from the host. -/
def State.packetLaunch (s : State) (r : Nat) (p : Packet) : Option Nat :=
  if p.srck = 2 then none
  else
    match p.rows.findSome? s.row? with
    | some row => some row.launch
    | none => (s.core? r).bind (·.launch)

/-- A row performs at its home slice as a store on path F (08 R198, 11 R266) of the contexts that sent it: what their watch tables hold of its bytes
goes (03 R73). -/
def State.landHome (s : State) (r : Nat) (p : Packet) : State :=
  let ws := Packet.rowWords p
  let s := s.homeWrite ⟨p.part.toNat, p.ed, s.packetLaunch r p, p.rng⟩ 0 (ws.length + 1) p.pa ws
  let s := s.forEach p.rows fun s i =>
    match s.row? i with
    | none => s
    | some x => s.updCtx x.core x.ctx fun c => { c with watch := storeWatch c.watch p.daddr.toNat (Packet.size p) }
  s.ackRows p.rows

/-- A record reaches a fabric slice (07 R179): it has landed when it is among the eight that wait; a ninth waits before it. -/
def State.landFabric (s : State) (p : Packet) : State :=
  let n := p.tgt.toNat
  match s.slice? n with
  | none => s.loseRows p.rows
  | some sl =>
    let own := !s.module.cmode || (match s.part? p.part.toNat with | none => false | some q => q.entry.crpair.getLsbD n)
    if !own then s.loseRows p.rows
    else
      let s := s.updSlice n fun sl => { sl with waiting := sl.waiting ++ [p] }
      let s := if sl.waiting.length < 8 then s.ackRows p.rows else s
      s.postOnce 0 (.fabricInvocationStart n)

/-- The partition that holds a link port (13 R308). -/
def State.portHolder (s : State) (port : Nat) : Option Nat :=
  (s.parts.find? fun kv =>
    match kv.2 with
    | none => false
    | some p => p.entry.en && p.entry.lpmask.getLsbD port).map (·.1)

/-- The time a link port gives its peer to acknowledge (09 R228, R231), in ns. -/
def State.linkLimit (s : State) (port : Nat) : Nat :=
  let lim := match (s.portHolder port).bind s.part? with
    | none => 100
    | some q => bitsOf q.rngcfg 16 16
  max 1 lim * 100000

/-- A link port accepts a packet: it goes to the peer where the link is up, and waits for the peer's acknowledgement (09 R231). -/
def State.linkSend (s : State) (port : Nat) (l : Option Nat) (p : Packet) : State :=
  match s.port? port with
  | none => s
  | some q =>
    let s := s.updPort port fun q => { q with sent := q.sent ++ [⟨p, s.ticks, l, q.up⟩] }
    let s := if q.up then s.emit (.link port p) else s
    s.post (s.cyclesOf (s.linkLimit port)) (.linkTimeout port)

/-- A packet reaches a link port (08 R198, 09 R230): one with poison is dropped there. -/
def State.landLink (s : State) (r : Nat) (p : Packet) : State :=
  if p.words.any (·.p) then (s.poisonSenders p.rows).loseRows p.rows
  else (s.linkSend p.tgt.toNat (s.packetLaunch r p) p).ackRows p.rows

/-- The bytes of a row with their addresses. -/
def Packet.bytes (p : Packet) : List (Nat × Byte) :=
  ((Packet.rowWords p).zipIdx).flatMap fun x => (List.range 4).filterMap fun i =>
    if x.1.2 / 2 ^ i % 2 = 1 then some (p.daddr.toNat + 4 * x.2 + i, x.1.1.w.extractLsb' (8 * i) 8) else none

/-- A packet reaches the host port (08 R198, 13 R317). -/
def State.landHost (s : State) (p : Packet) : State :=
  if p.words.any (·.p) then (s.poisonSenders p.rows).loseRows p.rows
  else (s.emit (.hostRow p.part.toNat p.daddr.toNat (Packet.bytes p))).ackRows p.rows

/-- ROW_LANDING (08 R198, R199): a packet is delivered, in transit to the unit that TGTK names or at a stash endpoint of its router. -/
def execRowLanding (s : State) : Host.Outcome State Fault Refusal :=
  match s.ev with
  | .rowLanding r ep p =>
    .next (if p.xt then
      match p.tgtk.toNat with
      | 0 => s.arrive p.tgt.toNat 4 { p with xt := false }
      | 1 => s.landHome r p
      | 2 => s.landFabric p
      | 3 => s.landLink r p
      | 4 => s.landHost p
      | _ => s
    else s.landStash r ep p)
  | _ => .next s

/-! ## Acknowledgements -/

/-- What waits for rows to end is tried again: FENCEs of system scope, DRAINs, STEPs, a ring's write-back, the launch. -/
def State.afterRow (s : State) (x : SendRow) : State :=
  let s := s.updCore x.core fun k =>
    { k with ycmds := k.ycmds.filter fun y => !(y.id == x.cmd && (match y.kind with
      | .chsend _ => true
      | .chrecv _ | .chstart _ | .chabort _ | .semadd _ _ | .drain | .step _ => false)) }
  let s := (s.afterCommand x.core).forEach (match s.core? x.core with | none => [] | some k => k.chans) fun s kv =>
    match kv.2.bind (·.run) with
    | none => s
    | some r => if r.id = x.cmd then s.postOnce 0 (.ringInstanceCompletion x.core kv.1) else s
  let s := s.forEach (match s.core? x.core with | none => [] | some k => k.ycmds) fun s y =>
    match y.kind with
    | .drain => s.postOnce 0 (.drainStart x.core y.id)
    | .chsend _ | .chrecv _ | .chstart _ | .chabort _ | .semadd _ _ | .step _ => s
  (s.postOnce 0 (.stepBarrierOpen x.launch (clusterOf x.core) false)).postOnce 0 (.launchCompletion x.launch)

/-- LANDING_ACKNOWLEDGEMENT (08 R199): with the last of its copies a row has landed, and the send signals + SI. -/
def execLandingAcknowledgement (s : State) : Host.Outcome State Fault Refusal :=
  match s.ev with
  | .landingAcknowledgement i =>
    .next (match s.row? i with
      | none => s
      | some x =>
        if 1 < x.copies then { s with rows := Tab.set none s.rows i (some { x with copies := x.copies - 1 }) }
        else if x.lost then { s with rows := Tab.set none s.rows i none }
        else ({ s with rows := Tab.set none s.rows i none }.post1 x.core x.ctx x.sync).afterRow x)
  | _ => .next s

/-- The ring whose write-back a row belongs to has lost a block (09 R220). -/
def Core.loseBlock (k : Core) (id : Nat) : Core :=
  { k with chans := k.chans.map fun kv => (kv.1, kv.2.map fun h => { h with run := h.run.map fun r =>
      if r.id = id then { r with wbLost := true } else r }) }

/-- LOSS_ACKNOWLEDGEMENT (08 R187, R209, R210): the row ends lost: the error flag, nothing added, and every later DRAIN carries it. Copies of it that are
still on their way keep what a port must know that drops them (12 R301). -/
def execLossAcknowledgement (s : State) : Host.Outcome State Fault Refusal :=
  match s.ev with
  | .lossAcknowledgement i =>
    .next (match s.row? i with
      | none => s
      | some x =>
        let y := if x.copies ≤ 1 then none else some { x with copies := x.copies - 1, lost := true }
        let s := { s with rows := Tab.set none s.rows i y }
        if x.lost then s
        else
        let s := s.postErr x.core x.sync
        ((s.updCore x.core fun k => k.loseBlock x.cmd).updCtx x.core x.ctx fun c => { c with lost := true }).afterRow x)
  | _ => .next s

/-! ## Sending rows (08 R181, R200, 18 R473) -/

/-- A packet of a core with the fields the entering port stamps. -/
def corePacket (part core flow seq rank : Nat) (ws : List PWord) (rows : List Nat) : Packet where
  flow := BitVec.ofNat 12 flow
  part := BitVec.ofNat 3 part
  wide := false
  seq := BitVec.ofNat 16 seq
  src := BitVec.ofNat 9 core
  srck := 0
  vc := 0
  xt := false
  rank := BitVec.ofNat 16 rank
  inst := 0
  tgt := 0
  tgtk := 0
  daddr := 0
  pa := 0
  ed := 0
  rng := none
  ben := []
  desc := 0
  words := ws
  rows := rows

/-- Whether the flow entries lead what enters routers on ports under flows to the host port or to a link port (11 R271): the places still to be looked
at, and those seen. -/
def State.leadsOut (s : State) : Nat → List (Nat × Nat × Nat) → List (Nat × Nat × Nat) → Bool
  | 0, _, _ => true
  | _ + 1, [], _ => false
  | fuel + 1, x :: l, seen =>
    if seen.contains x then s.leadsOut fuel l seen
    else
      match s.router? x.1 with
      | none => s.leadsOut fuel l seen
      | some t =>
        match t.entries.find? fun e => e.getLsbD 0 && bitsOf e 1 3 == x.2.1 && bitsOf e 4 12 == x.2.2 with
        | none => s.leadsOut fuel l seen
        | some e =>
          let dk := Rec128.dk (Tab.get 0 t.eps (bitsOf e 80 6))
          if e.getLsbD 26 && (dk == 4 || dk == 5) then true
          else
            s.leadsOut fuel ((Rec128.ports e).filterMap (fun i => (meshNext x.1 i).map fun r => (r, oppositePort i, Rec128.oflow e)) ++ l) (x :: seen)

/-- A row of a flow send enters the local port of its core's router. -/
def State.sendRow (s : State) (c ctx cmd : Nat) (sync : Sync) (flow seq rank : Nat) (ws : List PWord) : State :=
  let l := ((s.core? c).bind (·.launch)).getD 0
  let i := s.nextRow
  let s := { s with nextRow := i + 1, rows := Tab.set none s.rows i (some ⟨c, ctx, l, sync, 1, ws.any (·.p), cmd, s.leadsOut (2 ^ 20) [(c, 4, flow)] [], false⟩) }
  s.post 0 (.packetArrival c 4 (corePacket (s.partOf c) c flow seq rank ws [i]))

/-- FLOW_ROW_SEND: the next row of a QRCOPY enters once its source has been read (08 R200, 18 R473); after the last, the command is complete. -/
def execFlowRowSend (s : State) : Host.Outcome State Fault Refusal :=
  match s.ev with
  | .flowRowSend c id =>
    .next (match (s.core? c).bind fun k => k.qcmd id with
      | none => s
      | some q =>
        match q.kind with
        | .qrcopy a l h =>
          if !q.started || q.faulted then s
          else
            let n := l.toNat
            let len := min 256 (n - q.prog)
            (match s.readWords c false (a.toNat + q.prog) (len / 4) with
              | (s, .got ws) =>
                let ws := ws.map fun w => { w with p := w.p || q.psn }
                let s := s.sendRow c q.ctx id q.sync (bitsOf h 32 12) ((bitsOf h 0 16 + q.prog / 256) % 65536) (bitsOf h 16 16) ws
                let s := s.updCore c fun k => k.updQ id fun q => { q with prog := q.prog + len }
                if n ≤ q.prog + len then (s.updCore c fun k => k.dropQ id).afterCommand c else s.post 1 (.flowRowSend c id)
              | (s, .fault cause addr) => s.qFault c q 15 cause addr
              | (s, .wait) => s
              | (s, .poison _) => s)
        | .qset _ _ | .strm _ _ _ | .qcopy _ _ _ | .qccopy _ _ _ | .gcfg _ _ _ | .grun _ _ _ | .qsave _ | .stash _ _ _ => s)
  | _ => .next s

end Sys2Proof.Machine
end

