-- ==== Sys2Proof/Machine/Channels.lean ====
section
/-! DEFINITION. The Y slot beside the atomics: semaphores, FENCE, DRAIN, STEP, channels, TSTART, RDTIME (09, 11 R272 to R280, 16 R363 to R368, 18 R493 to
R501, 19 R512 to R516), with the events that belong to them. Rings stand in their own file. -/

namespace Sys2Proof.Machine

/-! ## Semaphores (18 R495, 12 R289, R290) -/

/-- SEMSET. -/
def semsetOp (s : State) (g : Guard) (sem imm : Nat) : Host.Outcome State Fault Refusal :=
  slotOp s fun _ _ _ => if Guard.ok g .pk s.bun.old then s.putSem s.cur sem ⟨BitVec.ofNat 16 imm, false, false⟩ else s

/-- SEMSET (18 R495): Sets a semaphore's value from IMM11 and clears its flags. -/
def execSemset (o : OpSem) (s : State) : Host.Outcome State Fault Refusal := semsetOp s o.g o.sem.toNat o.imm.toNat
/-- SEMSET_64 (18 R495): SEMSET with an IMM16 extension word. -/
def execSemset64 (o : OpSem64) (s : State) : Host.Outcome State Fault Refusal := semsetOp s o.g o.sem.toNat o.imm.toNat

/-- SEMWAIT. -/
def semwaitOp (s : State) (g : Guard) (sem thr : Nat) : Host.Outcome State Fault Refusal :=
  guarded s g .pk fun k _ x => if x.sat.contains .y || (k.sem sem).met thr then .ok s s else .wait (s.arm .y sem thr false)

/-- SEMWAIT (18 R495): Blocks the bundle until a semaphore reaches the IMM11 threshold or has ERR set. -/
def execSemwait (o : OpSem) (s : State) : Host.Outcome State Fault Refusal := semwaitOp s o.g o.sem.toNat o.imm.toNat
/-- SEMWAIT_64 (18 R495): SEMWAIT with an IMM16 threshold. -/
def execSemwait64 (o : OpSem64) (s : State) : Host.Outcome State Fault Refusal := semwaitOp s o.g o.sem.toNat o.imm.toNat

/-! ## The channel command queue (09 R215, R216) -/

/-- ILLEGAL_OP of a Y-slot command, TRAPINFO[9] = 1. -/
def yIllegal (s : State) (op : Nat) : Try State := .trap s 0x01 (illegalInfo 6 op true)

/-- What the issue of a channel command waits for: its wait, then room among those that have not started (03 R58). -/
def State.yReady (s : State) (k : Core) (w : Sync) (x : Ctx) : Try State :=
  (s.syncWait k x .y w).bind fun s _ => if 16 ≤ (k.ycmds.filter fun y => !y.started).length then .wait s.stall else .ok s s

/-- A command enters the queue. -/
def State.yEnter (s : State) (k : Core) (n : Nat) (i : Instr) (w : Sync) (kind : YKind) (delay : Nat) (e : Nat → Event) : Try State :=
  let id := k.nextCmd
  let y : YCmd := ⟨id, n, kind, w, engineWord i, false, false, none, false, false, Instr.guardPsn s.bun.old i, false, 0⟩
  let s := (s.updCore s.cur fun k => { k with nextCmd := k.nextCmd + 1, ycmds := k.ycmds ++ [y] }).post delay (e id)
  .ok s s

/-- A command that has passed its checks enters the queue as soon as it may. -/
def State.yIssue (s : State) (k : Core) (n : Nat) (i : Instr) (w : Sync) (kind : YKind) (x : Ctx) (delay : Nat) (e : Nat → Event) : Try State :=
  (s.yReady k w x).bind fun s _ => s.yEnter k n i w kind delay e

/-- The channel that a command names. -/
def YKind.channel : YKind → Option Nat
  | .chsend ch => some ch
  | .chrecv ch => some ch
  | .chstart ch => some ch
  | .chabort ch => some ch
  | .semadd _ _ => none
  | .drain => none
  | .step _ => none

/-- A channel of a core. -/
def Core.chan? (k : Core) (ch : Nat) : Option Chan := Tab.get none k.chans ch
/-- A channel changed. -/
def Core.updChan (k : Core) (ch : Nat) (f : Chan → Chan) : Core :=
  match k.chan? ch with
  | none => k
  | some h => { k with chans := Tab.set none k.chans ch (some (f h)) }
/-- A channel command changed. -/
def Core.updY (k : Core) (id : Nat) (f : YCmd → YCmd) : Core := { k with ycmds := k.ycmds.map fun y => if y.id = id then f y else y }
/-- The queue without a command. -/
def Core.dropY (k : Core) (id : Nat) : Core := { k with ycmds := k.ycmds.filter fun y => y.id ≠ id }
/-- A channel command. -/
def Core.ycmd (k : Core) (id : Nat) : Option YCmd := k.ycmds.find? fun y => y.id = id

/-- FLOW of a channel. -/
def Chan.flow (h : Chan) : Nat := bitsOf h.entry 20 12
/-- EWM1 + 1. -/
def Chan.words (h : Chan) : Nat := bitsOf h.entry 6 6 + 1
/-- DM1 + 1. -/
def Chan.depth (h : Chan) : Nat := bitsOf h.entry 12 8 + 1
/-- BUF. -/
def Chan.buf (h : Chan) : Nat := bitsOf h.entry 64 64
/-- RING. -/
def Chan.ring (h : Chan) : Nat := bitsOf h.entry 56 4
/-- Whether the type is .bf16. -/
def Chan.bf16 (h : Chan) : Bool := bitsOf h.entry 2 4 == 9
/-- LEN × 256 bytes. -/
def Chan.bytes (h : Chan) : Nat := bitsOf h.entry 128 32 * 256

/-- The next instance number (09 R222). -/
def nextInst (i : Nat) : Nat := if 255 ≤ i then 1 else i + 1

/-- Whether a channel exists and is of a kind. -/
def Core.chanKind (k : Core) (ch kind : Nat) : Bool :=
  match k.chan? ch with
  | none => false
  | some h => h.kind == kind

/-- The committed ring of a channel, where it is valid (09 R219). -/
def State.ringOf (s : State) (c : Nat) (h : Chan) : Option Ring :=
  (s.part? (s.partOf c)).bind fun p => if p.badRings.getLsbD h.ring then none else Tab.get none p.rings h.ring

/-- The bytes of SRAM that an instance reserves: L + 2W (09 R221). -/
def Chan.reserve (h : Chan) (n : Nat) : Nat := h.bytes + 2 * (if h.bf16 then 2 * (h.bytes / n) else h.bytes / n)

/-- The size rules of 09 R221. -/
def Chan.fits (h : Chan) (n : Nat) : Bool :=
  h.bytes % (256 * n) == 0 && decide (h.bytes / n ≤ 2 ^ 20) && decide (h.reserve n ≤ 7 * 2 ^ 20)

/-- The state that a ring channel will hold once every queued command that names it has started (16 R367). -/
def Core.ringAhead (k : Core) (ch st : Nat) : Nat :=
  (k.ycmds.filter fun y => !y.started && YKind.channel y.kind == some ch).foldl (fun st y =>
    match y.kind with
    | .chstart _ => if st = 1 then 2 else if st = 2 then 3 else st
    | .chabort _ => 4
    | .chsend _ | .chrecv _ | .semadd _ _ | .drain | .step _ => st) st

/-- CHSEND, CHRECV and CHABORT. -/
def channelOp (s : State) (o : OpCh) (w : Sync) (op kind : Nat) (i : Instr) (y : YKind) : Host.Outcome State Fault Refusal :=
  guarded s o.g .pk fun k n x =>
    if !k.chanKind o.ch.toNat kind then yIllegal s op else s.yIssue k n i w y x 0 fun _ => .channelCommandStart s.cur

/-- CHSEND (16 R365): Sends one channel element as a flow row. -/
def execChsend (o : OpCh) (s : State) : Host.Outcome State Fault Refusal := channelOp s o Sync.none 0x10 1 (.chsend o) (.chsend o.ch.toNat)
/-- CHSEND_64 (16 R365): CHSEND with a synchronisation word. -/
def execChsend64 (o : OpCh) (w : Sync) (s : State) : Host.Outcome State Fault Refusal := channelOp s o w 0x10 1 (.chsend o) (.chsend o.ch.toNat)
/-- CHRECV (16 R365): Frees the previous slot with a credit and consumes the next element. -/
def execChrecv (o : OpCh) (s : State) : Host.Outcome State Fault Refusal := channelOp s o Sync.none 0x11 2 (.chrecv o) (.chrecv o.ch.toNat)
/-- CHRECV_64 (16 R365): CHRECV with a synchronisation word. -/
def execChrecv64 (o : OpCh) (w : Sync) (s : State) : Host.Outcome State Fault Refusal := channelOp s o w 0x11 2 (.chrecv o) (.chrecv o.ch.toNat)
/-- CHABORT (09 R226): Aborts a ring channel and sends tokens both ways. -/
def execChabort (o : OpCh) (s : State) : Host.Outcome State Fault Refusal := channelOp s o Sync.none 0x13 3 (.chabort o) (.chabort o.ch.toNat)
/-- CHABORT_64 (09 R226): CHABORT with a synchronisation word. -/
def execChabort64 (o : OpCh) (w : Sync) (s : State) : Host.Outcome State Fault Refusal := channelOp s o w 0x13 3 (.chabort o) (.chabort o.ch.toNat)

/-- CHSTART: its checks in the order of 16 R366. Those that look at what the ring and the channel are then (09 R221, R222, 16 R367) are made at the issue: where
its own wait is met (03 R58) and the queue has room (DEDUCED, log entry 106). -/
def chstartOp (s : State) (o : OpCh) (w : Sync) : Host.Outcome State Fault Refusal :=
  guarded s o.g .pk fun k n x =>
    let ch := o.ch.toNat
    match k.chan? ch with
    | none => yIllegal s 0x12
    | some h =>
      if h.kind ≠ 3 then yIllegal s 0x12
      else
        (s.yReady k w x).bind fun s _ =>
          match s.ringOf s.cur h with
          | none => yIllegal s 0x12
          | some r =>
            if !h.fits (r.nm1 + 1) then yIllegal s 0x12
            else
              let st := k.ringAhead ch h.rst
              if st = 3 then .trap s 0x0D (BitVec.ofNat 64 ch)
              else if st = 4 then .trap s 0x0E (BitVec.ofNat 64 ch)
              else s.yEnter k n (.chstart o) w (.chstart ch) 0 fun _ => .channelCommandStart s.cur

/-- CHSTART (16 R365): Starts or queues a ring collective instance. -/
def execChstart (o : OpCh) (s : State) : Host.Outcome State Fault Refusal := chstartOp s o Sync.none
/-- CHSTART_64 (16 R365): CHSTART with a synchronisation word. -/
def execChstart64 (o : OpCh) (w : Sync) (s : State) : Host.Outcome State Fault Refusal := chstartOp s o w

/-- SEMADD (18 R495). -/
def semaddOp (s : State) (o : OpSem) (w : Sync) : Host.Outcome State Fault Refusal :=
  guarded s o.g .pk fun k n x =>
    s.yIssue k n (.semadd o) w (.semadd o.sem.toNat o.imm.toNat) x 1 fun id => .semaddApply s.cur id

/-- SEMADD (18 R495): Engine command that adds IMM11 to a semaphore. -/
def execSemadd (o : OpSem) (s : State) : Host.Outcome State Fault Refusal := semaddOp s o Sync.none
/-- SEMADD_64 (18 R495): SEMADD with a synchronisation word. -/
def execSemadd64 (o : OpSem) (w : Sync) (s : State) : Host.Outcome State Fault Refusal := semaddOp s o w

/-- DRAIN (11 R274). -/
def drainOp (s : State) (o : OpN) (w : Sync) : Host.Outcome State Fault Refusal :=
  guarded s o.g .pk fun k n x => s.yIssue k n (.drain o) w .drain x 0 fun id => .drainStart s.cur id

/-- DRAIN (11 R274): Engine command that waits for the context's remote writes to end. -/
def execDrain (o : OpN) (s : State) : Host.Outcome State Fault Refusal := drainOp s o Sync.none
/-- DRAIN_64 (11 R274): DRAIN with a synchronisation word. -/
def execDrain64 (o : OpN) (w : Sync) (s : State) : Host.Outcome State Fault Refusal := drainOp s o w

/-- STEP (18 R501). -/
def stepOp (s : State) (o : OpStep) (w : Sync) : Host.Outcome State Fault Refusal :=
  guarded s o.g .pk fun k n x => s.yIssue k n (.step o) w (.step o.launch) x 0 fun _ => .channelCommandStart s.cur

/-- STEP (18 R501): Arrives at the superstep barrier of a scope. -/
def execStep (o : OpStep) (s : State) : Host.Outcome State Fault Refusal := stepOp s o Sync.none
/-- STEP_64 (18 R501): STEP with a synchronisation word. -/
def execStep64 (o : OpStep) (w : Sync) (s : State) : Host.Outcome State Fault Refusal := stepOp s o w

/-- A channel command completes and signals, with the error flag where `err`. -/
def State.yDone (s : State) (c : Nat) (y : YCmd) (err : Bool) : State :=
  let s := s.updCore c fun k => k.dropY y.id
  (if err then s.postErr c y.sync else s.post1 c y.ctx y.sync).afterCommand c

/-! ## SEMADD, DRAIN and STEP -/

/-- SEMADD_APPLY (18 R495): the model performs I-path and V-path accesses at issue, so they have performed. -/
def execSemaddApply (s : State) : Host.Outcome State Fault Refusal :=
  match s.ev with
  | .semaddApply c id =>
    .next (match (s.core? c).bind fun k => k.ycmd id with
      | none => s
      | some y =>
        match y.kind with
        | .semadd sem imm =>
          let si := y.sync.si.toNat
          let ss := y.sync.ss.toNat
          let s := s.updCore c fun k => k.dropY id
          let s :=
            if si ≠ 0 && ss = sem then s.signal c sem (imm + si) y.ctx
            else
              let s := if imm = 0 then s else s.signal c sem imm y.ctx
              s.post1 c y.ctx y.sync
          s.afterCommand c
        | .chsend _ | .chrecv _ | .chstart _ | .chabort _ | .drain | .step _ => s)
  | _ => .next s

/-- Whether a command is a DRAIN or a STEP. -/
def YKind.barrier : YKind → Bool
  | .drain => true
  | .step _ => true
  | .chsend _ | .chrecv _ | .chstart _ | .chabort _ | .semadd _ _ => false

/-- Whether a command is a STEP of a scope. -/
def YKind.isStep (launch : Bool) : YKind → Bool
  | .step l => l == launch
  | .chsend _ | .chrecv _ | .chstart _ | .chabort _ | .semadd _ _ | .drain => false

/-- Whether a command sends rows. -/
def YKind.sends : YKind → Bool
  | .chsend _ => true
  | .chstart _ => true
  | .chrecv _ | .chabort _ | .semadd _ _ | .drain | .step _ => false

/-- Whether every earlier DRAIN and STEP of a command's context has started (09 R216). Those of different contexts do not wait for one another (DEDUCED,
log entry 93: 'in issue order among themselves' is read of one context, whose barriers R216 then names). -/
def Core.barriersStarted (k : Core) (n id : Nat) : Bool :=
  k.ycmds.all fun y => !(YKind.barrier y.kind && y.ctx == n && decide (y.id < id)) || y.started

/-- Whether every row that a context sends by commands before a number has ended: none is on its way and none is still to be sent. -/
def State.rowsEnded (s : State) (c n id : Nat) : Bool :=
  (s.openRows fun r => r.core == c && r.ctx == n && decide (r.cmd < id)).isEmpty
    && (match s.core? c with
      | none => true
      | some k =>
        (k.qcmds.all fun q => !(QKind.isRcopy q.kind && q.ctx == n && decide (q.id < id)))
          && (k.ycmds.all fun y => !(YKind.sends y.kind && y.ctx == n && decide (y.id < id)))
          && k.chans.all fun kv =>
            match kv.2 with
            | none => true
            | some h =>
              (match h.run with | none => true | some r => !(r.ctx == n && decide (r.id < id)))
                && (match h.pend with | none => true | some y => !(y.ctx == n && decide (y.id < id))))

/-- DRAIN_START (11 R274, 08 R210). -/
def execDrainStart (s : State) : Host.Outcome State Fault Refusal :=
  match s.ev with
  | .drainStart c id =>
    .next (match (s.core? c).bind fun k => (k.ycmd id).map fun y => (k, y) with
      | none => s
      | some (k, y) =>
        match y.kind with
        | .drain =>
          if k.barriersStarted y.ctx id && s.rowsEnded c y.ctx id then
            let lost := match k.ctx? y.ctx with | none => false | some x => x.lost
            let s := s.yDone c y lost
            s.forEach (match s.core? c with | none => [] | some k => k.ycmds) fun s z =>
              match z.kind with
              | .drain => s.postOnce 0 (.drainStart c z.id)
              | .chsend _ | .chrecv _ | .chstart _ | .chabort _ | .semadd _ _ | .step _ => s
          else s
        | .chsend _ | .chrecv _ | .chstart _ | .chabort _ | .semadd _ _ | .step _ => s)
  | _ => .next s

/-- The scope of the halves of a STEP (11 R280). -/
def stepScope (launch : Bool) : Nat := if launch then 4 else 2

/-- A STEP goes on: after the earlier DRAINs and STEPs have started and the previous STEP of its scope has opened comes its release half, once the earlier
commands' accesses to local memory are complete; then it starts, which is its arrival (09 R235, 11 R280). Until then it keeps its queue entry (09 R216). -/
def State.stepOn (s : State) (c : Nat) (y : YCmd) (launch : Bool) : State :=
  match s.core? c with
  | none => s
  | some k =>
    if y.arrived || y.held then s
    else
      let free := k.barriersStarted y.ctx y.id
        && !(k.ycmds.any fun z => YKind.isStep launch z.kind && z.ctx == y.ctx && decide (z.id < y.id))
      if !y.started && !free then s
      else
        let busy := (k.live y.ctx).any fun z => decide (z.1 < y.id) && meets z.2 0x3F
        let put := fun (s : State) (r : Release) => s.updCore c fun k => k.updY y.id fun y => { y with rel := some r }
        match y.rel with
        | none =>
          if busy then s
          else
            match s.startRelease c (stepScope launch) with
            | (s, r) => (put s r).postOnce 0 (.channelCommandStart c)
        | some r =>
          match s.pushRelease r with
          | (s, r) =>
          if !s.released r then put s r
          else
            -- what was stored while the release half ran was made before the arrival too (11 R280)
            let s := (s.releaseNow c (stepScope launch)).updCore c fun k => k.updY y.id fun y => { y with started := true, arrived := true, mark := s.nextRow }
            match k.launch with
            | none => s
            | some l => s.postOnce 0 (.stepBarrierOpen l (clusterOf c) launch)

/-- The cores of a scope: a cluster's, or all of a launch. -/
def State.scopeCores (s : State) (l cl : Nat) (whole : Bool) : List Core :=
  s.cores.filterMap fun kv =>
    match kv.2 with
    | none => none
    | some k => if k.launch = some l && (whole || clusterOf k.id = cl) then some k else none

/-- Whether the barrier at hand of a scope can open (09 R235; a STEP starts only after its context's previous one there has opened, so all STEPs that
have arrived belong to it): every participant has arrived, and every row it sent before its arrival, by whichever command, has ended; a context that
has retired or been killed counts as arrived. -/
def State.barrierReady (s : State) (ks : List Core) (whole : Bool) : Bool :=
  (ks.any fun k => k.ycmds.any fun y => YKind.isStep whole y.kind && y.arrived && !y.held)
    && ks.all fun k => (List.range 4).all fun n =>
      match k.ctx? n with
      | none => true
      | some x =>
        match k.ycmds.find? fun y => YKind.isStep whole y.kind && y.arrived && !y.held && y.ctx == n with
        | some y => s.rowsEnded k.id n y.id && (s.openRows fun r => r.core == k.id && r.ctx == n).all fun i => decide (y.mark ≤ i)
        | none => x.st == .empty && !(k.ycmds.any fun y => YKind.isStep whole y.kind && y.ctx == n) && s.rowsEnded k.id n k.nextCmd

/-- STEP_BARRIER_OPEN (09 R235, 11 R280): every participant's STEP takes its acquire half and signals. -/
def execStepBarrierOpen (s : State) : Host.Outcome State Fault Refusal :=
  match s.ev with
  | .stepBarrierOpen l cl whole =>
    .next (match s.launch? l with
      | none => s
      | some _ =>
        let ks := s.scopeCores l cl whole
        let s := if whole then s else s.postOnce 0 (.stepBarrierOpen l cl true)
        if !s.barrierReady ks whole then s
        else
          s.forEach ks fun s k =>
            s.forEach (k.ycmds.filter fun y => YKind.isStep whole y.kind && y.arrived && !y.held) fun s y =>
              (s.acquireBy k.id y.ctx (stepScope whole)).yDone k.id y false)
  | _ => .next s

/-! ## Point-to-point channels (09 R217, R218) -/

/-- The core at a logical core index of a launch (02 R24, R25). -/
def Launch.coreOf (q : Launch) (i : Nat) : Nat :=
  let t := i % 4
  let mx := q.ox + i / 4 % q.cw
  let my := q.oy + i / 4 / q.cw
  mx / 8 * 256 + (2 * my + t / 2) * 16 + 2 * (mx % 8) + t % 2

/-- The logical core index of a core, from its LPOS. -/
def Core.logical (k : Core) : Nat :=
  (bitsOf k.lpos 4 3 * (bitsOf k.lpos 9 4 + 1) + bitsOf k.lpos 0 4) * 4 + bitsOf k.lpos 7 2

/-- A CHSEND that has started sends its row once its slot has been read. -/
def State.chsendOn (s : State) (c : Nat) (y : YCmd) (h : Chan) (ch : Nat) : State :=
  match s.core? c with
  | none => s
  | some k =>
    let slot := h.sent % h.depth
    match s.readWords c false (h.buf + 256 * slot) h.words with
    | (s, .got ws) =>
      let ws := ws.map fun w => { w with p := w.p || y.psn }
      let s := s.sendRow c y.ctx y.id y.sync h.flow slot k.logical ws
      s.updCore c fun k => (k.updChan ch fun h => { h with sent := h.sent + 1 }).updY y.id fun y => { y with arrived := true }
    | (s, .fault cause addr) =>
      let s := s.reportFault c y.ctx ⟨15, cause, addr, 4, y.id⟩
      -- no routine can resume it: its row counts as lost, and its signal still comes (16 R368, log entry 53)
      if s.orphan c y.ctx then
        (match k.launch with
          | none => s.yDone c y true
          | some l => (s.yDone c y true).postOnce 0 (.stepBarrierOpen l (clusterOf c) false))
      else s.updCore c fun k => k.updY y.id fun y => { y with faulted := true }
    | (s, .wait) => s
    | (s, .poison _) => s

/-- A credit token goes to the peer of a receive channel. -/
def State.sendCredit (s : State) (c : Nat) (h : Chan) : State :=
  match ((s.core? c).bind (·.launch)).bind s.launch? with
  | none => s
  | some q => s.postOpen 1 (.creditTokenArrival (q.coreOf (bitsOf h.entry 32 16)) (bitsOf h.entry 48 6))

/-- CREDIT_TOKEN_ARRIVAL (09 R217). -/
def execCreditTokenArrival (s : State) : Host.Outcome State Fault Refusal :=
  match s.ev with
  | .creditTokenArrival c ch =>
    .next ((s.updCore c fun k => k.updChan ch fun h => { h with cred := h.cred + 1 }).postOnce 0 (.channelCommandStart c))
  | _ => .next s

/-- CHRECV_COMPLETION (09 R217): the element at hand has landed or been lost. -/
def execChrecvCompletion (s : State) : Host.Outcome State Fault Refusal :=
  match s.ev with
  | .chrecvCompletion c ch =>
    .next (match (s.core? c).bind fun k => (k.chan? ch).map fun h => (k, h) with
      | none => s
      | some (k, h) =>
        match k.ycmds.find? fun y => y.started && !y.held && (match y.kind with
          | .chrecv n => n == ch
          | .chsend _ | .chstart _ | .chabort _ | .semadd _ _ | .drain | .step _ => false) with
        | none => s
        | some y =>
          let i := h.next % h.depth
          if h.map.getLsbD i then
            (s.updCore c fun k => k.updChan ch fun h =>
              { h with map := setBits h.map i 1 0, lostMap := setBits h.lostMap i 1 0, next := h.next + 1 }).yDone c y (h.lostMap.getLsbD i)
          else s)
  | _ => .next s

/-! ## FENCE (11 R272, R273) -/

/-- FENCE. The commands of its own bundle's other slots do not precede it (11 R265). -/
def execFence (o : OpFence) (s : State) : Host.Outcome State Fault Refusal :=
  guarded s o.g .pk fun k n _ =>
    let sc := fenceScopes o.pred o.succ o.scope.toNat
    let mask := o.pred.toNat
    if o.pred = 0 && o.succ = 0 then .ok s s
    else if o.succ.getLsbD 0 || o.succ.getLsbD 1 then
      (if o.pred = 0 then .ok s s else s.releaseAfter (fun k n => k.pending n mask) sc.1 : Try State).bind fun s _ =>
        let s := s.acquireBy s.cur n sc.2
        .ok s s
    else
      let f : FenceWait := ⟨k.nextCmd, o.pred, o.succ, (k.pending n mask).filter fun i => decide (i < s.bun.cmd0), none, sc.1, sc.2⟩
      let s := (s.updCore s.cur fun k => { k with nextCmd := k.nextCmd + 1 }).updCtx s.cur n fun x => { x with fences := x.fences ++ [f] }
      let s := s.tryFences s.cur
      .ok s s

/-! ## Time (09 R233, R234, 18 R483, 19 R514) -/

/-- RDTIME. -/
def execRdtime (o : OpRdtime) (s : State) : Host.Outcome State Fault Refusal :=
  slotOp s fun _ _ _ =>
    if Guard.ok o.g .pk s.bun.old then
      s.writeXY o.fs o.d ⟨BitVec.ofNat 64 s.ticks, Guard.psn o.g .pk s.bun.old⟩ 4
    else s

/-- A gate that is not armed. -/
def Core.freeGate (k : Core) : Option Nat := (List.range 8).find? fun i => (Tab.get none k.gates i).isNone

/-- A gate is armed; it fires once TIME has reached its T. -/
def State.armGate (s : State) (c i : Nat) (g : Gate) : State :=
  (s.updCore c fun k => { k with gates := Tab.set none k.gates i (some g) }).post (s.cyclesOf (g.t.toNat - s.ticks)) (.timeGateFire c i)

/-- TSTART. -/
def execTstart (o : OpTstart) (s : State) : Host.Outcome State Fault Refusal :=
  guarded s o.g .pk fun k n _ =>
    let t := s.bun.old.getXY o.fs o.a.toNat
    if t.p then .kill s 1 0
    else
      match k.freeGate with
      | none => .wait s.stall
      | some i =>
        let s := s.armGate s.cur i ⟨t.v, o.sem.toNat, o.inc.toNat, n, false⟩
        .ok s s

/-- TIME_GATE_FIRE. A gate whose T has not been reached (the clock has changed) goes on waiting. -/
def execTimeGateFire (s : State) : Host.Outcome State Fault Refusal :=
  match s.ev with
  | .timeGateFire c i =>
    .next (match (s.core? c).bind fun k => Tab.get none k.gates i with
      | none => s
      | some g =>
        if g.stopped then s
        else if s.ticks < g.t.toNat then s.postOnce (s.cyclesOf (g.t.toNat - s.ticks)) (.timeGateFire c i)
        else (s.updCore c fun k => { k with gates := Tab.set none k.gates i none }).signal c g.sem g.inc g.ctx)
  | _ => .next s

end Sys2Proof.Machine
end

