-- ==== Sys2Proof/Machine/Fabric.lean ====
section
/-! DEFINITION. Fabric slices (07 R178 to R180): invocation records, streams at the home slice, runs cycle by cycle, replies. -/

namespace Sys2Proof.Machine

/-! ## Memory, as a fabric slice reaches it -/

/-- The access of an invocation: the page tables and domains of the partition that sent the flow (07 R179), on behalf of its core's launch (13 R315). -/
def State.fabricAccess (s : State) (p : Packet) (ed va : Nat) : Access :=
  ⟨p.part.toNat, ed, if p.srck = 0 then (s.core? p.src.toNat).bind (·.launch) else none, s.rangeAt p.part.toNat va⟩

/-- A read of `n` bytes at home; `own`: the line must be homed in slice `sl` (07 R178). -/
def State.fabricRead (s : State) (sl : Nat) (own : Bool) (p : Packet) (va n : Nat) : State × Got (Nat × Bool) :=
  if 2 ^ 52 < va + n then (s, .fault 0x07 va)
  else
    match s.translateHome p.part.toNat va .read with
    | (s, .fault cause _) => (s, .fault cause va)
    | (s, .leaf l) =>
      if own && s.homeSlice l.pa ≠ sl then (s, .fault 0x08 va)
      else
        match s.homeRead (s.fabricAccess p l.ed va) l.pa n with
        | (s, v, q) => (s, .got (v, q || l.psn))

/-- A write of `n` bytes at home to a line of the slice. -/
def State.fabricWrite (s : State) (sl : Nat) (p : Packet) (va n val : Nat) (psn : Bool) : State × Got Unit :=
  if 2 ^ 52 < va + n then (s, .fault 0x07 va)
  else
    match s.translateHome p.part.toNat va .write with
    | (s, .fault cause _) => (s, .fault cause va)
    | (s, .leaf l) =>
      if s.homeSlice l.pa ≠ sl then (s, .fault 0x08 va)
      else (s.homePut (s.fabricAccess p l.ed va) l.pa n val psn, .got ())

/-- Bytes read one after another. -/
def State.fabricBytes (s : State) (sl : Nat) (p : Packet) (va : Nat) : Nat → State × Got (Nat × Bool)
  | 0 => (s, .got (0, false))
  | n + 1 =>
    match s.fabricRead sl true p va 1 with
    | (s, .got (v, x)) =>
      (match s.fabricBytes sl p (va + 1) n with
        | (s, .got (w, y)) => (s, .got (v + 256 * w, x || y))
        | r => r)
    | r => r

/-- Bytes written one after another. -/
def State.fabricPuts (s : State) (sl : Nat) (p : Packet) (va val : Nat) (psn : Bool) : Nat → State × Got Unit
  | 0 => (s, .got ())
  | n + 1 =>
    match s.fabricWrite sl p va 1 val psn with
    | (s, .got _) => s.fabricPuts sl p (va + 1) (val / 256) psn n
    | r => r

/-- Words of an image or a descriptor: these may stand in any slice. -/
def State.fabricWords (s : State) (sl : Nat) (p : Packet) (va : Nat) : Nat → State × Got (List PWord)
  | 0 => (s, .got [])
  | n + 1 =>
    match s.fabricRead sl false p va 4 with
    | (s, .got (v, x)) =>
      (match s.fabricWords sl p (va + 4) n with
        | (s, .got ws) => (s, .got (⟨BitVec.ofNat 32 v, x⟩ :: ws))
        | r => r)
    | (s, .wait) => (s, .wait)
    | (s, .fault c a) => (s, .fault c a)
    | (s, .poison a) => (s, .poison a)

/-! ## Streams -/

/-- The stream of a descriptor number. -/
def FRun.strm (r : FRun) (j : Nat) : Option FStrm := Tab.get none r.strms j
/-- A run with a stream replaced. -/
def FRun.setStrm (r : FRun) (j : Nat) (t : FStrm) : FRun := { r with strms := Tab.set none r.strms j (some t) }

/-- A stored element of a stream. A misaligned one ends the invocation with status 0x05, the code of ALIGN, which the list of 07 R180 does not name (DESIGN
CHOICE, log entry 101). -/
def State.fabricElem (s : State) (sl : Nat) (p : Packet) (d : Desc) (a : Int) (sub : Nat) : State × Got (Nat × Bool) :=
  match d.checkAddr a with
  | some (cause, addr) => (s, .fault cause addr)
  | none =>
    let bits := EType.bits d.et
    let r := if bits % 8 = 0 then s.fabricRead sl true p a.toNat (bits / 8) else s.fabricBytes sl p a.toNat (spanBytes sub bits)
    match r with
    | (s, .got (v, x)) => (s, .got (v / 2 ^ sub % 2 ^ bits, x))
    | r => r

/-- The IDX of element i of a stream. -/
def State.fabricIdx (s : State) (sl : Nat) (r : FRun) (t : FStrm) (i : Nat) : State × Got FStrm :=
  let d := t.desc
  if !d.ix || t.idxTaken = i / d.perIdx + 1 then (s, .got t)
  else
    match r.strm d.iq with
    | none => (s, .fault 0x01 0)
    | some e =>
      let k := i / d.perIdx
      if e.desc.total ≤ k then (s, .fault 0x01 0)
      else if e.desc.psn then (s, .poison e.desc.base.toNat)
      else
        let a := e.desc.address k 0
        match s.fabricElem sl r.pkt e.desc a.1 a.2 with
        | (s, .got (v, x)) =>
          if x then (s, .poison (a.1 % 2 ^ 52).toNat)
          else
            let n : Int := match e.desc.et with
              | .int y => IType.int y (BitVec.ofNat 64 v)
              | .f32 | .bf16 | .e4m3 | .e5m2 | .e3m2 | .e2m1 => v
            (s, .got { t with idx := n, idxTaken := k + 1 })
        | (s, .wait) => (s, .wait)
        | (s, .fault cause addr) => (s, .fault cause addr)
        | (s, .poison addr) => (s, .poison addr)

/-- The scale byte of element i of a load stream. -/
def State.fabricScale (s : State) (sl : Nat) (r : FRun) (t : FStrm) (i : Nat) : State × Got FStrm :=
  let d := t.desc
  if !d.sc || (d.index i).getD 0 0 % 32 ≠ 0 then (s, .got t)
  else
    match s.fabricRead sl true r.pkt (d.scaleAddr i) 1 with
    | (s, .got (v, x)) => (s, .got { t with scl := BitVec.ofNat 8 v, sclPsn := x })
    | (s, .wait) => (s, .wait)
    | (s, .fault cause addr) => (s, .fault cause addr)
    | (s, .poison addr) => (s, .poison addr)

/-- The next element of a load stream comes in. -/
def State.fabricFetch (s : State) (sl : Nat) (r : FRun) (t : FStrm) : State × Got FStrm :=
  if t.desc.psn then (s, .poison t.desc.base.toNat)
  else
    match s.fabricIdx sl r t t.pos with
    | (s, .got t) =>
      (match s.fabricScale sl r t t.pos with
        | (s, .got t) =>
          let a := t.desc.address t.pos t.idx
          (match s.fabricElem sl r.pkt t.desc a.1 a.2 with
            | (s, .got (v, x)) => (s, .got { t with pos := t.pos + 1, buf := t.buf ++ [⟨BitVec.ofNat 64 v, x, t.scl, t.desc.sc && t.sclPsn⟩] })
            | (s, .wait) => (s, .wait)
            | (s, .fault cause addr) => (s, .fault cause addr)
            | (s, .poison addr) => (s, .poison addr))
        | r => r)
    | r => r

/-- `n` bits written from bit `sub` of a byte on; the other bits of the bytes stay as they are (05 R93). -/
def State.fabricBits (s : State) (sl : Nat) (p : Packet) (va sub n val : Nat) (psn : Bool) : State × Got Unit :=
  if sub = 0 && n % 8 = 0 then s.fabricWrite sl p va (n / 8) val psn
  else
    let nb := spanBytes sub n
    match s.fabricBytes sl p va nb with
    | (s, .got (old, x)) => s.fabricPuts sl p va (old % 2 ^ sub + 2 ^ sub * (val % 2 ^ n) + old / 2 ^ (sub + n) * 2 ^ (sub + n)) (psn || x) nb
    | (s, .wait) => (s, .wait)
    | (s, .fault cause addr) => (s, .fault cause addr)
    | (s, .poison addr) => (s, .poison addr)

/-- The codes of elements are written one after another; those before one that faults stand written (07 R180). -/
def State.fabricCodes (s : State) (sl : Nat) (p : Packet) (d : Desc) (i : Nat) (v : Int) : List (Nat × Bool) → State × Got Unit
  | [] => (s, .got ())
  | (code, x) :: l =>
    let a := d.address i v
    match d.checkAddr a.1 with
    | some (cause, addr) => (s, .fault cause addr)
    | none =>
      match s.fabricBits sl p a.1.toNat a.2 (EType.bits d.et) code x with
      | (s, .got _) => s.fabricCodes sl p d (i + 1) v l
      | r => r

/-- The elements at hand of a store stream perform, a group at most: the scale byte of a block before them. -/
def State.fabricGroup (s : State) (sl : Nat) (r : FRun) (t : FStrm) : State × Got FStrm :=
  let d := t.desc
  let es := t.buf.take d.group
  let i := t.pos - t.buf.length
  let ws : List Word32 := es.map fun e => e.bits.truncate 32
  let rest := { t with buf := t.buf.drop d.group }
  if d.psn then (s, .poison d.base.toNat)
  else
    match s.fabricIdx sl r rest i with
    | (s, .got t) =>
      let b := blockScale d.et ws
      let w :=
        if d.sc then
          match s.fabricWrite sl r.pkt (d.scaleAddr i) 1 (if ws.any (lacksCode d.et) then 255 else b) (es.any (·.p)) with
          | (s, .got _) => s.fabricCodes sl r.pkt d i t.idx ((ws.map (blockCode d.et d.cc b)).zip (es.map (·.p)))
          | f => f
        else s.fabricCodes sl r.pkt d i t.idx ((ws.map (storeBits d.et d.cc)).zip (es.map (·.p)))
      (match w with
      | (s, .got _) => (s, .got t)
      | (s, .wait) => (s, .wait)
      | (s, .fault cause addr) => (s, .fault cause addr)
      | (s, .poison addr) => (s, .poison addr))
    | f => f

/-! ## The record (07 Table 13) -/

/-- Bits of an invocation record. -/
def recBits (p : Packet) (byte len : Nat) : Nat := wordsBits p.words (8 * byte) len
/-- BIND. -/
def recBind (p : Packet) : Word64 := BitVec.ofNat 64 (recBits p 0x10 64)
/-- A descriptor address. -/
def recDesc (p : Packet) (j : Nat) : Nat := recBits p (0x18 + 8 * j) 64

/-- Whether a record is malformed (07 R180): a reserved field that is not zero, an image that is not aligned, a binding that names no descriptor,
or one twice. -/
def badRecord (p : Packet) : Bool :=
  let b := boundRegs (recBind p)
  p.words.length != 32 || recBits p 0x00 64 % 2048 != 0 || 2 ^ 52 ≤ recBits p 0x00 64 || recBits p 0x08 32 / 64 != 0 || bitsOf (recBind p) 38 26 != 0
    || dupNat b || (b.any fun j => decide (5 < j) || recDesc p j == 0) || recBits p 0x4C 416 != 0 || recBits p 0x48 16 / 4096 != 0

/-- Whether a word of the record that the invocation uses is poisoned. -/
def poisonRecord (p : Packet) : Bool := (p.words.take 19).any (·.p)

/-- A descriptor that no slice can use: a stash endpoint, indexes of an unused or an unfit descriptor (07 R178, 18 R477). -/
def FRun.badDesc (r : FRun) (t : FStrm) : Bool :=
  !t.desc.home || (t.desc.ix && (match r.strm t.desc.iq with
    | none => true
    | some e => !([EType.int .i32, .int .n32, .int .i64, .int .n64].contains e.desc.et) || e.desc.ix || e.desc.sc))

/-! ## The invocation -/

/-- An invocation ends: its reply enters the mesh, and the next one may begin (07 R180). -/
def State.fabricEnd (s : State) (sl status addr : Nat) (r : FRun) : State :=
  let turns := match (s.slice? sl).bind fun x => x.grid.run.map fun g => g.turnsDone (x.grid.iim1 + 1) with
    | none => 0
    | some n => n
  let word := fun (n : Nat) => (⟨BitVec.ofNat 32 n, false⟩ : PWord)
  let reply : Packet := { corePacket r.pkt.part.toNat sl (recBits r.pkt 0x48 12) 0 0
      [word (status + 65536 * recBits r.pkt 0x4A 16), word turns, word addr, word (addr / 2 ^ 32)] [] with srck := 3, vc := 1 }
  let s := s.updSlice sl fun x => { x with run := none, grid := { x.grid.land with st := 2, run := none } }
  (s.postOpen 1 (.packetArrival (Config.sliceRouter sl % 512) 4 reply)).postOnce 1 (.fabricInvocationStart sl)

/-- The six descriptors are read and judged. -/
def State.fabricDescs (s : State) (sl : Nat) (r : FRun) : List Nat → State × Got FRun
  | [] => (s, .got r)
  | j :: js =>
    let a := recDesc r.pkt j
    if a = 0 then s.fabricDescs sl r js
    else if a % 128 ≠ 0 then (s, .fault 0x01 a)
    else
      match s.fabricWords sl r.pkt a 32 with
      | (s, .got ws) =>
        (match parseDesc j ws with
          | none => (s, .fault 0x01 a)
          | some d => s.fabricDescs sl (r.setStrm j ⟨d, 0, 0, 0, 127, false, []⟩) js)
      | (s, .wait) => (s, .wait)
      | (s, .fault c x) => (s, .fault c x)
      | (s, .poison x) => (s, .poison x)

/-- An invocation begins: the record, the descriptors, the images; then its run stands at turn 0. -/
def State.fabricBegin (s : State) (sl : Nat) (r : FRun) : State × Got FRun :=
  let p := r.pkt
  if badRecord p then (s, .fault 0x01 0)
  else if poisonRecord p then (s, .poison 0)
  else
    match s.fabricDescs sl r (List.range 6) with
    | (s, .got r) =>
      (match (List.range 6).find? fun j => (match r.strm j with | none => false | some t => r.badDesc t) with
      | some j => (s, .fault 0x01 (recDesc p j))
      | none =>
        let lut := recBits p 0x08 32 / 16 % 2 = 1
        let cfg := recBits p 0x00 64
        match s.fabricWords sl p cfg (if lut then 4608 else 512) with
        | (s, .got ws) =>
          (match s.slice? sl with
            | none => (s, .wait)
            | some x =>
              let keep := recBits p 0x08 32 / 32 % 2 = 1
              let g := x.grid.loaded 4 ⟨0, 0, BitVec.ofNat 64 cfg, decide lut, recBits p 0x08 32 % 16, ws, false⟩
              if g.cfgerr && g.st = 0 then
                (s.updSlice sl fun x => { x with grid := { g with cfgerr := false } },
                  .fault 0x01 (cfg + 128 * g.eelem + 8 * g.ebun + 4 * g.eslot))
              else
                let base := if keep then g.turns.toNat else 0
                let g := if keep then g else g.clear
                let run : GRun := ⟨recBind p, recBits p 0x0C 32, 0, base, 0, Sync.none, false, [], [], s.cycle, 0, false⟩
                (s.updSlice sl fun x => { x with grid := { g with st := 3, run := some run, turns := BitVec.ofNat 32 base } }, .got r))
        | (s, .wait) => (s, .wait)
        | (s, .fault c a) => (s, .fault c a)
        | (s, .poison a) => (s, .poison a))
    | (s, .wait) => (s, .wait)
    | (s, .fault c a) => (s, .fault c a)
    | (s, .poison a) => (s, .poison a)

/-- FABRIC_INVOCATION_START: the record that waits first is taken; that makes room for the ninth (07 R179). -/
def execFabricInvocationStart (s : State) : Host.Outcome State Fault Refusal :=
  match s.ev with
  | .fabricInvocationStart sl =>
    .next (match s.slice? sl with
      | none => s
      | some x =>
        match x.run, x.waiting with
        | none, p :: ps =>
          let s := s.updSlice sl fun x => { x with waiting := ps, run := some ⟨p, []⟩ }
          let s := match ps[7]? with | none => s | some q => s.ackRows q.rows
          (match s.fabricBegin sl ⟨p, []⟩ with
            | (s, .got r) => (s.updSlice sl fun x => { x with run := some r }).post 1 (.fabricInvocationEnd sl)
            | (s, .fault c a) => s.fabricEnd sl c a ⟨p, []⟩
            | (s, .poison a) => s.fabricEnd sl 0x0B a ⟨p, []⟩
            | (s, .wait) => s)
        | _, _ => s)
  | _ => .next s

/-- Every load stream bound to a GIN port has its next element at hand. -/
def State.fabricLoads (s : State) (sl : Nat) (g : GRun) (r : FRun) : List Nat → State × Got FRun
  | [] => (s, .got r)
  | p :: ps =>
    match (bindOf g.bind p).bind r.strm, bindOf g.bind p with
    | some t, some j =>
      if !t.buf.isEmpty || t.desc.total ≤ t.pos then s.fabricLoads sl g r ps
      else
        match s.fabricFetch sl r t with
        | (s, .got t) => s.fabricLoads sl g (r.setStrm j t) ps
        | (s, .wait) => (s, .wait)
        | (s, .fault c a) => (s, .fault c a)
        | (s, .poison a) => (s, .poison a)
    | _, _ => s.fabricLoads sl g r ps

/-- The words written to GOUT ports go to their store streams; groups that are complete perform. A stream that cannot go on holds nothing more. -/
def State.fabricStores (s : State) (sl : Nat) (g : GRun) (r : FRun) : List (Nat × PWord) → State × FRun × Got Unit
  | [] => (s, r, .got ())
  | (p, w) :: ps =>
    match (bindOf g.bind (4 + p)).bind r.strm, bindOf g.bind (4 + p) with
    | some t, some j =>
      let t := { t with pos := t.pos + 1, buf := t.buf ++ [⟨w.w.zeroExtend 64, w.p, 127, false⟩] }
      if t.buf.length < t.desc.group then s.fabricStores sl g (r.setStrm j t) ps
      else
        (match s.fabricGroup sl r t with
          | (s, .got t) => s.fabricStores sl g (r.setStrm j t) ps
          | (s, .wait) => (s, r, .wait)
          | (s, .fault c a) => (s, r.setStrm j { t with buf := [] }, .fault c a)
          | (s, .poison a) => (s, r.setStrm j { t with buf := [] }, .poison a))
    | _, _ => s.fabricStores sl g r ps

/-- The store streams of an invocation that ends perform what they hold: exactly the elements before the stop (07 R180). The first that cannot gives the
invocation its status, where it has none. -/
def State.fabricFlush (s : State) (sl : Nat) (g : GRun) (r : FRun) (status : Nat × Nat) : List Nat → State × Nat × Nat
  | [] => (s, status)
  | p :: ps =>
    match (bindOf g.bind p).bind r.strm with
    | none => s.fabricFlush sl g r status ps
    | some t =>
      if t.buf.isEmpty then s.fabricFlush sl g r status ps
      else
        match s.fabricGroup sl r t with
        | (s, .fault c a) => s.fabricFlush sl g r (if status.1 = 0 then (c, a) else status) ps
        | (s, .poison a) => s.fabricFlush sl g r (if status.1 = 0 then (0x0B, a) else status) ps
        | (s, .got _) => s.fabricFlush sl g r status ps
        | (s, .wait) => s.fabricFlush sl g r status ps

/-- What a GIN port of a slice gives: its element, or +0 once it is unbound or through. -/
def FRun.ginNow (r : FRun) (g : GRun) (p : Nat) : GinNow :=
  match (bindOf g.bind p).bind r.strm with
  | none => .zero
  | some t =>
    match t.buf with
    | [] => .zero
    | e :: _ => .word (e.word t.desc.et)

/-- What a GOUT port of a slice does with a write in a turn of the run. -/
def FRun.goutNow (r : FRun) (g : GRun) (turn p : Nat) : GoutNow :=
  match (bindOf g.bind (4 + p)).bind r.strm with
  | none => .discard
  | some t => if t.desc.total ≤ t.pos || turn < bitsOf g.bind (30 + 4 * p) 4 then .discard else .room

/-- The run with the elements taken by its GIN ports gone. -/
def FRun.took (r : FRun) (g : GRun) (p : Nat) : FRun :=
  match (bindOf g.bind p).bind r.strm, bindOf g.bind p with
  | some t, some j => r.setStrm j { t with buf := t.buf.drop 1 }
  | _, _ => r

/-- One cycle of a slice's run (07 R149, R161); what cannot go on ends the invocation (07 R180). -/
def State.fabricTick (s : State) (sl : Nat) (x : Slice) (r : FRun) (g : GRun) : State :=
  let ii := x.grid.iim1 + 1
  let stop := fun (s : State) (r : FRun) (c a : Nat) =>
    match s.fabricFlush sl g r (c, a) [4, 5] with
    | (s, c, a) => s.fabricEnd sl c a r
  if g.turns * ii ≤ g.cyc then
    if x.grid.flight.all fun f => decide (f.due ≤ x.grid.clock) then stop s r 0 0
    else
      (s.updSlice sl fun x => { x with grid := { x.grid.land with clock := x.grid.clock + 1 } }).post 1 (.fabricInvocationEnd sl)
  else
    match s.fabricLoads sl g r (List.range 4) with
    | (s, .got r) =>
      let turn := g.cyc / ii
      (match x.grid.cycle 4 (g.cyc % ii) (BitVec.ofNat 32 (g.base + turn)) (turn + 1 == g.turns) g.psn (r.ginNow g) (r.goutNow g turn) with
        | none => s
        | some (h, takes, gives) =>
          let r := takes.foldl (fun r p => r.took g p) r
          let g' := { g with cyc := g.cyc + 1 }
          match s.fabricStores sl g r gives with
          | (s, r, .got _) =>
            (s.updSlice sl fun x =>
              { x with run := some r, grid := { h with run := some g', turns := BitVec.ofNat 32 (g.base + g'.cyc / ii) } }).post 1 (.fabricInvocationEnd sl)
          | (s, r, .fault c a) => stop s r c a
          | (s, r, .poison a) => stop s r 0x0B a
          | (s, _, .wait) => s)
    | (s, .fault c a) => stop s r c a
    | (s, .poison a) => stop s r 0x0B a
    | (s, .wait) => s

/-- FABRIC_INVOCATION_END: the cycles of an invocation, up to its reply. -/
def execFabricInvocationEnd (s : State) : Host.Outcome State Fault Refusal :=
  match s.ev with
  | .fabricInvocationEnd sl =>
    .next (match s.slice? sl with
      | none => s
      | some x =>
        match x.run, x.grid.run with
        | some r, some g => s.fabricTick sl x r g
        | _, _ => s)
  | _ => .next s

end Sys2Proof.Machine
end

