-- ==== Sys2Proof/Machine/LoadStore.lean ====
section
/-! DEFINITION. Loads and stores of the I slots: LD, LDA, CHKA, LDACQ (16 R369 to R374), ST (18 R499), STREL (18 R503). -/

namespace Sys2Proof.Machine

/-- A load or store with its operands decoded: the byte offset is signed. -/
structure MemOp where
  sl : ISlot
  g : Guard
  d : Reg5
  a : Reg5
  off : Word64
  t : IType
deriving DecidableEq, Repr

/-- The 32-bit form: OFF5 counts units of the access size (04 R81). -/
def OpL.op (o : OpL) : MemOp := ⟨o.sl, o.g, o.d, o.a, ofInt (o.off.toInt * IType.bytes o.t), o.t⟩
/-- The 64-bit form: OFF32 counts bytes. -/
def OpL64.op (o : OpL64) : MemOp := ⟨o.sl, o.g, o.d, o.a, sext o.off, o.t⟩

/-- The base register of an access. -/
def MemOp.base (o : MemOp) (r : Regs) : RV := r.getI o.sl o.a
/-- The effective address (16 R371). -/
def MemOp.addr (o : MemOp) (r : Regs) : Nat := effAddr (o.base r).v o.off

/-- The cycles until a loaded value is available: those of a hit, counted from the fill where the load had to wait for one (10 R238). -/
def loadLat (filled : Option Nat) (now lat : Nat) : Nat :=
  match filled with
  | none => lat
  | some t => max 1 (t + lat - now)

/-- A load through the stash into register D. -/
def loadInto (s : State) (o : MemOp) : Try State :=
  let r := s.bun.old
  (s.checkAddr (o.base r) (o.addr r) (IType.bytes o.t) false).bind fun s _ =>
    (s.stashLoad s.cur (o.addr r) (IType.bytes o.t)).bind fun s v =>
      let s := s.writeXY (ISlot.y o.sl) o.d ⟨IType.fit o.t (BitVec.ofNat 64 v.val), v.psn || Guard.psn o.g .pi r⟩ (loadLat v.filled s.cycle v.lat)
      .ok s s

/-- A record of the watch table, the oldest going where 32 are there; none for x0 and y0 (03 R73, 16 R374). -/
def Ctx.enterWatch (x : Ctx) (w : Watch) : Ctx :=
  if w.d = 0 then x
  else
    let l := dropWatch x.watch w.y w.d
    { x with watch := (if 32 ≤ l.length then l.drop 1 else l) ++ [w] }

/-- LD. -/
def ldOp (s : State) (o : MemOp) : Host.Outcome State Fault Refusal := guarded s o.g .pi fun _ _ _ => loadInto s o

/-- LDA: a load that enters a record. -/
def ldaOp (s : State) (o : MemOp) : Host.Outcome State Fault Refusal :=
  guarded s o.g .pi fun _ _ _ =>
    (loadInto s o).bind fun s _ =>
      let s := s.updIssuer fun x => x.enterWatch ⟨ISlot.y o.sl, o.d.toNat, o.addr s.bun.old, IType.bytes o.t⟩
      .ok s s

/-- CHKA: nothing where the register has a record, else a load. An LDA in the other I slot of its bundle and the earlier in slot order enters its record
before, and where that replaces the oldest, it may be the one CHKA tests: the spec does not say which table CHKA sees (DESIGN CHOICE, log entry 105). -/
def chkaOp (s : State) (o : MemOp) : Host.Outcome State Fault Refusal :=
  guarded s o.g .pi fun _ _ x =>
    if x.watch.any fun w => w.y == ISlot.y o.sl && w.d == o.d.toNat then .ok s s else loadInto s o

/-- LDACQ: a load at the home slice with an acquire half at module scope. It performs at the attempt; the value is available, and the next
bundle may issue, no earlier than 16 cycles later. -/
def ldacqOp (s : State) (o : MemOp) : Host.Outcome State Fault Refusal :=
  guarded s o.g .pi fun _ n _ =>
    let r := s.bun.old
    let len := IType.bytes o.t
    (s.checkAddr (o.base r) (o.addr r) len false).bind fun s _ =>
      match s.translate s.cur (o.addr r) .read with
      | (s, .fault cause info) => .trap s cause info
      | (s, .leaf l) =>
        let s := s.evictWords s.cur (o.addr r) len l
        match s.homeRead (s.access s.cur l.ed (o.addr r)) l.pa len with
        | (s, v, psn) =>
          let lat := 16 + Config.latency s.free
          let s := { s with free := s.free + 1 }
          let s := s.writeXY (ISlot.y o.sl) o.d ⟨IType.fit o.t (BitVec.ofNat 64 v), psn || l.psn || Guard.psn o.g .pi r⟩ lat
          let s := (s.acquireBy s.cur n 4).updCore s.cur fun k => { k with freeAt := max k.freeAt (s.cycle + lat) }
          .ok s s

/-- ST: the low bytes of D through the stash. -/
def stOp (s : State) (o : MemOp) : Host.Outcome State Fault Refusal :=
  guarded s o.g .pi fun _ n _ =>
    let r := s.bun.old
    let v := r.getI o.sl o.d
    (s.checkAddr (o.base r) (o.addr r) (IType.bytes o.t) true).bind fun s _ =>
      s.stashStore s.cur n (o.addr r) (IType.bytes o.t) v.v.toNat (v.p || Guard.psn o.g .pi r) false

/-- STREL: a store at the home slice after a release half at module scope over all six paths. -/
def strelOp (s : State) (o : MemOp) : Host.Outcome State Fault Refusal :=
  guarded s o.g .pi fun _ n _ =>
    let r := s.bun.old
    let v := r.getI o.sl o.d
    let size := IType.bytes o.t
    (s.checkAddr (o.base r) (o.addr r) size true).bind fun s _ =>
      match s.translate s.cur (o.addr r) .write with
      | (s, .fault cause info) => .trap s cause info
      | (s, .leaf l) =>
        (s.releaseAll 63 4).bind fun s _ =>
          let s := s.evictWords s.cur (o.addr r) size l
          let s := s.homePut (s.access s.cur l.ed (o.addr r)) l.pa size v.v.toNat (v.p || Guard.psn o.g .pi r)
          let s := s.updCtx s.cur n fun x => { x with watch := storeWatch x.watch (o.addr r) size }
          .ok s s

/-- LD (16 R371): Loads an integer through the stash. -/
def execLd (o : OpL) (s : State) : Host.Outcome State Fault Refusal := ldOp s (OpL.op o)
/-- LD_64 (16 R371): LD with an OFF32 extension word. -/
def execLd64 (o : OpL64) (s : State) : Host.Outcome State Fault Refusal := ldOp s (OpL64.op o)
/-- LDA (16 R371): Load that also enters a watch-table record. -/
def execLda (o : OpL) (s : State) : Host.Outcome State Fault Refusal := ldaOp s (OpL.op o)
/-- LDA_64 (16 R371): LDA with an OFF32 extension word. -/
def execLda64 (o : OpL64) (s : State) : Host.Outcome State Fault Refusal := ldaOp s (OpL64.op o)
/-- CHKA (03 R74): Reloads the register only if it has no watch-table entry. -/
def execChka (o : OpL) (s : State) : Host.Outcome State Fault Refusal := chkaOp s (OpL.op o)
/-- CHKA_64 (03 R74): CHKA with an OFF32 extension word. -/
def execChka64 (o : OpL64) (s : State) : Host.Outcome State Fault Refusal := chkaOp s (OpL64.op o)
/-- LDACQ (16 R371): Acquire load performed at the home slice. -/
def execLdacq (o : OpL) (s : State) : Host.Outcome State Fault Refusal := ldacqOp s (OpL.op o)
/-- LDACQ_64 (16 R371): LDACQ with an OFF32 extension word. -/
def execLdacq64 (o : OpL64) (s : State) : Host.Outcome State Fault Refusal := ldacqOp s (OpL64.op o)
/-- ST (18 R499): Stores an integer through the stash. -/
def execSt (o : OpL) (s : State) : Host.Outcome State Fault Refusal := stOp s (OpL.op o)
/-- ST_64 (18 R499): ST with an OFF32 extension word. -/
def execSt64 (o : OpL64) (s : State) : Host.Outcome State Fault Refusal := stOp s (OpL64.op o)
/-- STREL (18 R503): Release store performed at the home slice. -/
def execStrel (o : OpL) (s : State) : Host.Outcome State Fault Refusal := strelOp s (OpL.op o)
/-- STREL_64 (18 R503): STREL with an OFF32 extension word. -/
def execStrel64 (o : OpL64) (s : State) : Host.Outcome State Fault Refusal := strelOp s (OpL64.op o)

end Sys2Proof.Machine
end

