-- ==== Sys2Proof/Machine/Rings.lean ====
section
/-! DEFINITION. Rings, the Levanter sequencers and the link ports (09 R219 to R231), and the start of channel commands. -/

namespace Sys2Proof.Machine

/-! ## Instances -/

/-- A channel of a core changed. -/
def State.updChan (s : State) (c ch : Nat) (f : Chan → Chan) : State := s.updCore c fun k => k.updChan ch f
/-- The instance of a channel changed. -/
def State.updRing (s : State) (c ch : Nat) (f : RingRun → RingRun) : State := s.updChan c ch fun h => { h with run := h.run.map f }
/-- A channel of a core. -/
def State.chan? (s : State) (c ch : Nat) : Option Chan := (s.core? c).bind fun k => k.chan? ch

/-- The bytes of a sequencer's instance area that started instances hold (09 R221). -/
def State.areaUsed (s : State) (port : Nat) : Nat :=
  (s.cores.flatMap fun kv =>
    match kv.2 with
    | none => []
    | some k => k.chans.filterMap fun hv =>
        match hv.2 with
        | none => none
        | some h =>
          match h.run, s.ringOf k.id h with
          | some r, some g => if r.started && g.dport = port then some (h.reserve r.n) else none
          | _, _ => none).sum

/-- What an early pool holds for a ring channel is dropped (09 R223, R226). -/
def State.emptyPool (s : State) (c : Nat) (h : Chan) : State :=
  match if h.kind = 3 then s.ringOf c h else none with
  | none => s
  | some g => s.updPort g.dport fun p => { p with early := p.early.filter fun x => !(x.1 == g.uport && x.2.flow.toNat == h.flow) }

/-- A new instance of a channel: it waits for its reservation. One whose ring a commit has left invalid since the test at issue ends with the error flag and leaves
I as it was; under a new ring the size is not judged again (09 R222 names the RESETTING case alone: DESIGN CHOICE, log entry 108). -/
def State.newInstance (s : State) (c ch id ctx : Nat) (sync : Sync) : State :=
  match s.chan? c ch with
  | none => s
  | some h =>
    match s.ringOf c h with
    | none => s.postErr c sync
    | some g =>
      let i := nextInst h.inst
      let r : RingRun := {
        id := id, inst := i, ctx := ctx, sync := sync, started := false, since := 0, n := g.nm1 + 1, pos := g.pos, len := h.bytes, data := []
        loaded := false, step := 0, got := 0, early := [], writing := false, wbLost := false }
      (s.updChan c ch fun h => { h with inst := i, rst := 2, run := some r, pend := none }).postOnce 0 (.ringInstanceStart c ch)

/-! ## Aborts (09 R225, R226) -/

/-- A token is sent where its link is up; it is discarded where it is not (09 R231). -/
def State.sendToken (s : State) (port : Nat) (t : Token) : State :=
  match s.port? port with
  | none => s
  | some p => if p.up then s.emit (.token port t) else s

/-- The token of a channel's instance. -/
def Chan.token (h : Chan) (down : Bool) : Token := ⟨BitVec.ofNat 4 h.ring, BitVec.ofNat 12 h.flow, BitVec.ofNat 8 h.inst, down⟩

/-! ## Steps (09 R220) -/

/-- Words of a buffer. -/
def RingRun.words (r : RingRun) (at' n : Nat) : List PWord := (List.range n).map fun i => Tab.get ⟨0, false⟩ r.data (at' + i)
/-- Words put into a buffer. -/
def RingRun.put (r : RingRun) (at' : Nat) (ws : List PWord) : RingRun :=
  { r with data := (ws.zipIdx).foldl (fun t x => Tab.set ⟨0, false⟩ t (at' + x.2) x.1) r.data }
/-- The words of a chunk. -/
def RingRun.chunkWords (r : RingRun) : Nat := r.len / r.n / 4
/-- The first word of chunk c, c taken modulo n. -/
def RingRun.chunkAt (r : RingRun) (c : Int) : Nat := (c % r.n).toNat * r.chunkWords

/-- The rows of a step: a WIDE row of a BF16 channel carries 64 elements. -/
def RingRun.rowsOf (r : RingRun) (bf : Bool) (step : Nat) : Nat :=
  if bf && decide (step < r.n) then r.chunkWords / 32 else r.chunkWords / 64

/-- A row of a step goes downstream. -/
def State.sendRing (s : State) (c dport : Nat) (h : Chan) (r : RingRun) (step row : Nat) (wide : Bool) (ws : List PWord) : State :=
  let part := match s.port? dport with | none => 0 | some p => p.bpart.toNat
  let p := corePacket part dport h.flow row step ws []
  s.linkSend dport ((s.core? c).bind (·.launch)) { p with srck := 1, vc := 2, wide := wide, inst := BitVec.ofNat 8 r.inst }

/-- The rows of step 1: the member's own values of chunk (p − 1) mod n. -/
def State.sendFirst (s : State) (c dport : Nat) (h : Chan) (r : RingRun) : State :=
  let base := r.chunkAt ((r.pos : Int) - 1)
  s.forEach (List.range (r.rowsOf h.bf16 1)) fun s j =>
    if h.bf16 then s.sendRing c dport h r 1 j true (widenWords (r.words (base + 32 * j) 32))
    else s.sendRing c dport h r 1 j false (r.words (base + 64 * j) 64)

/-- FP32 words rounded to BF16, two to a word. -/
def narrowWords : List PWord → List PWord
  | a :: b :: l => ⟨BitVec.ofNat 32 (rne16 a.w + 65536 * rne16 b.w), a.p || b.p⟩ :: narrowWords l
  | [a] => [⟨BitVec.ofNat 32 (rne16 a.w), a.p⟩]
  | [] => []

/-- A row of a step is processed: folded or stored, and sent on as a row of the next step (09 R220, 05 R113). -/
def State.ringRow (s : State) (c ch dport : Nat) (h : Chan) (r : RingRun) (p : Packet) : State :=
  let step := p.rank.toNat
  let j := p.seq.toNat
  let last := 2 * r.n - 2
  let op := bitsOf h.entry 54 2
  let f :=
    if step < r.n then
      let base := r.chunkAt ((r.pos : Int) - 1 - step)
      if h.bf16 then
        let ws := foldWords 1 op p.words (widenWords (r.words (base + 32 * j) 32))
        if step + 1 < r.n then (r, s.sendRing c dport h r (step + 1) j true ws)
        else
          let r := r.put (base + 32 * j) (narrowWords ws)
          (r, if j % 2 = 1 then s.sendRing c dport h r (step + 1) (j / 2) false (r.words (base + 32 * (j - 1)) 64) else s)
      else
        let ws := foldWords 1 op p.words (r.words (base + 64 * j) 64)
        (r.put (base + 64 * j) ws, s.sendRing c dport h r (step + 1) j false ws)
    else
      let base := r.chunkAt ((r.pos : Int) - 1 - step + r.n)
      (r.put (base + 64 * j) p.words, if step < last then s.sendRing c dport h r (step + 1) j false p.words else s)
  let got := r.got + 1
  let full := decide (r.rowsOf h.bf16 step ≤ got)
  let s := f.2.updRing c ch fun _ => { f.1 with step := if full then step else r.step, got := if full then 0 else got }
  if full && step = last then s.postOnce 0 (.ringInstanceCompletion c ch) else s

/-- The ring channel of a port's partition with a FLOW whose ring `sel` accepts: core, channel, its entry, its ring. That of a launch that has ended is
none (02 R19). -/
def State.ringChannel (s : State) (port flow : Nat) (sel : Chan → Ring → Bool) : Option (Nat × Nat × Chan × Ring) :=
  let part := match s.port? port with | none => 8 | some p => p.bpart.toNat
  s.cores.findSome? fun kv =>
    match kv.2 with
    | none => none
    | some k =>
      if s.partOf k.id ≠ part || k.launch.isNone then none
      else k.chans.findSome? fun hv =>
        match hv.2 with
        | none => none
        | some h =>
          if h.kind ≠ 3 || h.flow ≠ flow then none
          else
            match s.ringOf k.id h with
            | none => none
            | some g => if sel h g then some (k.id, hv.1, h, g) else none

/-- STALE of a port counts a packet (09 R223). -/
def State.stale (s : State) (port : Nat) : State := s.updPort port fun p => { p with stale := satInc16 p.stale 1 }

/-- The payload bytes of packets in a sequencer's SRAM (01 R13, 09 R221). -/
def packetBytes (l : List Packet) : Nat := (l.map fun p => 4 * Packet.count p).sum

/-- A ring packet that reaches a member through a port (09 R223); none: its store is full, and it has no credit to come in (09 R221). -/
def State.ringArrive (s : State) (port : Nat) (p : Packet) : Option State :=
  match s.ringChannel port p.flow.toNat fun _ g => g.uport == port with
  | none => some (s.stale port)
  | some (c, ch, h, g) =>
    let i := p.inst.toNat
    let pooled := match s.port? g.dport with | none => [] | some q => q.early.map (·.2)
    let pool :=
      if 2 ^ 20 < packetBytes pooled + packetBytes [p] then none
      else some (s.updPort g.dport fun q => { q with early := q.early ++ [(port, p)] })
    if h.rst = 4 then some (s.stale port)
    else
      match h.run with
      | none => if i = nextInst h.inst then pool else some (s.stale port)
      | some r =>
        if i = r.inst then
          if !r.started then pool
          else if !r.loaded then
            if h.reserve r.n - h.bytes < packetBytes r.early + packetBytes [p] then none
            else some (s.updRing c ch fun r => { r with early := r.early ++ [p] })
          else if r.writing then some (s.stale port)
          else some (s.ringRow c ch g.dport h r p)
        else if i = nextInst r.inst then pool
        else some (s.stale port)

/-- The ring packets that wait at a port come in, in order, as far as there is room. -/
def State.settleRing (s : State) (port : Nat) : List Packet → State
  | [] => s.updPort port fun q => { q with blocked := [] }
  | p :: l =>
    match s.ringArrive port p with
    | some s => s.settleRing port l
    | none => s.updPort port fun q => { q with blocked := p :: l }

/-- Room has become free in a sequencer: the ring packets that wait come in. -/
def State.settleRings (s : State) : State :=
  s.forEach s.ports fun s kv =>
    match s.port? kv.1 with
    | none => s
    | some q => if q.blocked.isEmpty then s else s.settleRing kv.1 q.blocked

/-- RING_PACKET_ARRIVAL (09 R223). A disabled port takes nothing (01 R18); a packet stays behind those that wait before it. -/
def execRingPacketArrival (s : State) : Host.Outcome State Fault Refusal :=
  match s.ev with
  | .ringPacketArrival port p =>
    .next (match s.port? port with
      | none => s
      | some q => if s.module.fuses.lpen.getLsbD port then s.settleRing port (q.blocked ++ [p]) else s)
  | _ => .next s

/-- A member aborts a ring channel; with `tokens` it sends them both ways, a ring of one too. What it held of a sequencer is free for others (09 R221). -/
def State.abortRing (s : State) (c ch : Nat) (tokens : Bool) : State :=
  match s.chan? c ch with
  | none => s
  | some h =>
    if h.kind ≠ 3 || h.rst = 4 then s
    else
      let g := s.ringOf c h
      let s := match g with
        | none => s
        | some g =>
          let s := s.emptyPool c h
          if tokens then (s.sendToken g.dport (h.token true)).sendToken g.uport (h.token false) else s
      let s := match h.run with | none => s | some r => s.postErr c r.sync
      let s := match h.pend with | none => s | some y => s.postErr c y.sync
      let s := s.updChan c ch fun h =>
        { h with
          rst := 4, run := none, pend := none, resetSince := s.ticks
          fwd := if tokens then h.fwd ++ [h.token true, h.token false] else h.fwd }
      (((s.afterCommand c).tellLaunch c).settleRings).wakeRings

/-- The rows that came while the buffer was being loaded, in order. -/
def State.ringEarly (s : State) (c ch : Nat) : List Packet → State
  | [] => s
  | p :: l =>
    match s.chan? c ch with
    | none => s
    | some h =>
      match h.run, s.ringOf c h with
      | some r, some g => (s.ringRow c ch g.dport h r p).ringEarly c ch l
      | _, _ => s

/-- Load is over: step 1 goes out and the rows held are processed, those of the early pool before those that came since the start (09 R223); a ring of
one is through. -/
def State.ringLoaded (s : State) (c ch : Nat) (h : Chan) (r : RingRun) (g : Ring) : State :=
  let r := { r with loaded := true, got := 0, early := [] }
  let early := match h.run with | none => [] | some r => r.early
  let mine := fun (x : Nat × Packet) => x.1 == g.uport && x.2.flow.toNat == h.flow && x.2.inst.toNat == r.inst
  let pooled := match s.port? g.dport with | none => [] | some p => (p.early.filter mine).map (·.2)
  let s := s.updPort g.dport fun p => { p with early := p.early.filter fun x => !mine x }
  let s := s.updRing c ch fun _ => r
  if r.n = 1 then s.postOnce 0 (.ringInstanceCompletion c ch)
  else ((s.sendFirst c g.dport h r).ringEarly c ch (pooled ++ early)).settleRings

/-- Load: a block of the buffer is read through the stash; poison and faults abort the instance (09 R220). -/
def State.ringLoad (s : State) (c ch : Nat) (h : Chan) (r : RingRun) (g : Ring) : State :=
  if r.len ≤ 256 * r.got then s.ringLoaded c ch h r g
  else
    match s.readWords c false (h.buf + 256 * r.got) 64 with
    | (s, .got ws) =>
      if ws.any (·.p) then (s.abortRing c ch true).poisonLater c r.ctx 2 0
      else (s.updRing c ch fun r => { (r.put (64 * r.got) ws) with got := r.got + 1 }).post 1 (.ringInstanceStart c ch)
    | (s, .fault cause a) => (s.abortRing c ch true).notice (s.partOf c) cause (BitVec.ofNat 64 (a % 2 ^ 52 + fieldAt 52 c))
    | (s, .wait) => s
    | (s, .poison _) => s

/-- The time-out of an instance in ns (09 R224). -/
def State.ringLimit (s : State) (c : Nat) (h : Chan) : Nat :=
  let t := bitsOf h.entry 160 16
  let d := s.ofPart c fun p => bitsOf p.rngcfg 0 16
  (if t = 0 then max 1 d else t) * 100000

/-- RING_INSTANCE_START (09 R221, R220): the reservation, the timer, Load. -/
def execRingInstanceStart (s : State) : Host.Outcome State Fault Refusal :=
  match s.ev with
  | .ringInstanceStart c ch =>
    .next (match s.chan? c ch with
      | none => s
      | some h =>
        match h.run, s.ringOf c h with
        | some r, some g =>
          if r.loaded then s
          else if r.started then s.ringLoad c ch h r g
          else if s.flowsHeld c || decide (7 * 2 ^ 20 < s.areaUsed g.dport + h.reserve r.n) then s
          else
            let s := s.updRing c ch fun r => { r with started := true, since := s.ticks }
            ((s.post (s.cyclesOf (s.ringLimit c h)) (.remoteTimeout c ch)).post 1 (.ringInstanceStart c ch)).settleRings
        | _, _ => s)
  | _ => .next s

/-- The write-back begins: every block of the buffer is written as a row landing in the core's stash (09 R220). -/
def State.ringWrite (s : State) (c ch : Nat) (h : Chan) (r : RingRun) : State :=
  let l := ((s.core? c).bind (·.launch)).getD 0
  let s := s.updRing c ch fun r => { r with writing := true }
  s.forEach (List.range (r.len / 256)) fun s i =>
    let n := s.nextRow
    let s := { s with nextRow := n + 1, rows := Tab.set none s.rows n (some ⟨c, r.ctx, l, Sync.none, 1, false, r.id, false, false⟩) }
    let p := corePacket (s.partOf c) c h.flow i 0 (r.words (64 * i) 64) [n]
    s.post (i + 1) (.rowLanding c 64 { p with vc := 2, desc := BitVec.ofNat 128 (h.buf / 256 * 2 ^ 32) })

/-- An instance is complete at this member: CHSTART signals, and a pending start begins (09 R220, R222). -/
def State.ringDone (s : State) (c ch : Nat) (h : Chan) (r : RingRun) : State :=
  let s := s.updChan c ch fun h => { h with run := none, rst := 1 }
  let s := if r.wbLost then s.postErr c r.sync else s.post1 c r.ctx r.sync
  let s := match h.pend with
    | none => s
    | some y => s.newInstance c ch y.id y.ctx y.sync
  (s.afterCommand c).wakeRings

/-- RING_INSTANCE_COMPLETION: after the last row of the gather phase the write-back begins; once every block of it has landed or been lost, the
instance is complete. -/
def execRingInstanceCompletion (s : State) : Host.Outcome State Fault Refusal :=
  match s.ev with
  | .ringInstanceCompletion c ch =>
    .next (match s.chan? c ch with
      | none => s
      | some h =>
        match h.run with
        | none => s
        | some r =>
          if !r.loaded || decide (r.step < 2 * r.n - 2) then s
          else if !r.writing then s.ringWrite c ch h r
          else if !(s.openRows fun x => x.core == c && x.cmd == r.id).isEmpty then s
          else s.ringDone c ch h r)
  | _ => .next s

/-- REMOTE_TIMEOUT (09 R224). -/
def execRemoteTimeout (s : State) : Host.Outcome State Fault Refusal :=
  match s.ev with
  | .remoteTimeout c ch =>
    .next (match s.chan? c ch with
      | none => s
      | some h =>
        match h.run with
        | none => s
        | some r =>
          if !r.started then s
          else if s.ticks < r.since + s.ringLimit c h then
            s.postOnce (max 1 (s.cyclesOf (r.since + s.ringLimit c h - s.ticks))) (.remoteTimeout c ch)
          else
            let info := BitVec.ofNat 64 (h.ring + fieldAt 4 ch + fieldAt 10 c + fieldAt 19 (r.inst % 256) + fieldAt 27 r.pos)
            (s.abortRing c ch true).notice (s.partOf c) 0x18 info)
  | _ => .next s

/-- ABORT_TOKEN_ARRIVAL (09 R225): the channel aborts, and the token goes onward in its direction once. -/
def execAbortTokenArrival (s : State) : Host.Outcome State Fault Refusal :=
  match s.ev with
  | .abortTokenArrival port t =>
    .next (match s.ringChannel port t.flow.toNat fun h g => h.ring == t.ring.toNat && (if t.down then g.uport else g.dport) == port with
      | none => s
      | some (c, ch, h, g) =>
        if h.fwd.contains t then s
        else
          let s := (s.updChan c ch fun h => { h with fwd := h.fwd ++ [t] }).abortRing c ch false
          s.sendToken (if t.down then g.dport else g.uport) t)
  | _ => .next s

/-! ## Commits (09 R227, 22 R568) -/

/-- The ring channels of a ring of a partition, those of its launches at work. -/
def State.ringChans (s : State) (p n : Nat) : List (Nat × Nat × Chan) :=
  s.cores.flatMap fun kv =>
    match kv.2 with
    | none => []
    | some k =>
      if s.partOf k.id ≠ p || k.launch.isNone then []
      else k.chans.filterMap fun hv =>
        match hv.2 with
        | none => none
        | some h => if h.kind = 3 && h.ring = n then some (k.id, hv.1, h) else none

/-- RING_COMMIT. -/
def execRingCommit (s : State) : Host.Outcome State Fault Refusal :=
  match s.ev with
  | .ringCommit p rings =>
    .next (s.forEach ((List.range 16).filter fun n => rings.getLsbD n) fun s n =>
      let s := s.forEach (s.ringChans p n) fun s x => s.abortRing x.1 x.2.1 true
      (s.updPart p fun q => { q with commits := setBits q.commits n 1 1 }).post 0 (.ringCommitReread p n))
  | _ => .next s

/-- A ring record (09 R219); none where it is bad. -/
def ringRecord (en : BitVec 18) (v : Nat) (psn : Bool) : Option Ring :=
  let f := fun (lo len : Nat) => v / 2 ^ lo % 2 ^ len
  let d := f 20 5
  let u := f 25 5
  if psn || f 31 1 = 0 || f 0 10 < f 10 10 || 17 < d || 17 < u || !en.getLsbD d || !en.getLsbD u || f 30 1 ≠ 0 || f 32 96 ≠ 0 then none
  else some ⟨f 0 10, f 10 10, d, u⟩

/-- The record of a ring as it stands at its home slice. A record that cannot be read (its translation faults, it lies at or above 2^52) or that holds poison is a
bad one and raises no notice: 09 R219 names none of the three (DESIGN CHOICE, log entry 109). -/
def State.readRing (s : State) (p n : Nat) : State × Option Ring :=
  match s.part? p with
  | none => (s, none)
  | some q =>
    let va := q.ringbase.toNat + 16 * n
    if 2 ^ 52 ≤ va then (s, none)
    else
      match s.translateHome p va .read with
      | (s, .fault _ _) => (s, none)
      | (s, .leaf l) =>
        match s.homeRead ⟨p, l.ed, none, s.rangeAt p va⟩ l.pa 16 with
        | (s, v, psn) => (s, ringRecord s.module.fuses.lpen v (psn || l.psn))

/-- RING_COMMIT_REREAD: once every channel of the ring has been RESETTING for LINKTMO. -/
def execRingCommitReread (s : State) : Host.Outcome State Fault Refusal :=
  match s.ev with
  | .ringCommitReread p n =>
    .next (match s.part? p with
      | none => s
      | some q =>
        if !q.commits.getLsbD n then s
        else
          let s := s.forEach (s.ringChans p n) fun s x => s.abortRing x.1 x.2.1 true
          let lim := max 1 (bitsOf q.rngcfg 16 16) * 100000
          let due := (s.ringChans p n).foldl (fun d x => max d (x.2.2.resetSince + lim)) 0
          if s.ticks < due then s.post (s.cyclesOf (due - s.ticks)) (.ringCommitReread p n)
          else
            match s.readRing p n with
            | (s, g) =>
              let chans := s.ringChans p n
              let flows := chans.filterMap fun x => (s.ringOf x.1 x.2.2).map fun g => (g.uport, BitVec.ofNat 12 x.2.2.flow)
              let s := s.forEach (List.range 18) fun s i => s.updPort i fun r =>
                { r with early := r.early.filter fun x => !flows.contains (x.1, x.2.flow) }
              let s := s.forEach chans fun s x => s.updChan x.1 x.2.1 fun h => { h with rst := 1, inst := 0, fwd := [] }
              let s := s.updPart p fun q => { q with
                rings := Tab.set none q.rings n g
                badRings := setBits q.badRings n 1 (bitN g.isNone), commits := setBits q.commits n 1 0 }
              s.settleRings)
  | _ => .next s

/-! ## The start of channel commands (09 R215 to R217, R222, R226) -/

/-- Whether an earlier command on the same channel has not started, or an earlier CHRECV of it is not complete. -/
def Core.behind (k : Core) (y : YCmd) : Bool :=
  match YKind.channel y.kind with
  | none => false
  | some ch => k.ycmds.any fun z => decide (z.id < y.id) && YKind.channel z.kind == some ch && (!z.started || (match z.kind with
      | .chrecv _ => true
      | .chsend _ => !z.arrived
      | .chstart _ | .chabort _ | .semadd _ _ | .drain | .step _ => false))

/-- Whether a command is a flow operation (04 R84). -/
def YKind.flowOp : YKind → Bool
  | .chsend _ => true
  | .chrecv _ => true
  | .chstart _ => true
  | .chabort _ => true
  | .semadd _ _ | .drain | .step _ => false

/-- A command of the channel command queue is tried. -/
def State.yTry (s : State) (c : Nat) (y : YCmd) : State :=
  match s.core? c with
  | none => s
  | some k =>
    let held := YKind.flowOp y.kind && (k.drainBefore y.ctx y.id || s.flowsHeld c)
    if !y.started && (k.behind y || held || k.fenced y.ctx y.id (YKind.path y.kind)) then s
    else
      let mark := s.updCore c fun k => k.updY y.id fun y => { y with started := true }
      match y.kind with
      | .chsend ch =>
        (match k.chan? ch with
          | none => s
          | some h =>
            if y.arrived || y.faulted then s
            else if y.started then s.chsendOn c y h ch
            else if h.cred = 0 then s
            else (mark.updChan c ch fun h => { h with cred := h.cred - 1 }).chsendOn c y h ch)
      | .chrecv ch =>
        (match k.chan? ch with
          | none => s
          | some h =>
            if y.started then s
            else
              let s := if 0 < h.next && !y.crsent then mark.sendCredit c h else mark
              s.postOnce 0 (.chrecvCompletion c ch))
      | .chstart ch =>
        (match k.chan? ch with
          | none => s
          | some h =>
            let s := s.updCore c fun k => k.dropY y.id
            match h.rst with
            | 1 => s.newInstance c ch y.id y.ctx y.sync
            | 2 => s.updChan c ch fun h => { h with rst := 3, pend := some y }
            | _ => (s.postErr c y.sync).afterCommand c)
      | .chabort ch => (s.abortRing c ch true).yDone c y false
      | .semadd _ _ => if y.started then s else s.postOnce 1 (.semaddApply c y.id)
      | .drain => s.postOnce 0 (.drainStart c y.id)
      | .step l => s.stepOn c y l

/-- CHANNEL_COMMAND_START: every command that can start does, in issue order. -/
def execChannelCommandStart (s : State) : Host.Outcome State Fault Refusal :=
  match s.ev with
  | .channelCommandStart c =>
    .next (match s.core? c with
      | none => s
      | some k => s.forEach (k.ycmds.map (·.id)) fun s id =>
          match (s.core? c).bind fun k => k.ycmd id with
          | none => s
          | some y => s.yTry c y)
  | _ => .next s

/-! ## Links (09 R229 to R231, 13 R312) -/

/-- LINK_TRAINING: the port has trained; it comes up once its keys are in place, with its lanes (13 R312), and gives its link the packets that it held,
each once (09 R229, R231). RETRAIN counts every training after the first. A port of a module that bring-up holds in reset does not train (14 R326). -/
def execLinkTraining (s : State) : Host.Outcome State Fault Refusal :=
  match s.ev with
  | .linkTraining n lanes tsync keyed =>
    .next (match s.port? n with
      | none => s
      | some p =>
        if !s.module.fuses.lpen.getLsbD n || s.module.booterr ≠ 0 then s
        else
          let s := s.updPort n fun q =>
            { q with
              up := keyed, lanes := lanes, tsync := tsync, retrain := if p.again then satInc16 q.retrain 1 else q.retrain, again := true
              key := if keyed then s.module.nextKey else q.key, authFails := 0
              sent := if keyed then q.sent.map fun x => { x with given := true } else q.sent }
          let s := { s with module := { s.module with nextKey := if keyed then s.module.nextKey + 1 else s.module.nextKey } }
          s.forEach p.sent fun s x => if x.given || !keyed then s else s.emit (.link n x.pkt))
  | _ => .next s

/-- LINK_TIMEOUT: a packet that the peer has not acknowledged within LINKTMO is discarded with those behind it, and UP is cleared; the launches
that lost a packet end REMOTE_INCOMPLETE. -/
def execLinkTimeout (s : State) : Host.Outcome State Fault Refusal :=
  match s.ev with
  | .linkTimeout n =>
    .next (match s.port? n with
      | none => s
      | some p =>
        match p.sent with
        | [] => s
        | x :: _ =>
          if s.ticks < x.since + s.linkLimit n then s.postOnce (max 1 (s.cyclesOf (x.since + s.linkLimit n - s.ticks))) (.linkTimeout n)
          else
            let ls := p.sent.filterMap (·.launch)
            let s := s.updPort n fun q => { q with sent := [], up := false }
            let s := s.forEach ls fun s l => (s.updLaunch l fun q => { q with remote := true }).postOnce 0 (.launchCompletion l)
            match s.portHolder n with
            | none => s
            | some part => s.notice part 0x18 (BitVec.ofNat 64 (n + fieldAt 63 1)))
  | _ => .next s

/-- The tiles on the outer edges of a die, by their COREIDs: those of rows 0 and 15 and of the column away from the seam (01 R11, R12). -/
def edgeTiles (d : Nat) : List Nat :=
  (List.range 256).filterMap fun i =>
    if i / 16 = 0 || i / 16 = 15 || i % 16 = (if d = 0 then 0 else 15) then some (256 * d + i) else none

/-- The router to which a link port attaches: ports 0 to 8 on die 0, 9 to 17 on die 1, at which tile of an outer edge the spec does not say (01 R11,
09 R230). -/
def portRouter (n : Nat) : Nat := (edgeTiles (n / 9)).getD (Config.portRouter n % 46) 0

/-- LINK_PACKET_ARRIVAL: a packet from the peer enters the mesh at the port's router (09 R230); or the peer's acknowledgement of the oldest packet; or a
flit that fails authentication: it is sent again, and with the 16th in a row the port retrains and draws new keys (13 R312). A disabled port takes
nothing (01 R18). -/
def execLinkPacketArrival (s : State) : Host.Outcome State Fault Refusal :=
  match s.ev with
  | .linkPacketArrival n a =>
    .next (match s.port? n with
      | none => s
      | some q =>
        if !s.module.fuses.lpen.getLsbD n then s
        else
          let good := s.updPort n fun q => { q with authFails := 0 }
          match a with
          | .authFails =>
            if q.authFails + 1 < 16 then s.updPort n fun q => { q with authFails := q.authFails + 1 }
            else
              let s := s.updPort n fun q => { q with authFails := 0, up := false, again := false, retrain := satInc16 q.retrain 1, key := s.module.nextKey }
              { s with module := { s.module with nextKey := s.module.nextKey + 1 } }
          | .ack =>
            let s := good.updPort n fun q => { q with sent := q.sent.drop 1 }
            (match q.sent.head?.bind (·.launch) with
              | none => s
              | some l => s.postOnce 0 (.launchCompletion l))
          | .packet p =>
            let p := { p with
              part := q.bpart, src := BitVec.ofNat 9 n, srck := 1, xt := false, flow := BitVec.ofNat 12 (bitsOf p.daddr 0 12), rows := [] }
            -- while a DRAFTLD is under way it waits at the port (16 R384)
            if good.flowsHeld (portRouter n) then good.post 1 (.linkPacketArrival n (.packet p))
            else good.post 0 (.packetArrival (portRouter n) 4 p))
  | _ => .next s

end Sys2Proof.Machine
end

