-- ==== Sys2Proof/Machine/Draft.lean ====
section
/-! DEFINITION. The Draft (08 R201, R202): its records, the checks that make it bad, the scheduler's cycle check, and its loading into routers. -/

namespace Sys2Proof.Machine

/-- A word of a list; +0 where it has none. -/
def wordAt (ws : List PWord) (i : Nat) : Nat := (ws.getD i ⟨0, false⟩).w.toNat

/-- The record that begins at a word; none where a reserved field of it is not zero. -/
def draftRec (ws : List PWord) (cw ch i : Nat) : Option DraftRec :=
  let h := wordAt ws i
  let lx := h % 16
  let ly := h / 16 % 8
  if h / 65536 ≠ 0 || wordAt ws (i + 1) ≠ 0 || wordAt ws (i + 2) ≠ 0 || wordAt ws (i + 3) ≠ 0 then none
  else
    some ⟨if cw ≤ lx || ch ≤ ly then 4 * cw * ch else (ly * cw + lx) * 4 + h / 128 % 4, h / 512 % 2 = 1, h / 1024 % 64,
      BitVec.ofNat 128 (wordAt ws (i + 4) + 2 ^ 32 * wordAt ws (i + 5) + 2 ^ 64 * wordAt ws (i + 6) + 2 ^ 96 * wordAt ws (i + 7))⟩

/-- The records of a Draft given as words; none where its header or a record is bad. A poisoned word makes it bad: 08 R202
and R203 do not name one (DESIGN CHOICE, log entry 60). -/
def draftRecs (ws : List PWord) (cw ch : Nat) : Option (List DraftRec) :=
  let n := wordAt ws 0
  if ws.length ≠ 4 + 8 * n || wordAt ws 1 ≠ 0 || wordAt ws 2 ≠ 0 || wordAt ws 3 ≠ 0 || ws.any (·.p) then none
  else
    let l := (List.range n).map fun i => draftRec ws cw ch (4 + 8 * i)
    if l.all Option.isSome then some (l.filterMap id) else none

/-- A flow entry with a reserved field or a reserved code (08 Table 3). -/
def Rec128.reserved (e : Rec128) : Bool :=
  bitsOf e 29 3 != 0 || bitsOf e 114 14 != 0 || decide (4 < bitsOf e 1 3) || decide (5 < Rec128.act e) || bitsOf e 19 2 == 3
    || bitsOf e 27 2 == 1 || bitsOf e 27 2 == 3

/-- A valid flow entry whose fields break a rule of its action (08 R192, R194, R202). -/
def Rec128.misfit (e : Rec128) : Bool :=
  let a := Rec128.act e
  let op := bitsOf e 19 2
  let ft := bitsOf e 21 1
  let hm1 := bitsOf e 106 8
  if Rec128.groups e then
    bitsOf e 27 2 != 2 || Rec128.xcnt e == 0 || Rec128.quota e == 0 || decide (Rec128.quota e < Rec128.xcnt e) || hm1 != 0
      || (a == 3 && bitsOf e 64 16 != 0) || (a == 5 && (op != 0 || ft != 0))
  else
    op != 0 || ft != 0 || Rec128.xcnt e != 0 || (a != 4 && hm1 != 0) || (a == 4 && decide (65536 < (Rec128.quota e + 1) * (hm1 + 1)))

/-- A bad endpoint descriptor (08 R197, R202). -/
def Rec128.badEndpoint (d : Rec128) : Bool :=
  let b := Rec128.base d
  bitsOf d 76 52 != 0 || decide (5 < Rec128.dk d) || (Rec128.dk d == 3 && decide (191 < b))
    || (Rec128.dk d == 4 && (decide (17 < b % 32) || decide (2 ^ 21 ≤ b) || b / 2 ^ 17 != 0))

/-- The neighbour of a router inside a launch's rectangle, by logical core index. -/
def logicalNext (cw ch i port : Nat) : Option Nat :=
  let r := 2 * (i / 4 / cw) + i % 4 / 2
  let c := 2 * (i / 4 % cw) + i % 2
  let core := fun (r c : Nat) => (r / 2 * cw + c / 2) * 4 + r % 2 * 2 + c % 2
  match port with
  | 0 => if r = 0 then none else some (core (r - 1) c)
  | 1 => if c + 1 < 2 * cw then some (core r (c + 1)) else none
  | 2 => if r + 1 < 2 * ch then some (core (r + 1) c) else none
  | _ => if c = 0 then none else some (core r (c - 1))

/-- An output of the dependency graph (08 R202): its router, its entry, its port. -/
abbrev Output3 := Nat × Rec128 × Nat

/-- The outputs that an output depends on. -/
def dependsOn (cw ch : Nat) (outs : List Output3) (o : Output3) : List Output3 :=
  match logicalNext cw ch o.1 o.2.2 with
  | none => []
  | some n => outs.filter fun x =>
      x.1 == n && bitsOf x.2.1 4 12 == Rec128.oflow o.2.1 && bitsOf x.2.1 1 3 == oppositePort o.2.2

/-- The outputs that are left when those that depend on none that is left go, again and again. -/
def cyclic (cw ch : Nat) : Nat → List Output3 → List Output3
  | 0, l => l
  | n + 1, l =>
    let m := l.filter fun o => !(dependsOn cw ch l o).isEmpty
    if m.length = l.length then l else cyclic cw ch n m

/-- Whether the records break a rule of 08 R202. A flow entry with V = 0 counts toward the 512 entries of its router, which it has where LX and LY lie
inside the launch, and is checked for reserved fields and codes; every other check is for the valid entries and the endpoint descriptors. -/
def badRecords (cw ch : Nat) (l : List DraftRec) : Bool :=
  let eps := l.filter (·.ep)
  let ents := l.filter fun r => !r.ep
  let valid := ents.filter fun r => r.body.getLsbD 0
  let groups := valid.filter fun r => Rec128.groups r.body
  let same := fun (a b : Rec128) => (a ||| 0xF#128) == (b ||| 0xF#128)
  let firsts := groups.zipIdx.filter fun x => !(groups.take x.2).any fun y => y.at' == x.1.at' && bitsOf y.body 4 12 == bitsOf x.1.body 4 12
  (ents.any fun r => Rec128.reserved r.body || (decide (r.at' < 4 * cw * ch) && decide (512 < (ents.filter fun x => x.at' == r.at').length)))
    || (eps.any fun r => decide (4 * cw * ch ≤ r.at') || Rec128.badEndpoint r.body || decide (1 < (eps.filter fun x => x.at' == r.at' && x.epx == r.epx).length))
    || (valid.any fun r => decide (4 * cw * ch ≤ r.at') || r.epx != 0 || Rec128.misfit r.body
        || decide (1 < (valid.filter fun x => x.at' == r.at' && bitsOf x.body 1 3 == bitsOf r.body 1 3 && bitsOf x.body 4 12 == bitsOf r.body 4 12).length)
        || ((Rec128.ports r.body).any fun p => (logicalNext cw ch r.at' p).isNone)
        || (r.body.getLsbD 26 && !(eps.any fun x => x.at' == r.at' && x.epx == bitsOf r.body 80 6)))
    || (groups.any fun r => groups.any fun x =>
        x.at' == r.at' && bitsOf x.body 4 12 == bitsOf r.body 4 12 && !same x.body r.body)
    || (firsts.any fun x => decide (256 < ((firsts.filter fun y => y.1.at' == x.1.at').map fun y => Rec128.quota y.1.body).sum))

/-- The records of a Draft that passes the checks of 08 R202. -/
def checkDraft (ws : List PWord) (cw ch : Nat) : Option (List DraftRec) :=
  match draftRecs ws cw ch with
  | none => none
  | some l => if badRecords cw ch l then none else some l

/-- Whether the dependency graph of a Draft has a cycle: the scheduler refuses such a Draft, DRAFTLD does not look (08 R202). -/
def draftCycle (cw ch : Nat) (l : List DraftRec) : Bool :=
  let outs := (l.filter fun r => !r.ep && r.body.getLsbD 0).flatMap fun r => (Rec128.ports r.body).map fun p => ((r.at', r.body, p) : Output3)
  !(cyclic cw ch (outs.length + 1) outs).isEmpty

/-- The routers of a launch take the entries and descriptors of a Draft, all at one moment (08 R203). -/
def State.loadDraft (s : State) (q : Launch) (l : List DraftRec) : State :=
  s.forEach (List.range (4 * q.cw * q.ch)) fun s i =>
    let mine := l.filter fun r => r.at' == i
    s.updRouter (q.coreOf i) fun t => { t with
      part := some q.part
      entries := (mine.filter fun r => !r.ep).map (·.body)
      eps := (mine.filter (·.ep)).foldl (fun e r => Tab.set 0 e r.epx r.body) [] }

end Sys2Proof.Machine
end

