-- ==== Sys2Proof/Machine/Work.lean ====
section
/-! DEFINITION. Work, placement and scheduling (02 R19 to R47, R571): queues, launch entries and images, dispatch, placement, task start, completion,
power gating; LAUNCH (16 R405 to R407). -/

namespace Sys2Proof.Machine

/-! ## What the scheduler reads and writes, under a partition's page tables -/

/-- `n` words from an aligned virtual address on, at their home slices; else a cause and TRAPINFO. -/
def State.partWords (s : State) (p : Nat) : Nat → Nat → Nat → State × (List PWord ⊕ Nat × Word64)
  | 0, _, _ => (s, .inl [])
  | fuel + 1, va, n =>
    if n = 0 then (s, .inl [])
    else if 2 ^ 52 ≤ va then (s, .inr (0x07, BitVec.ofNat 64 (va % 2 ^ 52)))
    else
      match s.translateHome p va .read with
      | (s, .fault cause info) => (s, .inr (cause, info))
      | (s, .leaf l) =>
        let here := min n ((64 - va % 64) / 4)
        match s.homeWords ⟨p, l.ed, none, s.rangeAt p va⟩ 3 l.pa here with
        | (s, ws) =>
          match s.partWords p fuel (va + 4 * here) (n - here) with
          | (s, .inl rest) => (s, .inl (ws.map (fun w => ⟨w.w, w.p || l.psn⟩) ++ rest))
          | (s, .inr f) => (s, .inr f)

/-- The words that begin `off` bytes into the words of a list, which holds one more. -/
def shiftWords (off : Nat) (ws : List PWord) : List PWord :=
  (ws.zip ws.tail).map fun x => ⟨BitVec.ofNat 32 (x.1.w.toNat / 2 ^ (8 * off) + x.2.w.toNat * 2 ^ (32 - 8 * off)), x.1.p || x.2.p⟩

/-- `n` words from an address on, which the structures of an image need not align (02 R21, R22). -/
def State.readPart (s : State) (p va n : Nat) : State × (List PWord ⊕ Nat × Word64) :=
  if n = 0 || va % 4 = 0 then s.partWords p (n + 1) va n
  else
    match s.partWords p (n + 2) (va - va % 4) (n + 1) with
    | (s, .inl ws) => (s, .inl (shiftWords (va % 4) ws))
    | (s, .inr f) => (s, .inr f)

/-- A word written at its home slice; else a cause and TRAPINFO. For an address from 2^52 on, which 10 R259 gives no level, TRAPINFO is that of a write
with level 0 (DESIGN CHOICE, log entry 36). -/
def State.writePart (s : State) (p va : Nat) (w : PWord) : State × Option (Nat × Word64) :=
  if 2 ^ 52 ≤ va then (s, some (0x07, BitVec.ofNat 64 (va % 2 ^ 52 + 2 ^ 52)))
  else
    match s.translateHome p va .write with
    | (s, .fault cause info) => (s, some (cause, info))
    | (s, .leaf l) => (s.homePut ⟨p, l.ed, none, s.rangeAt p va⟩ l.pa 4 w.w.toNat w.p, none)

/-- Words written one after another; they lie in one page. -/
def State.writesPart (s : State) (p va : Nat) : List PWord → State × Option (Nat × Word64)
  | [] => (s, none)
  | w :: ws =>
    match s.writePart p va w with
    | (s, some f) => (s, some f)
    | (s, none) => s.writesPart p (va + 4) ws

/-! ## Queues (02 R28 to R34, R571) -/

/-- A queue descriptor as read (02 Table 5). -/
structure QDesc where
  ring : Nat
  head : Nat
  en : Bool
  own : Bool
  prio : Nat
  log2n : Nat
  /-- it is treated as EN = 0 and gets ERR -/
  bad : Bool
deriving DecidableEq, Repr

/-- The address of descriptor q. -/
def Part.qdesc (p : Part) (q : Nat) : Nat := bitsOf p.qtbase 12 40 * 4096 + 32 * q

/-- The descriptor in eight words. A RING that is not 64-byte aligned makes it a bad one (DESIGN CHOICE, log entry 57). -/
def qdescOf (ws : List PWord) : QDesc :=
  let f := wordsBits ws
  ⟨f 0 64, f 64 32, f 96 1 = 1, f 97 1 = 1, f 98 3, f 101 5,
    f 107 21 ≠ 0 || f 128 128 ≠ 0 || f 101 5 < 4 || 16 < f 101 5 || f 0 64 % 64 ≠ 0 || ws.any (·.p)⟩

/-- A queue that the scheduler has not been told of. -/
def Queue.unknown : Queue := ⟨false, 0, 0, false, none, false⟩
/-- The scheduler's view of a queue. -/
def Part.queue (p : Part) (q : Nat) : Queue := Tab.get Queue.unknown p.queues q
/-- A partition with the view of a queue replaced. -/
def Part.setQueue (p : Part) (q : Nat) (x : Queue) : Part := { p with queues := Tab.set Queue.unknown p.queues q x }
/-- QTAIL of a queue. -/
def Part.qtail (p : Part) (q : Nat) : Nat := (Tab.get 0 p.qtails q).toNat

/-- A read for a queue faulted: it stands, and the cause goes once to the control context, again only where the reads have succeeded or another fault
has come in between (02 R571). -/
def State.queueFault (s : State) (p q : Nat) (f : Nat × Word64) : State :=
  match s.part? p with
  | none => s
  | some x =>
    let s := if (x.queue q).noticed == some f then s else s.notice p f.1 f.2
    s.updPart p fun x => x.setQueue q { x.queue q with faulted := true, noticed := some f }

/-- The descriptor of a queue; none where its read faults. -/
def State.readQueue (s : State) (p q : Nat) : State × Option QDesc :=
  match s.part? p with
  | none => (s, none)
  | some x =>
    match s.readPart p (x.qdesc q) 8 with
    | (s, .inr f) => (s.queueFault p q f, none)
    | (s, .inl ws) => (s, some (qdescOf ws))

/-- ERR of a descriptor is set, where it can be written. -/
def State.setQueueErr (s : State) (p q : Nat) : State :=
  match s.part? p with
  | none => s
  | some x =>
    match s.readPart p (x.qdesc q + 12) 1 with
    | (s, .inl [w]) => (s.writePart p (x.qdesc q + 12) ⟨w.w ||| 0x400, w.p⟩).1
    | (s, _) => s

/-- Whether a queue has work, by its descriptor. -/
def QDesc.work (d : QDesc) (tail : Nat) : Bool := d.en && !d.bad && (tail + 2 ^ 32 - d.head) % 2 ^ 32 != 0

/-- A queue gets a hardware slot. -/
def Part.bindQueue (now : Nat) (p : Part) (q : Nat) : Part :=
  { p.setQueue q { p.queue q with bound := true, since := now } with boundQ := p.boundQ ++ [q] }

/-- Rule 3 of 02 R31: free slots are filled from the head of the waiting list. -/
def Part.fillSlots (p : Part) (now : Nat) : Part :=
  let n := 64 - p.boundQ.length
  (p.waitQ.take n).foldl (Part.bindQueue now) { p with waitQ := p.waitQ.drop n }

/-- The descriptor of a queue and the words of its head entry: none where it has no work, or where a read faults (02 R571). A descriptor in error is
marked. -/
def State.readHead (s : State) (p q : Nat) : State × Option (QDesc × List PWord) :=
  match s.readQueue p q with
  | (s, none) => (s, none)
  | (s, some d) =>
    let s := if d.bad then s.setQueueErr p q else s
    let whole := fun (s : State) => s.updPart p fun x => x.setQueue q { x.queue q with faulted := false, noticed := none }
    match s.part? p with
    | none => (s, none)
    | some x =>
      if !d.work (x.qtail q) then (whole s, none)
      else
        match s.readPart p (d.ring + 64 * (d.head % 2 ^ d.log2n)) 16 with
        | (s, .inr f) => (s.queueFault p q f, none)
        | (s, .inl ws) => (whole s, some (d, ws))

/-- A queue is read again: where it has gained work it waits for a slot. -/
def State.lookQueue (s : State) (p q : Nat) : State × Option (QDesc × List PWord) :=
  match s.readHead p q with
  | (s, none) => (s, none)
  | (s, some h) =>
    (s.updPart p fun x =>
      (if x.boundQ.contains q || x.waitQ.contains q then x else { x with waitQ := x.waitQ ++ [q] }).fillSlots s.ticks, some h)

/-- Whether the function of a partition accepts a request of the host: while its TDI is in RUN, only one on an IDE stream with T = 1 (13 R318). -/
def State.takesHost (s : State) (p : Nat) (ide : Bool) : Bool :=
  match s.part? p with
  | none => false
  | some x => ide || x.tdist != 2

/-- QTAIL_WRITE (02 R29). -/
def execQtailWrite (s : State) : Host.Outcome State Fault Refusal :=
  match s.ev with
  | .qtailWrite p q v ide =>
    .next (match s.part? p with
      | none => s.emit (.hostError p)
      | some x =>
        if !s.takesHost p ide then s.emit (.hostError p)
        else if x.fenced || decide (4096 ≤ q) then s
        else
          let s := s.updPart p fun x => x.setQueue q { x.queue q with known := true }
          match s.readQueue p q with
          | (s, none) => s.updPart p fun x => { x with qtails := Tab.set 0 x.qtails q v }
          | (s, some d) =>
            if d.bad || !d.en || d.own || 2 ^ d.log2n < (v.toNat + 2 ^ 32 - d.head) % 2 ^ 32 then s.setQueueErr p q
            else
              let s := s.updPart p fun x => { x with qtails := Tab.set 0 x.qtails q v }
              (s.lookQueue p q).1.postOnce 1 (.dispatch p))
  | _ => .next s

/-! ## Entries and images (02 R21 to R23, R30) -/

/-- A launch entry in sixteen words (02 Table 6). -/
def entryOf (ws : List PWord) : Entry :=
  let f := wordsBits ws
  { limg := BitVec.ofNat 64 (f 0 64), arg := BitVec.ofNat 64 (f 64 64), crec := BitVec.ofNat 64 (f 128 64)
    wsem := BitVec.ofNat 8 (f 192 8), wthr := BitVec.ofNat 16 (f 200 16), ssem := BitVec.ofNat 8 (f 224 8), sinc := BitVec.ofNat 8 (f 232 8)
    deperr := f 256 1 = 1, irq := f 257 1 = 1, vec := BitVec.ofNat 12 (f 260 12)
    bad := f 216 8 ≠ 0 || f 240 16 ≠ 0 || f 258 2 ≠ 0 || f 272 240 ≠ 0 || f 0 64 % 256 ≠ 0 || f 128 64 % 32 ≠ 0 || ws.any (·.p) }

/-- A structure of the image, wholly readable and without poison. -/
def State.imagePart (s : State) (p va n : Nat) : State × Option (List PWord) :=
  match s.readPart p va n with
  | (s, .inl ws) => (s, if ws.any (·.p) then none else some ws)
  | (s, .inr _) => (s, none)

/-- Whether a channel entry breaks a rule of 09 R214 that it shows by itself. A send or receive entry with a reserved element code does, as with a reserved
field: R214 names the types of rings alone (DEDUCED, log entry 93). -/
def badChannel (cores : Nat) (e : BitVec 256) : Bool :=
  let f := bitsOf e
  match f 0 2 with
  | 0 => e != 0
  | 3 =>
    (f 2 4 != 8 && f 2 4 != 9) || f 6 14 != 0 || f 32 22 != 0 || f 54 2 == 3 || f 60 4 != 0 || f 64 64 % 256 != 0 || f 128 32 == 0
      || f 176 16 != 0 || f 192 64 != 0
  | _ =>
    (etypeOf (f 2 4)).isNone || f 12 8 == 0 || f 54 10 != 0 || f 64 64 % 256 != 0 || f 128 128 != 0 || decide (cores ≤ f 32 16)

/-- Whether a send or receive entry and its peer's entry disagree (09 R214). -/
def badPeer (l : List CoreRec) (i ch : Nat) (e : BitVec 256) : Bool :=
  let f := bitsOf e
  if f 0 2 ≠ 1 && f 0 2 ≠ 2 then false
  else
    match (l[f 32 16]?).bind fun r => r.chans[f 48 6]? with
    | none => true
    | some g =>
      let h := bitsOf g
      h 0 2 != 3 - f 0 2 || h 32 16 != i || h 48 6 != ch || h 2 18 != f 2 18 || h 20 12 != f 20 12

/-- The record of a core, with the channel table it names; none where a rule of 02 R23 is broken. -/
def State.coreRec (s : State) (p limg cores : Nat) (ws : List PWord) : State × Option CoreRec :=
  let f := wordsBits ws
  let tasks := (List.range 4).map fun n => f (32 * n) 32
  let own := f 128 2
  if f 130 5 ≠ 0 || f 136 8 ≠ 0 || 8192 < f 144 16 || f 192 320 ≠ 0 || (tasks.any fun t => t % 4 != 0)
      || (f 135 1 = 1 && tasks.getD own 0 = 0) then (s, none)
  else
    match (tasks.filter (· ≠ 0)).foldl (fun (a : State × Bool) t =>
        match a.1.readPart p (limg + t) 1 with
        | (s, .inl _) => (s, a.2)
        | (s, .inr _) => (s, false)) (s, true) with
    | (s, false) => (s, none)
    | (s, true) =>
      let r := fun (c : List (BitVec 256)) => (⟨tasks, if f 135 1 = 1 then some own else none, f 144 16, c⟩ : CoreRec)
      if f 160 32 = 0 then (s, some (r []))
      else
        match s.imagePart p (limg + f 160 32) 512 with
        | (s, none) => (s, none)
        | (s, some t) =>
          let l := (List.range 64).map fun i => BitVec.ofNat 256 (wordsNat ((t.drop (8 * i)).take 8))
          (s, if l.any (badChannel cores) then none else some (r l))

/-- The records of the cores. -/
def State.coreRecs (s : State) (p limg cores : Nat) : List (List PWord) → State × Option (List CoreRec)
  | [] => (s, some [])
  | w :: ws =>
    match s.coreRec p limg cores w with
    | (s, none) => (s, none)
    | (s, some r) =>
      match s.coreRecs p limg cores ws with
      | (s, none) => (s, none)
      | (s, some l) => (s, some (r :: l))

/-- The addresses of the grid images; none where a rule is broken. -/
def State.gridImages (s : State) (p limg : Nat) : List (List PWord) → State × Option (List Nat)
  | [] => (s, some [])
  | w :: ws =>
    if wordAt w 0 % 4096 ≠ 0 || wordAt w 1 ≠ 0 then (s, none)
    else
      match s.readPart p (limg + wordAt w 0) 1024 with
      | (s, .inr _) => (s, none)
      | (s, .inl _) =>
        match s.gridImages p limg ws with
        | (s, none) => (s, none)
        | (s, some l) => (s, some ((limg + wordAt w 0) :: l))

/-- A list cut into pieces of `n`. -/
def pieces {α : Type} (n : Nat) : Nat → List α → List (List α)
  | 0, _ => []
  | k + 1, l => l.take n :: pieces n k (l.drop n)

/-- A launch image, validated (02 R23, 08 R202, 09 R214); none where it is invalid. 02 R23 does not name a GRIDCNT outside the range of 02 R21, 0 to 255:
such an image is invalid (DESIGN CHOICE, log entry 58). -/
def State.readImage (s : State) (p limg : Nat) : State × Option Image :=
  match s.imagePart p limg 16 with
  | (s, none) => (s, none)
  | (s, some h) =>
    let f := wordsBits h
    let cw := f 48 8
    let ch := f 56 8
    let n := 4 * cw * ch
    if f 0 32 ≠ 0x4C4E4B39 || f 32 16 ≠ 1 || cw = 0 || 16 < cw || ch = 0 || 8 < ch || f 96 32 % 16 ≠ 0 || f 128 32 % 64 ≠ 0 || 255 < f 192 16
        || f 209 15 ≠ 0 || f 224 288 ≠ 0 then (s, none)
    else
      match s.imagePart p (limg + f 64 32) (f 96 32 / 4), f 96 32 with
      | (s, none), _ => (s, none)
      | (s, some dw), len =>
        match if len = 0 then some [] else checkDraft dw cw ch with
        | none => (s, none)
        | some draft =>
          if draftCycle cw ch draft then (s, none)
          else
            match s.imagePart p (limg + f 128 32) (16 * n) with
            | (s, none) => (s, none)
            | (s, some t) =>
              match s.coreRecs p limg n (pieces 16 n t) with
              | (s, none) => (s, none)
              | (s, some cores) =>
                if (cores.zipIdx).any fun x => (x.1.chans.zipIdx).any fun y => badPeer cores x.2 y.2 y.1 then (s, none)
                else
                  match s.imagePart p (limg + f 160 32) (2 * f 192 16) with
                  | (s, none) => (s, none)
                  | (s, some g) =>
                    match s.gridImages p limg (pieces 2 (f 192 16) g) with
                    | (s, none) => (s, none)
                    | (s, some grids) =>
                      (s, some ⟨cw, ch, f 208 1 = 1, draft, cores, grids, Config.imageDigest ((h ++ dw ++ t ++ g).map (·.w))⟩)

/-! ## Completion records and signals (02 R35, R45 to R47) -/

/-- The last steps of a completion: the record, the launch semaphore, the interrupt. -/
def State.complete (s : State) (p : Nat) (e : Entry) (status killed first tstart : Nat) : State :=
  let w := fun (n : Nat) => (⟨BitVec.ofNat 32 n, false⟩ : PWord)
  let s :=
    if e.crec = 0 then s
    else
      match s.writesPart p e.crec.toNat
        [w (status + 65536 * (killed % 65536)), w first, w tstart, w (tstart / 2 ^ 32), w s.ticks, w (s.ticks / 2 ^ 32), w 0, w 0] with
      | (s, none) => s
      | (_, some f) => s.notice p f.1 f.2
  let s :=
    if e.sinc = 0 then s
    else
      s.updPart p fun x =>
        let m := Tab.get ⟨0, false, false⟩ x.lsems e.ssem.toNat
        let v := m.val.toNat + e.sinc.toNat
        { x with lsems := Tab.set ⟨0, false, false⟩ x.lsems e.ssem.toNat
                    ⟨BitVec.ofNat 16 (min 65535 v), m.err || status ≠ 0, m.ovf || decide (65535 < v)⟩ }
  let s := if e.irq then s.emit (.irq p e.vec.toNat) else s
  s.postOnce 1 (.dispatch p)

/-- An entry that never ran completes (02 R47). One that is refused for a CREC that is not 32-byte aligned gets no record: 02 R45 step 4 writes one where CREC
is not 0, and the spec does not say where a misaligned one would lie (DESIGN CHOICE, log entry 90). -/
def State.completeUnrun (s : State) (p : Nat) (e : Entry) (status : Nat) : State :=
  s.complete p (if e.crec.toNat % 32 = 0 then e else { e with crec := 0 }) status 0 0 s.ticks

/-- LAUNCH_SEMAPHORE_WRITE by the host (02 R35): VALUE as written, ERR and OVF cleared by ones. -/
def execLaunchSemaphoreWrite (s : State) : Host.Outcome State Fault Refusal :=
  match s.ev with
  | .launchSemaphoreWrite p n v ide =>
    .next (match s.part? p with
      | none => s.emit (.hostError p)
      | some x =>
        if !s.takesHost p ide then s.emit (.hostError p)
        else if x.fenced then s
        else
          (s.updPart p fun x =>
            let m := Tab.get ⟨0, false, false⟩ x.lsems (n % 256)
            { x with lsems := Tab.set ⟨0, false, false⟩ x.lsems (n % 256)
                        ⟨v.truncate 16, m.err && !v.getLsbD 16, m.ovf && !v.getLsbD 17⟩ }).postOnce 1 (.dispatch p))
  | _ => .next s

/-! ## Shapes and rectangles (02 R24, R25, R37) -/

/-- CLUSTERID of the cluster at a column and a row of the module. -/
def clusterAt (mx my : Nat) : Nat := mx / 8 * 64 + my * 8 + mx % 8

/-- The clusters of a rectangle. -/
def rectangle (ox oy cw ch : Nat) : List Nat :=
  (List.range (cw * ch)).map fun i => clusterAt (ox + i % cw) (oy + i / cw)

/-- Whether a cluster is one of a partition's enabled clusters. -/
def State.ownsCluster (s : State) (p cl : Nat) : Bool :=
  Fuses.enabled s.module.fuses cl && (match s.part? p with | none => false | some x => x.entry.en && x.entry.clmask.getLsbD cl)

/-- The origins at which a shape fits into a partition, lowest oy first, then lowest ox. -/
def State.origins (s : State) (p cw ch : Nat) (dieLocal : Bool) : List (Nat × Nat) :=
  ((List.range (9 - ch)).flatMap fun oy => (List.range (17 - cw)).map fun ox => (ox, oy)).filter fun o =>
    (!dieLocal || o.1 / 8 == (o.1 + cw - 1) / 8) && (rectangle o.1 o.2 cw ch).all fun cl => s.ownsCluster p cl

/-- Whether a cluster is free. -/
def State.freeCluster (s : State) (cl : Nat) : Bool :=
  match s.cluster? cl with
  | none => false
  | some x => x.launch.isNone
/-- Whether a cluster is gated. -/
def State.gatedCluster (s : State) (cl : Nat) : Bool :=
  match s.cluster? cl with
  | none => true
  | some x => x.gated

/-- The rectangle that 02 R37 step 3 chooses among the free ones. -/
def State.chooseOrigin (s : State) (p cw ch : Nat) (dieLocal : Bool) : Option (Nat × Nat) :=
  let cost := fun (o : Nat × Nat) =>
    2 * ((rectangle o.1 o.2 cw ch).filter s.gatedCluster).length + bitN (o.1 / 8 != (o.1 + cw - 1) / 8)
  (((s.origins p cw ch dieLocal).filter fun o => (rectangle o.1 o.2 cw ch).all s.freeCluster).foldl (fun best o =>
    match best with
    | none => some o
    | some b => if cost o < cost b then some o else some b) none)

/-- The limit point that the quarters of a cluster take on waking (10 R252): the highest of any quarter, no lower than the point in force. -/
def State.wakeLimpt (s : State) : Nat :=
  let gated := s.clusters.foldl (fun n kv =>
    match kv.2 with
    | none => n
    | some x => if x.gated && Fuses.enabled s.module.fuses kv.1 then x.limpts.foldl max n else n) s.module.pt
  s.cores.foldl (fun n kv => match kv.2 with | none => n | some k => max n k.stash.limpt) gated

/-- The rows usable at a core's limit point (10 R253). -/
def State.rowsOfCore (s : State) (c : Nat) : Nat :=
  Fuses.usableRows s.module.fuses c (match s.core? c with | none => s.wakeLimpt | some k => k.stash.limpt)

/-! ## Dispatch (02 R32, R33) -/

/-- Whether the wait of an entry is satisfied (02 R35). -/
def Part.entryReady (p : Part) (e : Entry) : Bool :=
  e.wthr == 0 || decide (e.wthr.toNat ≤ (Tab.get ⟨0, false, false⟩ p.lsems e.wsem.toNat).val.toNat)

/-- Whether a head entry is ready; one with a poisoned word is dispatched (02 R571). -/
def Part.headReady (p : Part) (ws : List PWord) : Bool := ws.any (·.p) || p.entryReady (entryOf ws)

/-- The head entry of a queue that has work and whose wait is satisfied. -/
def State.readyHead (s : State) (p q : Nat) : State × Option (QDesc × Entry) :=
  match s.readHead p q with
  | (s, none) => (s, none)
  | (s, some (d, ws)) => (s, if (s.part? p).any fun x => x.headReady ws then some (d, entryOf ws) else none)

/-- The effective level of a queue. -/
def Part.level (p : Part) (q : Nat) (d : QDesc) : Nat := min 7 (d.prio + (p.queue q).age / 16)

/-- The bound queue that dispatches: the highest level, then the larger age, then the lower number. -/
def State.bestQueue (s : State) (p : Nat) : List Nat → Option (Nat × QDesc × Entry) → State × Option (Nat × QDesc × Entry)
  | [], best => (s, best)
  | q :: qs, best =>
    match s.part? p with
    | none => (s, best)
    | some x =>
      if (x.queue q).faulted then s.bestQueue p qs best
      else
        match s.readyHead p q with
        | (s, none) => s.bestQueue p qs best
        | (s, some (d, e)) =>
          match best with
          | none => s.bestQueue p qs (some (q, d, e))
          | some (b, bd, be) =>
            let key := fun (q : Nat) (d : QDesc) => (x.level q d, (x.queue q).age, 4096 - q)
            let k := key q d
            let m := key b bd
            let more := decide (m.1 < k.1) || (m.1 == k.1 && (decide (m.2.1 < k.2.1) || (m.2.1 == k.2.1 && decide (m.2.2 < k.2.2))))
            s.bestQueue p qs (if more then some (q, d, e) else some (b, bd, be))

/-- What becomes of an entry at its dispatch: it completes at once, or it waits for placement (02 R33, R37 steps 1 and 2). -/
def State.judgeEntry (s : State) (p lseq : Nat) (e : Entry) : State :=
  if e.bad then s.completeUnrun p e 0x22
  else if e.deperr && (match s.part? p with | none => false | some x => (Tab.get ⟨0, false, false⟩ x.lsems e.wsem.toNat).err) then
    s.completeUnrun p e 0x24
  else
    match s.readImage p e.limg.toNat with
    | (s, none) => s.completeUnrun p e 0x21
    | (s, some i) =>
      if (s.origins p i.cw i.ch i.dieLocal).isEmpty then s.completeUnrun p e 0x23
      else (s.updPart p fun x => { x with selected := some (e, lseq, i) }).postOnce 1 (.launchPlacement p)

/-- DISPATCH (02 R32, R33): HEAD is advanced, and the entry is judged. -/
def execDispatch (s : State) : Host.Outcome State Fault Refusal :=
  match s.ev with
  | .dispatch p =>
    .next (match s.part? p with
      | none => s
      | some x =>
        if x.fenced || x.selected.isSome then s
        else
          match s.bestQueue p x.boundQ none with
          | (s, none) => s
          | (s, some (q, d, e)) =>
            match s.writePart p (x.qdesc q + 8) ⟨BitVec.ofNat 32 (d.head + 1), false⟩ with
            | (s, some f) => s.queueFault p q f
            | (s, none) =>
              let lseq := x.dispatched
              let s := s.updPart p fun x => { x.setQueue q { x.queue q with age := 0 } with dispatched := lseq + 1 }
              (s.judgeEntry p lseq e).postOnce 1 (.dispatch p))
  | _ => .next s

/-- The age of a queue whose head entry is ready and was not dispatched grows; every queue that a fault holds is read again (02 R32, R571). -/
def State.ageQueue (s : State) (p q : Nat) : State :=
  match s.lookQueue p q with
  | (s, none) => s
  | (s, some (_, ws)) =>
    s.updPart p fun x => if x.headReady ws then x.setQueue q { x.queue q with age := (x.queue q).age + 1 } else x

/-- The bound queues with the longest residency first; of equal residency, in the order of their binding: 02 R31 does not say (DESIGN CHOICE, log entry
95). -/
def byResidency (p : Part) : List Nat → List Nat → List Nat
  | [], acc => acc
  | q :: qs, acc =>
    let longer := acc.takeWhile fun r => decide ((p.queue r).since ≤ (p.queue q).since)
    byResidency p qs (longer ++ q :: acc.drop longer.length)

/-- A queue is unbound. -/
def Part.unbind (p : Part) (q : Nat) : Part :=
  { p.setQueue q { p.queue q with bound := false } with boundQ := p.boundQ.filter (· ≠ q) }

/-- Those of a list of queues that have work and whose reads do not fault. -/
def State.withWork (s : State) (p : Nat) : List Nat → State × List Nat
  | [] => (s, [])
  | q :: qs =>
    match s.readHead p q with
    | (s, h) =>
      match s.withWork p qs with
      | (s, l) => (s, if h.isSome then q :: l else l)

/-- Bound queues without work are unbound, and queues that have lost their work wait no longer (02 R31 rule 1; one whose read faults has none that could
dispatch, 02 R571: DESIGN CHOICE, log entry 57). -/
def State.unbindIdle (s : State) (p : Nat) : State :=
  match s.withWork p (match s.part? p with | none => [] | some x => x.boundQ) with
  | (s, on) =>
    match s.withWork p (match s.part? p with | none => [] | some x => x.waitQ) with
    | (s, w) => s.updPart p fun x => { (x.boundQ.filter fun q => !on.contains q).foldl Part.unbind x with waitQ := w }

/-- Rules 2 and 3 of 02 R31 at a boundary, with the length of a quantum. -/
def Part.rotate (p : Part) (now quantum : Nat) : Part :=
  let k := p.waitQ.length - (64 - p.boundQ.length)
  let out := (byResidency p (p.boundQ.filter fun q => decide ((p.queue q).since + quantum ≤ now)) []).take k
  let p := out.foldl Part.unbind p
  { p with waitQ := p.waitQ ++ out }.fillSlots now

/-- RESIDENCY_QUANTUM_BOUNDARY (02 R31, R32, R571). A QUANTUM written within a quantum counts from the next boundary on, which stands where the old one
put it: 02 R34 does not say (DESIGN CHOICE, log entry 90). -/
def execResidencyQuantumBoundary (s : State) : Host.Outcome State Fault Refusal :=
  match s.ev with
  | .residencyQuantumBoundary p =>
    .next (match s.part? p with
      | none => s
      | some x =>
        let quantum := max 1 (bitsOf x.schedcfg 0 5) * 500000
        let s := s.post (s.cyclesOf quantum) (.residencyQuantumBoundary p)
        if x.fenced then s
        else
          let s := s.forEach ((x.queues.filter fun kv => kv.2.known).map (·.1)) fun s q => s.ageQueue p q
          let s := s.unbindIdle p
          (s.updPart p fun x => x.rotate s.ticks quantum).postOnce 1 (.dispatch p))
  | _ => .next s

/-! ## Placement and task start (02 R37 to R39) -/

/-- The channel table of a core at launch start (09 R213, R217, R222). -/
def chansOf (l : List (BitVec 256)) : Tab (Option Chan) :=
  (l.zipIdx).filterMap fun x =>
    if x.1 = 0 then none
    else some (x.2, some {
      entry := x.1, sent := 0, cred := if bitsOf x.1 0 2 = 1 then bitsOf x.1 12 8 + 1 else 0, next := 0, map := 0, lostMap := 0, inst := 0
      rst := if bitsOf x.1 0 2 = 3 then 1 else 0, run := none, pend := none, resetSince := 0, fwd := [] })

/-- A context at task start (02 R39, 12 R283). TRAPINFO, TSCRATCH, LOOPB and LOOPC and the selectors SEMSEL, FENSEL, CHSEL and GRIDSEL are zero too, at every
task start: the spec gives them no value there (DESIGN CHOICE, log entry 96). -/
def Ctx.start (now : Nat) (tvec taskid arg : Word64) (pc : Nat) : Ctx :=
  { Ctx.empty with
    st := .ready, since := now, mark := now, pc := BitVec.ofNat 52 pc
    regs := Regs.zero.setX 1 ⟨arg, false⟩
    sr := { CtxRegs.fresh tvec with taskid := taskid } }

/-- A core of a launch at its start (02 R25, R39). -/
def Core.start (k : Core) (now l : Nat) (q : Launch) (i : Nat) (r : CoreRec) (tvec : Word64) (grids : List Nat) : Core :=
  let task := fun (n : Nat) =>
    let off := r.tasks.getD n 0
    if off = 0 then Ctx.empty
    else
      Ctx.start now tvec (BitVec.ofNat 64 (n + 4 * i + fieldAt 16 (q.lseq % 65536) + fieldAt 32 q.part)) q.entry.arg (q.entry.limg.toNat + off)
  { Core.fresh k.id k.stash.limpt with
    launch := some l
    ctxs := (List.range 4).map fun n => (n, some (task n))
    freeAt := max k.freeAt now, frozenTo := k.frozenTo
    lpos := BitVec.ofNat 64 (i / 4 % q.cw + fieldAt 4 (i / 4 / q.cw) + fieldAt 7 (i % 4) + fieldAt 9 (q.cw - 1) + fieldAt 13 (q.ch - 1))
    mxown := r.mxown, stashneed := r.need, chans := chansOf r.chans
    mx := { Matrix.fresh with clock := now }
    nextCmd := k.nextCmd, tlb := k.tlb, silcnt := k.silcnt
    stash := { Stash.empty k.stash.limpt with fulls := k.stash.fulls, nextWb := k.stash.nextWb }
    gridVa := tabOf 0 (grids.map fun a => BitVec.ofNat 64 a), gridCnt := grids.length }

/-- The clusters of a launch. -/
def Launch.clusters (q : Launch) : List Nat := rectangle q.ox q.oy q.cw q.ch

/-- The clusters of a launch become free, and their routers lose the launch's entries (02 R45 step 7, 08 R186). What else its cores hold stays until the
next launch starts on them or they lose power (02 R38, R39); their ring channels are at an end, and what early pools hold for these is dropped (09 R223),
so that ring packets that wait for the pool's room come in (09 R221); their time gates are cleared without a signal (09 R234), and a credit token still on
its way to one of their channels finds no launch to count for (09 R217). Deliveries that wait for a full fault queue end by loss acknowledgements alone, with
no count of LOST and no FLOW_ROW_LOST (DESIGN CHOICE, log entry 102: the spec is silent). -/
def State.freeClusters (s : State) (q : Launch) : State :=
  let s := s.forEach (List.range (4 * q.cw * q.ch)) fun s i =>
    let c := q.coreOf i
    let parked := match s.router? c with | none => [] | some t => t.fq
    let held := match s.router? c with | none => [] | some t => t.waiting
    let s := s.forEach parked fun s x => s.loseParked c x
    let s := s.updRouter c fun t => { t with part := none, entries := [], eps := [], rounds := [], fq := [], waiting := [] }
    let s := s.forEach held fun s w => if 16 ≤ w.1 then s.loseRows w.2.rows else s.arrive c w.1 w.2
    let s := s.forEach (match s.core? c with | none => [] | some k => k.chans) fun s kv =>
      match kv.2 with
      | none => s
      | some h => s.emptyPool c h
    s.updCore c fun k => { k with launch := none, gates := [] }
  let mine := (List.range (4 * q.cw * q.ch)).map q.coreOf
  let s := { s with agenda := s.agenda.filter fun e => match e.2 with | .creditTokenArrival c _ => !mine.contains c | _ => true }.settleRings
  let delay := match s.part? q.part with | none => 0 | some x => bitsOf x.schedcfg 5 8
  let s := s.forEach q.clusters fun s cl =>
    let s := s.updCluster cl fun x => { x with launch := none, freeSince := s.ticks }
    if delay = 0 then s else s.post (s.cyclesOf (delay * 10000)) (.clusterPowerGate cl)
  s.postOnce 1 (.launchPlacement q.part)

/-- A launch whose clusters have power starts (02 R37 steps 6 and 7), from its image as it was validated. -/
def State.startLaunch (s : State) (l : Nat) (q : Launch) : State :=
  let tvec := match s.part? q.part with | none => 0 | some x => x.ptvec
  let s := s.loadDraft q q.image.draft
  let s := s.forEach (q.image.cores.zipIdx) fun s x =>
    s.updCore (q.coreOf x.2) fun k => k.start s.cycle l q x.2 x.1 (tvecMask tvec) q.image.grids
  -- a launch without a task is over at once
  (s.updLaunch l fun q => { q with started := true, tstart := s.ticks }).postOnce 1 (.launchCompletion l)

/-- The core of a shape at an origin whose need its quarter cannot meet: the lowest COREID (02 R37 step 4). -/
def State.lackingCore (s : State) (q : Launch) (i : Image) : Option (Nat × Nat) :=
  ((i.cores.zipIdx).filter fun x => decide (s.rowsOfCore (q.coreOf x.2) < x.1.need)).foldl (fun best x =>
    let c := q.coreOf x.2
    match best with
    | none => some (c, x.1.need)
    | some b => if c < b.1 then some (c, x.1.need) else some b) none

/-- The selected entry of a partition is placed, where a rectangle is free (02 R37 steps 2 to 5). The header, the core table, the Draft and the grid table of its
image are those that its validation has read (DESIGN CHOICE, log entry 58). The entry of a partition that is fenced ends ABORTED (13 R305). -/
def State.placeSelected (s : State) (p : Nat) : State :=
  match (s.part? p).bind fun x => x.selected.map fun e => (x, e) with
  | none => s
  | some (x, e, lseq, i) =>
    if x.fenced then (s.updPart p fun x => { x with selected := none }).completeUnrun p e 0x25
    -- no launch runs at OP4 (14 R320)
    else if s.module.pt = 4 || (s.module.opStep && s.module.opTo = 4) then s
    else if (s.origins p i.cw i.ch i.dieLocal).isEmpty then (s.updPart p fun x => { x with selected := none }).completeUnrun p e 0x23
    else
        match s.chooseOrigin p i.cw i.ch i.dieLocal with
        | none => s
        | some o =>
          let q : Launch := ⟨p, e, o.1, o.2, i.cw, i.ch, lseq, s.ticks, [], false, false, false, none, i⟩
          let s := s.updPart p fun x => { x with selected := none }
          match s.lackingCore q i with
          | some (c, need) =>
            let s := s.notice p 0x10 (BitVec.ofNat 64 (c + fieldAt 9 need + fieldAt 23 (s.rowsOfCore c)))
            s.completeUnrun p e 0x10
          | none =>
            let l := s.nextLaunch
            let cold := q.clusters.filter s.gatedCluster
            let limpt := s.wakeLimpt
            let due := s.ticks + (if cold.isEmpty then 0 else 4000)
            let s := s.forEach cold fun s cl =>
              let s := s.updCluster cl fun x => { x with gated := false }
              s.forEach (List.range 4) fun s t =>
                let k := Core.fresh (coreAt cl t) limpt
                s.setCore (coreAt cl t) { k with freeAt := s.cycle, mx := { k.mx with clock := s.cycle } }
            let s := s.forEach q.clusters fun s cl => s.updCluster cl fun x => { x with launch := some l }
            let s := { s with launches := Tab.set none s.launches l (some { q with tstart := due }), nextLaunch := l + 1 }
            (s.post (s.cyclesOf (due - s.ticks)) (.launchPlacement p)).postOnce 1 (.dispatch p)

/-- LAUNCH_PLACEMENT: launches whose clusters have woken start, then the selected entry is placed. -/
def execLaunchPlacement (s : State) : Host.Outcome State Fault Refusal :=
  match s.ev with
  | .launchPlacement p =>
    let s := s.forEach s.launches fun s kv =>
      match s.launch? kv.1 with
      | none => s
      | some q =>
        if q.part ≠ p || q.started || q.aborted then s
        else if s.ticks < q.tstart then s.postOnce (s.cyclesOf (q.tstart - s.ticks)) (.launchPlacement p)
        else s.startLaunch kv.1 q
    .next (s.placeSelected p)
  | _ => .next s

/-- CLUSTER_POWER_GATE (02 R38): a cluster that has been free for GATEDLY loses power. -/
def execClusterPowerGate (s : State) : Host.Outcome State Fault Refusal :=
  match s.ev with
  | .clusterPowerGate cl =>
    .next (match s.cluster? cl with
      | none => s
      | some x =>
        let delay := match (s.partOfCluster cl).bind s.part? with | none => 0 | some p => bitsOf p.schedcfg 5 8
        if x.gated || x.launch.isSome || delay = 0 then s
        else if s.ticks < x.freeSince + delay * 10000 then
          s.postOnce (s.cyclesOf (x.freeSince + delay * 10000 - s.ticks)) (.clusterPowerGate cl)
        else
          let limpts := (List.range 4).map fun t => match s.core? (coreAt cl t) with | none => 0 | some k => k.stash.limpt
          let s := s.updCluster cl fun x => { x with gated := true, tlb := [], limpts := limpts }
          s.forEach (List.range 4) fun s t => { s with cores := Tab.set none s.cores (coreAt cl t) none })
  | _ => .next s

/-! ## Completion (02 R45 to R47, 12 R298, R570) -/

/-- The cores of a launch. -/
def State.coresOf (s : State) (l : Nat) : List Nat :=
  s.cores.filterMap fun kv =>
    match kv.2 with
    | none => none
    | some k => if k.launch = some l then some kv.1 else none

/-- Every accepted command of a core that can complete no more is abandoned (12 R570): streams are cancelled, the grid stops, the others end at once
and signal nothing. -/
def State.abandonCommands (s : State) (c : Nat) : State :=
  match s.core? c with
  | none => s
  | some k =>
    let s := s.forEach (k.chans.filterMap fun kv => kv.2.bind fun h => if h.kind = 3 && (h.rst = 2 || h.rst = 3) then some kv.1 else none) fun s ch =>
      s.abortRing c ch true
    let s := s.updCore c fun k => { k with
      qcmds := [], ycmds := [], gates := [], frozen := [], mxown := none
      mx := { Matrix.fresh with clock := s.cycle }
      grid := { k.grid with st := if k.grid.st = 3 || k.grid.st = 4 then 2 else if k.grid.st = 1 then 0 else k.grid.st, held := false, run := none, heldRun := none, load := none }
      sregs := [] }
    s

/-- The tasks of a launch that is to end ABORTED are killed with cause PREEMPT, and its commands are abandoned (12 R298, R570). -/
def State.endTasks (s : State) (l : Nat) : State :=
  s.forEach (s.coresOf l) fun s c =>
    let s := s.forEach (List.range 4) fun s n =>
      match s.ctx? c n with
      | none => s
      | some x => if x.st = .empty then s else (s.landLate c n).kill c n 0x15 x.sr.trapinfo
    s.abandonCommands c

/-- Whether a core of a launch has nothing left to do (02 R45 steps 1 and 2). -/
def Core.quiet (k : Core) : Bool :=
  k.tasks.isEmpty && k.mx.live.isEmpty && k.qcmds.isEmpty && k.ycmds.isEmpty && k.grid.run.isNone && k.grid.load.isNone
    && (k.ctxs.all fun kv => match kv.2 with | none => true | some x => x.atomics.isEmpty && !x.held)
    && (k.sregs.all fun kv => match kv.2.bind (·.strm) with | none => true | some t => t.cancelled)
    && (k.chans.all fun kv => match kv.2 with | none => true | some h => h.run.isNone && h.pend.isNone)

/-- Whether a launch has nothing on its way: no row, no packet that a link port waits for. -/
def State.landed (s : State) (l : Nat) : Bool :=
  (s.openRows fun r => r.launch == l).isEmpty
    && (s.ports.all fun kv => match kv.2 with | none => true | some p => p.sent.all fun x => x.launch != some l)

/-- Every stash row of a core is written back and invalidated, pins with it (02 R45 step 3). -/
def State.flushStash (s : State) (c : Nat) : State :=
  match s.core? c with
  | none => s
  | some k =>
    let s := s.forEach (k.stash.rows.map (·.1)) fun s n =>
      match (s.core? c).bind fun k => Tab.get none k.stash.rows n with
      | none => s
      | some r => (if r.d = 0 then s else s.writeBackRow c n).flushWbs c r.frame
    let s := s.forEach k.stash.wbs fun s w => s.performWb c w.id
    s.updCore c fun k => { k with stash := { k.stash with rows := [], fills := [] } }

/-- The kill that a launch's record reports: the earliest TIME, then the lower COREID, then the lower CTXID (02 R46). -/
def firstKill (l : List (Nat × Nat × Nat × Nat)) : Option (Nat × Nat × Nat × Nat) :=
  l.foldl (fun best k =>
    match best with
    | none => some k
    | some b =>
      if k.1 < b.1 || (k.1 = b.1 && (k.2.1 < b.2.1 || (k.2.1 = b.2.1 && k.2.2.1 < b.2.2.1))) then some k else some b) none

/-- LAUNCH_COMPLETION (02 R45): once nothing of the launch is left, its stashes are written back, its record is written, its semaphore signalled, its interrupt
raised, and its clusters become free. -/
def execLaunchCompletion (s : State) : Host.Outcome State Fault Refusal :=
  match s.ev with
  | .launchCompletion l =>
    .next (match s.launch? l with
      | none => s
      | some q =>
        let s := if q.aborted && q.preempt.isNone then s.endTasks l else s
        let cores := s.coresOf l
        let done := (q.started || q.aborted) && (cores.all fun c => match s.core? c with | none => true | some k => k.quiet) && s.landed l
        if !done then s
        else
          let q := (s.launch? l).getD q
          let s := s.forEach cores State.flushStash
          let f := firstKill q.kills
          let status := if q.aborted then 0x25 else match f with
            | some k => k.2.2.2
            | none => if q.remote then 0x20 else 0
          let first := match f with | none => 0 | some k => k.2.1 + fieldAt 9 k.2.2.1
          let s := s.complete q.part q.entry status q.kills.length first (if q.started then q.tstart else s.ticks)
          let s := if q.preempt.isSome then s.updPart q.part fun x => { x with prectlBusy := false } else s
          (({ s with launches := Tab.set none s.launches l none } : State).freeClusters q).wakeRings)
  | _ => .next s

/-! ## LAUNCH (16 R405 to R407) -/

/-- The result of LAUNCH for a queue, and the address of the ring slot where it is 0. -/
def State.launchResult (s : State) (p : Nat) (q : RV) : State × Nat × Nat :=
  if q.p || 4096 ≤ q.v.toNat then (s, 3, 0)
  else
    match s.part? p with
    | none => (s, 2, 0)
    | some x =>
      match s.readPart p (x.qdesc q.v.toNat) 8 with
      | (s, .inr _) => (s, 2, 0)
      | (s, .inl ws) =>
        let d := qdescOf ws
        if d.bad || !d.en || !d.own then (s, 2, 0)
        else
          let tail := x.qtail q.v.toNat
          if (tail + 2 ^ 32 - d.head) % 2 ^ 32 = 2 ^ d.log2n then (s, 1, 0) else (s, 0, d.ring + 64 * (tail % 2 ^ d.log2n))

/-- Whether a LAUNCH of a partition is about to append to a queue. -/
def State.launchPending (s : State) (p q : Nat) : Bool :=
  s.cores.any fun kv =>
    s.partOf kv.1 == p && kv.2.any fun k => k.ctxs.any fun x =>
      match x.2.map fun (y : Ctx) => y.hold with
      | some (Hold.launch _ v _ r _ _ _ _) => r == 0 && v.v.toNat == q
      | _ => false

/-- The ring slot of a LAUNCH as a write finds it (16 R407): where and in which domain, or a cause and TRAPINFO. -/
def State.launchSlot (s : State) (p slot : Nat) : State × (Nat × Nat ⊕ Nat × Word64) :=
  if 2 ^ 52 ≤ slot then (s, .inr (0x07, xlatInfo slot .write 0 false false))
  else
    match s.translateHome p slot .write with
    | (s, .fault cause info) => (s, .inr (cause, info))
    | (s, .leaf l) => (s, .inl (l.pa, l.ed))

/-- LAUNCH: the release half, the entry's read, the judgement of queue and ring slot; the append and the result come 40 cycles later or more. From the
judgement of one that is to append to its append, others to the queue stall: the step is serialised (16 R406). -/
def execLaunch (o : OpC3) (s : State) : Host.Outcome State Fault Refusal :=
  guarded s o.g .pk fun _ n _ =>
    let gp := Guard.psn o.g .pk s.bun.old
    let a := s.bun.old.getC o.a.toNat
    let q := s.bun.old.getC o.b.toNat
    let va := a.v.toNat
    let p := s.partOf s.cur
    if a.p then .kill s 0 va
    else if va % 64 ≠ 0 then .trap s 0x05 (a.v &&& 0xFFFFFFFFFFFFF)
    else if 2 ^ 52 ≤ va then .trap s 0x07 (BitVec.ofNat 64 (va % 2 ^ 52))
    else
      match s.translate s.cur va .read with
      | (s, .fault cause info) => .trap s cause info
      | (s, .leaf l) => (s.releaseAll 63 4).bind fun s _ =>
        match s.homeWords (s.access s.cur l.ed va) 3 l.pa 16 with
        | (s, ws) =>
          if l.psn || ws.any (·.p) then .kill s 1 va
          else
            let hold := fun (s : State) (r slot pa ed : Nat) =>
              let s := (s.updCtx s.cur n fun x => { x with hold := .launch o.d.toNat q (ws.map (·.w)) r slot pa ed gp }).postOpen 40 (.launchAppend s.cur n)
              (.ok s s : Try State)
            match s.launchResult p q with
            | (s, 0, slot) =>
              if s.launchPending p q.v.toNat then .wait s.stall
              else
                match s.launchSlot p slot with
                | (s, .inr (cause, info)) => .trap s cause info
                | (s, .inl (pa, ed)) => hold s 0 slot pa ed
            | (s, r, _) => hold s r 0 0 0

/-- LAUNCH_APPEND: where the result is 0, the entry is written and QTAIL advanced; D is written and the context goes on. -/
def execLaunchAppend (s : State) : Host.Outcome State Fault Refusal :=
  match s.ev with
  | .launchAppend c n =>
    .next (match s.ctx? c n with
      | none => s
      | some x =>
        match x.hold with
        | Hold.launch d q e r slot pa ed gp =>
          let p := s.partOf c
          let done := fun (s : State) =>
            s.updCtx c n fun x => { x.putC s.cycle d ⟨BitVec.ofNat 64 r, q.p || gp⟩ 1 with hold := .none }
          if r ≠ 0 then done s
          else
            let s := s.homeWrite (s.access c ed slot) 0 3 pa (e.map fun w => (⟨w, gp⟩, 15))
            let s := s.updPart p fun x =>
              { x.setQueue q.v.toNat { x.queue q.v.toNat with known := true } with
                qtails := Tab.set 0 x.qtails q.v.toNat (BitVec.ofNat 32 (x.qtail q.v.toNat + 1)) }
            (done (s.lookQueue p q.v.toNat).1).postOnce 1 (.dispatch p)
        | _ => s)
  | _ => .next s

end Sys2Proof.Machine
end

