-- ==== Sys2Proof/Machine/System.lean ====
section
/-! DEFINITION. The privileged instructions of the C slot that hold their context and act beyond it: TLBI (19, 10 R262), FENSET and EVAC (16, 10 R254,
R255), DRAFTLD (16, 08 R203); the end of RETIRE (18 R489); the arrival of fills and write-backs (10 R239, R242). -/

namespace Sys2Proof.Machine

/-- A privileged instruction of the C slot: once its guard passes, PRIV outside privileged code (12 R282). -/
def privOp (s : State) (g : Guard) (op : Nat) (f : Core → Nat → Ctx → Try State) : Host.Outcome State Fault Refusal :=
  guarded s g .pk fun k n x => if s.privileged s.cur n then f k n x else .trap s 0x03 (privInfo 0 op 0)

/-- An instruction that has held its context writes its result, and the context goes on. -/
def State.endHold (s : State) (c n d v : Nat) (psn : Bool) : State :=
  s.updCtx c n fun x => { x.putC s.cycle d ⟨BitVec.ofNat 64 v, psn⟩ 1 with hold := .none }

/-- An instruction that holds its context. -/
def State.holdWith (s : State) (n : Nat) (h : Hold) : State := s.updCtx s.cur n fun x => { x with hold := h }

/-! ## Rows given up -/

/-- A quarter waits for the fill of a block no longer: who awaits it tries again. -/
def State.dropFill (s : State) (q block : Nat) : State :=
  let s := s.updCore q fun k => { k with stash := { k.stash with fills := k.stash.fills.filter fun f => f.block ≠ block } }
  s.forEach (clusterCores q) fun s c => s.updCore c fun k => k.mapCtxs fun _ x =>
    if x.fills.contains (q, block) then ({ x with fills := x.fills.filter (· ≠ (q, block)) } : Ctx).release s.cycle else x

/-- The bundles that wait for a row for which no fill is under way are tried again: they could have none as long as every write-back of the quarter
was taken (10 R242). -/
def State.retryMisses (s : State) (q : Nat) : State :=
  match s.core? q with
  | none => s
  | some k =>
    s.forEach (clusterCores q) fun s c => s.updCore c fun k' => k'.mapCtxs fun _ x =>
      if x.fills.any fun f => f.1 == q && !k.stash.filling f.2 then
        ({ x with fills := x.fills.filter fun f => !(f.1 == q && !k.stash.filling f.2) } : Ctx).release s.cycle
      else x

/-- A row is emptied: its dirty bytes are written back at once, its V, D and O cleared; a pinned row stays allocated, another goes. -/
def State.emptyRow (s : State) (q n : Nat) : State :=
  match (s.core? q).bind fun k => Tab.get none k.stash.rows n with
  | none => s
  | some r => (((s.writeBackRow q n).flushWbs q r.frame).dropFill q r.block).dropWords q n (List.range 64)

/-- The cores with power of a partition. -/
def State.coresOfPart (s : State) (p : Nat) : List Nat :=
  s.cores.filterMap fun kv =>
    match kv.2 with
    | none => none
    | some _ => if s.partOf kv.1 = p then some kv.1 else none

/-! ## TLBI (19 R504 to R508, 10 R262) -/

/-- TLBI: a poisoned operand makes it act on every entry of the whole partition. -/
def execTlbi (o : OpTlbi) (s : State) : Host.Outcome State Fault Refusal :=
  privOp s o.g 0x12 fun _ n _ =>
    let a := s.bun.old.getC o.a.toNat
    let b := s.bun.old.getC o.b.toNat
    let go := fun (all : Bool) (reach : Nat) =>
      let t := ({ s.holdWith n (.tlbi all reach (BitVec.ofNat 52 (bitsOf a.v 0 52)) s.free) with free := s.free + 1 }).postOpen 32 (.tlbiCompletion s.cur n)
      (.ok t t : Try State)
    if a.p || b.p then go true 2
    else if bitsOf b.v 1 2 = 3 || bitsOf b.v 3 61 ≠ 0 then .trap s 0x01 (illegalInfo 0 0x12 true)
    else go (b.v.getLsbD 0) (bitsOf b.v 1 2)

/-- Whether a TLBI of the partition that started before one holds its context still. -/
def State.tlbiBefore (s : State) (p seq : Nat) : Bool :=
  (s.coresOfPart p).any fun c => (List.range 4).any fun n =>
    match (s.ctx? c n).map fun (x : Ctx) => x.hold with
    | some (Hold.tlbi _ _ _ t) => decide (t < seq)
    | _ => false

/-- The matching entries go out of the TLBs of some cores and clusters. -/
def State.dropTlb (s : State) (p : Nat) (all : Bool) (addr : Nat) (cores clusters : List Nat) : State :=
  let keep := fun (e : TlbEntry) => !(e.part == p && (all || e.vpn == addr / 2 ^ e.size))
  let s := s.forEach cores fun s c => s.updCore c fun k => { k with tlb := k.tlb.filter keep }
  s.forEach clusters fun s cl => s.updCluster cl fun x => { x with tlb := x.tlb.filter keep }

/-- The rows of a matching page in a quarter are emptied; what it has in write-back of rows of the page performs. The records that watch words of such a row
go with it, though 03 R73 does not name TLBI among what removes them (DEDUCED, log entry 91). -/
def State.emptyPage (s : State) (p : Nat) (all : Bool) (addr q : Nat) : State :=
  let hit := fun (part block sz : Nat) => part == p && (all || block * 256 / 2 ^ sz == addr / 2 ^ sz)
  match s.core? q with
  | none => s
  | some k =>
    let s := s.forEach (k.stash.wbs.filter fun w => hit w.part w.block w.sz) fun s w => s.performWb q w.id
    s.forEach (k.stash.rows.filterMap fun kv => kv.2.bind fun r => if hit r.part r.block r.sz then some kv.1 else none) fun s n => s.emptyRow q n

/-- The rows that routers of some tiles have translated and sent to their home slices perform: those of the 512 MiB around an address, or all. -/
def State.landTranslated (s : State) (p : Nat) (all : Bool) (addr : Nat) (tiles : List Nat) : State :=
  let hit := fun (e : Event) =>
    match e with
    | .rowLanding r _ x =>
      x.xt && x.tgtk == 1 && x.part.toNat == p && (tiles.contains r || x.srck == 2) && (all || x.daddr.toNat / 2 ^ 29 == addr / 2 ^ 29)
    | _ => false
  let due := s.agenda.filter fun a => hit a.2
  State.forEach { s with agenda := s.agenda.filter fun a => !hit a.2 } due fun s a =>
    match a.2 with
    | .rowLanding r _ x => s.landHome r x
    | _ => s

/-- Whether a LAUNCH of some cores is still to write a ring slot by a translation of the 512 MiB around an address, or by any (10 R262 step 2). -/
def State.slotPending (s : State) (all : Bool) (addr : Nat) (cores : List Nat) : Bool :=
  cores.any fun c => (List.range 4).any fun n =>
    match (s.ctx? c n).map fun (x : Ctx) => x.hold with
    | some (Hold.launch _ _ _ r slot _ _ _) => r == 0 && (all || slot / 2 ^ 29 == addr / 2 ^ 29)
    | _ => false

/-- The contexts of some cores with an atomic that waits for another slot of its bundle, translated by an entry of a page or of any (10 R262 step 2); whether
that slot is a TLBI. -/
def State.latePending (s : State) (all : Bool) (addr : Nat) (cores : List Nat) : List (Nat × Nat × Bool) :=
  cores.flatMap fun c => (List.range 4).filterMap fun n =>
    match s.ctx? c n with
    | none => none
    | some x =>
      match x.late with
      | none => none
      | some y =>
        let tlbi := match x.hold with
          | .tlbi _ _ _ _ => true
          | .none | .evac _ _ _ _ _ | .draftld _ _ _ _ _ _ _ | .launch _ _ _ _ _ _ _ _ | .mcfg _ _ _ | .qrest _ _ _ _ | .retire | .acquire => false
        if all || y.at' / 2 ^ y.leaf.sz == addr / 2 ^ y.leaf.sz then some (c, n, tlbi && x.holdM == .none && x.holdQ == .none) else none

/-- The offset bits of the page that maps an address now. -/
def State.pageNow (s : State) (p va : Nat) : Nat :=
  match s.walk p va .read with
  | (_, .inl (_, _, level)) => pageBits level
  | (_, .inr _) => 16

/-- TLBI_COMPLETION: the entries of the reach are dropped, the rows of the page emptied, the parked rows it covers tried again (10 R262). It waits for an atomic
translated by such an entry that another slot of its bundle keeps back; where that slot is a TLBI, which waits for this one or is this one, the atomic performs
as the last thing before this one ends (DEDUCED, log entry 20). -/
def execTlbiCompletion (s : State) : Host.Outcome State Fault Refusal :=
  match s.ev with
  | .tlbiCompletion c n =>
    .next (match (s.ctx? c n).map fun (x : Ctx) => x.hold with
      | some (Hold.tlbi all reach addr seq) =>
        let p := s.partOf c
        let cores := if reach = 0 then [c] else if reach = 1 then clusterCores c else s.coresOfPart p
        if s.tlbiBefore p seq || s.slotPending all addr.toNat cores || (s.latePending all addr.toNat cores).any fun y => !y.2.2 then
          s.post 1 (.tlbiCompletion c n)
        else
          let clusters := if reach ≤ 1 then [clusterOf c] else (List.range 128).filter fun cl => s.partOfCluster cl == some p
          let a := addr.toNat
          let s := s.dropTlb p all a cores clusters
          let s := (s.forEach cores fun s q => s.emptyPage p all a q).landTranslated p all a cores
          let z := s.pageNow p a
          let s := s.forEach cores fun s q => s.retryParked q fun va => all || va / 2 ^ z == a / 2 ^ z
          let s := s.forEach (s.latePending all a cores) fun s y => s.landLate y.1 y.2.1
          (s.updCtx c n fun x => { x with hold := .none }).forEach cores State.wakeCluster
      | _ => s)
  | _ => .next s

/-! ## FENSET (16 R395 to R397) -/

/-- The number of ways of a slice that are usable at a point. -/
def Fuses.usableWays (f : Fuses) (n pt : Nat) : Nat :=
  16 - ((List.range 16).filter fun w => (Tab.get 0 f.fenWays (8 * n + pt)).getLsbD w).length

/-- The sum of 10 R248 for a slice: every partition's reservations in shared mode, those of its partition in private mode. -/
def State.sliceSum (s : State) (n : Nat) : Nat :=
  s.parts.foldl (fun m kv =>
    match kv.2 with
    | none => m
    | some q => if !s.module.cmode || (q.entry.en && q.entry.crpair.getLsbD n) then m + q.reserved else m) 0

/-- Whether a slice is a partition's own: in private mode alone. -/
def State.ownsSlice (s : State) (p n : Nat) : Bool :=
  s.module.cmode && (match s.part? p with | none => false | some q => q.entry.en && q.entry.crpair.getLsbD n)

/-- Whether a partition has module management (13 R311). -/
def State.managesModule (s : State) (p : Nat) : Bool :=
  match s.part? p with
  | none => false
  | some q => q.entry.en && q.entry.mgmt

/-- Whether an EVAC holds its context. -/
def State.evacBefore (s : State) (seq : Nat) : Bool :=
  s.cores.any fun kv =>
    match kv.2 with
    | none => false
    | some k => k.ctxs.any fun x =>
        match x.2.map fun (y : Ctx) => y.hold with
        | some (Hold.evac _ _ _ t _) => decide (t < seq)
        | _ => false

/-- Whether a core runs a launch that needs more rows than are usable at a point. -/
def State.needsMore (s : State) (c l : Nat) : Bool :=
  match s.core? c with
  | none => false
  | some k => k.launch.isSome && decide (Fuses.usableRows s.module.fuses c l < k.stashneed)

/-- Whether a valid row or a pin of a quarter stands in a row that is not usable at a point. -/
def State.holdsLost (s : State) (c l : Nat) : Bool :=
  match s.core? c with
  | none => false
  | some k => k.stash.rows.any fun kv => (match kv.2 with | none => false | some r => r.v != 0 || r.pin) && !s.rowUsable c l kv.1

/-- The result of FENSET on the quarters of a cluster. -/
def State.fensetCluster (s : State) (p cl l : Nat) : Nat :=
  let cores := (List.range 4).map (coreAt cl)
  if !Fuses.enabled s.module.fuses cl || s.gatedCluster cl then 5
  else if !s.ownsCluster p cl && !s.managesModule p then 4
  else if cores.any fun c => s.needsMore c l then 2
  else if cores.any fun c => s.holdsLost c l then 1
  else 0

/-- The result of FENSET on a slice. -/
def State.fensetSlice (s : State) (p n l : Nat) : Nat :=
  if !s.ownsSlice p n && !s.managesModule p then 4
  else
    match s.slice? n with
    | none => 5
    | some sl =>
      if sl.lines.any fun x => !s.wayUsable n l x.way then 1
      else if Fuses.usableWays s.module.fuses n l < s.sliceSum n + 4 then 3
      else 0

/-- FENSET: it holds its context for at most 64 cycles. It stalls while an EVAC is under way, and while an operating-point step is to a point that it would
set the limit point below (16 R393, R397, 14 R322). -/
def execFenset (o : OpC2) (s : State) : Host.Outcome State Fault Refusal :=
  privOp s o.g 0x13 fun _ n _ =>
    let a := s.bun.old.getC o.a.toNat
    let pt := bitsOf a.v 0 3
    let idx := bitsOf a.v 4 8
    let slice := a.v.getLsbD 3
    let l := max pt s.module.pt
    if 4 < pt || bitsOf a.v 12 52 ≠ 0 || (if slice then 191 else 127) < idx then .trap s 0x01 (illegalInfo 0 0x13 true)
    else if a.p then .kill s 1 0
    else if s.evacBefore s.free || (s.module.opStep && decide (l < s.module.opTo)) then .wait s.stall
    else
      let p := s.partOf s.cur
      let r := if slice then s.fensetSlice p idx l else s.fensetCluster p idx l
      let t :=
        if r ≠ 0 then s
        else if slice then s.updSlice idx fun sl => { sl with limpt := l }
        else s.forEach (List.range 4) fun s i => s.updCore (coreAt idx i) fun k => { k with stash := { k.stash with limpt := l } }
      let t := { t with free := t.free + 1 }.updCtx s.cur n fun x =>
        { x.putC s.cycle o.d.toNat ⟨BitVec.ofNat 64 r, Guard.psn o.g .pk s.bun.old⟩ 1 with holdUntil := s.cycle + 1 + Config.latency s.free % 64 }
      .ok t t

/-! ## EVAC (16 R392, R393, 10 R254, R255) -/

/-- EVAC. -/
def execEvac (o : OpC2) (s : State) : Host.Outcome State Fault Refusal :=
  privOp s o.g 0x14 fun _ n _ =>
    let a := s.bun.old.getC o.a.toNat
    if 4 < bitsOf a.v 0 3 || bitsOf a.v 5 59 ≠ 0 then .trap s 0x01 (illegalInfo 0 0x14 true)
    else if a.p then .kill s 1 0
    else
      let t := ({ s.holdWith n (.evac o.d.toNat (bitsOf a.v 0 3) (bitsOf a.v 3 2) s.free (Guard.psn o.g .pk s.bun.old)) with free := s.free + 1 }).postOpen 1
        (.evacCompletion s.cur n)
      .ok t t

/-- The cores whose quarters a scope covers, lowest COREID first: enabled ones, with power or without. -/
def State.evacCores (s : State) (c p scope : Nat) : List Nat :=
  match scope with
  | 0 => [c]
  | 1 => clusterCores c
  | 2 => (List.range 512).filter fun q => s.ownsCluster p (clusterOf q)
  | _ => (List.range 512).filter fun q => Fuses.enabled s.module.fuses (clusterOf q)

/-- The slices that a scope covers. -/
def State.evacSlices (s : State) (p scope : Nat) : List Nat :=
  match scope with
  | 0 => []
  | 1 => []
  | 2 => (List.range 192).filter fun n => s.ownsSlice p n
  | _ => List.range 192

/-- The first check of 10 R254 that a quarter fails. -/
def State.evacCheck (s : State) (l : Nat) : List Nat → Nat
  | [] => 0
  | q :: qs =>
    match s.core? q with
    | none => s.evacCheck l qs
    | some k =>
      let pinned := (k.stash.rows.filter fun kv => match kv.2 with | none => false | some r => r.pin).length
      if Fuses.usableRows s.module.fuses q l < pinned then 1
      else if s.needsMore q l then 2
      else s.evacCheck l qs

/-- The result of EVAC. -/
def State.evacResult (s : State) (p scope l : Nat) (cores slices : List Nat) : Nat :=
  if scope = 3 && !s.managesModule p then 4
  else
    match s.evacCheck l cores with
    | 0 => if slices.any fun n => decide (Fuses.usableWays s.module.fuses n l < s.sliceSum n + 4) then 3 else 0
    | r => r

/-- The lowest-numbered unpinned row of a quarter that is usable at a point. -/
def State.lowestUnpinned (s : State) (q l : Nat) (st : Stash) : Option Nat :=
  (st.rows.find? fun kv =>
    match kv.2 with
    | none => false
    | some r => !r.pin && s.rowUsable q l kv.1).map (·.1)

/-- A pinned row is moved to the lowest-numbered free row usable at a point; where none is free, the lowest-numbered unpinned one is evicted first. -/
def State.moveRow (s : State) (q n l : Nat) : State :=
  let take := fun (s : State) (m : Nat) => s.updCore q fun k =>
    match Tab.get none k.stash.rows n with
    | none => k
    | some r => { k with stash := (k.stash.set m r).drop n }
  match s.core? q with
  | none => s
  | some k =>
    match s.freeRow q l k.stash.rows 8192 0 with
    | some m => take s m
    | none =>
      match s.lowestUnpinned q l k.stash with
      | none => s
      | some m => take (s.emptyRow q m) m

/-- The core whose matrix engine, streams or grid an event concerns: it does not happen while that core is frozen. -/
def Event.engine : Event → Option Nat
  | .matrixQueueStart c => some c
  | .mmaCompletion c _ _ => some c
  | .mbldCompletion c _ => some c
  | .mzstCompletion c _ => some c
  | .mzldCompletion c _ => some c
  | .mtrnCompletion c _ _ => some c
  | .mbflyCompletion c _ _ => some c
  | .mtwidCompletion c _ => some c
  | .mfmtCompletion c _ => some c
  | .mdrainStart c _ => some c
  | .mzrdCompletion c _ => some c
  | .mzwrCompletion c _ => some c
  | .mzeroCompletion c _ => some c
  | .mcfgClear c => some c
  | .streamElementFault c _ => some c
  | .streamRetire c _ => some c
  | .streamDataArrival c _ => some c
  | .storeStreamElementPerformed c _ => some c
  | .grunCompletion c => some c
  | .gstopBoundary c => some c
  | _ => none

/-- The core whose cycles an event counts, its router's among them: not what waits for a TIME, and not what comes from elsewhere. -/
def Event.ofCore (e : Event) : Option Nat :=
  match e with
  | .streamCommandStart c | .qsetCompletion c _ | .gcfgLoadEnd c | .packetArrival c _ _ | .flowRowSend c _ | .rowLanding c _ _
  | .channelCommandStart c | .chrecvCompletion c _ | .ringInstanceStart c _ | .ringInstanceCompletion c _ | .drainStart c _ | .semaddApply c _
  | .atomicResponse c _ | .draftldCompletion c _ | .tlbiCompletion c _ | .evacCompletion c _ | .retireAccepted c _ | .stashCommandCompletion c _
  | .copyCompletion c _ | .qsaveCompletion c _ | .launchAppend c _ | .qrestCompletion c _ => some c
  | _ => Event.engine e

/-- Events of a core put off by a number of cycles: those that `of` gives it. -/
def delayEngine (of : Event → Option Nat) (c f : Nat) (l : List (Nat × Event)) : List (Nat × Event) :=
  (l.filter fun a => of a.2 == some c).foldl (fun l a => addEvent (a.1 + f) a.2 l) (l.filter fun a => of a.2 != some c)

/-- What counts cycles in a context goes on after a freeze; the frozen cycles do not count in the issue counter: 02 R42 and 10 R255 do not say (DESIGN
CHOICE, log entry 63). -/
def Ctx.thaw (x : Ctx) (now f : Nat) : Ctx :=
  { x with
    mark := x.mark + f
    holdUntil := if now < x.holdUntil then x.holdUntil + f else x.holdUntil
    score := x.score.map fun e => if now < e.2 then (e.1, e.2 + f) else e
    vold := x.vold.map fun e => if now < e.2.2.1 then (e.1, e.2.1, e.2.2.1 + f, e.2.2.2) else e
    pold := x.pold.map fun e => if now < e.2.2 then (e.1, e.2.1, e.2.2 + f) else e }

/-- A core is frozen for a number of cycles (10 R255): no context issues, the grid, the matrix engine and the streams stand still, and so do the events that
`of` gives it. -/
def State.freeze (s : State) (of : Event → Option Nat) (c f : Nat) : State :=
  if f = 0 then s
  else
    let s := s.mxSettle c
    let now := s.cycle
    let op := fun (o : MOp) => { o with issue := o.issue + f, start := o.start.map (· + f) }
    let s := s.updCore c fun k =>
      { k.mapCtxs fun _ x => x.thaw now f with
        frozenTo := max k.frozenTo now + f
        freeAt := if now < k.freeAt then k.freeAt + f else k.freeAt
        div0 := if now < k.div0 then k.div0 + f else k.div0
        div1 := if now < k.div1 then k.div1 + f else k.div1
        mx := { k.mx with clock := k.mx.clock + f, queue := k.mx.queue.map op, run := k.mx.run.map op, port := k.mx.port.map op }
        grid := { k.grid with run := k.grid.run.map fun r => { r with nextAt := max r.nextAt now + f } } }
    { s with agenda := delayEngine of c f s.agenda }

/-- A core is frozen for 64 cycles for each of the blocks whose rows move; landings aimed at them wait (10 R255). -/
def State.moveFreeze (s : State) (q : Nat) (blocks : List Nat) : State :=
  (s.freeze Event.engine q (64 * blocks.length)).updCore q fun k => { k with moving := (if s.cycle < k.frozenTo then k.moving else []) ++ blocks }

/-- The work of EVAC at a quarter: rows lost are moved or emptied, LIMPT becomes L; the blocks of the rows moved. -/
def State.evacQuarter (s : State) (q l : Nat) : State × List Nat :=
  match s.core? q with
  | none =>
    (s.updCluster (clusterOf q) fun x => { x with limpts := (x.limpts.zipIdx).map fun y => if y.2 = tileOf q then l else y.1 }, [])
  | some k =>
    let lost := k.stash.rows.filter fun kv => kv.2.isSome && !s.rowUsable q l kv.1
    let pinned := lost.filterMap fun kv => kv.2.bind fun r => if r.pin then some (kv.1, r.block) else none
    let others := lost.filterMap fun kv => kv.2.bind fun r => if r.pin then none else some kv.1
    let s := s.forEach others fun s n => s.emptyRow q n
    let s := s.forEach pinned fun s n => s.moveRow q n.1 l
    (s.updCore q fun k => { k with stash := { k.stash with limpt := l } }, pinned.map (·.2))

/-- The work of EVAC, quarter by quarter; how many rows the quarter with the most has moved. -/
def State.evacWork (s : State) (l : Nat) : List Nat → State × Nat
  | [] => (s, 0)
  | q :: qs =>
    match s.evacQuarter q l with
    | (s, blocks) =>
      match (s.moveFreeze q blocks).evacWork l qs with
      | (s, k) => (s.wakeCluster q, max blocks.length k)

/-- EVAC_COMPLETION (10 R254): one at a time for the module; it waits for the end of a step whose target it would go below (14 R322). -/
def execEvacCompletion (s : State) : Host.Outcome State Fault Refusal :=
  match s.ev with
  | .evacCompletion c n =>
    .next (match (s.ctx? c n).map fun (x : Ctx) => x.hold with
      | some (Hold.evac d t scope seq gp) =>
        let p := s.partOf c
        let l := max t s.module.pt
        if s.evacBefore seq || (s.module.opStep && decide (l < s.module.opTo)) then s.post 1 (.evacCompletion c n)
        else
          let cores := s.evacCores c p scope
          let slices := s.evacSlices p scope
          (match s.evacResult p scope l cores slices with
            | 0 =>
              (match s.evacWork l cores with
                | (s, m) =>
                  let s := s.forEach slices fun s n => (s.leaveLines n fun x => !s.wayUsable n l x.way).updSlice n fun sl => { sl with limpt := l }
                  (s.endHold c n d 0 gp).updCtx c n fun x => { x with holdUntil := max x.holdUntil (s.cycle + 64 * m) })
            | r => s.endHold c n d r gp)
      | _ => s)
  | _ => .next s

/-! ## DRAFTLD (16 R383 to R386, 08 R203) -/

/-- Whether the address and the length of a Draft show by themselves that it is bad (16 R384). -/
def draftShapeBad (a len : Nat) (psn : Bool) : Bool := psn || a % 16 ≠ 0 || (len ≠ 0 && (len < 16 || (len - 16) % 32 ≠ 0))

/-- The launch that a core runs. -/
def State.launchOf (s : State) (c : Nat) : Option (Nat × Launch) :=
  ((s.core? c).bind (·.launch)).bind fun l => (s.launch? l).map fun q => (l, q)

/-- Step 3 of DRAFTLD (08 R203): the Draft that has been read takes the place of the old one. -/
def State.replaceDraft (s : State) (c : Nat) (ws : List PWord) : State :=
  match s.launchOf c with
  | none => s
  | some (_, q) =>
    match if ws.isEmpty then some [] else checkDraft ws q.cw q.ch with
    | none => s
    | some rs => s.loadDraft q rs

/-- Whether a combine group of a launch holds a slot. -/
def State.slotHeld (s : State) (q : Launch) : Bool :=
  (List.range (4 * q.cw * q.ch)).any fun i =>
    match s.router? (q.coreOf i) with
    | none => false
    | some t => !t.rounds.isEmpty

/-- Whether a packet that a router of a launch has matched is still to be matched at another, a row of a flow send or not (a link arrival, a reply of the
fabric): it is on a mesh link, or waits at a mesh port, or is held in a combine group (08 R203). -/
def State.hopping (s : State) (q : Launch) : Bool :=
  let mine := (List.range (4 * q.cw * q.ch)).map q.coreOf
  s.slotHeld q
    || (s.agenda.any fun e =>
        match e.2 with
        | .packetArrival r port _ => decide (port < 4) && mine.contains r
        | _ => false)
    || mine.any fun r =>
        match s.router? r with
        | none => false
        | some t => t.waiting.any fun w => decide (w.1 < 4)

/-- `State.hopping` for the launch that a core runs. -/
def State.hoppingAt (s : State) (c : Nat) : Bool :=
  match s.launchOf c with
  | none => false
  | some (_, q) => s.hopping q

/-- DRAFTLD (08 R203, 16 R384 to R386): its bundle stands in place while it waits for the flows and reads the Draft, so that a fault is precise; then the
bundle performs, and the Draft is replaced, at a moment at which no packet is between two matches. -/
def execDraftld (o : OpC3) (s : State) : Host.Outcome State Fault Refusal :=
  privOp s o.g 0x15 fun _ n x =>
    let a := s.bun.old.getC o.a.toNat
    let b := s.bun.old.getC o.b.toNat
    let ends := fun (s : State) (r : Nat) =>
      let t := (s.writeC o.d ⟨BitVec.ofNat 64 r, b.p || Guard.psn o.g .pk s.bun.old⟩ 1).endHolding s.cur n
      (.ok t t : Try State)
    if a.p then .kill s 0 a.v.toNat
    else
      match x.hold with
      | .draftld _ _ _ _ _ _ (.fault cause info) => .trap s cause info
      | .draftld _ _ _ _ _ _ (.result r) => if s.bun.performs then ends s r else .ok s s
      | .draftld _ _ _ _ _ ws .load =>
        if s.hoppingAt s.cur then .wait s.stall
        else if s.bun.performs then ends (s.replaceDraft s.cur ws) 0 else .ok s s
      | _ =>
        if s.bun.performs then
          .wait { s.holdWith n (.draftld s.free a.v b.v b.p (some (s.time18 + 180000)) [] .going) with free := s.free + 1 }.stall
        else .ok s s

/-- Whether a DRAFTLD of a launch that started before one holds its context still. -/
def State.draftldBefore (s : State) (l seq : Nat) : Bool :=
  s.cores.any fun kv =>
    match kv.2 with
    | none => false
    | some k => k.launch == some l && k.ctxs.any fun x =>
        match x.2.map fun (y : Ctx) => y.hold with
        | some (Hold.draftld t _ _ _ _ _ _) => decide (t < seq)
        | _ => false

/-- Whether a flow of a launch has not ended: a row is on its way, or a started flow send has rows to send yet. -/
def State.flowing (s : State) (l : Nat) : Bool :=
  !(s.openRows fun r => r.launch == l).isEmpty || (s.coresOf l).any fun c =>
    (s.core? c).any fun k =>
      (k.qcmds.any fun q => q.started && QKind.path k q.ctx q.kind == 16)
        || k.ycmds.any fun y => y.started && !y.arrived && (match y.kind with | .chsend _ => true | _ => false)

/-- The words of a Draft that follow those read, row by row, as far as they can be read now. -/
def State.draftWords (s : State) (c addr : Nat) : Nat → List PWord → Nat → State × List PWord × Got Unit
  | 0, ws, _ => (s, ws, .wait)
  | fuel + 1, ws, n =>
    let a := addr + 4 * ws.length
    if n ≤ ws.length then (s, ws, .got ())
    else
      match s.readWords c false a (min (n - ws.length) (64 - a % 256 / 4)) with
      | (s, .got l) => s.draftWords c addr fuel (ws ++ l) n
      | (s, .wait) => (s, ws, .wait)
      | (s, .fault cause at') => (s, ws, .fault cause at')
      | (s, .poison at') => (s, ws, .poison at')

/-- TRAPINFO of a read that faults at an address (10 R259). -/
def State.readInfo (s : State) (c a : Nat) : Word64 :=
  if 2 ^ 52 ≤ a then BitVec.ofNat 64 (a % 2 ^ 52)
  else
    match s.translate c a .read with
    | (_, .fault _ info) => info
    | (_, .leaf _) => BitVec.ofNat 64 a

/-- Step 2 of DRAFTLD: the Draft is read, on path F, and checked; an earlier FENCE may hold the reads (11 R273). A full stash is waited for (16 R385 names
no STASH_FULL). -/
def State.draftldRead (s : State) (c n : Nat) (addr len : Word64) (bad : Bool) (ws : List PWord) (q : Launch) : State × List PWord × DraftEnd :=
  if draftShapeBad addr.toNat len.toNat bad then (s, ws, .result 1)
  else if (s.core? c).any fun k => k.fenced n k.nextCmd 16 then (s, ws, .going)
  else
    match s.draftWords c addr.toNat (len.toNat / 4 + 1) ws (len.toNat / 4) with
    | (s, ws, .got _) => (s, ws, if len = 0 || (checkDraft ws q.cw q.ch).isSome then .load else .result 1)
    | (s, ws, .wait) => (s, ws, .going)
    | (s, ws, .poison _) => (s, ws, .result 1)
    | (s, ws, .fault cause a) => if cause = 0x0A then (s, ws, .going) else (s, ws, .fault cause (s.readInfo c a))

/-- DRAFTLD_COMPLETION (16 R384, R386): it waits until every flow of its launch has ended and no combine group holds a slot; a slot held when 10 µs have
passed since its start ends it with result 2. Then the Draft is read. -/
def execDraftldCompletion (s : State) : Host.Outcome State Fault Refusal :=
  match s.ev with
  | .draftldCompletion c n =>
    .next (match (s.ctx? c n).map fun (x : Ctx) => x.hold, s.launchOf c with
      | some (Hold.draftld seq addr len bad due ws .going), some (l, q) =>
        let put := fun (s : State) (due : Option Nat) (ws : List PWord) (out : DraftEnd) =>
          let s := s.updCtx c n fun x => { x with hold := .draftld seq addr len bad due ws out }
          if out = .going then s.postOnce 1 (.draftldCompletion c n) else s
        let held := s.slotHeld q
        let late := match due with | none => false | some t => decide (t ≤ s.time18)
        -- the slots are looked at once, 10 µs after the start
        let due := if late then none else due
        if late && held then put s due ws (.result 2)
        else if s.draftldBefore l seq || held || s.flowing l then put s due ws .going
        else
          match s.draftldRead c n addr len bad ws q with
          | (s, ws, out) => put s none ws out
      | _, _ => s)
  | _ => .next s

/-! ## The end of RETIRE (18 R489, 02 R45) -/

/-- RETIRE_ACCEPTED: the context is EMPTY, where nothing else of its bundle holds it still; its stream registers become FREE once their streams have retired.
A kill decided before counts toward the launch. -/
def execRetireAccepted (s : State) : Host.Outcome State Fault Refusal :=
  match s.ev with
  | .retireAccepted c n =>
    .next (match s.ctx? c n with
      | none => s
      | some x =>
        if x.hold ≠ .retire || x.holdM ≠ .none || x.holdQ ≠ .none then s
        else
          let s := (s.landLate c n).switchOut c n .empty
          let s := s.updCtx c n fun x =>
            { x with
              hold := .none, pend := Pending.none, armed := [], sat := [], fills := [], timer := none, rel := none, win := none, doom := none
              resume := none, sr := { x.sr with taskid := 0 } }
          -- a kill that was decided and finds no further boundary counts all the same (12 R301, 02 R46)
          let s := match x.doom with
            | none => s
            | some (cause, _) => s.countKill c n cause
          let s := s.forEach (List.range 16) fun s q => s.postOnce 1 (.streamRetire c q)
          let s := s.afterCommand c
          match (s.core? c).bind (·.launch) with
          | none => s
          | some l =>
            ((s.postOnce 0 (.stepBarrierOpen l (clusterOf c) false)).postOnce 0 (.stepBarrierOpen l (clusterOf c) true)).postOnce 1 (.launchCompletion l))
  | _ => .next s

/-! ## Fills and write-backs (10 R239, R242) -/

/-- A row takes what its fill brings: one that holds nothing yet goes by the page of the fill. -/
def State.fillRow (s : State) (q : Nat) (f : Fill) (ws : List PWord) : State :=
  s.updCore q fun k =>
    match k.stash.find f.block with
    | none => k
    | some (n, r) =>
      let r := if r.v = 0 then { r with frame := f.pa, ed := f.ed, part := f.part } else r
      { k with stash := k.stash.set n (r.fill ws) }

/-- STASH_FILL_ARRIVAL: the bytes not valid are filled from the two lines at their home slices; who awaits the row goes on. `checks` says what the ECC
codes and the tags of the four sectors are found to be (13 R304). -/
def execStashFillArrival (s : State) : Host.Outcome State Fault Refusal :=
  match s.ev with
  | .stashFillArrival q block checks =>
    .next (match (s.core? q).bind fun k => (k.stash.fills.find? fun f => f.block = block).map fun f => (k, f) with
      | none => s
      | some (k, f) =>
        let a : Access := ⟨f.part, f.ed, k.launch, f.range⟩
        let loaded := s.keyLoaded a
        match ((s.flushWbs q f.pa).meet (f.pa / 64) checks).homeWords a 65 f.pa 64 with
        | (s, ws) =>
          -- a check of the fill that fenced the partition has erased the row with its domain (13 R307): nothing arrives, and who awaits it tries again
          let t := if loaded && !s.keyLoaded a then s
            else
              (s.fillRow q f ws).forEach (clusterCores q) fun s c => s.updCore c fun k => k.mapCtxs fun _ x =>
                if x.fills.contains (q, block) then { x with filled := (q, block, s.cycle) :: x.filled.filter fun e => !(e.1 == q && e.2.1 == block) } else x
          ((t.dropFill q block).retryMisses q).wakeCluster q)
  | _ => .next s

/-- WRITE_BACK_PERFORMED: the dirty bytes merge at their home slices; who waits for it goes on. -/
def execWriteBackPerformed (s : State) : Host.Outcome State Fault Refusal :=
  match s.ev with
  | .writeBackPerformed q id =>
    .next ((((s.performWb q id).forEach (clusterCores q) State.tryFences).retryMisses q).wakeCluster q)
  | _ => .next s

end Sys2Proof.Machine
end

