-- ==== Sys2Proof/Machine/Preempt.lean ====
section
/-! DEFINITION. Events and notices taken (12 R286, R288), the watchdog (R291), pre-emption (R292 to R298), QSAVE and QREST (R295 to R297, 18 R478, R479),
and the silent-error defence (R299, R302). -/

namespace Sys2Proof.Machine

/-! ## Events and notices -/

/-- A trap of kind E or N taken by a context that holds issue; where TVEC.EN is 0 it kills (12 R283, R284). -/
def State.takeAsync (s : State) (c n cause : Nat) (info : Word64) : State :=
  match s.ctx? c n with
  | none => s
  | some x => if x.traps false then s.enterAsync c n cause info else s.kill c n cause info

/-- EVENT_TAKEN (12 R286): PREEMPT before WATCHDOG before STREAM_FAULT before SEM_OVERFLOW, one at a time. -/
def execEventTaken (s : State) : Host.Outcome State Fault Refusal :=
  match s.ev with
  | .eventTaken c n =>
    .next (match s.ctx? c n with
      | none => s
      | some x =>
        if x.st ≠ .issuing || x.sr.tmode || x.win.isSome then s
        else
          match x.pend.preempt, x.pend.watchdog, x.pend.faults, x.pend.semOvf with
          | some t, _, _, _ =>
            (s.updCtx c n fun x => { x with pend := { x.pend with preempt := none }, tookPreempt := true }).takeAsync c n 0x15 t
          | none, some w, _, _ =>
            (s.updCtx c n fun x => { x with pend := { x.pend with watchdog := none } }).takeAsync c n 0x17 (BitVec.ofNat 64 w)
          | none, none, f :: fs, _ =>
            (s.updCtx c n fun x => { x with pend := { x.pend with faults := fs }, resume := some f }).takeAsync c n 0x0F f.info
          | none, none, [], i :: is =>
            (s.updCtx c n fun x => { x with pend := { x.pend with semOvf := is } }).takeAsync c n 0x06 i
          | none, none, [], [] => s)
  | _ => .next s

/-- NOTICE_TAKEN (12 R288): the control context takes the oldest notice; a router whose FLOW_MISS is taken may raise another (08 R205). -/
def execNoticeTaken (s : State) : Host.Outcome State Fault Refusal :=
  match s.ev with
  | .noticeTaken p =>
    .next (match s.part? p with
      | none => s
      | some q =>
        let c := q.entry.ctlcore.toNat
        let n := q.entry.ctlctx.toNat
        match q.notices, s.ctx? c n with
        | m :: ms, some x =>
          if x.st ≠ .issuing || !s.noticeDue c n x then s
          else
            let s := s.updPart p fun q => { q with notices := ms }
            let s := if m.cause = 0x11 then s.updRouter (bitsOf m.info 0 9) fun t => { t with missed := false } else s
            s.takeAsync c n m.cause m.info
        | _, _ => s)
  | _ => .next s

/-- What holds a context that makes no progress (12 Table 1, WATCHDOG). -/
def Ctx.heldBy (x : Ctx) : Nat :=
  if x.st ≠ .blocked then 3
  else if x.armed.any fun a => !a.engine then 0
  else if !x.armed.isEmpty then 1
  else if !x.fills.isEmpty then 2
  else 3

/-- WATCHDOG (12 R291): the no-progress timer has reached WDLIM: the event is pending, or, in trap mode, the context is killed. The timer of a READY
context stands still: it is looked at again when the context gets issue. -/
def execWatchdog (s : State) : Host.Outcome State Fault Refusal :=
  match s.ev with
  | .watchdog c n =>
    .next (match s.ctx? c n, s.part? (s.partOf c) with
      | some x, some p =>
        let lim := bitsOf p.wdcfg 0 16 * 1000000
        (match x.timer with
          | none => s
          | some t =>
            if x.st = .empty || x.st = .ready || lim = 0 || x.pend.watchdog.isSome then s
            else if s.ticks < t + lim then s.postOnce (s.cyclesOf (t + lim - s.ticks)) (.watchdog c n)
            else if x.sr.tmode then (s.landLate c n).kill c n 0x17 (BitVec.ofNat 64 x.heldBy)
            else s.updCtx c n fun x => { x with pend := { x.pend with watchdog := some x.heldBy } }.wake s.cycle)
      | _, _ => s)
  | _ => .next s

/-! ## The freeze (12 R293, R294) -/

/-- The format pair in force for the next operation, once those of a list are all that is left. -/
def Matrix.lastFmt (m : Matrix) (l : List MOp) : Word64 :=
  l.foldl (fun w o => match o.kind with | .mfmt a b sc => fmtWord a b sc | _ => w) m.fmt

/-- The twiddle set-up in force for the next operation, once those of a list are all that is left. -/
def Matrix.lastTwid (m : Matrix) (l : List MOp) : Option Twid :=
  l.foldl (fun w o => match o.kind with | .mtwid t _ => some t | _ => w) m.twidDone

/-- The operations of the matrix queue move to the frozen set. Those frozen have issued: what they set stays in force (17 R417). -/
def Core.freezeMx (k : Core) (sel : Nat → Bool) : Core :=
  let out := k.mx.queue.filter fun o => sel o.ctx
  if out.isEmpty then k
  else
    let rest := k.mx.queue.filter fun o => !sel o.ctx
    { k with
      frozen := out.foldl (fun l o => addFrozen (.m o false) o.id Frozen.id l) k.frozen
      mx := { k.mx with queue := rest } }

/-- Whether a channel command stands still once it has started: a CHRECV, a STEP (12 Table 7). -/
def YKind.stands : YKind → Bool
  | .chrecv _ => true
  | .step _ => true
  | .chsend _ | .chstart _ | .chabort _ | .semadd _ _ | .drain => false

/-- The commands of the other queues that have not started move to the frozen set, but for the QSAVE that freezes them; gates stop; streams stop at their
next element boundary. -/
def Core.freezeRest (k : Core) (sel : Nat → Bool) (own : Option Nat) : Core :=
  let outQ := fun (q : QCmd) => sel q.ctx && !q.started && some q.id != own
  let outY := fun (y : YCmd) => sel y.ctx && !y.started
  let l := (k.qcmds.filter outQ).foldl (fun l q => addFrozen (.q q) q.id Frozen.id l) k.frozen
  { k with
    frozen := (k.ycmds.filter outY).foldl (fun l y => addFrozen (.y y) y.id Frozen.id l) l
    qcmds := k.qcmds.filter fun q => !outQ q
    ycmds := (k.ycmds.filter fun y => !outY y).map fun y => if sel y.ctx && YKind.stands y.kind then { y with held := true } else y
    gates := k.gates.map fun kv => (kv.1, kv.2.map fun g => if sel g.ctx then { g with stopped := true } else g)
    sregs := k.sregs.map fun kv => (kv.1, kv.2.map fun r =>
      { r with strm := r.strm.map fun t => if sel t.ctx then { t with frozen := true } else t }) }

/-- The ring channels of a core with an instance of the contexts chosen. -/
def Core.ringsOf (k : Core) (sel : Nat → Bool) : List Nat :=
  k.chans.filterMap fun kv => kv.2.bind fun h =>
    if (match h.run with | none => false | some r => sel r.ctx) || (match h.pend with | none => false | some y => sel y.ctx) then some kv.1 else none

/-- The engines of a core freeze for the contexts chosen (12 R293): a request freezes all of them, a QSAVE, numbered `own`, the others of its
own context. -/
def State.freezeCommands (s : State) (c : Nat) (sel : Nat → Bool) (own : Option Nat) : State :=
  let s := s.mxSettle c
  let s := s.forEach (match s.core? c with | none => [] | some k => k.ringsOf sel) fun s ch => s.abortRing c ch true
  let s := s.updCore c fun k => (k.freezeMx sel).freezeRest sel own
  -- an operation whose stream has faulted already is abandoned (12 R294)
  let s := s.forEach (List.range 16) fun s q =>
    match (s.core? c).bind fun k => (k.sreg q).strm with
    | none => s
    | some t => if t.frozen && t.faulted then (s.abandonOp c q).getD s else s
  let s := match (s.core? c).bind fun k => k.grid.run with
    | none => s
    | some r =>
      if sel r.ctx then
        (s.updCore c fun k => { k with grid := { k.grid with st := 4, run := some { r with stopping := true } } }).postOnce 0 (.gstopBoundary c)
      else s
  s.wakeCore c

/-! ## Requests (12 R292, R298) -/

/-- PRECTL_GO (12 R292, R293). -/
def execPrectlGo (s : State) : Host.Outcome State Fault Refusal :=
  match s.ev with
  | .prectlGo p v =>
    .next (match s.part? p with
      | none => s
      | some x =>
        let cl := bitsOf v 0 7
        match ((s.cluster? cl).bind (·.launch)).bind fun l => (s.launch? l).map fun q => (l, q) with
        | none => s.updPart p fun x => { x with prectlRej := true }
        | some (l, q) =>
          if !Fuses.enabled s.module.fuses cl || q.part ≠ p || x.prectlBusy then s.updPart p fun x => { x with prectlRej := true }
          else
            let s := s.updPart p fun x => { x with prectlCluster := BitVec.ofNat 7 cl, prectlBusy := true, prectlRej := false }
            let s := s.updLaunch l fun q => { q with aborted := true, preempt := some s.ticks }
            let t := BitVec.ofNat 64 s.ticks
            let s := s.forEach (s.coresOf l) fun s c =>
              let s := s.freezeCommands c (fun _ => true) none
              s.updCore c fun k => k.mapCtxs fun _ x =>
                if x.st = .empty then x else ({ x with pend := { x.pend with preempt := some t } } : Ctx).wake s.cycle
            (s.post (s.cyclesOf x.prelim) (.preemptLimitExpiry l)).postOnce 1 (.launchCompletion l))
  | _ => .next s

/-- PREEMPT_LIMIT_EXPIRY (12 R298, R570): the tasks left are killed with cause PREEMPT, the commands left abandoned. -/
def execPreemptLimitExpiry (s : State) : Host.Outcome State Fault Refusal :=
  match s.ev with
  | .preemptLimitExpiry l =>
    .next (match s.launch? l with
      | none => s
      | some q =>
        match q.preempt, s.part? q.part with
        | some t, some p =>
          if s.ticks < t + p.prelim then s.postOnce (s.cyclesOf (t + p.prelim - s.ticks)) (.preemptLimitExpiry l)
          else (s.endTasks l).postOnce 0 (.launchCompletion l)
        | _, _ => s)
  | _ => .next s

/-! ## Save records (12 R295) -/

/-- A save record: its first word, SLOT, SYNC and the fields from 0x10 on. -/
def recordOf (head : Nat) (slot sync : Word32) (opnd : Nat) : Nat :=
  head + fieldAt 64 slot.toNat + fieldAt 96 sync.toNat + fieldAt 128 opnd

/-- The operands of a stream command, in the order of its entry. -/
def QKind.operands : QKind → List Nat
  | .qset _ a => [a.toNat]
  | .strm _ _ _ => []
  | .qcopy d s n => [d.toNat, s.toNat, n.toNat]
  | .qccopy d s v => [d.toNat, s.toNat, v.toNat]
  | .qrcopy s n h => [s.toNat, n.toNat, h.toNat]
  | .gcfg a _ _ => [a.toNat]
  | .grun b t _ => [b.toNat, t]
  | .qsave a => [a.toNat]
  | .stash _ a n => [a.toNat, n.toNat]

/-- Operands as the field OPND. -/
def packOperands : List Nat → Nat
  | [] => 0
  | v :: l => v % 2 ^ 64 + 2 ^ 64 * packOperands l

/-- The record of a command (kind 1). -/
def commandRecord (n queue : Nat) (sent aband : Bool) (word : Word32) (w : Sync) (ops : List Nat) : Nat :=
  recordOf (1 + fieldAt 8 n + fieldAt 10 queue + fieldAt 12 (bitN sent) + fieldAt 13 (bitN aband)) word (syncBits w) (packOperands ops)

/-- The record of a command set aside. -/
def Frozen.record : Frozen → Nat
  | .m op a => commandRecord op.ctx 0 false a op.word op.sync []
  | .q cmd => commandRecord cmd.ctx 1 false false cmd.word cmd.sync (QKind.operands cmd.kind)
  | .y cmd => commandRecord cmd.ctx 2 cmd.crsent false cmd.word cmd.sync []

/-- The frozen commands of a context with those that stand still, in issue order. -/
def Core.savedCommands (k : Core) (n id : Nat) : List Frozen :=
  let held := k.ycmds.filter fun y => y.ctx == n && decide (y.id < id) && YKind.stands y.kind
  let sent := fun (y : YCmd) => match y.kind with | .chrecv _ => true | _ => y.crsent
  held.foldl (fun l y => addFrozen (.y { y with crsent := sent y }) y.id Frozen.id l) (k.frozen.filter fun f => Frozen.ctx f = n)

/-- The record of a stream register (kind 2). -/
def SReg.record (r : SReg) (n q : Nat) : Nat :=
  let st := match r.strm with
    | none => (0, 0, 0)
    | some t => (t.word.toNat, (syncBits t.sync).toNat, t.taken)
  recordOf (2 + fieldAt 8 n + fieldAt 14 q + fieldAt 18 r.st) (BitVec.ofNat 32 st.1) (BitVec.ofNat 32 st.2.1) (r.descAddr.toNat + fieldAt 64 st.2.2)

/-- The gates of a context, in ascending T. -/
def Core.gatesOf (k : Core) (n : Nat) : List Gate :=
  let put := fun (l : List Gate) (g : Gate) =>
    let before := l.takeWhile fun h => decide (h.t.toNat ≤ g.t.toNat)
    before ++ g :: l.drop before.length
  (k.gates.filterMap (·.2)).foldl (fun l g => if g.ctx = n then put l g else l) []

/-- The records that a QSAVE writes (12 R296): of a register whose first QSET is among the frozen commands, which is FREE still, none. -/
def Core.saveRecords (k : Core) (n id : Nat) : List Nat :=
  let regs := (List.range 16).filterMap fun q =>
    let r := k.sreg q
    if r.alloc && decide (r.owner = n) && r.st != 0 then some (r.record n q) else none
  let grid := match k.grid.heldRun with
    | none => []
    | some r =>
      if r.ctx = n then [recordOf (3 + fieldAt 8 n) 0 0 (k.grid.imgAddr.toNat + fieldAt 64 k.grid.iim1 + fieldAt 96 k.grid.turns.toNat)] else []
  let cmds := (k.savedCommands n id).map Frozen.record
  let gates := (k.gatesOf n).map fun g => recordOf (4 + fieldAt 8 n) 0 0 (g.t.toNat + fieldAt 64 g.sem + fieldAt 72 g.inc)
  regs ++ grid ++ cmds ++ gates ++ [recordOf (fieldAt 8 n) 0 0 0]

/-! ## QSAVE (18 R478, R479) -/

/-- QSAVE: where its context has not taken PREEMPT, its commands freeze (12 R296). -/
def qsaveOp (s : State) (o : OpQsave) (w : Sync) : Host.Outcome State Fault Refusal :=
  qSlot s o.g fun s k n x =>
    let a := s.bun.old.getXY o.fs o.a.toNat
    if !s.privileged s.cur n then .trap s 0x03 (privInfo 5 0x0C 0)
    else if a.p then .kill s 0 a.v.toNat
    else if a.v.toNat % 64 ≠ 0 then .trap s 0x05 (a.v &&& 0xFFFFFFFFFFFFF)
    else
      s.qIssue k n x (.qsave o) w (.qsave a.v) fun s => if x.tookPreempt then s else s.freezeCommands s.cur (fun m => m == n) (some k.nextCmd)

/-- QSAVE (12 R296): Saves the context's streams, grid run, frozen commands and gates as records. -/
def execQsave (o : OpQsave) (s : State) : Host.Outcome State Fault Refusal := qsaveOp s o Sync.none
/-- QSAVE_64 (12 R296): QSAVE with a synchronisation word. -/
def execQsave64 (o : OpQsave) (w : Sync) (s : State) : Host.Outcome State Fault Refusal := qsaveOp s o w

/-- Whether every started command of a context before a number has reached its stop point (12 Table 7). -/
def Core.stopped (k : Core) (n id : Nat) : Bool :=
  (k.mx.live.all fun o => o.ctx != n || o.fin)
    && (k.qcmds.all fun q => q.ctx != n || decide (id ≤ q.id))
    && (k.ycmds.all fun y => y.ctx != n || decide (id ≤ y.id) || YKind.stands y.kind)
    && (match k.grid.run with | none => true | some r => r.ctx != n)
    && (k.sregs.all fun kv =>
      match kv.2.bind (·.strm) with
      | none => true
      | some t => t.ctx != n || decide (id ≤ t.id) || !t.store || t.faulted || t.done == t.taken)
    && (k.chans.all fun kv =>
      match kv.2 with
      | none => true
      | some h => (match h.run with | none => true | some r => r.ctx != n) && (match h.pend with | none => true | some y => y.ctx != n))

/-- The records are written one after another from the one at hand on, poisoned where the guard of their QSAVE was (12 R300). -/
def State.writeRecords (s : State) (c n id a : Nat) (psn : Bool) : Nat → List Nat → State × Got Unit
  | _, [] => (s, .got ())
  | i, r :: rs =>
    match s.writeVia c n false (a + 64 * i) 64 r psn with
    | (s, .got _) => (s.updCore c fun k => k.updQ id fun q => { q with prog := i + 1 }).writeRecords c n id a psn (i + 1) rs
    | (s, .wait) => (s, .wait)
    | (s, .fault cause at') => (s, .fault cause at')
    | (s, .poison at') => (s, .poison at')

/-- What a QSAVE has saved is removed: the commands, the gates, the streams with their registers, the held run (12 R296 step 3). -/
def Core.removeSaved (k : Core) (n id : Nat) : Core :=
  let left := (k.mx.run ++ k.mx.queue).filter fun o => !o.fin
  { k with
    mx := if (k.frozen.any fun f => match f with | .m o _ => o.ctx == n | _ => false) then
        { k.mx with fmtIssued := k.mx.lastFmt left, twidIssued := k.mx.lastTwid left }
      else k.mx
    frozen := k.frozen.filter fun f => Frozen.ctx f ≠ n
    ycmds := k.ycmds.filter fun y => !(y.ctx == n && decide (y.id < id) && YKind.stands y.kind)
    gates := k.gates.filter fun kv => match kv.2 with | none => true | some g => g.ctx ≠ n
    sregs := k.sregs.filter fun kv => match kv.2 with | none => true | some r => !(r.alloc && decide (r.owner = n))
    grid := if (k.grid.heldRun.map (·.ctx)) = some n then { k.grid with held := false, heldRun := none } else k.grid }

/-- QSAVE_COMPLETION: it waits for the stop points, writes the records, removes what they hold, and signals (12 R296). -/
def execQsaveCompletion (s : State) : Host.Outcome State Fault Refusal :=
  match s.ev with
  | .qsaveCompletion c id =>
    let s := s.mxSettle c
    .next (match (s.core? c).bind fun k => (k.qcmd id).map fun q => (k, q) with
      | none => s
      | some (k, q) =>
        match q.kind with
        | .qsave a =>
          if !q.started || q.faulted then s
          else if !k.stopped q.ctx id then s.postOnce 1 (.qsaveCompletion c id)
          else
            (match s.writeRecords c q.ctx id a.toNat q.psn q.prog ((k.saveRecords q.ctx id).drop q.prog) with
              | (s, .got _) => (s.updCore c fun k => k.removeSaved q.ctx id).qDone c q
              | (s, .wait) => s.postOnce 1 (.qsaveCompletion c id)
              | (s, .fault cause at') => s.qFault c q 15 cause at'
              | (s, .poison _) => s)
        | .qset _ _ | .strm _ _ _ | .qcopy _ _ _ | .qccopy _ _ _ | .qrcopy _ _ _ | .gcfg _ _ _ | .grun _ _ _ | .stash _ _ _ => s)
  | _ => .next s

/-! ## QREST (12 R297, 18 R478, R479) -/

/-- QREST. -/
def qrestOp (s : State) (o : OpQsave) (w : Sync) : Host.Outcome State Fault Refusal :=
  qSlot s o.g fun s k n x =>
    let a := s.bun.old.getXY o.fs o.a.toNat
    if !s.privileged s.cur n then .trap s 0x03 (privInfo 5 0x0D 0)
    else if a.p then .kill s 0 a.v.toNat
    else if a.v.toNat % 64 ≠ 0 then .trap s 0x05 (a.v &&& 0xFFFFFFFFFFFFF)
    else
      (s.syncWait k x .q w).bind fun s _ =>
        let t := (s.updCtx s.cur n fun x => { x with holdQ := .qrest a.v 0 w [] }).post 1 (.qrestCompletion s.cur n)
        .ok t t

/-- QREST (12 R297): Restores saved records and re-enters the saved commands. -/
def execQrest (o : OpQsave) (s : State) : Host.Outcome State Fault Refusal := qrestOp s o Sync.none
/-- QREST_64 (12 R297): QREST with a synchronisation word. -/
def execQrest64 (o : OpQsave) (w : Sync) (s : State) : Host.Outcome State Fault Refusal := qrestOp s o w

/-- The meaning of an engine command with a synchronisation word, its integer operands in x1, x2 and x3; none: no command enters a queue by it. -/
def restored (w : Sync) : Instr → Option (State → Host.Outcome State Fault Refusal)
  | .mfmt o => some (execMfmt64 o w)
  | .mdrain o => some (execMdrain64 o w)
  | .mma o => some (execMma64 o w)
  | .mmaz o => some (execMmaz64 o w)
  | .mbld o => some (execMbld64 o w)
  | .mzst o => some (execMzst64 o w)
  | .mzld o => some (execMzld64 o w)
  | .mtrn o => some (execMtrn64 o w)
  | .mbfly o => some (execMbfly64 o w)
  | .mtwid o => some (execMtwid64 o w)
  | .qset o => some (execQset64 { o with a := 1, fs := false } w)
  | .qld o => some (execQld64 o w)
  | .qst o => some (execQst64 o w)
  | .qgath o => some (execQgath64 o w)
  | .qscat o => some (execQscat64 o w)
  | .qcopy o => some (execQcopy64 { o with a := 1, b := 2, c := 3, fs := false } w)
  | .qccopy o => some (execQccopy64 { o with a := 1, b := 2, c := 3, fs := false } w)
  | .qrcopy o => some (fun s => qrcopyOp s { o with a := 1, b := 2, c := 3, fs := false } w)
  | .gcfg o => some (execGcfg64 { o with a := 1, fs := false } w)
  | .grun o => some (execGrun64 { o with a := 1, b := 2, fs := false } w)
  | .spin o => some (execSpin64 { o with a := 1, b := 2, fs := false } w)
  | .sunpin o => some (execSunpin64 { o with a := 1, b := 2, fs := false } w)
  | .swb o => some (execSwb64 { o with a := 1, b := 2, fs := false } w)
  | .sinv o => some (execSinv64 { o with a := 1, b := 2, fs := false } w)
  | .qsave o => some (execQsave64 { o with a := 1, fs := false } w)
  | .chsend o => some (execChsend64 o w)
  | .chrecv o => some (execChrecv64 o w)
  | .chstart o => some (execChstart64 o w)
  | .chabort o => some (execChabort64 o w)
  | .semadd o => some (execSemadd64 o w)
  | .drain o => some (execDrain64 o w)
  | .step o => some (execStep64 o w)
  | _ => none

/-- What the restoring of a record comes to. -/
inductive Restore where
  | done (s : State)
  /-- but for a gather or a scatter, which starts later: its slot word, its synchronisation word, NEXT -/
  | later (s : State) (slot : Word32) (w : Sync) (next : Nat)
  | wait
  | bad (cause : Nat)

/-- A command is entered as if issued now by a context that is held, its wait not tested (12 R297); its slot word is the recorded one. -/
def State.enter (s : State) (c n : Nat) (ops : List Nat) (slot : Word32) (next : Nat) (sent : Bool) (f : State → Host.Outcome State Fault Refusal) : Restore :=
  match s.core? c, s.ctx? c n with
  | some k, some x =>
    let id := k.nextCmd
    let regs := ((Regs.zero.setX 1 ⟨BitVec.ofNat 64 (ops.getD 0 0), false⟩).setX 2 ⟨BitVec.ofNat 64 (ops.getD 1 0), false⟩).setX 3
      ⟨BitVec.ofNat 64 (ops.getD 2 0), false⟩
    let t := ({ s with cur := c, bun := { Bundle.none with pc := x.pc, old := regs, oldM := regs } }).updCtx c n fun x => { x with sat := [.m, .q, .y] }
    match f t with
    | .next t =>
      (match t.bun.status with
        | .normal =>
          let t := t.updCore c fun k =>
            { (k.updQ id fun q => { q with word := slot, next := next }).updY id fun y => { y with word := slot, crsent := sent } with
              mx := k.mx.updOp id fun o => { o with word := slot } }
          .done ({ t with cur := s.cur, bun := s.bun }.updCtx c n fun y => { y with sat := x.sat })
        | .stalled | .blocked => .wait
        | .trapped | .ended | .eret | .trap _ | .yields =>
          .bad (match t.ctx? c n with | none => 1 | some y => bitsOf y.sr.trapcause 0 8))
    | .fault _ => .bad 1
    | .refused _ => .bad 1
  | _, _ => .bad 1

/-- A command of a queue by its slot word. -/
def State.enterCommand (s : State) (c n queue : Nat) (slot : Word32) (w : Sync) (ops : List Nat) (next : Nat) (sent : Bool) : Restore :=
  let sl : Slot := match queue with | 0 => .m | 1 => .q | _ => .y
  if bitsOf slot 19 7 ≠ 0 then .bad 1
  else
    match SlotWord.decode ⟨sl, slot, none⟩ with
    | .error _ => .bad 1
    | .ok i =>
      match restored w i with
      | none => .bad 1
      | some f => s.enter c n ops slot next sent f

/-- Whether a slot word is that of a gather or a scatter: its start needs the register of its indices. -/
def startsIndexed (slot : Word32) : Bool :=
  match SlotWord.decode ⟨.q, slot, none⟩ with
  | .ok (.qgath _) => true
  | .ok (.qscat _) => true
  | _ => false

/-- Whether a slot word starts a stream on a register. -/
def startsStream (slot : Word32) (q : Nat) : Bool :=
  match SlotWord.decode ⟨.q, slot, none⟩ with
  | .ok (.qld o) => o.q.toNat == q
  | .ok (.qst o) => o.q.toNat == q
  | .ok (.qgath o) => o.q.toNat == q
  | .ok (.qscat o) => o.q.toNat == q
  | _ => false

/-- Any guard off. -/
def Guard.off : Guard := ⟨false, false, 0⟩

/-- A record is restored (12 R297). Reserved are bits [63:21] and [511:384], QUEUE = 3 and ST above 4 in every kind, OPND [95:68] of kind 3 and OPND [255:76] of
kind 4, and an increment of 0 there; bits that Table 8 gives to another kind are not judged (DESIGN CHOICE, log entry 113). -/
def State.restoreRecord (s : State) (c n : Nat) (f : Nat → Nat → Nat) : Restore :=
  let kind := f 0 8
  let slot := BitVec.ofNat 32 (f 64 32)
  let w := syncOf (BitVec.ofNat 32 (f 96 32))
  if f 8 2 ≠ n || f 21 43 ≠ 0 || f 384 128 ≠ 0 || f 10 2 = 3 || 4 < f 18 3 then .bad 1
  else
    match kind with
    | 1 => s.enterCommand c n (f 10 2) slot w [f 128 64, f 192 64, f 256 64, f 320 64] 0 (f 12 1 = 1)
    | 2 =>
      let q := f 14 4
      -- a register whose elements a gather takes as indices is ACTIVE, and no command has started a stream on it: its SLOT is zero
      let run := (f 18 3 = 2 || f 18 3 = 3) && slot != 0
      if run && !startsStream slot q then .bad 1
      else
        let o : OpQset := ⟨Guard.off, 1, BitVec.ofNat 4 q, false⟩
        (match s.enter c n [f 128 64] (engineWord (.qset o)) 0 false (execQset64 o Sync.none) with
          | .done s =>
            if !run then .done s
            else if startsIndexed slot then .later s slot w (f 192 48)
            else s.enterCommand c n 1 slot w [] (f 192 48) false
          | r => r)
    | 3 =>
      if f 196 28 ≠ 0 then .bad 1
      else
        let o : OpGcfg := ⟨Guard.off, 1, false, BitVec.ofNat 4 (f 192 4), true⟩
        (match s.enter c n [f 128 64] (engineWord (.gcfg o)) 0 false (execGcfg64 o Sync.none) with
          | .done s => .done (s.updCore c fun k => { k with grid := { k.grid with turns := BitVec.ofNat 32 (f 224 32) } })
          | r => r)
    | 4 =>
      if f 200 4 = 0 || f 204 180 ≠ 0 then .bad 1
      else
        (match (s.core? c).bind Core.freeGate with
          | none => .wait
          | some i => .done (s.armGate c i ⟨BitVec.ofNat 64 (f 128 64), f 192 8, f 200 4, n, false⟩))
    | _ => .bad 1

/-- QREST ends at a record that it cannot restore: STREAM_FAULT, and no signal. -/
def State.qrestStop (s : State) (c n cause addr : Nat) : State :=
  ((s.updCtx c n fun x => { x with holdQ := .none }).retryRetire c n).reportFault c n ⟨15, cause, addr, 3, 0⟩

/-- QREST_COMPLETION: the record at hand is read, on path Q, and restored; an earlier FENCE may hold the read (11 R273). Streams with indices start after the
record of the last register (DEDUCED, log entry 61: theirs may come after that of the stream). After the end record QREST signals. -/
def execQrestCompletion (s : State) : Host.Outcome State Fault Refusal :=
  match s.ev with
  | .qrestCompletion c n =>
    .next (match (s.ctx? c n).map fun (x : Ctx) => x.holdQ with
      | some (Hold.qrest addr pos w late) =>
        let a := addr.toNat + 64 * pos
        let put := fun (s : State) (pos : Nat) (late : List (Nat × Word32 × Sync × Nat)) =>
          (s.updCtx c n fun x => { x with holdQ := .qrest addr pos w late }).postOnce 1 (.qrestCompletion c n)
        (match if (s.core? c).any fun k => k.fenced n k.nextCmd 4 then (s, Got.wait) else s.readWords c false a 16 with
          | (s, .wait) => s.postOnce 1 (.qrestCompletion c n)
          | (s, .fault cause _) => s.qrestStop c n cause a
          | (s, .poison _) => s.qrestStop c n 1 a
          | (s, .got ws) =>
            let f := wordsBits ws
            if ws.any (·.p) then s.qrestStop c n 1 a
            else if f 0 8 ≠ 2 && !late.isEmpty then
              (match late with
                | [] => s
                | (i, slot, v, next) :: l =>
                  match s.enterCommand c n 1 slot v [] next false with
                  | .done s => put s pos l
                  | .wait | .later _ _ _ _ => s.postOnce 1 (.qrestCompletion c n)
                  | .bad cause => s.qrestStop c n cause (addr.toNat + 64 * i))
            else if f 0 8 = 0 then ((s.updCtx c n fun x => { x with holdQ := .none }).post1 c n w).retryRetire c n
            else
              match s.restoreRecord c n f with
              | .done s => put s (pos + 1) late
              | .later s slot v next => put s (pos + 1) (late ++ [(pos, slot, v, next)])
              | .wait => s.postOnce 1 (.qrestCompletion c n)
              | .bad cause => s.qrestStop c n cause a)
      | _ => s)
  | _ => .next s

/-! ## Silent-error defence -/

/-- SHADOW_LATCH_REPLAY (12 R299): a cycle of a core is repeated at half the clock; its counts in cycles do not see it. -/
def execShadowLatchReplay (s : State) : Host.Outcome State Fault Refusal :=
  match s.ev with
  | .shadowLatchReplay c =>
    .next (((s.updCore c fun k => { k with silcnt := setBits k.silcnt 0 16 (min 65535 (bitsOf k.silcnt 0 16 + 1)) }).freeze Event.ofCore c 2).updRouter c
      fun t => { t with busy := t.busy.map fun e => if s.cycle < e.2 then (e.1, e.2 + 2) else e })
  | _ => .next s

/-- A copy to a spare has ended: the next row that waits for one begins. -/
def State.nextSparing (s : State) : State :=
  match s.module.toSpare with
  | [] => s
  | sec :: l => ({ s with module := { s.module with toSpare := l } } : State).startSparing sec

/-- ROW_SPARING (12 R302): a corrected error of the patrol counts toward its row; an error comes to stand in a sector (13 R304); the copy
in progress goes on by a sector, ends, or begins again at the next good spare; a patrol pass ends. While a row is copied and after it, each access finds the same bytes; the spare holds
them corrected. -/
def execRowSparing (s : State) : Host.Outcome State Fault Refusal :=
  match s.ev with
  | .rowSparing (.corrected sec) => .next (s.countCorrected sec)
  | .rowSparing (.arises sec e) => .next (s.meet sec [e])
  | .rowSparing .passEnds => .next { s with module := { s.module with rowErrs := [] } }
  | .rowSparing (.copied good last) =>
    .next (match s.module.sparing with
      | none => s
      | some x =>
        let b := Tab.get (⟨0, 0⟩ : HbmBank) s.module.banks x.bank
        let put := fun (b : HbmBank) => Tab.set (⟨0, 0⟩ : HbmBank) s.module.banks x.bank b
        if !good then
          let m := { s.module with banks := put { b with bad := b.bad ||| BitVec.ofNat 8 (2 ^ x.spare) }, sparing := none }
          let s := ({ s with module := m } : State).startSparing x.sec
          if s.module.sparing.isNone then s.nextSparing
          else { s with module := { s.module with restart := satInc16 s.module.restart 1 } }
        else if last then
          let m := { s.module with
            banks := put { b with used := b.used ||| BitVec.ofNat 8 (2 ^ x.spare) }, spared := satInc16 s.module.spared 1, sparing := none
            rowErrs := s.module.rowErrs.filter fun e => !((e.1, e.2.1) == (x.bank, x.row)) }
          ({ s with module := m, errs := correctedCopy x.bank x.row s.errs } : State).nextSparing
        else { s with module := { s.module with sparing := some { x with sector := x.sector + 1 } } })
  | _ => .next s

end Sys2Proof.Machine
end

