-- ==== Sys2Proof/Machine/Power.lean ====
section
/-! DEFINITION. Operating points, temperature, reset and bring-up (14). -/

namespace Sys2Proof.Machine

/-! ## The agenda when the clock changes -/

/-- Whether an event is due at a TIME: its cycle follows the clock (00 R4, 14 R322). -/
def Event.timed : Event → Bool
  | .residencyQuantumBoundary _ => true
  | .launchPlacement _ => true
  | .clusterPowerGate _ => true
  | .watchdog _ _ => true
  | .timeGateFire _ _ => true
  | .preemptLimitExpiry _ => true
  | .parkedRowRetry _ => true
  | .flowRowLost _ => true
  | .remoteTimeout _ _ => true
  | .linkTimeout _ => true
  | .ringCommitReread _ _ => true
  | .operatingPointStepEnd => true
  | _ => false

/-- Whether an event is the firing of a time gate: it is put off again where it comes before its T, but may not come late (18 R514). -/
def Event.gate : Event → Bool
  | .timeGateFire _ _ => true
  | _ => false

/-- The agenda with what is due at a TIME put at the cycle that the new rate gives it, a pause (in eighteenths of a nanosecond) having passed. A gate's cycle,
rounded up at the old rate, is not rounded up once more. -/
def retime (now old new pause : Nat) (l : List (Nat × Event)) : List (Nat × Event) :=
  l.foldl (fun acc a =>
    if Event.gate a.2 then addEvent (now + ((a.1 - now) * old - pause - (old - 1)) / new) a.2 acc
    else if Event.timed a.2 then addEvent (now + ((a.1 - now) * old - pause + new - 1) / new) a.2 acc else addEvent a.1 a.2 acc) []

/-- The no-progress timer of a READY context stands still (12 R291), also while a cycle lasts `old`, a pause passes, and a cycle lasts `new`. -/
def Ctx.retimer (x : Ctx) (now old new pause : Nat) : Ctx :=
  if x.st = .ready then { x with timer := x.timer.map fun t => t + ((now - x.since) * old + pause) / 18 - (now - x.since) * new / 18 } else x

/-- A change of the module that changes how long a cycle takes. -/
def State.rerate (s : State) (pause : Nat) (f : Module → Module) : State :=
  let t := { s with module := f s.module, time18 := s.time18 + pause }
  { t with
    agenda := retime s.cycle s.rate t.rate pause s.agenda
    cores := s.cores.map fun kv => (kv.1, kv.2.map fun k => k.mapCtxs fun _ x => x.retimer s.cycle s.rate t.rate pause) }

/-! ## Operating points (14 R319 to R322) -/

/-- Whether a quarter of an enabled core or a slice has a limit point below a point (10 R256). -/
def State.limptBelow (s : State) (t : Nat) : Bool :=
  ((List.range 128).any fun cl =>
    Fuses.enabled s.module.fuses cl && (match s.cluster? cl with
      | none => false
      | some x =>
        if x.gated then x.limpts.any fun l => decide (l < t)
        else (List.range 4).any fun i =>
          match s.core? (coreAt cl i) with
          | none => false
          | some k => decide (k.stash.limpt < t)))
    || s.slices.any fun kv => match kv.2 with | none => false | some sl => decide (sl.limpt < t)

/-- The first check of 14 R322 that a GO fails, by its code of WHY; 0: none. -/
def State.opreqWhy (s : State) (part : Option Nat) (t : Nat) : Nat :=
  if (match part with | none => false | some p => !s.managesModule p) then 4
  else if s.module.opStep then 5
  else if 4 < t || t = s.module.pt then 2
  else if t = 4 && !s.launches.isEmpty then 3
  else if s.module.pt < t && s.limptBelow t then 1
  else 0

/-- Whether an event is a write of OPREQ by the host, or brings one. -/
def Event.hostOpreq : Event → Bool
  | .opreqGo none _ => true
  | .hostWrite _ (.pf0 off) _ _ => off == 0x800
  | _ => false

/-- OPREQ_GO (14 R321, R322): a write of OPREQ by the host (no partition), or a GO by privileged code, which the host's of the same cycle precedes. A module
held in reset takes none (R326). -/
def execOpreqGo (s : State) : Host.Outcome State Fault Refusal :=
  match s.ev with
  | .opreqGo part v =>
    let t := bitsOf v 0 3
    let s := if part.isNone && s.module.booterr = 0 then { s with module := { s.module with opTgt := t } } else s
    .next (if s.module.booterr ≠ 0 || !v.getLsbD 3 then s
      else if part.isSome && s.agenda.any fun a => decide (a.1 ≤ s.cycle) && Event.hostOpreq a.2 then s.post 0 (.opreqGo part v)
      else match s.opreqWhy part t with
      | 0 =>
        -- at most 100 µs, the pause of the clock change among them
        let s := { s with module := { s.module with opRej := false, opWhy := 0, opStep := true, opTo := t }, free := s.free + 1 }
        s.post (Config.latency (s.free - 1) % 98000 * 18 / s.rate) .operatingPointStepEnd
      | w => { s with module := { s.module with opRej := true, opWhy := w } })
  | _ => .next s

/-- OPERATING_POINT_STEP_END (14 R322 steps 3 and 4): cores and routers have paused for 1 µs of TIME, and PT takes the target. -/
def execOperatingPointStepEnd (s : State) : Host.Outcome State Fault Refusal :=
  match s.ev with
  | .operatingPointStepEnd =>
    .next (if s.module.opStep then
        -- EVAC, FENSET and a waking cluster leave no limit point below the target; were there one, the step would be refused (10 R256)
        let low := decide (s.module.pt < s.module.opTo) && s.limptBelow s.module.opTo
        let s := if low then { s with module := { s.module with opStep := false, opRej := true, opWhy := 1 } }
          else s.rerate 18000 fun m => { m with pt := m.opTo, opStep := false }
        s.forEach s.parts fun s kv => s.postOnce 1 (.launchPlacement kv.1)
      else s)
  | _ => .next s

/-! ## Temperature (14 R324) -/

/-- THERMAL_THROTTLE: cores and routers issue on alternate cycles; only elapsed time sees it. -/
def execThermalThrottle (s : State) : Host.Outcome State Fault Refusal :=
  match s.ev with
  | .thermalThrottle => .next (s.rerate 0 fun m => { m with throttled := true })
  | _ => .next s

/-- THERMAL_RECOVERY. -/
def execThermalRecovery (s : State) : Host.Outcome State Fault Refusal :=
  match s.ev with
  | .thermalRecovery => .next (s.rerate 0 fun m => { m with throttled := false })
  | _ => .next s

/-! ## Reset and bring-up (14 R326) -/

/-- The rows and the ways that every part has usable at a point at least (10 Table 6). -/
def minRows (pt : Nat) : Nat := match pt with | 0 => 8192 | 1 => 7936 | 2 => 7680 | _ => 7168
/-- The ways. -/
def minWays (pt : Nat) : Nat := match pt with | 0 => 16 | 1 => 15 | 2 => 15 | _ => 14

/-- Whether the Fen map passes its checks: its signature, the minima, the nesting (10 R250). -/
def Fuses.fenOk (f : Fuses) : Bool :=
  f.fenSigned
    && ((List.range 512).all fun q => (List.range 5).all fun p =>
      decide (minRows p ≤ Fuses.usableRows f q p)
        && (p == 4 || (Tab.get 0 f.fenRows (8 * q + p) &&& ~~~(Tab.get 0 f.fenRows (8 * q + p + 1))) == 0))
    && ((List.range 192).all fun n => (List.range 5).all fun p =>
      decide (minWays p ≤ Fuses.usableWays f n p)
        && (p == 4 || (Tab.get 0 f.fenWays (8 * n + p) &&& ~~~(Tab.get 0 f.fenWays (8 * n + p + 1))) == 0))

/-- Why bring-up stops; 0: it does not. -/
def Fuses.booterr (f : Fuses) : Nat := if !f.firmwareOk then 1 else if !Fuses.fenOk f then 2 else 0

/-- The module after reset and bring-up, with what it has given to the outside and the counter of free values as they were. -/
def State.bringUp (s : State) (f : Fuses) : State :=
  let t := { State.resetWith f with free := s.free, out := s.out }
  match Fuses.booterr f with
  | 0 => t
  | n => { t with module := { t.module with booterr := n, locked := false }, out := s.out ++ [.booterr n] }

/-- THERMAL_RESET: at 110 °C the module enters reset. -/
def execThermalReset (s : State) : Host.Outcome State Fault Refusal :=
  match s.ev with
  | .thermalReset f => .next (s.bringUp f)
  | _ => .next s

/-- MODULE_RESET. -/
def execModuleReset (s : State) : Host.Outcome State Fault Refusal :=
  match s.ev with
  | .moduleReset f => .next (s.bringUp f)
  | _ => .next s

end Sys2Proof.Machine
end

