-- ==== Sys2Proof/Machine/Predicate.lean ====
section
/-! DEFINITION. PAND, POR, PXOR, PNOT, PSET and PMOV (18 R468): in the C slot on bank pk, in I0 and I1 on bank pi, in F on bank pv bit by bit. -/

namespace Sys2Proof.Machine

/-- A predicate result of I0, I1 or F. -/
def predResult (s : State) (sl : PSlot) (g : Guard) (d : Reg5) (lat : Nat) (v : PV) : Host.Outcome State Fault Refusal :=
  match sl with
  | .i0 => pResult s g .pi d lat v
  | .i1 => pResult s g .pi d lat v
  | .f => pvResult s g d lat v

/-- A predicate of an operation's bank, before the bundle. -/
def State.predOf (s : State) (sl : PSlot) (n : Reg5) : PV := s.bun.old.getP (PSlot.bank sl) n.toNat

/-- PAND_C (18 R468): AND of two pk predicates. -/
def execPandC (o : OpP3C) (s : State) : Host.Outcome State Fault Refusal :=
  pResult s o.g .pk o.d 1 (predBinary (· &&& ·) (s.bun.old.getPk o.a.toNat) (s.bun.old.getPk o.b.toNat))
/-- POR_C (18 R468): OR of two pk predicates. -/
def execPorC (o : OpP3C) (s : State) : Host.Outcome State Fault Refusal :=
  pResult s o.g .pk o.d 1 (predBinary (· ||| ·) (s.bun.old.getPk o.a.toNat) (s.bun.old.getPk o.b.toNat))
/-- PXOR_C (18 R468): XOR of two pk predicates. -/
def execPxorC (o : OpP3C) (s : State) : Host.Outcome State Fault Refusal :=
  pResult s o.g .pk o.d 1 (predBinary (· ^^^ ·) (s.bun.old.getPk o.a.toNat) (s.bun.old.getPk o.b.toNat))
/-- PNOT_C (18 R468): NOT of a pk predicate. -/
def execPnotC (o : OpP2C) (s : State) : Host.Outcome State Fault Refusal :=
  pResult s o.g .pk o.d 1 (predUnary (~~~·) (s.bun.old.getPk o.a.toNat))
/-- PSET_C (18 R468): Sets a pk predicate from IMM14. -/
def execPsetC (o : OpPsetC) (s : State) : Host.Outcome State Fault Refusal := pResult s o.g .pk o.d 1 ⟨o.imm.signExtend 32, false⟩
/-- PSET_C_64 (18 R468): C-slot PSET with an IMM32 extension word. -/
def execPsetC64 (o : OpPsetC64) (s : State) : Host.Outcome State Fault Refusal := pResult s o.g .pk o.d 1 ⟨o.imm, false⟩
/-- PMOV_C (18 R468): Copies a predicate from any bank into a pk predicate. -/
def execPmovC (o : OpPmovC) (s : State) : Host.Outcome State Fault Refusal := pResult s o.g .pk o.d 2 (s.bun.old.getP o.sf o.a.toNat)

/-- PAND_IF (18 R468): AND of two pi or pv predicates. -/
def execPandIF (o : OpP3) (s : State) : Host.Outcome State Fault Refusal :=
  predResult s o.sl o.g o.d 1 (predBinary (· &&& ·) (s.predOf o.sl o.a) (s.predOf o.sl o.b))
/-- POR_IF (18 R468): OR of two pi or pv predicates. -/
def execPorIF (o : OpP3) (s : State) : Host.Outcome State Fault Refusal :=
  predResult s o.sl o.g o.d 1 (predBinary (· ||| ·) (s.predOf o.sl o.a) (s.predOf o.sl o.b))
/-- PXOR_IF (18 R468): XOR of two pi or pv predicates. -/
def execPxorIF (o : OpP3) (s : State) : Host.Outcome State Fault Refusal :=
  predResult s o.sl o.g o.d 1 (predBinary (· ^^^ ·) (s.predOf o.sl o.a) (s.predOf o.sl o.b))
/-- PNOT_IF (18 R468): NOT of a pi or pv predicate. -/
def execPnotIF (o : OpP2) (s : State) : Host.Outcome State Fault Refusal :=
  predResult s o.sl o.g o.d 1 (predUnary (~~~·) (s.predOf o.sl o.a))
/-- PSET_IF (18 R468): Sets a pi or pv predicate from IMM14. -/
def execPsetIF (o : OpPset) (s : State) : Host.Outcome State Fault Refusal := predResult s o.sl o.g o.d 1 ⟨o.imm.signExtend 32, false⟩
/-- PSET_IF_64 (18 R468): PSET in I0, I1 or F with an IMM32 extension word. -/
def execPsetIF64 (o : OpPset64) (s : State) : Host.Outcome State Fault Refusal := predResult s o.sl o.g o.d 1 ⟨o.imm, false⟩
/-- PMOV_IF (18 R468): Copies a predicate from any bank into a pi or pv predicate. -/
def execPmovIF (o : OpPmov) (s : State) : Host.Outcome State Fault Refusal :=
  predResult s o.sl o.g o.d 2 (s.bun.old.getP o.sf o.a.toNat)

end Sys2Proof.Machine
end

