-- ==== Sys2Proof/Machine/Security.lean ====
section
/-! DEFINITION. Partitions and their reconfiguration (13 R308 to R311), SPDM and key release (R313 to R315), the host port (R316, R317), TDISP (R318). -/

namespace Sys2Proof.Machine

/-! ## The partition map (13 R308, R309) -/

/-- An entry of the map as it is laid out (13 Table 3). -/
def mapEntryOf (v : BitVec 512) : MapEntry where
  clmask := v.extractLsb' 0 128
  crpair := v.extractLsb' 128 192
  lpmask := v.extractLsb' 320 18
  ctlcore := v.extractLsb' 338 9
  ctlctx := v.extractLsb' 347 2
  mgmt := v.getLsbD 349
  seclim := v.extractLsb' 350 8
  en := v.getLsbD 358
  reserved := v.extractLsb' 359 25 != 0 || v.extractLsb' 384 128 != 0

/-- The 64 bytes of a partition's entry in a map. -/
def PartMap.raw (m : PartMap) (p : Nat) : BitVec 512 := Tab.get 0 m.entries p
/-- The entry of a partition in a map. -/
def PartMap.entry (m : PartMap) (p : Nat) : MapEntry := mapEntryOf (PartMap.raw m p)
/-- CMODE of a map's header. -/
def PartMap.cmode (m : PartMap) : Bool := m.header.getLsbD 0

/-- Whether a channel region is enabled: the first HCD0 of die 0 and the first HCD1 of die 1 are (01 R17). -/
def Fuses.regionEnabled (f : Fuses) (g : Nat) : Bool :=
  if g < 192 then decide (g < f.hcd0.toNat) else decide (g < 384) && decide (g - 192 < f.hcd1.toNat)

/-- Whether an entry names something that is disabled; whether, being enabled, it has its control core outside its clusters. -/
def MapEntry.bad (f : Fuses) (e : MapEntry) : Bool :=
  ((List.range 128).any fun c => e.clmask.getLsbD c && !Fuses.enabled f c)
    || ((List.range 192).any fun k => e.crpair.getLsbD k && !(Fuses.regionEnabled f (2 * k) && Fuses.regionEnabled f (2 * k + 1)))
    || (e.lpmask &&& ~~~f.lpen) != 0
    || (e.en && !e.clmask.getLsbD (clusterOf e.ctlcore.toNat))

/-- Whether two entries share a cluster, a pair or a port. -/
def MapEntry.meets (a b : MapEntry) : Bool :=
  (a.clmask &&& b.clmask) != 0 || (a.crpair &&& b.crpair) != 0 || (a.lpmask &&& b.lpmask) != 0

/-- Whether a map is refused as a whole (13 R309). -/
def PartMap.refused (m : PartMap) (f : Fuses) : Bool :=
  let es := (List.range 8).map (PartMap.entry m)
  m.header.extractLsb' 1 63 != 0 || (es.any fun e => e.reserved || MapEntry.bad f e)
    || decide (1 < (es.filter (·.mgmt)).length)
    || (List.range 8).any fun i => (List.range i).any fun j =>
      let a := PartMap.entry m i
      let b := PartMap.entry m j
      a.en && b.en && MapEntry.meets a b

/-- The owner of a channel region under some entries. -/
def regionOwner (e : Nat → MapEntry) (g : Nat) : Option Nat := (List.range 8).find? fun p => (e p).en && (e p).crpair.getLsbD (g / 2)

/-- A channel region is filled with zero sectors under a key: no poison, no owner, no error; no slice holds a line of it (13 R310 step 4). -/
def State.fillRegion (s : State) (g k : Nat) : State :=
  let out := fun (a n : Nat) => decide (a * n / 2 ^ 31 ≠ g)
  let s := s.forEach (s.slices.map (·.1)) fun s n => s.leaveLines n fun x => !out x.no 128
  { s with
    mem := s.mem.filter fun c => out c.1 1
    memPsn := s.memPsn.filter fun c => out c.1 4
    owner := s.owner.filter fun c => out c.1 64
    sealed := s.sealed.filter fun c => out c.1 64
    errs := s.errs.filter fun c => out c.1 64
    regionKey := Tab.set 0 s.regionKey g k }

/-- A new or changed partition: its registers are at their reset values, its domain 0 is freshly drawn; one that is not enabled is none. Its notices go, a
FLOW_MISS not taken among them, and the router that raised it raises none again: 08 R205 does not say (DESIGN CHOICE, log entry 92). -/
def State.rebuildPart (s : State) (p : Nat) (e : MapEntry) : State :=
  let tdist := match s.part? p with | none => 0 | some q => q.tdist
  let s := { s with agenda := s.agenda.filter fun a => a.2 != Event.residencyQuantumBoundary p }
  if e.en then
    let n := s.module.nextKey
    let q := { Part.fresh e with tdist := tdist, keys := [(0, some ⟨2 * n, Config.drbg n, 0⟩)] }
    let s := { s with parts := Tab.set none s.parts p (some q), module := { s.module with nextKey := n + 1 } }
    s.post (s.cyclesOf (bitsOf q.schedcfg 0 5 * 500000)) (.residencyQuantumBoundary p)
  else { s with parts := Tab.set none s.parts p none }

/-- A free cluster loses its power, and what its TLBs hold. -/
def State.gateCluster (s : State) (cl : Nat) : State :=
  match s.cluster? cl with
  | none => s
  | some x =>
    if x.gated then s
    else
      let limpts := (List.range 4).map fun t => match s.core? (coreAt cl t) with | none => 0 | some k => k.stash.limpt
      let s := s.updCluster cl fun x => { x with gated := true, tlb := [], limpts := limpts }
      s.forEach (List.range 4) fun s t => { s with cores := Tab.set none s.cores (coreAt cl t) none }

/-- Step 2 of 13 R310: every slice is flushed where CMODE changes (10 R249), else those beside channel regions whose owner changes. -/
def State.flushSlices (s : State) (old m : PartMap) : State :=
  s.forEach (List.range 192) fun s n =>
    if s.module.cmode != PartMap.cmode m || regionOwner (PartMap.entry old) (2 * n) != regionOwner (PartMap.entry m) (2 * n) then s.leaveLines n fun _ => true else s

/-- Steps 2 to 5 of 13 R310. -/
def State.reconfigure (s : State) (m : PartMap) (changed : List Nat) : State :=
  let old := s.module.map
  let holds := fun (e : MapEntry) (cl : Nat) => e.en && e.clmask.getLsbD cl
  let s := s.flushSlices old m
  let s := s.forEach changed fun s p => s.forEach (List.range 8) fun s e => s.eraseDomain p e
  let s := s.forEach ((List.range 128).filter fun cl => changed.any fun p => holds (PartMap.entry old p) cl || holds (PartMap.entry m p) cl) State.gateCluster
  let s := s.forEach changed fun s p => s.rebuildPart p (PartMap.entry m p)
  let s := s.forEach (List.range 384) fun s g =>
    let now := regionOwner (PartMap.entry m) g
    if regionOwner (PartMap.entry old) g = now then s
    else
      match now.bind s.part? with
      | some q => s.fillRegion g (match Tab.get none q.keys 0 with | none => 0 | some k => k.serial)
      | none => { s with module := { s.module with nextKey := s.module.nextKey + 1 } }.fillRegion g (2 * s.module.nextKey)
  let s := s.forEach changed fun s p =>
    s.forEach ((List.range 18).filter fun n => (PartMap.entry m p).en && (PartMap.entry m p).lpmask.getLsbD n) fun s n =>
      s.updPort n fun q => { q with bpart := BitVec.ofNat 3 p }
  { s with module := { s.module with cmode := PartMap.cmode m, map := m } }

/-- RECONFIGURATION_REQUEST (13 R309, R310). -/
def execReconfigurationRequest (s : State) : Host.Outcome State Fault Refusal :=
  match s.ev with
  | .reconfigurationRequest m =>
    let changed := (List.range 8).filter fun p => PartMap.raw m p != PartMap.raw s.module.map p
    let locked := changed.any fun p =>
      !(s.launchesOf p).isEmpty || (match s.part? p with | none => false | some q => q.tdist == 1 || q.tdist == 2)
    .next (if s.module.booterr ≠ 0 || PartMap.refused m s.module.fuses || locked then s.emit (.mgmt false)
      else (s.reconfigure m changed).emit (.mgmt true))
  | _ => .next s

/-! ## SPDM (13 R313, R314) -/

/-- The measurement with an index (13 R313): the ROM, the firmware, the partition map, the entry of a partition, the launch image bound to a session. -/
def State.measurement (s : State) (part session : Option Nat) (i : Nat) : Option (BitVec 512) :=
  match i with
  | 1 => some (Config.digest [Config.rom])
  | 2 => some (Config.digest [Config.firmware s.module.fuses.gfwmaj.toNat])
  | 3 => some (Config.digest (s.module.map.header.toNat :: (List.range 8).map fun p => (PartMap.raw s.module.map p).toNat))
  | 4 => part.map fun p => Config.digest [(PartMap.raw s.module.map p).toNat]
  | 5 => (s.module.sessions.find? fun q => some q.id == session).map (·.image)
  | _ => none

/-- The keys of the three layers (13 R313): the device identity key, the layer-1 key, and a partition's key. -/
def State.layerKeys (s : State) (part : Option Nat) : List Nat :=
  let uds := s.module.fuses.uds
  let layer1 := Config.layerOneKey uds (Config.digest [Config.firmware s.module.fuses.gfwmaj.toNat])
  [Config.deviceKey uds, layer1] ++ (match part with
    | none => []
    | some p => [Config.partKey layer1 p (Config.digest [(PartMap.raw s.module.map p).toNat])])

/-- Whether the Gradrir core answers over a way (13 R314): the management function, or an enabled link port; a module held in reset does not answer. -/
def State.answers (s : State) (link : Option Nat) : Bool :=
  s.module.booterr == 0 && (match link with | none => true | some n => decide (n < 18) && s.module.fuses.lpen.getLsbD n)

/-- An answer of the Gradrir core to a request with a code: its cryptographic content goes by the keys of the certificate chain that the request names, and by
what it answers for. A request that names a partition that does not exist is refused. -/
def State.spdm (s : State) (code : Nat) (part link : Option Nat) (about : List Nat) : State :=
  if !s.answers link then s
  else if (match part with | none => false | some p => (s.part? p).isNone) then s.emit (.mgmt false)
  else s.emit (.spdm code link (Config.spdmBody code (s.layerKeys part ++ about)))

/-- GET_DIGESTS. -/
def execGetDigests (s : State) : Host.Outcome State Fault Refusal :=
  match s.ev with
  | .getDigests p link => .next (s.spdm 0x81 p link [])
  | _ => .next s

/-- GET_CERTIFICATE: the chain of layer 2 for a partition. -/
def execGetCertificate (s : State) : Host.Outcome State Fault Refusal :=
  match s.ev with
  | .getCertificate p link => .next (s.spdm 0x82 p link [])
  | _ => .next s

/-- CHALLENGE: the answer holds a number that the core draws. -/
def execChallenge (s : State) : Host.Outcome State Fault Refusal :=
  match s.ev with
  | .challenge p link nonce => .next (({ s with free := s.free + 1 } : State).spdm 0x83 p link [nonce, (Config.drbg s.free).toNat])
  | _ => .next s

/-- GET_MEASUREMENTS: indices 1 to 5 (13 R313). -/
def execGetMeasurements (s : State) : Host.Outcome State Fault Refusal :=
  match s.ev with
  | .getMeasurements p link session i =>
    .next (match s.measurement p session i with
      | some d => s.spdm 0xE0 p link [i, d.toNat]
      | none => if s.answers link then s.emit (.mgmt false) else s)
  | _ => .next s

/-- KEY_EXCHANGE: a session begins, under the partition key of this moment (13 R313). -/
def execKeyExchange (s : State) : Host.Outcome State Fault Refusal :=
  match s.ev with
  | .keyExchange p link data =>
    let gone := match p with | none => false | some p => (s.part? p).isNone
    .next (if !s.answers link || gone then s.spdm 0xE4 p link []
      else
        let q : Session := ⟨s.module.nextSession, p, p.map (PartMap.entry s.module.map), false, link, 0⟩
        let m := { s.module with sessions := s.module.sessions ++ [q], nextSession := s.module.nextSession + 1 }
        ({ s with module := m, free := s.free + 1 } : State).spdm 0xE4 p link [q.id, data, (Config.drbg s.free).toNat])
  | _ => .next s

/-- FINISH: where its verify data is right, the session stands; else it is over. -/
def execFinish (s : State) : Host.Outcome State Fault Refusal :=
  match s.ev with
  | .finish id v =>
    .next (match s.module.sessions.find? fun q => q.id = id with
      | none => s.emit (.mgmt false)
      | some q =>
        if Config.finishOk id v then
          ({ s with module := { s.module with sessions := s.module.sessions.map fun (t : Session) => if t.id = id then { t with live := true } else t } } :
            State).spdm 0xE5 q.part q.link [id]
        else { s with module := { s.module with sessions := s.module.sessions.filter fun (t : Session) => t.id ≠ id } }.emit (.mgmt false))
  | _ => .next s

/-! ## Key release (13 R315) -/

/-- The partition that a key message of a session is for: the session stands, names one, a domain from 1 to 7, and no lock of TDISP forbids it. -/
def State.keyTarget (s : State) (id domain : Nat) : Option (Nat × Part × Session) :=
  match s.module.sessions.find? fun q => q.id = id && q.live with
  | none => none
  | some q =>
    match q.part with
    | none => none
    | some p =>
      match s.part? p with
      | none => none
      | some x => if domain = 0 || 7 < domain || (q.link.isNone && (x.tdist == 1 || x.tdist == 2)) then none else some (p, x, q)

/-- KEYLOAD: a digest that it carries is bound to the session (13 R313 index 5). -/
def execKeyload (s : State) : Host.Outcome State Fault Refusal :=
  match s.ev with
  | .keyload id domain material digest =>
    .next (match s.keyTarget id domain with
      | none => s.emit (.mgmt false)
      | some (p, x, q) =>
        if (Tab.get none x.keys domain).isSome || x.fenced || q.entry != some x.entry then s.emit (.mgmt false)
        else
          let s := s.updPart p fun x => { x with keys := Tab.set none x.keys domain (some ⟨2 * material.toNat + 1, material, digest⟩) }
          let bind' := fun (t : Session) => if t.id = id && digest ≠ 0 then { t with image := digest } else t
          ({ s with module := { s.module with sessions := s.module.sessions.map bind' } } : State).emit (.mgmt true))
  | _ => .next s

/-- KEYCLEAR. -/
def execKeyclear (s : State) : Host.Outcome State Fault Refusal :=
  match s.ev with
  | .keyclear id domain =>
    .next (match s.keyTarget id domain with
      | none => s.emit (.mgmt false)
      | some (p, _, _) => (s.eraseDomain p domain).emit (.mgmt true))
  | _ => .next s

/-! ## The host port (13 R317) -/

/-- A number in bytes, the least significant first. -/
def bytesOf (v : Nat) : Nat → List Byte
  | 0 => []
  | n + 1 => BitVec.ofNat 8 v :: bytesOf (v / 256) n

/-- The value of bytes, the first the least significant. -/
def bytesNat : List Byte → Nat
  | [] => 0
  | b :: l => b.toNat + 256 * bytesNat l

/-- Whether an event is a row of a host write of a partition on its way to its home slice. -/
def Event.hostRow (p : Nat) : Event → Bool
  | .rowLanding _ _ x => x.xt && x.tgtk == 1 && x.srck == 2 && x.part.toNat == p
  | _ => false

/-- The host writes of a partition's function that are on their way perform: neither a read nor a doorbell write passes them (PRESUMED, log entry 69). -/
def State.landHostRows (s : State) (p : Nat) : State :=
  let due := s.agenda.filter fun a => Event.hostRow p a.2
  State.forEach { s with agenda := s.agenda.filter fun a => !Event.hostRow p a.2 } due fun s a =>
    match a.2 with
    | .rowLanding r _ x => s.landHome r x
    | _ => s

/-- A packet of the host port (08 R181, 13 R317): bytes that lie in one 256-byte block, from a byte of their first word on. -/
def hostPacket (p va off : Nat) (data : List Byte) (l : Leaf) (slice : Nat) (rng : Option Nat) : Packet :=
  let ws := maskedWords off data.length (bytesNat data) false
  { flow := 0, part := BitVec.ofNat 3 p, wide := false, seq := 0, src := 0, srck := 2, vc := 0, xt := true, rank := 0, inst := 0
    tgt := BitVec.ofNat 9 slice, tgtk := 1, daddr := BitVec.ofNat 52 va, pa := l.pa / 4 * 4, ed := l.ed, rng := rng
    ben := ws.map fun w => BitVec.ofNat 4 w.2, desc := 0, words := ws.map (·.1), rows := [] }

/-- A packet of the host port is on its way, behind those of its function. -/
def State.sendHost (s : State) (p : Nat) (x : Packet) : State :=
  let last := (s.agenda.filter fun a => Event.hostRow p a.2).foldl (fun n a => max n a.1) s.cycle
  let due := max last (s.cycle + 1 + Config.latency s.free)
  ({ s with free := s.free + 1 } : State).post (due - s.cycle) (.rowLanding 0 0 x)

/-- A host write to the memory aperture, block by block: without a mapping it is discarded, reported and noticed. -/
def State.hostStore (s : State) (p : Nat) : Nat → Nat → List Byte → State
  | 0, _, _ => s
  | fuel + 1, va, data =>
    if data.isEmpty then s
    else
      let here := 256 - va % 256
      let s :=
        match s.translateHome p va .write with
        | (s, .fault cause info) => (s.notice p cause info).emit (.hostError p)
        | (s, .leaf l) => s.sendHost p (hostPacket p va (va % 4) (data.take here) l (s.homeSlice l.pa) (s.rangeAt p va))
      s.hostStore p fuel (va + here) (data.drop here)

/-- The 64-bit register of BAR0 of the management function at an offset, as the host writes it (13 R316, 14 R321): OPREQ, and PRECTL of a partition. What
else stands there comes as messages of its own. -/
def State.pf0Write (s : State) (off : Nat) (v : Word64) : State :=
  if off = 0x800 then s.post 0 (.opreqGo none v)
  else if 0x1000 ≤ off && (off - 0x1000) % 256 = 0 && decide ((off - 0x1000) / 256 < 8) then
    let p := (off - 0x1000) / 256
    if v.getLsbD 7 then s.post 0 (.prectlGo p v) else s.updPart p fun q => q.write 0x082 v
  else s

/-- The same registers as the host reads them; none: the spec gives no register there. -/
def State.pf0Read (s : State) (off : Nat) : Option Nat :=
  if off = 0x800 then some s.module.opreq
  else if 0x1000 ≤ off && (off - 0x1000) % 256 = 0 then
    (s.part? ((off - 0x1000) / 256)).map fun p => p.prectlCluster.toNat + fieldAt 8 (bitN p.prectlBusy) + fieldAt 9 (bitN p.prectlRej)
  else none

/-- HOST_WRITE (13 R316, R317): to the memory aperture it enters as packets with SRCK = 2, which perform at the home slice as bypassing writes that
register no owner; a doorbell and a management register take it as their own events do. -/
def execHostWrite (s : State) : Host.Outcome State Fault Refusal :=
  match s.ev with
  | .hostWrite p t data ide =>
    .next (match t with
      | .pf0 off => s.pf0Write off (BitVec.ofNat 64 (bytesNat data))
      | .qtail q => (s.landHostRows p).post 0 (.qtailWrite p q (BitVec.ofNat 32 (bytesNat data)) ide)
      | .lsem n => (s.landHostRows p).post 0 (.launchSemaphoreWrite p n (BitVec.ofNat 32 (bytesNat data)) ide)
      | .aperture off => if s.takesHost p ide then s.hostStore p (data.length + 1) off.toNat data else s.emit (.hostError p))
  | _ => .next s

/-- The answers to two pieces of a read as one. -/
def HostAnswer.join : HostAnswer → HostAnswer → HostAnswer
  | .data a, .data b => .data (a ++ b)
  | .unsupported, _ => .unsupported
  | _, .unsupported => .unsupported
  | .abort, _ => .abort
  | _, .abort => .abort

/-- A host read of the memory aperture, block by block: without a mapping an Unsupported Request, with a notice; with a poisoned word completer abort. -/
def State.hostLoad (s : State) (p : Nat) : Nat → Nat → Nat → State × HostAnswer
  | 0, _, _ => (s, .data [])
  | fuel + 1, va, n =>
    if n = 0 then (s, .data [])
    else
      let here := min n (256 - va % 256)
      match s.translateHome p va .read with
      | (s, .fault cause info) => (s.notice p cause info, .unsupported)
      | (s, .leaf l) =>
        match s.homeRead ⟨p, l.ed, none, s.rangeAt p va⟩ l.pa here with
        | (s, v, psn) =>
          match s.hostLoad p fuel (va + here) (n - here) with
          | (s, a) => (s, (if psn || l.psn then HostAnswer.abort else .data (bytesOf v here)).join a)

/-- HOST_READ (13 R316, R317): the memory aperture is answered from the home slices; QTAIL, lsem and the management registers as they stand. -/
def execHostRead (s : State) : Host.Outcome State Fault Refusal :=
  match s.ev with
  | .hostRead p t n ide =>
    let word := fun (s : State) (v : Nat) => s.emit (.hostData p (.data (bytesOf v n)))
    let no := fun (s : State) => s.emit (.hostData p .unsupported)
    .next (match t with
      | .pf0 off => (match s.pf0Read off with | some v => word s v | none => no s)
      | .qtail q => (if s.takesHost p ide then word s (match s.part? p with | none => 0 | some x => x.qtail q) else no s)
      | .lsem i =>
        if s.takesHost p ide then
          word s (match s.part? p with
            | none => 0
            | some x =>
              let m := Tab.get ⟨0, false, false⟩ x.lsems (i % 256)
              m.val.toNat + fieldAt 16 (bitN m.err) + fieldAt 17 (bitN m.ovf))
        else no s
      | .aperture off =>
        if s.takesHost p ide then
          match (s.landHostRows p).hostLoad p (n + 1) off.toNat n with
          | (s, a) => s.emit (.hostData p a)
        else no s)
  | _ => .next s

/-! ## TDISP (13 R318) -/

/-- The dispatched entry of a partition that waits for its placement ends ABORTED. -/
def State.abortSelected (s : State) (p : Nat) : State :=
  match (s.part? p).bind (·.selected) with
  | none => s
  | some e => (s.updPart p fun x => { x with selected := none }).completeUnrun p e.1 0x25

/-- TDI_ERROR: every launch of the partition ends ABORTED, and domains 1 to 7 are erased. The erasure is part of this event, and the launches complete after it
(13 R318 gives no order: DESIGN CHOICE, log entry 114). -/
def execTdiError (s : State) : Host.Outcome State Fault Refusal :=
  match s.ev with
  | .tdiError p =>
    .next (if (s.part? p).isNone then s
      else
        let s := s.updPart p fun q => { q with tdist := 3 }
        let s := (s.forEach (s.launchesOf p) State.abortLaunch).abortSelected p
        s.forEach [1, 2, 3, 4, 5, 6, 7] fun s e => s.eraseDomain p e)
  | _ => .next s

/-- TDISP_REQUEST: CONFIG_UNLOCKED to CONFIG_LOCKED, CONFIG_LOCKED to RUN, every state to CONFIG_UNLOCKED; others are refused. -/
def execTdispRequest (s : State) : Host.Outcome State Fault Refusal :=
  match s.ev with
  | .tdispRequest p st =>
    .next (match s.part? p with
      | none => s.emit (.mgmt false)
      | some q =>
        if st = 0 || (st = 1 && q.tdist = 0) || (st = 2 && q.tdist = 1) then (s.updPart p fun q => { q with tdist := st }).emit (.mgmt true)
        else s.emit (.mgmt false))
  | _ => .next s

end Sys2Proof.Machine
end

