-- ==== Sys2Proof/Machine/Vector.lean ====
section
/-! DEFINITION. The F slot but for its memory instructions (19 R517 to R549): lanes, elements, guards per lane, and one meaning per instruction. -/

namespace Sys2Proof.Machine

/-- A lane: its 32 bits and its poison. -/
abbrev Lane := PWord

/-- Lane i of a v register. -/
def VV.lane (v : VV) (i : Nat) : Lane := ⟨v.v.extractLsb' (32 * i) 32, v.p.getLsbD i⟩
/-- The 32 lanes of a v register. -/
def VV.lanes (v : VV) : List Lane := (List.range 32).map v.lane
/-- A v register from its lanes. -/
def vvOf (ls : List Lane) : VV :=
  ⟨BitVec.ofNat 1024 (ls.foldr (fun l n => l.w.toNat + 2 ^ 32 * n) 0), BitVec.ofNat 32 (ls.foldr (fun l n => bitN l.p + 2 * n) 0)⟩

/-- The number of elements of a v register. -/
def FType.count : FType → Nat
  | .f32 => 32
  | .bf16 => 64

/-- The lane that holds an element. -/
def FType.laneOf (t : FType) (k : Nat) : Nat :=
  match t with
  | .f32 => k
  | .bf16 => k / 2

/-- The code of element k (19 R517). -/
def VV.elem (v : VV) (t : FType) (k : Nat) : Nat :=
  match t with
  | .f32 => bitsOf v.v (32 * k) 32
  | .bf16 => bitsOf v.v (16 * k) 16

/-- The poison of the lane of element k. -/
def VV.elemPsn (v : VV) (t : FType) (k : Nat) : Bool := v.p.getLsbD (FType.laneOf t k)

/-- A lane's word from the codes of its elements. -/
def laneWord (t : FType) (code : Nat → Nat) (i : Nat) : Word32 :=
  match t with
  | .f32 => BitVec.ofNat 32 (code i)
  | .bf16 => BitVec.ofNat 32 (code (2 * i) % 65536 + 65536 * (code (2 * i + 1) % 65536))

/-- The elements of a lane. -/
def laneElems (t : FType) (i : Nat) : List Nat :=
  match t with
  | .f32 => [i]
  | .bf16 => [2 * i, 2 * i + 1]

/-- The 32 lanes of a result, by the code and the poison of each element. -/
def elemLanes (t : FType) (code : Nat → Nat) (psn : Nat → Bool) : List Lane :=
  (List.range 32).map fun i => ⟨laneWord t code i, (laneElems t i).any psn⟩

/-- A result under the per-lane guard: a lane that fails keeps its old bits and its poison (03 R52, 19 R517). -/
def guardLanes (g : Guard) (r : Regs) (old : VV) (new : List Lane) : VV :=
  let m := Guard.lanes g r
  let gp := Guard.psn g .pv r
  vvOf ((new.zipIdx).map fun x => if m.getLsbD x.2 then { x.1 with p := x.1.p || gp } else old.lane x.2)

/-- A result in lanes of a v register. -/
def State.writeV (s : State) (d : Reg5) (v : VV) (lat : Nat) (lanes : Word32) : State := s.updIssuer fun x => x.putV s.cycle d.toNat v lat lanes

/-- An F-slot operation that writes the lanes of register D whose guard passes. -/
def vResult (s : State) (g : Guard) (d : Reg5) (lat : Nat) (new : List Lane) : Host.Outcome State Fault Refusal :=
  slotOp s fun _ _ _ => s.writeV d (guardLanes g s.bun.old (s.bun.old.getV d.toNat) new) lat (Guard.lanes g s.bun.old)

/-- The element-wise result of values. -/
def mapElems (r : Regs) (t : FType) (srcs : List Reg5) (f : List Nat → Nat) : List Lane :=
  elemLanes t (fun k => f (srcs.map fun a => (r.getV a.toNat).elem t k)) fun k => srcs.any fun a => (r.getV a.toNat).elemPsn t k

/-- The one rounding of an F-slot operation (05 R98). -/
def FType.rnd (t : FType) (x : Val) : Nat := (FType.fmt t).convert .rne false x
/-- The value of an element's code. -/
def FType.val (t : FType) (c : Nat) : Val := (FType.fmt t).decode c

/-- An operation on two elements. -/
def v2Op (s : State) (o : OpV2) (lat : Nat) (f : Val → Val → Val) : Host.Outcome State Fault Refusal :=
  vResult s o.g o.d lat (mapElems s.bun.old o.ft [o.a, o.b] fun cs =>
    FType.rnd o.ft (f (FType.val o.ft (cs.getD 0 0)) (FType.val o.ft (cs.getD 1 0))))

/-- 2^n times a value, n from a conversion to .i32; beyond ±1000 every finite result is the same (19 R521). -/
def ldexpVal (a b : Val) : Val :=
  if b.isNan then .nan else a.scale (Max.max (-1000) (Min.min 1000 (b.toRange .rtz (-(2 ^ 31 : Int)) (2 ^ 31 - 1))))

/-- VADD (19 R521): Vector floating add, rounded once. -/
def execVadd (o : OpV2) (s : State) : Host.Outcome State Fault Refusal := v2Op s o 4 Val.add
/-- VSUB (19 R521): Vector floating subtract. -/
def execVsub (o : OpV2) (s : State) : Host.Outcome State Fault Refusal := v2Op s o 4 fun a b => a.add b.neg
/-- VMUL (19 R521): Vector floating multiply. -/
def execVmul (o : OpV2) (s : State) : Host.Outcome State Fault Refusal := v2Op s o 4 Val.mul
/-- VMAX (19 R521): Vector floating maximum under R104. -/
def execVmax (o : OpV2) (s : State) : Host.Outcome State Fault Refusal := v2Op s o 2 Val.max
/-- VMIN (19 R521): Vector floating minimum under R104. -/
def execVmin (o : OpV2) (s : State) : Host.Outcome State Fault Refusal := v2Op s o 2 Val.min
/-- VLDEXP (19 R521): Scales each element by a power of two. -/
def execVldexp (o : OpV2) (s : State) : Host.Outcome State Fault Refusal := v2Op s o 4 ldexpVal

/-- An operation on three elements. -/
def v3Op (s : State) (o : OpV3) (f : Val → Val → Val → Val) : Host.Outcome State Fault Refusal :=
  vResult s o.g o.d 4 (mapElems s.bun.old o.ft [o.a, o.b, o.c] fun cs =>
    FType.rnd o.ft (f (FType.val o.ft (cs.getD 0 0)) (FType.val o.ft (cs.getD 1 0)) (FType.val o.ft (cs.getD 2 0))))

/-- VFMA (19 R521): Vector fused multiply-add. -/
def execVfma (o : OpV3) (s : State) : Host.Outcome State Fault Refusal := v3Op s o fun a b c => (a.mul b).add c
/-- VFMS (19 R521): Vector fused multiply-subtract. -/
def execVfms (o : OpV3) (s : State) : Host.Outcome State Fault Refusal := v3Op s o fun a b c => (a.mul b).add c.neg

/-- An operation on the code of one element. -/
def v1Op (s : State) (o : OpV1) (lat : Nat) (f : Nat → Nat) : Host.Outcome State Fault Refusal :=
  vResult s o.g o.d lat (mapElems s.bun.old o.ft [o.a] fun cs => f (cs.getD 0 0))

/-- A sign changed; a NaN gives the canonical NaN (05 R97). -/
def signOp (t : FType) (f : Nat → Nat → Nat) (c : Nat) : Nat :=
  if (FType.val t c).isNan then (FType.fmt t).nanCode else f c (2 ^ ((FType.fmt t).eb + (FType.fmt t).mb))

/-- VABS (19 R521): Clears the sign bit of each element. -/
def execVabs (o : OpV1) (s : State) : Host.Outcome State Fault Refusal := v1Op s o 2 (signOp o.ft fun c top => c % top)
/-- VNEG (19 R521): Inverts the sign bit of each element. -/
def execVneg (o : OpV1) (s : State) : Host.Outcome State Fault Refusal := v1Op s o 2 (signOp o.ft fun c top => (c + top) % (2 * top))

/-- One of the four functions on an element: BF16 is widened, computed and rounded once (05 R114). -/
def funcElem (t : FType) (f : Word32 → Word32) (c : Nat) : Nat :=
  match t with
  | .f32 => (f (BitVec.ofNat 32 c)).toNat
  | .bf16 => rne16 (f (widen c))

/-- VEXP2 (05 R115): Computes 2^x by the defined algorithm. -/
def execVexp2 (o : OpV1) (s : State) : Host.Outcome State Fault Refusal := v1Op s o 16 (funcElem o.ft exp2)
/-- VLOG2 (05 R116): Computes log2 x by the defined algorithm. -/
def execVlog2 (o : OpV1) (s : State) : Host.Outcome State Fault Refusal := v1Op s o 16 (funcElem o.ft log2)
/-- VRCP (05 R117): Computes 1/x by the defined algorithm. -/
def execVrcp (o : OpV1) (s : State) : Host.Outcome State Fault Refusal := v1Op s o 16 (funcElem o.ft rcp)
/-- VRSQ (05 R118): Computes 1/√x by the defined algorithm. -/
def execVrsq (o : OpV1) (s : State) : Host.Outcome State Fault Refusal := v1Op s o 16 (funcElem o.ft rsq)

/-- A value rounded to an integral one, the sign kept (19 R536). -/
def integral (rm : RMode) (x : Val) : Val :=
  match x with
  | .nan => .nan
  | .inf s => .inf s
  | .fin s _ _ => .fin s ((x.round rm).getD 0).natAbs 0

/-- VRND. -/
def vrndOp (s : State) (g : Guard) (d a : Reg5) (t : FType) (rm : RMode) : Host.Outcome State Fault Refusal :=
  vResult s g d 4 (mapElems s.bun.old t [a] fun cs => FType.rnd t (integral rm (FType.val t (cs.getD 0 0))))

/-- VRND (19 R536): Rounds each element to an integral value, under RNE in this form. -/
def execVrnd (o : OpVS) (s : State) : Host.Outcome State Fault Refusal := vrndOp s o.g o.d o.a o.ft .rne
/-- VRND_64 (19 R536): VRND with its rounding mode in the extension word. -/
def execVrnd64 (o : OpVrnd64) (s : State) : Host.Outcome State Fault Refusal := vrndOp s o.g o.d o.a o.ft (rmodeOf o.rm.toNat)

/-- The range of an integer type. -/
def IType.range (t : IType) : Int × Int :=
  if IType.signed t then (-(2 ^ (IType.width t - 1) : Nat), (2 ^ (IType.width t - 1) : Nat) - 1) else (0, (2 ^ IType.width t : Nat) - 1)

/-- The value of a conversion to an element type (05 R100, R101): rounding mode and SAT from CC. -/
def convertVal (tt : EType) (cc : BitVec 3) (x : Val) : Val :=
  let rm := rmodeOf (bitsOf cc 0 2)
  match tt, EType.fmt tt with
  | .int t, _ => Val.ofInt (x.toRange rm (IType.range t).1 (IType.range t).2)
  | _, some f => f.decode (f.convert rm (cc.getLsbD 2) x)
  | _, none => x

/-- VCVT (19 R536): the value after the conversion, widened exactly. -/
def execVcvt (o : OpVcvt) (s : State) : Host.Outcome State Fault Refusal :=
  vResult s o.g o.d 4 (mapElems s.bun.old o.ft [o.a] fun cs => FType.rnd o.ft (convertVal o.tt o.cc (FType.val o.ft (cs.getD 0 0))))

/-- VPACK (19 R536). -/
def vpackOp (s : State) (g : Guard) (d a b : Reg5) (cc : BitVec 3) : Host.Outcome State Fault Refusal :=
  let src := fun (k : Nat) => if k < 32 then (s.bun.old.getV a.toNat).lane k else (s.bun.old.getV b.toNat).lane (k - 32)
  vResult s g d 4 (elemLanes .bf16
    (fun k => bf16.convert (rmodeOf (bitsOf cc 0 2)) (cc.getLsbD 2) (f32 (src k).w)) fun k => (src k).p)

/-- VPACK (19 R536): Packs two FP32 registers into BF16 elements. -/
def execVpack (o : OpVpack) (s : State) : Host.Outcome State Fault Refusal := vpackOp s o.g o.d o.a o.b 0
/-- VPACK_64 (19 R536): VPACK with a conversion control in the extension word. -/
def execVpack64 (o : OpVpack64) (s : State) : Host.Outcome State Fault Refusal := vpackOp s o.g o.d o.a o.b o.cc

/-- VUNPK (19 R536). -/
def execVunpk (o : OpVunpk) (s : State) : Host.Outcome State Fault Refusal :=
  let v := s.bun.old.getV o.a.toNat
  vResult s o.g o.d 4 (elemLanes .f32 (fun i => FType.rnd .f32 (FType.val .bf16 (v.elem .bf16 (32 * bitN o.h + i))))
    fun i => v.elemPsn .bf16 (32 * bitN o.h + i))

/-- VBCAST (19 R525). -/
def vbcastOp (s : State) (g : Guard) (d a : Reg5) (t : FType) (idx : Nat) : Host.Outcome State Fault Refusal :=
  let v := s.bun.old.getV a.toNat
  vResult s g d 2 (elemLanes t (fun _ => v.elem t idx) fun _ => v.elemPsn t idx)

/-- VBCAST (19 R525): Broadcasts element 0 to every element. -/
def execVbcast (o : OpVS) (s : State) : Host.Outcome State Fault Refusal := vbcastOp s o.g o.d o.a o.ft 0
/-- VBCAST_64 (19 R525): Broadcasts the element named by IDX in the extension word. -/
def execVbcast64 (o : OpVbcast64) (s : State) : Host.Outcome State Fault Refusal := vbcastOp s o.g o.d o.a o.ft o.idx.toNat

/-- VIOTA (19 R525). -/
def execViota (o : OpViota) (s : State) : Host.Outcome State Fault Refusal :=
  vResult s o.g o.d 2 (elemLanes o.ft (fun k => FType.rnd o.ft (Val.ofInt k)) fun _ => false)

/-- VMOV (19 R525). -/
def execVmov (o : OpVmov) (s : State) : Host.Outcome State Fault Refusal := vResult s o.g o.d 2 (s.bun.old.getV o.a.toNat).lanes

/-- The element that an index value selects. -/
def permIndex (t : FType) (c : Nat) : Option Nat :=
  let m := (FType.val t c).toRange .rtz (-(2 ^ 31 : Int)) (2 ^ 31 - 1)
  if 0 ≤ m && m < FType.count t then some m.toNat else none

/-- VPERM (19 R525). -/
def execVperm (o : OpV2) (s : State) : Host.Outcome State Fault Refusal :=
  let a := s.bun.old.getV o.a.toNat
  let b := s.bun.old.getV o.b.toNat
  vResult s o.g o.d 2 (elemLanes o.ft
    (fun k => match permIndex o.ft (b.elem o.ft k) with | some m => a.elem o.ft m | none => 0)
    fun k => b.elemPsn o.ft k || (match permIndex o.ft (b.elem o.ft k) with | some m => a.elemPsn o.ft m | none => false))

/-- VSEL (19 R549): lanes move as bits. -/
def execVsel (o : OpVsel) (s : State) : Host.Outcome State Fault Refusal :=
  let r := s.bun.old
  let p := r.getPv o.p.toNat
  vResult s o.g o.d 2 ((List.range 32).map fun i =>
    let l := if p.v.getLsbD i then (r.getV o.a.toNat).lane i else (r.getV o.b.toNat).lane i
    { l with p := l.p || p.p })

/-- An F-slot test that writes a pv predicate: bit j tests an element, and only the bits that the guard passes poison it (19 R528). -/
def testOp (s : State) (g : Guard) (d : Reg5) (t : FType) (h : Bool) (srcs : List Reg5) (f : List Val → Bool) : Host.Outcome State Fault Refusal :=
  let r := s.bun.old
  let el := fun (j : Nat) => match t with | .f32 => j | .bf16 => 2 * j + bitN h
  let m := Guard.lanes g r
  let bits := (List.range 32).foldr (fun j n => bitN (f (srcs.map fun a => FType.val t ((r.getV a.toNat).elem t (el j)))) + 2 * n) 0
  pvResult s g d 2 ⟨BitVec.ofNat 32 bits, (List.range 32).any fun j => m.getLsbD j && srcs.any fun a => (r.getV a.toNat).p.getLsbD j⟩

/-- The conditions of VCMP (05 R103, 19 R527). -/
def VCond.holds (c : VCond) (a b : Val) : Bool :=
  match c with
  | .eq => a.eq b
  | .ne => !a.eq b
  | .lt => a.lt b
  | .le => a.lt b || a.eq b
  | .gt => b.lt a
  | .ge => b.lt a || a.eq b
  | .un => a.isNan || b.isNan

/-- VCMP (19 R528): Vector comparison into a pv predicate. -/
def execVcmp (o : OpVcmp) (s : State) : Host.Outcome State Fault Refusal :=
  testOp s o.g o.d o.ft o.h [o.a, o.b] fun vs => VCond.holds o.cc (vs.getD 0 .nan) (vs.getD 1 .nan)

/-- The class of a value, in the bit order of MASK (19 R527). -/
def classOf (t : FType) (x : Val) : Nat :=
  match x with
  | .nan => 8
  | .inf s => if s then 0 else 7
  | .fin s m _ =>
    if m = 0 then (if s then 3 else 4)
    else if m < 2 ^ (FType.fmt t).mb then (if s then 2 else 5)
    else (if s then 1 else 6)

/-- VCLASS (19 R528): Tests each element's class against a mask into a pv predicate. -/
def execVclass (o : OpVclass) (s : State) : Host.Outcome State Fault Refusal :=
  testOp s o.g o.d o.ft o.h [o.a] fun vs => o.mask.getLsbD (classOf o.ft (vs.getD 0 .nan))

/-- The partner of an element in VCSWAP, and whether the pair swaps (19 R531). -/
def swapPair (t : FType) (k : VV) (logd logb : Nat) (desc : Bool) (e : Nat) : Nat × Bool :=
  let low := e / 2 ^ logd % 2 = 0
  let i := if low then e else e - 2 ^ logd
  let p := i + 2 ^ logd
  let d := if logb = 0 then desc else desc != decide (i / 2 ^ logb % 2 = 1)
  let ki := totalKey (FType.fmt t) (k.elem t i)
  let kp := totalKey (FType.fmt t) (k.elem t p)
  (if low then p else i, if d then decide (ki < kp) else decide (kp < ki))

/-- VCSWAP (19 R531). -/
def execVcswap (o : OpVcswap) (s : State) : Host.Outcome State Fault Refusal :=
  let r := s.bun.old
  let d := r.getV o.a.toNat
  let k := if o.fol then r.getV o.b.toNat else d
  let sw := swapPair o.ft k o.logd.toNat o.logb.toNat o.desc
  let from' := fun (e : Nat) => if (sw e).2 then (sw e).1 else e
  vResult s o.g o.d 2 (elemLanes o.ft (fun e => d.elem o.ft (from' e))
    fun e => d.elemPsn o.ft (from' e) || k.elemPsn o.ft e || k.elemPsn o.ft (sw e).1)

/-- The operation of a reduction on FP32 words. -/
def RedOp.fn : RedOp → Word32 → Word32 → Word32
  | .add => addW
  | .max => maxF
  | .min => minF
/-- Its identity (05 R106). -/
def RedOp.unit : RedOp → Word32
  | .add => 0x80000000
  | .max => 0xFF800000
  | .min => 0x7F800000

/-- The pairwise tree (05 R106). -/
def pairs (f : Word32 → Word32 → Word32) : List Word32 → List Word32
  | a :: b :: l => f a b :: pairs f l
  | l => l
/-- The tree over 2^n leaves. -/
def tree (f : Word32 → Word32 → Word32) : Nat → List Word32 → List Word32
  | 0, l => l
  | n + 1, l => tree f n (pairs f l)

/-- One step of the prefix (05 R107). -/
def scanStep (f : Word32 → Word32 → Word32) (d : Nat) (l : List Word32) : List Word32 :=
  (l.zipIdx).map fun x => if d ≤ x.2 then f (l.getD (x.2 - d) 0) x.1 else x.1

/-- The elements of a reduction as FP32 words, those whose guard fails being the identity. -/
def redLeaves (s : State) (o : OpVred) : List Word32 :=
  let r := s.bun.old
  let m := Guard.lanes o.g r
  (List.range (FType.count o.ft)).map fun k =>
    if m.getLsbD (FType.laneOf o.ft k) then
      (match o.ft with | .f32 => BitVec.ofNat 32 ((r.getV o.a.toNat).elem .f32 k) | .bf16 => widen ((r.getV o.a.toNat).elem .bf16 k))
    else RedOp.unit o.op

/-- The code of an element of a reduction's result. -/
def redCode (t : FType) (w : Word32) : Nat :=
  match t with
  | .f32 => w.toNat
  | .bf16 => rne16 w

/-- Whether an element of a reduction is poisoned: its guard passes, and its lane is. -/
def redPsn (s : State) (o : OpVred) (k : Nat) : Bool :=
  (Guard.lanes o.g s.bun.old).getLsbD (FType.laneOf o.ft k) && (s.bun.old.getV o.a.toNat).elemPsn o.ft k

/-- VRED: every element of D takes the result, whatever the guard (19 R547). -/
def execVred (o : OpVred) (s : State) : Host.Outcome State Fault Refusal :=
  slotOp s fun _ _ _ =>
    let w := (tree (RedOp.fn o.op) 6 (redLeaves s o)).headD 0
    let psn := Guard.psn o.g .pv s.bun.old || (List.range (FType.count o.ft)).any (redPsn s o)
    s.writeV o.d (vvOf (elemLanes o.ft (fun _ => redCode o.ft w) fun _ => psn)) 10 (BitVec.allOnes 32)

/-- VSCAN: every element of D takes the prefix through it (19 R547). -/
def execVscan (o : OpVred) (s : State) : Host.Outcome State Fault Refusal :=
  slotOp s fun _ _ _ =>
    let ds := match o.ft with | .f32 => [1, 2, 4, 8, 16] | .bf16 => [1, 2, 4, 8, 16, 32]
    let ws := ds.foldl (fun l d => scanStep (RedOp.fn o.op) d l) (redLeaves s o)
    s.writeV o.d (vvOf (elemLanes o.ft (fun k => redCode o.ft (ws.getD k 0))
      fun k => Guard.psn o.g .pv s.bun.old || (List.range (k + 1)).any (redPsn s o))) 12 (BitVec.allOnes 32)

end Sys2Proof.Machine
end

