-- ==== Sys2Proof/Machine/VectorMem.lean ====
section
/-! DEFINITION. The memory instructions of the F slot: VLD, VST, VGATH, VSCAT (19 R539 to R545). -/

namespace Sys2Proof.Machine

/-- A vector access with its operands decoded. `vi`: the index register of a gather or scatter. -/
structure VMemOp where
  ld : Bool
  g : Guard
  d : Reg5
  a : Reg5
  fs : Bool
  t : FType
  vi : Option (BitVec 4)
  off : Word64
deriving DecidableEq, Repr

/-- VLD and VST, 32-bit form. -/
def OpVM.op (ld : Bool) (o : OpVM) : VMemOp := ⟨ld, o.g, o.d, o.a, o.fs, o.t, none, 0⟩
/-- VLD and VST, 64-bit form. -/
def OpVM64.op (ld : Bool) (o : OpVM64) : VMemOp := ⟨ld, o.g, o.d, o.a, o.fs, o.t, none, sext o.off⟩
/-- VGATH and VSCAT, 32-bit form. -/
def OpVX.op (ld : Bool) (o : OpVX) : VMemOp := ⟨ld, o.g, o.d, o.a, o.fs, .f32, some o.vi, 0⟩
/-- VGATH and VSCAT, 64-bit form. -/
def OpVX64.op (ld : Bool) (o : OpVX64) : VMemOp := ⟨ld, o.g, o.d, o.a, o.fs, .f32, some o.vi, sext o.off⟩

/-- b of 19 R541. -/
def VMemOp.base (o : VMemOp) (r : Regs) : Word64 := (r.getXY o.fs o.a.toNat).v + o.off

/-- m_i of 19 R541. -/
def laneIndex (u : VV) (i : Nat) : Int := (FType.val .f32 (u.elem .f32 i)).toRange .rtz (-(2 ^ 31 : Int)) (2 ^ 31 - 1)

/-- The address of lane i: b is 64 bits, the sum is not cut. One below 0 stands as its 64-bit two's complement, above every address (log entry 36). -/
def VMemOp.addr (o : VMemOp) (r : Regs) (i : Nat) : Nat :=
  let b := (o.base r).toNat
  match o.vi with
  | none => b + 4 * i
  | some v =>
    let a : Int := b + 4 * laneIndex (r.getV v.toNat) i
    if a < 0 then (BitVec.ofInt 64 a).toNat else a.toNat

/-- The lanes whose guard passes, in ascending order. -/
def VMemOp.active (o : VMemOp) (r : Regs) : List Nat := (List.range 32).filter fun i => (Guard.lanes o.g r).getLsbD i

/-- One access of a lane: `n` bytes at `at'`, held at byte `off` of the lane. Each piece is a single-copy-atomic element (11 R267). -/
structure Piece where
  lane : Nat
  at' : Nat
  n : Nat
  off : Nat
deriving DecidableEq, Repr

/-- The pieces of a lane: its word, or, for .bf16 at an address that is no multiple of 4, its halves of two words. -/
def VMemOp.pieces (o : VMemOp) (r : Regs) (i : Nat) : List Piece :=
  let a := o.addr r i
  if a % 4 = 0 || o.t == .f32 then [⟨i, a, 4, 0⟩] else [⟨i, a, 2, 0⟩, ⟨i, a + 2, 2, 2⟩]

/-- Whether a piece is the first of its store to write its word, which takes the poison of its lanes alone (19 R542); the half that
follows the lane before in one word is not. -/
def VMemOp.first (o : VMemOp) (r : Regs) (p : Piece) : Bool := p.off ≠ 0 || p.lane = 0 || !(Guard.lanes o.g r).getLsbD (p.lane - 1)

/-- A piece put among others in ascending order of addresses. -/
def insPiece (p : Piece) : List Piece → List Piece
  | [] => [p]
  | q :: l => if p.at' < q.at' then p :: q :: l else q :: insPiece p l

/-- Pieces in ascending order of addresses. -/
def sortPieces (l : List Piece) : List Piece := l.foldl (fun acc p => insPiece p acc) []

/-- The smallest of some numbers. -/
def leastOf : List Nat → Option Nat
  | [] => none
  | a :: l => some (l.foldl min a)

/-- The checks of 19 R543 before translation: poison, the address space (a lane that reaches 2^52), alignment. -/
def State.vCheck (s : State) (o : VMemOp) (r : Regs) : Try State :=
  let act := o.active r
  let addrs := act.map (o.addr r)
  let align := match o.t with | .f32 => 4 | .bf16 => 2
  let badLane := match o.vi with
    | none => none
    | some v => act.find? fun i => (r.getV v.toNat).p.getLsbD i
  if (r.getXY o.fs o.a.toNat).p then .kill s 0 (o.base r).toNat
  else
    match badLane with
    | some i => .kill s 0 (o.addr r i)
    | none =>
      match leastOf (addrs.filter fun a => 2 ^ 52 < a + 4) with
      | some a => .trap s 0x07 (BitVec.ofNat 64 (a % 2 ^ 52 + 2 ^ 52 * bitN (!o.ld)))
      | none =>
        match leastOf (addrs.filter fun a => a % align ≠ 0) with
        | some a => .trap s 0x05 (BitVec.ofNat 64 a)
        | none => .ok s s

/-- Every piece is translated, in ascending address, before any performs. -/
def State.vTranslate (s : State) (u : Use) : List Piece → Try State
  | [] => .ok s s
  | p :: ps =>
    match s.translate s.cur p.at' u with
    | (s, .fault cause info) => .trap s cause info
    | (s, .leaf _) => s.vTranslate u ps

/-- STASH_FULL for the pieces of an access, which are in ascending order of addresses (19 R543): the lowest one that can have no row is named. One lane's row
never makes another lane's quarter full: it can be evicted for it (10 R241). -/
def State.vFull (s : State) (u : Use) : List Piece → Try State
  | [] => .ok s s
  | p :: ps =>
    match s.translate s.cur p.at' u with
    | (s, .fault cause info) => .trap s cause info
    | (s, .leaf l) =>
      match s.ensureRow (quarterOf s.cur p.at' l.cc) (p.at' / 256) l with
      | (t, .full) => .trap t 0x0A (BitVec.ofNat 64 p.at')
      | (_, .busy) => s.vFull u ps
      | (_, .row _) => s.vFull u ps

/-- Every piece is loaded; every miss asks for its fill before the bundle blocks. `blocked`: an earlier piece blocked or stalled, so. -/
def State.vLoad (s : State) (blocked : Option Bool) : List Piece → List (Piece × Loaded) → Try (List (Piece × Loaded))
  | [], acc =>
    match blocked with
    | none => .ok s acc
    | some b => .wait { s with bun := { s.bun with status := if b then .blocked else .stalled } }
  | p :: ps, acc =>
    match s.stashLoad s.cur p.at' p.n with
    | .ok s v => s.vLoad blocked ps (acc ++ [(p, v)])
    | .trap s c i => .trap s c i
    | .wait s => s.vLoad (some (blocked.getD false || s.bun.status == .blocked)) ps acc
    | .kill s k a => .kill s k a

/-- The lanes of a load from its pieces. -/
def loadedLanes (l : List (Piece × Loaded)) : List Lane :=
  (List.range 32).map fun i =>
    let mine := l.filter fun x => x.1.lane == i
    ⟨BitVec.ofNat 32 (mine.foldl (fun n x => n + x.2.val * 2 ^ (8 * x.1.off)) 0), mine.any fun x => x.2.psn⟩

/-- The latency of a vector load (19 R518). -/
def VMemOp.latency (o : VMemOp) (l : List (Piece × Loaded)) : Nat :=
  let far := l.any fun x => decide (4 < x.2.lat)
  match o.vi with
  | none => if far then 12 else 4
  | some _ => 4 + ((l.map fun x => x.1.at' / 256).dedup).length + (if far then 8 else 0)

/-- The cycle of the last fill that a load has waited for. -/
def lastFill (l : List (Piece × Loaded)) : Option Nat :=
  l.foldl (fun (m : Option Nat) x => match m, x.2.filled with
    | none, f => f
    | some a, none => some a
    | some a, some b => some (max a b)) none

/-- The cycles until every lane is available (19 R518): VGATH counts from issue, VLD from issue or, where it has waited for fills, from the last of them. -/
def VMemOp.wait (o : VMemOp) (now : Nat) (l : List (Piece × Loaded)) : Nat :=
  loadLat (if o.vi.isNone then lastFill l else none) now (o.latency l)

/-- VLD and VGATH. -/
def vloadOp (s : State) (o : VMemOp) : Host.Outcome State Fault Refusal :=
  slotOp s fun _ _ _ =>
    let r := s.bun.old
    if (o.active r).isEmpty then s
    else
      ((s.vCheck o r).bind fun s _ =>
        let ps := sortPieces ((o.active r).flatMap (o.pieces r))
        (s.vTranslate .read ps).bind fun s _ =>
          (s.vFull .read ps).bind fun s _ =>
            match s.vLoad none ps [] with
            | .ok s l =>
              let s := s.writeV o.d (guardLanes o.g r (r.getV o.d.toNat) (loadedLanes l)) (o.wait s.cycle l)
                (Guard.lanes o.g r)
              .ok s s
            | .wait s => .wait s
            -- precise: nothing of a lane that missed is left
            | .trap _ c i => .trap s c i
            | .kill _ k a => .kill s k a : Try State).finish

/-- The pieces of a store, lane after lane, each in its row, for which a lower lane's may be evicted (10 R240, R241); `first` are those that give their word its poison anew. -/
def State.vStore (s : State) (n : Nat) (v : VV) (gp : Bool) (first : Piece → Bool) : List Piece → Try State
  | [] => .ok s s
  | p :: ps =>
    match s.stashStore s.cur n p.at' p.n ((v.lane p.lane).w.toNat / 2 ^ (8 * p.off)) ((v.lane p.lane).p || gp) (first p) with
    | .ok s _ => s.vStore n v gp first ps
    | .trap s c i => .trap s c i
    | .wait s => .wait s
    | .kill s k a => .kill s k a

/-- The pieces of a store. One whose own evictions would take more write-backs than a quarter has, while none is under way, waits for them within its
cycle (10 R242). -/
def State.vStoreAll (s : State) (n : Nat) (v : VV) (gp : Bool) (first : Piece → Bool) (ps : List Piece) : Try State :=
  let store := fun (s : State) => s.vStore n v gp first ps
  match store s with
  | .wait t =>
    if (clusterCores s.cur).any fun q => ((s.core? q).map fun k => !k.stash.wbs.isEmpty) == some true then .wait t
    else
      match store { s with bun := { s.bun with performs := true } } with
      | .ok t _ => let t := { t with bun := { t.bun with performs := s.bun.performs } }; .ok t t
      | r => r
  | r => r

/-- VST and VSCAT: a store that cannot have a row for one of its lanes performs none of them. -/
def vstoreOp (s : State) (o : VMemOp) : Host.Outcome State Fault Refusal :=
  slotOp s fun _ n _ =>
    let r := s.bun.old
    if (o.active r).isEmpty then s
    else
      ((s.vCheck o r).bind fun s _ =>
        let ps := (o.active r).flatMap (o.pieces r)
        (s.vTranslate .write (sortPieces ps)).bind fun s _ =>
          (s.vFull .write (sortPieces ps)).bind fun s _ =>
            match s.vStoreAll n (r.getV o.d.toNat) (Guard.psn o.g .pv r) (o.first r) ps with
            | .ok s' _ => .ok s' s'
            | .wait _ => .wait s.stall
            | .trap _ c i => .trap s c i
            | .kill _ k a => .kill s k a : Try State).finish

/-- VLD (19 R542): Vector load through the stash. -/
def execVld (o : OpVM) (s : State) : Host.Outcome State Fault Refusal := vloadOp s (OpVM.op true o)
/-- VLD_64 (19 R542): VLD with an OFF32 extension word. -/
def execVld64 (o : OpVM64) (s : State) : Host.Outcome State Fault Refusal := vloadOp s (OpVM64.op true o)
/-- VST (19 R542): Vector store through the stash. -/
def execVst (o : OpVM) (s : State) : Host.Outcome State Fault Refusal := vstoreOp s (OpVM.op false o)
/-- VST_64 (19 R542): VST with an OFF32 extension word. -/
def execVst64 (o : OpVM64) (s : State) : Host.Outcome State Fault Refusal := vstoreOp s (OpVM64.op false o)
/-- VGATH (19 R542): Vector gather by an index register. -/
def execVgath (o : OpVX) (s : State) : Host.Outcome State Fault Refusal := vloadOp s (OpVX.op true o)
/-- VGATH_64 (19 R542): VGATH with an OFF32 extension word. -/
def execVgath64 (o : OpVX64) (s : State) : Host.Outcome State Fault Refusal := vloadOp s (OpVX64.op true o)
/-- VSCAT (19 R542): Vector scatter by an index register. -/
def execVscat (o : OpVX) (s : State) : Host.Outcome State Fault Refusal := vstoreOp s (OpVX.op false o)
/-- VSCAT_64 (19 R542): VSCAT with an OFF32 extension word. -/
def execVscat64 (o : OpVX64) (s : State) : Host.Outcome State Fault Refusal := vstoreOp s (OpVX64.op false o)

end Sys2Proof.Machine
end

