-- ==== Sys2Proof/Machine/Dispatch.lean ====
section
/-! DEFINITION. Which meaning an instruction has: one arm per constructor of Instr. -/

namespace Sys2Proof.Machine

/-- The meaning of an instruction or of an event. -/
def exec (i : Instr) (s : State) : Host.Outcome State Fault Refusal :=
  match i with
  | .br o => Sys2Proof.Machine.execBr o s
  | .brc o => Sys2Proof.Machine.execBrc o s
  | .call o => Sys2Proof.Machine.execCall o s
  | .ret o => Sys2Proof.Machine.execRet o s
  | .loop o => Sys2Proof.Machine.execLoop o s
  | .eret o => Sys2Proof.Machine.execEret o s
  | .trap o => Sys2Proof.Machine.execTrap o s
  | .yield o => Sys2Proof.Machine.execYield o s
  | .retire o => Sys2Proof.Machine.execRetire o s
  | .halt o => Sys2Proof.Machine.execHalt o s
  | .launch o => Sys2Proof.Machine.execLaunch o s
  | .mfsr o => Sys2Proof.Machine.execMfsr o s
  | .mtsr o => Sys2Proof.Machine.execMtsr o s
  | .tlbi o => Sys2Proof.Machine.execTlbi o s
  | .fenset o => Sys2Proof.Machine.execFenset o s
  | .evac o => Sys2Proof.Machine.execEvac o s
  | .draftld o => Sys2Proof.Machine.execDraftld o s
  | .cmpC o => Sys2Proof.Machine.execCmpC o s
  | .cmpiC o => Sys2Proof.Machine.execCmpiC o s
  | .addiC o => Sys2Proof.Machine.execAddiC o s
  | .liC o => Sys2Proof.Machine.execLiC o s
  | .xmovC o => Sys2Proof.Machine.execXmovC o s
  | .pandC o => Sys2Proof.Machine.execPandC o s
  | .porC o => Sys2Proof.Machine.execPorC o s
  | .pxorC o => Sys2Proof.Machine.execPxorC o s
  | .pnotC o => Sys2Proof.Machine.execPnotC o s
  | .psetC o => Sys2Proof.Machine.execPsetC o s
  | .pmovC o => Sys2Proof.Machine.execPmovC o s
  | .add o => Sys2Proof.Machine.execAdd o s
  | .addiI o => Sys2Proof.Machine.execAddiI o s
  | .sub o => Sys2Proof.Machine.execSub o s
  | .mul o => Sys2Proof.Machine.execMul o s
  | .mulh o => Sys2Proof.Machine.execMulh o s
  | .div o => Sys2Proof.Machine.execDiv o s
  | .rem o => Sys2Proof.Machine.execRem o s
  | .and o => Sys2Proof.Machine.execAnd o s
  | .or o => Sys2Proof.Machine.execOr o s
  | .xor o => Sys2Proof.Machine.execXor o s
  | .andn o => Sys2Proof.Machine.execAndn o s
  | .shl o => Sys2Proof.Machine.execShl o s
  | .shr o => Sys2Proof.Machine.execShr o s
  | .sra o => Sys2Proof.Machine.execSra o s
  | .rotl o => Sys2Proof.Machine.execRotl o s
  | .clz o => Sys2Proof.Machine.execClz o s
  | .popc o => Sys2Proof.Machine.execPopc o s
  | .min o => Sys2Proof.Machine.execMin o s
  | .max o => Sys2Proof.Machine.execMax o s
  | .abs o => Sys2Proof.Machine.execAbs o s
  | .sel o => Sys2Proof.Machine.execSel o s
  | .cmpI o => Sys2Proof.Machine.execCmpI o s
  | .cmpiI o => Sys2Proof.Machine.execCmpiI o s
  | .liI o => Sys2Proof.Machine.execLiI o s
  | .lih o => Sys2Proof.Machine.execLih o s
  | .lea o => Sys2Proof.Machine.execLea o s
  | .bfx o => Sys2Proof.Machine.execBfx o s
  | .bfi o => Sys2Proof.Machine.execBfi o s
  | .xmovI o => Sys2Proof.Machine.execXmovI o s
  | .ld o => Sys2Proof.Machine.execLd o s
  | .st o => Sys2Proof.Machine.execSt o s
  | .lda o => Sys2Proof.Machine.execLda o s
  | .chka o => Sys2Proof.Machine.execChka o s
  | .ldacq o => Sys2Proof.Machine.execLdacq o s
  | .strel o => Sys2Proof.Machine.execStrel o s
  | .pandIF o => Sys2Proof.Machine.execPandIF o s
  | .porIF o => Sys2Proof.Machine.execPorIF o s
  | .pxorIF o => Sys2Proof.Machine.execPxorIF o s
  | .pnotIF o => Sys2Proof.Machine.execPnotIF o s
  | .psetIF o => Sys2Proof.Machine.execPsetIF o s
  | .pmovIF o => Sys2Proof.Machine.execPmovIF o s
  | .vadd o => Sys2Proof.Machine.execVadd o s
  | .vsub o => Sys2Proof.Machine.execVsub o s
  | .vmul o => Sys2Proof.Machine.execVmul o s
  | .vmax o => Sys2Proof.Machine.execVmax o s
  | .vmin o => Sys2Proof.Machine.execVmin o s
  | .vabs o => Sys2Proof.Machine.execVabs o s
  | .vneg o => Sys2Proof.Machine.execVneg o s
  | .vrnd o => Sys2Proof.Machine.execVrnd o s
  | .vldexp o => Sys2Proof.Machine.execVldexp o s
  | .vexp2 o => Sys2Proof.Machine.execVexp2 o s
  | .vlog2 o => Sys2Proof.Machine.execVlog2 o s
  | .vrcp o => Sys2Proof.Machine.execVrcp o s
  | .vrsq o => Sys2Proof.Machine.execVrsq o s
  | .vred o => Sys2Proof.Machine.execVred o s
  | .vscan o => Sys2Proof.Machine.execVscan o s
  | .vperm o => Sys2Proof.Machine.execVperm o s
  | .vbcast o => Sys2Proof.Machine.execVbcast o s
  | .viota o => Sys2Proof.Machine.execViota o s
  | .vmov o => Sys2Proof.Machine.execVmov o s
  | .vpack o => Sys2Proof.Machine.execVpack o s
  | .vunpk o => Sys2Proof.Machine.execVunpk o s
  | .vld o => Sys2Proof.Machine.execVld o s
  | .vst o => Sys2Proof.Machine.execVst o s
  | .vgath o => Sys2Proof.Machine.execVgath o s
  | .vscat o => Sys2Proof.Machine.execVscat o s
  | .mcfg o => Sys2Proof.Machine.execMcfg o s
  | .mfmt o => Sys2Proof.Machine.execMfmt o s
  | .mdrain o => Sys2Proof.Machine.execMdrain o s
  | .mma o => Sys2Proof.Machine.execMma o s
  | .mmaz o => Sys2Proof.Machine.execMmaz o s
  | .mbld o => Sys2Proof.Machine.execMbld o s
  | .mzero o => Sys2Proof.Machine.execMzero o s
  | .mzrd o => Sys2Proof.Machine.execMzrd o s
  | .mzwr o => Sys2Proof.Machine.execMzwr o s
  | .mzst o => Sys2Proof.Machine.execMzst o s
  | .mzld o => Sys2Proof.Machine.execMzld o s
  | .mtrn o => Sys2Proof.Machine.execMtrn o s
  | .mbfly o => Sys2Proof.Machine.execMbfly o s
  | .mtwid o => Sys2Proof.Machine.execMtwid o s
  | .qset o => Sys2Proof.Machine.execQset o s
  | .qld o => Sys2Proof.Machine.execQld o s
  | .qst o => Sys2Proof.Machine.execQst o s
  | .qgath o => Sys2Proof.Machine.execQgath o s
  | .qscat o => Sys2Proof.Machine.execQscat o s
  | .qcopy o => Sys2Proof.Machine.execQcopy o s
  | .qrcopy o => Sys2Proof.Machine.execQrcopy o s
  | .qccopy o => Sys2Proof.Machine.execQccopy o s
  | .gcfg o => Sys2Proof.Machine.execGcfg o s
  | .grun o => Sys2Proof.Machine.execGrun o s
  | .gstop o => Sys2Proof.Machine.execGstop o s
  | .qsave o => Sys2Proof.Machine.execQsave o s
  | .qrest o => Sys2Proof.Machine.execQrest o s
  | .spin o => Sys2Proof.Machine.execSpin o s
  | .sunpin o => Sys2Proof.Machine.execSunpin o s
  | .swb o => Sys2Proof.Machine.execSwb o s
  | .sinv o => Sys2Proof.Machine.execSinv o s
  | .semset o => Sys2Proof.Machine.execSemset o s
  | .semadd o => Sys2Proof.Machine.execSemadd o s
  | .semwait o => Sys2Proof.Machine.execSemwait o s
  | .fence o => Sys2Proof.Machine.execFence o s
  | .drain o => Sys2Proof.Machine.execDrain o s
  | .step o => Sys2Proof.Machine.execStep o s
  | .aadd o => Sys2Proof.Machine.execAadd o s
  | .aand o => Sys2Proof.Machine.execAand o s
  | .aor o => Sys2Proof.Machine.execAor o s
  | .axor o => Sys2Proof.Machine.execAxor o s
  | .amin o => Sys2Proof.Machine.execAmin o s
  | .amax o => Sys2Proof.Machine.execAmax o s
  | .aswp o => Sys2Proof.Machine.execAswp o s
  | .chsend o => Sys2Proof.Machine.execChsend o s
  | .chrecv o => Sys2Proof.Machine.execChrecv o s
  | .chstart o => Sys2Proof.Machine.execChstart o s
  | .chabort o => Sys2Proof.Machine.execChabort o s
  | .tstart o => Sys2Proof.Machine.execTstart o s
  | .rdtime o => Sys2Proof.Machine.execRdtime o s
  | .br64 o => Sys2Proof.Machine.execBr64 o s
  | .brc64 o => Sys2Proof.Machine.execBrc64 o s
  | .mwb o => Sys2Proof.Machine.execMwb o s
  | .call64 o => Sys2Proof.Machine.execCall64 o s
  | .trap64 o => Sys2Proof.Machine.execTrap64 o s
  | .cmpiC64 o => Sys2Proof.Machine.execCmpiC64 o s
  | .addiC64 o => Sys2Proof.Machine.execAddiC64 o s
  | .liC64 o => Sys2Proof.Machine.execLiC64 o s
  | .psetC64 o => Sys2Proof.Machine.execPsetC64 o s
  | .addiI64 o => Sys2Proof.Machine.execAddiI64 o s
  | .sel64 o => Sys2Proof.Machine.execSel64 o s
  | .cmpiI64 o => Sys2Proof.Machine.execCmpiI64 o s
  | .liI64 o => Sys2Proof.Machine.execLiI64 o s
  | .lih64 o => Sys2Proof.Machine.execLih64 o s
  | .lea64 o => Sys2Proof.Machine.execLea64 o s
  | .bfxImm o => Sys2Proof.Machine.execBfxImm o s
  | .bfiImm o => Sys2Proof.Machine.execBfiImm o s
  | .ld64 o => Sys2Proof.Machine.execLd64 o s
  | .st64 o => Sys2Proof.Machine.execSt64 o s
  | .lda64 o => Sys2Proof.Machine.execLda64 o s
  | .chka64 o => Sys2Proof.Machine.execChka64 o s
  | .ldacq64 o => Sys2Proof.Machine.execLdacq64 o s
  | .strel64 o => Sys2Proof.Machine.execStrel64 o s
  | .psetIF64 o => Sys2Proof.Machine.execPsetIF64 o s
  | .vfma o => Sys2Proof.Machine.execVfma o s
  | .vfms o => Sys2Proof.Machine.execVfms o s
  | .vcmp o => Sys2Proof.Machine.execVcmp o s
  | .vsel o => Sys2Proof.Machine.execVsel o s
  | .vcvt o => Sys2Proof.Machine.execVcvt o s
  | .vrnd64 o => Sys2Proof.Machine.execVrnd64 o s
  | .vclass o => Sys2Proof.Machine.execVclass o s
  | .vcswap o => Sys2Proof.Machine.execVcswap o s
  | .vbcast64 o => Sys2Proof.Machine.execVbcast64 o s
  | .vpack64 o => Sys2Proof.Machine.execVpack64 o s
  | .vld64 o => Sys2Proof.Machine.execVld64 o s
  | .vst64 o => Sys2Proof.Machine.execVst64 o s
  | .vgath64 o => Sys2Proof.Machine.execVgath64 o s
  | .vscat64 o => Sys2Proof.Machine.execVscat64 o s
  | .mfmt64 o w => Sys2Proof.Machine.execMfmt64 o w s
  | .mdrain64 o w => Sys2Proof.Machine.execMdrain64 o w s
  | .mma64 o w => Sys2Proof.Machine.execMma64 o w s
  | .mmaz64 o w => Sys2Proof.Machine.execMmaz64 o w s
  | .mbld64 o w => Sys2Proof.Machine.execMbld64 o w s
  | .mzero64 o w => Sys2Proof.Machine.execMzero64 o w s
  | .mzrd64 o w => Sys2Proof.Machine.execMzrd64 o w s
  | .mzwr64 o w => Sys2Proof.Machine.execMzwr64 o w s
  | .mzst64 o w => Sys2Proof.Machine.execMzst64 o w s
  | .mzld64 o w => Sys2Proof.Machine.execMzld64 o w s
  | .mtrn64 o w => Sys2Proof.Machine.execMtrn64 o w s
  | .mbfly64 o w => Sys2Proof.Machine.execMbfly64 o w s
  | .mtwid64 o w => Sys2Proof.Machine.execMtwid64 o w s
  | .qset64 o w => Sys2Proof.Machine.execQset64 o w s
  | .qld64 o w => Sys2Proof.Machine.execQld64 o w s
  | .qst64 o w => Sys2Proof.Machine.execQst64 o w s
  | .qgath64 o w => Sys2Proof.Machine.execQgath64 o w s
  | .qscat64 o w => Sys2Proof.Machine.execQscat64 o w s
  | .qcopy64 o w => Sys2Proof.Machine.execQcopy64 o w s
  | .qrcopy64 o w => Sys2Proof.Machine.execQrcopy64 o w s
  | .qccopy64 o w => Sys2Proof.Machine.execQccopy64 o w s
  | .gcfg64 o w => Sys2Proof.Machine.execGcfg64 o w s
  | .grun64 o w => Sys2Proof.Machine.execGrun64 o w s
  | .gstop64 o w => Sys2Proof.Machine.execGstop64 o w s
  | .qsave64 o w => Sys2Proof.Machine.execQsave64 o w s
  | .qrest64 o w => Sys2Proof.Machine.execQrest64 o w s
  | .spin64 o w => Sys2Proof.Machine.execSpin64 o w s
  | .sunpin64 o w => Sys2Proof.Machine.execSunpin64 o w s
  | .swb64 o w => Sys2Proof.Machine.execSwb64 o w s
  | .sinv64 o w => Sys2Proof.Machine.execSinv64 o w s
  | .semset64 o => Sys2Proof.Machine.execSemset64 o s
  | .semadd64 o w => Sys2Proof.Machine.execSemadd64 o w s
  | .semwait64 o => Sys2Proof.Machine.execSemwait64 o s
  | .drain64 o w => Sys2Proof.Machine.execDrain64 o w s
  | .step64 o w => Sys2Proof.Machine.execStep64 o w s
  | .aadd64 o => Sys2Proof.Machine.execAadd64 o s
  | .aand64 o => Sys2Proof.Machine.execAand64 o s
  | .aor64 o => Sys2Proof.Machine.execAor64 o s
  | .axor64 o => Sys2Proof.Machine.execAxor64 o s
  | .amin64 o => Sys2Proof.Machine.execAmin64 o s
  | .amax64 o => Sys2Proof.Machine.execAmax64 o s
  | .aswp64 o => Sys2Proof.Machine.execAswp64 o s
  | .acas o => Sys2Proof.Machine.execAcas o s
  | .chsend64 o w => Sys2Proof.Machine.execChsend64 o w s
  | .chrecv64 o w => Sys2Proof.Machine.execChrecv64 o w s
  | .chstart64 o w => Sys2Proof.Machine.execChstart64 o w s
  | .chabort64 o w => Sys2Proof.Machine.execChabort64 o w s
  | .qtailWrite => Sys2Proof.Machine.execQtailWrite s
  | .residencyQuantumBoundary => Sys2Proof.Machine.execResidencyQuantumBoundary s
  | .dispatch => Sys2Proof.Machine.execDispatch s
  | .launchPlacement => Sys2Proof.Machine.execLaunchPlacement s
  | .launchSemaphoreWrite => Sys2Proof.Machine.execLaunchSemaphoreWrite s
  | .launchCompletion => Sys2Proof.Machine.execLaunchCompletion s
  | .clusterPowerGate => Sys2Proof.Machine.execClusterPowerGate s
  | .issueCounterYield => Sys2Proof.Machine.execIssueCounterYield s
  | .eventTaken => Sys2Proof.Machine.execEventTaken s
  | .noticeTaken => Sys2Proof.Machine.execNoticeTaken s
  | .stashFillArrival => Sys2Proof.Machine.execStashFillArrival s
  | .watchdog => Sys2Proof.Machine.execWatchdog s
  | .timeGateFire => Sys2Proof.Machine.execTimeGateFire s
  | .prectlGo => Sys2Proof.Machine.execPrectlGo s
  | .preemptLimitExpiry => Sys2Proof.Machine.execPreemptLimitExpiry s
  | .matrixQueueStart => Sys2Proof.Machine.execMatrixQueueStart s
  | .mmaCompletion => Sys2Proof.Machine.execMmaCompletion s
  | .mbldCompletion => Sys2Proof.Machine.execMbldCompletion s
  | .mzstCompletion => Sys2Proof.Machine.execMzstCompletion s
  | .mzldCompletion => Sys2Proof.Machine.execMzldCompletion s
  | .mtrnCompletion => Sys2Proof.Machine.execMtrnCompletion s
  | .mbflyCompletion => Sys2Proof.Machine.execMbflyCompletion s
  | .mtwidCompletion => Sys2Proof.Machine.execMtwidCompletion s
  | .mfmtCompletion => Sys2Proof.Machine.execMfmtCompletion s
  | .mdrainStart => Sys2Proof.Machine.execMdrainStart s
  | .mzrdCompletion => Sys2Proof.Machine.execMzrdCompletion s
  | .mzwrCompletion => Sys2Proof.Machine.execMzwrCompletion s
  | .mzeroCompletion => Sys2Proof.Machine.execMzeroCompletion s
  | .mcfgClear => Sys2Proof.Machine.execMcfgClear s
  | .streamCommandStart => Sys2Proof.Machine.execStreamCommandStart s
  | .streamElementFault => Sys2Proof.Machine.execStreamElementFault s
  | .streamRetire => Sys2Proof.Machine.execStreamRetire s
  | .qsetCompletion => Sys2Proof.Machine.execQsetCompletion s
  | .gcfgLoadEnd => Sys2Proof.Machine.execGcfgLoadEnd s
  | .grunCompletion => Sys2Proof.Machine.execGrunCompletion s
  | .gstopBoundary => Sys2Proof.Machine.execGstopBoundary s
  | .fabricInvocationStart => Sys2Proof.Machine.execFabricInvocationStart s
  | .fabricInvocationEnd => Sys2Proof.Machine.execFabricInvocationEnd s
  | .packetArrival => Sys2Proof.Machine.execPacketArrival s
  | .flowRowSend => Sys2Proof.Machine.execFlowRowSend s
  | .rowLanding => Sys2Proof.Machine.execRowLanding s
  | .landingAcknowledgement => Sys2Proof.Machine.execLandingAcknowledgement s
  | .lossAcknowledgement => Sys2Proof.Machine.execLossAcknowledgement s
  | .parkedRowRetry => Sys2Proof.Machine.execParkedRowRetry s
  | .flowRowLost => Sys2Proof.Machine.execFlowRowLost s
  | .creditTokenArrival => Sys2Proof.Machine.execCreditTokenArrival s
  | .channelCommandStart => Sys2Proof.Machine.execChannelCommandStart s
  | .chrecvCompletion => Sys2Proof.Machine.execChrecvCompletion s
  | .ringInstanceStart => Sys2Proof.Machine.execRingInstanceStart s
  | .ringPacketArrival => Sys2Proof.Machine.execRingPacketArrival s
  | .ringInstanceCompletion => Sys2Proof.Machine.execRingInstanceCompletion s
  | .remoteTimeout => Sys2Proof.Machine.execRemoteTimeout s
  | .abortTokenArrival => Sys2Proof.Machine.execAbortTokenArrival s
  | .ringCommit => Sys2Proof.Machine.execRingCommit s
  | .ringCommitReread => Sys2Proof.Machine.execRingCommitReread s
  | .linkTimeout => Sys2Proof.Machine.execLinkTimeout s
  | .linkPacketArrival => Sys2Proof.Machine.execLinkPacketArrival s
  | .linkTraining => Sys2Proof.Machine.execLinkTraining s
  | .stepBarrierOpen => Sys2Proof.Machine.execStepBarrierOpen s
  | .drainStart => Sys2Proof.Machine.execDrainStart s
  | .semaddApply => Sys2Proof.Machine.execSemaddApply s
  | .atomicResponse => Sys2Proof.Machine.execAtomicResponse s
  | .draftldCompletion => Sys2Proof.Machine.execDraftldCompletion s
  | .tlbiCompletion => Sys2Proof.Machine.execTlbiCompletion s
  | .evacCompletion => Sys2Proof.Machine.execEvacCompletion s
  | .retireAccepted => Sys2Proof.Machine.execRetireAccepted s
  | .stashCommandCompletion => Sys2Proof.Machine.execStashCommandCompletion s
  | .copyCompletion => Sys2Proof.Machine.execCopyCompletion s
  | .qsaveCompletion => Sys2Proof.Machine.execQsaveCompletion s
  | .opreqGo => Sys2Proof.Machine.execOpreqGo s
  | .operatingPointStepEnd => Sys2Proof.Machine.execOperatingPointStepEnd s
  | .thermalThrottle => Sys2Proof.Machine.execThermalThrottle s
  | .thermalRecovery => Sys2Proof.Machine.execThermalRecovery s
  | .thermalReset => Sys2Proof.Machine.execThermalReset s
  | .moduleReset => Sys2Proof.Machine.execModuleReset s
  | .reconfigurationRequest => Sys2Proof.Machine.execReconfigurationRequest s
  | .getDigests => Sys2Proof.Machine.execGetDigests s
  | .getCertificate => Sys2Proof.Machine.execGetCertificate s
  | .challenge => Sys2Proof.Machine.execChallenge s
  | .getMeasurements => Sys2Proof.Machine.execGetMeasurements s
  | .keyExchange => Sys2Proof.Machine.execKeyExchange s
  | .finish => Sys2Proof.Machine.execFinish s
  | .keyload => Sys2Proof.Machine.execKeyload s
  | .keyclear => Sys2Proof.Machine.execKeyclear s
  | .rowSparing => Sys2Proof.Machine.execRowSparing s
  | .shadowLatchReplay => Sys2Proof.Machine.execShadowLatchReplay s
  | .hostWrite => Sys2Proof.Machine.execHostWrite s
  | .hostRead => Sys2Proof.Machine.execHostRead s
  | .tdiError => Sys2Proof.Machine.execTdiError s
  | .crctlWrite => Sys2Proof.Machine.execCrctlWrite s
  | .flogstWrite => Sys2Proof.Machine.execFlogstWrite s
  | .fqstatWrite => Sys2Proof.Machine.execFqstatWrite s
  | .ststatWrite => Sys2Proof.Machine.execStstatWrite s
  | .lpstatWrite => Sys2Proof.Machine.execLpstatWrite s
  | .notstatWrite => Sys2Proof.Machine.execNotstatWrite s
  | .silcntWrite => Sys2Proof.Machine.execSilcntWrite s
  | .fetchFault => Sys2Proof.Machine.execFetchFault s
  | .bundleWithPmZero => Sys2Proof.Machine.execBundleWithPmZero s
  | .writeBackPerformed => Sys2Proof.Machine.execWriteBackPerformed s
  | .launchAppend => Sys2Proof.Machine.execLaunchAppend s
  | .qrestCompletion => Sys2Proof.Machine.execQrestCompletion s
  | .streamDataArrival => Sys2Proof.Machine.execStreamDataArrival s
  | .storeStreamElementPerformed => Sys2Proof.Machine.execStoreStreamElementPerformed s
  | .tdispRequest => Sys2Proof.Machine.execTdispRequest s

end Sys2Proof.Machine
end

