-- ==== Sys2Proof/Machine/Issue.lean ====
section
/-! DEFINITION. The issue of a bundle: what each slot would do in the state before the bundle decides whether it traps (03 R60), blocks or stalls
(03 R58); where none does, every slot performs (03 R59). -/

namespace Sys2Proof.Machine

/-- What one slot does in a state. An encoding that fails a check of 04 R77 is ILLEGAL_OP. -/
def slotOutcome (s : State) (t : SlotWord) : Host.Outcome State Fault Refusal :=
  match t.decode with
  | .ok i => exec i s
  | .error e => .next (s.trap 0x01 (illegalInfo t.slot.index (t.w.extractLsb' 26 6).toNat (e == .field)))

/-- How the bundle stands in an outcome; none: the machine stops. -/
def outcomeStatus : Host.Outcome State Fault Refusal → Option BundleStatus
  | .next s => some s.bun.status
  | .fault _ => none
  | .refused _ => none

/-- A slot that waits. -/
def waits (b : BundleStatus) : Bool := b == .blocked || b == .stalled

/-- The slots that wait, one after another, so that each arms its wait or asks for its fill; one that blocks decides over one that stalls. -/
def waitAll (s : State) : List SlotWord → Bool → Host.Outcome State Fault Refusal
  | [], blocked => .next { s with bun := { s.bun with status := if blocked then .blocked else .stalled } }
  | t :: ts, blocked =>
    match slotOutcome { s with bun := { s.bun with status := .normal } } t with
    | .next s' => waitAll s' ts (blocked || s'.bun.status == .blocked)
    | o => o

/-- MFSR and loads go before the other slots, LDACQ, whose acquire half drops words, after the other loads; then LAUNCH, which reads memory, and
the Y slot but for its atomics; then what else stands in the C slot; then an atomic, which comes after every other slot (15 R334); last what ends or leaves
the context, which nothing of the atomic sees: ERET, YIELD, RETIRE, HALT, TRAP (03 R59, 11 R265, 15 R334, 16 R390, R404, 17 R436). -/
def slotRank (t : SlotWord) : Nat :=
  let op := (t.w.extractLsb' 26 6).toNat
  match t.slot with
  | .c =>
    if op = 0x10 then 0 else if op = 0x0C then 3
    else if 7 ≤ op && op ≤ 0x0B then 7 else 5
  | .y => if 8 ≤ op && op < 0x10 then 6 else 4
  | .i0 | .i1 =>
    if [0x20, 0x22, 0x23].contains (t.w.extractLsb' 26 6).toNat then 0
    else if (t.w.extractLsb' 26 6).toNat = 0x24 then 1 else 2
  | .f => if [0x20, 0x22].contains (t.w.extractLsb' 26 6).toNat then 0 else 2
  | .m | .q => 2

/-- The slots in the order in which they perform. -/
def performOrder (ts : List SlotWord) : List SlotWord :=
  (List.range 8).flatMap fun r => ts.filter fun t => slotRank t == r

/-- The cause and TRAPINFO that a trap of the bundle at hand left behind. -/
def State.leftTrap (s : State) (c n : Nat) : Nat × Word64 :=
  match s.ctx? c n with
  | none => (0, 0)
  | some x => (bitsOf x.sr.trapcause 0 8, x.sr.trapinfo)

/-- The bundle stalls in the state before it. A slot that is to hold its context before the bundle performs (DRAFTLD, 16 R386) does so. -/
def State.stallWith (s0 s : State) (c n : Nat) : State :=
  match (s.ctx? c n).map fun (x : Ctx) => x.hold with
  | some (Hold.draftld seq a l b due ws out) =>
    ({ (s0.stall.updCtx c n fun x => { x with hold := .draftld seq a l b due ws out }) with free := s.free } : State).postOnce 1 (.draftldCompletion c n)
  | _ => s0.stall

/-- The trap or the kill that a slot met after others of the bundle had performed comes upon the state before the bundle. -/
def State.undoTo (s0 : State) (cause : Nat) (info : Word64) : State :=
  if cause = 0x0B then s0.poisonKill (bitsOf info 52 2) (bitsOf info 0 52) else s0.trap cause info

/-- Every slot performs. A slot that finds that an earlier one of the bundle has taken the stash row it needs, or poisoned what it reads, traps, kills or
stalls the bundle as a whole, from the state before it. -/
def performAll (s0 : State) (c n : Nat) (s : State) : List SlotWord → Host.Outcome State Fault Refusal
  | [] => .next s
  | t :: ts =>
    match slotOutcome s t with
    | .next s' =>
      if s'.bun.status == .trapped then .next (s0.undoTo (s'.leftTrap c n).1 (s'.leftTrap c n).2)
      else if waits s'.bun.status then .next (s0.stallWith s' c n)
      else performAll s0 c n s' ts
    | o => o

/-- Whether what traps a slot is a test of CHSTART that is made at issue (09 R221, R222, 16 R367), and so only where no slot waits (03 R58): all but that its channel
is empty or of another kind (DEDUCED, log entry 106). -/
def testsAtIssue (s : State) (t : SlotWord) : Bool :=
  match t.decode with
  | .ok (.chstart o) | .ok (.chstart64 o _) => (((s.core? s.cur).bind (·.chan? o.ch.toNat)).map Chan.kind) == some 3
  | _ => false

/-- Whether an outcome ends the attempt: a trap, a kill, a stop of the machine. -/
def endsAttempt (o : Host.Outcome State Fault Refusal) : Bool := outcomeStatus o == some .trapped || outcomeStatus o == none

/-- The slots of a bundle in the state in which it is attempted. -/
def runSlots (s : State) (c n : Nat) (ts : List SlotWord) : Host.Outcome State Fault Refusal :=
  let rs := ts.map fun t => (t, slotOutcome s t)
  match rs.find? fun r => endsAttempt r.2 && !testsAtIssue s r.1 with
  | some r => r.2
  | none =>
    let ws := rs.filter fun r => ((outcomeStatus r.2).map waits) == some true
    if !ws.isEmpty then waitAll s (ws.map (·.1)) false
    else
      match rs.find? fun r => endsAttempt r.2 with
      | some r => r.2
      | none => performAll s c n { s with bun := { s.bun with performs := true } } (performOrder ts)

/-- What follows the slots. -/
def finishOutcome (c n : Nat) : Host.Outcome State Fault Refusal → Host.Outcome State Fault Refusal
  | .next s => .next (s.finish c n)
  | o => o

/-- A fetched bundle is attempted: the checks on the whole bundle first (03 R60). -/
def attemptRaw (s : State) (c n : Nat) (x : Ctx) (b : Raw) : Host.Outcome State Fault Refusal :=
  let s' := s.begin c n x b
  if b.illegal x.pc x.win x.loops then .next (s'.trap 0x02 0)
  else if b.delayBranch x.win then .next (s'.trap 0x04 (brpendOf x.win))
  else if bitsOf b.head 0 7 = 0 then exec .bundleWithPmZero { s with ev := .bundleWithPmZero c }
  else if b.stalls x s.cycle then finishOutcome c n (.next s'.stall)
  else finishOutcome c n (runSlots s' c n ((b.slots).getD []))

/-- The context that holds issue on a core at a boundary: it dies, takes an event or a notice, yields, or attempts its next bundle. Events wait for an
instruction that has held the context in place, until its bundle has performed (12 R286), an atomic that waited for it among it (15 R334). -/
def attempt (s : State) (c n : Nat) : Host.Outcome State Fault Refusal :=
  let s := (s.countIssue c n).landLate c n
  match s.ctx? c n with
  | none => .next s
  | some x =>
    match x.doom with
    | some (cause, info) => .next (s.kill c n cause info)
    | none =>
      if x.hold == .none && x.pend.any && !x.sr.tmode && x.win.isNone then exec .eventTaken { s with ev := .eventTaken c n }
      else if x.hold == .none && s.noticeDue c n x then exec .noticeTaken { s with ev := .noticeTaken (s.partOf c) }
      else if x.hold == .none && s.yieldDue c n x then exec .issueCounterYield { s with ev := .issueCounterYield c }
      else
        let s := s.updCtx c n fun x => { x with yreq := x.yreq && x.win.isSome }
        match s.nextBundle c x with
        | (_, .fault _ _) => exec .fetchFault { s with ev := .fetchFault c }
        | (s, .raw b) => attemptRaw s c n x b

/-- A core at the cycle at which it may issue: a READY context gets issue, or the one that holds it goes on. -/
def issueCore (s : State) (c : Nat) : Host.Outcome State Fault Refusal :=
  match (s.core? c).bind (·.issuing) with
  | none => .next (s.selectCtx c)
  | some n => attempt s c n

/-- The core with whose event a command, a stream, a run or an atomic may end. -/
def Event.endsAt (e : Event) : Option Nat :=
  match e with
  | .streamCommandStart c | .qsetCompletion c _ | .gcfgLoadEnd c | .atomicResponse c _ | .channelCommandStart c | .chrecvCompletion c _
  | .ringInstanceCompletion c _ | .drainStart c _ | .semaddApply c _ | .stashCommandCompletion c _ | .copyCompletion c _ | .qsaveCompletion c _
  | .flowRowSend c _ => some c
  | _ => Event.engine e

/-- The atomics of a partition that wait for nothing else perform once the last such write has acted. -/
def State.landAfterWrites (s : State) (p : Nat) : State :=
  if s.writesDue p then s
  else
    s.forEach (s.coresOfPart p) fun s c => s.forEach (List.range 4) fun s n =>
      if ((s.ctx? c n).map Ctx.held) == some true then s else s.landLate c n

/-- After an event that may have ended the last command of a core, its launch looks whether it is over; after the last write that an atomic waits for, the atomic
performs (15 R334). -/
def afterEvent (e : Event) : Host.Outcome State Fault Refusal → Host.Outcome State Fault Refusal
  | .next s =>
    match e with
    | .stepBarrierOpen l _ _ => .next (s.postOnce 1 (.launchCompletion l))
    | .crctlWrite p _ _ | .notstatWrite p _ => .next (s.landAfterWrites p)
    | _ =>
      match Event.endsAt e with
      | none => .next s
      | some c => .next (s.tellLaunch c)
  | o => o

/-- An event of the agenda happens; one of an engine of a frozen core comes after the freeze (10 R255). -/
def happen (s : State) (e : Event) : Host.Outcome State Fault Refusal :=
  match (Event.engine e).bind s.core? with
  | none => afterEvent e (exec (Event.instr e) { s with ev := e })
  | some k =>
    if s.cycle < k.frozenTo then .next (s.post (k.frozenTo - s.cycle) e) else afterEvent e (exec (Event.instr e) { s with ev := e })

/-- A residue check that fails: its owner issues no bundle in the cycle at which it is decided (06 R134, R135). -/
def Event.mismatch : Event → Bool
  | .mmaCompletion _ _ chk | .mtrnCompletion _ _ chk | .mbflyCompletion _ _ chk => chk != .passed
  | _ => false

/-- One step of the module: the next event of the agenda, where none issues before it; else the core that issues earliest, after the mismatches of that
cycle; with neither, a cycle passes. -/
def advanceModule (s : State) : Host.Outcome State Fault Refusal :=
  match s.agenda, s.nextCore with
  | (d, e) :: l, some (c, t) =>
    if d < t then happen { s.advance d with agenda := l } e
    else
      match s.agenda.find? fun a => a.1 == t && Event.mismatch a.2 with
      | some a => happen { s.advance t with agenda := s.agenda.erase a } a.2
      | none => issueCore (s.advance t) c
  | (d, e) :: l, none => happen { s.advance d with agenda := l } e
  | [], some (c, t) => issueCore (s.advance t) c
  | [], none => .next (s.advance (s.cycle + 1))

end Sys2Proof.Machine
end

