-- ==== Sys2Proof/Machine/Step.lean ====
section
/-! DEFINITION. One step of the module, and the state in which a given instruction is the next to be fetched. -/

namespace Sys2Proof.Machine

/-- One step. -/
def step (s : State) : Host.Outcome State Fault Refusal := advanceModule s

/-- Where withFetchWord places the bundle, as a virtual and as a physical address. -/
def plantPc : Nat := 0x10000
/-- The physical address of the root page table that withFetchWord writes. -/
def plantRoot : Nat := 0x20000
/-- The physical address of the second-level page table that withFetchWord writes. -/
def plantTable : Nat := 0x30000

/-- A word of HBM set, in a sector under key 0 without errors; lines of it leave their slice first. -/
def State.plantWord (s : State) (pa : Nat) (w : Word32) : State :=
  (((s.leaveLines (s.homeSlice pa) fun x => x.no == pa / 128).setHbmWord pa ⟨w, false⟩).seal (pa / 64) 0)

/-- A double word of home memory set. -/
def State.plantDouble (s : State) (pa : Nat) (w : Word64) : State :=
  (s.plantWord pa (w.extractLsb' 0 32)).plantWord (pa + 4) (w.extractLsb' 32 32)

/-- Words set from an address on. -/
def State.plantWords (s : State) (pa : Nat) : List Word32 → State
  | [] => s
  | w :: ws => (s.plantWord pa w).plantWords (pa + 4) ws

/-- A map entry that gives partition 0 every cluster and every channel pair; its control context is context 0 of core 0. -/
def plantEntry : MapEntry := ⟨BitVec.allOnes 128, BitVec.allOnes 192, 0, 0, 0, true, 255, true, false⟩

/-- The state with the instruction of a word of the opcode table where step fetches next: a bundle of its own at `plantPc`, the page tables that
translate this address, partition 0 with its key 0, and context 0 of core 0 holding issue there. An instruction the table takes in no slot
leaves a bundle with that word in the C slot. -/
def State.withFetchWord (s : State) (nbits w : Nat) : State :=
  let t := (tableSlot nbits w).getD ⟨.c, BitVec.ofNat 32 w, if nbits ≤ 32 then none else some (BitVec.ofNat 32 (w / 2 ^ 32))⟩
  let p := (s.part? 0).getD (Part.fresh plantEntry)
  let p := { p with
    entry := plantEntry
    ptbase := setBits p.ptbase 13 33 (plantRoot / 8192)
    keys := Tab.set none p.keys 0 (some ⟨0, 0, 0⟩)
    notices := [] }
  let k := (s.core? 0).getD (Core.fresh 0 0)
  let x := (k.ctx? 0).getD Ctx.empty
  let x := { x with
    st := .issuing, pc := BitVec.ofNat 52 plantPc, win := none, loops := [], pend := Pending.none, counter := 0, hold := .none, holdM := .none, holdQ := .none, yreq := false, score := []
    atomics := [], late := none, doom := none, pold := [] }
  let k := { k.setCtx 0 x with issuing := some 0, freeAt := 0, tlb := [], icache := [] }
  let s := { s with
    agenda := []
    parts := [(0, some p)]
    cores := Tab.set none s.cores 0 (some k)
    clusters := Tab.set none s.clusters 0 (some { Cluster.fresh with gated := false }) }
  ((s.plantDouble plantRoot (BitVec.ofNat 64 (1 + plantTable))).plantDouble plantTable 0x300F).plantWords plantPc (soloWords t)

end Sys2Proof.Machine
end

