-- ==== Sys2Proof/Safety.lean ====
section
/-! DEFINITION. What a safe run is, and the terms in which statements about the machine are made: a register by its name, the frame of an
operation that writes registers alone, the invariant of the machine. -/

namespace Sys2Proof

/-- The machine goes on from an outcome. -/
def goesOn (o : Host.Outcome Machine.State Machine.Fault Machine.Refusal) : Bool :=
  match o with
  | .next _ => true
  | .fault _ => false
  | .refused _ => false

/-- A number of steps from a state, none of which stops the machine. -/
def SafeFor (n : Nat) (s : Machine.State) : Prop := goesOn (Host.Core.run core n s) = true

/-- The operations of 15 to 19 that write registers alone: integer, predicate and vector arithmetic and moves. -/
def Instr.registersOnly : Instr → Bool
  | .cmpC _ | .cmpiC _ | .addiC _ | .liC _ | .xmovC _ | .pandC _ | .porC _ | .pxorC _ | .pnotC _ | .psetC _ | .pmovC _ | .add _ | .addiI _
  | .sub _ | .mul _ | .mulh _ | .div _ | .rem _ | .and _ | .or _ | .xor _ | .andn _ | .shl _ | .shr _ | .sra _ | .rotl _ | .clz _ | .popc _
  | .min _ | .max _ | .abs _ | .sel _ | .cmpI _ | .cmpiI _ | .liI _ | .lih _ | .lea _ | .bfx _ | .bfi _ | .xmovI _ | .pandIF _ | .porIF _
  | .pxorIF _ | .pnotIF _ | .psetIF _ | .pmovIF _ | .vadd _ | .vsub _ | .vmul _ | .vmax _ | .vmin _ | .vabs _ | .vneg _ | .vrnd _
  | .vldexp _ | .vexp2 _ | .vlog2 _ | .vrcp _ | .vrsq _ | .vred _ | .vscan _ | .vperm _ | .vbcast _ | .viota _ | .vmov _ | .vpack _
  | .vunpk _ | .cmpiC64 _ | .addiC64 _ | .liC64 _ | .psetC64 _ | .addiI64 _ | .sel64 _ | .cmpiI64 _ | .liI64 _ | .lih64 _ | .lea64 _
  | .bfxImm _ | .bfiImm _ | .psetIF64 _ | .vfma _ | .vfms _ | .vcmp _ | .vsel _ | .vcvt _ | .vrnd64 _ | .vclass _ | .vcswap _ | .vbcast64 _
  | .vpack64 _ => true
  | .br _ | .brc _ | .call _ | .ret _ | .loop _ | .eret _ | .trap _ | .yield _ | .retire _ | .halt _ | .launch _ | .mfsr _ | .mtsr _
  | .tlbi _ | .fenset _ | .evac _ | .draftld _ | .ld _ | .st _ | .lda _ | .chka _ | .ldacq _ | .strel _ | .vld _ | .vst _ | .vgath _
  | .vscat _ | .mcfg _ | .mfmt _ | .mdrain _ | .mma _ | .mmaz _ | .mbld _ | .mzero _ | .mzrd _ | .mzwr _ | .mzst _ | .mzld _ | .mtrn _
  | .mbfly _ | .mtwid _ | .qset _ | .qld _ | .qst _ | .qgath _ | .qscat _ | .qcopy _ | .qrcopy _ | .qccopy _ | .gcfg _ | .grun _ | .gstop _
  | .qsave _ | .qrest _ | .spin _ | .sunpin _ | .swb _ | .sinv _ | .semset _ | .semadd _ | .semwait _ | .fence _ | .drain _ | .step _
  | .aadd _ | .aand _ | .aor _ | .axor _ | .amin _ | .amax _ | .aswp _ | .chsend _ | .chrecv _ | .chstart _ | .chabort _ | .tstart _
  | .rdtime _ | .br64 _ | .brc64 _ | .mwb _ | .call64 _ | .trap64 _ | .ld64 _ | .st64 _ | .lda64 _ | .chka64 _ | .ldacq64 _ | .strel64 _
  | .vld64 _ | .vst64 _ | .vgath64 _ | .vscat64 _ | .mfmt64 _ _ | .mdrain64 _ _ | .mma64 _ _ | .mmaz64 _ _ | .mbld64 _ _ | .mzero64 _ _
  | .mzrd64 _ _ | .mzwr64 _ _ | .mzst64 _ _ | .mzld64 _ _ | .mtrn64 _ _ | .mbfly64 _ _ | .mtwid64 _ _ | .qset64 _ _ | .qld64 _ _
  | .qst64 _ _ | .qgath64 _ _ | .qscat64 _ _ | .qcopy64 _ _ | .qrcopy64 _ _ | .qccopy64 _ _ | .gcfg64 _ _ | .grun64 _ _ | .gstop64 _ _
  | .qsave64 _ _ | .qrest64 _ _ | .spin64 _ _ | .sunpin64 _ _ | .swb64 _ _ | .sinv64 _ _ | .semset64 _ | .semadd64 _ _ | .semwait64 _
  | .drain64 _ _ | .step64 _ _ | .aadd64 _ | .aand64 _ | .aor64 _ | .axor64 _ | .amin64 _ | .amax64 _ | .aswp64 _ | .acas _ | .chsend64 _ _
  | .chrecv64 _ _ | .chstart64 _ _ | .chabort64 _ _ | .qtailWrite | .residencyQuantumBoundary | .dispatch | .launchPlacement
  | .launchSemaphoreWrite | .launchCompletion | .clusterPowerGate | .issueCounterYield | .eventTaken | .noticeTaken | .stashFillArrival
  | .watchdog | .timeGateFire | .prectlGo | .preemptLimitExpiry | .matrixQueueStart | .mmaCompletion | .mbldCompletion | .mzstCompletion
  | .mzldCompletion | .mtrnCompletion | .mbflyCompletion | .mtwidCompletion | .mfmtCompletion | .mdrainStart | .mzrdCompletion
  | .mzwrCompletion | .mzeroCompletion | .mcfgClear | .streamCommandStart | .streamElementFault | .streamRetire | .qsetCompletion
  | .gcfgLoadEnd | .grunCompletion | .gstopBoundary | .fabricInvocationStart | .fabricInvocationEnd | .packetArrival | .flowRowSend
  | .rowLanding | .landingAcknowledgement | .lossAcknowledgement | .parkedRowRetry | .flowRowLost | .creditTokenArrival
  | .channelCommandStart | .chrecvCompletion | .ringInstanceStart | .ringPacketArrival | .ringInstanceCompletion | .remoteTimeout
  | .abortTokenArrival | .ringCommit | .ringCommitReread | .linkTimeout | .linkPacketArrival | .linkTraining | .stepBarrierOpen
  | .drainStart | .semaddApply | .atomicResponse | .draftldCompletion | .tlbiCompletion | .evacCompletion | .retireAccepted
  | .stashCommandCompletion | .copyCompletion | .qsaveCompletion | .opreqGo | .operatingPointStepEnd | .thermalThrottle | .thermalRecovery
  | .thermalReset | .moduleReset | .reconfigurationRequest | .getDigests | .getCertificate | .challenge | .getMeasurements | .keyExchange
  | .finish | .keyload | .keyclear | .rowSparing | .shadowLatchReplay | .hostWrite | .hostRead | .tdiError | .crctlWrite | .flogstWrite
  | .fqstatWrite | .ststatWrite | .lpstatWrite | .notstatWrite | .silcntWrite | .fetchFault | .bundleWithPmZero | .writeBackPerformed
  | .launchAppend | .qrestCompletion | .streamDataArrival | .storeStreamElementPerformed | .tdispRequest => false

/-- Which predicate guards an instruction of a scalar slot that a failing guard leaves without any effect (03 R52), as its bank and whether it is read as it
stood before a write not yet delivered (the M slot, R55). The others: the transfers of control, whose window opens untaken (R61) and which DELAY_BRANCH
meets whatever their guard (R63); MFSR and MTSR, whose number is checked first (04 R77); the F slot, whose guard holds for each lane; events, which have none. -/
def Instr.scalarGuard : Instr → Option (Bank × Bool)
  | .trap _ | .yield _ | .retire _ | .halt _ | .launch _ | .tlbi _ | .fenset _ | .evac _ | .draftld _ | .cmpC _ | .cmpiC _ | .addiC _
  | .liC _ | .xmovC _ | .pandC _ | .porC _ | .pxorC _ | .pnotC _ | .psetC _ | .pmovC _ | .trap64 _ | .cmpiC64 _ | .addiC64 _ | .liC64 _
  | .psetC64 _ | .qset _ | .qld _ | .qst _ | .qgath _ | .qscat _ | .qcopy _ | .qrcopy _ | .qccopy _ | .gcfg _ | .grun _ | .gstop _
  | .qsave _ | .qrest _ | .spin _ | .sunpin _ | .swb _ | .sinv _ | .qset64 _ _ | .qld64 _ _ | .qst64 _ _ | .qgath64 _ _ | .qscat64 _ _
  | .qcopy64 _ _ | .qrcopy64 _ _ | .qccopy64 _ _ | .gcfg64 _ _ | .grun64 _ _ | .gstop64 _ _ | .qsave64 _ _ | .qrest64 _ _ | .spin64 _ _
  | .sunpin64 _ _ | .swb64 _ _ | .sinv64 _ _ | .semset _ | .semadd _ | .semwait _ | .fence _ | .drain _ | .step _ | .aadd _ | .aand _
  | .aor _ | .axor _ | .amin _ | .amax _ | .aswp _ | .chsend _ | .chrecv _ | .chstart _ | .chabort _ | .tstart _ | .rdtime _ | .semset64 _
  | .semadd64 _ _ | .semwait64 _ | .drain64 _ _ | .step64 _ _ | .aadd64 _ | .aand64 _ | .aor64 _ | .axor64 _ | .amin64 _ | .amax64 _
  | .aswp64 _ | .chsend64 _ _ | .chrecv64 _ _ | .chstart64 _ _ | .chabort64 _ _ | .acas _ => some (.pk, false)
  | .add _ | .addiI _ | .sub _ | .mul _ | .mulh _ | .div _ | .rem _ | .and _ | .or _ | .xor _ | .andn _ | .shl _ | .shr _ | .sra _
  | .rotl _ | .clz _ | .popc _ | .min _ | .max _ | .abs _ | .sel _ | .cmpI _ | .cmpiI _ | .liI _ | .lih _ | .lea _ | .bfx _ | .bfi _
  | .xmovI _ | .ld _ | .st _ | .lda _ | .chka _ | .ldacq _ | .strel _ | .addiI64 _ | .sel64 _ | .cmpiI64 _ | .liI64 _ | .lih64 _ | .lea64 _
  | .bfxImm _ | .bfiImm _ | .ld64 _ | .st64 _ | .lda64 _ | .chka64 _ | .ldacq64 _ | .strel64 _ => some (.pi, false)
  | .pandIF o => if o.sl = .f then none else some (.pi, false)
  | .porIF o => if o.sl = .f then none else some (.pi, false)
  | .pxorIF o => if o.sl = .f then none else some (.pi, false)
  | .pnotIF o => if o.sl = .f then none else some (.pi, false)
  | .psetIF o => if o.sl = .f then none else some (.pi, false)
  | .pmovIF o => if o.sl = .f then none else some (.pi, false)
  | .psetIF64 o => if o.sl = .f then none else some (.pi, false)
  | .mcfg _ | .mfmt _ | .mdrain _ | .mma _ | .mmaz _ | .mbld _ | .mzero _ | .mzrd _ | .mzwr _ | .mzst _ | .mzld _ | .mtrn _ | .mbfly _
  | .mtwid _ | .mfmt64 _ _ | .mdrain64 _ _ | .mma64 _ _ | .mmaz64 _ _ | .mbld64 _ _ | .mzero64 _ _ | .mzrd64 _ _ | .mzwr64 _ _
  | .mzst64 _ _ | .mzld64 _ _ | .mtrn64 _ _ | .mbfly64 _ _ | .mtwid64 _ _ => some (.pk, true)
  | .br _ | .brc _ | .call _ | .ret _ | .loop _ | .eret _ | .mfsr _ | .mtsr _ | .vadd _ | .vsub _ | .vmul _ | .vmax _ | .vmin _ | .vabs _
  | .vneg _ | .vrnd _ | .vldexp _ | .vexp2 _ | .vlog2 _ | .vrcp _ | .vrsq _ | .vred _ | .vscan _ | .vperm _ | .vbcast _ | .viota _
  | .vmov _ | .vpack _ | .vunpk _ | .vld _ | .vst _ | .vgath _ | .vscat _ | .br64 _ | .brc64 _ | .mwb _ | .call64 _ | .vfma _ | .vfms _
  | .vcmp _ | .vsel _ | .vcvt _ | .vrnd64 _ | .vclass _ | .vcswap _ | .vbcast64 _ | .vpack64 _ | .vld64 _ | .vst64 _ | .vgath64 _
  | .vscat64 _ | .qtailWrite | .residencyQuantumBoundary | .dispatch | .launchPlacement | .launchSemaphoreWrite | .launchCompletion
  | .clusterPowerGate | .issueCounterYield | .eventTaken | .noticeTaken | .stashFillArrival | .watchdog | .timeGateFire | .prectlGo
  | .preemptLimitExpiry | .matrixQueueStart | .mmaCompletion | .mbldCompletion | .mzstCompletion | .mzldCompletion | .mtrnCompletion
  | .mbflyCompletion | .mtwidCompletion | .mfmtCompletion | .mdrainStart | .mzrdCompletion | .mzwrCompletion | .mzeroCompletion
  | .mcfgClear | .streamCommandStart | .streamElementFault | .streamRetire | .qsetCompletion | .gcfgLoadEnd | .grunCompletion
  | .gstopBoundary | .fabricInvocationStart | .fabricInvocationEnd | .packetArrival | .flowRowSend | .rowLanding | .landingAcknowledgement
  | .lossAcknowledgement | .parkedRowRetry | .flowRowLost | .creditTokenArrival | .channelCommandStart | .chrecvCompletion
  | .ringInstanceStart | .ringPacketArrival | .ringInstanceCompletion | .remoteTimeout | .abortTokenArrival | .ringCommit
  | .ringCommitReread | .linkTimeout | .linkPacketArrival | .linkTraining | .stepBarrierOpen | .drainStart | .semaddApply | .atomicResponse
  | .draftldCompletion | .tlbiCompletion | .evacCompletion | .retireAccepted | .stashCommandCompletion | .copyCompletion | .qsaveCompletion
  | .opreqGo | .operatingPointStepEnd | .thermalThrottle | .thermalRecovery | .thermalReset | .moduleReset | .reconfigurationRequest
  | .getDigests | .getCertificate | .challenge | .getMeasurements | .keyExchange | .finish | .keyload | .keyclear | .rowSparing
  | .shadowLatchReplay | .hostWrite | .hostRead | .tdiError | .crctlWrite | .flogstWrite | .fqstatWrite | .ststatWrite | .lpstatWrite
  | .notstatWrite | .silcntWrite | .fetchFault | .bundleWithPmZero | .writeBackPerformed | .launchAppend | .qrestCompletion
  | .streamDataArrival | .storeStreamElementPerformed | .tdispRequest => none

namespace Machine

/-- What a register reads as, widened, with its poison bits. -/
def Regs.read (r : Regs) : RegName → BitVec 1024 × Word32
  | .x n => ((r.getX n).v.zeroExtend 1024, BitVec.ofNat 32 (bitN (r.getX n).p))
  | .y n => ((r.getY n).v.zeroExtend 1024, BitVec.ofNat 32 (bitN (r.getY n).p))
  | .c n => ((r.getC n).v.zeroExtend 1024, BitVec.ofNat 32 (bitN (r.getC n).p))
  | .v n => ((r.getV n).v, (r.getV n).p)
  | .pk n => ((r.getPk n).v.zeroExtend 1024, BitVec.ofNat 32 (bitN (r.getPk n).p))
  | .pi n => ((r.getPi n).v.zeroExtend 1024, BitVec.ofNat 32 (bitN (r.getPi n).p))
  | .pv n => ((r.getPv n).v.zeroExtend 1024, BitVec.ofNat 32 (bitN (r.getPv n).p))

/-- Context n of core c issues the bundle at hand. -/
def State.issues (s : State) (k : Core) (n : Nat) (x : Ctx) : Prop :=
  s.core? s.cur = some k ∧ k.issuing = some n ∧ k.ctx? n = some x

/-- A guard passes: each predicate of it is read with the value it stands at (03 R52). -/
def State.passes (s : State) (g : Guard) (b : Bank) : Prop := Guard.ok g b s.bun.old = true

/-- The guard of an M slot passes: it is not interlocked, so it reads a pk predicate as it stood before a write that has not been delivered (03 R55). -/
def State.passesM (s : State) (g : Guard) : Prop := Guard.ok g .pk s.bun.oldM = true

/-- From `s` to `t` only the context n of core c has changed, and of it only registers named in `w` with what the scoreboard, the watch table and
the divider keep: no other core, context or register, no byte of memory, no special register, semaphore, stash row or queue. -/
structure WritesOnly (s t : State) (c n : Nat) (w : List RegName) : Prop where
  machine : t = { s with cores := t.cores }
  otherCores : ∀ c', c' ≠ c → t.core? c' = s.core? c'
  core : ∀ k, s.core? c = some k → ∃ k', t.core? c = some k' ∧ k' = { k with ctxs := k'.ctxs, div0 := k'.div0, div1 := k'.div1 }
  otherCtxs : ∀ n', n' ≠ n → t.ctx? c n' = s.ctx? c n'
  ctx : ∀ x, s.ctx? c n = some x → ∃ x', t.ctx? c n = some x' ∧
    x' = { x with regs := x'.regs, score := x'.score, watch := x'.watch, vold := x'.vold, pold := x'.pold } ∧ ∀ r, r ∉ w → x'.regs.read r = x.regs.read r
  memory : ∀ a, t.homeByte a = s.homeByte a

/-- The commands of the Q slot of context n whose operands pass its checks, QSAVE, QREST and GSTOP apart, each with its guard, its 32-bit form, its 64-bit form and
what enters the queue (07 R160, R163, 10 R243, 18 R471 to R474, R477, R481). -/
def Core.qAdmits (k : Core) (r : Regs) (n : Nat) (f : Guard → Instr → (Sync → Instr) → QKind → Prop) : Prop :=
  let mine := fun (q : Nat) => ∃ e, Tab.get none k.sregs q = some e ∧ e.alloc = true ∧ e.owner = n
  (∀ o : OpQset, let a := r.getXY o.fs o.a.toNat
    a.p = false → a.v.toNat % 128 = 0 → ((k.sreg o.q.toNat).alloc = false ∨ (k.sreg o.q.toNat).owner = n) →
    f o.g (.qset o) (.qset64 o) (.qset o.q.toNat a.v)) ∧
  (∀ o : OpQstrm, mine o.q.toNat →
    f o.g (.qld o) (.qld64 o) (.strm o.q.toNat false false) ∧ f o.g (.qst o) (.qst64 o) (.strm o.q.toNat true false) ∧
    f o.g (.qgath o) (.qgath64 o) (.strm o.q.toNat false true) ∧ f o.g (.qscat o) (.qscat64 o) (.strm o.q.toNat true true)) ∧
  (∀ o : OpQcopy, let a := r.getXY o.fs o.a.toNat; let b := r.getXY o.fs o.b.toNat; let c := r.getXY o.fs o.c.toNat
    a.p = false → b.p = false → c.p = false →
    (c.v.toNat ≤ 2 ^ 32 → a.v.toNat + c.v.toNat ≤ 2 ^ 52 → b.v.toNat + c.v.toNat ≤ 2 ^ 52 → f o.g (.qcopy o) (.qcopy64 o) (.qcopy a.v b.v c.v)) ∧
    (bitsOf c.v 32 16 % 4 = 0 → 4 ≤ bitsOf c.v 32 16 → bitsOf c.v 32 16 ≤ 16384 → bitsOf c.v 48 16 = 0 → a.v.toNat % 4 = 0 → b.v.toNat % 4 = 0 →
      f o.g (.qccopy o) (.qccopy64 o) (.qccopy a.v b.v c.v)) ∧
    (b.v.toNat % 4 = 0 → 4 ≤ b.v.toNat → b.v.toNat ≤ 2 ^ 24 → bitsOf c.v 44 20 = 0 → a.v.toNat % 4 = 0 →
      f o.g (.qrcopy o) (.qrcopy64 o) (.qrcopy a.v b.v c.v))) ∧
  (∀ o : OpGcfg, (r.getXY o.fs o.a.toNat).p = false → f o.g (.gcfg o) (.gcfg64 o) (.gcfg (r.getXY o.fs o.a.toNat).v o.iim1.toNat o.lut)) ∧
  (∀ o : OpGrun, let a := r.getXY o.fs o.a.toNat; let b := r.getXY o.fs o.b.toNat
    a.p = false → b.p = false → (∀ q ∈ boundRegs a.v, (k.sreg q).alloc = true ∧ (k.sreg q).owner = n) → (boundRegs a.v).Nodup → bitsOf a.v 38 26 = 0 →
    f o.g (.grun o) (.grun64 o) (.grun a.v b.v.toNat o.keep)) ∧
  (∀ o : OpStash, let a := r.getXY o.fs o.a.toNat; let b := r.getXY o.fs o.b.toNat
    a.p = false → b.p = false → b.v.toNat ≤ 8388608 → a.v.toNat + b.v.toNat ≤ 2 ^ 52 →
    f o.g (.spin o) (.spin64 o) (.stash 0 a.v b.v) ∧ f o.g (.sunpin o) (.sunpin64 o) (.stash 1 a.v b.v) ∧
    f o.g (.swb o) (.swb64 o) (.stash 2 a.v b.v) ∧ f o.g (.sinv o) (.sinv64 o) (.stash 3 a.v b.v))

/-- The operations of the matrix queue that pass the checks of the engine's owner n, likewise (17 R417 to R456). -/
def Core.mAdmits (k : Core) (n : Nat) (f : Guard → Instr → (Sync → Instr) → MKind → Prop) : Prop :=
  let ready := fun (q : Nat) => (∃ r, Tab.get none k.sregs q = some r ∧ r.alloc = true ∧ r.owner = n ∧ r.st ≠ 4) ∧
    ∀ c ∈ k.qcmds, ∀ a, c.kind ≠ .qset q a
  let typed := fun (q : Nat) (t : EType) => ∃ d, (k.sreg q).desc = some d ∧ d.et = t ∧ d.sc = k.mx.pair.2.2
  (∀ o : OpMma, ready o.q.toNat → typed o.q.toNat k.mx.pair.1 →
    f o.g (.mma o) (.mma64 o) (.mma false o.z.toNat o.q.toNat o.boff.toNat) ∧ f o.g (.mmaz o) (.mmaz64 o) (.mma true o.z.toNat o.q.toNat o.boff.toNat)) ∧
  (∀ o : OpMbld, ready o.q.toNat → typed o.q.toNat k.mx.pair.2.1 → f o.g (.mbld o) (.mbld64 o) (.mbld o.q.toNat o.boff.toNat)) ∧
  (∀ o : OpMtile, ready o.q.toNat → f o.g (.mzst o) (.mzst64 o) (.mzst o.z.toNat o.q.toNat) ∧ f o.g (.mzld o) (.mzld64 o) (.mzld o.z.toNat o.q.toNat)) ∧
  (∀ o : OpMtrn, f o.g (.mtrn o) (.mtrn64 o) (.mtrn o.zd.toNat o.zs.toNat)) ∧
  (∀ (o : OpMbfly) (t : Twid), k.mx.twidIssued = some t → o.stg.toNat < t.rad.length → (o.ord = true → o.stg.toNat + 1 = t.rad.length) →
    o.zb.toNat + t.tiles ≤ 32 → f o.g (.mbfly o) (.mbfly64 o) (.mbfly o.zb.toNat o.stg.toNat o.scl o.ord)) ∧
  (∀ (o : OpMtwid) (t : Twid), o.nm1 ≠ 0 → twidOf o.nm1.toNat o.inv k.mx.rseq = some t → f o.g (.mtwid o) (.mtwid64 o) (.mtwid t k.mx.rseq)) ∧
  (∀ o : OpMfmt, legalPair o.at' o.bt o.sc = true → (o.at' = .f32 → cfgK k.mx.cfgIssued ≤ 1024) →
    (fmtWord o.at' o.bt o.sc = k.mx.fmtIssued ∨ k.mx.drained = true) → f o.g (.mfmt o) (.mfmt64 o) (.mfmt o.at' o.bt o.sc)) ∧
  (∀ o : OpN, f o.g (.mdrain o) (.mdrain64 o) .mdrain)

/-- The channel commands that pass their checks, likewise, each with the cycles to its event and the event (16 R365, R366, 18 R495, R501). -/
def State.yAdmits (s : State) (k : Core) (f : Guard → Instr → (Sync → Instr) → YKind → Nat → Event → Prop) : Prop :=
  let start := Event.channelCommandStart s.cur
  (∀ o : OpSem, f o.g (.semadd o) (.semadd64 o) (.semadd o.sem.toNat o.imm.toNat) 1 (.semaddApply s.cur k.nextCmd)) ∧
  (∀ o : OpN, f o.g (.drain o) (.drain64 o) .drain 0 (.drainStart s.cur k.nextCmd)) ∧
  (∀ o : OpStep, f o.g (.step o) (.step64 o) (.step o.launch) 0 start) ∧
  (∀ (o : OpCh) (h : Chan), k.chan? o.ch.toNat = some h → let ch := o.ch.toNat
    (h.kind = 1 → f o.g (.chsend o) (.chsend64 o) (.chsend ch) 0 start) ∧
    (h.kind = 2 → f o.g (.chrecv o) (.chrecv64 o) (.chrecv ch) 0 start) ∧
    (h.kind = 3 → f o.g (.chabort o) (.chabort64 o) (.chabort ch) 0 start) ∧
    (∀ r, h.kind = 3 → s.ringOf s.cur h = some r → h.fits (r.nm1 + 1) = true → k.ringAhead ch h.rst < 3 →
      f o.g (.chstart o) (.chstart64 o) (.chstart ch) 0 start))

/-- An engine command whose wait is not met: its bundle blocks, and its wait is armed (04 R83, 12 R290, 03 R58). -/
def BlocksOn (s : State) (i : Instr) (n : Nat) (x : Ctx) (sl : Slot) (w : Sync) : Prop :=
  ∃ t x', exec i s = .next t ∧ t.bun.status = .blocked ∧ t.ctx? s.cur n = some x' ∧ x'.st = .blocked ∧
    x'.armed = x.armed ++ [⟨sl, w.ws.toNat, w.wt.toNat, true⟩] ∧ x'.regs = x.regs

/-- The invariant of the machine: the home memory is in its canonical form. -/
def State.Inv (s : State) : Prop := Memory.wf s.mem = true

end Machine

end Sys2Proof
end

