-- ==== Sys2Proof/Certificates/Slice0/Obligations.lean ====
section
/-! DEFINITION. The statements for the provers, each with the rules of spec/ that it states. -/

open Sys2Proof Sys2Proof.Machine

/-! ## The step -/

/-- 02 R40, 03 R50, R58, R59, R60, R76, 04 R77: where a core issues next and the bundle that its issuing context fetches has one operation, which decodes to the
instruction i, and nothing stands before it (a kill, an event, a notice, a yield, a bad bundle, an interlock, a residue check that fails in that cycle, 06 R134), the step is exec of i in the state in
which the bundle is attempted, and then what follows a bundle: where the attempt traps, blocks or stalls, that is what the bundle comes to; where it does not,
i performs. An atomic of the bundle before that has waited for another slot of that bundle performs first (15 R334). -/
def Obligations.StepRunsTheDecodedInstruction : Prop :=
  ∀ (s s1 s2 s3 : State) (c t n : Nat) (x : Ctx) (b : Raw) (w : SlotWord) (i : Instr),
    s.nextCore = some (c, t) → (∀ a, s.agenda.head? = some a → t ≤ a.1) → (∀ a ∈ s.agenda, a.1 = t → Event.mismatch a.2 = false) →
    ((s.advance t).core? c).bind (·.issuing) = some n →
    s1 = ((s.advance t).countIssue c n).landLate c n → s1.ctx? c n = some x →
    x.doom = none → (x.pend.any && !x.sr.tmode && x.win.isNone) = false → s1.noticeDue c n x = false → s1.yieldDue c n x = false →
    s2 = s1.updCtx c n (fun x => { x with yreq := x.yreq && x.win.isSome }) →
    s2.nextBundle c x = (s3, .raw b) →
    b.illegal x.pc x.win x.loops = false → b.delayBranch x.win = false → bitsOf b.head 0 7 ≠ 0 → b.stalls x s3.cycle = false →
    b.slots = some [w] → w.decode = .ok i →
    let s4 := s3.begin c n x b
    let performing := { s4 with bun := { s4.bun with performs := true } }
    ∀ t, exec i s4 = .next t →
      (t.bun.status = .trapped ∨ t.bun.status = .blocked ∨ t.bun.status = .stalled → step s = .next (t.finish c n)) ∧
      (∀ u, t.bun.status ≠ .trapped → t.bun.status ≠ .blocked → t.bun.status ≠ .stalled → exec i performing = .next u →
        u.bun.status ≠ .trapped → u.bun.status ≠ .blocked → u.bun.status ≠ .stalled → step s = .next (u.finish c n))

/-- 03 R50, R59: a bundle is attempted with the program counter at the bundle that follows it, 4 + 4 × (operations + extension words) bytes on, and
with the registers from before it; where it performed and neither a window nor a loop is open, the context goes on there, and the core issues next
after the bundle's empty run.
Every event of the machine is an instruction: where the first event of the agenda comes before every issue, and no core is frozen, the step is
exec of that event's instruction at the event's cycle, after which the launch of the event's core looks whether it is over. -/
def Obligations.WhatAStepAddsToExec : Prop :=
  ((∀ (s : State) (c n : Nat) (x : Ctx) (b : Raw), s.ctx? c n = some x →
     (s.begin c n x b).ctx? c n = some { x with pc := x.pc + BitVec.ofNat 52 (4 + 4 * rawWords b.head) } ∧
     (s.begin c n x b).bun.old = x.regs ∧ (s.begin c n x b).bun.pc = x.pc ∧ (s.begin c n x b).cur = c) ∧
   (∀ (s : State) (c n : Nat) (k : Core) (x : Ctx), s.core? c = some k → k.ctx? n = some x → s.bun.status = .normal → x.win = none → x.loops = [] →
     x.hold = .none →
     ∃ k' x', (s.finish c n).core? c = some k' ∧ k'.ctx? n = some x' ∧ x'.pc = x.pc ∧ x'.win = none ∧ x'.loops = [] ∧ x'.regs = x.regs ∧
       k'.freeAt = max k.freeAt (s.cycle + 1 + s.bun.er))) ∧
  (∀ (s : State) (d : Nat) (e : Event) (l : List (Nat × Event)),
     s.agenda = (d, e) :: l → (∀ c t, s.nextCore = some (c, t) → d < t) →
     (∀ c k, Event.engine e = some c → s.core? c = some k → k.frozenTo ≤ (s.advance d).cycle) →
     step s = afterEvent e (exec (Event.instr e) { s.advance d with agenda := l, ev := e }))

/-- 15 to 19, worked words of the spec: each decodes to the instruction it stands for. -/
def Obligations.WorkedWordsDecode : Prop :=
  decodeTableWord 32 0x48010A00 = some (.tlbi ⟨⟨false, false, 0⟩, 4, 5⟩) ∧
  decodeTableWord 32 0x28000000 = some (.retire ⟨⟨false, false, 0⟩⟩) ∧
  decodeTableWord 32 0x2C000000 = some (.halt ⟨⟨false, false, 0⟩⟩) ∧
  decodeTableWord 32 0x6C00C003 = some (.liC ⟨⟨false, false, 0⟩, 3, 3⟩) ∧
  decodeTableWord 32 0x1800C0A0 = some (.loop ⟨⟨false, false, 0⟩, 3, 5⟩)

/-- 04 R77 to R85: decoding the words of any well-formed instruction, with every operand at every value its encoding admits, gives the
instruction back.
Every slot operation has an encoding; an event has none. -/
def Obligations.DecodeOfEncodeIsTheInstruction : Prop :=
  (∀ (i : Instr) (t : SlotWord), Instr.wf i = true → encode i = some t → t.decode = .ok i) ∧
  (∀ (i : Instr), Instr.wf i = true → ((encode i).isSome = true ↔ (Instr.guard i).isSome = true))

/-- The invariant holds after reset (14 R326 step 5: home memory is zero). -/
def Obligations.ResetMeetsTheInvariant : Prop :=
  State.reset.Inv

/-- Every step keeps the home memory in its canonical form: addresses strictly rise, and no byte is listed that is the zero an unlisted address reads as. -/
def Obligations.StepKeepsTheInvariant : Prop :=
  ∀ (s t : State), s.Inv → step s = .next t → t.Inv

/-- No step of the machine stops, as long as every core that issues has its context. -/
def Obligations.StepNeverStops : Prop :=
  ∀ (s : State), (∀ c k n, s.core? c = some k → k.issuing = some n → (k.ctx? n).isSome = true) → goesOn (step s) = true

/-! ## Operations on registers -/

/-- 03 R52, R53, 12 R300: an operation of integer, predicate or vector arithmetic that performs changes its destination register, what the scoreboard and the
watch table keep, and nothing else: no other register, context or core, no special register, no byte of memory. -/
def Obligations.RegisterOperationsWriteOnlyTheirDestination : Prop :=
  ∀ (i : Instr) (s t : State) (k : Core) (n : Nat) (x : Ctx), i.registersOnly = true → s.issues k n x → exec i s = .next t → t.bun = s.bun →
    WritesOnly s t s.cur n (Instr.uses i).writes

/-- 03 R54: x0, y0 and c0 read as zero and pk0, pi0 and pv0 as all ones, without poison, and a write to one of them is discarded. -/
def Obligations.HardwiredRegisters : Prop :=
  ∀ (r : Regs) (v : RV) (p : PV),
    r.getX 0 = ⟨0, false⟩ ∧ r.getY 0 = ⟨0, false⟩ ∧ r.getC 0 = ⟨0, false⟩ ∧
    r.getPk 0 = ⟨0xFFFFFFFF, false⟩ ∧ r.getPi 0 = ⟨0xFFFFFFFF, false⟩ ∧ r.getPv 0 = ⟨0xFFFFFFFF, false⟩ ∧
    r.setX 0 v = r ∧ r.setY 0 v = r ∧ r.setC 0 v = r ∧ r.setPk 0 p = r ∧ r.setPi 0 p = r ∧ r.setPv 0 p = r

/-- 03 R52, R55, scalar slots: an instruction of a scalar slot whose guard fails has no effect of any kind: every one of the C, I0, I1, M, Q and Y slots but for
the transfers of control (03 R61, R63) and MFSR and MTSR, for which statements of their own say what a failing guard leaves. -/
def Obligations.FailingGuardHasNoEffect : Prop :=
  ∀ (s : State) (k : Core) (n : Nat) (x : Ctx) (i : Instr) (g : Guard) (b : Bank) (late : Bool), s.issues k n x →
    Instr.guard i = some g → Instr.scalarGuard i = some (b, late) → Guard.ok g b (if late then s.bun.oldM else s.bun.old) = false → exec i s = .next s

/-- 15 R337, R341, 17 R420, R449, 18 R465: integer arithmetic and logic on two registers. D takes Fit of the exact result, with the poison of what was read.
18 R465, 16 R376, 15 R337: shifts by the whole second register (a count of the width or more shifts everything out), the rotation, and the operations on one register. -/
def Obligations.IntegerResults : Prop :=
  (∀ (s : State) (k : Core) (n : Nat) (x : Ctx) (o : OpIA), s.issues k n x → s.passes o.g .pi →
     let a := s.bun.old.getI o.sl o.a
     let b := s.bun.old.getI o.sl o.b
     let i := IType.int o.t a.v
     let j := IType.int o.t b.v
     let w := IType.width o.t
     let gives := fun (v : Word64) (lat : Nat) =>
       Host.Outcome.next (φ := Fault) (ρ := Refusal) (s.writeXY (ISlot.y o.sl) o.d ⟨v, a.p || b.p || Guard.psn o.g .pi s.bun.old⟩ lat)
     exec (.add o) s = gives (IType.fit o.t (ofInt (i + j))) 1 ∧
     exec (.sub o) s = gives (IType.fit o.t (ofInt (i - j))) 1 ∧
     exec (.mul o) s = gives (IType.fit o.t (ofInt (i * j))) 3 ∧
     exec (.mulh o) s = gives (IType.fit o.t (ofInt (i * j / (2 ^ w : Nat)))) 3 ∧
     exec (.and o) s = gives (IType.fit o.t (a.v &&& b.v)) 1 ∧
     exec (.or o) s = gives (IType.fit o.t (a.v ||| b.v)) 1 ∧
     exec (.xor o) s = gives (IType.fit o.t (a.v ^^^ b.v)) 1 ∧
     exec (.andn o) s = gives (IType.fit o.t (a.v &&& ~~~b.v)) 1 ∧
     exec (.min o) s = gives (IType.fit o.t (ofInt (min i j))) 1 ∧
     exec (.max o) s = gives (IType.fit o.t (ofInt (max i j))) 1) ∧
  ((∀ (s : State) (k : Core) (n : Nat) (x : Ctx) (o : OpIA), s.issues k n x → s.passes o.g .pi →
     let a := s.bun.old.getI o.sl o.a
     let b := s.bun.old.getI o.sl o.b
     let w := IType.width o.t
     let c := b.v.toNat
     let low := a.v.toNat % 2 ^ w
     let gives := fun (v : Word64) =>
       Host.Outcome.next (φ := Fault) (ρ := Refusal) (s.writeXY (ISlot.y o.sl) o.d ⟨v, a.p || b.p || Guard.psn o.g .pi s.bun.old⟩ 1)
     (w ≤ c → exec (.shl o) s = gives 0 ∧ exec (.shr o) s = gives 0 ∧
       exec (.sra o) s = gives (if 2 ^ (w - 1) ≤ low then IType.fit o.t (BitVec.allOnes 64) else 0)) ∧
     (c < w → exec (.shl o) s = gives (IType.fit o.t (a.v <<< c)) ∧ exec (.shr o) s = gives (IType.fit o.t (BitVec.ofNat 64 (low / 2 ^ c))) ∧
       exec (.sra o) s = gives (IType.fit o.t (ofInt ((a.v.truncate w).toInt / (2 ^ c : Nat))))) ∧
     (∃ v, exec (.rotl o) s = gives v ∧ IType.fit o.t v = v ∧ ∀ i < w, v.getLsbD ((i + c) % w) = a.v.getLsbD i)) ∧
   (∀ (s : State) (k : Core) (n : Nat) (x : Ctx) (o : OpIA1), s.issues k n x → s.passes o.g .pi →
     let a := s.bun.old.getI o.sl o.a
     let w := IType.width o.t
     let low := a.v.toNat % 2 ^ w
     let gives := fun (v : Word64) =>
       Host.Outcome.next (φ := Fault) (ρ := Refusal) (s.writeXY (ISlot.y o.sl) o.d ⟨v, a.p || Guard.psn o.g .pi s.bun.old⟩ 1)
     (∃ z : Nat, exec (.clz o) s = gives (BitVec.ofNat 64 z) ∧ z ≤ w ∧ low < 2 ^ (w - z) ∧ (z < w → 2 ^ (w - z - 1) ≤ low)) ∧
     exec (.popc o) s = gives (IType.fit o.t (BitVec.ofNat 64 ((List.range w).countP fun i => a.v.getLsbD i))) ∧
     (o.t.signed = true → exec (.abs o) s = gives (IType.fit o.t (ofInt (Int.natAbs (IType.int o.t a.v)))))))

/-- 16 R381, R382, 18 R485: DIV truncates toward zero, REM takes the dividend's sign, a zero divisor gives all ones and the dividend; a slot's
divider is busy for 20 cycles, and a divide that finds it busy stalls its bundle. -/
def Obligations.DivideResults : Prop :=
  ∀ (s : State) (k : Core) (n : Nat) (x : Ctx) (o : OpIA), s.issues k n x → s.passes o.g .pi →
    let a := s.bun.old.getI o.sl o.a
    let b := s.bun.old.getI o.sl o.b
    let i := IType.int o.t a.v
    let j := IType.int o.t b.v
    let busy := if ISlot.y o.sl then k.div1 else k.div0
    let gives := fun (v : Word64) =>
      Host.Outcome.next (φ := Fault) (ρ := Refusal)
        ((s.writeXY (ISlot.y o.sl) o.d ⟨v, a.p || b.p || Guard.psn o.g .pi s.bun.old⟩ 20).updCore s.cur fun k =>
          if ISlot.y o.sl then { k with div1 := s.cycle + 20 } else { k with div0 := s.cycle + 20 })
    (s.cycle < busy → exec (.div o) s = .next s.stall ∧ exec (.rem o) s = .next s.stall) ∧
    (busy ≤ s.cycle → j ≠ 0 → exec (.div o) s = gives (IType.fit o.t (ofInt (Int.tdiv i j))) ∧ exec (.rem o) s = gives (IType.fit o.t (ofInt (Int.tmod i j)))) ∧
    (busy ≤ s.cycle → j = 0 → exec (.div o) s = gives (IType.fit o.t (BitVec.allOnes 64)) ∧ exec (.rem o) s = gives (IType.fit o.t (ofInt i)))

/-- 15 R345, R350, 16 R410 to R412, 18 R492, 19 R551: immediates, address arithmetic, bit fields, selection and moves of the I slots.
15 R345, 16 R411, 19 R551: the arithmetic of the C slot. That a poisoned guard poisons the result, that of LI too, is 12 R300 as the model reads it (log entry 34,
DEDUCED). -/
def Obligations.ImmediateFieldAndMoveResults : Prop :=
  (∀ (s : State) (k : Core) (n : Nat) (x : Ctx), s.issues k n x →
     let r := s.bun.old
     let gives := fun (sl : ISlot) (g : Guard) (d : Reg5) (v : Word64) (p : Bool) (lat : Nat) =>
       Host.Outcome.next (φ := Fault) (ρ := Refusal) (s.writeXY (ISlot.y sl) d ⟨v, p || Guard.psn g .pi r⟩ lat)
     (∀ o : OpIB, s.passes o.g .pi → exec (.addiI o) s = gives o.sl o.g o.d ((r.getI o.sl o.a).v + o.imm.signExtend 64) (r.getI o.sl o.a).p 1) ∧
     (∀ o : OpIB64, s.passes o.g .pi → exec (.addiI64 o) s = gives o.sl o.g o.d ((r.getI o.sl o.a).v + o.imm.signExtend 64) (r.getI o.sl o.a).p 1) ∧
     (∀ o : OpIU, s.passes o.g .pi → exec (.liI o) s = gives o.sl o.g o.d (o.imm.signExtend 64) false 1 ∧
       exec (.lih o) s = gives o.sl o.g o.d (((o.imm.signExtend 64).extractLsb' 0 32) ++ ((r.getI o.sl o.d).v.extractLsb' 0 32)) (r.getI o.sl o.d).p 1) ∧
     (∀ o : OpIU64, s.passes o.g .pi → exec (.liI64 o) s = gives o.sl o.g o.d (o.imm.signExtend 64) false 1 ∧
       exec (.lih64 o) s = gives o.sl o.g o.d (o.imm ++ ((r.getI o.sl o.d).v.extractLsb' 0 32)) (r.getI o.sl o.d).p 1) ∧
     (∀ o : OpLea, s.passes o.g .pi → exec (.lea o) s = gives o.sl o.g o.d ((r.getI o.sl o.a).v + ((r.getI o.sl o.b).v <<< o.sh.toNat))
       ((r.getI o.sl o.a).p || (r.getI o.sl o.b).p) 1) ∧
     (∀ o : OpLea64, s.passes o.g .pi → exec (.lea64 o) s = gives o.sl o.g o.d
       ((r.getI o.sl o.a).v + ((r.getI o.sl o.b).v <<< o.sh.toNat) + o.off.signExtend 64) ((r.getI o.sl o.a).p || (r.getI o.sl o.b).p) 1) ∧
     (∀ o : OpSel, s.passes o.g .pi → let p := r.getPi o.p.toNat
       exec (.sel o) s = gives o.sl o.g o.d (if p.v.getLsbD 0 then (r.getI o.sl o.a).v else (r.getI o.sl o.b).v)
         (p.p || (r.getI o.sl o.a).p || (r.getI o.sl o.b).p) 1) ∧
     (∀ o : OpSel64, s.passes o.g .pi → let p := r.getPi o.p.toNat
       exec (.sel64 o) s = gives o.sl o.g o.d (if p.v.getLsbD 0 then (r.getI o.sl o.a).v else (r.getI o.sl o.b).v)
         (p.p || (r.getI o.sl o.a).p || (r.getI o.sl o.b).p) 1) ∧
     (∀ o : OpXmovI, s.passes o.g .pi → exec (.xmovI o) s = gives o.sl o.g o.d (r.getFile o.sf o.a).v (r.getFile o.sf o.a).p 2) ∧
     (∀ o : OpBfx, s.passes o.g .pi → let b := (r.getI o.sl o.b).v
       ∃ v, exec (.bfx o) s = gives o.sl o.g o.d v ((r.getI o.sl o.a).p || (r.getI o.sl o.b).p) 1 ∧
         (∀ i < bitsOf b 8 6 + 1, v.getLsbD i = (r.getI o.sl o.a).v.getLsbD (bitsOf b 0 6 + i)) ∧
         ∀ i < 64, bitsOf b 8 6 < i → v.getLsbD i = (o.sx && (r.getI o.sl o.a).v.getLsbD (bitsOf b 0 6 + bitsOf b 8 6))) ∧
     (∀ o : OpBfxImm, s.passes o.g .pi →
       ∃ v, exec (.bfxImm o) s = gives o.sl o.g o.d v (r.getI o.sl o.a).p 1 ∧
         (∀ i < o.lm1.toNat + 1, v.getLsbD i = (r.getI o.sl o.a).v.getLsbD (o.pos.toNat + i)) ∧
         ∀ i < 64, o.lm1.toNat < i → v.getLsbD i = (o.sx && (r.getI o.sl o.a).v.getLsbD (o.pos.toNat + o.lm1.toNat))) ∧
     (∀ o : OpBfi, s.passes o.g .pi → let b := (r.getI o.sl o.b).v
       ∃ v, exec (.bfi o) s = gives o.sl o.g o.d v ((r.getI o.sl o.a).p || (r.getI o.sl o.b).p || (r.getI o.sl o.d).p) 1 ∧
         ∀ i < 64, v.getLsbD i = if bitsOf b 0 6 ≤ i ∧ i < bitsOf b 0 6 + bitsOf b 8 6 + 1 then (r.getI o.sl o.a).v.getLsbD (i - bitsOf b 0 6)
           else (r.getI o.sl o.d).v.getLsbD i) ∧
     (∀ o : OpBfiImm, s.passes o.g .pi →
       ∃ v, exec (.bfiImm o) s = gives o.sl o.g o.d v ((r.getI o.sl o.d).p || (r.getI o.sl o.a).p) 1 ∧
         ∀ i < 64, v.getLsbD i = if o.pos.toNat ≤ i ∧ i < o.pos.toNat + o.lm1.toNat + 1 then (r.getI o.sl o.a).v.getLsbD (i - o.pos.toNat)
           else (r.getI o.sl o.d).v.getLsbD i)) ∧
  (∀ (s : State) (k : Core) (n : Nat) (x : Ctx), s.issues k n x →
     let r := s.bun.old
     let gives := fun (g : Guard) (d : CReg) (v : Word64) (p : Bool) (lat : Nat) =>
       Host.Outcome.next (φ := Fault) (ρ := Refusal) (s.writeC d ⟨v, p || Guard.psn g .pk r⟩ lat)
     (∀ o : OpAddiC, s.passes o.g .pk → exec (.addiC o) s = gives o.g o.d ((r.getC o.a.toNat).v + o.imm.signExtend 64) (r.getC o.a.toNat).p 1) ∧
     (∀ o : OpAddiC64, s.passes o.g .pk → exec (.addiC64 o) s = gives o.g o.d ((r.getC o.a.toNat).v + o.imm.signExtend 64) (r.getC o.a.toNat).p 1) ∧
     (∀ o : OpLiC, s.passes o.g .pk → exec (.liC o) s = gives o.g o.d (o.imm.signExtend 64) false 1) ∧
     (∀ o : OpLiC64, s.passes o.g .pk → exec (.liC64 o) s = gives o.g o.d (o.imm.signExtend 64) false 1) ∧
     (∀ o : OpXmovC, s.passes o.g .pk → exec (.xmovC o) s = gives o.g o.d (r.getFile o.sf o.a).v (r.getFile o.sf o.a).p 2))

/-- 16 R379: CMP writes all ones to its predicate where A < B, signed for the .i types and unsigned for the .n types, else zero; CMPI where A
equals the sign-extended immediate.
18 R468, 12 R300: the predicate operations of the C, I0 and I1 slots write every bit of their predicate, poisoned where a source or the guard is.
03 R52, 18 R468: the predicate operations of the F slot write bit by bit: a bit whose guard fails keeps its old value (the poison of such a predicate is not stated). -/
def Obligations.ComparisonAndPredicateResults : Prop :=
  (∀ (s : State) (k : Core) (n : Nat) (x : Ctx), s.issues k n x →
     let r := s.bun.old
     let gives := fun (b : Bank) (g : Guard) (d : Reg5) (v : Prop) (_ : Decidable v) (p : Bool) =>
       Host.Outcome.next (φ := Fault) (ρ := Refusal) (s.writeP b d ⟨if v then 0xFFFFFFFF else 0, p || Guard.psn g b r⟩ 1)
     (∀ o : OpIA, s.passes o.g .pi → exec (.cmpI o) s =
       gives .pi o.g o.d (IType.int o.t (r.getI o.sl o.a).v < IType.int o.t (r.getI o.sl o.b).v) inferInstance ((r.getI o.sl o.a).p || (r.getI o.sl o.b).p)) ∧
     (∀ o : OpIB, s.passes o.g .pi → exec (.cmpiI o) s = gives .pi o.g o.d ((r.getI o.sl o.a).v = o.imm.signExtend 64) inferInstance (r.getI o.sl o.a).p) ∧
     (∀ o : OpIB64, s.passes o.g .pi → exec (.cmpiI64 o) s = gives .pi o.g o.d ((r.getI o.sl o.a).v = o.imm.signExtend 64) inferInstance (r.getI o.sl o.a).p) ∧
     (∀ o : OpCmpC, s.passes o.g .pk → exec (.cmpC o) s =
       gives .pk o.g o.d (IType.int o.t (r.getC o.a.toNat).v < IType.int o.t (r.getC o.b.toNat).v) inferInstance ((r.getC o.a.toNat).p || (r.getC o.b.toNat).p)) ∧
     (∀ o : OpCmpiC, s.passes o.g .pk → exec (.cmpiC o) s = gives .pk o.g o.d ((r.getC o.a.toNat).v = o.imm.signExtend 64) inferInstance (r.getC o.a.toNat).p) ∧
     (∀ o : OpCmpiC64, s.passes o.g .pk → exec (.cmpiC64 o) s = gives .pk o.g o.d ((r.getC o.a.toNat).v = o.imm.signExtend 64) inferInstance (r.getC o.a.toNat).p)) ∧
  (∀ (s : State) (k : Core) (n : Nat) (x : Ctx), s.issues k n x →
     let r := s.bun.old
     let gives := fun (b : Bank) (g : Guard) (d : Reg5) (v : Word32) (p : Bool) (lat : Nat) =>
       Host.Outcome.next (φ := Fault) (ρ := Refusal) (s.writeP b d ⟨v, p || Guard.psn g b r⟩ lat)
     (∀ o : OpP3C, s.passes o.g .pk → let a := r.getPk o.a.toNat; let b := r.getPk o.b.toNat
       exec (.pandC o) s = gives .pk o.g o.d (a.v &&& b.v) (a.p || b.p) 1 ∧ exec (.porC o) s = gives .pk o.g o.d (a.v ||| b.v) (a.p || b.p) 1 ∧
       exec (.pxorC o) s = gives .pk o.g o.d (a.v ^^^ b.v) (a.p || b.p) 1) ∧
     (∀ o : OpP2C, s.passes o.g .pk → exec (.pnotC o) s = gives .pk o.g o.d (~~~(r.getPk o.a.toNat).v) (r.getPk o.a.toNat).p 1) ∧
     (∀ o : OpPsetC, s.passes o.g .pk → exec (.psetC o) s = gives .pk o.g o.d (o.imm.signExtend 32) false 1) ∧
     (∀ o : OpPsetC64, s.passes o.g .pk → exec (.psetC64 o) s = gives .pk o.g o.d o.imm false 1) ∧
     (∀ o : OpPmovC, s.passes o.g .pk → exec (.pmovC o) s = gives .pk o.g o.d (r.getP o.sf o.a.toNat).v (r.getP o.sf o.a.toNat).p 2) ∧
     (∀ o : OpP3, o.sl ≠ .f → s.passes o.g .pi → let a := r.getPi o.a.toNat; let b := r.getPi o.b.toNat
       exec (.pandIF o) s = gives .pi o.g o.d (a.v &&& b.v) (a.p || b.p) 1 ∧ exec (.porIF o) s = gives .pi o.g o.d (a.v ||| b.v) (a.p || b.p) 1 ∧
       exec (.pxorIF o) s = gives .pi o.g o.d (a.v ^^^ b.v) (a.p || b.p) 1) ∧
     (∀ o : OpP2, o.sl ≠ .f → s.passes o.g .pi → exec (.pnotIF o) s = gives .pi o.g o.d (~~~(r.getPi o.a.toNat).v) (r.getPi o.a.toNat).p 1) ∧
     (∀ o : OpPset, o.sl ≠ .f → s.passes o.g .pi → exec (.psetIF o) s = gives .pi o.g o.d (o.imm.signExtend 32) false 1) ∧
     (∀ o : OpPset64, o.sl ≠ .f → s.passes o.g .pi → exec (.psetIF64 o) s = gives .pi o.g o.d o.imm false 1) ∧
     (∀ o : OpPmov, o.sl ≠ .f → s.passes o.g .pi → exec (.pmovIF o) s = gives .pi o.g o.d (r.getP o.sf o.a.toNat).v (r.getP o.sf o.a.toNat).p 2)) ∧
  (∀ (s : State) (k : Core) (n : Nat) (x : Ctx), s.issues k n x →
     let r := s.bun.old
     let bits := fun (i : Instr) (g : Guard) (d : Reg5) (lat : Nat) (v : Word32) =>
       ∃ q : PV, exec i s = .next (s.writeP .pv d q lat) ∧
         ∀ j < 32, q.v.getLsbD j = if g.ge = false ∨ (r.getPv g.gp.toNat).v.getLsbD j ≠ g.gs then v.getLsbD j else (r.getPv d.toNat).v.getLsbD j
     (∀ o : OpP3, o.sl = .f → let a := (r.getPv o.a.toNat).v; let b := (r.getPv o.b.toNat).v
       bits (.pandIF o) o.g o.d 1 (a &&& b) ∧ bits (.porIF o) o.g o.d 1 (a ||| b) ∧ bits (.pxorIF o) o.g o.d 1 (a ^^^ b)) ∧
     (∀ o : OpP2, o.sl = .f → bits (.pnotIF o) o.g o.d 1 (~~~(r.getPv o.a.toNat).v)) ∧
     (∀ o : OpPset, o.sl = .f → bits (.psetIF o) o.g o.d 1 (o.imm.signExtend 32)) ∧
     (∀ o : OpPset64, o.sl = .f → bits (.psetIF64 o) o.g o.d 1 o.imm) ∧
     (∀ o : OpPmov, o.sl = .f → bits (.pmovIF o) o.g o.d 2 (r.getP o.sf o.a.toNat).v))

/-! ## Vector operations -/

/-- 19 R517, R521, 05 R98, 03 R52: element by element, a passing lane takes the exact result rounded once, a failing lane keeps its old value.
12 R300: a passing lane is poisoned where a lane that it reads is, or the guard; a failing lane keeps its poison. (That a poisoned guard poisons what it writes is read from 12 R300:
log entry 34, DEDUCED.)
05 R97, R100, R101, R114 to R118, 19 R521, R536: functions and conversions of one element. -/
def Obligations.VectorElementResults : Prop :=
  (∀ (s : State) (k : Core) (n : Nat) (x : Ctx), s.issues k n x →
     let r := s.bun.old
     let lane := fun (a : Reg5) (j : Nat) => (r.getV a.toNat).p.getLsbD j
     let ends := fun (i : Instr) (g : Guard) (d : Reg5) (t : FType) (lat : Nat) (p : Nat → Bool) (f : Nat → Nat) =>
       ∃ v : VV, exec i s = .next (s.writeV d v lat (Guard.lanes g r)) ∧
         (∀ e < FType.count t, v.elem t e = if (Guard.lanes g r).getLsbD (FType.laneOf t e) then f e % 2 ^ (if t = .f32 then 32 else 16)
           else (r.getV d.toNat).elem t e) ∧
         ∀ j < 32, v.p.getLsbD j = if (Guard.lanes g r).getLsbD j then p j || Guard.psn g .pv r else lane d j
     (∀ o : OpV2, let a := fun e => FType.val o.ft ((r.getV o.a.toNat).elem o.ft e); let b := fun e => FType.val o.ft ((r.getV o.b.toNat).elem o.ft e)
       ends (.vadd o) o.g o.d o.ft 4 (fun j => lane o.a j || lane o.b j) (fun e => FType.rnd o.ft ((a e).add (b e))) ∧
       ends (.vsub o) o.g o.d o.ft 4 (fun j => lane o.a j || lane o.b j) (fun e => FType.rnd o.ft ((a e).add (b e).neg)) ∧
       ends (.vmul o) o.g o.d o.ft 4 (fun j => lane o.a j || lane o.b j) (fun e => FType.rnd o.ft ((a e).mul (b e))) ∧
       ends (.vmax o) o.g o.d o.ft 2 (fun j => lane o.a j || lane o.b j) (fun e => FType.rnd o.ft ((a e).max (b e))) ∧
       ends (.vmin o) o.g o.d o.ft 2 (fun j => lane o.a j || lane o.b j) (fun e => FType.rnd o.ft ((a e).min (b e))) ∧
       ends (.vldexp o) o.g o.d o.ft 4 (fun j => lane o.a j || lane o.b j) (fun e => FType.rnd o.ft (ldexpVal (a e) (b e)))) ∧
     (∀ o : OpV3, let a := fun e => FType.val o.ft ((r.getV o.a.toNat).elem o.ft e); let b := fun e => FType.val o.ft ((r.getV o.b.toNat).elem o.ft e)
       let c := fun e => FType.val o.ft ((r.getV o.c.toNat).elem o.ft e)
       ends (.vfma o) o.g o.d o.ft 4 (fun j => lane o.a j || lane o.b j || lane o.c j) (fun e => FType.rnd o.ft (((a e).mul (b e)).add (c e))) ∧
       ends (.vfms o) o.g o.d o.ft 4 (fun j => lane o.a j || lane o.b j || lane o.c j) (fun e => FType.rnd o.ft (((a e).mul (b e)).add (c e).neg)))) ∧
  (∀ (s : State) (k : Core) (n : Nat) (x : Ctx), s.issues k n x →
     let r := s.bun.old
     let lane := fun (a : Reg5) (j : Nat) => (r.getV a.toNat).p.getLsbD j
     let ends := fun (i : Instr) (g : Guard) (d : Reg5) (t : FType) (lat : Nat) (p : Nat → Bool) (f : Nat → Nat) =>
       ∃ v : VV, exec i s = .next (s.writeV d v lat (Guard.lanes g r)) ∧
         (∀ e < FType.count t, v.elem t e = if (Guard.lanes g r).getLsbD (FType.laneOf t e) then f e % 2 ^ (if t = .f32 then 32 else 16)
           else (r.getV d.toNat).elem t e) ∧
         ∀ j < 32, v.p.getLsbD j = if (Guard.lanes g r).getLsbD j then p j || Guard.psn g .pv r else lane d j
     let src := fun (a : Reg5) (t : FType) (e : Nat) => (r.getV a.toNat).elem t e
     let viaF32 := fun (t : FType) (f : Word32 → Word32) (c : Nat) => match t with | .f32 => (f (BitVec.ofNat 32 c)).toNat | .bf16 => rne16 (f (widen c))
     (∀ o : OpV1, let c := src o.a o.ft
       ends (.vabs o) o.g o.d o.ft 2 (lane o.a) (fun e => if (FType.val o.ft (c e)).isNan then (FType.fmt o.ft).nanCode else c e % (if o.ft = .f32 then 2 ^ 31 else 2 ^ 15)) ∧
       ends (.vneg o) o.g o.d o.ft 2 (lane o.a) (fun e => if (FType.val o.ft (c e)).isNan then (FType.fmt o.ft).nanCode
         else c e + (if o.ft = .f32 then 2 ^ 31 else 2 ^ 15)) ∧
       ends (.vexp2 o) o.g o.d o.ft 16 (lane o.a) (fun e => viaF32 o.ft exp2 (c e)) ∧ ends (.vlog2 o) o.g o.d o.ft 16 (lane o.a) (fun e => viaF32 o.ft log2 (c e)) ∧
       ends (.vrcp o) o.g o.d o.ft 16 (lane o.a) (fun e => viaF32 o.ft rcp (c e)) ∧ ends (.vrsq o) o.g o.d o.ft 16 (lane o.a) (fun e => viaF32 o.ft rsq (c e))) ∧
     (∀ o : OpVS, ends (.vrnd o) o.g o.d o.ft 4 (lane o.a) (fun e => FType.rnd o.ft (integral .rne (FType.val o.ft (src o.a o.ft e)))) ∧
       ends (.vbcast o) o.g o.d o.ft 2 (fun _ => lane o.a 0) (fun _ => src o.a o.ft 0)) ∧
     (∀ o : OpVrnd64, ends (.vrnd64 o) o.g o.d o.ft 4 (lane o.a) (fun e => FType.rnd o.ft (integral (rmodeOf o.rm.toNat) (FType.val o.ft (src o.a o.ft e))))) ∧
     (∀ o : OpVcvt, ends (.vcvt o) o.g o.d o.ft 4 (lane o.a) (fun e => FType.rnd o.ft (convertVal o.tt o.cc (FType.val o.ft (src o.a o.ft e))))) ∧
     (∀ o : OpVpack, let packed := fun j => if j < 16 then lane o.a (2 * j) || lane o.a (2 * j + 1) else lane o.b (2 * j - 32) || lane o.b (2 * j - 31)
       ends (.vpack o) o.g o.d .bf16 4 packed
       (fun e => bf16.convert (rmodeOf 0) false (f32 (BitVec.ofNat 32 (if e < 32 then src o.a .f32 e else src o.b .f32 (e - 32)))))) ∧
     (∀ o : OpVpack64, let packed := fun j => if j < 16 then lane o.a (2 * j) || lane o.a (2 * j + 1) else lane o.b (2 * j - 32) || lane o.b (2 * j - 31)
       ends (.vpack64 o) o.g o.d .bf16 4 packed
       (fun e => bf16.convert (rmodeOf (bitsOf o.cc 0 2)) (o.cc.getLsbD 2) (f32 (BitVec.ofNat 32 (if e < 32 then src o.a .f32 e else src o.b .f32 (e - 32)))))) ∧
     (∀ o : OpVunpk, ends (.vunpk o) o.g o.d .f32 4 (fun j => lane o.a (16 * bitN o.h + j / 2)) (fun e => FType.rnd .f32 (FType.val .bf16 (src o.a .bf16 (32 * bitN o.h + e))))))

/-- 19 R525, R531, R549: the operations that move elements: VBCAST with an index, VIOTA, VMOV, VPERM, VSEL, VCSWAP.
05 R106, R107, 19 R528, R547: tests into a predicate, reductions and prefixes; a lane whose guard fails counts as the operation's identity.
12 R300, 19 R525, R528, R531, R547, R549: the poison of each lane and predicate that they write. (A poisoned guard: log entry 34, DEDUCED.) -/
def Obligations.VectorMoveTestAndReductionResults : Prop :=
  (∀ (s : State) (k : Core) (n : Nat) (x : Ctx), s.issues k n x →
     let r := s.bun.old
     let lane := fun (a : Reg5) (j : Nat) => (r.getV a.toNat).p.getLsbD j
     let ends := fun (i : Instr) (g : Guard) (d : Reg5) (t : FType) (p : Nat → Bool) (f : Nat → Nat) =>
       ∃ v : VV, exec i s = .next (s.writeV d v 2 (Guard.lanes g r)) ∧
         (∀ e < FType.count t, v.elem t e = if (Guard.lanes g r).getLsbD (FType.laneOf t e) then f e % 2 ^ (if t = .f32 then 32 else 16)
           else (r.getV d.toNat).elem t e) ∧
         ∀ j < 32, v.p.getLsbD j = if (Guard.lanes g r).getLsbD j then p j || Guard.psn g .pv r else lane d j
     let src := fun (a : Reg5) (t : FType) (e : Nat) => (r.getV a.toNat).elem t e
     (∀ o : OpVbcast64, ends (.vbcast64 o) o.g o.d o.ft (fun _ => lane o.a (FType.laneOf o.ft o.idx.toNat)) (fun _ => src o.a o.ft o.idx.toNat)) ∧
     (∀ o : OpViota, ends (.viota o) o.g o.d o.ft (fun _ => false) (fun e => FType.rnd o.ft (Val.ofInt e))) ∧
     (∀ o : OpVmov, ends (.vmov o) o.g o.d .f32 (lane o.a) (fun e => src o.a .f32 e)) ∧
     (∀ o : OpV2, let index := fun e => (FType.val o.ft (src o.b o.ft e)).toRange .rtz (-(2 ^ 31 : Int)) (2 ^ 31 - 1)
       ends (.vperm o) o.g o.d o.ft (fun j => (List.range (FType.count o.ft)).any fun e => FType.laneOf o.ft e == j &&
         (lane o.b j || (decide (0 ≤ index e) && decide (index e < FType.count o.ft) && lane o.a (FType.laneOf o.ft (index e).toNat)))) (fun e =>
       let m := index e
       if 0 ≤ m ∧ m < FType.count o.ft then src o.a o.ft m.toNat else 0)) ∧
     (∀ o : OpVsel, ends (.vsel o) o.g o.d .f32 (fun j => (r.getPv o.p.toNat).p || (if (r.getPv o.p.toNat).v.getLsbD j then lane o.a j else lane o.b j))
       (fun e => if (r.getPv o.p.toNat).v.getLsbD e then src o.a .f32 e else src o.b .f32 e)) ∧
     (∀ o : OpVcswap,
       let keys := if o.fol then o.b else o.a
       let first := fun (e : Nat) => if e / 2 ^ o.logd.toNat % 2 = 0 then e else e - 2 ^ o.logd.toNat
       let second := fun (e : Nat) => first e + 2 ^ o.logd.toNat
       -- the element that element e takes
       let takes := fun (e : Nat) =>
         let i := first e
         let p := second e
         let desc := if o.logb = 0 then o.desc else xor o.desc (decide (i / 2 ^ o.logb.toNat % 2 = 1))
         let key := fun j => totalKey (FType.fmt o.ft) (src keys o.ft j)
         let swap := if desc then decide (key i < key p) else decide (key p < key i)
         if swap then (if e = i then p else i) else e
       ends (.vcswap o) o.g o.d o.ft (fun j => (List.range (FType.count o.ft)).any fun e => FType.laneOf o.ft e == j &&
         (lane o.a (FType.laneOf o.ft (takes e)) || lane keys (FType.laneOf o.ft (first e)) || lane keys (FType.laneOf o.ft (second e))))
         (fun e => src o.a o.ft (takes e)))) ∧
  (∀ (s : State) (k : Core) (n : Nat) (x : Ctx), s.issues k n x →
     let r := s.bun.old
     let lane := fun (a : Reg5) (j : Nat) => (r.getV a.toNat).p.getLsbD j
     -- a predicate is poisoned where a bit written derives from poison or the guard is poisoned, and where it was and keeps a bit
     let bits := fun (i : Instr) (g : Guard) (d : Reg5) (p : Nat → Bool) (f : Nat → Bool) =>
       ∃ q : PV, exec i s = .next (s.writeP .pv d q 2) ∧
         (∀ j < 32, q.v.getLsbD j = if (Guard.lanes g r).getLsbD j then f j else (r.getPv d.toNat).v.getLsbD j) ∧
         (q.p = true ↔ (∃ j < 32, (Guard.lanes g r).getLsbD j = true ∧ (p j = true ∨ Guard.psn g .pv r = true)) ∨
           ((r.getPv d.toNat).p = true ∧ ∃ j < 32, (Guard.lanes g r).getLsbD j = false))
     let val := fun (a : Reg5) (t : FType) (h : Bool) (j : Nat) =>
       FType.val t ((r.getV a.toNat).elem t (if t = .f32 then j else 2 * j + bitN h))
     let leaves := fun (o : OpVred) => (List.range (FType.count o.ft)).map fun e =>
       if (Guard.lanes o.g r).getLsbD (FType.laneOf o.ft e) then
         (match o.ft with | .f32 => BitVec.ofNat 32 ((r.getV o.a.toNat).elem .f32 e) | .bf16 => widen ((r.getV o.a.toNat).elem .bf16 e))
       else RedOp.unit o.op
     let code := fun (t : FType) (w : Word32) => match t with | .f32 => w.toNat | .bf16 => rne16 w
     -- the poison of the elements below a number whose guard passes
     let below := fun (o : OpVred) (m : Nat) => Guard.psn o.g .pv r || (List.range m).any fun e =>
       (Guard.lanes o.g r).getLsbD (FType.laneOf o.ft e) && lane o.a (FType.laneOf o.ft e)
     let all := fun (i : Instr) (d : Reg5) (t : FType) (lat : Nat) (p : Nat → Bool) (f : Nat → Nat) =>
       ∃ v : VV, exec i s = .next (s.writeV d v lat (BitVec.allOnes 32)) ∧ (∀ e < FType.count t, v.elem t e = f e % 2 ^ (if t = .f32 then 32 else 16)) ∧
         ∀ j < 32, v.p.getLsbD j = p j
     (∀ o : OpVcmp, bits (.vcmp o) o.g o.d (fun j => lane o.a j || lane o.b j) (fun j => VCond.holds o.cc (val o.a o.ft o.h j) (val o.b o.ft o.h j))) ∧
     (∀ o : OpVclass, bits (.vclass o) o.g o.d (lane o.a) (fun j => o.mask.getLsbD (classOf o.ft (val o.a o.ft o.h j)))) ∧
     (∀ o : OpVred, all (.vred o) o.d o.ft 10 (fun _ => below o (FType.count o.ft)) (fun _ => code o.ft ((tree (RedOp.fn o.op) 6 (leaves o)).headD 0)) ∧
       all (.vscan o) o.d o.ft 12 (fun j => below o (if o.ft = .f32 then j + 1 else 2 * j + 2)) (fun e => code o.ft
         (((match o.ft with | .f32 => [1, 2, 4, 8, 16] | .bf16 => [1, 2, 4, 8, 16, 32]).foldl (fun l d => scanStep (RedOp.fn o.op) d l) (leaves o)).getD e 0))))

/-! ## Control transfers, traps and the end of a task -/

/-- 03 R61, R68, 04 R81, 15 R354, R355, 16 R360, R361: BR, BRC and CALL outside a delay window open one of two delay bundles, taken where the guard (and for BRC
its test) holds, to the bundle's address + 4 × DISP; a poisoned guard kills, that of CALL where it passes, and so does a poisoned register of BRC. (That a failing poisoned guard
of CALL and RET kills nothing while that of BR, BRC and MWB kills is 03 R52 and 12 R301 as the model reads them, log entry 34, DEDUCED.)
17 R452, R453, 18 R487: RET and MWB open a window to the address in a c register, which must be aligned and not poisoned; MWB to that of its first test that
holds, or to the one after its tests; one whose guard fails opens a window that is not taken.
03 R61, R62, R68, 16 R360: a delay bundle that is not the last leaves the window open; after the last one the context goes on at the target, where the window is
taken, with the address that follows in c15 for CALL, and in sequence where it is not.
03 R70, R71: where the window closes while levels of the loop nest are open, a taken transfer closes the levels whose body does not hold its target and leaves the others
with their counts; one that is not taken leaves the nest. After the last bundle of the innermost body, which is not the last of the next one, its count goes down, or the
level closes, before the transfer acts (that the back-edge comes before the transfer is log entry 79, DEDUCED).
03 R63: a control transfer in a delay bundle raises DELAY_BRANCH, whatever its guard. -/
def Obligations.BranchesOpenTheirWindow : Prop :=
  (∀ (s : State) (k : Core) (n : Nat) (x : Ctx), s.issues k n x → s.bun.win = none →
     let r := s.bun.old
     let kills := Host.Outcome.next (φ := Fault) (ρ := Refusal) (s.poisonKill 1 0)
     let opens := fun (tkn : Bool) (disp : Int) (call : Bool) =>
       Host.Outcome.next (φ := Fault) (ρ := Refusal)
         (s.updCtx s.cur n fun x => { x with win := some ⟨2, tkn, s.bun.pc + BitVec.ofInt 52 (4 * disp), call⟩ })
     (∀ o : OpJ, Guard.psn o.g .pk r = false → exec (.br o) s = opens (Guard.ok o.g .pk r) o.disp.toInt false ∧
       exec (.call o) s = opens (Guard.ok o.g .pk r) o.disp.toInt true) ∧
     (∀ o : OpJ64, Guard.psn o.g .pk r = false → exec (.br64 o) s = opens (Guard.ok o.g .pk r) o.disp.toInt false ∧
       exec (.call64 o) s = opens (Guard.ok o.g .pk r) o.disp.toInt true) ∧
     (∀ o : OpK, Guard.psn o.g .pk r = false → (r.getC o.a.toNat).p = false →
       exec (.brc o) s = opens (Guard.ok o.g .pk r && Cond.holds o.cc (r.getC o.a.toNat).v) o.disp.toInt false) ∧
     (∀ o : OpK64, Guard.psn o.g .pk r = false → (r.getC o.a.toNat).p = false →
       exec (.brc64 o) s = opens (Guard.ok o.g .pk r && Cond.holds o.cc (r.getC o.a.toNat).v) o.disp.toInt false) ∧
     (∀ o : OpJ, Guard.psn o.g .pk r = true → exec (.br o) s = kills ∧
       exec (.call o) s = if Guard.ok o.g .pk r then kills else opens false o.disp.toInt true) ∧
     (∀ o : OpJ64, Guard.psn o.g .pk r = true → exec (.br64 o) s = kills ∧
       exec (.call64 o) s = if Guard.ok o.g .pk r then kills else opens false o.disp.toInt true) ∧
     (∀ o : OpK, Guard.psn o.g .pk r = true ∨ (r.getC o.a.toNat).p = true → exec (.brc o) s = kills) ∧
     (∀ o : OpK64, Guard.psn o.g .pk r = true ∨ (r.getC o.a.toNat).p = true → exec (.brc64 o) s = kills)) ∧
  (∀ (s : State) (k : Core) (n : Nat) (x : Ctx), s.issues k n x → s.bun.win = none →
     let r := s.bun.old
     let kills := Host.Outcome.next (φ := Fault) (ρ := Refusal) (s.poisonKill 1 0)
     let goes := fun (i : Instr) (v : RV) =>
       (v.p = true → exec i s = kills) ∧
       (v.p = false → v.v.getLsbD 0 = false → v.v.getLsbD 1 = false →
         exec i s = .next (s.updCtx s.cur n fun x => { x with win := some ⟨2, true, v.v.truncate 52, false⟩ })) ∧
       (v.p = false → bitsOf v.v 0 2 ≠ 0 → exec i s = .next (s.trap 0x05 (BitVec.ofNat 64 (bitsOf v.v 0 52))))
     let stays := fun (i : Instr) => exec i s = .next (s.updCtx s.cur n fun x => { x with win := some ⟨2, false, 0, false⟩ })
     (∀ o : OpN, (s.passes o.g .pk → Guard.psn o.g .pk r = false → goes (.ret o) (r.getC 15)) ∧
       (s.passes o.g .pk → Guard.psn o.g .pk r = true → exec (.ret o) s = kills) ∧ (Guard.ok o.g .pk r = false → stays (.ret o))) ∧
     (∀ o : OpMwb, let clean := Guard.psn o.g .pk r = false ∧ ∀ p ∈ OpMwb.tests o, (r.getPk p.1.toNat).p = false
       (s.passes o.g .pk → clean → goes (.mwb o) (r.getC (o.tb.toNat + (OpMwb.tests o).findIdx fun p => (r.getPk p.1.toNat).v.getLsbD 0 != p.2))) ∧
       (Guard.ok o.g .pk r = false → clean → stays (.mwb o)) ∧ (¬clean → exec (.mwb o) s = kills))) ∧
  (∀ (s : State) (c n : Nat) (x : Ctx) (w : Window), s.ctx? c n = some x → s.bun.status = .normal → x.win = some w → x.loops = [] → x.hold = .none →
     let left := match s.bun.win with
       | none => w.left - s.bun.er
       | some _ => w.left - (1 + s.bun.er)
     ∃ x', (s.finish c n).ctx? c n = some x' ∧
       (left ≠ 0 → x'.win = some { w with left := left } ∧ x'.pc = x.pc ∧ x'.regs = x.regs) ∧
       (left = 0 → x'.win = none ∧ x'.pc = (if w.tkn then w.tgt else x.pc) ∧
         (w.tkn = true → w.call = true → Tab.wf RV.zero x.regs.c = true → x'.regs.getC 15 = ⟨x.pc.zeroExtend 64, false⟩ ∧
           ∀ m, m ≠ 15 → x'.regs.getC m = x.regs.getC m) ∧
         (w.tkn = false ∨ w.call = false → x'.regs = x.regs))) ∧
  (∀ (s : State) (c n : Nat) (x : Ctx) (w : Window), s.ctx? c n = some x → s.bun.status = .normal → x.win = some w → x.hold = .none →
     (match s.bun.win with
       | none => w.left - s.bun.er
       | some _ => w.left - (1 + s.bun.er)) = 0 →
     let level := fun (l : LoopLevel) => (l.start, l.size4, l.rem)
     -- the nest and the program counter that follow the bundle in sequence, and what the transfer makes of them
     let closes := fun (nest : List LoopLevel) (pc : VAddr) =>
       ∃ x', (s.finish c n).ctx? c n = some x' ∧ x'.win = none ∧
         (w.tkn = true → x'.pc = w.tgt ∧
           x'.loops.map level = (nest.filter fun l => decide (l.start.toNat ≤ w.tgt.toNat) && decide (w.tgt.toNat < l.start.toNat + 4 * l.size4)).map level ∧
           (w.call = true → Tab.wf RV.zero x.regs.c = true → x'.regs = x.regs.setC 15 ⟨pc.zeroExtend 64, false⟩)) ∧
         (w.tkn = false → x'.pc = pc ∧ x'.loops.map level = nest.map level) ∧
         (w.tkn = false ∨ w.call = false → x'.regs = x.regs)
     let ends := fun (l : LoopLevel) => l.start + BitVec.ofNat 52 (4 * l.size4)
     ((∀ l, x.loops.head? = some l → x.pc ≠ ends l) → closes x.loops x.pc) ∧
     (∀ l ls, x.loops = l :: ls → x.pc = ends l →
       (1 < l.rem → closes ({ l with rem := l.rem - 1 } :: ls) l.start) ∧
       (l.rem ≤ 1 → (∀ m, ls.head? = some m → x.pc ≠ ends m) → closes ls x.pc))) ∧
  (∀ (s : State) (k : Core) (n : Nat) (x : Ctx) (w : Window), s.issues k n x → s.bun.win = some w →
     let traps := Host.Outcome.next (φ := Fault) (ρ := Refusal) (s.trap 0x04 w.brpend)
     (∀ o : OpJ, exec (.br o) s = traps ∧ exec (.call o) s = traps) ∧ (∀ o : OpJ64, exec (.br64 o) s = traps ∧ exec (.call64 o) s = traps) ∧
     (∀ o : OpN, exec (.ret o) s = traps ∧ exec (.eret o) s = traps) ∧ (∀ o : OpK, exec (.brc o) s = traps) ∧ (∀ o : OpK64, exec (.brc64 o) s = traps) ∧
     (∀ o : OpLoop, exec (.loop o) s = traps) ∧ (∀ o : OpMwb, exec (.mwb o) s = traps))

/-- 16 R415, R416, 03 R71, 04 R77: where its guard passes, LOOP opens a level over the SIZE4 × 4 bytes after its bundle with the low 32 bits of its register; a count of
zero skips the body; a fourth level, or a body that passes the end of the enclosing one, is ILLEGAL_OP, before a poisoned count or guard predicate kills; where its
guard fails, it has no effect. -/
def Obligations.LoopOpensALevel : Prop :=
  ∀ (s : State) (k : Core) (n : Nat) (x : Ctx) (o : OpLoop), s.issues k n x → s.bun.win = none →
    let cnt := bitsOf (s.bun.old.getC o.a.toNat).v 0 32
    let start := s.bun.pc + BitVec.ofNat 52 s.bun.len
    let fits := ∀ l, x.loops.head? = some l → start.toNat + 4 * o.size4.toNat ≤ l.start.toNat + 4 * l.size4
    let clean := Guard.psn o.g .pk s.bun.old = false ∧ (s.bun.old.getC o.a.toNat).p = false
    (Guard.ok o.g .pk s.bun.old = false → exec (.loop o) s = .next s) ∧
    (s.passes o.g .pk →
      (fits → cnt ≠ 0 → x.loops.length < 3 → clean →
        exec (.loop o) s = .next (s.updCtx s.cur n fun x => { x with loops := ⟨start, o.size4.toNat, cnt, []⟩ :: x.loops })) ∧
      (fits → cnt = 0 → clean → exec (.loop o) s = .next (s.updCtx s.cur n fun x => { x with pc := start + BitVec.ofNat 52 (4 * o.size4.toNat) })) ∧
      (fits → (cnt = 0 ∨ x.loops.length < 3) → ¬clean → exec (.loop o) s = .next (s.poisonKill 1 0)) ∧
      (¬fits ∨ (cnt ≠ 0 ∧ 3 ≤ x.loops.length) → exec (.loop o) s = .next (s.trap 0x01 (illegalInfo 0 6 true))))

/-- 12 R284, 03 R60, R65: a precise trap that enters saves the bundle's address in TRAPPC, the cause and the information, the open window in BRPEND and
the loop nest in its registers; it empties the watch table, sets TMODE, clears NEST, and fetch goes on at TVEC; the routine's first bundle issues five cycles
later. No register of the files, no byte of memory and no other context changes.
12 R284, R287: a precise trap that does not enter (TVEC.EN = 0, or in trap mode with NEST = 0) kills the context with its cause. -/
def Obligations.TrapEntrySavesAndEnters : Prop :=
  (∀ (s : State) (k : Core) (n : Nat) (x : Ctx) (cause : Nat) (info : Word64), s.issues k n x → cause < 256 →
     x.sr.tvec.getLsbD 0 = true → (x.sr.tmode = false ∨ x.sr.nest = true) →
     ∃ k' x', (s.trap cause info).core? s.cur = some k' ∧ k'.ctx? n = some x' ∧
       x'.sr.trappc = s.bun.pc.zeroExtend 64 ∧ x'.sr.trapcause = BitVec.ofNat 64 cause ∧ x'.sr.trapinfo = info ∧ x'.sr.brpend = brpendOf s.bun.win ∧
       x'.sr.tmode = true ∧ x'.sr.nest = false ∧ x'.sr.tvec = x.sr.tvec ∧ x'.sr.tscratch = x.sr.tscratch ∧
       (∀ m < 3, Tab.get 0 x'.sr.loopc m = ((x.loops[m]?.map LoopLevel.loopc).getD 0) ∧ Tab.get 0 x'.sr.loopb m = ((x.loops[m]?.map LoopLevel.loopb).getD 0)) ∧
       x'.pc.toNat = 4 * bitsOf x.sr.tvec 2 50 ∧ x'.win = none ∧ x'.loops = [] ∧ x'.watch = [] ∧ x'.regs = x.regs ∧
       k'.freeAt = s.cycle + 5 ∧ (∀ m, m ≠ n → k'.ctx? m = k.ctx? m) ∧ (∀ c, c ≠ s.cur → (s.trap cause info).core? c = s.core? c) ∧
       (∀ a, (s.trap cause info).homeByte a = s.homeByte a)) ∧
  (∀ (s : State) (k : Core) (n : Nat) (x : Ctx) (cause : Nat) (info : Word64), s.issues k n x →
     (x.sr.tvec.getLsbD 0 = false ∨ (x.sr.tmode = true ∧ x.sr.nest = false)) →
     ∃ x', (s.trap cause info).ctx? s.cur n = some x' ∧ x'.st = .empty ∧ x'.sr.trapcause = BitVec.ofNat 64 cause ∧ x'.sr.trapinfo = info ∧
       x'.pend = Pending.none ∧ x'.killed = some (cause, s.ticks))

/-- 16 R390, 12 R282, R285, 04 R77: ERET in privileged code resumes at TRAPPC, reopens the window and the loop nest that the registers describe and clears
TMODE and NEST; a poisoned guard predicate kills; elsewhere it is PRIV with slot 0 and opcode 7; where its guard fails, it has no effect.
07 R174, R159, 18 R461: one that ends the routine of a STREAM_FAULT does the same, and what the routine was told of goes on: a stream at its element, a command of the
stream queue, the loader of the grid, a CHSEND. -/
def Obligations.EretReturnsOrIsPrivileged : Prop :=
  ∀ (s : State) (k : Core) (n : Nat) (x : Ctx) (o : OpN), s.issues k n x → s.bun.win = none →
    (Guard.ok o.g .pk s.bun.old = false → exec (.eret o) s = .next s) ∧
    (s.passes o.g .pk → s.privileged s.cur n = true → Guard.psn o.g .pk s.bun.old = false → x.resume = none →
      ∃ t x', exec (.eret o) s = .next t ∧ t.bun.status = .eret ∧ t.ctx? s.cur n = some x' ∧ x'.pc.toNat = 4 * bitsOf x.sr.trappc 2 50 ∧
        x'.win = windowOf x.sr.brpend ∧ x'.loops = nestOf x.sr x.loopsKept ∧ x'.sr = { x.sr with tmode := false, nest := false } ∧ x'.regs = x.regs) ∧
    (∀ f, s.passes o.g .pk → s.privileged s.cur n = true → Guard.psn o.g .pk s.bun.old = false → x.resume = some f →
      ∃ t k' x', exec (.eret o) s = .next t ∧ t.bun.status = .eret ∧ t.core? s.cur = some k' ∧ k'.ctx? n = some x' ∧ x'.pc.toNat = 4 * bitsOf x.sr.trappc 2 50 ∧
        x'.win = windowOf x.sr.brpend ∧ x'.loops = nestOf x.sr x.loopsKept ∧ x'.sr = { x.sr with tmode := false, nest := false } ∧ x'.regs = x.regs ∧
        x'.resume = none ∧
        (∀ m, f.kind = 0 → (k.sreg f.reg).strm = some m → m.faulted = true → m.id = f.cmd →
          (k'.sreg f.reg).st = 2 ∧ (k'.sreg f.reg).strm = some { m with faulted := false } ∧
          (s.cycle + 1, if m.store then Event.storeStreamElementPerformed s.cur f.reg else Event.streamDataArrival s.cur f.reg) ∈ t.agenda) ∧
        (f.kind = 1 → k'.qcmds = k.qcmds.map fun q => if q.id = f.cmd then { q with faulted := false } else q) ∧
        (f.kind = 2 → k'.grid.load = k.grid.load.map fun l => { l with faulted := false }) ∧
        (f.kind = 4 → k'.ycmds = k.ycmds.map fun y => if y.id = f.cmd then { y with faulted := false } else y)) ∧
    (s.passes o.g .pk → s.privileged s.cur n = true → Guard.psn o.g .pk s.bun.old = true → exec (.eret o) s = .next (s.poisonKill 1 0)) ∧
    (s.passes o.g .pk → s.privileged s.cur n = false → exec (.eret o) s = .next (s.trap 0x03 (BitVec.ofNat 64 (0 + 8 * 7))))

/-- 19 R510, R555, 16 R404, 18 R489, 03 R66: TRAP, YIELD and RETIRE leave their mark on the bundle, after which the trap, the switch or the end of the task
follows; HALT kills with its own cause, in trap mode with the cause that TRAPCAUSE holds; where an MCFG or a QREST of its bundle holds the context, which is to perform
before, the kill is left for the next boundary, and comes there.
03 R66, 12 R284 kind T: after a TRAP bundle the context is in its routine with the address of the bundle that follows in TRAPPC and cause 0x16. -/
def Obligations.TrapYieldRetireHalt : Prop :=
  (∀ (s : State) (k : Core) (n : Nat) (x : Ctx), s.issues k n x →
     (∀ o : OpTrap, s.passes o.g .pk → exec (.trap o) s = .next { s with bun := { s.bun with status := .trap (o.imm.zeroExtend 64) } }) ∧
     (∀ o : OpTrap64, s.passes o.g .pk → exec (.trap64 o) s = .next { s with bun := { s.bun with status := .trap (o.imm.zeroExtend 64) } }) ∧
     (∀ o : OpN, s.passes o.g .pk → exec (.yield o) s = .next { s with bun := { s.bun with status := .yields } }) ∧
     (∀ o : OpN, s.passes o.g .pk → ∃ t x', exec (.retire o) s = .next t ∧ t.bun.status = .ended ∧ t.ctx? s.cur n = some x' ∧ x'.hold = .retire ∧
       (s.cycle, Event.retireAccepted s.cur n) ∈ t.agenda) ∧
     (∀ o : OpN, s.passes o.g .pk → let cause := if x.sr.tmode then bitsOf x.sr.trapcause 0 8 else 0x16
       (x.held = false → ∃ t x', exec (.halt o) s = .next t ∧ t.bun.status = .ended ∧ t.ctx? s.cur n = some x' ∧ x'.st = .empty ∧ x'.killed = some (cause, s.ticks)) ∧
       (x.held = true → ∃ t x', exec (.halt o) s = .next t ∧ t.bun.status = .ended ∧ t.ctx? s.cur n = some x' ∧ x'.st = x.st ∧ x'.holdM = x.holdM ∧
         x'.holdQ = x.holdQ ∧ x'.doom = some (cause, x.sr.trapinfo)))) ∧
  (∀ (s : State) (c n : Nat) (x : Ctx) (cause : Nat) (info : Word64), s.ctx? c n = some x → x.late = none → x.doom = some (cause, info) →
     attempt s c n = .next ((s.countIssue c n).kill c n cause info)) ∧
  (∀ (s : State) (c n : Nat) (k : Core) (x : Ctx) (info : Word64), s.core? c = some k → k.ctx? n = some x → s.bun.status = .trap info →
     s.bun.win = none → x.win = none → x.loops = [] → x.sr.tvec.getLsbD 0 = true → x.sr.tmode = false →
     ∃ k' x', (s.finish c n).core? c = some k' ∧ k'.ctx? n = some x' ∧ x'.sr.trappc = x.pc.zeroExtend 64 ∧ x'.sr.trapcause = 0x16 ∧ x'.sr.trapinfo = info ∧
       x'.sr.brpend = 0 ∧ x'.sr.tmode = true ∧ x'.pc.toNat = 4 * bitsOf x.sr.tvec 2 50 ∧ k'.freeAt = max k.freeAt (s.cycle + 1 + s.bun.er) + 4)

/-- 02 R42, 03 R50, R68, 12 R284, R286, R288: the events at a boundary of the context that holds issue. Of the pending events PREEMPT is taken before WATCHDOG,
that before STREAM_FAULT, that before SEM_OVERFLOW, with PEND 0, and the others stay pending; a notice is taken by the control context;
a yield gives up issue; a fetch that faults traps as an attempt; a bundle with PM = 0 performs nothing. -/
def Obligations.BoundaryEvents : Prop :=
  ∀ (s : State) (c n : Nat) (k : Core) (x : Ctx), s.core? c = some k → k.issuing = some n → k.ctx? n = some x →
    (s.ev = .fetchFault c → ∀ s1 cause info, s.nextBundle c x = (s1, .fault cause info) →
      exec .fetchFault s = .next ((s1.begin c n x ⟨0, []⟩).trap cause info)) ∧
    (s.ev = .bundleWithPmZero c → ∀ s1 b, s.nextBundle c x = (s1, .raw b) → bitsOf b.head 0 7 = 0 → b.stalls x s1.cycle = false →
      exec .bundleWithPmZero s = .next ((s1.begin c n x b).finish c n)) ∧
    (s.ev = .issueCounterYield c → s.yieldDue c n x = true →
      ∃ t k' x', exec .issueCounterYield s = .next t ∧ t.core? c = some k' ∧ k'.issuing = none ∧ k'.ctx? n = some x' ∧ x'.st = .ready ∧
        x'.since = s.cycle ∧ x'.counter = 0) ∧
    (s.ev = .eventTaken c n → x.st = .issuing → x.sr.tmode = false → x.win = none → x.sr.tvec.getLsbD 0 = true →
      let takes := fun (cause : Nat) (info : Word64) (left : Pending) =>
        ∃ t x', exec .eventTaken s = .next t ∧ t.ctx? c n = some x' ∧ x'.sr.trappc = x.pc.zeroExtend 64 ∧ x'.sr.tmode = true ∧
          x'.sr.trapcause = BitVec.ofNat 64 (cause + 256) ∧ x'.sr.trapinfo = info ∧ x'.sr.brpend = 0 ∧ x'.pend = left ∧ x'.regs = x.regs
      (∀ v, x.pend.preempt = some v → takes 0x15 v { x.pend with preempt := none }) ∧
      (∀ w, x.pend.preempt = none → x.pend.watchdog = some w → takes 0x17 (BitVec.ofNat 64 w) { x.pend with watchdog := none }) ∧
      (∀ f l, x.pend.preempt = none → x.pend.watchdog = none → x.pend.faults = f :: l → takes 0x0F f.info { x.pend with faults := l }) ∧
      (∀ i l, x.pend.preempt = none → x.pend.watchdog = none → x.pend.faults = [] → x.pend.semOvf = i :: l → takes 0x06 i { x.pend with semOvf := l })) ∧
    (s.ev = .noticeTaken (s.partOf c) → x.st = .issuing → s.noticeDue c n x = true → x.sr.tvec.getLsbD 0 = true → ∀ p m l, s.part? (s.partOf c) = some p → p.notices = m :: l →
      p.entry.ctlcore.toNat = c → p.entry.ctlctx.toNat = n →
      ∃ t p' x', exec .noticeTaken s = .next t ∧ t.part? (s.partOf c) = some p' ∧ p'.notices = l ∧ t.ctx? c n = some x' ∧
        x'.sr.trapcause = BitVec.ofNat 64 (m.cause + 256) ∧ x'.sr.trapinfo = m.info ∧ x'.sr.tmode = true)

/-! ## Loads, stores and atomics -/

/-- 10 R238, 16 R371 to R374, 15 R327: a load that hits the stash takes the little-endian bytes at base + offset, fitted to its type, with the poison of
their words; LDA enters a record; CHKA does nothing where its register has one, else loads.
10 R238, R239, 03 R58: a load that misses, LDA and a CHKA whose register has no record among them, where its row can be had, asks for the fill and blocks the bundle; nothing
is written to its register. A CHKA whose register has a record does nothing all the same.
(The cycles of a load that has waited for a fill, `loadLat`, at least one, are log entry 19, DEDUCED.) -/
def Obligations.LoadsHitOrBlock : Prop :=
  (∀ (s s1 : State) (k kq : Core) (n m : Nat) (x : Ctx) (o : MemOp) (l : Leaf) (r : Row), s.issues k n x → s.passes o.g .pi →
     let base := s.bun.old.getI o.sl o.a
     let a := (base.v + o.off).toNat
     let size := IType.bytes o.t
     let q := quarterOf s.cur a l.cc
     base.p = false → a < 2 ^ 52 → a % size = 0 → s.translate s.cur a .read = (s1, .leaf l) →
     s1.core? q = some kq → kq.stash.find (a / 256) = some (m, r) → r.has (a % 256) size = true →
     let val := r.data.toNat / 2 ^ (8 * (a % 256)) % 2 ^ (8 * size)
     let v : RV := ⟨IType.fit o.t (BitVec.ofNat 64 val), l.psn || r.poisoned (a % 256) size || Guard.psn o.g .pi s.bun.old⟩
     let t := s1.writeXY (ISlot.y o.sl) o.d v (loadLat (s1.filledAt q a) s1.cycle (if q = s.cur then 4 else 12))
     (∀ i : OpL, OpL.op i = o → exec (.ld i) s = .next t ∧
       exec (.lda i) s = .next (t.updIssuer fun x => x.enterWatch ⟨ISlot.y o.sl, o.d.toNat, a, size⟩) ∧
       ((x.watch.any fun w => w.y == ISlot.y o.sl && w.d == o.d.toNat) = true → exec (.chka i) s = .next s) ∧
       ((x.watch.any fun w => w.y == ISlot.y o.sl && w.d == o.d.toNat) = false → exec (.chka i) s = .next t)) ∧
     (∀ i : OpL64, OpL64.op i = o → exec (.ld64 i) s = .next t ∧
       exec (.lda64 i) s = .next (t.updIssuer fun x => x.enterWatch ⟨ISlot.y o.sl, o.d.toNat, a, size⟩) ∧
       ((x.watch.any fun w => w.y == ISlot.y o.sl && w.d == o.d.toNat) = true → exec (.chka64 i) s = .next s) ∧
       ((x.watch.any fun w => w.y == ISlot.y o.sl && w.d == o.d.toNat) = false → exec (.chka64 i) s = .next t))) ∧
  (∀ (s s1 s2 : State) (k : Core) (n m : Nat) (x : Ctx) (o : MemOp) (l : Leaf), s.issues k n x → s.passes o.g .pi →
     let base := s.bun.old.getI o.sl o.a
     let a := (base.v + o.off).toNat
     let size := IType.bytes o.t
     let q := quarterOf s.cur a l.cc
     base.p = false → a < 2 ^ 52 → a % size = 0 → s.translate s.cur a .read = (s1, .leaf l) →
     (∀ kq m r, s1.core? q = some kq → kq.stash.find (a / 256) = some (m, r) → r.has (a % 256) size = false) →
     s1.ensureRow q (a / 256) l = (s2, .row m) →
     let blocks := fun (i : Instr) => ∃ t, exec i s = .next t ∧ t.bun.status = .blocked ∧ ∀ x2 x3, s2.ctx? s.cur n = some x2 → t.ctx? s.cur n = some x3 →
       x3.st = .blocked ∧ (q, a / 256) ∈ x3.fills ∧ x3.regs = x2.regs
     let watched := (x.watch.any fun w => w.y == ISlot.y o.sl && w.d == o.d.toNat) = true
     (∀ i : OpL, OpL.op i = o → blocks (.ld i) ∧ blocks (.lda i) ∧ (¬watched → blocks (.chka i)) ∧ (watched → exec (.chka i) s = .next s)) ∧
     (∀ i : OpL64, OpL64.op i = o → blocks (.ld64 i) ∧ blocks (.lda64 i) ∧ (¬watched → blocks (.chka64 i)) ∧ (watched → exec (.chka64 i) s = .next s)))

/-- 15 R332, 16 R372, 12 R301, 10 R259, 03 R74: an access with a poisoned base kills, one at or above 2^52 is a translation fault, a misaligned one is ALIGN with
its address; CHKA is checked only where its register has no record. 19 R543: a vector access of which a lane's guard passes is checked likewise: a poisoned base or
the first poisoned index kills; then the lowest lane address that reaches 2^52, then the lowest misaligned one. (That TRAPINFO of an address at or above 2^52 names
level 0, and bit 52 for a write, is log entry 36, DEDUCED.) -/
def Obligations.AccessChecks : Prop :=
  ∀ (s : State) (k : Core) (n : Nat) (x : Ctx), s.issues k n x →
    let beyond := fun (a : Nat) (write : Bool) => s.trap 0x07 (BitVec.ofNat 64 (a % 2 ^ 52 + 2 ^ 52 * bitN write))
    (∀ o : MemOp, s.passes o.g .pi →
      let base := s.bun.old.getI o.sl o.a
      let a := (base.v + o.off).toNat
      let unwatched := (x.watch.any fun w => w.y == ISlot.y o.sl && w.d == o.d.toNat) = false
      let loads := fun (t : State) =>
        (∀ i : OpL, OpL.op i = o → exec (.ld i) s = .next t ∧ exec (.lda i) s = .next t ∧ exec (.ldacq i) s = .next t ∧ (unwatched → exec (.chka i) s = .next t)) ∧
        (∀ i : OpL64, OpL64.op i = o → exec (.ld64 i) s = .next t ∧ exec (.lda64 i) s = .next t ∧ exec (.ldacq64 i) s = .next t ∧
          (unwatched → exec (.chka64 i) s = .next t))
      let stores := fun (t : State) =>
        (∀ i : OpL, OpL.op i = o → exec (.st i) s = .next t ∧ exec (.strel i) s = .next t) ∧
        (∀ i : OpL64, OpL64.op i = o → exec (.st64 i) s = .next t ∧ exec (.strel64 i) s = .next t)
      let all := fun (t : State) => loads t ∧ stores t
      (base.p = true → all (s.poisonKill 0 a)) ∧
      (base.p = false → 2 ^ 52 ≤ a → loads (beyond a false) ∧ stores (beyond a true)) ∧
      (base.p = false → a < 2 ^ 52 → a % IType.bytes o.t ≠ 0 → all (s.trap 0x05 (BitVec.ofNat 64 a)))) ∧
    (∀ o : AtomOp, s.passes o.g .pk →
      let base := s.bun.old.getXY o.fs o.a.toNat
      let a := (base.v + o.off).toNat
      let one := fun (fn : AtomFn) (i : OpAtom → Instr) (i64 : OpAtom64 → Instr) (t : State) =>
        (∀ j, OpAtom.op fn j = o → exec (i j) s = .next t) ∧ (∀ j, OpAtom64.op fn j = o → exec (i64 j) s = .next t)
      let all := fun (t : State) =>
        one .add .aadd .aadd64 t ∧ one .and .aand .aand64 t ∧ one .or .aor .aor64 t ∧ one .xor .axor .axor64 t ∧ one .min .amin .amin64 t ∧
        one .max .amax .amax64 t ∧ one .swp .aswp .aswp64 t ∧ ∀ j, OpAtom64.op .cas j = o → exec (.acas j) s = .next t
      (base.p = true → all (s.poisonKill 0 a)) ∧
      (base.p = false → 2 ^ 52 ≤ a → all (beyond a true)) ∧
      (base.p = false → a < 2 ^ 52 → a % (if o.w then 8 else 4) ≠ 0 → all (s.trap 0x05 (BitVec.ofNat 64 a)))) ∧
    (∀ o : VMemOp, let r := s.bun.old
      let all := fun (t : State) =>
        (∀ i : OpVM, (OpVM.op true i = o → exec (.vld i) s = .next t) ∧ (OpVM.op false i = o → exec (.vst i) s = .next t)) ∧
        (∀ i : OpVM64, (OpVM64.op true i = o → exec (.vld64 i) s = .next t) ∧ (OpVM64.op false i = o → exec (.vst64 i) s = .next t)) ∧
        (∀ i : OpVX, (OpVX.op true i = o → exec (.vgath i) s = .next t) ∧ (OpVX.op false i = o → exec (.vscat i) s = .next t)) ∧
        (∀ i : OpVX64, (OpVX64.op true i = o → exec (.vgath64 i) s = .next t) ∧ (OpVX64.op false i = o → exec (.vscat64 i) s = .next t))
      let base := r.getXY o.fs o.a.toNat
      let poisoned := fun (l : Nat) => ∃ v, o.vi = some v ∧ (r.getV v.toNat).p.getLsbD l = true
      let align := if o.t = .f32 then 4 else 2
      o.active r ≠ [] →
      (base.p = true → all (s.poisonKill 0 (base.v + o.off).toNat)) ∧
      (base.p = false → ∀ l ∈ o.active r, poisoned l → (∀ m ∈ o.active r, m < l → ¬poisoned m) → all (s.poisonKill 0 (o.addr r l))) ∧
      (base.p = false → (∀ l ∈ o.active r, ¬poisoned l) →
        (∀ l ∈ o.active r, 2 ^ 52 < o.addr r l + 4 → (∀ m ∈ o.active r, 2 ^ 52 < o.addr r m + 4 → o.addr r l ≤ o.addr r m) → all (beyond (o.addr r l) (!o.ld))) ∧
        ((∀ l ∈ o.active r, o.addr r l + 4 ≤ 2 ^ 52) → ∀ l ∈ o.active r, o.addr r l % align ≠ 0 →
          (∀ m ∈ o.active r, o.addr r m % align ≠ 0 → o.addr r l ≤ o.addr r m) → all (s.trap 0x05 (BitVec.ofNat 64 (o.addr r l))))))

/-- 10 R240, 18 R499, 03 R73: a store whose row is there, or could be allocated, writes the low bytes of D at base + offset into that row; the records that
its bytes overlap go. No register and no byte of home memory changes.
10 R240, 11 R269: a write of n bytes at a byte of a row changes exactly those bytes and makes them valid and dirty, the words they lie in owned; a
word written whole takes the write's poison, one written in part keeps its own too; every other byte, bit and word stays. -/
def Obligations.StoresWriteTheirRow : Prop :=
  (∀ (s s1 s2 : State) (k : Core) (n m : Nat) (x : Ctx) (o : MemOp) (l : Leaf), s.issues k n x → s.passes o.g .pi →
     let base := s.bun.old.getI o.sl o.a
     let v := s.bun.old.getI o.sl o.d
     let a := (base.v + o.off).toNat
     let size := IType.bytes o.t
     let q := quarterOf s.cur a l.cc
     base.p = false → a < 2 ^ 52 → a % size = 0 → s.translate s.cur a .write = (s1, .leaf l) → s1.rowFor q (a / 256) l = (s2, .row m) →
     let t := (s2.rowWrite q m (a % 256) size v.v.toNat (v.p || Guard.psn o.g .pi s.bun.old)).updCtx s.cur n fun x =>
       { x with watch := x.watch.filter fun e => !(decide (a < e.addr + e.n) && decide (e.addr < a + size)) }
     (∀ i : OpL, OpL.op i = o → exec (.st i) s = .next t) ∧ (∀ i : OpL64, OpL64.op i = o → exec (.st64 i) s = .next t) ∧
     (∀ pa, t.homeByte pa = s2.homeByte pa) ∧
     (∀ c m x2, s2.ctx? c m = some x2 → ∃ x3, t.ctx? c m = some x3 ∧ x3.regs = x2.regs ∧ x3.sr = x2.sr)) ∧
  (∀ (r : Row) (off n val : Nat) (psn : Bool), off + n ≤ 256 → n ≤ 256 →
     (∀ j < 256, (r.write off n val psn).data.extractLsb' (8 * j) 8 =
       if off ≤ j ∧ j < off + n then BitVec.ofNat 8 (val / 2 ^ (8 * (j - off))) else r.data.extractLsb' (8 * j) 8) ∧
     (∀ j < 256, (r.write off n val psn).v.getLsbD j = (r.v.getLsbD j || decide (off ≤ j ∧ j < off + n)) ∧
       (r.write off n val psn).d.getLsbD j = (r.d.getLsbD j || decide (off ≤ j ∧ j < off + n))) ∧
     (∀ w < 64, (r.write off n val psn).o.getLsbD w = (r.o.getLsbD w || decide (off < 4 * w + 4 ∧ 4 * w < off + n)) ∧
       (r.write off n val psn).psn.getLsbD w =
         if off ≤ 4 * w ∧ 4 * w + 4 ≤ off + n then psn
         else if off < 4 * w + 4 ∧ 4 * w < off + n then psn || r.psn.getLsbD w else r.psn.getLsbD w) ∧
     (r.write off n val psn).block = r.block ∧ (r.write off n val psn).pin = r.pin ∧ (r.write off n val psn).frame = r.frame)

/-- 11 R276, 16 R373, 18 R503: LDACQ reads at the home slice, with an acquire half at module scope; STREL writes there once everything before it and
its release half is complete. (That both perform at the attempt of their bundle is the model's choice within the span that R276 leaves, log entry 20, DEDUCED.) -/
def Obligations.AcquireLoadAndReleaseStore : Prop :=
  ∀ (s s1 : State) (k : Core) (n : Nat) (x : Ctx) (o : MemOp) (l : Leaf), s.issues k n x → s.passes o.g .pi →
    let base := s.bun.old.getI o.sl o.a
    let d := s.bun.old.getI o.sl o.d
    let a := (base.v + o.off).toNat
    let size := IType.bytes o.t
    let gp := Guard.psn o.g .pi s.bun.old
    base.p = false → a < 2 ^ 52 → a % size = 0 →
    (s.translate s.cur a .read = (s1, .leaf l) →
      let s2 := s1.evictWords s.cur a size l
      ∀ s3 v psn, s2.homeRead (s2.access s.cur l.ed a) l.pa size = (s3, v, psn) →
      let lat := 16 + Config.latency s3.free
      let t := ((({ s3 with free := s3.free + 1 }.writeXY (ISlot.y o.sl) o.d ⟨IType.fit o.t (BitVec.ofNat 64 v), psn || l.psn || gp⟩ lat).acquireBy s.cur n 4).updCore
        s.cur fun k => { k with freeAt := max k.freeAt (s3.cycle + lat) })
      (∀ i : OpL, OpL.op i = o → ∃ t', exec (.ldacq i) s = .next t' ∧ t'.mem = t.mem ∧ t'.memPsn = t.memPsn ∧ t'.slices = t.slices ∧ t'.ctx? s.cur n = t.ctx? s.cur n) ∧
      (∀ i : OpL64, OpL64.op i = o → ∃ t', exec (.ldacq64 i) s = .next t' ∧ t'.mem = t.mem ∧ t'.memPsn = t.memPsn ∧ t'.slices = t.slices ∧ t'.ctx? s.cur n = t.ctx? s.cur n)) ∧
    (s.translate s.cur a .write = (s1, .leaf l) → ∀ s2, s1.releaseAll 63 4 = .ok s2 s2 →
      let s3 := s2.evictWords s.cur a size l
      let t := (s3.homePut (s3.access s.cur l.ed a) l.pa size d.v.toNat (d.p || gp)).updCtx s.cur n fun x => { x with watch := storeWatch x.watch a size }
      (∀ i : OpL, OpL.op i = o → exec (.strel i) s = .next t) ∧ (∀ i : OpL64, OpL64.op i = o → exec (.strel64 i) s = .next t))

/-- 15 R330 to R334, 11 R276, R277: an atomic reads its word at the home slice, writes the new value there (ACAS where the old one equals the comparand), and
has the old value on its way to D; one with a release half once that is complete; one in whose bundle another slot holds the context in place (a LAUNCH, a TLBI, an EVAC, an MCFG, a
QREST), or writes CRCTLk or NOTSTAT, after that slot, with the operands and the translation of its bundle (15 R334: it performs after every other slot; log entry 20).
12 R300: D and the word written are poisoned where the old value or what is combined with it is (15 R331), and where the guard is poisoned, which is 12 R300 as the model reads it (log
entry 34, DEDUCED).
15 R333: the old value of the oldest atomic in flight is written to its register, and the atomic is no longer in flight; one with an acquire half takes it then. (That
an atomic performs at the attempt of its bundle is log entry 20, DEDUCED.) -/
def Obligations.AtomicsPerformAtTheHomeSlice : Prop :=
  (∀ (s s1 s2 s3 : State) (k : Core) (n : Nat) (x : Ctx) (o : AtomOp) (l : Leaf) (old : Nat) (psn : Bool), s.issues k n x → s.passes o.g .pk →
     let r := s.bun.old
     let base := r.getXY o.fs o.a.toNat
     let a := (base.v + o.off).toNat
     let t := AtomOp.type o
     let size := if o.w then 8 else 4
     let b := r.getXY o.fs o.b.toNat
     let c := r.getXY o.fs o.c.toNat
     let gp := Guard.psn o.g .pk r
     let v := BitVec.ofNat 64 old
     base.p = false → a < 2 ^ 52 → a % size = 0 → s.translate s.cur a .write = (s1, .leaf l) →
     (if o.ord.getLsbD 1 then s1.releaseAll 63 4 = .ok s2 s2 else s2 = s1) →
     -- where another slot of the bundle holds the context and has still to perform, or a write of CRCTLk or NOTSTAT has still to act, the atomic waits for it
     (((s2.ctx? s.cur n).map Ctx.held) = some true ∨ (s2.ctx? s.cur n).isSome = true ∧ s2.writesDue (s2.partOf s.cur) = true →
       let waits := fun (i : Instr) => exec i s = .next (s2.updCtx s.cur n fun x => { x with late := some ⟨o, a, l, b, c, gp⟩ })
       (∀ i, OpAtom.op .add i = o → waits (.aadd i)) ∧ (∀ i, OpAtom64.op .add i = o → waits (.aadd64 i)) ∧ (∀ i, OpAtom.op .and i = o → waits (.aand i)) ∧
       (∀ i, OpAtom64.op .and i = o → waits (.aand64 i)) ∧ (∀ i, OpAtom.op .or i = o → waits (.aor i)) ∧ (∀ i, OpAtom64.op .or i = o → waits (.aor64 i)) ∧
       (∀ i, OpAtom.op .xor i = o → waits (.axor i)) ∧ (∀ i, OpAtom64.op .xor i = o → waits (.axor64 i)) ∧ (∀ i, OpAtom.op .min i = o → waits (.amin i)) ∧
       (∀ i, OpAtom64.op .min i = o → waits (.amin64 i)) ∧ (∀ i, OpAtom.op .max i = o → waits (.amax i)) ∧ (∀ i, OpAtom64.op .max i = o → waits (.amax64 i)) ∧
       (∀ i, OpAtom.op .swp i = o → waits (.aswp i)) ∧ (∀ i, OpAtom64.op .swp i = o → waits (.aswp64 i)) ∧ (∀ i, OpAtom64.op .cas i = o → waits (.acas i))) ∧
     (((s2.ctx? s.cur n).map Ctx.held) = some false → s2.writesDue (s2.partOf s.cur) = false →
     (s2.evictWords s.cur a size l).homeRead ((s2.evictWords s.cur a size l).access s.cur l.ed a) l.pa size = (s3, old, psn) →
     let put := fun (new : Word64) (p : Bool) => s3.homePut { s3.access s.cur l.ed a with range := none } l.pa size new.toNat (p || gp)
     let ends := fun (i : Instr) (m : State) => ∃ t', exec i s = .next t' ∧ t'.mem = m.mem ∧ t'.memPsn = m.memPsn ∧ t'.slices = m.slices ∧ ∀ x2 x3, m.ctx? s.cur n = some x2 →
       t'.ctx? s.cur n = some x3 → x3.atomics = x2.atomics ++ [⟨o.fs, o.d.toNat, ⟨IType.fit t v, psn || gp⟩, o.ord.getLsbD 0⟩] ∧ x3.regs = x2.regs
     (∀ i, OpAtom.op .add i = o → ends (.aadd i) (put (v + b.v) (b.p || psn))) ∧ (∀ i, OpAtom64.op .add i = o → ends (.aadd64 i) (put (v + b.v) (b.p || psn))) ∧
     (∀ i, OpAtom.op .and i = o → ends (.aand i) (put (v &&& b.v) (b.p || psn))) ∧ (∀ i, OpAtom64.op .and i = o → ends (.aand64 i) (put (v &&& b.v) (b.p || psn))) ∧
     (∀ i, OpAtom.op .or i = o → ends (.aor i) (put (v ||| b.v) (b.p || psn))) ∧ (∀ i, OpAtom64.op .or i = o → ends (.aor64 i) (put (v ||| b.v) (b.p || psn))) ∧
     (∀ i, OpAtom.op .xor i = o → ends (.axor i) (put (v ^^^ b.v) (b.p || psn))) ∧ (∀ i, OpAtom64.op .xor i = o → ends (.axor64 i) (put (v ^^^ b.v) (b.p || psn))) ∧
     (let w := if IType.int t v ≤ IType.int t b.v then v else b.v;
       (∀ i, OpAtom.op .min i = o → ends (.amin i) (put w (b.p || psn))) ∧ ∀ i, OpAtom64.op .min i = o → ends (.amin64 i) (put w (b.p || psn))) ∧
     (let w := if IType.int t b.v ≤ IType.int t v then v else b.v;
       (∀ i, OpAtom.op .max i = o → ends (.amax i) (put w (b.p || psn))) ∧ ∀ i, OpAtom64.op .max i = o → ends (.amax64 i) (put w (b.p || psn))) ∧
     (∀ i, OpAtom.op .swp i = o → ends (.aswp i) (put b.v b.p)) ∧ (∀ i, OpAtom64.op .swp i = o → ends (.aswp64 i) (put b.v b.p)) ∧
     (∀ i, OpAtom64.op .cas i = o → ends (.acas i) (if IType.fit t v = IType.fit t c.v then put b.v (b.p || c.p || psn) else s3)))) ∧
  -- an atomic that has waited performs in the same way
  (∀ (s s3 : State) (c n : Nat) (x : Ctx) (y : ReadyAtomic) (old : Nat) (psn : Bool), s.ctx? c n = some x → x.late = some y →
     let size := if y.op.w then 8 else 4
     let v := BitVec.ofNat 64 old
     let s2 := (s.updCtx c n fun x => { x with late := none }).evictWords c y.at' size y.leaf
     s2.homeRead (s2.access c y.leaf.ed y.at') y.leaf.pa size = (s3, old, psn) →
     let m := match y.op.result v y.b.v y.cmp.v with
       | none => s3
       | some w => s3.homePut { s3.access c y.leaf.ed y.at' with range := none } y.leaf.pa size w.toNat (y.op.taints psn y.b.p y.cmp.p || y.gp)
     let t := s.landLate c n
     t.mem = m.mem ∧ t.memPsn = m.memPsn ∧ t.slices = m.slices ∧ ∀ x2 x3, m.ctx? c n = some x2 → t.ctx? c n = some x3 → x3.late = x2.late ∧ x3.regs = x2.regs ∧
       x3.atomics = x2.atomics ++ [⟨y.op.fs, y.op.d.toNat, ⟨IType.fit (AtomOp.type y.op) v, psn || y.gp⟩, y.op.ord.getLsbD 0⟩]) ∧
  (∀ (s : State) (c n : Nat) (x : Ctx) (f : AtomicFlight) (l : List AtomicFlight), s.ctx? c n = some x → x.atomics = f :: l → s.ev = .atomicResponse c n →
     let t := s.updCtx c n fun x => { x.putXY s.cycle f.y f.d f.old 0 with atomics := l }
     exec .atomicResponse s = .next (if f.acquire then t.acquireBy c n 4 else t))

/-- 19 R540 to R545, 03 R52: a vector load of which every access hits a row of the stash, in a page that the core's TLB holds, writes each lane whose guard passes with
the bytes at its address, poisoned by a poisoned word or page or by the guard; the other lanes keep what they hold. A vector store whose rows are there writes the accesses
of the lanes whose guard passes into them, one lane after another, each word with the poison of its lanes (of a .bf16 lane that lies in two words, of the lanes that write
it: log entry 25, DEDUCED), and drops the records of the watch table that they overlap. Where no guard passes, neither does anything. -/
def Obligations.VectorMemoryResults : Prop :=
  ∀ (s : State) (k : Core) (n : Nat) (x : Ctx) (o : VMemOp), s.issues k n x →
    let r := s.bun.old
    let loads := fun (t : State) =>
      (∀ i : OpVM, OpVM.op true i = o → exec (.vld i) s = .next t) ∧ (∀ i : OpVM64, OpVM64.op true i = o → exec (.vld64 i) s = .next t) ∧
      (∀ i : OpVX, OpVX.op true i = o → exec (.vgath i) s = .next t) ∧ (∀ i : OpVX64, OpVX64.op true i = o → exec (.vgath64 i) s = .next t)
    let stores := fun (t : State) =>
      (∀ i : OpVM, OpVM.op false i = o → exec (.vst i) s = .next t) ∧ (∀ i : OpVM64, OpVM64.op false i = o → exec (.vst64 i) s = .next t) ∧
      (∀ i : OpVX, OpVX.op false i = o → exec (.vscat i) s = .next t) ∧ (∀ i : OpVX64, OpVX64.op false i = o → exec (.vscat64 i) s = .next t)
    let ps := (o.active r).flatMap (o.pieces r)
    let gp := Guard.psn o.g .pv r
    -- the page of an address, as the core's TLB holds it; the row of the stash that holds its block, with its quarter and number
    let page := fun (u : Use) (a : Nat) (l : Leaf) => ∃ e, tlbFind k.tlb (s.partOf s.cur) a = some e ∧
      let level := if e.size = 29 then 1 else 2
      s.leafFault e.part a u e.pte level = none ∧ (u = .write → e.pte.getLsbD 13 = true) ∧ l = leafOf e.pte level a
    let row := fun (a : Nat) (l : Leaf) (q m : Nat) (w : Row) => q = quarterOf s.cur a l.cc ∧
      ∃ kq, s.core? q = some kq ∧ Tab.wf none kq.stash.rows = true ∧ kq.stash.find (a / 256) = some (m, w)
    (o.active r = [] → loads s ∧ stores s) ∧
    (o.active r ≠ [] → (r.getXY o.fs o.a.toNat).p = false → (∀ v i, o.vi = some v → i ∈ o.active r → (r.getV v.toNat).p.getLsbD i = false) →
      (∀ i ∈ o.active r, o.addr r i < 2 ^ 52 ∧ o.addr r i % (if o.t = .f32 then 4 else 2) = 0) →
      ((∀ p ∈ ps, ∃ l q m w, page .read p.at' l ∧ row p.at' l q m w ∧ w.has (p.at' % 256) p.n = true) →
        ∃ v lat, loads (s.writeV o.d v lat (Guard.lanes o.g r)) ∧
          (∀ i < 32, i ∉ o.active r → v.lane i = (r.getV o.d.toNat).lane i) ∧
          (∀ p ∈ ps, ∀ l q m w, page .read p.at' l → row p.at' l q m w →
            (v.lane p.lane).w.toNat / 2 ^ (8 * p.off) % 2 ^ (8 * p.n) = w.data.toNat / 2 ^ (8 * (p.at' % 256)) % 2 ^ (8 * p.n)) ∧
          (∀ i ∈ o.active r, (v.lane i).p = true ↔ gp = true ∨ ∃ p ∈ o.pieces r i, ∃ l q m w, page .read p.at' l ∧ row p.at' l q m w ∧
            (l.psn = true ∨ w.poisoned (p.at' % 256) p.n = true))) ∧
      (∀ (f : Piece → Nat × Nat), (∀ p ∈ ps, ∃ l w, page .write p.at' l ∧ row p.at' l (f p).1 (f p).2 w ∧ w.v ≠ 0) →
        stores (ps.foldl (fun t p =>
          ((if o.first r p then t.rowClean (f p).1 (f p).2 (p.at' % 256) else t).rowWrite (f p).1 (f p).2 (p.at' % 256) p.n
            (((r.getV o.d.toNat).lane p.lane).w.toNat / 2 ^ (8 * p.off)) (((r.getV o.d.toNat).lane p.lane).p || gp)).updCtx
            s.cur n fun x => { x with watch := x.watch.filter fun e => !(decide (p.at' < e.addr + e.n) && decide (e.addr < p.at' + p.n)) }) s)))

/-! ## The matrix engine -/

/-- 17 R417 to R460: an M-slot instruction of the engine's owner whose wait is met, with its stream register set where it names one and room in the queue, takes
its place at the end of the queue; tiles and registers stay. One whose wait is not met arms it and blocks its bundle (12 R290); one that finds the queue full stalls.
17 R417, 06 R123, R131: an M-slot instruction whose encoding is legal, of a context that does not own the engine, is MATRIX_BUSY with TRAPINFO 1; an MFMT of the owner
that changes the pair without an MDRAIN before it is MATRIX_BUSY with TRAPINFO 2. -/
def Obligations.MatrixOperationsAreQueued : Prop :=
  (∀ (s s1 : State) (k k1 : Core) (n : Nat) (x x1 : Ctx) (w : Sync), s.issues k n x → s1 = s.mxSettle s.cur → s1.issues k1 n x1 → k1.mxown = some n →
     let met := w.wt = 0 ∨ (k1.sem w.ws.toNat).met w.wt.toNat = true
     let queued := fun (i : Instr) (w : Sync) (kind : MKind) =>
       ∃ t k' o, exec i s = .next t ∧ t.core? s.cur = some k' ∧ k'.mx.queue = k1.mx.queue ++ [o] ∧ o.kind = kind ∧ o.sync = w ∧ o.ctx = n ∧
         o.m = cfgM k1.mx.cfgIssued ∧ o.n = cfgN k1.mx.cfgIssued ∧ o.k = cfgK k1.mx.cfgIssued ∧ k'.mx.tiles = k1.mx.tiles ∧ k'.mx.port = k1.mx.port ∧
         k'.ctx? n = some x1 ∧ (s1.cycle, Event.matrixQueueStart s.cur) ∈ t.agenda
     k1.mAdmits n fun g i i64 kind => s.passesM g →
       (k1.mx.queue.length < 16 → queued i Sync.none kind ∧ (met → queued (i64 w) w kind)) ∧
       (¬met → Slot.m ∉ x1.sat → BlocksOn s (i64 w) n x1 .m w) ∧
       (16 ≤ k1.mx.queue.length → exec i s = .next s1.stall ∧ (met → exec (i64 w) s = .next s1.stall))) ∧
  (∀ (s s1 : State) (k k1 : Core) (n : Nat) (x x1 : Ctx), s.issues k n x → s1 = s.mxSettle s.cur → s1.issues k1 n x1 →
     let busy := fun (why : Word64) (g : Guard) (i : Instr) (i64 : Sync → Instr) => s.passesM g →
       exec i s = .next (s1.trap 0x0C why) ∧ ∀ w, exec (i64 w) s = .next (s1.trap 0x0C why)
     (k1.mxown ≠ some n →
       (∀ o : OpN, busy 1 o.g (.mdrain o) (.mdrain64 o)) ∧ (∀ o : OpMma, busy 1 o.g (.mma o) (.mma64 o) ∧ busy 1 o.g (.mmaz o) (.mmaz64 o)) ∧
       (∀ o : OpMbld, busy 1 o.g (.mbld o) (.mbld64 o)) ∧ (∀ o : OpMtile, busy 1 o.g (.mzst o) (.mzst64 o) ∧ busy 1 o.g (.mzld o) (.mzld64 o)) ∧
       (∀ o : OpMtrn, busy 1 o.g (.mtrn o) (.mtrn64 o)) ∧ (∀ o : OpMbfly, busy 1 o.g (.mbfly o) (.mbfly64 o)) ∧
       (∀ o : OpMtwid, o.nm1 ≠ 0 → busy 1 o.g (.mtwid o) (.mtwid64 o)) ∧
       (∀ o : OpMfmt, legalPair o.at' o.bt o.sc = true → busy 1 o.g (.mfmt o) (.mfmt64 o)) ∧
       (∀ o : OpMrow, (o.ft = .bf16 → o.h = false) → busy 1 o.g (.mzrd o) (.mzrd64 o) ∧ busy 1 o.g (.mzwr o) (.mzwr64 o)) ∧
       (∀ o : OpMzero, busy 1 o.g (.mzero o) (.mzero64 o)) ∧ (∀ o : OpMcfg, s.passesM o.g → exec (.mcfg o) s = .next (s1.trap 0x0C 1))) ∧
     (k1.mxown = some n → ∀ o : OpMfmt, legalPair o.at' o.bt o.sc = true → (o.at' = .f32 → cfgK k1.mx.cfgIssued ≤ 1024) →
       fmtWord o.at' o.bt o.sc ≠ k1.mx.fmtIssued → k1.mx.drained = false → busy 2 o.g (.mfmt o) (.mfmt64 o)))

/-- 06 R130, R131, 17 R418, R454, R457, R458: the accumulator port and MCFG. MZRD, MZWR and MZERO start at their issue with the row, or the v register, as it
stands; MCFG holds its context. MZRD, MZWR or MZERO whose wait is not met arms it and blocks its bundle (12 R290). -/
def Obligations.AccumulatorPortOperationsStart : Prop :=
  ∀ (s s1 : State) (k k1 : Core) (n : Nat) (x x1 : Ctx) (w : Sync), s.issues k n x → s1 = s.mxSettle s.cur → s1.issues k1 n x1 →
    k1.mxown = some n →
    let met := w.wt = 0 ∨ (k1.sem w.ws.toNat).met w.wt.toNat = true
    let started := fun (i : Instr) (w : Sync) (kind : MKind) (lat : Nat) (e : Nat → Event) =>
      ∃ t k' o, exec i s = .next t ∧ t.core? s.cur = some k' ∧ k'.mx.port = k1.mx.port ++ [o] ∧ o.kind = kind ∧ o.sync = w ∧ o.ctx = n ∧
        o.start = some s1.cycle ∧ k'.mx.queue = k1.mx.queue ∧ k'.ctx? n = some x1 ∧ (s1.cycle + lat, e o.id) ∈ t.agenda
    let both := fun (g : Guard) (i : Instr) (i64 : Sync → Instr) (kind : MKind) (lat : Nat) (e : Nat → Event) =>
      s.passesM g → started i Sync.none kind lat e ∧ (met → started (i64 w) w kind lat e) ∧ (¬met → Slot.m ∉ x1.sat → BlocksOn s (i64 w) n x1 .m w)
    (∀ o : OpMrow, (o.ft = .bf16 → o.h = false) →
      both o.g (.mzrd o) (.mzrd64 o) (.mzrd o.v.toNat o.h o.ft (k1.mx.row o.z.toNat o.row.toNat)) 3 (Event.mzrdCompletion s.cur) ∧
      both o.g (.mzwr o) (.mzwr64 o) (.mzwr o.z.toNat o.row.toNat o.h o.ft (x1.vNow s1.cycle o.v.toNat)) 2 (Event.mzwrCompletion s.cur)) ∧
    (∀ o : OpMzero, both o.g (.mzero o) (.mzero64 o) (.mzero o.z.toNat) 2 (Event.mzeroCompletion s.cur)) ∧
    (∀ o : OpMcfg, s.passesM o.g → (k1.mx.pair.1 = .f32 → o.km.toNat ≤ 31) →
      ∃ t k' x', exec (.mcfg o) s = .next t ∧ t.core? s.cur = some k' ∧ k'.ctx? n = some x' ∧ x'.holdM = .mcfg o.mc o.nc o.km ∧ x'.regs = x1.regs ∧
        k'.mx.cfgIssued = BitVec.ofNat 64 (o.mc.toNat + 4 * o.nc.toNat + 16 * o.km.toNat) ∧ k'.mx.tiles = k1.mx.tiles)

/-- 06 R126, R127, R130: with the engine idle and no FENCE holding it, an operation of the queue starts; MCFG_CLEAR loads MXCFG, zeroes the tiles and lets the owner issue
64 cycles later. -/
def Obligations.MatrixQueueStartAndClear : Prop :=
  (∀ (s : State) (c : Nat) (k : Core) (o : MOp), s.core? c = some k → s.ev = .matrixQueueStart c → k.mx.run = [] → k.mx.port = [] → k.mx.queue = [o] →
    k.mx.clock ≤ s.cycle → k.fenced o.ctx o.id (if (MKind.memReg o.kind).isSome then 8 else 0) = false →
    ∃ t k', exec .matrixQueueStart s = .next t ∧ t.core? c = some k' ∧ k'.mx.queue = [] ∧ k'.mx.run = [{ o with start := some s.cycle }]) ∧
  (∀ (s : State) (c n : Nat) (k : Core) (x : Ctx) (mc nc : BitVec 2) (km : BitVec 7), s.core? c = some k → s.ev = .mcfgClear c → k.mx.run = [] → k.mx.port = [] →
    k.mx.queue = [] → k.mxown = some n → k.ctx? n = some x → x.holdM = .mcfg mc nc km →
    ∃ t k' x', exec .mcfgClear s = .next t ∧ t.core? c = some k' ∧ k'.ctx? n = some x' ∧ k'.mx.cfg = BitVec.ofNat 64 (mc.toNat + 4 * nc.toNat + 16 * km.toNat) ∧
      (∀ z i, k'.mx.row z i = ⟨0, 0⟩) ∧ x'.holdM = .none ∧ s.cycle + 64 ≤ x'.holdUntil)

/-- 06 R127, R134 to R142, 17 R426, R433, R446, R456, R458: the completion of a matrix operation, once its last effect has happened, signals its semaphore, and MTWID,
MFMT and MZRD write their registers: MZRD .f32 half a row, MZRD .bf16 all 64 words, each rounded by RNE16, with their poison, and poisoned where the guard was (12 R300 as the model
reads it, log entry 34, DEDUCED).
06 R134, R135: a residue check of an MMA, an MTRN or an MBFLY that fails once is counted in MXERR and costs the operation its time again (S + 24 cycles for an
MMA; for the others their own, which for an MTRN is log entry 84, DEDUCED): the engine stands for that long, every operation under way is put off by it, and the
owner issues no bundle meanwhile; where it fails again that is counted too, and the rows or points named are condemned. (That a check which fails twice counts MXERR.PSN in the event
and the cycle in which it counts MXERR.REEX is the model's choice: log entry 99, DESIGN CHOICE; 06 R135 gives no cycle for it.) -/
def Obligations.MatrixCompletionsSignal : Prop :=
  (∀ (s s1 : State) (c id : Nat) (k1 : Core) (o : MOp), s1 = s.mxSettle c → s1.core? c = some k1 → k1.mxOp id = some o → o.fin = false →
     k1.mxThrough s1.cycle o = true → k1.mx.clock ≤ s1.cycle →
     let done := fun (i : Instr) (e : Event) (also : State → Core → Prop) => s.ev = e →
       ∃ t k', exec i s = .next t ∧ t.core? c = some k' ∧ (∀ p ∈ k'.mx.run ++ k'.mx.port, p.id = id → p.fin = true) ∧
         (o.sync.si ≠ 0 → k'.sem o.sync.ss.toNat = (k1.sem o.sync.ss.toNat).signal o.sync.si.toNat) ∧ k'.mx.tiles = k1.mx.tiles ∧ also t k'
     (∀ z d q b, o.kind = .mma z d q b → done .mmaCompletion (.mmaCompletion c id .passed) fun _ _ => True) ∧
     (∀ q b, o.kind = .mbld q b → done .mbldCompletion (.mbldCompletion c id) fun _ _ => True) ∧
     (∀ z q, o.kind = .mzst z q → done .mzstCompletion (.mzstCompletion c id) fun _ _ => True) ∧
     (∀ z q, o.kind = .mzld z q → done .mzldCompletion (.mzldCompletion c id) fun _ _ => True) ∧
     (∀ a b, o.kind = .mtrn a b → done .mtrnCompletion (.mtrnCompletion c id .passed) fun _ _ => True) ∧
     (∀ a b d e, o.kind = .mbfly a b d e → done .mbflyCompletion (.mbflyCompletion c id .passed) fun _ _ => True) ∧
     (∀ t r, o.kind = .mtwid t r → done .mtwidCompletion (.mtwidCompletion c id) fun _ k' =>
       k'.mx.bfc = BitVec.ofNat 64 (t.nm1 + 2 ^ 16 * bitN t.inv + 2 ^ 17 * bitsOf r 0 30 + 2 ^ 48 * bitsOf r 48 4)) ∧
     (∀ a b d, o.kind = .mfmt a b d → done .mfmtCompletion (.mfmtCompletion c id) fun _ k' => k'.mx.fmt = fmtWord a b d) ∧
     (o.kind = .mdrain → done .mdrainStart (.mdrainStart c id) fun _ _ => True) ∧
     (∀ v h ft row, o.kind = .mzrd v h ft row → done .mzrdCompletion (.mzrdCompletion c id) fun t _ => ∀ x, k1.ctx? o.ctx = some x →
       ∃ x' u, t.ctx? c o.ctx = some x' ∧
         (ft = .f32 → ∀ j < 32, u.lane j = ⟨(row.word (32 * bitN h + j)).w, o.psn || (row.word (32 * bitN h + j)).p⟩) ∧
         (ft = .bf16 → (∀ e < 64, u.elem .bf16 e = rne16 (row.word e).w) ∧
           ∀ j < 32, (u.lane j).p = (o.psn || (row.word (2 * j)).p || (row.word (2 * j + 1)).p)) ∧
         -- a write of the F slot to the register that completes later comes after it in the lanes it writes (03 R57)
         let later := x.vold.find? fun e => e.1 = v && decide (s1.cycle < e.2.2.1)
         (later = none → x'.regs = x.regs.setV v u) ∧
         (∀ f, later = some f → x'.regs = x.regs.setV v (VV.merge f.2.2.2 (x.regs.getV v) u) ∧ x'.vNow s1.cycle v = u)) ∧
     (∀ z i h f u, o.kind = .mzwr z i h f u → done .mzwrCompletion (.mzwrCompletion c id) fun _ _ => True) ∧
     (∀ z, o.kind = .mzero z → done .mzeroCompletion (.mzeroCompletion c id) fun _ _ => True)) ∧
  (∀ (s s1 : State) (c id t cost : Nat) (k1 : Core) (o : MOp) (bad : List Nat), s1 = s.mxSettle c → s1.core? c = some k1 → k1.mxOp id = some o →
     o.checked = some (t, cost) → t = s1.cycle → k1.mx.clock ≤ s1.cycle →
     let again := fun (i : Instr) (err : Word64) (late : List Nat) =>
       ∃ t' k', exec i s = .next t' ∧ t'.core? c = some k' ∧ k'.mx.err = err ∧ k'.mx.clock = s1.cycle + cost ∧ k'.mx.tiles = k1.mx.tiles ∧
         (∀ p ∈ k'.mx.run ++ k'.mx.port, ∃ q ∈ k1.mx.run ++ k1.mx.port, p.id = q.id ∧ p.waited = q.waited + cost ∧ (p.id = id → p.bad = late) ∧
           (p.id ≠ id → p.bad = q.bad)) ∧
         (∀ n x, k1.mxown = some n → k1.ctx? n = some x → ∃ x', k'.ctx? n = some x' ∧ x'.holdUntil = max x.holdUntil s1.cycle + cost ∧ x'.regs = x.regs ∧
           x'.pc = x.pc) ∧
         (∀ n, k1.mxown = some n → k1.issuing = some n → k'.freeAt = max k1.freeAt s1.cycle + cost)
     let checks := fun (i : Instr) (e : ResidueCheck → Event) =>
       (s.ev = e .once → again i (mxCount k1.mx.err 0) []) ∧ (s.ev = e (.twice bad) → again i (mxCount (mxCount k1.mx.err 0) 16) bad)
     (∀ z d q b, o.kind = .mma z d q b → checks .mmaCompletion (Event.mmaCompletion c id) ∧ cost = o.steps + 24) ∧
     (∀ a b, o.kind = .mtrn a b → checks .mtrnCompletion (Event.mtrnCompletion c id)) ∧
     (∀ a b d e, o.kind = .mbfly a b d e → checks .mbflyCompletion (Event.mbflyCompletion c id)))

/-- 06 R128, R136 to R138, 17 R440, R442, R456, R458: what an operation writes in a cycle lies in its own tile. MMA writes words 0 to N − 1 of a row, MZLD and MTRN a row, MBFLY the
words of its points in the tiles that they cover, MZWR its half or its row, MZERO zero everywhere in its tile; MBLD and MZST write no tile. (06 R136 has MZERO clear the poison
bits of its tile; that one under a poisoned guard poisons what it writes is 12 R300 as the model reads it, log entry 34, DEDUCED; that an MZLD writes at most the one row
`rowsWritten` in a cycle is log entry 94, DESIGN CHOICE.)
05 R108, 06 R121: a word of an i8 accumulation is the old word plus the exact sum of the products, modulo 2^32.
05 R108 to R110: a fold of a floating format (two elements of BF16, one of FP32, a block of 32 of a narrow one, with the block's scale bytes) rounds the exact sum of the old
word and its products once; a NaN among them, a product of zero and infinity, a scale byte of 0xFF or infinities of both signs give the canonical NaN, else an infinity decides.
(That the old word counts among the infinities is log entry 83, DEDUCED.)
06 R121, R123, R127, R133: a row of an MMA, the elements of A that it takes, its poison (that the scale byte of each
element of A which the row takes poisons it is log entry 98, DEDUCED) and the cycles in which it is read and written.
06 R138, R141 to R144, R133: the words that an MBFLY writes: every butterfly of its stage, from the points as they were read, in ascending order of the inputs, with CMUL, the scale
Cr and the reversed position of ORD. -/
def Obligations.MatrixWritesStayInTheirTile : Prop :=
  (∀ (m : Matrix) (c : Nat) (o : MOp), Tab.wf (⟨0, 0⟩ : TileRow) m.tiles = true →
     (∀ zero z q b, o.kind = .mma zero z q b → o.rowsWritten < 64 → ∀ z' i, i < 64 → z' ≠ z → (m.mxWrite c o).1.row z' i = m.row z' i) ∧
     (∀ z q, o.kind = .mzld z q → o.rowsWritten < 64 → ∀ z' i, i < 64 → (z', i) ≠ (z, o.rowsWritten) → (m.mxWrite c o).1.row z' i = m.row z' i) ∧
     (∀ zd zs, o.kind = .mtrn zd zs → o.rowsWritten < 64 → ∀ z' i, i < 64 → (z', i) ≠ (zd, o.rowsWritten) → (m.mxWrite c o).1.row z' i = m.row z' i) ∧
     (∀ zb stg scl ord t, o.kind = .mbfly zb stg scl ord → o.twid = some t →
       (∀ z' i, i < 64 → z' < zb ∨ zb + t.tiles ≤ z' → (m.mxWrite c o).1.row z' i = m.row z' i) ∧
       (∀ i < 64 * t.tiles, ∀ j < 64, t.n ≤ 32 * i + j / 2 → ((m.mxWrite c o).1.row zb i).word j = (m.row zb i).word j)) ∧
     (∀ z row h u, o.kind = .mzwr z row h .f32 u → row < 64 → ∀ j < 64, j / 32 ≠ bitN h → ((m.mxWrite c o).1.row z row).word j = (m.row z row).word j) ∧
     (∀ q b, o.kind = .mbld q b ∨ o.kind = .mzst q b → (m.mxWrite c o).1.tiles = m.tiles) ∧
     (∀ zero z q b, o.kind = .mma zero z q b → o.rowsWritten < 64 → ∀ i < 64, ∀ j < 64, o.n ≤ j → ((m.mxWrite c o).1.row z i).word j = (m.row z i).word j) ∧
     (∀ z row h f u, o.kind = .mzwr z row h f u → row < 64 → ∀ z' i, i < 64 → (z', i) ≠ (z, row) → (m.mxWrite c o).1.row z' i = m.row z' i) ∧
     (∀ z, o.kind = .mzero z → c = o.base + 2 → ∀ i < 64, (m.mxWrite c o).1.row z i = ⟨0, if o.psn then BitVec.allOnes 64 else 0⟩ ∧
       ∀ z', z' ≠ z → (m.mxWrite c o).1.row z' i = m.row z' i)) ∧
  (∀ (k : Nat) (acc : Word32) (a b : Array Elem),
     accumulate (.int .i8) (.int .i8) k acc a b =
       acc + BitVec.ofInt 32 (((List.range k).map fun j => IType.int .i8 (a.getD j .dead).bits * IType.int .i8 (b.getD j .dead).bits).sum)) ∧
  (∀ (at' bt : EType) (n : Nat) (a b : Array Elem) (w : Word32),
     (at' = .bf16 ∧ n = 2) ∨ (at' = .f32 ∧ n = 1) ∨ ((at' = .e4m3 ∨ at' = .e5m2 ∨ at' = .e3m2 ∨ at' = .e2m1) ∧ n = 32) →
     accumulate at' bt 0 w a b = w ∧
     ∀ j, n * (j + 1) ≤ a.size → n * (j + 1) ≤ b.size →
       let scaled := fun (e : Elem) (x : Val) => if n = 32 then (if e.scale = 0xFF then .nan else x.scale ((e.scale.toNat : Int) - 127)) else x
       let products := (List.range n).map fun i => scaled (b.getD (n * j) .dead) (scaled (a.getD (n * j) .dead)
         (((a.getD (n * j + i) .dead).val at').mul ((b.getD (n * j + i) .dead).val bt)))
       let terms := f32 (accumulate at' bt (n * j) w a b) :: products
       let next := accumulate at' bt (n * (j + 1)) w a b
       (Val.nan ∈ terms ∨ (Val.inf false ∈ terms ∧ Val.inf true ∈ terms) → next = 0x7FC00000) ∧
       (∀ sign, Val.nan ∉ terms → Val.inf sign ∈ terms → Val.inf (!sign) ∉ terms → next = if sign then 0xFF800000 else 0x7F800000) ∧
       -- all finite: the exact sum, counted in units of 2^q below every exponent, rounded once
       ((∀ x ∈ terms, ∃ s m e, x = .fin s m e) → ∃ s m e, next = rne32 (.fin s m e) ∧ (m = 0 → s = terms.all Val.sign) ∧
         ∀ q, q ≤ e → (∀ x ∈ terms, ∀ s m e, x = .fin s m e → q ≤ e) → scaledInt s m e q = (terms.map fun x => match x with
           | .fin s m e => scaledInt s m e q
           | .inf _ => 0
           | .nan => 0).sum)) ∧
  (∀ (o : MOp) (zero : Bool) (old : TileRow) (i : Nat),
     let a := o.aRow o.taken.reverse.toArray i
     let g := match o.at' with
       | .bf16 => 2
       | .f32 => 1
       | .e2m1 => 8
       | .int _ | .e4m3 | .e5m2 | .e3m2 => 4
     a.size = o.k ∧ (∀ k < o.k, a.getD k .dead = o.taken.reverse.getD (k / g * (o.m * g) + i * g + k % g) .dead) ∧
     ∀ j < o.bcap.length, j < 64 → let b := (o.bcap.getD j []).toArray
       (o.mmaRow zero old i).word j = ⟨accumulate o.at' o.bt o.k (if zero then 0 else (old.word j).w) a b,
         (!zero && (old.word j).p) || a.any (fun e => e.p || e.sp) || b.any (·.p) || o.bad.contains i⟩) ∧
  (∀ (k : Core) (m : Matrix) (c : Nat) (o : MOp) (zero : Bool) (z q b : Nat), o.kind = .mma zero z q b → Tab.wf (⟨0, 0⟩ : TileRow) m.tiles = true →
     (o.step = o.steps → o.rowsRead < o.m → c = o.base + o.steps + 23 + o.rowsRead →
       (k.mxRead c o).2.acc = o.acc ++ [o.mmaRow zero (k.mx.row z o.rowsRead) o.rowsRead] ∧ (k.mxRead c o).2.rowsRead = o.rowsRead + 1) ∧
     (∀ r l, o.acc = r :: l → o.rowsWritten < o.rowsRead → c = o.base + o.steps + 24 + o.rowsWritten →
       (∀ j < 64, j < o.n → ((m.mxWrite c o).1.row z o.rowsWritten).word j = ⟨(r.word j).w, o.psn || (r.word j).p⟩) ∧
       (m.mxWrite c o).2.rowsWritten = o.rowsWritten + 1 ∧ (m.mxWrite c o).2.acc = l)) ∧
  (∀ (n : Nat) (inv : Bool) (u : Word32 × Word32) (e : Nat), 2 ≤ n →
     let minus := fun (x : Word32) => rne32 (f32 x).neg
     let quarter := fun (q : Nat) => e % n ≠ 0 ∧ 4 * e % n = 0 ∧ 4 * e / n % 4 = q
     (e % n = 0 → cmul n inv u e = u) ∧
     (quarter 2 → cmul n inv u e = (minus u.1, minus u.2)) ∧
     (quarter (if inv then 3 else 1) → cmul n inv u e = (u.2, minus u.1)) ∧
     (quarter (if inv then 1 else 3) → cmul n inv u e = (minus u.2, u.1)) ∧
     (4 * e % n ≠ 0 → let w := twiddle n inv e; let f := fun (x : Word32) => f32 x
       cmul n inv u e = (rne32 (((f u.1).mul (f w.1)).add (f (rne32 ((f u.2).mul (f w.2)))).neg),
         rne32 (((f u.1).mul (f w.2)).add (f (rne32 ((f u.2).mul (f w.1)))))))) ∧
  (radixScale 2 = 0x3F000000 ∧ radixScale 3 = 0x3EAAAAAB ∧ radixScale 4 = 0x3E800000 ∧ radixScale 5 = 0x3E4CCCCD ∧ radixScale 8 = 0x3E000000) ∧
  (∀ (x : Matrix) (o : MOp) (zb stg : Nat) (scl ord : Bool) (t : Twid), o.kind = .mbfly zb stg scl ord → o.twid = some t → Tab.wf (⟨0, 0⟩ : TileRow) x.tiles = true →
     radixProduct t.rad = t.n → (∀ r ∈ t.rad, r = 2 ∨ r = 3 ∨ r = 4 ∨ r = 5 ∨ r = 8) → stg < t.rad.length → o.src.length = 64 * t.tiles →
     let r := t.rad.getD stg 2
     let ns := radixProduct (t.rad.drop stg)
     let m := ns / r
     let point := fun (n : Nat) => ((o.src.getD (n / 32) ⟨0, 0⟩).word (2 * (n % 32)), (o.src.getD (n / 32) ⟨0, 0⟩).word (2 * (n % 32) + 1))
     ∀ b j p, b < t.n / ns → j < m → p < r →
       let u := fun (q : Nat) => point (b * ns + j + q * m)
       let value := fun (q : Nat) => ((u q).1.w, (u q).2.w)
       let sum := (List.range' 1 (r - 1)).foldl (fun (acc : Word32 × Word32) q =>
         let x := cmul t.n t.inv (value q) (p * q % r * (t.n / r))
         (rne32 ((f32 acc.1).add (f32 x.1)), rne32 ((f32 acc.2).add (f32 x.2)))) (value 0)
       let y := cmul t.n t.inv (if scl then (rne32 ((f32 sum.1).mul (f32 (radixScale r))), rne32 ((f32 sum.2).mul (f32 (radixScale r)))) else sum) (j * p * (t.n / ns))
       let psn := (List.range r).any fun q => (u q).1.p || (u q).2.p
       let n := b * ns + j + p * m
       let stands := fun (at' : Nat) => at' < t.n ∧ let row := (x.mxWrite (o.base + o.stage) o).1.row zb (at' / 32)
         row.word (2 * (at' % 32)) = ⟨y.1, psn || o.psn || o.bad.contains at'⟩ ∧ row.word (2 * (at' % 32) + 1) = ⟨y.2, psn || o.psn || o.bad.contains at'⟩
       (ord = false → stands n) ∧
       -- ORD: the digits of n, first to last, are those of its place, last to first
       (ord = true → ∀ d : List Nat, d.length = t.rad.length → (∀ i < d.length, d.getD i 0 < t.rad.getD i 0) →
         n = ((List.range d.length).map fun i => d.getD i 0 * radixProduct (t.rad.drop (i + 1))).sum →
         stands ((List.range d.length).map fun i => d.getD i 0 * radixProduct (t.rad.take i)).sum))

/-! ## The stream command queue, streams and the grid -/

/-- 07 R163, R172, 16 R399 to R402, 18 R461 to R497: a Q-slot command whose operands pass its checks and whose wait is met enters the queue with its captured operands;
QSET takes its register at its issue. GSTOP asks a RUNNING grid to stop at its next turn boundary; in any other state it signals at its issue. No register of the
files changes.
04 R83, 12 R290, 03 R58: a Q-slot command whose wait is not met arms it and blocks its bundle; one that finds its queue full stalls in place.
Where no other command is queued, no FENCE holds it and its engine is free, the command starts with the event that it posted: QLD, QST, QGATH and QSCAT make their
register ACTIVE with all the elements to come; QSET, QCOPY, QCCOPY, QRCOPY and the stash commands are at work; a QCOPY of no bytes completes at once, and so does a stash
command (10 R243); GCFG loads; GRUN runs the grid. -/
def Obligations.StreamCommandsAreQueued : Prop :=
  (∀ (s : State) (k : Core) (n : Nat) (x : Ctx) (w : Sync), s.issues k n x →
     let met := w.wt = 0 ∨ (k.sem w.ws.toNat).met w.wt.toNat = true
     let full := 16 ≤ (k.qcmds.filter fun q => !q.started).length
     let queued := fun (i : Instr) (w : Sync) (kind : QKind) =>
       ∃ t k' q, exec i s = .next t ∧ t.core? s.cur = some k' ∧ k'.qcmds = k.qcmds ++ [q] ∧ q.kind = kind ∧ q.sync = w ∧ q.ctx = n ∧ q.started = false ∧
         k'.ctx? n = some x ∧ (s.cycle, Event.streamCommandStart s.cur) ∈ t.agenda ∧
         ∀ r a, kind = .qset r a → (k'.sreg r).alloc = true ∧ (k'.sreg r).owner = n
     (k.qAdmits s.bun.old n fun g i i64 kind => s.passes g .pk →
       (¬full → queued i Sync.none kind ∧ (met → queued (i64 w) w kind)) ∧
       (¬met → Slot.q ∉ x.sat → BlocksOn s (i64 w) n x .q w) ∧
       (full → exec i s = .next s.stall ∧ (met → exec (i64 w) s = .next s.stall))) ∧
     (∀ o : OpN, s.passes o.g .pk →
       (¬met → Slot.q ∉ x.sat → BlocksOn s (.gstop64 o w) n x .q w) ∧
       (k.grid.st ≠ 3 → exec (.gstop o) s = .next s ∧ (met → exec (.gstop64 o w) s = .next (s.post1 s.cur n w))) ∧
       (∀ g, k.grid.st = 3 → k.grid.run = some g →
         let stops := fun (i : Instr) (w : Sync) =>
           ∃ t k', exec i s = .next t ∧ t.core? s.cur = some k' ∧ k'.ctx? n = some x ∧ (s.cycle, Event.gstopBoundary s.cur) ∈ t.agenda ∧
             k'.grid = { k.grid with st := 4, run := some { g with stopping := true, stopSync := g.stopSync ++ [(n, w)] } }
         stops (.gstop o) Sync.none ∧ (met → stops (.gstop64 o w) w)))) ∧
  (∀ (s : State) (k : Core) (n : Nat) (x : Ctx) (w : Sync), s.issues k n x → k.qcmds = [] → x.fences = [] → k.enginesUsed < 6 →
     (w.wt = 0 ∨ (k.sem w.ws.toNat).met w.wt.toNat = true) →
     let r := s.bun.old
     let runs := fun (i : Instr) (w : Sync) (effect : State → Core → Prop) =>
       ∃ t u k', exec i s = .next t ∧ exec .streamCommandStart { t with ev := .streamCommandStart s.cur } = .next u ∧ u.core? s.cur = some k' ∧ effect u k' ∧
         (∀ x', k'.ctx? n = some x' → x'.regs = x.regs) ∧ (k'.qcmds = [] ∨ ∃ q, k'.qcmds = [q] ∧ q.started = true ∧ q.id = k.nextCmd ∧ q.ctx = n ∧ q.sync = w)
     let both := fun (g : Guard) (i : Instr) (i64 : Sync → Instr) (effect : Sync → State → Core → Prop) =>
       s.passes g .pk → runs i Sync.none (effect Sync.none) ∧ runs (i64 w) w (effect w)
     let working := fun (kind : QKind) (e : Event) (_ : Sync) (u : State) (k' : Core) => (∃ q ∈ k'.qcmds, q.kind = kind) ∧ ∃ d, (d, e) ∈ u.agenda
     let flows := fun (q : Nat) (d : Desc) (store : Bool) (w : Sync) (_ : State) (k' : Core) => (k'.sreg q).st = 2 ∧ ∃ m, (k'.sreg q).strm = some m ∧
       m.store = store ∧ m.ctx = n ∧ m.sync = w ∧ m.total = d.total ∧ m.done = 0 ∧ m.taken = 0 ∧ m.cancelled = false
     (∀ o : OpQset, let a := r.getXY o.fs o.a.toNat
       a.p = false → a.v.toNat % 128 = 0 → ((k.sreg o.q.toNat).alloc = false ∨ (k.sreg o.q.toNat).owner = n) → k.regBusy o.q.toNat = false →
       both o.g (.qset o) (.qset64 o) (working (.qset o.q.toNat a.v) (.qsetCompletion s.cur o.q.toNat))) ∧
     (∀ (o : OpQstrm) (d : Desc), let q := o.q.toNat
       (∃ e, Tab.get none k.sregs q = some e ∧ e.alloc = true ∧ e.owner = n) → (k.sreg q).desc = some d → k.regBusy q = false → 0 < d.total →
       (d.ix = true → k.regBusy d.iq = false) →
       (k.strmBad n q false false = false → both o.g (.qld o) (.qld64 o) (flows q d false)) ∧
       (k.strmBad n q true false = false → both o.g (.qst o) (.qst64 o) (flows q d true)) ∧
       (k.strmBad n q false true = false → both o.g (.qgath o) (.qgath64 o) (flows q d false)) ∧
       (k.strmBad n q true true = false → both o.g (.qscat o) (.qscat64 o) (flows q d true))) ∧
     (∀ o : OpQcopy, let a := r.getXY o.fs o.a.toNat; let b := r.getXY o.fs o.b.toNat; let c := r.getXY o.fs o.c.toNat
       a.p = false → b.p = false → c.p = false →
       (c.v.toNat ≤ 2 ^ 32 → a.v.toNat + c.v.toNat ≤ 2 ^ 52 → b.v.toNat + c.v.toNat ≤ 2 ^ 52 →
         (c.v ≠ 0 → both o.g (.qcopy o) (.qcopy64 o) (working (.qcopy a.v b.v c.v) (.copyCompletion s.cur k.nextCmd))) ∧
         (c.v = 0 → both o.g (.qcopy o) (.qcopy64 o) fun w _ k' => k'.qcmds = [] ∧
           (w.si ≠ 0 → k'.sem w.ss.toNat = (k.sem w.ss.toNat).signal w.si.toNat))) ∧
       (bitsOf c.v 32 16 % 4 = 0 → 4 ≤ bitsOf c.v 32 16 → bitsOf c.v 32 16 ≤ 16384 → bitsOf c.v 48 16 = 0 → a.v.toNat % 4 = 0 → b.v.toNat % 4 = 0 →
         both o.g (.qccopy o) (.qccopy64 o) (working (.qccopy a.v b.v c.v) (.copyCompletion s.cur k.nextCmd))) ∧
       (b.v.toNat % 4 = 0 → 4 ≤ b.v.toNat → b.v.toNat ≤ 2 ^ 24 → bitsOf c.v 44 20 = 0 → a.v.toNat % 4 = 0 → s.flowsHeld s.cur = false →
         k.drainBefore n k.nextCmd = false → both o.g (.qrcopy o) (.qrcopy64 o) (working (.qrcopy a.v b.v c.v) (.flowRowSend s.cur k.nextCmd)))) ∧
     (∀ o : OpGcfg, let a := r.getXY o.fs o.a.toNat
       a.p = false → both o.g (.gcfg o) (.gcfg64 o) fun _ u k' => k'.grid.st = 1 ∧ k'.grid.load = some ⟨k.nextCmd, n, a.v, o.lut, o.iim1.toNat, [], false⟩ ∧
         ∃ d, (d, Event.gcfgLoadEnd s.cur) ∈ u.agenda) ∧
     (∀ o : OpGrun, let a := r.getXY o.fs o.a.toNat; let b := r.getXY o.fs o.b.toNat
       a.p = false → b.p = false → (∀ q ∈ boundRegs a.v, (k.sreg q).alloc = true ∧ (k.sreg q).owner = n) → (boundRegs a.v).Nodup → bitsOf a.v 38 26 = 0 →
       k.grid.st ≠ 0 → both o.g (.grun o) (.grun64 o) fun w u k' => k'.grid.st = 3 ∧ (∃ g, k'.grid.run = some g ∧ g.bind = a.v ∧ g.turns = b.v.toNat % 2 ^ 32 ∧
         g.cyc = 0 ∧ g.ctx = n ∧ g.sync = w) ∧ ∃ d, (d, Event.grunCompletion s.cur) ∈ u.agenda) ∧
     (∀ o : OpStash, let a := r.getXY o.fs o.a.toNat; let b := r.getXY o.fs o.b.toNat
       let does := fun (op : Nat) => working (.stash op a.v b.v) (.stashCommandCompletion s.cur k.nextCmd)
       let ended := fun (w : Sync) (_ : State) (k' : Core) => k'.qcmds = [] ∧ (w.si ≠ 0 → k'.sem w.ss.toNat = (k.sem w.ss.toNat).signal w.si.toNat)
       a.p = false → b.p = false → b.v.toNat ≤ 8388608 → a.v.toNat + b.v.toNat ≤ 2 ^ 52 →
       (b.v ≠ 0 → both o.g (.spin o) (.spin64 o) (does 0) ∧ both o.g (.sunpin o) (.sunpin64 o) (does 1) ∧
         both o.g (.swb o) (.swb64 o) (does 2) ∧ both o.g (.sinv o) (.sinv64 o) (does 3)) ∧
       (b.v = 0 → both o.g (.spin o) (.spin64 o) ended ∧ both o.g (.sunpin o) (.sunpin64 o) ended ∧
         both o.g (.swb o) (.swb64 o) ended ∧ both o.g (.sinv o) (.sinv64 o) ended)))

/-- 07 R172, R169, R175, 18 R477: a command that may start leaves the queue for its engine. A stream on a good descriptor makes its register ACTIVE with all its elements to
come; one on a bad descriptor is cancelled with a STREAM_FAULT of cause 1. (That a start which finds its register FREE is such a one is log entry 100, DESIGN CHOICE.)
07 R164, R165, 18 R481: QSET completes. A descriptor that can be read is judged: its register is SET, or BAD; the address 0 frees the register; the command signals. (That a
QSET under a poisoned guard takes every word of its descriptor as poisoned is 12 R300 as the model reads it, log entry 34, DEDUCED.) -/
def Obligations.StreamCommandsStart : Prop :=
  (∀ (s : State) (c q : Nat) (k : Core) (y : QCmd) (store ix : Bool), s.core? c = some k → s.ev = .streamCommandStart c → k.qcmds = [y] → y.kind = .strm q store ix →
     y.next = 0 → k.qStarts y = true →
     (∀ d, (k.sreg q).desc = some d → k.strmBad y.ctx q store ix = false → 0 < d.total → ix = false →
       ∃ t k' m, exec .streamCommandStart s = .next t ∧ t.core? c = some k' ∧ k'.qcmds = [] ∧ (k'.sreg q).st = 2 ∧ (k'.sreg q).strm = some m ∧
         m.store = store ∧ m.ctx = y.ctx ∧ m.sync = y.sync ∧ m.total = d.total ∧ m.done = 0 ∧ m.taken = 0 ∧ m.cancelled = false) ∧
     (∀ x, k.strmBad y.ctx q store ix = true → k.ctx? y.ctx = some x → x.st ≠ .empty → x.pend.faults = [] →
       ∃ t k' m x', exec .streamCommandStart s = .next t ∧ t.core? c = some k' ∧ (k'.sreg q).strm = some m ∧ m.cancelled = true ∧ k'.ctx? y.ctx = some x' ∧
         x'.pend.faults = [⟨q, 0x01, 0, 3, y.id⟩])) ∧
  (∀ (s : State) (c q : Nat) (a : Word64) (k : Core) (y : QCmd), s.core? c = some k → s.ev = .qsetCompletion c q → k.qcmds = [y] → y.kind = .qset q a →
     y.started = true → y.faulted = false →
     (∀ s1 k1 ws, a ≠ 0 → s.readWords c false a.toNat 32 = (s1, .got ws) → s1.core? c = some k1 →
       let d := parseDesc q (ws.map fun w => { w with p := w.p || y.psn })
       ∃ t k', exec .qsetCompletion s = .next t ∧ t.core? c = some k' ∧ k'.qcmds = [] ∧ (k'.sreg q).desc = d ∧ (k'.sreg q).descAddr = a ∧
         (k'.sreg q).st = (if d.isSome then 1 else 4) ∧
         (y.sync.si ≠ 0 → k'.sem y.sync.ss.toNat = (k1.sem y.sync.ss.toNat).signal y.sync.si.toNat)) ∧
     (a = 0 → Tab.wf none k.sregs = true →
       ∃ t k', exec .qsetCompletion s = .next t ∧ t.core? c = some k' ∧ k'.qcmds = [] ∧ Tab.get none k'.sregs q = none ∧
         (y.sync.si ≠ 0 → k'.sem y.sync.ss.toNat = (k.sem y.sync.ss.toNat).signal y.sync.si.toNat)))

/-- 07 R169 to R174: elements of a stream. The last element of a load stream arrives in its buffer; a group of a store stream performs; an element whose translation faults leaves
its register FAULTED with STREAM_FAULT pending in its context; a stream all of whose elements are through retires, signals and leaves its register SET. -/
def Obligations.StreamElementsAndRetirement : Prop :=
  ∀ (s : State) (c q : Nat),
    (∀ s1 s2 k1 d t e, s.ev = .streamDataArrival c q → s1 = (s.mxSettle c).afterTake c → s1.core? c = some k1 → (k1.sreg q).desc = some d → (k1.sreg q).strm = some t →
      t.store = false → t.faulted = false → t.frozen = false → t.cancelled = false → t.stopped = false → t.total = t.done + 1 → t.buf = [] →
      s1.fetchElem c q d t t.done = (s2, .got e) →
      (∃ k2 t2, s2.core? c = some k2 ∧ (k2.sreg q).strm = some t2 ∧ t2.buf = t.buf ∧ t2.done = t.done ∧ t2.total = t.total) →
      ∃ s3 k3 t3, exec .streamDataArrival s = .next s3 ∧ s3.core? c = some k3 ∧ (k3.sreg q).strm = some t3 ∧ t3.done = t.total ∧ t3.buf = [e]) ∧
    (∀ s1 s2 u k1 d t, s.ev = .storeStreamElementPerformed c q → s1 = s.mxSettle c → s1.core? c = some k1 → (k1.sreg q).desc = some d → (k1.sreg q).strm = some t →
      k1.mx.run = [] → k1.mx.port = [] → t.store = true → t.faulted = false → t.cancelled = false → t.done % d.group = 0 → t.buf.length = d.group →
      s1.performGroup c q d t t.done (t.buf.map fun e => { e with p := e.p || t.psn }) = ⟨s2, d.group, u, .got ()⟩ →
      (∃ k2 t2, s2.core? c = some k2 ∧ (k2.sreg q).strm = some t2 ∧ t2.buf = t.buf ∧ t2.done = t.done ∧ k2.mx.run = [] ∧ k2.mx.port = []) →
      ∃ s3 k3 t3, exec .storeStreamElementPerformed s = .next s3 ∧ s3.core? c = some k3 ∧ (k3.sreg q).strm = some t3 ∧ t3.done = t.done + d.group ∧ t3.buf = []) ∧
    (∀ s1 s2 k1 k2 d t x cause addr, s.ev = .streamElementFault c q → s1 = s.mxSettle c → s1.core? c = some k1 → (k1.sreg q).desc = some d →
      (k1.sreg q).strm = some t → t.store = false → t.faulted = false → t.frozen = false → t.cancelled = false →
      s1.fetchElem c q d t t.done = (s2, .fault cause addr) → resumable cause = true → s2.core? c = some k2 → k2.ctx? t.ctx = some x → x.st ≠ .empty →
      (k2.sreg q).strm.isSome = true →
      ∃ s3 k3 x3, exec .streamElementFault s = .next s3 ∧ s3.core? c = some k3 ∧ (k3.sreg q).st = 3 ∧ (k3.sreg q).fcause = BitVec.ofNat 8 cause ∧
        k3.ctx? t.ctx = some x3 ∧ ⟨q, cause, addr, 0, t.id⟩ ∈ x3.pend.faults) ∧
    (∀ s1 k1 d t x, s.ev = .streamRetire c q → s1 = s.mxSettle c → s1.core? c = some k1 → (k1.sreg q).desc = some d → (k1.sreg q).strm = some t →
      t.store = false → t.taken = t.total → (k1.sreg q).owner = t.ctx → k1.ctx? t.ctx = some x → x.st ≠ .empty →
      ∃ s3 k3, exec .streamRetire s = .next s3 ∧ s3.core? c = some k3 ∧ (k3.sreg q).st = 1 ∧ (k3.sreg q).strm = none ∧
        (t.sync.si ≠ 0 → k3.sem t.sync.ss.toNat = (k1.sem t.sync.ss.toNat).signal t.sync.si.toNat))

/-- 18 R471, R472, R497, 10 R243: the end of a copy and of a stash command. The last row of a QCOPY is read and written at home, and the command signals; a QCCOPY whose version has
changed writes nothing and signals with the error flag; one that finds its version, with the earlier commands of its context complete, writes its data, then its release half at
module scope takes place, then the version word becomes e + 1 (11 R277, R278), and it signals; a stash command whose rows are done and whose write-backs have performed signals. -/
def Obligations.CopiesAndStashCommandsComplete : Prop :=
  ∀ (s : State) (c : Nat) (k : Core) (y : QCmd), s.core? c = some k → k.qcmds = [y] → y.started = true → y.faulted = false →
    (∀ (d a n : Word64) s1 s2 k2 l, y.kind = .qcopy d a n → s.ev = .copyCompletion c y.id → let at' := d.toNat + y.prog
      let len := min (n.toNat - y.prog) (256 - at' % 256)
      y.prog < n.toNat → n.toNat ≤ y.prog + len → s.copyReads c at' (a.toNat + y.prog) (wordPieces at' len) = (s1, .got l) →
      s1.copyWrites c y.ctx y.psn l = (s2, .got ()) → s2.core? c = some k2 →
      ∃ t k', exec .copyCompletion s = .next t ∧ t.core? c = some k' ∧ (∀ z ∈ k'.qcmds, z.id ≠ y.id) ∧
        (y.sync.si ≠ 0 → k'.sem y.sync.ss.toNat = (k2.sem y.sync.ss.toNat).signal y.sync.si.toNat)) ∧
    (∀ (d a v : Word64) s1 s2 s3 s4 k3 l e p, y.kind = .qccopy d a v → s.ev = .copyCompletion c y.id → s.pagesFault c .read a.toNat 2 (bitsOf v 32 16) = (s1, none) →
      s1.pagesFault c .write d.toNat 2 (bitsOf v 32 16 + 4) = (s2, none) → s2.copyReads c (d.toNat + 4) a.toNat (wordPieces (d.toNat + 4) (bitsOf v 32 16)) = (s3, .got l) →
      s3.readVia c true d.toNat 4 = (s4, .got (e, p)) → e ≠ bitsOf v 0 32 → s4.core? c = some k3 →
      ∃ t k', exec .copyCompletion s = .next t ∧ t.core? c = some k' ∧ (∀ z ∈ k'.qcmds, z.id ≠ y.id) ∧
        (y.sync.si ≠ 0 → (k'.sem y.sync.ss.toNat).err = true ∧ (k'.sem y.sync.ss.toNat).val = (k3.sem y.sync.ss.toNat).val)) ∧
    (∀ (d a v : Word64) s1 s2 s3 s4 s5 s6 k6 l e p f, y.kind = .qccopy d a v → s.ev = .copyCompletion c y.id → s.pagesFault c .read a.toNat 2 (bitsOf v 32 16) = (s1, none) →
      s1.pagesFault c .write d.toNat 2 (bitsOf v 32 16 + 4) = (s2, none) → s2.copyReads c (d.toNat + 4) a.toNat (wordPieces (d.toNat + 4) (bitsOf v 32 16)) = (s3, .got l) →
      s3.readVia c true d.toNat 4 = (s4, .got (e, p)) → e = bitsOf v 0 32 → s4.earlierPending c y.ctx y.id = false →
      s4.copyWrites c y.ctx y.psn l = (s5, .got ()) → s5.translate c d.toNat .write = (s6, .leaf f) →
      -- the data are written; then the release half, and the version word as by a STREL
      let t := (((s6.releaseNow c 4).evictWords c d.toNat 4 f).writeVia c y.ctx true d.toNat 4 ((e + 1) % 2 ^ 32) y.psn).1
      exec .copyCompletion s = .next (t.qDone c y) ∧
      (t.core? c = some k6 → ∃ k', (t.qDone c y).core? c = some k' ∧ (∀ z ∈ k'.qcmds, z.id ≠ y.id) ∧
        (y.sync.si ≠ 0 → k'.sem y.sync.ss.toNat = (k6.sem y.sync.ss.toNat).signal y.sync.si.toNat))) ∧
    (∀ (op : Nat) (a n : Word64), y.kind = .stash op a n → s.ev = .stashCommandCompletion c y.id →
      (if n = 0 then 0 else (a.toNat + n.toNat - 1) / 256 - a.toNat / 256 + 1) ≤ y.prog → (∀ w ∈ y.wbs, s.wbDone (w % 512, w / 512) = true) →
      ∃ t k', exec .stashCommandCompletion s = .next t ∧ t.core? c = some k' ∧ k'.qcmds = [] ∧
        (y.sync.si ≠ 0 → k'.sem y.sync.ss.toNat = (k.sem y.sync.ss.toNat).signal y.sync.si.toNat))

/-- 07 R159 to R162: the grid. (That the loader reads the whole image at the end of its cycles is log entry 44, DESIGN CHOICE; what the grid holds after a failed load is
log entry 86, DEDUCED; that the words of an image keep their poison and take that of the guard of the GCFG is log entry 43, DEDUCED.) The loader judges the image that it has
read, and its command signals; a run whose turns are through leaves the grid IDLE and signals; a run that is asked to stop ends at the turn boundary and is held, and it and
every GSTOP signal in that event, each with its own word.
07 R147 to R152: a cycle of the grid. The moves of a cycle are the valid ones whose guard passes on the flag from before the cycle, slot 1's alone where the two have one
register, latch, link, flag, SOUT or unit as their destination. Each carries the word of its source from before the cycle, with its poison, to its destination; a trigger
starts its operation on the latches as they are after the cycle's moves, and its result is in flight until the cycle L later, and then stands in its unit (R148, Table 2).
What no move names stays. (That the poison of a move word and that of the guard of a GRUN go into every word that its moves write is 12 R300 as the model reads it, log
entries 43 and 34, DEDUCED.) -/
def Obligations.GridEvents : Prop :=
 (∀ (s : State) (c : Nat) (k : Core), s.core? c = some k →
    (∀ l l1 s1 k1, s.ev = .gcfgLoadEnd c → k.grid.load = some l → l.faulted = false → l.addr.toNat % 4096 = 0 → s.gridRead c l 577 = (s1, .got l1) → s1.core? c = some k1 →
      let psn := k1.qcmds.any fun y => y.id == l1.id && y.psn
      ∃ t k', exec .gcfgLoadEnd s = .next t ∧ t.core? c = some k' ∧ k'.grid = k1.grid.loaded 8 { l1 with words := l1.words.map fun w => ⟨w.w, w.p || psn⟩ } ∧
        (∀ y ∈ k'.qcmds, y.id ≠ l1.id) ∧
        ∀ y, k1.qcmds.find? (fun y => y.id = l1.id) = some y → y.sync.si ≠ 0 → k'.sem y.sync.ss.toNat = (k1.sem y.sync.ss.toNat).signal y.sync.si.toNat) ∧
    (∀ r, s.ev = .grunCompletion c → k.grid.run = some r → r.nextAt ≤ s.cycle → r.turns * (k.grid.iim1 + 1) ≤ r.cyc →
      (∀ f ∈ k.grid.flight, f.due ≤ k.grid.clock) → r.stopSync = [] →
      ∃ t k', exec .grunCompletion s = .next t ∧ t.core? c = some k' ∧ k'.grid.st = 2 ∧ k'.grid.run = none ∧ k'.grid.held = false ∧ (∀ y ∈ k'.qcmds, y.id ≠ r.id) ∧
        (r.sync.si ≠ 0 → k'.sem r.sync.ss.toNat = (k.sem r.sync.ss.toNat).signal r.sync.si.toNat)) ∧
    -- a cycle of a run that is not its last: none where it stalls
    (∀ r, s.ev = .grunCompletion c → k.grid.run = some r → r.nextAt ≤ s.cycle → r.stopping = false → let ii := k.grid.iim1 + 1; let turn := r.cyc / ii
      r.cyc + 1 < r.turns * ii →
      let cycle := k.grid.cycle 8 (r.cyc % ii) (BitVec.ofNat 32 (r.base + turn)) (turn + 1 == r.turns) r.psn (k.ginNow r) (k.goutNow r turn)
      (cycle = none → exec .grunCompletion s = .next s) ∧
      ∀ h takes gives, cycle = some (h, takes, gives) → ∃ t k' r', exec .grunCompletion s = .next t ∧ t.core? c = some k' ∧
        k'.grid = { h with run := some r', turns := BitVec.ofNat 32 (r.base + (r.cyc + 1) / ii) } ∧ r'.cyc = r.cyc + 1 ∧ r'.nextAt = s.cycle + 1 ∧ r'.id = r.id ∧
        r'.bind = r.bind ∧ r'.turns = r.turns ∧ r'.base = r.base ∧ r'.sync = r.sync ∧ r'.stopping = false ∧ (s.cycle + 1, Event.grunCompletion c) ∈ t.agenda) ∧
    (∀ r, s.ev = .gstopBoundary c → k.grid.run = some r → r.stopping = true → r.cyc % (k.grid.iim1 + 1) = 0 →
      ∃ t k', exec .gstopBoundary s = .next t ∧ t.core? c = some k' ∧ k'.grid.st = 2 ∧ k'.grid.run = none ∧ k'.grid.held = true ∧ k'.grid.heldRun = some r ∧
        (∀ y ∈ k'.qcmds, y.id ≠ r.id) ∧
        -- GRUN's signal and those of the GSTOPs
        ∀ m, k'.sem m = ((r.sync :: r.stopSync.map (·.2)).filter fun w => w.si ≠ 0 ∧ w.ss.toNat = m).foldl (fun v w => v.signal w.si.toNat) (k.sem m))) ∧
 (∀ (g0 g h : Grid) (w b : Nat) (turn : Word32) (last psn : Bool) (gin : Nat → GinNow) (gout : Nat → GoutNow) (takes : List Nat) (gives : List (Nat × PWord)),
    g = g0.land → 0 < w → Tab.wf ⟨0, false⟩ g0.els = true → Tab.wf ⟨0, false⟩ g0.flags = true → g0.cycle w b turn last psn gin gout = some (h, takes, gives) →
    let performs := fun (e : Nat) (m : Move) => e < 4 * w ∧ m ∈ g.moves e b last
    let poisoned := fun (e : Nat) (m : Move) => m.psn || psn || ((m.gd == 1 || m.gd == 2) && (g.flag e).p)
    -- the word that a move carries (Table 1)
    let carries := fun (e : Nat) (m : Move) (v : PWord) =>
      let is := fun (u : PWord) => v = ⟨u.w, u.p || poisoned e m⟩
      (m.src = 0x00 → is ⟨0, false⟩) ∧ (m.src = 0x09 → is ⟨(BitVec.ofNat 17 m.imm).signExtend 32, false⟩) ∧ (m.src = 0x0A → is ⟨BitVec.ofNat 32 (m.imm * 2 ^ 15), false⟩) ∧
      (m.src = 0x0B → is ⟨(g.flag e).v, (g.flag e).p⟩) ∧ (m.src = 0x0C → is ⟨turn, false⟩) ∧
      (1 ≤ m.src → m.src ≤ 8 ∨ (0x10 ≤ m.src ∧ m.src ≤ 0x13) ∨ m.src = 0x38 ∨ m.src = 0x3C → is (g.el e m.src)) ∧
      (m.src = 0x20 → is (g.el e 0x21)) ∧ (m.src = 0x28 → is (g.el e 0x2A)) ∧ (m.src = 0x30 → is (g.el e 0x31)) ∧
      (m.src = 0x14 → (∀ u, gin (e / w) = .word u → is u) ∧ (gin (e / w) = .zero → is ⟨0, false⟩) ∧ gin (e / w) ≠ .wait)
    -- the neighbour on a side, and the side on which it receives
    let across := fun (e side : Nat) (f into : Nat) =>
      (side = 0 ∧ e = f + w ∧ into = 2) ∨ (side = 2 ∧ f = e + w ∧ f < 4 * w ∧ into = 0) ∨ (side = 1 ∧ f = e + 1 ∧ f % w ≠ 0 ∧ into = 3) ∨
        (side = 3 ∧ e = f + 1 ∧ e % w ≠ 0 ∧ into = 1)
    (∀ e m, performs e m → ∃ v, carries e m v ∧
      (1 ≤ m.dst → m.dst ≤ 8 → h.el e m.dst = v) ∧ (m.dst = 0x0B → h.flag e = ⟨if v.w = 0 then 0 else 1, v.p⟩) ∧
      (m.dst = 0x20 ∨ m.dst = 0x28 ∨ m.dst = 0x29 ∨ m.dst = 0x30 → h.el e m.dst = v) ∧
      (∀ f into, 0x10 ≤ m.dst → m.dst ≤ 0x13 → across e (m.dst - 0x10) f into → h.el f (0x10 + into) = v) ∧
      (m.dst = 0x15 → gout (if e = w - 1 then 0 else 1) = .room → (if e = w - 1 then 0 else 1, v) ∈ gives) ∧
      (m.dst = 0x15 → gout (if e = w - 1 then 0 else 1) ≠ .wait) ∧
      (m.src = 0x14 → e / w < 4 → e / w ∈ takes) ∧
      -- the units of Table 2, on the latches as they stand after the cycle's moves, on the accumulator and the flag from before it
      (let o := h.el e 0x20; let fa := h.el e 0x28; let fb := h.el e 0x29; let cp := h.el e 0x30; let acc := g.el e 0x3C; let fl := g.flag e
       let f := fun (x : PWord) => f32 x.w
       let result := fun (unit lat : Nat) (x : Word32) (p : Bool) => (⟨e, unit, g.clock + lat, ⟨x, p⟩⟩ : Flight) ∈ h.flight
       let alu := fun (dst : Nat) (x : Word32) => m.dst = dst → result 0x21 1 x (o.p || v.p)
       let fma := fun (dst : Nat) (x : Val) (p : Bool) => m.dst = dst → result 0x2A 4 (rne32 x) (v.p || p)
       let cmp := fun (dst : Nat) (x : Bool) => m.dst = dst →
         result 0x31 1 (if x then 1 else 0) (cp.p || v.p) ∧ result 0x0B 1 (if x then 1 else 0) (cp.p || v.p)
       let acts := fun (dst : Nat) (x : Word32) (p : Bool) => m.dst = dst → result 0x3C 1 x (p || v.p)
       alu 0x21 (o.w + v.w) ∧ alu 0x22 (o.w - v.w) ∧ alu 0x23 (o.w &&& v.w) ∧ alu 0x24 (o.w ||| v.w) ∧ alu 0x25 (o.w ^^^ v.w) ∧
       alu 0x26 (o.w <<< bitsOf v.w 0 5) ∧ alu 0x27 (o.w >>> bitsOf v.w 0 5) ∧
       fma 0x2A (((f v).mul (f fa)).add (f fb)) (fa.p || fb.p) ∧ fma 0x2B ((f v).mul (f fa)) fa.p ∧ fma 0x2C ((f v).add (f fb)) fb.p ∧ fma 0x2D ((f v).add (f fb).neg) fb.p ∧
       cmp 0x31 ((f cp).lt (f v)) ∧ cmp 0x32 ((f cp).lt (f v) || (f cp).eq (f v)) ∧ cmp 0x33 ((f cp).eq (f v)) ∧
       (m.dst = 0x34 → result 0x31 1 (if fl.v = 0 then v.w else cp.w) (cp.p || v.p || fl.p)) ∧
       (m.dst = 0x35 → result 0x31 1 (rne32 ((f cp).max (f v))) (cp.p || v.p)) ∧ (m.dst = 0x36 → result 0x31 1 (rne32 ((f cp).min (f v))) (cp.p || v.p)) ∧
       (m.dst = 0x38 → let entry := Tab.get ⟨0, false⟩ g.lut (256 * e + bitsOf v.w 0 8); result 0x38 2 entry.w (entry.p || v.p)) ∧
       acts 0x3C (rne32 ((f acc).add (f v))) acc.p ∧ acts 0x3D (rne32 ((f acc).max (f v))) acc.p ∧ acts 0x3E v.w false)) ∧
    -- what is in flight stays so, time goes on by a cycle, and the rest of the grid stays
    (∀ x ∈ g.flight, x ∈ h.flight) ∧ h.clock = g.clock + 1 ∧ h.img = g.img ∧ h.lut = g.lut ∧ h.iim1 = g.iim1 ∧ h.run = g.run ∧ h.st = g.st ∧
    (∀ e < 4 * w, ∀ d < 64, (1 ≤ d ∧ d ≤ 8) ∨ d = 0x20 ∨ d = 0x28 ∨ d = 0x29 ∨ d = 0x30 → (∀ m, performs e m → m.dst ≠ d) → h.el e d = g.el e d) ∧
    (∀ e < 4 * w, ∀ d ∈ [0x21, 0x2A, 0x31, 0x38, 0x3C], h.el e d = g.el e d) ∧ (∀ e < 4 * w, (∀ m, performs e m → m.dst ≠ 0x0B) → h.flag e = g.flag e) ∧
    (∀ f < 4 * w, ∀ into < 4, (∀ e m, performs e m → 0x10 ≤ m.dst → m.dst ≤ 0x13 → ¬across e (m.dst - 0x10) f into) → h.el f (0x10 + into) = g.el f (0x10 + into)) ∧
    (∀ x ∈ gives, ∃ e m, performs e m ∧ m.dst = 0x15 ∧ x.1 = if e = w - 1 then 0 else 1) ∧ (∀ p ∈ takes, ∃ e m, performs e m ∧ m.src = 0x14 ∧ p = e / w)) ∧
 -- the moves that perform: both slots', or slot 1's alone where the two clash (07 R149)
 (∀ (g : Grid) (e b : Nat) (last : Bool),
    let slot := fun (i : Nat) (m : Move) => moveOf (Tab.get ⟨0, false⟩ g.img (32 * e + 2 * b + i)) = some m ∧
      (m.gd = 0 ∨ (m.gd = 1 ∧ (g.flag e).v ≠ 0) ∨ (m.gd = 2 ∧ (g.flag e).v = 0) ∨ (m.gd = 3 ∧ last = true))
    let units := [[0x21, 0x22, 0x23, 0x24, 0x25, 0x26, 0x27], [0x2A, 0x2B, 0x2C, 0x2D], [0x31, 0x32, 0x33, 0x34, 0x35, 0x36], [0x38], [0x3C, 0x3D, 0x3E]]
    let clashes := fun (m n : Move) => m.dst ≠ 0 ∧ (m.dst = n.dst ∨ ∃ u ∈ units, m.dst ∈ u ∧ n.dst ∈ u)
    ∀ m, m ∈ g.moves e b last ↔ slot 1 m ∨ (slot 0 m ∧ ∀ n, slot 1 n → ¬clashes m n)) ∧
 -- a result that is due takes its place, the last one where several are; the others stay in flight (07 R148)
 (∀ (g : Grid), Tab.wf ⟨0, false⟩ g.els = true → Tab.wf ⟨0, false⟩ g.flags = true → (∀ x ∈ g.flight, x.code < 64) →
    (∀ x, x ∈ g.land.flight ↔ x ∈ g.flight ∧ g.clock < x.due) ∧ g.land.clock = g.clock ∧
    ∀ e d, d < 64 → let due := g.flight.filter fun x => x.el = e ∧ x.code = d ∧ x.due ≤ g.clock
      (d ≠ 0x0B → g.land.el e d = (due.getLast?.map (·.val)).getD (g.el e d)) ∧
      (d = 0x0B → g.land.flag e = (due.getLast?.map fun x => (⟨x.val.w, x.val.p⟩ : PV)).getD (g.flag e)))

/-! ## Semaphores, channel commands, fences and time -/

/-- 18 R494 to R496, 12 R289, R290: SEMSET writes its immediate and clears both flags; SEMWAIT goes on where its semaphore has reached the threshold or has ERR
set, and else arms the wait and blocks its bundle. -/
def Obligations.SemaphoreOperations : Prop :=
  ∀ (s : State) (k : Core) (n : Nat) (x : Ctx), s.issues k n x → Tab.wf ⟨0, false, false⟩ k.sems = true →
    let sets := fun (i : Instr) (sem imm : Nat) =>
      ∃ t k', exec i s = .next t ∧ t.core? s.cur = some k' ∧ k'.sem sem = ⟨BitVec.ofNat 16 imm, false, false⟩ ∧ (∀ m, m ≠ sem → k'.sem m = k.sem m) ∧
        ∀ a, t.homeByte a = s.homeByte a
    let waits := fun (i : Instr) (sem thr : Nat) =>
      ((k.sem sem).err = true ∨ thr ≤ (k.sem sem).val.toNat → exec i s = .next s) ∧
      ((k.sem sem).err = false → (k.sem sem).val.toNat < thr → Slot.y ∉ x.sat →
        ∃ t x', exec i s = .next t ∧ t.bun.status = .blocked ∧ t.ctx? s.cur n = some x' ∧ x'.st = .blocked ∧ x'.armed = x.armed ++ [⟨.y, sem, thr, false⟩] ∧
          x'.regs = x.regs ∧ x'.pc = x.pc)
    (∀ o : OpSem, s.passes o.g .pk → sets (.semset o) o.sem.toNat o.imm.toNat ∧ waits (.semwait o) o.sem.toNat o.imm.toNat) ∧
    (∀ o : OpSem64, s.passes o.g .pk → sets (.semset64 o) o.sem.toNat o.imm.toNat ∧ waits (.semwait64 o) o.sem.toNat o.imm.toNat)

/-- 09 R215, R216, 16 R364 to R367, 18 R495, R501, 11 R274: a channel command that passes its checks and whose wait is met enters the channel command queue
with its synchronisation word and the core's next command number. One whose wait is not met arms it and blocks its bundle (12 R290); one that finds the queue full
stalls. One that names no channel of its kind is ILLEGAL_OP, in either form. A CHSTART of a ring channel is judged at its issue, where its wait is met and the queue has room: ILLEGAL_OP
where its ring is invalid or its sizes break the rules of 09 R221, CHANNEL_BUSY and CHANNEL_ABORTED by the state that the channel will hold. (That these checks of CHSTART come after its
wait and the room in the queue is read from 16 R366 and R367: log entry 106, DEDUCED.)
Where no other channel command is queued, no FENCE holds it and no DRAFTLD holds the flows, the event that it posted does its work: SEMADD adds and signals; DRAIN
signals, where every earlier row has ended; STEP, with no earlier access of its context going on and nothing to write back, starts and has arrived;
CHRECV waits for its element; CHSTART begins an instance on an idle ring channel; CHABORT resets its channel;
CHSEND spends a credit and sends the row that it reads. -/
def Obligations.ChannelCommandsAreQueued : Prop :=
  (∀ (s : State) (k : Core) (n : Nat) (x : Ctx) (w : Sync), s.issues k n x → k.ycmds = [] → x.fences = [] → s.flowsHeld s.cur = false →
    (w.wt = 0 ∨ (k.sem w.ws.toNat).met w.wt.toNat = true) →
    let runs := fun (i : Instr) (e : Event) (effect : State → Core → Prop) =>
      ∃ t u k', exec i s = .next t ∧ exec (Event.instr e) { t with ev := e } = .next u ∧ u.core? s.cur = some k' ∧ effect u k'
    let both := fun (g : Guard) (i : Instr) (i64 : Sync → Instr) (e : Event) (effect : Sync → State → Core → Prop) =>
      s.passes g .pk → runs i e (effect Sync.none) ∧ runs (i64 w) e (effect w)
    let start := Event.channelCommandStart s.cur
    let atWork := fun (k' : Core) (kind : YKind) (w : Sync) => ∃ y, k'.ycmds = [y] ∧ y.id = k.nextCmd ∧ y.ctx = n ∧ y.kind = kind ∧ y.sync = w ∧ y.started = true
    (∀ o : OpSem, both o.g (.semadd o) (.semadd64 o) (.semaddApply s.cur k.nextCmd) fun w _ k' =>
      let si := if w.ss = o.sem then w.si.toNat else 0
      k'.ycmds = [] ∧ (o.imm.toNat + si ≠ 0 → k'.sem o.sem.toNat = (k.sem o.sem.toNat).signal (o.imm.toNat + si)) ∧
        (w.ss ≠ o.sem → w.si ≠ 0 → k'.sem w.ss.toNat = (k.sem w.ss.toNat).signal w.si.toNat)) ∧
    (∀ o : OpN, s.rowsEnded s.cur n k.nextCmd = true → both o.g (.drain o) (.drain64 o) (.drainStart s.cur k.nextCmd) fun w _ k' =>
      k'.ycmds = [] ∧ (w.si ≠ 0 → k'.sem w.ss.toNat = if x.lost then { k.sem w.ss.toNat with err := true } else (k.sem w.ss.toNat).signal w.si.toNat)) ∧
    (∀ o : OpStep, s.passes o.g .pk → (∀ z ∈ k.live n, meets z.2 0x3F = false) → s.dirtyRows s.cur (stepScope o.launch) = [] →
      s.releaseWbs s.cur (stepScope o.launch) = [] →
      let arrives := fun (i : Instr) (w : Sync) => ∃ t u v k', exec i s = .next t ∧ exec .channelCommandStart { t with ev := start } = .next u ∧
        (s.cycle, start) ∈ u.agenda ∧ exec .channelCommandStart { u with ev := start } = .next v ∧ v.core? s.cur = some k' ∧ atWork k' (.step o.launch) w ∧
        ∀ y ∈ k'.ycmds, y.arrived = true
      arrives (.step o) Sync.none ∧ arrives (.step64 o w) w) ∧
    (∀ (o : OpCh) (h : Chan), k.chan? o.ch.toNat = some h → let ch := o.ch.toNat
      (h.kind = 2 → both o.g (.chrecv o) (.chrecv64 o) start fun w u k' => atWork k' (.chrecv ch) w ∧ (s.cycle, Event.chrecvCompletion s.cur ch) ∈ u.agenda) ∧
      (h.kind = 3 → both o.g (.chabort o) (.chabort64 o) start fun _ _ k' => k'.ycmds = [] ∧ ∃ h', k'.chan? ch = some h' ∧ h'.rst = 4) ∧
      (∀ r, h.kind = 3 → h.rst = 1 → s.ringOf s.cur h = some r → h.fits (r.nm1 + 1) = true →
        both o.g (.chstart o) (.chstart64 o) start fun w _ k' => k'.ycmds = [] ∧ ∃ h' g, k'.chan? ch = some h' ∧ h'.rst = 2 ∧ h'.inst = nextInst h.inst ∧
          h'.run = some g ∧ g.id = k.nextCmd ∧ g.ctx = n ∧ g.sync = w ∧ g.n = r.nm1 + 1 ∧ g.len = h.bytes ∧ g.started = false) ∧
      (h.kind = 1 → 0 < h.cred → s.passes o.g .pk →
        let sends := fun (i : Instr) => ∃ t, exec i s = .next t ∧
          let u := { t with ev := start }
          ∀ s1 k1 h1 ws, ((u.updCore s.cur fun k' => k'.updY k.nextCmd fun y => { y with started := true }).updChan s.cur ch
              fun h => { h with cred := h.cred - 1 }).readWords s.cur false (h.buf + 256 * (h.sent % h.depth)) h.words = (s1, .got ws) →
            s1.core? s.cur = some k1 → k1.chan? ch = some h1 →
            ∃ v k' h', exec .channelCommandStart u = .next v ∧ v.core? s.cur = some k' ∧ k'.chan? ch = some h' ∧ h' = { h1 with sent := h1.sent + 1 } ∧
              (Tab.get none v.rows s1.nextRow).map (·.cmd) = some k.nextCmd
        sends (.chsend o) ∧ sends (.chsend64 o w)))) ∧
  (∀ (s : State) (k : Core) (n : Nat) (x : Ctx) (w : Sync), s.issues k n x →
    let met := w.wt = 0 ∨ (k.sem w.ws.toNat).met w.wt.toNat = true
    let full := 16 ≤ (k.ycmds.filter fun y => !y.started).length
    let queued := fun (i : Instr) (w : Sync) (kind : YKind) (delay : Nat) (e : Event) =>
      ∃ t k' y, exec i s = .next t ∧ t.core? s.cur = some k' ∧ k'.ycmds = k.ycmds ++ [y] ∧ y.id = k.nextCmd ∧ y.ctx = n ∧ y.kind = kind ∧ y.sync = w ∧
        y.started = false ∧ y.faulted = false ∧ k'.nextCmd = k.nextCmd + 1 ∧ k'.ctx? n = some x ∧ (s.cycle + delay, e) ∈ t.agenda
    let illegal := fun (i : Instr) (op : Nat) => exec i s = .next (s.trap 0x01 (illegalInfo 6 op true))
    (s.yAdmits k fun g i i64 kind delay e => s.passes g .pk →
      (¬full → queued i Sync.none kind delay e ∧ (met → queued (i64 w) w kind delay e)) ∧
      (¬met → Slot.y ∉ x.sat → BlocksOn s (i64 w) n x .y w) ∧
      (full → exec i s = .next s.stall ∧ (met → exec (i64 w) s = .next s.stall))) ∧
    (∀ o : OpCh, k.chan? o.ch.toNat = none → s.passes o.g .pk → illegal (.chsend o) 0x10 ∧ illegal (.chsend64 o w) 0x10 ∧ illegal (.chrecv o) 0x11 ∧
      illegal (.chrecv64 o w) 0x11 ∧ illegal (.chstart o) 0x12 ∧ illegal (.chstart64 o w) 0x12 ∧ illegal (.chabort o) 0x13 ∧ illegal (.chabort64 o w) 0x13) ∧
    (∀ (o : OpCh) (h : Chan), k.chan? o.ch.toNat = some h → s.passes o.g .pk →
      (h.kind ≠ 1 → illegal (.chsend o) 0x10 ∧ illegal (.chsend64 o w) 0x10) ∧ (h.kind ≠ 2 → illegal (.chrecv o) 0x11 ∧ illegal (.chrecv64 o w) 0x11) ∧
      (h.kind ≠ 3 → illegal (.chabort o) 0x13 ∧ illegal (.chabort64 o w) 0x13) ∧ (h.kind ≠ 3 → illegal (.chstart o) 0x12 ∧ illegal (.chstart64 o w) 0x12) ∧
      (h.kind = 3 → let ch := o.ch.toNat
        let traps := fun (cause : Nat) (info : Word64) => exec (.chstart o) s = .next (s.trap cause info) ∧ (met → exec (.chstart64 o w) s = .next (s.trap cause info))
        let ill := illegalInfo 6 0x12 true
        (¬met → Slot.y ∉ x.sat → BlocksOn s (.chstart64 o w) n x .y w) ∧
        (full → exec (.chstart o) s = .next s.stall ∧ (met → exec (.chstart64 o w) s = .next s.stall)) ∧
        (¬full → s.ringOf s.cur h = none → traps 0x01 ill) ∧
        (∀ r, ¬full → s.ringOf s.cur h = some r → (h.fits (r.nm1 + 1) = false → traps 0x01 ill) ∧
          (h.fits (r.nm1 + 1) = true → (k.ringAhead ch h.rst = 3 → traps 0x0D (BitVec.ofNat 64 ch)) ∧ (k.ringAhead ch h.rst = 4 → traps 0x0E (BitVec.ofNat 64 ch)))))))

/-- 11 R272, R273, 18 R482, R483, 19 R513 to R515, 09 R233, R234: FENCE with no paths is a NOP; one whose successors name I or V and whose predecessors are complete
and written back takes its acquire half; one that waits for commands holds the others of its context meanwhile. RDTIME gives TIME; TSTART arms a free gate, or
stalls where there is none. (That a poisoned guard poisons what RDTIME writes is 12 R300 as the model reads it, log entry 34, DEDUCED.) -/
def Obligations.FenceAndTime : Prop :=
  ∀ (s : State) (k : Core) (n : Nat) (x : Ctx), s.issues k n x →
    (∀ o : OpFence, s.passes o.g .pk → let sc := fenceScopes o.pred o.succ o.scope.toNat
      (o.pred = 0 → o.succ = 0 → exec (.fence o) s = .next s) ∧
      (o.pred = 0 → bitsOf o.succ 0 2 ≠ 0 → exec (.fence o) s = .next (s.acquireBy s.cur n sc.2)) ∧
      (∀ s1 u, o.pred ≠ 0 → bitsOf o.succ 0 2 ≠ 0 → k.pending n o.pred.toNat = [] → (sc.1 = 5 → s.rowsOut s.cur n = []) → s.releaseHalf sc.1 = .ok s1 u →
        exec (.fence o) s = .next (s1.acquireBy s1.cur n sc.2)) ∧
      (k.pending n o.pred.toNat ≠ [] → bitsOf o.succ 0 2 ≠ 0 → s.bun.performs = false → exec (.fence o) s = .next s.stall) ∧
      -- the commands of the other slots of its bundle do not precede it
      (let earlier := (k.pending n o.pred.toNat).filter fun i => decide (i < s.bun.cmd0)
       earlier ≠ [] → bitsOf o.succ 0 2 = 0 → n < 4 → (∀ m y, k.ctx? m = some y → y.fences = []) →
        ∃ t x', exec (.fence o) s = .next t ∧ t.bun = s.bun ∧ t.ctx? s.cur n = some x' ∧ x'.regs = x.regs ∧
          x'.fences = [⟨k.nextCmd, o.pred, o.succ, earlier, none, sc.1, sc.2⟩])) ∧
    (∀ o : OpRdtime, s.passes o.g .pk →
      exec (.rdtime o) s = .next (s.writeXY o.fs o.d ⟨BitVec.ofNat 64 (s.time18 / 18), Guard.psn o.g .pk s.bun.old⟩ 4)) ∧
    (∀ o : OpTstart, s.passes o.g .pk → (s.bun.old.getXY o.fs o.a.toNat).p = false →
      (∀ i, k.freeGate = some i → ∃ t k', exec (.tstart o) s = .next t ∧ t.core? s.cur = some k' ∧
        Tab.get none k'.gates i = some ⟨(s.bun.old.getXY o.fs o.a.toNat).v, o.sem.toNat, o.inc.toNat, n, false⟩ ∧ ∃ d, (d, Event.timeGateFire s.cur i) ∈ t.agenda) ∧
      (k.freeGate = none → exec (.tstart o) s = .next s.stall))

/-- 09 R216, R217, R233 to R235, 11 R274, R280, 18 R495: what completes beside the rings. SEMADD adds; a gate whose time has come signals; a credit is counted; a
CHRECV whose element has landed or been lost frees it; DRAIN completes once every earlier row of its context has ended; a STEP barrier opens once all have arrived. -/
def Obligations.ChannelEvents : Prop :=
  ∀ (s : State) (c : Nat) (k : Core), s.core? c = some k →
    let signals := fun (k' : Core) (w : Sync) (err : Bool) => w.si ≠ 0 →
      k'.sem w.ss.toNat = if err then { k.sem w.ss.toNat with err := true } else (k.sem w.ss.toNat).signal w.si.toNat
    (∀ y sem imm, s.ev = .semaddApply c y.id → k.ycmds = [y] → y.kind = .semadd sem imm → let si := if y.sync.ss.toNat = sem then y.sync.si.toNat else 0
      ∃ t k', exec .semaddApply s = .next t ∧ t.core? c = some k' ∧ k'.ycmds = [] ∧ (imm + si ≠ 0 → k'.sem sem = (k.sem sem).signal (imm + si)) ∧
        (y.sync.ss.toNat ≠ sem → signals k' y.sync false)) ∧
    (∀ i g, s.ev = .timeGateFire c i → Tab.wf none k.gates = true → Tab.get none k.gates i = some g → g.stopped = false → g.t.toNat ≤ s.ticks →
      ∃ t k', exec .timeGateFire s = .next t ∧ t.core? c = some k' ∧ Tab.get none k'.gates i = none ∧ (g.inc ≠ 0 → k'.sem g.sem = (k.sem g.sem).signal g.inc)) ∧
    (∀ ch h, s.ev = .creditTokenArrival c ch → k.chan? ch = some h →
      ∃ t k', exec .creditTokenArrival s = .next t ∧ t.core? c = some k' ∧ k'.chan? ch = some { h with cred := h.cred + 1 }) ∧
    (∀ ch h y, s.ev = .chrecvCompletion c ch → k.chan? ch = some h → k.ycmds = [y] → y.kind = .chrecv ch → y.started = true → y.held = false →
      h.map.getLsbD (h.next % h.depth) = true →
      ∃ t k' h', exec .chrecvCompletion s = .next t ∧ t.core? c = some k' ∧ k'.ycmds = [] ∧ k'.chan? ch = some h' ∧ h'.next = h.next + 1 ∧
        h'.map.getLsbD (h.next % h.depth) = false ∧ signals k' y.sync (h.lostMap.getLsbD (h.next % h.depth))) ∧
    (∀ y x, s.ev = .drainStart c y.id → k.ycmds = [y] → y.kind = .drain → s.rowsEnded c y.ctx y.id = true → k.ctx? y.ctx = some x →
      ∃ t k', exec .drainStart s = .next t ∧ t.core? c = some k' ∧ k'.ycmds = [] ∧ signals k' y.sync x.lost) ∧
    (∀ l cl whole y, s.ev = .stepBarrierOpen l cl whole → (s.launch? l).isSome = true → s.scopeCores l cl whole = [k] → k.id = c →
      k.ycmds = [y] → y.kind = .step whole → y.arrived = true → s.barrierReady [k] whole = true →
      ∃ t k', exec .stepBarrierOpen s = .next t ∧ t.core? c = some k' ∧ k'.ycmds = [] ∧ signals k' y.sync false)

/-! ## Special registers -/

/-- 17 R434 to R437, 04 R87, 12 R282: MFSR writes what the register reads as to its c register, after 2 cycles and without poison of its own; MTSR writes the
register; one of a PRW register outside privileged code is PRIV; an unassigned number is ILLEGAL_OP, and so is an MTSR of
a WO register outside privileged code, whatever its guard; MTSR of a poisoned value kills. One whose guard fails writes
nothing. (That a poisoned guard poisons what MFSR writes is 12 R300 as the model reads it, log entry 34, DEDUCED.) -/
def Obligations.SpecialRegisterAccess : Prop :=
  ∀ (s : State) (k : Core) (n : Nat) (x : Ctx) (o : OpS), s.issues k n x →
    let kind := srKind o.srn.toNat
    let s1 := s.mxSettle s.cur
    let v := s.bun.old.getC o.r.toNat
    (Guard.ok o.g .pk s.bun.old = false → kind ≠ .none →
      exec (.mfsr o) s = .next s1 ∧ (kind ≠ .wo ∨ s.privileged s.cur n = true → exec (.mtsr o) s = .next s)) ∧
    (s.passes o.g .pk → kind = .free ∨ kind = .wo ∨ s.privileged s.cur n = true → kind ≠ .none →
      (∀ k1, s1.core? s.cur = some k1 → s1.privileged s.cur n = s.privileged s.cur n →
        exec (.mfsr o) s = .next (s1.writeC o.r ⟨s1.readSr k1 n x o.srn.toNat, Guard.psn o.g .pk s.bun.old⟩ 2)) ∧
      (v.p = false → kind ≠ .wo ∨ s.privileged s.cur n = true → exec (.mtsr o) s = .next (s.writeSr s.cur n o.srn.toNat v.v)) ∧
      (v.p = true → kind ≠ .wo ∨ s.privileged s.cur n = true → exec (.mtsr o) s = .next (s.poisonKill 1 0))) ∧
    (s.passes o.g .pk → kind = .prw → (s.privileged s.cur n = false → exec (.mtsr o) s = .next (s.trap 0x03 (privInfo 0 0x11 o.srn.toNat))) ∧
      (s1.privileged s.cur n = false → exec (.mfsr o) s = .next (s1.trap 0x03 (privInfo 0 0x10 o.srn.toNat)))) ∧
    (kind = .wo → s.privileged s.cur n = false → exec (.mtsr o) s = .next (s.trap 0x01 (illegalInfo 0 0x11 true))) ∧
    (kind = .none → exec (.mtsr o) s = .next (s.trap 0x01 (illegalInfo 0 0x11 true)) ∧
      exec (.mfsr o) s = .next (s1.trap 0x01 (illegalInfo 0 0x10 true)))

/-- 04 R86, R87, 12 R283, R285, 03 R64, R72: the registers of a context that an MTSR writes read back as written, their reserved bits as zero; those of the loop nest where
no level is open or a routine runs, else they show the nest that is open (that they hold what was written where no level is open is log entry 97, DEDUCED).
08 R204, 09 Table 4, 10 R245, R247, R248, 12 Tables 3 and 9, 17 R436: the writes with an effect of their own. Each clears what its table says that any write
clears; CRCTL takes its value where the reservations leave four ways in every slice, and else keeps its own and sets REJ. -/
def Obligations.SpecialRegisterWrites : Prop :=
  (∀ (s : State) (k : Core) (n : Nat) (x : Ctx) (v : Word64),
     let back := fun (r : Nat) (u : Word64) => s.readSr k n { x with sr := x.sr.write r v } r = u
     back 0x010 (v &&& 0x000FFFFFFFFFFFFC) ∧ back 0x011 (v &&& 0x1FF) ∧ back 0x012 v ∧ back 0x013 (v &&& 0x801FFFFFFFFFFFFF) ∧ back 0x014 (v &&& 0x000FFFFFFFFFFFFD) ∧
     back 0x015 v ∧
     -- the loop registers show the nest that is open outside a routine, and what they hold elsewhere
     (x.sr.tmode = true ∨ x.loops = [] → (Tab.wf 0 x.sr.loopc = true → ∀ m < 3, back (0x018 + m) (v &&& 0x3FFFFFFFFFF)) ∧
       (Tab.wf 0 x.sr.loopb = true → ∀ m < 3, back (0x01C + m) (v &&& 0x000FFFFFFFFFFFFC))) ∧
     (x.sr.tmode = false → x.loops ≠ [] → ∀ m < 3, s.readSr k n x (0x018 + m) = ((x.loops[m]?.map LoopLevel.loopc).getD 0) ∧
       s.readSr k n x (0x01C + m) = ((x.loops[m]?.map LoopLevel.loopb).getD 0)) ∧
     back 0x044 (v &&& 0xFFFFF) ∧ back 0x084 (v &&& 0xFF) ∧ back 0x0C5 (v &&& 0x3F) ∧ back 0x1A2 (v &&& 0xFF)) ∧
  (∀ (s : State) (c p n m : Nat) (v : Word64) (k : Core) (q : Part) (r : Router) (l : Port), s.core? c = some k → s.part? p = some q → s.router? c = some r → s.port? n = some l →
     (s.ev = .ststatWrite c v → ∃ t k', exec .ststatWrite s = .next t ∧ t.core? c = some k' ∧ k' = { k with stash := { k.stash with fulls := 0 } }) ∧
     (s.ev = .silcntWrite c v → ∃ t k', exec .silcntWrite s = .next t ∧ t.core? c = some k' ∧ k' = { k with silcnt := 0 }) ∧
     (s.ev = .notstatWrite p v → ∃ t q', exec .notstatWrite s = .next t ∧ t.part? p = some q' ∧ q' = { q with ndrop := 0 }) ∧
     (s.ev = .fqstatWrite c v → ∃ t r', exec .fqstatWrite s = .next t ∧ t.router? c = some r' ∧ r' = { r with lost := 0 }) ∧
     (s.ev = .flogstWrite c v → ∃ t r', exec .flogstWrite s = .next t ∧ t.router? c = some r' ∧ r'.flog = [] ∧ r'.fq = r.fq) ∧
     (s.ev = .lpstatWrite n v → ∃ t l', exec .lpstatWrite s = .next t ∧ t.port? n = some l' ∧ l'.stale = 0 ∧ l'.bpart = BitVec.ofNat 3 (bitsOf v 39 3)) ∧
     (s.ev = .crctlWrite p m v →
       let u := (s.updPart p fun q => { q with crctl := Tab.set 0 q.crctl m (keepBits v 0 45), crrej := setBits q.crrej m 1 0 }).clearCounters p m
       (u.reservedSum p + 4 ≤ u.waysU p → exec .crctlWrite s = .next u) ∧
       (u.waysU p < u.reservedSum p + 4 → ∃ t q', exec .crctlWrite s = .next t ∧ t.part? p = some q' ∧ q'.crctl = q.crctl ∧ (m < 16 → q'.crrej.getLsbD m = true))))

/-! ## Pre-emption and the watchdog -/

/-- 12 R295 to R297, 18 R478, R479: QSAVE enters its queue; where its context has not taken PREEMPT, the commands of the context freeze first. QREST holds its
context while it restores the records from its address on. Both are PRIV outside privileged code.
Where nothing is queued before it, QSAVE is at work with the event that it posted; QREST of an end record lets its context go on.
12 R296, R297: a QSAVE whose context's commands have reached their stop points and whose records are written removes what it saved and signals. QREST goes from
record to record, one for each event; at the end record it signals, and its context goes on. (That it restores exactly one record for each event is log entry 61, DEDUCED: 12 R297
and 18 R479 give no such course.) -/
def Obligations.SaveAndRestore : Prop :=
  (∀ (s : State) (k : Core) (n : Nat) (x : Ctx) (w : Sync) (o : OpQsave), s.issues k n x → s.passes o.g .pk →
     let a := s.bun.old.getXY o.fs o.a.toNat
     let saves := fun (i : Instr) (w : Sync) =>
       let s1 := s.updCore s.cur fun k =>
         { k with nextCmd := k.nextCmd + 1, qcmds := k.qcmds ++ [⟨k.nextCmd, n, .qsave a.v, w, engineWord (.qsave o), false, 0, false, 0, [], Guard.psn o.g .pk s.bun.old⟩] }
       (x.tookPreempt = true → exec i s = .next (s1.postOnce 0 (.streamCommandStart s.cur))) ∧
       (x.tookPreempt = false → exec i s = .next ((s1.freezeCommands s.cur (fun m => m == n) (some k.nextCmd)).postOnce 0 (.streamCommandStart s.cur))) ∧
       (x.tookPreempt = true → k.qcmds = [] → x.fences = [] → ∃ t u k', exec i s = .next t ∧
         exec .streamCommandStart { t with ev := .streamCommandStart s.cur } = .next u ∧ u.core? s.cur = some k' ∧
         (∃ q, k'.qcmds = [q] ∧ q.kind = .qsave a.v ∧ q.started = true ∧ q.sync = w) ∧ ∃ d, (d, Event.qsaveCompletion s.cur k.nextCmd) ∈ u.agenda)
     let restores := fun (i : Instr) (w : Sync) =>
       ∃ t x', exec i s = .next t ∧ t.ctx? s.cur n = some x' ∧ x' = { x with holdQ := .qrest a.v 0 w [] } ∧ (s.cycle + 1, Event.qrestCompletion s.cur n) ∈ t.agenda ∧
         let u := { t with ev := .qrestCompletion s.cur n }
         ∀ k0 s1 k1 x1 ws, u.core? s.cur = some k0 → k0.fenced n k0.nextCmd 4 = false → u.readWords s.cur false a.v.toNat 16 = (s1, .got ws) →
           (∀ v ∈ ws, v.p = false) → s1.core? s.cur = some k1 → k1.ctx? n = some x1 → wordsBits ws 0 8 = 0 →
           ∃ v y, exec .qrestCompletion u = .next v ∧ v.ctx? s.cur n = some y ∧ y.holdQ = .none
     (s.privileged s.cur n = true → a.p = false → a.v.toNat % 64 = 0 → 
       let met := w.wt = 0 ∨ (k.sem w.ws.toNat).met w.wt.toNat = true
       let full := 16 ≤ (k.qcmds.filter fun q => !q.started).length
       (¬full → saves (.qsave o) Sync.none ∧ (met → saves (.qsave64 o w) w)) ∧
       (full → exec (.qsave o) s = .next s.stall ∧ (met → exec (.qsave64 o w) s = .next s.stall)) ∧
       restores (.qrest o) Sync.none ∧ (met → restores (.qrest64 o w) w) ∧
       (¬met → Slot.q ∉ x.sat → BlocksOn s (.qsave64 o w) n x .q w ∧ BlocksOn s (.qrest64 o w) n x .q w)) ∧
     (s.privileged s.cur n = false → exec (.qsave o) s = .next (s.trap 0x03 (privInfo 5 0x0C 0)) ∧ exec (.qrest o) s = .next (s.trap 0x03 (privInfo 5 0x0D 0)))) ∧
  (∀ (s : State) (c : Nat),
     (∀ s1 s2 k1 k2 y a, s.ev = .qsaveCompletion c y.id → s1 = s.mxSettle c → s1.core? c = some k1 → k1.qcmd y.id = some y → y.kind = .qsave a →
       y.started = true → y.faulted = false → k1.stopped y.ctx y.id = true →
       s1.writeRecords c y.ctx y.id a.toNat y.psn y.prog ((k1.saveRecords y.ctx y.id).drop y.prog) = (s2, .got ()) → s2.core? c = some k2 →
       ∃ t k', exec .qsaveCompletion s = .next t ∧ t.core? c = some k' ∧ (∀ z ∈ k'.qcmds, z.id ≠ y.id) ∧ (∀ f ∈ k'.frozen, Frozen.ctx f ≠ y.ctx) ∧
         (∀ q r, (q, some r) ∈ k'.sregs → r.alloc = true → r.owner ≠ y.ctx) ∧
         (y.sync.si ≠ 0 → k'.sem y.sync.ss.toNat = (k2.sem y.sync.ss.toNat).signal y.sync.si.toNat)) ∧
     (∀ n k x s1 k1 x1 addr pos w ws, s.ev = .qrestCompletion c n → s.core? c = some k → k.ctx? n = some x → x.holdQ = .qrest addr pos w [] →
       k.fenced n k.nextCmd 4 = false → s.readWords c false (addr.toNat + 64 * pos) 16 = (s1, .got ws) → (∀ v ∈ ws, v.p = false) → s1.core? c = some k1 → k1.ctx? n = some x1 →
       (wordsBits ws 0 8 = 0 → ∃ t k' x', exec .qrestCompletion s = .next t ∧ t.core? c = some k' ∧ k'.ctx? n = some x' ∧ x'.holdQ = .none ∧
         (w.si ≠ 0 → k'.sem w.ss.toNat = (k1.sem w.ss.toNat).signal w.si.toNat)) ∧
       (∀ s2 x2, wordsBits ws 0 8 ≠ 0 → s1.restoreRecord c n (wordsBits ws) = .done s2 → s2.ctx? c n = some x2 →
         ∃ t x', exec .qrestCompletion s = .next t ∧ t.ctx? c n = some x' ∧ x' = { x2 with holdQ := .qrest addr (pos + 1) w [] })))

/-- 12 R291 to R293, R298, R299: the watchdog; a request for a pre-emption and its limit; the replay of a core's cycle.
12 R302: a corrected error counts toward its row until the patrol pass ends; at RSPCFG.THR the row is copied to the lowest-numbered good spare of its bank, sector by sector;
an error read back marks the spare bad and the copy begins again at the next good one, or is given up where there is none; after the last sector the spare serves. The
bytes of home memory stay. (The course of a sparing as events is log entry 38, DESIGN CHOICE; what TRAPINFO of WATCHDOG names, `heldBy`, is log entry 62, and that a replay
freezes its core for two cycles is log entry 63, both the model's reading.) -/
def Obligations.PreemptionAndSilentErrorEvents : Prop :=
  ∀ (s : State),
    (∀ c n x p t, s.ev = .watchdog c n → s.ctx? c n = some x → s.part? (s.partOf c) = some p → x.timer = some t → x.st = .issuing ∨ x.st = .blocked →
      bitsOf p.wdcfg 0 16 ≠ 0 → x.pend.watchdog = none → t + bitsOf p.wdcfg 0 16 * 1000000 ≤ s.ticks →
      (x.sr.tmode = false → ∃ u x', exec .watchdog s = .next u ∧ u.ctx? c n = some x' ∧ x'.pend = { x.pend with watchdog := some x.heldBy } ∧
        (x.win = none → x'.st ≠ .blocked)) ∧
      (x.sr.tmode = true → exec .watchdog s = .next ((s.landLate c n).kill c n 0x17 (BitVec.ofNat 64 x.heldBy)))) ∧
    (∀ p q v, s.ev = .prectlGo p v → s.part? p = some q → let cl := bitsOf v 0 7
      (∀ x l y, s.cluster? cl = some x → x.launch = some l → s.launch? l = some y → y.part = p → q.prectlBusy = false → Fuses.enabled s.module.fuses cl = true →
        let s1 := (s.updPart p fun x => { x with prectlCluster := BitVec.ofNat 7 cl, prectlBusy := true, prectlRej := false }).updLaunch l fun q =>
          { q with aborted := true, preempt := some s.ticks }
        let s2 := s1.forEach (s1.coresOf l) fun s' c => (s'.freezeCommands c (fun _ => true) none).updCore c fun k => k.mapCtxs fun _ x =>
          if x.st = .empty then x
          else ({ x with pend := { x.pend with preempt := some (BitVec.ofNat 64 s.ticks) } } : Ctx).wake (s'.freezeCommands c (fun _ => true) none).cycle
        exec .prectlGo s = .next ((s2.post (s2.cyclesOf q.prelim) (.preemptLimitExpiry l)).postOnce 1 (.launchCompletion l))) ∧
      (q.prectlBusy = true ∨ (∀ x l, s.cluster? cl = some x → x.launch = some l → s.launch? l = none) →
        ∃ t q', exec .prectlGo s = .next t ∧ t.part? p = some q' ∧ q' = { q with prectlRej := true })) ∧
    (∀ l q t p, s.ev = .preemptLimitExpiry l → s.launch? l = some q → q.preempt = some t → s.part? q.part = some p → t + p.prelim ≤ s.ticks →
      exec .preemptLimitExpiry s = .next ((s.endTasks l).postOnce 0 (.launchCompletion l))) ∧
    (∀ c k1 s1, s.ev = .shadowLatchReplay c →
      s1 = (s.updCore c fun k => { k with silcnt := setBits k.silcnt 0 16 (min 65535 (bitsOf k.silcnt 0 16 + 1)) }).mxSettle c → s1.core? c = some k1 →
      ∃ t k', exec .shadowLatchReplay s = .next t ∧ t.core? c = some k' ∧ k'.silcnt = k1.silcnt ∧ k'.frozenTo = max k1.frozenTo s1.cycle + 2) ∧
    (let count := fun (m : Module) (b r : Nat) => (m.rowErrs.find? fun e => (e.1, e.2.1) == (b, r)).elim 0 fun e => e.2.2
     let bank := fun (m : Module) (b : Nat) => Tab.get (⟨0, 0⟩ : HbmBank) m.banks b
     (∀ sec, s.ev = .rowSparing (.corrected sec) → let b := Config.bankOf sec; let r := Config.rowOf sec; let n := count s.module b r + 1
       let thr := max 1 s.module.rspThr.toNat
       ∃ t, exec .rowSparing s = .next t ∧ count t.module b r = n ∧ t.mem = s.mem ∧ (n < thr → t.module.sparing = s.module.sparing) ∧
         (∀ i, thr ≤ n → s.module.sparing = none → s.module.toSpare = [] → s.module.kept.contains (b, r) = false → (bank s.module b).spare = some i →
           t.module.sparing = some ⟨sec, b, r, i, 0⟩)) ∧
     (s.ev = .rowSparing .passEnds → exec .rowSparing s = .next { s with module := { s.module with rowErrs := [] } }) ∧
     (∀ x, s.module.sparing = some x →
       (s.ev = .rowSparing (.copied true false) →
         exec .rowSparing s = .next { s with module := { s.module with sparing := some { x with sector := x.sector + 1 } } }) ∧
       (∀ i last, s.ev = .rowSparing (.copied false last) → x.spare < 8 → x.bank = Config.bankOf x.sec →
         (⟨(bank s.module x.bank).used, (bank s.module x.bank).bad ||| BitVec.ofNat 8 (2 ^ x.spare)⟩ : HbmBank).spare = some i →
         ∃ t, exec .rowSparing s = .next t ∧ t.module.restart = satInc16 s.module.restart 1 ∧ t.mem = s.mem ∧
           (bank t.module x.bank).bad = (bank s.module x.bank).bad ||| BitVec.ofNat 8 (2 ^ x.spare) ∧
           t.module.sparing = some ⟨x.sec, x.bank, Config.rowOf x.sec, i, 0⟩) ∧
       (∀ last, s.ev = .rowSparing (.copied false last) → x.spare < 8 → x.bank = Config.bankOf x.sec → s.module.toSpare = [] →
         (⟨(bank s.module x.bank).used, (bank s.module x.bank).bad ||| BitVec.ofNat 8 (2 ^ x.spare)⟩ : HbmBank).spare = none →
         ∃ t, exec .rowSparing s = .next t ∧ t.module.restart = s.module.restart ∧ t.mem = s.mem ∧ t.module.sparing = none) ∧
       (s.ev = .rowSparing (.copied true true) → x.spare < 8 → s.module.toSpare = [] →
         ∃ t, exec .rowSparing s = .next t ∧ t.module.spared = satInc16 s.module.spared 1 ∧ t.mem = s.mem ∧ t.module.sparing = none ∧
           (bank t.module x.bank).used = (bank s.module x.bank).used ||| BitVec.ofNat 8 (2 ^ x.spare) ∧ count t.module x.bank x.row = 0)))

/-! ## Rings, links and the memory fabric -/

/-- 09 R215 to R217, R222, R226: a channel command at the head that nothing holds starts. CHSEND spends a credit and sends its row; CHRECV waits for its element;
CHSTART begins an instance, or waits as the pending one; CHABORT leaves its channel RESETTING. -/
def Obligations.ChannelCommandStarts : Prop :=
  ∀ (s : State) (c ch : Nat) (k : Core) (h : Chan) (y : YCmd), s.core? c = some k → s.ev = .channelCommandStart c → k.ycmds = [y] → y.started = false → y.arrived = false →
    y.faulted = false → s.flowsHeld c = false → k.fenced y.ctx y.id (YKind.path y.kind) = false → k.chan? ch = some h →
    (∀ s1 k1 h1 ws, y.kind = .chsend ch → 0 < h.cred →
      ((s.updCore c fun k => k.updY y.id fun y => { y with started := true }).updChan c ch fun h => { h with cred := h.cred - 1 }).readWords c false
        (h.buf + 256 * (h.sent % h.depth)) h.words = (s1, .got ws) → s1.core? c = some k1 → k1.chan? ch = some h1 →
      ∃ t k' h', exec .channelCommandStart s = .next t ∧ t.core? c = some k' ∧ k'.chan? ch = some h' ∧ h' = { h1 with sent := h1.sent + 1 } ∧
        (Tab.get none t.rows s1.nextRow).map (·.cmd) = some y.id) ∧
    (y.kind = .chsend ch → h.cred = 0 → exec .channelCommandStart s = .next s) ∧
    (y.kind = .chrecv ch → ∃ t k', exec .channelCommandStart s = .next t ∧ t.core? c = some k' ∧ k'.ycmds = [{ y with started := true }] ∧
      (s.cycle, Event.chrecvCompletion c ch) ∈ t.agenda) ∧
    (∀ g, y.kind = .chstart ch → h.rst = 1 → s.ringOf c h = some g → ∃ t k' h' r, exec .channelCommandStart s = .next t ∧ t.core? c = some k' ∧ k'.ycmds = [] ∧
      k'.chan? ch = some h' ∧ h'.rst = 2 ∧ h'.inst = nextInst h.inst ∧ h'.run = some r ∧ r.inst = nextInst h.inst ∧ r.ctx = y.ctx ∧ r.sync = y.sync ∧
      r.started = false ∧ r.n = g.nm1 + 1 ∧ r.pos = g.pos ∧ r.len = h.bytes) ∧
    (y.kind = .chstart ch → h.rst = 2 → ∃ t k' h', exec .channelCommandStart s = .next t ∧ t.core? c = some k' ∧ k'.ycmds = [] ∧ k'.chan? ch = some h' ∧
      h'.rst = 3 ∧ h'.pend = some y ∧ h'.run = h.run) ∧
    (y.kind = .chabort ch → h.kind = 3 → ∃ t k' h', exec .channelCommandStart s = .next t ∧ t.core? c = some k' ∧ k'.ycmds = [] ∧ k'.chan? ch = some h' ∧
      h'.rst = 4 ∧ (h.rst ≠ 4 → h'.run = none ∧ h'.pend = none))

/-- 09 R220 to R225: an instance makes its reservation; a row of no member is STALE; a row of the instance at work is processed; at a disabled port (01 R18) nothing comes in;
the last write-back ends the instance; a
time-out and an abort token leave the channel RESETTING, the token marked so that it is forwarded once. -/
def Obligations.RingEvents : Prop :=
  ∀ (s : State) (c ch : Nat) (h : Chan), s.chan? c ch = some h →
    (∀ r g, s.ev = .ringInstanceStart c ch → h.run = some r → s.ringOf c h = some g → r.loaded = false → r.started = false → s.flowsHeld c = false →
      s.areaUsed g.dport + h.reserve r.n ≤ 7 * 2 ^ 20 →
      ∃ t h' r', exec .ringInstanceStart s = .next t ∧ t.chan? c ch = some h' ∧ h'.run = some r' ∧ r'.started = true ∧ r'.since = s.ticks ∧ r'.inst = r.inst) ∧
    (∀ port p l, s.ev = .ringPacketArrival port p → s.port? port = some l → s.module.fuses.lpen.getLsbD port = true → l.blocked = [] →
      (s.ringChannel port p.flow.toNat (fun _ g => g.uport == port) = none →
        ∃ t l', exec .ringPacketArrival s = .next t ∧ t.port? port = some l' ∧ l' = { l with stale := satInc16 l.stale 1 }) ∧
      (∀ g r, s.ringChannel port p.flow.toNat (fun _ g => g.uport == port) = some (c, ch, h, g) → h.rst ≠ 4 → h.run = some r → p.inst.toNat = r.inst →
        r.started = true → r.loaded = true → r.writing = false →
          exec .ringPacketArrival s = .next ((s.ringRow c ch g.dport h r p).updPort port fun q => { q with blocked := [] }))) ∧
    (∀ port p, s.ev = .ringPacketArrival port p → s.module.fuses.lpen.getLsbD port = false → exec .ringPacketArrival s = .next s) ∧
    (∀ k r, s.ev = .ringInstanceCompletion c ch → s.core? c = some k → h.run = some r → h.pend = none → r.loaded = true → 2 * r.n - 2 ≤ r.step → r.writing = true →
      (∀ i x, (i, some x) ∈ s.rows → x.core ≠ c ∨ x.cmd ≠ r.id) →
      ∃ t k' h', exec .ringInstanceCompletion s = .next t ∧ t.core? c = some k' ∧ k'.chan? ch = some h' ∧ h'.run = none ∧ h'.rst = 1 ∧
        (r.sync.si ≠ 0 → k'.sem r.sync.ss.toNat =
          if r.wbLost then { k.sem r.sync.ss.toNat with err := true } else (k.sem r.sync.ss.toNat).signal r.sync.si.toNat)) ∧
    (∀ r, s.ev = .remoteTimeout c ch → h.kind = 3 → h.rst ≠ 4 → h.run = some r → r.started = true → r.since + s.ringLimit c h ≤ s.ticks →
      ∃ t h', exec .remoteTimeout s = .next t ∧ t.chan? c ch = some h' ∧ h'.rst = 4 ∧ h'.run = none ∧ h'.pend = none ∧ h'.resetSince = s.ticks) ∧
    (∀ port t g, s.ev = .abortTokenArrival port t →
      s.ringChannel port t.flow.toNat (fun h g => h.ring == t.ring.toNat && (if t.down then g.uport else g.dport) == port) = some (c, ch, h, g) →
      (t ∈ h.fwd → exec .abortTokenArrival s = .next s) ∧
      (t ∉ h.fwd → h.kind = 3 → h.rst ≠ 4 →
        ∃ u h', exec .abortTokenArrival s = .next u ∧ u.chan? c ch = some h' ∧ h'.rst = 4 ∧ h'.run = none ∧ h'.fwd = h.fwd ++ [t]))

/-- 09 R219, R227, R229 to R231, 13 R312, 22 R568: a commit takes its rings, and once no channel of a ring is left its record is read anew; an enabled link comes up with
the lanes it trained, once its keys are in place; a packet comes in under the partition of its port, an acknowledgement ends the oldest packet, the 16th flit in a row
that fails authentication takes the link down for a retraining with new keys, and a disabled port takes nothing; a time-out clears UP and discards. -/
def Obligations.RingCommitAndLinkEvents : Prop :=
  ∀ (s : State),
    (∀ p q rings, s.ev = .ringCommit p rings → s.part? p = some q → (∀ n < 16, rings.getLsbD n = true → s.ringChans p n = []) →
      ∃ t q', exec .ringCommit s = .next t ∧ t.part? p = some q' ∧ q'.commits = q.commits ||| rings ∧
        ∀ n < 16, rings.getLsbD n = true → (s.cycle, Event.ringCommitReread p n) ∈ t.agenda) ∧
    (∀ p n q s1 g, s.ev = .ringCommitReread p n → n < 16 → s.part? p = some q → q.commits.getLsbD n = true → s.ringChans p n = [] → s.readRing p n = (s1, some g) →
      ∃ t q', exec .ringCommitReread s = .next t ∧ t.part? p = some q' ∧ Tab.get none q'.rings n = some g ∧ q'.badRings.getLsbD n = false ∧
        q'.commits.getLsbD n = false) ∧
    (∀ n lanes ts keyed l, s.ev = .linkTraining n lanes ts keyed → s.port? n = some l →
      (s.module.fuses.lpen.getLsbD n = true → s.module.booterr = 0 →
        ∃ t l', exec .linkTraining s = .next t ∧ t.port? n = some l' ∧ l'.up = keyed ∧ l'.lanes = lanes ∧ l'.bpart = l.bpart ∧
          l'.sent = (if keyed then l.sent.map fun x => { x with given := true } else l.sent) ∧ l'.retrain = (if l.again then satInc16 l.retrain 1 else l.retrain) ∧
          (keyed = true → l'.key = s.module.nextKey ∧ t.module.nextKey = s.module.nextKey + 1)) ∧
      (s.module.fuses.lpen.getLsbD n = false ∨ s.module.booterr ≠ 0 → exec .linkTraining s = .next s)) ∧
    (∀ n a l, s.ev = .linkPacketArrival n a → s.port? n = some l →
      (s.module.fuses.lpen.getLsbD n = false → exec .linkPacketArrival s = .next s) ∧
      (s.module.fuses.lpen.getLsbD n = true →
        (a = .ack → ∃ t l', exec .linkPacketArrival s = .next t ∧ t.port? n = some l' ∧ l' = { l with sent := l.sent.drop 1, authFails := 0 }) ∧
        (a = .authFails → ∃ t l', exec .linkPacketArrival s = .next t ∧ t.port? n = some l' ∧ l'.sent = l.sent ∧
          (l.authFails + 1 < 16 → l'.authFails = l.authFails + 1 ∧ l'.up = l.up) ∧
          (16 ≤ l.authFails + 1 → l'.authFails = 0 ∧ l'.up = false ∧ l'.retrain = satInc16 l.retrain 1 ∧ l'.key = s.module.nextKey)) ∧
        (∀ p, a = .packet p → s.flowsHeld (portRouter n) = false →
          ∃ t p', exec .linkPacketArrival s = .next t ∧ (s.cycle, Event.packetArrival (portRouter n) 4 p') ∈ t.agenda ∧ p'.part = l.bpart ∧ p'.srck = 1 ∧
            p'.src.toNat = n % 512 ∧ p'.flow.toNat = bitsOf p.daddr 0 12 ∧ p'.words = p.words))) ∧
    (∀ n l x ls, s.ev = .linkTimeout n → s.port? n = some l → l.sent = x :: ls → x.since + s.linkLimit n ≤ s.ticks →
      ∃ t l', exec .linkTimeout s = .next t ∧ t.port? n = some l' ∧ l'.sent = [] ∧ l'.up = false ∧
        ∀ y ∈ l.sent, ∀ m q, y.launch = some m → s.launch? m = some q → ∃ q', t.launch? m = some q' ∧ q'.remote = true)

/-- 07 R179, R180: a fabric slice takes the record that waits first; one that it cannot use ends at once with its status; a run that is through leaves the slice IDLE with a
reply on its way. -/
def Obligations.FabricInvocations : Prop :=
  ∀ (s : State) (sl : Nat) (x : Slice), s.slice? sl = some x →
    (∀ p ps s1, s.ev = .fabricInvocationStart sl → x.run = none → x.waiting = p :: ps → ps.length < 8 →
      s1 = s.updSlice sl (fun x => { x with waiting := ps, run := some ⟨p, []⟩ }) →
      (∀ s2 r x2, s1.fabricBegin sl ⟨p, []⟩ = (s2, .got r) → s2.slice? sl = some x2 → ∃ t x', exec .fabricInvocationStart s = .next t ∧ t.slice? sl = some x' ∧
        x' = { x2 with run := some r } ∧ (s2.cycle + 1, Event.fabricInvocationEnd sl) ∈ t.agenda) ∧
      (∀ s2 cause a, s1.fabricBegin sl ⟨p, []⟩ = (s2, .fault cause a) → exec .fabricInvocationStart s = .next (s2.fabricEnd sl cause a ⟨p, []⟩)) ∧
      (badRecord p = true → ∃ t x', exec .fabricInvocationStart s = .next t ∧ t.slice? sl = some x' ∧ x'.run = none ∧ x'.waiting = ps ∧ x'.grid.st = 2 ∧
        x'.grid.run = none)) ∧
    (∀ r g, s.ev = .fabricInvocationEnd sl → x.run = some r → x.grid.run = some g → g.turns * (x.grid.iim1 + 1) ≤ g.cyc →
      (∀ f ∈ x.grid.flight, f.due ≤ x.grid.clock) →
      ∃ t x', exec .fabricInvocationEnd s = .next t ∧ t.slice? sl = some x' ∧ x'.run = none ∧ x'.grid.st = 2 ∧ x'.grid.run = none)

/-! ## Flows -/

/-- 08 R181, R187, R188, R199, R200, 18 R473: a packet that matches no entry is dropped with reason 0, one of another partition with reason 5 (that the missing entry comes before
the other partition, and the order of the reasons RANK, DUP, LEN below, is log entry 92, DESIGN CHOICE); one that matches a forwarding
entry leaves by the entry's outputs two cycles on (R212, in the form of log entry 49, DESIGN CHOICE). A QRCOPY sends row after row, one for each event (log entry 45), and
is complete after its last.
08 R193: a transpose entry sends the packet on with its SEQ transposed, or drops it with RANGE.
08 R189 to R192, R194 to R196: a contribution is dropped with RANK, DUP or LEN; waits at its port where its group is at QUOTA; or joins the round of its SEQ. Hold folds
all of a round once XCNT have come, by rank, SRC and arrival. Combine, scan and normalise fold every contribution whose lower ranks have folded, in ascending rank, and hold the
others; scan sends the partial after each. The round that has its XCNT ends, with its output. (That the output of an FP32 group is WIDE where the first contribution was is log entry 92.)
05 R104, R111, R112, 08 R195: the words of a fold, with their poison. -/
def Obligations.PacketsAndRowSends : Prop :=
 (∀ (s : State) (r : Nat),
    (∀ port p t, s.ev = .packetArrival r port p → s.router? r = some t → t.waiting = [] → let p' := { p with vc := t.arrivalVc port p }
      (t.matching port p' = none → exec .packetArrival s = .next (s.drop r port 0 p')) ∧
      (∀ e, t.matching port p' = some e →
        (t.part ≠ some p.part.toNat → exec .packetArrival s = .next (s.drop r port 5 p')) ∧
        (t.part = some p.part.toNat → Rec128.act e ≠ 4 → Rec128.groups e = false →
          exec .packetArrival s = .next (s.output r port (s.cycle + 2) e p')))) ∧
    (∀ port p t q, s.router? r = some t → s.part? p.part.toNat = some q →
      ∃ t', (s.drop r port 0 p).router? r = some t' ∧ t'.drops = satInc16 t.drops 1 ∧ t'.flog = (flogEntry p port 0 :: t.flog).take 8 ∧ t'.fq = t.fq ∧
        t'.entries = t.entries) ∧
    (∀ y a l h s1 k1 ws, s.ev = .flowRowSend r y.id → (s.core? r).bind (fun k => k.qcmd y.id) = some y → y.kind = .qrcopy a l h → y.started = true → y.faulted = false →
      s.readWords r false (a.toNat + y.prog) (min 256 (l.toNat - y.prog) / 4) = (s1, .got ws) → s1.core? r = some k1 → k1.qcmd y.id = some y →
      ∃ t k', exec .flowRowSend s = .next t ∧ t.core? r = some k' ∧
        (Tab.get none t.rows s1.nextRow).map (fun x => (x.core, x.ctx, x.cmd, x.copies)) = some (r, y.ctx, y.id, 1) ∧
        (l.toNat ≤ y.prog + min 256 (l.toNat - y.prog) → ∀ z ∈ k'.qcmds, z.id ≠ y.id) ∧
        (y.prog + min 256 (l.toNat - y.prog) < l.toNat → k'.qcmd y.id = some { y with prog := y.prog + min 256 (l.toNat - y.prog) } ∧
          (s1.cycle + 1, Event.flowRowSend r y.id) ∈ t.agenda))) ∧
 (∀ (s : State) (r port : Nat) (p0 : Packet) (t : Router) (e : Rec128), s.ev = .packetArrival r port p0 → s.router? r = some t → t.waiting = [] →
    let p := { p0 with vc := t.arrivalVc port p0 }
    t.matching port p = some e → t.part = some p.part.toNat →
    let act := Rec128.act e
    let rlo := Rec128.rlo e
    let xcnt := Rec128.xcnt e
    let rank := p.rank.toNat
    let seq := p.seq.toNat
    let drops := fun (why : Nat) => exec .packetArrival s = .next (s.drop r port why p)
    (let w := bitsOf e 98 8 + 1; let h := bitsOf e 106 8 + 1
     act = 4 → (w * h ≤ seq → drops 4) ∧
       (seq < w * h → exec .packetArrival s = .next (s.output r port (s.cycle + 2) e { p with seq := BitVec.ofNat 16 (seq % w * h + seq / w) }))) ∧
    (act = 1 ∨ act = 2 ∨ act = 3 ∨ act = 5 →
      let flow := bitsOf e 4 12
      let round := (t.rounds.find? fun q => q.flow = flow && q.seq = seq).getD ⟨flow, seq, p.words.length - 1, p.wide, [], rlo, [], [], []⟩
      let bf16 := e.getLsbD 21 = true ∧ p.wide = false
      let badRank := rank < rlo ∨ (act ≠ 2 ∧ rlo + xcnt ≤ rank)
      let again := act ≠ 2 ∧ rank ∈ round.ranks
      let badLength := p.words.length - 1 ≠ round.ecm1 ∨ p.wide ≠ round.wide ∨ (bf16 ∧ 32 < p.words.length) ∨ (act = 5 ∧ p.words.length % 2 = 1) ∨ (port ≠ 4 ∧ p.vc ≠ 2)
      let slots := ((t.rounds.filter fun q => q.flow = flow).map fun q => (if q.acc = [] then 0 else 1) + q.held.length).sum
      let stays := Rec128.quota e ≤ slots ∧ (act = 2 ∨ round.acc = [] ∨ round.next ≠ rank)
      (badRank → drops 1) ∧ (¬badRank → again → drops 2) ∧ (¬badRank → ¬again → badLength → drops 3) ∧
      (¬badRank → ¬again → ¬badLength → stays → exec .packetArrival s = .next (s.updRouter r fun t => { t with waiting := [(port, p)] })) ∧
      (¬badRank → ¬again → ¬badLength → ¬stays →
        let c : Contribution := ⟨rank, p.src.toNat, t.arrivals, p⟩
        let ranks := round.ranks ++ [rank]
        let held := insertHeld c round.held
        let fold1 := fun (acc : List PWord) (x : Contribution) =>
          if acc = [] then firstWords act (foldInput e x.pkt) else foldWords act (bitsOf e 19 2) acc (foldInput e x.pkt)
        let rowsOf := fun (l : List Contribution) => round.rows ++ l.flatMap fun x => x.pkt.rows
        -- the packet that leaves once the contributions `l` have folded, the last of them or the one that completes the round being `last`
        let gives := fun (last : Packet) (l : List Contribution) (orank oseq : Nat) =>
          { last with rank := BitVec.ofNat 16 orank, seq := BitVec.ofNat 16 oseq, src := BitVec.ofNat 9 r, srck := 0, inst := 0, words := l.foldl fold1 round.acc,
                      wide := e.getLsbD 21 || round.wide, rows := rowsOf l }
        let complete := xcnt ≤ ranks.length
        -- a contribution more has come, and the group's unit is busy
        let counts := fun (b : Tab Nat) => s.updRouter r fun t => { t with arrivals := t.arrivals + 1, busy := b }
        let ends := fun (u : State) => u.updRouter r fun t => t.endRound round
        let goesOn := fun (u : State) (q : Round) => u.updRouter r fun t => t.setRound q
        let orank := bitsOf e 64 16
        (act = 2 → (¬complete → exec .packetArrival s = .next (goesOn (counts t.busy) { round with ranks := ranks, held := held })) ∧
          (complete → ∃ b at', exec .packetArrival s = .next ((ends (counts b)).output r port at' e (gives p held orank seq)))) ∧
        -- `l`: what can fold now, one rank after another
        (∀ l : List Contribution, (held.map (·.rank)).Nodup → (held.map (·.seqNo)).Nodup → (∀ x ∈ l, x ∈ held) → l.map (·.rank) = List.range' round.next l.length →
          (∀ x ∈ held, x.rank ≠ round.next + l.length) →
          let next := { round with ranks := ranks, held := held.filter fun d => !(l.map (·.seqNo)).contains d.seqNo, acc := l.foldl fold1 round.acc,
                                   next := round.next + l.length, rows := rowsOf l }
          (act = 1 ∨ act = 5 → ∃ b at',
            (¬complete → exec .packetArrival s = .next (goesOn (counts b) next)) ∧
            (complete → exec .packetArrival s = .next ((ends (counts b)).output r port at' e (gives p l orank seq)))) ∧
          (act = 3 → ∃ us : List State, us.length = l.length + 1 ∧ us.head? = some (counts t.busy) ∧
            (∀ i x u v, l[i]? = some x → us[i]? = some u → us[i + 1]? = some v → ∃ b at',
              v = ((u.updRouter r fun t => { t with busy := b }).fanRows x.pkt.rows (rlo + xcnt - x.rank)).output r port at' e
                (gives x.pkt (l.take (i + 1)) x.rank ((seq * xcnt + x.rank - rlo) % 65536))) ∧
            ∀ u, us.getLast? = some u → (complete → exec .packetArrival s = .next (ends u)) ∧ (¬complete → exec .packetArrival s = .next (goesOn u next))))))) ∧
 (∀ (c : Contribution) (l : List Contribution),
    let before := fun (a b : Contribution) => a.rank < b.rank ∨ (a.rank = b.rank ∧ (a.src < b.src ∨ (a.src = b.src ∧ a.seqNo < b.seqNo)))
    (insertHeld c l).Perm (c :: l) ∧ (l.Pairwise before → (∀ d ∈ l, d.seqNo < c.seqNo) → (insertHeld c l).Pairwise before)) ∧
 (∀ (act op : Nat) (acc ws : List PWord) (i : Nat) (x y : PWord),
    (act ≠ 5 → acc[i]? = some x → ws[i]? = some y → (foldWords act op acc ws)[i]? = some
      ⟨rne32 (if op = 1 then (f32 x.w).max (f32 y.w) else if op = 2 then (f32 x.w).min (f32 y.w) else (f32 x.w).add (f32 y.w)), x.p || y.p⟩) ∧
    (act ≠ 5 → firstWords act ws = ws) ∧
    (∀ sa sc, acc[2 * i]? = some x → acc[2 * i + 1]? = some sa → ws[2 * i]? = some y → ws[2 * i + 1]? = some sc →
      let m := rne32 ((f32 x.w).max (f32 y.w))
      let d := fun (v : Word32) => if (f32 v).eq (f32 m) then (0 : Word32) else rne32 ((f32 v).add (f32 m).neg)
      let psn := x.p || sa.p || y.p || sc.p
      (foldWords 5 op acc ws)[2 * i]? = some ⟨m, psn⟩ ∧
      (foldWords 5 op acc ws)[2 * i + 1]? = some ⟨rne32 (((f32 sa.w).mul (f32 (exp2 (d x.w)))).add (f32 (rne32 ((f32 sc.w).mul (f32 (exp2 (d y.w))))))), psn⟩) ∧
    (∀ s, ws[2 * i]? = some y → ws[2 * i + 1]? = some s → (firstWords 5 ws)[2 * i]? = some ⟨y.w, y.p || s.p⟩ ∧ (firstWords 5 ws)[2 * i + 1]? = some ⟨s.w, y.p || s.p⟩)) ∧
 (∀ (e : Rec128) (p : Packet),
    (e.getLsbD 21 = false ∨ p.wide = true → foldInput e p = p.words) ∧
    (e.getLsbD 21 = true → p.wide = false → (foldInput e p).length = 2 * p.words.length ∧ ∀ i w, p.words[i]? = some w →
      (foldInput e p)[2 * i]? = some ⟨widen (bitsOf w.w 0 16), w.p⟩ ∧ (foldInput e p)[2 * i + 1]? = some ⟨widen (bitsOf w.w 16 16), w.p⟩))

/-- 08 R198, R199, R206 to R210, 11 R266, 13 R317: a row lands at the unit it goes to; one that faults at a stash is parked and told to the control context. With its last
acknowledgement a row has landed and signals; a loss carries the error flag. Parked rows are tried again, and lost when their limit is over. (That a row of several copies
ends at its first loss and stands until its last copy has come is log entry 51, DEDUCED.) -/
def Obligations.RowLandingAndAcknowledgement : Prop :=
  ∀ (s : State) (r ep : Nat) (p : Packet),
    (s.ev = .rowLanding r ep p → p.xt = true → (p.tgtk = 1 → exec .rowLanding s = .next (s.landHome r p)) ∧ (p.tgtk = 2 → exec .rowLanding s = .next (s.landFabric p)) ∧
      (p.tgtk = 3 → exec .rowLanding s = .next (s.landLink r p)) ∧ (p.tgtk = 4 → exec .rowLanding s = .next (s.landHost p))) ∧
    (∀ t s1, s.ev = .rowLanding r ep p → p.xt = false → s.router? r = some t → (∀ w ∈ t.waiting, w.1 < 16) → let d := p.desc
      (s.stashLand r (rowAddr d p) (Rec128.dk d == 1) p = (s1, .landed) → exec .rowLanding s = .next (s1.landedRow r d p)) ∧
      (∀ cause t1, s.stashLand r (rowAddr d p) (Rec128.dk d == 1) p = (s1, .faulted cause) → cause ≠ 0 → t.fq.length < 32 → s1.router? r = some t1 →
        ∃ u t', exec .rowLanding s = .next u ∧ u.router? r = some t' ∧ t'.fq = t1.fq ++ [⟨p, ep, s1.ticks, s1.ticks + 64000, none⟩])) ∧
    (∀ i x k, s.row? i = some x → s.core? x.core = some k → Tab.wf none s.rows = true →
      (s.ev = .landingAcknowledgement i → x.copies ≤ 1 → x.lost = false → ∃ t k', exec .landingAcknowledgement s = .next t ∧ t.row? i = none ∧ t.core? x.core = some k' ∧
        (x.sync.si ≠ 0 → k'.sem x.sync.ss.toNat = (k.sem x.sync.ss.toNat).signal x.sync.si.toNat)) ∧
      (s.ev = .landingAcknowledgement i → 1 < x.copies →
        exec .landingAcknowledgement s = .next { s with rows := Tab.set none s.rows i (some { x with copies := x.copies - 1 }) }) ∧
      (s.ev = .lossAcknowledgement i → x.lost = false → ∃ t k', exec .lossAcknowledgement s = .next t ∧
        t.row? i = (if x.copies ≤ 1 then none else some { x with copies := x.copies - 1, lost := true }) ∧ t.core? x.core = some k' ∧
        (x.sync.si ≠ 0 → k'.sem x.sync.ss.toNat = { k.sem x.sync.ss.toNat with err := true }) ∧
        ∀ y, k.ctx? x.ctx = some y → ∃ y', k'.ctx? x.ctx = some y' ∧ y'.lost = true)) ∧
    (∀ t x s1, s.router? r = some t → t.waiting = [] → t.fq = [x] → let d := x.pkt.desc
      (s.ev = .parkedRowRetry r → x.due s.cycle s.ticks = true → s.completing r = false → s.stashLand r (rowAddr d x.pkt) (Rec128.dk d == 1) x.pkt = (s1, .landed) →
        (s1.landedRow r d x.pkt).router? r = some t → ∃ u t', exec .parkedRowRetry s = .next u ∧ u.router? r = some t' ∧ t'.fq = []) ∧
      (s.ev = .flowRowLost r → x.since + max 1 t.limit.toNat * 100000 ≤ s.ticks →
        ∃ u t', exec .flowRowLost s = .next u ∧ u.router? r = some t' ∧ t'.fq = [] ∧ t'.lost = satInc16 t.lost 1))

/-! ## The privileged instructions that act beyond their context -/

/-- 19 R504 to R508, 16 R383 to R397, 10 R254, R262, 08 R203, 12 R282: in privileged code TLBI and EVAC hold their context until they complete, which the event that they posted does where
no earlier one is at work and no step goes above the limit; FENSET writes its result, or
stalls while an EVAC is under way or a step to a point above the limit it would set; DRAFTLD holds its context before its bundle performs, and performs with the result that it
has come to, replacing the Draft where that is 0, or traps with the fault of a read. Elsewhere each of them is PRIV. (That FENSET acts at its attempt, its stalls and the
order of attempts are log entry 59, and that the bundle of a DRAFTLD stands in place and performs at its end is log entry 60, both DEDUCED.) -/
def Obligations.PrivilegedOperationsHoldTheirContext : Prop :=
  ∀ (s : State) (k : Core) (n : Nat) (x : Ctx), s.issues k n x →
    let r := s.bun.old
    let priv := fun (i : Instr) (op : Nat) => s.privileged s.cur n = false → exec i s = .next (s.trap 0x03 (privInfo 0 op 0))
    (∀ o : OpTlbi, s.passes o.g .pk → priv (.tlbi o) 0x12 ∧ (s.privileged s.cur n = true →
      let holds := fun (all : Bool) (reach : Nat) => ∃ t x', exec (.tlbi o) s = .next t ∧ t.ctx? s.cur n = some x' ∧
        x' = { x with hold := .tlbi all reach (BitVec.ofNat 52 (bitsOf (r.getC o.a.toNat).v 0 52)) s.free } ∧
        (∃ d, s.cycle + 32 ≤ d ∧ (d, Event.tlbiCompletion s.cur n) ∈ t.agenda) ∧
        (s.tlbiBefore (s.partOf s.cur) s.free = false →
          (∀ c m y, s.ctx? c m = some y → y.late = none ∧ ∀ d q e r sl pa ed gp, y.hold = .launch d q e r sl pa ed gp → r ≠ 0) →
          ∃ u y, exec .tlbiCompletion { t with ev := .tlbiCompletion s.cur n } = .next u ∧ u.ctx? s.cur n = some y ∧ y.hold = .none)
      ((r.getC o.a.toNat).p = true ∨ (r.getC o.b.toNat).p = true → holds true 2) ∧
      ((r.getC o.a.toNat).p = false → (r.getC o.b.toNat).p = false → bitsOf (r.getC o.b.toNat).v 1 2 ≠ 3 → bitsOf (r.getC o.b.toNat).v 3 61 = 0 →
        holds ((r.getC o.b.toNat).v.getLsbD 0) (bitsOf (r.getC o.b.toNat).v 1 2)))) ∧
    (∀ o : OpC2, s.passes o.g .pk → priv (.fenset o) 0x13 ∧ priv (.evac o) 0x14 ∧ (s.privileged s.cur n = true → let a := r.getC o.a.toNat
      let pt := bitsOf a.v 0 3
      let idx := bitsOf a.v 4 8
      let l := max pt s.module.pt
      a.p = false → pt ≤ 4 →
      (bitsOf a.v 12 52 = 0 → idx ≤ (if a.v.getLsbD 3 then 191 else 127) →
        (s.evacBefore s.free = true ∨ (s.module.opStep = true ∧ l < s.module.opTo) → exec (.fenset o) s = .next s.stall)) ∧
      (bitsOf a.v 12 52 = 0 → idx ≤ (if a.v.getLsbD 3 then 191 else 127) → s.evacBefore s.free = false → (s.module.opStep = true → s.module.opTo ≤ l) →
        let res := if a.v.getLsbD 3 then s.fensetSlice (s.partOf s.cur) idx l else s.fensetCluster (s.partOf s.cur) idx l
        ∃ t x', exec (.fenset o) s = .next t ∧ t.ctx? s.cur n = some x' ∧ s.cycle < x'.holdUntil ∧ x'.holdUntil ≤ s.cycle + 64 ∧
          (o.d ≠ 0 → Tab.wf RV.zero x.regs.c = true → x'.regs.getC o.d.toNat = ⟨BitVec.ofNat 64 res, Guard.psn o.g .pk r⟩) ∧
          (res ≠ 0 → ∀ m, t.slice? m = s.slice? m) ∧
          (res = 0 → a.v.getLsbD 3 = true → ∀ sl, s.slice? idx = some sl → t.slice? idx = some { sl with limpt := l })) ∧
      (bitsOf a.v 5 59 = 0 → ∃ t x', exec (.evac o) s = .next t ∧ t.ctx? s.cur n = some x' ∧
        x' = { x with hold := .evac o.d.toNat pt (bitsOf a.v 3 2) s.free (Guard.psn o.g .pk r) } ∧
        (∃ d, s.cycle < d ∧ (d, Event.evacCompletion s.cur n) ∈ t.agenda) ∧
        (s.evacBefore s.free = false → (s.module.opStep = true → s.module.opTo ≤ l) →
          ∃ u y, exec .evacCompletion { t with ev := .evacCompletion s.cur n } = .next u ∧ u.ctx? s.cur n = some y ∧ y.hold = .none)))) ∧
    (∀ o : OpC3, s.passes o.g .pk → priv (.draftld o) 0x15 ∧ (s.privileged s.cur n = true → let a := r.getC o.a.toNat
      let b := r.getC o.b.toNat
      let ends := fun (t : State) (v : Nat) =>
        Host.Outcome.next (φ := Fault) (ρ := Refusal) ((t.writeC o.d ⟨BitVec.ofNat 64 v, b.p || Guard.psn o.g .pk r⟩ 1).endHolding s.cur n)
      a.p = false →
      (x.hold = .none →
        (s.bun.performs = false → exec (.draftld o) s = .next s) ∧
        (s.bun.performs = true → exec (.draftld o) s =
          .next ({ s.holdWith n (.draftld s.free a.v b.v b.p (some (s.time18 + 180000)) [] .going) with free := s.free + 1 } : State).stall)) ∧
      (∀ seq a' len bad due ws out, x.hold = .draftld seq a' len bad due ws out →
        (out ≠ .going → (∀ cause info, out ≠ .fault cause info) → (out = .load → s.hoppingAt s.cur = false) → s.bun.performs = false → exec (.draftld o) s = .next s) ∧
        (∀ v, out = .result v → s.bun.performs = true → exec (.draftld o) s = ends s v) ∧
        (out = .load → s.hoppingAt s.cur = true → exec (.draftld o) s = .next s.stall) ∧
        (out = .load → s.hoppingAt s.cur = false → s.bun.performs = true → exec (.draftld o) s = ends (s.replaceDraft s.cur ws) 0) ∧
        (∀ cause info, out = .fault cause info → exec (.draftld o) s = .next (s.trap cause info)))))

/-- 08 R203, 10 R254, R262, 16 R384 to R393, 18 R489: TLBI drops what matches in its reach; EVAC does its work and writes its result; DRAFTLD comes to its result once every flow of
its launch has ended and the Draft has been read; RETIRE leaves its context EMPTY. (What TLBI drops and waits for beside its entries is log entry 59, the time and the order
of DRAFTLD's checks log entry 60, both DEDUCED.) -/
def Obligations.HeldOperationsComplete : Prop :=
  ∀ (s : State) (c n : Nat) (k : Core) (x : Ctx), s.core? c = some k → k.ctx? n = some x →
    (∀ all reach addr seq, s.ev = .tlbiCompletion c n → x.hold = .tlbi all reach addr seq → s.tlbiBefore (s.partOf c) seq = false →
      let p := s.partOf c
      let cores := if reach = 0 then [c] else if reach = 1 then clusterCores c else s.coresOfPart p
      s.slotPending all addr.toNat cores = false →
      -- the atomics that wait, translated by what it drops, wait for a TLBI alone, and perform before it ends (log entry 20, DEDUCED)
      (∀ y ∈ s.latePending all addr.toNat cores, y.2.2 = true) →
      let clusters := if reach ≤ 1 then [clusterOf c] else (List.range 128).filter fun cl => s.partOfCluster cl == some p
      let s1 := s.dropTlb p all addr.toNat cores clusters
      let s2 := (s1.forEach cores fun s q => s.emptyPage p all addr.toNat q).landTranslated p all addr.toNat cores
      let s3 := s2.forEach cores fun s q => s.retryParked q fun va => all || va / 2 ^ s2.pageNow p addr.toNat == addr.toNat / 2 ^ s2.pageNow p addr.toNat
      let s4 := s3.forEach (s3.latePending all addr.toNat cores) fun s y => s.landLate y.1 y.2.1
      exec .tlbiCompletion s = .next ((s4.updCtx c n fun x => { x with hold := .none }).forEach cores State.wakeCluster) ∧
      (∀ q k', q ∈ cores → s1.core? q = some k' → ∀ e ∈ k'.tlb, ¬(e.part = p ∧ (all = true ∨ e.vpn = addr.toNat / 2 ^ e.size)))) ∧
    (∀ d t scope seq gp, s.ev = .evacCompletion c n → x.hold = .evac d t scope seq gp → s.evacBefore seq = false →
      (s.module.opStep = true → s.module.opTo ≤ max t s.module.pt) →
      let l := max t s.module.pt
      let cores := s.evacCores c (s.partOf c) scope
      let slices := s.evacSlices (s.partOf c) scope
      let res := s.evacResult (s.partOf c) scope l cores slices
      (res ≠ 0 → exec .evacCompletion s = .next (s.endHold c n d res gp)) ∧
      (∀ s1 m, res = 0 → s.evacWork l cores = (s1, m) →
        let s2 := s1.forEach slices fun s n => (s.leaveLines n fun y => !s.wayUsable n l y.way).updSlice n fun sl => { sl with limpt := l }
        exec .evacCompletion s = .next ((s2.endHold c n d 0 gp).updCtx c n fun x => { x with holdUntil := max x.holdUntil (s2.cycle + 64 * m) }))) ∧
    (∀ v d gp, d ≠ 0 → Tab.wf RV.zero x.regs.c = true → ∃ x', (s.endHold c n d v gp).ctx? c n = some x' ∧ x'.hold = .none ∧ x'.regs.getC d = ⟨BitVec.ofNat 64 v, gp⟩) ∧
    (∀ addr len bad seq due ws l q, s.ev = .draftldCompletion c n → x.hold = .draftld seq addr len bad due ws .going → k.launch = some l → s.launch? l = some q →
      let becomes := fun (t : State) (ws : List PWord) (out : DraftEnd) =>
        exec .draftldCompletion s = .next (t.updCtx c n fun x => { x with hold := .draftld seq addr len bad none ws out })
      let shapeBad := draftShapeBad addr.toNat len.toNat bad
      (s.slotHeld q = false → s.draftldBefore l seq = false → s.flowing l = false →
        (shapeBad = true → becomes s ws (.result 1)) ∧
        (∀ s1 ws1, shapeBad = false → k.fenced n k.nextCmd 16 = false →
          s.draftWords c addr.toNat (len.toNat / 4 + 1) ws (len.toNat / 4) = (s1, ws1, .got ()) →
          becomes s1 ws1 (if len = 0 ∨ (checkDraft ws1 q.cw q.ch).isSome = true then .load else .result 1))) ∧
      (s.slotHeld q = true → (∃ t, due = some t ∧ t ≤ s.time18) → becomes s ws (.result 2))) ∧
    (s.ev = .retireAccepted c n → x.hold = .retire → x.holdM = .none → x.holdQ = .none →
      ∃ t k' x', exec .retireAccepted s = .next t ∧ t.core? c = some k' ∧ k'.ctx? n = some x' ∧ x'.st = .empty ∧ x'.hold = .none ∧ x'.sr.taskid = 0 ∧
        x'.pend = Pending.none ∧ (k.issuing = some n → k'.issuing = none))

/-- 10 R239, R241, R242, 13 R303, R304: a fill brings the bytes of a row that are not valid, and leaves those that are. With its arrival the row of the block is the row so
filled, and no fill of the block is outstanding. A row that goes into write-back hands over its dirty bytes. When a write-back performs, home memory reads under its mask the bytes
that it holds (stated where the key of its domain is loaded and its sectors read whole through it, 13 R304), and it is no longer under way. -/
def Obligations.FillsAndWriteBacks : Prop :=
  ∀ (s : State) (q : Nat) (k : Core), s.core? q = some k →
    (∀ (r : Row) (ws : List PWord), ws.length = 64 → (r.fill ws).v = BitVec.allOnes 256 ∧ (r.fill ws).d = r.d ∧ (r.fill ws).block = r.block ∧
      ∀ i < 256, bitsOf (r.fill ws).data (8 * i) 8 =
        if r.v.getLsbD i then bitsOf r.data (8 * i) 8 else bitsOf (ws.getD (i / 4) ⟨0, false⟩).w (8 * (i % 4)) 8) ∧
    (∀ block checks f, s.ev = .stashFillArrival q block checks → (k.stash.fills.find? fun g => g.block = block) = some f →
      let home := ((s.flushWbs q f.pa).meet (f.pa / 64) checks).homeWords ⟨f.part, f.ed, k.launch, f.range⟩ 65 f.pa 64
      ∃ t k', exec .stashFillArrival s = .next t ∧ t.core? q = some k' ∧ (∀ g ∈ k'.stash.fills, g.block ≠ block) ∧
        -- a fill whose own check fences the partition brings nothing (13 R305, R307)
        ∀ k1 n r, s.keyLoaded ⟨f.part, f.ed, k.launch, f.range⟩ = false ∨ home.1.keyLoaded ⟨f.part, f.ed, k.launch, f.range⟩ = true →
          home.1.core? q = some k1 → Tab.wf none k1.stash.rows = true → k1.stash.find block = some (n, r) →
          k'.stash.find block = some (n, (if r.v = 0 then { r with frame := f.pa, ed := f.ed, part := f.part } else r).fill home.2)) ∧
    (∀ n r, Tab.get none k.stash.rows n = some r → r.d ≠ 0 →
      ∃ k' w, (s.writeBackRow q n).core? q = some k' ∧ k'.stash.wbs = k.stash.wbs ++ [w] ∧ Tab.get none k'.stash.rows n = some { r with d := 0 } ∧
        w.id = k.stash.nextWb ∧ w.pa = r.frame ∧ w.data = r.data ∧ w.mask = r.d ∧ w.psn = r.psn ∧
        ∃ d, s.cycle < d ∧ (d, Event.writeBackPerformed q w.id) ∈ (s.writeBackRow q n).agenda) ∧
    (∀ id w key, s.ev = .writeBackPerformed q id → (k.stash.wbs.find? fun v => v.id = id) = some w → id < k.stash.nextWb →
      k.stash.wbs.Pairwise (fun a b => a.id < b.id) → (∀ v ∈ k.stash.wbs, v.pa = w.pa → v.part = w.part ∧ v.ed = w.ed) →
      s.Inv → Tab.wf 0 s.sealed = true → Tab.wf .clean s.errs = true → w.pa % 256 = 0 → w.pa + 256 ≤ hbmTop →
      s.keyOf ⟨w.part, w.ed, k.launch, w.range⟩ = some key → (∀ i < 4, s.sealOf (w.pa / 64 + i) = key ∧ Tab.get .clean s.errs (w.pa / 64 + i) = .clean) →
      (∀ n sl, s.slice? n = some sl → ∀ x ∈ sl.lines, x.no / 2 = w.pa / 256 → x.part = w.part ∧ x.ed = w.ed ∧ x.ws.length = 32) →
      ∃ t k', exec .writeBackPerformed s = .next t ∧ t.core? q = some k' ∧ (∀ v ∈ k'.stash.wbs, v.id ≠ id) ∧
        ∀ i < 256, w.mask.getLsbD i = true → t.homeByte (w.pa + i) = w.data.extractLsb' (8 * i) 8)

/-! ## Work -/

/-- 02 R29, R32, R35, 16 R405 to R407: a tail write is taken where its queue is not fenced and its descriptor is good, and dispatch looks; the host's write of a launch
semaphore; LAUNCH reads its entry, comes to its result and holds its context, or stalls while another is about to append to its queue; then the entry is appended where the
result is 0, and the result written. (That LAUNCH judges queue, slot and translation at its attempt, and waits for another's append, is log entry 58; how a tail write meets a
descriptor that cannot be read is log entry 57, DEDUCED.) -/
def Obligations.WorkSubmission : Prop :=
  ∀ (s : State) (p : Nat) (x : Part), s.part? p = some x →
    (∀ q v ide, s.ev = .qtailWrite p q v ide → (s.takesHost p ide = false → exec .qtailWrite s = .next (s.emit (.hostError p))) ∧
      (s.takesHost p ide = true → x.fenced = true ∨ 4096 ≤ q → exec .qtailWrite s = .next s) ∧
      (∀ s1 d, s.takesHost p ide = true → x.fenced = false → q < 4096 →
        (s.updPart p fun x => x.setQueue q { x.queue q with known := true }).readQueue p q = (s1, some d) →
        (d.bad = false → d.en = true → d.own = false → (v.toNat + 2 ^ 32 - d.head) % 2 ^ 32 ≤ 2 ^ d.log2n →
          let s2 := s1.updPart p fun x => { x with qtails := Tab.set 0 x.qtails q v }
          exec .qtailWrite s = .next ((s2.lookQueue p q).1.postOnce 1 (.dispatch p))) ∧
        (d.bad = true ∨ d.en = false ∨ d.own = true ∨ 2 ^ d.log2n < (v.toNat + 2 ^ 32 - d.head) % 2 ^ 32 → exec .qtailWrite s = .next (s1.setQueueErr p q)))) ∧
    (∀ n v ide, s.ev = .launchSemaphoreWrite p n v ide → s.takesHost p ide = true → x.fenced = false → Tab.wf ⟨0, false, false⟩ x.lsems = true →
      ∃ t x', exec .launchSemaphoreWrite s = .next t ∧ t.part? p = some x' ∧
        let m := Tab.get ⟨0, false, false⟩ x.lsems (n % 256)
        Tab.get ⟨0, false, false⟩ x'.lsems (n % 256) = ⟨v.truncate 16, m.err && !v.getLsbD 16, m.ovf && !v.getLsbD 17⟩) ∧
    (∀ k n y (o : OpC3) s1 s2 s3 s4 l u ws res at', s.issues k n y → s.passes o.g .pk → s.partOf s.cur = p → let a := s.bun.old.getC o.a.toNat
      let q := s.bun.old.getC o.b.toNat
      a.p = false → a.v.toNat < 2 ^ 52 → a.v.toNat % 64 = 0 → s.translate s.cur a.v.toNat .read = (s1, .leaf l) → s1.releaseAll 63 4 = .ok s2 u →
      s2.homeWords (s2.access s2.cur l.ed a.v.toNat) 3 l.pa 16 = (s3, ws) → l.psn = false → (∀ w ∈ ws, w.p = false) →
      s3.launchResult p q = (s4, res, at') →
      let held := fun (t : State) (slot pa ed : Nat) => Host.Outcome.next (φ := Fault) (ρ := Refusal) ((t.updCtx t.cur n fun x => { x with
        hold := .launch o.d.toNat q (ws.map (·.w)) res slot pa ed (Guard.psn o.g .pk s.bun.old) }).postOpen 40 (.launchAppend t.cur n))
      (res ≠ 0 → exec (.launch o) s = held s4 0 0 0) ∧
      (res = 0 → s4.launchPending p q.v.toNat = true → exec (.launch o) s = .next s4.stall) ∧
      (∀ s5 pa ed, res = 0 → s4.launchPending p q.v.toNat = false → s4.launchSlot p at' = (s5, .inl (pa, ed)) → exec (.launch o) s = held s5 at' pa ed) ∧
      (∀ z, res ≠ 0 → s4.cur = s.cur → s4.ctx? s.cur n = some z → o.d ≠ 0 → Tab.wf RV.zero z.regs.c = true →
        ∃ t u y, exec (.launch o) s = .next t ∧ exec .launchAppend { t with ev := .launchAppend s.cur n } = .next u ∧ u.ctx? s.cur n = some y ∧ y.hold = .none ∧
          y.regs.getC o.d.toNat = ⟨BitVec.ofNat 64 res, q.p || Guard.psn o.g .pk s.bun.old⟩)) ∧
    (∀ c n y d q e r slot pa ed gp, s.ev = .launchAppend c n → s.ctx? c n = some y → y.hold = .launch d q e r slot pa ed gp → s.partOf c = p →
      let done := fun (s : State) => s.updCtx c n fun x => { x.putC s.cycle d ⟨BitVec.ofNat 64 r, q.p || gp⟩ 1 with hold := .none }
      (r ≠ 0 → exec .launchAppend s = .next (done s)) ∧
      (r = 0 →
        let s1 := (s.homeWrite (s.access c ed slot) 0 3 pa (e.map fun w => ((⟨w, gp⟩ : PWord), 15))).updPart p fun x =>
          { x.setQueue q.v.toNat { x.queue q.v.toNat with known := true } with
            qtails := Tab.set 0 x.qtails q.v.toNat (BitVec.ofNat 32 (x.qtail q.v.toNat + 1)) }
        exec .launchAppend s = .next ((done (s1.lookQueue p q.v.toNat).1).postOnce 1 (.dispatch p))))

/-- 02 R31 to R39, R45 to R47, R571: dispatch advances HEAD and judges the entry; the boundaries of the residency quantum follow one another, and at each of them queues grow older,
queues without work are unbound and slots change hands; an entry is placed where a rectangle is free, and its launch starts once its clusters have power; its tasks
start with ARG in x1; a launch of which nothing is left writes its record and is gone; a cluster that has been free for GATEDLY loses power.
(That a queue whose reads fault is as one without work, and that the image is read once, at its validation, and its shape judged again at placement, are log entries 57 and 58,
the model's choice.) -/
def Obligations.LaunchesRun : Prop :=
  ∀ (s : State) (p : Nat) (x : Part), s.part? p = some x →
    (s.ev = .dispatch p → (x.fenced = true ∨ x.selected.isSome = true → exec .dispatch s = .next s) ∧
      (∀ s1, x.fenced = false → x.selected = none → s.bestQueue p x.boundQ none = (s1, none) → exec .dispatch s = .next s1) ∧
      (∀ s1 s2 q d e, x.fenced = false → x.selected = none → s.bestQueue p x.boundQ none = (s1, some (q, d, e)) →
        s1.writePart p (x.qdesc q + 8) ⟨BitVec.ofNat 32 (d.head + 1), false⟩ = (s2, none) →
        let s3 := s2.updPart p fun y => { y.setQueue q { y.queue q with age := 0 } with dispatched := x.dispatched + 1 }
        exec .dispatch s = .next ((s3.judgeEntry p x.dispatched e).postOnce 1 (.dispatch p)))) ∧
    (s.ev = .residencyQuantumBoundary p →
      let quantum := max 1 (bitsOf x.schedcfg 0 5) * 500000
      let s0 := s.post (s.cyclesOf quantum) (.residencyQuantumBoundary p)
      (∃ t, exec .residencyQuantumBoundary s = .next t ∧ (s.cycle + s.cyclesOf quantum, Event.residencyQuantumBoundary p) ∈ t.agenda) ∧
      (x.fenced = true → exec .residencyQuantumBoundary s = .next s0) ∧
      (∀ s1 y s2 on z s3 w, x.fenced = false → s1 = (s0.forEach ((x.queues.filter fun kv => kv.2.known).map (·.1)) fun s q => s.ageQueue p q) →
        s1.part? p = some y → s1.withWork p y.boundQ = (s2, on) → s2.part? p = some z → s2.withWork p z.waitQ = (s3, w) →
        let unbound := s3.updPart p fun u => { (u.boundQ.filter fun q => !on.contains q).foldl Part.unbind u with waitQ := w }
        exec .residencyQuantumBoundary s = .next ((unbound.updPart p fun u => u.rotate unbound.ticks quantum).postOnce 1 (.dispatch p)))) ∧
    (∀ now quantum, x.boundQ.Nodup →
      let eligible := x.boundQ.filter fun q => decide ((x.queue q).since + quantum ≤ now)
      ∃ out, out.Nodup ∧ (∀ q ∈ out, q ∈ eligible) ∧ out.length = min (x.waitQ.length - (64 - x.boundQ.length)) eligible.length ∧
        (∀ q ∈ out, ∀ r ∈ eligible, r ∉ out → (x.queue q).since ≤ (x.queue r).since) ∧
        let stay := x.boundQ.filter fun q => !out.contains q
        (x.rotate now quantum).boundQ = stay ++ (x.waitQ ++ out).take (64 - stay.length) ∧
        (x.rotate now quantum).waitQ = (x.waitQ ++ out).drop (64 - stay.length)) ∧
    (s.ev = .launchPlacement p →
      let stands := fun (q : Launch) => q.part ≠ p ∨ q.started = true ∨ q.aborted = true
      ((∀ l q, s.launch? l = some q → stands q) → exec .launchPlacement s = .next (s.placeSelected p)) ∧
      (∀ l q, Tab.wf none s.launches = true → s.launch? l = some q → q.part = p → q.started = false → q.aborted = false →
        (∀ m r, s.launch? m = some r → m ≠ l → stands r) →
        (q.tstart ≤ s.ticks → exec .launchPlacement s = .next ((s.startLaunch l q).placeSelected p)) ∧
        (s.ticks < q.tstart → exec .launchPlacement s = .next ((s.postOnce (s.cyclesOf (q.tstart - s.ticks)) (.launchPlacement p)).placeSelected p)))) ∧
    (∀ e lseq i, x.selected = some (e, lseq, i) →
      (x.fenced = true → s.placeSelected p = (s.updPart p fun x => { x with selected := none }).completeUnrun p e 0x25) ∧
      (x.fenced = false → s.module.pt ≠ 4 → (s.module.opStep = true → s.module.opTo ≠ 4) →
        (s.origins p i.cw i.ch i.dieLocal = [] → s.placeSelected p = (s.updPart p fun x => { x with selected := none }).completeUnrun p e 0x23) ∧
        (s.origins p i.cw i.ch i.dieLocal ≠ [] → s.chooseOrigin p i.cw i.ch i.dieLocal = none → s.placeSelected p = s) ∧
        (∀ o, s.origins p i.cw i.ch i.dieLocal ≠ [] → s.chooseOrigin p i.cw i.ch i.dieLocal = some o →
          let q : Launch := ⟨p, e, o.1, o.2, i.cw, i.ch, lseq, s.ticks, [], false, false, false, none, i⟩
          let s2 := s.updPart p fun x => { x with selected := none }
          (∀ c need, s2.lackingCore q i = some (c, need) → s.placeSelected p =
            (s2.notice p 0x10 (BitVec.ofNat 64 (c + fieldAt 9 need + fieldAt 23 (s2.rowsOfCore c)))).completeUnrun p e 0x10) ∧
          (s2.lackingCore q i = none → ∃ t q', s.placeSelected p = t ∧ t.launch? s.nextLaunch = some q' ∧ { q' with tstart := q.tstart } = q ∧
            ∀ cl ∈ q.clusters, ∀ y, s.cluster? cl = some y → ∃ y', t.cluster? cl = some y' ∧ y'.launch = some s.nextLaunch ∧ y'.gated = false)))) ∧
    (∀ (k : Core) now l q i r tvec grids n, n < 4 → r.tasks.getD n 0 ≠ 0 → ∃ y, (k.start now l q i r tvec grids).ctx? n = some y ∧ y.st = .ready ∧
      y.regs.getX 1 = ⟨q.entry.arg, false⟩ ∧ (∀ m, m ≠ 1 → y.regs.getX m = ⟨0, false⟩) ∧ y.pc = BitVec.ofNat 52 (q.entry.limg.toNat + r.tasks.getD n 0) ∧
      y.sr.tvec = tvec ∧ y.sr.tmode = false) ∧
    (∀ l q, s.ev = .launchCompletion l → s.launch? l = some q → q.aborted = false → q.started = true → s.landed l = true →
      (∀ c k, c ∈ s.coresOf l → s.core? c = some k → k.quiet = true) →
      let s1 := s.forEach (s.coresOf l) State.flushStash
      let f := firstKill q.kills
      let status := match f with | some k => k.2.2.2 | none => if q.remote then 0x20 else 0
      let first := match f with | none => 0 | some k => k.2.1 + fieldAt 9 k.2.2.1
      let s2 := s1.complete q.part q.entry status q.kills.length first q.tstart
      let s3 := if q.preempt.isSome then s2.updPart q.part fun x => { x with prectlBusy := false } else s2
      exec .launchCompletion s = .next ((({ s3 with launches := Tab.set none s3.launches l none } : State).freeClusters q).wakeRings)) ∧
    (∀ cl y, s.ev = .clusterPowerGate cl → s.cluster? cl = some y → s.partOfCluster cl = some p → y.gated = false → y.launch = none → bitsOf x.schedcfg 5 8 ≠ 0 →
      y.freeSince + bitsOf x.schedcfg 5 8 * 10000 ≤ s.ticks → Tab.wf none s.cores = true →
      ∃ t y', exec .clusterPowerGate s = .next t ∧ t.cluster? cl = some y' ∧ y'.gated = true ∧ y'.tlb = [] ∧ ∀ i < 4, t.core? (coreAt cl i) = none)

/-! ## Operating points, reset, partitions, keys and the host -/

/-- 14 R319 to R326: a write of OPREQ by the host takes TGT; one with GO, and a GO by privileged code that no host write of the same cycle precedes, starts a step or is refused
with its reason; a module held in reset takes none; a step that ends takes its target, or is refused where a limit point lies below it; throttling changes how long a cycle lasts, and of
the contexts nothing but the base of their timers; a reset leaves the machine as bring-up leaves it, with a map of the lost rows that fails its checks told by BOOTERR.
(That a step is refused at its end with WHY 1, and the microsecond added there, are log entry 65, DEDUCED.) -/
def Obligations.PowerAndResetEvents : Prop :=
  ∀ (s : State),
    (∀ part v, s.ev = .opreqGo part v →
      (s.module.booterr ≠ 0 → exec .opreqGo s = .next s) ∧
      (s.module.booterr = 0 →
        let s1 := if part.isNone then { s with module := { s.module with opTgt := bitsOf v 0 3 } } else s
        let first := part.isSome && s.agenda.any fun a => decide (a.1 ≤ s.cycle) && Event.hostOpreq a.2
        let why := s1.opreqWhy part (bitsOf v 0 3)
        (v.getLsbD 3 = false → exec .opreqGo s = .next s1) ∧
        (v.getLsbD 3 = true → first = true → exec .opreqGo s = .next (s.post 0 (.opreqGo part v))) ∧
        (v.getLsbD 3 = true → first = false → why = 0 →
          ∃ t d, exec .opreqGo s = .next t ∧ t.module = { s1.module with opRej := false, opWhy := 0, opStep := true, opTo := bitsOf v 0 3 } ∧
            (d, Event.operatingPointStepEnd) ∈ t.agenda) ∧
        (v.getLsbD 3 = true → first = false → why ≠ 0 → exec .opreqGo s = .next { s1 with module := { s1.module with opRej := true, opWhy := why } }))) ∧
    (s.ev = .operatingPointStepEnd → s.module.opStep = true →
      (¬(s.module.pt < s.module.opTo ∧ s.limptBelow s.module.opTo = true) →
        ∃ t, exec .operatingPointStepEnd s = .next t ∧ t.module = { s.module with pt := s.module.opTo, opStep := false } ∧ t.time18 = s.time18 + 18000) ∧
      (s.module.pt < s.module.opTo → s.limptBelow s.module.opTo = true →
        ∃ t, exec .operatingPointStepEnd s = .next t ∧ t.module = { s.module with opStep := false, opRej := true, opWhy := 1 })) ∧
    (let calm := fun (t : State) => t.mem = s.mem ∧ t.free = s.free ∧ t.out = s.out ∧ ∀ c n x, s.ctx? c n = some x →
        ∃ x', t.ctx? c n = some x' ∧ { x' with timer := x.timer } = x;
      (s.ev = .thermalThrottle → ∃ t, exec .thermalThrottle s = .next t ∧ t.module = { s.module with throttled := true } ∧ t.rate = 2 * pointRate s.module.pt ∧ calm t) ∧
      (s.ev = .thermalRecovery → ∃ t, exec .thermalRecovery s = .next t ∧ t.module = { s.module with throttled := false } ∧ t.rate = pointRate s.module.pt ∧ calm t)) ∧
    (∀ f, Fuses.booterr f = 0 →
      (s.ev = .moduleReset f → exec .moduleReset s = .next { State.resetWith f with free := s.free, out := s.out }) ∧
      (s.ev = .thermalReset f → exec .thermalReset s = .next { State.resetWith f with free := s.free, out := s.out })) ∧
    (∀ f, Fuses.booterr f ≠ 0 → s.ev = .moduleReset f →
      ∃ t, exec .moduleReset s = .next t ∧ t.module.booterr = Fuses.booterr f ∧ t.out = s.out ++ [.booterr (Fuses.booterr f)])

/-- 13 R308 to R318: a map that breaks a rule is refused, one that changes a partition that has launches or is locked is refused, every other one takes effect; the Gradrir
core answers over PF0 and over the enabled link ports; sessions, key loads and clears; the host's writes and reads of the aperture, of QTAIL and of a launch semaphore, with
Unsupported Request and completer abort (that neither a read nor a doorbell passes the writes before it is the model's presumption, log entry 69); the states of TDISP.
(When a session or a key load succeeds is log
entry 67, DEDUCED, and which TDISP requests succeed log entry 68, PRESUMED; the codes of the answers are labels of the model, log entry 13, PRESUMED; what the checks of a
map judge, and which entries count as changed, is log entry 66, DEDUCED.) -/
def Obligations.ManagementRequests : Prop :=
  ∀ (s : State),
    (∀ m, s.ev = .reconfigurationRequest m →
      let changed := (List.range 8).filter fun p => PartMap.raw m p != PartMap.raw s.module.map p
      let still := fun (p : Nat) => s.launchesOf p = [] ∧ ∀ q, s.part? p = some q → q.tdist ≠ 1 ∧ q.tdist ≠ 2
      (s.module.booterr ≠ 0 ∨ PartMap.refused m s.module.fuses = true ∨ (∃ p ∈ changed, ¬still p) → exec .reconfigurationRequest s = .next (s.emit (.mgmt false))) ∧
      (s.module.booterr = 0 → PartMap.refused m s.module.fuses = false → (∀ p ∈ changed, still p) →
        exec .reconfigurationRequest s = .next ((s.reconfigure m changed).emit (.mgmt true)))) ∧
    (∀ (pt link : Option Nat), s.answers link = true → (∀ q, pt = some q → (s.part? q).isSome = true) →
      let reply := fun (code : Nat) (t : State) => ∃ b, t.out = s.out ++ [.spdm code link b] ∧ t.cores = s.cores ∧ t.mem = s.mem;
      (s.ev = .getDigests pt link → ∃ t, exec .getDigests s = .next t ∧ reply 0x81 t) ∧
      (s.ev = .getCertificate pt link → ∃ t, exec .getCertificate s = .next t ∧ reply 0x82 t ∧ t.free = s.free) ∧
      (∀ nonce, s.ev = .challenge pt link nonce → ∃ t, exec .challenge s = .next t ∧ reply 0x83 t) ∧
      (∀ ses i, s.ev = .getMeasurements pt link ses i →
        (∀ d, s.measurement pt ses i = some d → ∃ t, exec .getMeasurements s = .next t ∧ reply 0xE0 t ∧ t.free = s.free) ∧
        (1 ≤ i → i ≤ 3 → (s.measurement pt ses i).isSome = true) ∧ (i = 4 → pt.isSome = true → (s.measurement pt ses i).isSome = true) ∧
        (s.measurement pt ses i = none → exec .getMeasurements s = .next (s.emit (.mgmt false)))) ∧
      (∀ e, s.ev = .keyExchange pt link e → ∃ t, exec .keyExchange s = .next t ∧ reply 0xE4 t ∧ t.module.nextSession = s.module.nextSession + 1 ∧
        t.module.sessions = s.module.sessions ++ [⟨s.module.nextSession, pt, pt.map (PartMap.entry s.module.map), false, link, 0⟩])) ∧
    (∀ id v, s.ev = .finish id v → (∀ q ∈ s.module.sessions, q.id ≠ id) → exec .finish s = .next (s.emit (.mgmt false))) ∧
    (∀ id v q, s.ev = .finish id v → s.module.sessions.find? (fun q => q.id = id) = some q → Config.finishOk id v = false →
      ∃ t, exec .finish s = .next t ∧ ∀ z ∈ t.module.sessions, z.id ≠ id) ∧
    (∀ id v q, s.ev = .finish id v → s.module.sessions.find? (fun q => q.id = id) = some q → Config.finishOk id v = true →
      ∃ t, exec .finish s = .next t ∧ (∀ z ∈ t.module.sessions, z.id = id → z.live = true) ∧
        t.module.sessions.filter (fun z => z.id ≠ id) = s.module.sessions.filter (fun z => z.id ≠ id)) ∧
    (∀ id domain material digest p x q, s.ev = .keyload id domain material digest → s.keyTarget id domain = some (p, x, q) →
      (Tab.get none x.keys domain = none → x.fenced = false → q.entry = some x.entry → ∃ t x', exec .keyload s = .next t ∧ t.part? p = some x' ∧
        Tab.get none x'.keys domain = some ⟨2 * material.toNat + 1, material, digest⟩ ∧
        (digest ≠ 0 → ∀ z ∈ t.module.sessions, z.id = id → z.image = digest)) ∧
      (Tab.get none x.keys domain ≠ none ∨ x.fenced = true ∨ q.entry ≠ some x.entry → exec .keyload s = .next (s.emit (.mgmt false)))) ∧
    (∀ id domain p x q, s.ev = .keyclear id domain → s.keyTarget id domain = some (p, x, q) →
      exec .keyclear s = .next ((s.eraseDomain p domain).emit (.mgmt true)) ∧
      (Tab.wf none x.keys = true → ∃ x', (s.eraseDomain p domain).part? p = some x' ∧ Tab.get none x'.keys domain = none)) ∧
    (∀ p off data ide, s.ev = .hostWrite p (.aperture off) data ide →
      (s.takesHost p ide = false → exec .hostWrite s = .next (s.emit (.hostError p))) ∧
      (s.takesHost p ide = true → data ≠ [] → off.toNat % 256 + data.length ≤ 256 →
        (∀ s1 cause info, s.translateHome p off.toNat .write = (s1, .fault cause info) → exec .hostWrite s = .next ((s1.notice p cause info).emit (.hostError p))) ∧
        (∀ s1 l, s.translateHome p off.toNat .write = (s1, .leaf l) →
          exec .hostWrite s = .next (s1.sendHost p (hostPacket p off.toNat (off.toNat % 4) data l (s1.homeSlice l.pa) (s1.rangeAt p off.toNat)))))) ∧
    (∀ p off n ide, s.ev = .hostRead p (.aperture off) n ide →
      (s.takesHost p ide = false → exec .hostRead s = .next (s.emit (.hostData p .unsupported))) ∧
      (s.takesHost p ide = true → 0 < n → off.toNat % 256 + n ≤ 256 →
        (∀ s1 cause info, (s.landHostRows p).translateHome p off.toNat .read = (s1, .fault cause info) →
          exec .hostRead s = .next ((s1.notice p cause info).emit (.hostData p .unsupported))) ∧
        (∀ s1 s2 l v psn, (s.landHostRows p).translateHome p off.toNat .read = (s1, .leaf l) →
          s1.homeRead ⟨p, l.ed, none, s1.rangeAt p off.toNat⟩ l.pa n = (s2, v, psn) →
          exec .hostRead s = .next (s2.emit (.hostData p (if psn || l.psn then .abort else .data (bytesOf v n))))))) ∧
    (∀ p ide x, s.takesHost p ide = true → s.part? p = some x →
      (∀ q data, s.ev = .hostWrite p (.qtail q) data ide →
        exec .hostWrite s = .next ((s.landHostRows p).post 0 (.qtailWrite p q (BitVec.ofNat 32 (bytesNat data)) ide))) ∧
      (∀ i data, s.ev = .hostWrite p (.lsem i) data ide →
        exec .hostWrite s = .next ((s.landHostRows p).post 0 (.launchSemaphoreWrite p i (BitVec.ofNat 32 (bytesNat data)) ide))) ∧
      (∀ q n, s.ev = .hostRead p (.qtail q) n ide → exec .hostRead s = .next (s.emit (.hostData p (.data (bytesOf (x.qtail q) n))))) ∧
      (∀ i n, s.ev = .hostRead p (.lsem i) n ide → ∃ v, exec .hostRead s = .next (s.emit (.hostData p (.data (bytesOf v n)))) ∧
        v % 65536 = (Tab.get ⟨0, false, false⟩ x.lsems (i % 256)).val.toNat)) ∧
    (∀ p q, s.part? p = some q → (s.ev = .tdiError p → ∃ t q', exec .tdiError s = .next t ∧ t.part? p = some q' ∧ q'.tdist = 3) ∧
      (∀ st, s.ev = .tdispRequest p st → (st = 0 ∨ (st = 1 ∧ q.tdist = 0) ∨ (st = 2 ∧ q.tdist = 1) →
          ∃ t q', exec .tdispRequest s = .next t ∧ t.part? p = some q' ∧ q' = { q with tdist := st }) ∧
        (st ≠ 0 → ¬(st = 1 ∧ q.tdist = 0) → ¬(st = 2 ∧ q.tdist = 1) → exec .tdispRequest s = .next (s.emit (.mgmt false)))))

/-! ## Reset -/

/-- 14 R326, 09 R233, 10 R251, 02 R34, 12 Tables 2, 5 and 6, 08 Table 10: the machine after reset and bring-up: OP0, the time base at 0 and locked, no partition, every cluster
gated, every LIMPT 0, home memory zero; the reset values of a new partition's registers. (That the link ports are down and that the fuses are `Fuses.full` is the model's choice,
log entries 5 and 6.) -/
def Obligations.ResetLeavesTheMachineAsBringUpDoes : Prop :=
  (∀ f : Fuses, let s := State.resetWith f
    s.ticks = 0 ∧ s.module.pt = 0 ∧ s.module.opStep = false ∧ s.module.booterr = 0 ∧ s.module.locked = true ∧ s.parts = [] ∧ s.launches = [] ∧ s.agenda = [] ∧
    (∀ c, s.core? c = none) ∧ (∀ c < 128, ∃ x, s.cluster? c = some x ∧ x.gated = true ∧ x.launch = none) ∧
    (∀ n < 192, ∃ x, s.slice? n = some x ∧ x.limpt = 0 ∧ x.run = none ∧ x.waiting = [] ∧ x.lines = []) ∧
    (∀ r < 512, ∃ t, s.router? r = some t ∧ t.entries = [] ∧ t.flog = [] ∧ t.fq = [] ∧ t.limit = 50) ∧ ∀ a < 824633720832, s.homeByte a = 0) ∧
  (∀ e : MapEntry, let p := Part.fresh e
    p.entry = e ∧ p.ptbase = 0 ∧ p.qtbase = 0 ∧ p.ringbase = 0 ∧ p.ptvec = 0 ∧ bitsOf p.schedcfg 0 5 = 4 ∧ bitsOf p.wdcfg 0 16 = 250 ∧ bitsOf p.wdcfg 16 16 = 100 ∧
    p.notices = [])
end

