-- ==== Sys2Proof/Laws/State.lean ====
section
/-! SUPPORT. What the updates of the state leave as it is: one lemma per field and update. -/

namespace Sys2Proof.Machine

/-! ## State.setCore -/

@[simp] theorem State.setCore_cycle (s : State) (c : Nat) (k : Core) : (s.setCore c k).cycle = s.cycle := rfl
@[simp] theorem State.setCore_time18 (s : State) (c : Nat) (k : Core) : (s.setCore c k).time18 = s.time18 := rfl
@[simp] theorem State.setCore_cur (s : State) (c : Nat) (k : Core) : (s.setCore c k).cur = s.cur := rfl
@[simp] theorem State.setCore_bun (s : State) (c : Nat) (k : Core) : (s.setCore c k).bun = s.bun := rfl
@[simp] theorem State.setCore_agenda (s : State) (c : Nat) (k : Core) : (s.setCore c k).agenda = s.agenda := rfl
@[simp] theorem State.setCore_ev (s : State) (c : Nat) (k : Core) : (s.setCore c k).ev = s.ev := rfl
@[simp] theorem State.setCore_free (s : State) (c : Nat) (k : Core) : (s.setCore c k).free = s.free := rfl
@[simp] theorem State.setCore_module (s : State) (c : Nat) (k : Core) : (s.setCore c k).module = s.module := rfl
@[simp] theorem State.setCore_parts (s : State) (c : Nat) (k : Core) : (s.setCore c k).parts = s.parts := rfl
@[simp] theorem State.setCore_clusters (s : State) (c : Nat) (k : Core) : (s.setCore c k).clusters = s.clusters := rfl
@[simp] theorem State.setCore_routers (s : State) (c : Nat) (k : Core) : (s.setCore c k).routers = s.routers := rfl
@[simp] theorem State.setCore_slices (s : State) (c : Nat) (k : Core) : (s.setCore c k).slices = s.slices := rfl
@[simp] theorem State.setCore_ports (s : State) (c : Nat) (k : Core) : (s.setCore c k).ports = s.ports := rfl
@[simp] theorem State.setCore_launches (s : State) (c : Nat) (k : Core) : (s.setCore c k).launches = s.launches := rfl
@[simp] theorem State.setCore_nextLaunch (s : State) (c : Nat) (k : Core) : (s.setCore c k).nextLaunch = s.nextLaunch := rfl
@[simp] theorem State.setCore_rows (s : State) (c : Nat) (k : Core) : (s.setCore c k).rows = s.rows := rfl
@[simp] theorem State.setCore_nextRow (s : State) (c : Nat) (k : Core) : (s.setCore c k).nextRow = s.nextRow := rfl
@[simp] theorem State.setCore_mem (s : State) (c : Nat) (k : Core) : (s.setCore c k).mem = s.mem := rfl
@[simp] theorem State.setCore_memPsn (s : State) (c : Nat) (k : Core) : (s.setCore c k).memPsn = s.memPsn := rfl
@[simp] theorem State.setCore_owner (s : State) (c : Nat) (k : Core) : (s.setCore c k).owner = s.owner := rfl
@[simp] theorem State.setCore_sealed (s : State) (c : Nat) (k : Core) : (s.setCore c k).sealed = s.sealed := rfl
@[simp] theorem State.setCore_regionKey (s : State) (c : Nat) (k : Core) : (s.setCore c k).regionKey = s.regionKey := rfl
@[simp] theorem State.setCore_errs (s : State) (c : Nat) (k : Core) : (s.setCore c k).errs = s.errs := rfl
@[simp] theorem State.setCore_out (s : State) (c : Nat) (k : Core) : (s.setCore c k).out = s.out := rfl

/-! ## State.updCore -/

@[simp] theorem State.updCore_cycle (s : State) (c : Nat) (f : Core → Core) : (s.updCore c f).cycle = s.cycle := by unfold State.updCore; split <;> rfl
@[simp] theorem State.updCore_time18 (s : State) (c : Nat) (f : Core → Core) : (s.updCore c f).time18 = s.time18 := by unfold State.updCore; split <;> rfl
@[simp] theorem State.updCore_cur (s : State) (c : Nat) (f : Core → Core) : (s.updCore c f).cur = s.cur := by unfold State.updCore; split <;> rfl
@[simp] theorem State.updCore_bun (s : State) (c : Nat) (f : Core → Core) : (s.updCore c f).bun = s.bun := by unfold State.updCore; split <;> rfl
@[simp] theorem State.updCore_agenda (s : State) (c : Nat) (f : Core → Core) : (s.updCore c f).agenda = s.agenda := by unfold State.updCore; split <;> rfl
@[simp] theorem State.updCore_ev (s : State) (c : Nat) (f : Core → Core) : (s.updCore c f).ev = s.ev := by unfold State.updCore; split <;> rfl
@[simp] theorem State.updCore_free (s : State) (c : Nat) (f : Core → Core) : (s.updCore c f).free = s.free := by unfold State.updCore; split <;> rfl
@[simp] theorem State.updCore_module (s : State) (c : Nat) (f : Core → Core) : (s.updCore c f).module = s.module := by unfold State.updCore; split <;> rfl
@[simp] theorem State.updCore_parts (s : State) (c : Nat) (f : Core → Core) : (s.updCore c f).parts = s.parts := by unfold State.updCore; split <;> rfl
@[simp] theorem State.updCore_clusters (s : State) (c : Nat) (f : Core → Core) : (s.updCore c f).clusters = s.clusters := by unfold State.updCore; split <;> rfl
@[simp] theorem State.updCore_routers (s : State) (c : Nat) (f : Core → Core) : (s.updCore c f).routers = s.routers := by unfold State.updCore; split <;> rfl
@[simp] theorem State.updCore_slices (s : State) (c : Nat) (f : Core → Core) : (s.updCore c f).slices = s.slices := by unfold State.updCore; split <;> rfl
@[simp] theorem State.updCore_ports (s : State) (c : Nat) (f : Core → Core) : (s.updCore c f).ports = s.ports := by unfold State.updCore; split <;> rfl
@[simp] theorem State.updCore_launches (s : State) (c : Nat) (f : Core → Core) : (s.updCore c f).launches = s.launches := by unfold State.updCore; split <;> rfl
@[simp] theorem State.updCore_nextLaunch (s : State) (c : Nat) (f : Core → Core) : (s.updCore c f).nextLaunch = s.nextLaunch := by unfold State.updCore; split <;> rfl
@[simp] theorem State.updCore_rows (s : State) (c : Nat) (f : Core → Core) : (s.updCore c f).rows = s.rows := by unfold State.updCore; split <;> rfl
@[simp] theorem State.updCore_nextRow (s : State) (c : Nat) (f : Core → Core) : (s.updCore c f).nextRow = s.nextRow := by unfold State.updCore; split <;> rfl
@[simp] theorem State.updCore_mem (s : State) (c : Nat) (f : Core → Core) : (s.updCore c f).mem = s.mem := by unfold State.updCore; split <;> rfl
@[simp] theorem State.updCore_memPsn (s : State) (c : Nat) (f : Core → Core) : (s.updCore c f).memPsn = s.memPsn := by unfold State.updCore; split <;> rfl
@[simp] theorem State.updCore_owner (s : State) (c : Nat) (f : Core → Core) : (s.updCore c f).owner = s.owner := by unfold State.updCore; split <;> rfl
@[simp] theorem State.updCore_sealed (s : State) (c : Nat) (f : Core → Core) : (s.updCore c f).sealed = s.sealed := by unfold State.updCore; split <;> rfl
@[simp] theorem State.updCore_regionKey (s : State) (c : Nat) (f : Core → Core) : (s.updCore c f).regionKey = s.regionKey := by unfold State.updCore; split <;> rfl
@[simp] theorem State.updCore_errs (s : State) (c : Nat) (f : Core → Core) : (s.updCore c f).errs = s.errs := by unfold State.updCore; split <;> rfl
@[simp] theorem State.updCore_out (s : State) (c : Nat) (f : Core → Core) : (s.updCore c f).out = s.out := by unfold State.updCore; split <;> rfl

/-! ## State.updCtx -/

@[simp] theorem State.updCtx_cycle (s : State) (c n : Nat) (f : Ctx → Ctx) : (s.updCtx c n f).cycle = s.cycle := State.updCore_cycle ..
@[simp] theorem State.updCtx_time18 (s : State) (c n : Nat) (f : Ctx → Ctx) : (s.updCtx c n f).time18 = s.time18 := State.updCore_time18 ..
@[simp] theorem State.updCtx_cur (s : State) (c n : Nat) (f : Ctx → Ctx) : (s.updCtx c n f).cur = s.cur := State.updCore_cur ..
@[simp] theorem State.updCtx_bun (s : State) (c n : Nat) (f : Ctx → Ctx) : (s.updCtx c n f).bun = s.bun := State.updCore_bun ..
@[simp] theorem State.updCtx_agenda (s : State) (c n : Nat) (f : Ctx → Ctx) : (s.updCtx c n f).agenda = s.agenda := State.updCore_agenda ..
@[simp] theorem State.updCtx_ev (s : State) (c n : Nat) (f : Ctx → Ctx) : (s.updCtx c n f).ev = s.ev := State.updCore_ev ..
@[simp] theorem State.updCtx_free (s : State) (c n : Nat) (f : Ctx → Ctx) : (s.updCtx c n f).free = s.free := State.updCore_free ..
@[simp] theorem State.updCtx_module (s : State) (c n : Nat) (f : Ctx → Ctx) : (s.updCtx c n f).module = s.module := State.updCore_module ..
@[simp] theorem State.updCtx_parts (s : State) (c n : Nat) (f : Ctx → Ctx) : (s.updCtx c n f).parts = s.parts := State.updCore_parts ..
@[simp] theorem State.updCtx_clusters (s : State) (c n : Nat) (f : Ctx → Ctx) : (s.updCtx c n f).clusters = s.clusters := State.updCore_clusters ..
@[simp] theorem State.updCtx_routers (s : State) (c n : Nat) (f : Ctx → Ctx) : (s.updCtx c n f).routers = s.routers := State.updCore_routers ..
@[simp] theorem State.updCtx_slices (s : State) (c n : Nat) (f : Ctx → Ctx) : (s.updCtx c n f).slices = s.slices := State.updCore_slices ..
@[simp] theorem State.updCtx_ports (s : State) (c n : Nat) (f : Ctx → Ctx) : (s.updCtx c n f).ports = s.ports := State.updCore_ports ..
@[simp] theorem State.updCtx_launches (s : State) (c n : Nat) (f : Ctx → Ctx) : (s.updCtx c n f).launches = s.launches := State.updCore_launches ..
@[simp] theorem State.updCtx_nextLaunch (s : State) (c n : Nat) (f : Ctx → Ctx) : (s.updCtx c n f).nextLaunch = s.nextLaunch := State.updCore_nextLaunch ..
@[simp] theorem State.updCtx_rows (s : State) (c n : Nat) (f : Ctx → Ctx) : (s.updCtx c n f).rows = s.rows := State.updCore_rows ..
@[simp] theorem State.updCtx_nextRow (s : State) (c n : Nat) (f : Ctx → Ctx) : (s.updCtx c n f).nextRow = s.nextRow := State.updCore_nextRow ..
@[simp] theorem State.updCtx_mem (s : State) (c n : Nat) (f : Ctx → Ctx) : (s.updCtx c n f).mem = s.mem := State.updCore_mem ..
@[simp] theorem State.updCtx_memPsn (s : State) (c n : Nat) (f : Ctx → Ctx) : (s.updCtx c n f).memPsn = s.memPsn := State.updCore_memPsn ..
@[simp] theorem State.updCtx_owner (s : State) (c n : Nat) (f : Ctx → Ctx) : (s.updCtx c n f).owner = s.owner := State.updCore_owner ..
@[simp] theorem State.updCtx_sealed (s : State) (c n : Nat) (f : Ctx → Ctx) : (s.updCtx c n f).sealed = s.sealed := State.updCore_sealed ..
@[simp] theorem State.updCtx_regionKey (s : State) (c n : Nat) (f : Ctx → Ctx) : (s.updCtx c n f).regionKey = s.regionKey := State.updCore_regionKey ..
@[simp] theorem State.updCtx_errs (s : State) (c n : Nat) (f : Ctx → Ctx) : (s.updCtx c n f).errs = s.errs := State.updCore_errs ..
@[simp] theorem State.updCtx_out (s : State) (c n : Nat) (f : Ctx → Ctx) : (s.updCtx c n f).out = s.out := State.updCore_out ..

/-! ## State.updPart -/

@[simp] theorem State.updPart_cycle (s : State) (p : Nat) (f : Part → Part) : (s.updPart p f).cycle = s.cycle := by unfold State.updPart; split <;> rfl
@[simp] theorem State.updPart_time18 (s : State) (p : Nat) (f : Part → Part) : (s.updPart p f).time18 = s.time18 := by unfold State.updPart; split <;> rfl
@[simp] theorem State.updPart_cur (s : State) (p : Nat) (f : Part → Part) : (s.updPart p f).cur = s.cur := by unfold State.updPart; split <;> rfl
@[simp] theorem State.updPart_bun (s : State) (p : Nat) (f : Part → Part) : (s.updPart p f).bun = s.bun := by unfold State.updPart; split <;> rfl
@[simp] theorem State.updPart_agenda (s : State) (p : Nat) (f : Part → Part) : (s.updPart p f).agenda = s.agenda := by unfold State.updPart; split <;> rfl
@[simp] theorem State.updPart_ev (s : State) (p : Nat) (f : Part → Part) : (s.updPart p f).ev = s.ev := by unfold State.updPart; split <;> rfl
@[simp] theorem State.updPart_free (s : State) (p : Nat) (f : Part → Part) : (s.updPart p f).free = s.free := by unfold State.updPart; split <;> rfl
@[simp] theorem State.updPart_module (s : State) (p : Nat) (f : Part → Part) : (s.updPart p f).module = s.module := by unfold State.updPart; split <;> rfl
@[simp] theorem State.updPart_cores (s : State) (p : Nat) (f : Part → Part) : (s.updPart p f).cores = s.cores := by unfold State.updPart; split <;> rfl
@[simp] theorem State.updPart_clusters (s : State) (p : Nat) (f : Part → Part) : (s.updPart p f).clusters = s.clusters := by unfold State.updPart; split <;> rfl
@[simp] theorem State.updPart_routers (s : State) (p : Nat) (f : Part → Part) : (s.updPart p f).routers = s.routers := by unfold State.updPart; split <;> rfl
@[simp] theorem State.updPart_slices (s : State) (p : Nat) (f : Part → Part) : (s.updPart p f).slices = s.slices := by unfold State.updPart; split <;> rfl
@[simp] theorem State.updPart_ports (s : State) (p : Nat) (f : Part → Part) : (s.updPart p f).ports = s.ports := by unfold State.updPart; split <;> rfl
@[simp] theorem State.updPart_launches (s : State) (p : Nat) (f : Part → Part) : (s.updPart p f).launches = s.launches := by unfold State.updPart; split <;> rfl
@[simp] theorem State.updPart_nextLaunch (s : State) (p : Nat) (f : Part → Part) : (s.updPart p f).nextLaunch = s.nextLaunch := by unfold State.updPart; split <;> rfl
@[simp] theorem State.updPart_rows (s : State) (p : Nat) (f : Part → Part) : (s.updPart p f).rows = s.rows := by unfold State.updPart; split <;> rfl
@[simp] theorem State.updPart_nextRow (s : State) (p : Nat) (f : Part → Part) : (s.updPart p f).nextRow = s.nextRow := by unfold State.updPart; split <;> rfl
@[simp] theorem State.updPart_mem (s : State) (p : Nat) (f : Part → Part) : (s.updPart p f).mem = s.mem := by unfold State.updPart; split <;> rfl
@[simp] theorem State.updPart_memPsn (s : State) (p : Nat) (f : Part → Part) : (s.updPart p f).memPsn = s.memPsn := by unfold State.updPart; split <;> rfl
@[simp] theorem State.updPart_owner (s : State) (p : Nat) (f : Part → Part) : (s.updPart p f).owner = s.owner := by unfold State.updPart; split <;> rfl
@[simp] theorem State.updPart_sealed (s : State) (p : Nat) (f : Part → Part) : (s.updPart p f).sealed = s.sealed := by unfold State.updPart; split <;> rfl
@[simp] theorem State.updPart_regionKey (s : State) (p : Nat) (f : Part → Part) : (s.updPart p f).regionKey = s.regionKey := by unfold State.updPart; split <;> rfl
@[simp] theorem State.updPart_errs (s : State) (p : Nat) (f : Part → Part) : (s.updPart p f).errs = s.errs := by unfold State.updPart; split <;> rfl
@[simp] theorem State.updPart_out (s : State) (p : Nat) (f : Part → Part) : (s.updPart p f).out = s.out := by unfold State.updPart; split <;> rfl

/-! ## State.updLaunch -/

@[simp] theorem State.updLaunch_cycle (s : State) (l : Nat) (f : Launch → Launch) : (s.updLaunch l f).cycle = s.cycle := by unfold State.updLaunch; split <;> rfl
@[simp] theorem State.updLaunch_time18 (s : State) (l : Nat) (f : Launch → Launch) : (s.updLaunch l f).time18 = s.time18 := by unfold State.updLaunch; split <;> rfl
@[simp] theorem State.updLaunch_cur (s : State) (l : Nat) (f : Launch → Launch) : (s.updLaunch l f).cur = s.cur := by unfold State.updLaunch; split <;> rfl
@[simp] theorem State.updLaunch_bun (s : State) (l : Nat) (f : Launch → Launch) : (s.updLaunch l f).bun = s.bun := by unfold State.updLaunch; split <;> rfl
@[simp] theorem State.updLaunch_agenda (s : State) (l : Nat) (f : Launch → Launch) : (s.updLaunch l f).agenda = s.agenda := by unfold State.updLaunch; split <;> rfl
@[simp] theorem State.updLaunch_ev (s : State) (l : Nat) (f : Launch → Launch) : (s.updLaunch l f).ev = s.ev := by unfold State.updLaunch; split <;> rfl
@[simp] theorem State.updLaunch_free (s : State) (l : Nat) (f : Launch → Launch) : (s.updLaunch l f).free = s.free := by unfold State.updLaunch; split <;> rfl
@[simp] theorem State.updLaunch_module (s : State) (l : Nat) (f : Launch → Launch) : (s.updLaunch l f).module = s.module := by unfold State.updLaunch; split <;> rfl
@[simp] theorem State.updLaunch_parts (s : State) (l : Nat) (f : Launch → Launch) : (s.updLaunch l f).parts = s.parts := by unfold State.updLaunch; split <;> rfl
@[simp] theorem State.updLaunch_cores (s : State) (l : Nat) (f : Launch → Launch) : (s.updLaunch l f).cores = s.cores := by unfold State.updLaunch; split <;> rfl
@[simp] theorem State.updLaunch_clusters (s : State) (l : Nat) (f : Launch → Launch) : (s.updLaunch l f).clusters = s.clusters := by unfold State.updLaunch; split <;> rfl
@[simp] theorem State.updLaunch_routers (s : State) (l : Nat) (f : Launch → Launch) : (s.updLaunch l f).routers = s.routers := by unfold State.updLaunch; split <;> rfl
@[simp] theorem State.updLaunch_slices (s : State) (l : Nat) (f : Launch → Launch) : (s.updLaunch l f).slices = s.slices := by unfold State.updLaunch; split <;> rfl
@[simp] theorem State.updLaunch_ports (s : State) (l : Nat) (f : Launch → Launch) : (s.updLaunch l f).ports = s.ports := by unfold State.updLaunch; split <;> rfl
@[simp] theorem State.updLaunch_nextLaunch (s : State) (l : Nat) (f : Launch → Launch) : (s.updLaunch l f).nextLaunch = s.nextLaunch := by unfold State.updLaunch; split <;> rfl
@[simp] theorem State.updLaunch_rows (s : State) (l : Nat) (f : Launch → Launch) : (s.updLaunch l f).rows = s.rows := by unfold State.updLaunch; split <;> rfl
@[simp] theorem State.updLaunch_nextRow (s : State) (l : Nat) (f : Launch → Launch) : (s.updLaunch l f).nextRow = s.nextRow := by unfold State.updLaunch; split <;> rfl
@[simp] theorem State.updLaunch_mem (s : State) (l : Nat) (f : Launch → Launch) : (s.updLaunch l f).mem = s.mem := by unfold State.updLaunch; split <;> rfl
@[simp] theorem State.updLaunch_memPsn (s : State) (l : Nat) (f : Launch → Launch) : (s.updLaunch l f).memPsn = s.memPsn := by unfold State.updLaunch; split <;> rfl
@[simp] theorem State.updLaunch_owner (s : State) (l : Nat) (f : Launch → Launch) : (s.updLaunch l f).owner = s.owner := by unfold State.updLaunch; split <;> rfl
@[simp] theorem State.updLaunch_sealed (s : State) (l : Nat) (f : Launch → Launch) : (s.updLaunch l f).sealed = s.sealed := by unfold State.updLaunch; split <;> rfl
@[simp] theorem State.updLaunch_regionKey (s : State) (l : Nat) (f : Launch → Launch) : (s.updLaunch l f).regionKey = s.regionKey := by unfold State.updLaunch; split <;> rfl
@[simp] theorem State.updLaunch_errs (s : State) (l : Nat) (f : Launch → Launch) : (s.updLaunch l f).errs = s.errs := by unfold State.updLaunch; split <;> rfl
@[simp] theorem State.updLaunch_out (s : State) (l : Nat) (f : Launch → Launch) : (s.updLaunch l f).out = s.out := by unfold State.updLaunch; split <;> rfl

/-! ## State.updCluster -/

@[simp] theorem State.updCluster_cycle (s : State) (c : Nat) (f : Cluster → Cluster) : (s.updCluster c f).cycle = s.cycle := by unfold State.updCluster; split <;> rfl
@[simp] theorem State.updCluster_time18 (s : State) (c : Nat) (f : Cluster → Cluster) : (s.updCluster c f).time18 = s.time18 := by unfold State.updCluster; split <;> rfl
@[simp] theorem State.updCluster_cur (s : State) (c : Nat) (f : Cluster → Cluster) : (s.updCluster c f).cur = s.cur := by unfold State.updCluster; split <;> rfl
@[simp] theorem State.updCluster_bun (s : State) (c : Nat) (f : Cluster → Cluster) : (s.updCluster c f).bun = s.bun := by unfold State.updCluster; split <;> rfl
@[simp] theorem State.updCluster_agenda (s : State) (c : Nat) (f : Cluster → Cluster) : (s.updCluster c f).agenda = s.agenda := by unfold State.updCluster; split <;> rfl
@[simp] theorem State.updCluster_ev (s : State) (c : Nat) (f : Cluster → Cluster) : (s.updCluster c f).ev = s.ev := by unfold State.updCluster; split <;> rfl
@[simp] theorem State.updCluster_free (s : State) (c : Nat) (f : Cluster → Cluster) : (s.updCluster c f).free = s.free := by unfold State.updCluster; split <;> rfl
@[simp] theorem State.updCluster_module (s : State) (c : Nat) (f : Cluster → Cluster) : (s.updCluster c f).module = s.module := by unfold State.updCluster; split <;> rfl
@[simp] theorem State.updCluster_parts (s : State) (c : Nat) (f : Cluster → Cluster) : (s.updCluster c f).parts = s.parts := by unfold State.updCluster; split <;> rfl
@[simp] theorem State.updCluster_cores (s : State) (c : Nat) (f : Cluster → Cluster) : (s.updCluster c f).cores = s.cores := by unfold State.updCluster; split <;> rfl
@[simp] theorem State.updCluster_routers (s : State) (c : Nat) (f : Cluster → Cluster) : (s.updCluster c f).routers = s.routers := by unfold State.updCluster; split <;> rfl
@[simp] theorem State.updCluster_slices (s : State) (c : Nat) (f : Cluster → Cluster) : (s.updCluster c f).slices = s.slices := by unfold State.updCluster; split <;> rfl
@[simp] theorem State.updCluster_ports (s : State) (c : Nat) (f : Cluster → Cluster) : (s.updCluster c f).ports = s.ports := by unfold State.updCluster; split <;> rfl
@[simp] theorem State.updCluster_launches (s : State) (c : Nat) (f : Cluster → Cluster) : (s.updCluster c f).launches = s.launches := by unfold State.updCluster; split <;> rfl
@[simp] theorem State.updCluster_nextLaunch (s : State) (c : Nat) (f : Cluster → Cluster) : (s.updCluster c f).nextLaunch = s.nextLaunch := by unfold State.updCluster; split <;> rfl
@[simp] theorem State.updCluster_rows (s : State) (c : Nat) (f : Cluster → Cluster) : (s.updCluster c f).rows = s.rows := by unfold State.updCluster; split <;> rfl
@[simp] theorem State.updCluster_nextRow (s : State) (c : Nat) (f : Cluster → Cluster) : (s.updCluster c f).nextRow = s.nextRow := by unfold State.updCluster; split <;> rfl
@[simp] theorem State.updCluster_mem (s : State) (c : Nat) (f : Cluster → Cluster) : (s.updCluster c f).mem = s.mem := by unfold State.updCluster; split <;> rfl
@[simp] theorem State.updCluster_memPsn (s : State) (c : Nat) (f : Cluster → Cluster) : (s.updCluster c f).memPsn = s.memPsn := by unfold State.updCluster; split <;> rfl
@[simp] theorem State.updCluster_owner (s : State) (c : Nat) (f : Cluster → Cluster) : (s.updCluster c f).owner = s.owner := by unfold State.updCluster; split <;> rfl
@[simp] theorem State.updCluster_sealed (s : State) (c : Nat) (f : Cluster → Cluster) : (s.updCluster c f).sealed = s.sealed := by unfold State.updCluster; split <;> rfl
@[simp] theorem State.updCluster_regionKey (s : State) (c : Nat) (f : Cluster → Cluster) : (s.updCluster c f).regionKey = s.regionKey := by unfold State.updCluster; split <;> rfl
@[simp] theorem State.updCluster_errs (s : State) (c : Nat) (f : Cluster → Cluster) : (s.updCluster c f).errs = s.errs := by unfold State.updCluster; split <;> rfl
@[simp] theorem State.updCluster_out (s : State) (c : Nat) (f : Cluster → Cluster) : (s.updCluster c f).out = s.out := by unfold State.updCluster; split <;> rfl

/-! ## State.updRouter -/

@[simp] theorem State.updRouter_cycle (s : State) (r : Nat) (f : Router → Router) : (s.updRouter r f).cycle = s.cycle := by unfold State.updRouter; split <;> rfl
@[simp] theorem State.updRouter_time18 (s : State) (r : Nat) (f : Router → Router) : (s.updRouter r f).time18 = s.time18 := by unfold State.updRouter; split <;> rfl
@[simp] theorem State.updRouter_cur (s : State) (r : Nat) (f : Router → Router) : (s.updRouter r f).cur = s.cur := by unfold State.updRouter; split <;> rfl
@[simp] theorem State.updRouter_bun (s : State) (r : Nat) (f : Router → Router) : (s.updRouter r f).bun = s.bun := by unfold State.updRouter; split <;> rfl
@[simp] theorem State.updRouter_agenda (s : State) (r : Nat) (f : Router → Router) : (s.updRouter r f).agenda = s.agenda := by unfold State.updRouter; split <;> rfl
@[simp] theorem State.updRouter_ev (s : State) (r : Nat) (f : Router → Router) : (s.updRouter r f).ev = s.ev := by unfold State.updRouter; split <;> rfl
@[simp] theorem State.updRouter_free (s : State) (r : Nat) (f : Router → Router) : (s.updRouter r f).free = s.free := by unfold State.updRouter; split <;> rfl
@[simp] theorem State.updRouter_module (s : State) (r : Nat) (f : Router → Router) : (s.updRouter r f).module = s.module := by unfold State.updRouter; split <;> rfl
@[simp] theorem State.updRouter_parts (s : State) (r : Nat) (f : Router → Router) : (s.updRouter r f).parts = s.parts := by unfold State.updRouter; split <;> rfl
@[simp] theorem State.updRouter_cores (s : State) (r : Nat) (f : Router → Router) : (s.updRouter r f).cores = s.cores := by unfold State.updRouter; split <;> rfl
@[simp] theorem State.updRouter_clusters (s : State) (r : Nat) (f : Router → Router) : (s.updRouter r f).clusters = s.clusters := by unfold State.updRouter; split <;> rfl
@[simp] theorem State.updRouter_slices (s : State) (r : Nat) (f : Router → Router) : (s.updRouter r f).slices = s.slices := by unfold State.updRouter; split <;> rfl
@[simp] theorem State.updRouter_ports (s : State) (r : Nat) (f : Router → Router) : (s.updRouter r f).ports = s.ports := by unfold State.updRouter; split <;> rfl
@[simp] theorem State.updRouter_launches (s : State) (r : Nat) (f : Router → Router) : (s.updRouter r f).launches = s.launches := by unfold State.updRouter; split <;> rfl
@[simp] theorem State.updRouter_nextLaunch (s : State) (r : Nat) (f : Router → Router) : (s.updRouter r f).nextLaunch = s.nextLaunch := by unfold State.updRouter; split <;> rfl
@[simp] theorem State.updRouter_rows (s : State) (r : Nat) (f : Router → Router) : (s.updRouter r f).rows = s.rows := by unfold State.updRouter; split <;> rfl
@[simp] theorem State.updRouter_nextRow (s : State) (r : Nat) (f : Router → Router) : (s.updRouter r f).nextRow = s.nextRow := by unfold State.updRouter; split <;> rfl
@[simp] theorem State.updRouter_mem (s : State) (r : Nat) (f : Router → Router) : (s.updRouter r f).mem = s.mem := by unfold State.updRouter; split <;> rfl
@[simp] theorem State.updRouter_memPsn (s : State) (r : Nat) (f : Router → Router) : (s.updRouter r f).memPsn = s.memPsn := by unfold State.updRouter; split <;> rfl
@[simp] theorem State.updRouter_owner (s : State) (r : Nat) (f : Router → Router) : (s.updRouter r f).owner = s.owner := by unfold State.updRouter; split <;> rfl
@[simp] theorem State.updRouter_sealed (s : State) (r : Nat) (f : Router → Router) : (s.updRouter r f).sealed = s.sealed := by unfold State.updRouter; split <;> rfl
@[simp] theorem State.updRouter_regionKey (s : State) (r : Nat) (f : Router → Router) : (s.updRouter r f).regionKey = s.regionKey := by unfold State.updRouter; split <;> rfl
@[simp] theorem State.updRouter_errs (s : State) (r : Nat) (f : Router → Router) : (s.updRouter r f).errs = s.errs := by unfold State.updRouter; split <;> rfl
@[simp] theorem State.updRouter_out (s : State) (r : Nat) (f : Router → Router) : (s.updRouter r f).out = s.out := by unfold State.updRouter; split <;> rfl

/-! ## State.updSlice -/

@[simp] theorem State.updSlice_cycle (s : State) (r : Nat) (f : Slice → Slice) : (s.updSlice r f).cycle = s.cycle := by unfold State.updSlice; split <;> rfl
@[simp] theorem State.updSlice_time18 (s : State) (r : Nat) (f : Slice → Slice) : (s.updSlice r f).time18 = s.time18 := by unfold State.updSlice; split <;> rfl
@[simp] theorem State.updSlice_cur (s : State) (r : Nat) (f : Slice → Slice) : (s.updSlice r f).cur = s.cur := by unfold State.updSlice; split <;> rfl
@[simp] theorem State.updSlice_bun (s : State) (r : Nat) (f : Slice → Slice) : (s.updSlice r f).bun = s.bun := by unfold State.updSlice; split <;> rfl
@[simp] theorem State.updSlice_agenda (s : State) (r : Nat) (f : Slice → Slice) : (s.updSlice r f).agenda = s.agenda := by unfold State.updSlice; split <;> rfl
@[simp] theorem State.updSlice_ev (s : State) (r : Nat) (f : Slice → Slice) : (s.updSlice r f).ev = s.ev := by unfold State.updSlice; split <;> rfl
@[simp] theorem State.updSlice_free (s : State) (r : Nat) (f : Slice → Slice) : (s.updSlice r f).free = s.free := by unfold State.updSlice; split <;> rfl
@[simp] theorem State.updSlice_module (s : State) (r : Nat) (f : Slice → Slice) : (s.updSlice r f).module = s.module := by unfold State.updSlice; split <;> rfl
@[simp] theorem State.updSlice_parts (s : State) (r : Nat) (f : Slice → Slice) : (s.updSlice r f).parts = s.parts := by unfold State.updSlice; split <;> rfl
@[simp] theorem State.updSlice_cores (s : State) (r : Nat) (f : Slice → Slice) : (s.updSlice r f).cores = s.cores := by unfold State.updSlice; split <;> rfl
@[simp] theorem State.updSlice_clusters (s : State) (r : Nat) (f : Slice → Slice) : (s.updSlice r f).clusters = s.clusters := by unfold State.updSlice; split <;> rfl
@[simp] theorem State.updSlice_routers (s : State) (r : Nat) (f : Slice → Slice) : (s.updSlice r f).routers = s.routers := by unfold State.updSlice; split <;> rfl
@[simp] theorem State.updSlice_ports (s : State) (r : Nat) (f : Slice → Slice) : (s.updSlice r f).ports = s.ports := by unfold State.updSlice; split <;> rfl
@[simp] theorem State.updSlice_launches (s : State) (r : Nat) (f : Slice → Slice) : (s.updSlice r f).launches = s.launches := by unfold State.updSlice; split <;> rfl
@[simp] theorem State.updSlice_nextLaunch (s : State) (r : Nat) (f : Slice → Slice) : (s.updSlice r f).nextLaunch = s.nextLaunch := by unfold State.updSlice; split <;> rfl
@[simp] theorem State.updSlice_rows (s : State) (r : Nat) (f : Slice → Slice) : (s.updSlice r f).rows = s.rows := by unfold State.updSlice; split <;> rfl
@[simp] theorem State.updSlice_nextRow (s : State) (r : Nat) (f : Slice → Slice) : (s.updSlice r f).nextRow = s.nextRow := by unfold State.updSlice; split <;> rfl
@[simp] theorem State.updSlice_mem (s : State) (r : Nat) (f : Slice → Slice) : (s.updSlice r f).mem = s.mem := by unfold State.updSlice; split <;> rfl
@[simp] theorem State.updSlice_memPsn (s : State) (r : Nat) (f : Slice → Slice) : (s.updSlice r f).memPsn = s.memPsn := by unfold State.updSlice; split <;> rfl
@[simp] theorem State.updSlice_owner (s : State) (r : Nat) (f : Slice → Slice) : (s.updSlice r f).owner = s.owner := by unfold State.updSlice; split <;> rfl
@[simp] theorem State.updSlice_sealed (s : State) (r : Nat) (f : Slice → Slice) : (s.updSlice r f).sealed = s.sealed := by unfold State.updSlice; split <;> rfl
@[simp] theorem State.updSlice_regionKey (s : State) (r : Nat) (f : Slice → Slice) : (s.updSlice r f).regionKey = s.regionKey := by unfold State.updSlice; split <;> rfl
@[simp] theorem State.updSlice_errs (s : State) (r : Nat) (f : Slice → Slice) : (s.updSlice r f).errs = s.errs := by unfold State.updSlice; split <;> rfl
@[simp] theorem State.updSlice_out (s : State) (r : Nat) (f : Slice → Slice) : (s.updSlice r f).out = s.out := by unfold State.updSlice; split <;> rfl

/-! ## State.updPort -/

@[simp] theorem State.updPort_cycle (s : State) (r : Nat) (f : Port → Port) : (s.updPort r f).cycle = s.cycle := by unfold State.updPort; split <;> rfl
@[simp] theorem State.updPort_time18 (s : State) (r : Nat) (f : Port → Port) : (s.updPort r f).time18 = s.time18 := by unfold State.updPort; split <;> rfl
@[simp] theorem State.updPort_cur (s : State) (r : Nat) (f : Port → Port) : (s.updPort r f).cur = s.cur := by unfold State.updPort; split <;> rfl
@[simp] theorem State.updPort_bun (s : State) (r : Nat) (f : Port → Port) : (s.updPort r f).bun = s.bun := by unfold State.updPort; split <;> rfl
@[simp] theorem State.updPort_agenda (s : State) (r : Nat) (f : Port → Port) : (s.updPort r f).agenda = s.agenda := by unfold State.updPort; split <;> rfl
@[simp] theorem State.updPort_ev (s : State) (r : Nat) (f : Port → Port) : (s.updPort r f).ev = s.ev := by unfold State.updPort; split <;> rfl
@[simp] theorem State.updPort_free (s : State) (r : Nat) (f : Port → Port) : (s.updPort r f).free = s.free := by unfold State.updPort; split <;> rfl
@[simp] theorem State.updPort_module (s : State) (r : Nat) (f : Port → Port) : (s.updPort r f).module = s.module := by unfold State.updPort; split <;> rfl
@[simp] theorem State.updPort_parts (s : State) (r : Nat) (f : Port → Port) : (s.updPort r f).parts = s.parts := by unfold State.updPort; split <;> rfl
@[simp] theorem State.updPort_cores (s : State) (r : Nat) (f : Port → Port) : (s.updPort r f).cores = s.cores := by unfold State.updPort; split <;> rfl
@[simp] theorem State.updPort_clusters (s : State) (r : Nat) (f : Port → Port) : (s.updPort r f).clusters = s.clusters := by unfold State.updPort; split <;> rfl
@[simp] theorem State.updPort_routers (s : State) (r : Nat) (f : Port → Port) : (s.updPort r f).routers = s.routers := by unfold State.updPort; split <;> rfl
@[simp] theorem State.updPort_slices (s : State) (r : Nat) (f : Port → Port) : (s.updPort r f).slices = s.slices := by unfold State.updPort; split <;> rfl
@[simp] theorem State.updPort_launches (s : State) (r : Nat) (f : Port → Port) : (s.updPort r f).launches = s.launches := by unfold State.updPort; split <;> rfl
@[simp] theorem State.updPort_nextLaunch (s : State) (r : Nat) (f : Port → Port) : (s.updPort r f).nextLaunch = s.nextLaunch := by unfold State.updPort; split <;> rfl
@[simp] theorem State.updPort_rows (s : State) (r : Nat) (f : Port → Port) : (s.updPort r f).rows = s.rows := by unfold State.updPort; split <;> rfl
@[simp] theorem State.updPort_nextRow (s : State) (r : Nat) (f : Port → Port) : (s.updPort r f).nextRow = s.nextRow := by unfold State.updPort; split <;> rfl
@[simp] theorem State.updPort_mem (s : State) (r : Nat) (f : Port → Port) : (s.updPort r f).mem = s.mem := by unfold State.updPort; split <;> rfl
@[simp] theorem State.updPort_memPsn (s : State) (r : Nat) (f : Port → Port) : (s.updPort r f).memPsn = s.memPsn := by unfold State.updPort; split <;> rfl
@[simp] theorem State.updPort_owner (s : State) (r : Nat) (f : Port → Port) : (s.updPort r f).owner = s.owner := by unfold State.updPort; split <;> rfl
@[simp] theorem State.updPort_sealed (s : State) (r : Nat) (f : Port → Port) : (s.updPort r f).sealed = s.sealed := by unfold State.updPort; split <;> rfl
@[simp] theorem State.updPort_regionKey (s : State) (r : Nat) (f : Port → Port) : (s.updPort r f).regionKey = s.regionKey := by unfold State.updPort; split <;> rfl
@[simp] theorem State.updPort_errs (s : State) (r : Nat) (f : Port → Port) : (s.updPort r f).errs = s.errs := by unfold State.updPort; split <;> rfl
@[simp] theorem State.updPort_out (s : State) (r : Nat) (f : Port → Port) : (s.updPort r f).out = s.out := by unfold State.updPort; split <;> rfl

/-! ## State.post -/

@[simp] theorem State.post_cycle (s : State) (d : Nat) (e : Event) : (s.post d e).cycle = s.cycle := rfl
@[simp] theorem State.post_time18 (s : State) (d : Nat) (e : Event) : (s.post d e).time18 = s.time18 := rfl
@[simp] theorem State.post_cur (s : State) (d : Nat) (e : Event) : (s.post d e).cur = s.cur := rfl
@[simp] theorem State.post_bun (s : State) (d : Nat) (e : Event) : (s.post d e).bun = s.bun := rfl
@[simp] theorem State.post_ev (s : State) (d : Nat) (e : Event) : (s.post d e).ev = s.ev := rfl
@[simp] theorem State.post_free (s : State) (d : Nat) (e : Event) : (s.post d e).free = s.free := rfl
@[simp] theorem State.post_module (s : State) (d : Nat) (e : Event) : (s.post d e).module = s.module := rfl
@[simp] theorem State.post_parts (s : State) (d : Nat) (e : Event) : (s.post d e).parts = s.parts := rfl
@[simp] theorem State.post_cores (s : State) (d : Nat) (e : Event) : (s.post d e).cores = s.cores := rfl
@[simp] theorem State.post_clusters (s : State) (d : Nat) (e : Event) : (s.post d e).clusters = s.clusters := rfl
@[simp] theorem State.post_routers (s : State) (d : Nat) (e : Event) : (s.post d e).routers = s.routers := rfl
@[simp] theorem State.post_slices (s : State) (d : Nat) (e : Event) : (s.post d e).slices = s.slices := rfl
@[simp] theorem State.post_ports (s : State) (d : Nat) (e : Event) : (s.post d e).ports = s.ports := rfl
@[simp] theorem State.post_launches (s : State) (d : Nat) (e : Event) : (s.post d e).launches = s.launches := rfl
@[simp] theorem State.post_nextLaunch (s : State) (d : Nat) (e : Event) : (s.post d e).nextLaunch = s.nextLaunch := rfl
@[simp] theorem State.post_rows (s : State) (d : Nat) (e : Event) : (s.post d e).rows = s.rows := rfl
@[simp] theorem State.post_nextRow (s : State) (d : Nat) (e : Event) : (s.post d e).nextRow = s.nextRow := rfl
@[simp] theorem State.post_mem (s : State) (d : Nat) (e : Event) : (s.post d e).mem = s.mem := rfl
@[simp] theorem State.post_memPsn (s : State) (d : Nat) (e : Event) : (s.post d e).memPsn = s.memPsn := rfl
@[simp] theorem State.post_owner (s : State) (d : Nat) (e : Event) : (s.post d e).owner = s.owner := rfl
@[simp] theorem State.post_sealed (s : State) (d : Nat) (e : Event) : (s.post d e).sealed = s.sealed := rfl
@[simp] theorem State.post_regionKey (s : State) (d : Nat) (e : Event) : (s.post d e).regionKey = s.regionKey := rfl
@[simp] theorem State.post_errs (s : State) (d : Nat) (e : Event) : (s.post d e).errs = s.errs := rfl
@[simp] theorem State.post_out (s : State) (d : Nat) (e : Event) : (s.post d e).out = s.out := rfl

/-! ## State.postOpen -/

@[simp] theorem State.postOpen_cycle (s : State) (d : Nat) (e : Event) : (s.postOpen d e).cycle = s.cycle := rfl
@[simp] theorem State.postOpen_time18 (s : State) (d : Nat) (e : Event) : (s.postOpen d e).time18 = s.time18 := rfl
@[simp] theorem State.postOpen_cur (s : State) (d : Nat) (e : Event) : (s.postOpen d e).cur = s.cur := rfl
@[simp] theorem State.postOpen_bun (s : State) (d : Nat) (e : Event) : (s.postOpen d e).bun = s.bun := rfl
@[simp] theorem State.postOpen_ev (s : State) (d : Nat) (e : Event) : (s.postOpen d e).ev = s.ev := rfl
@[simp] theorem State.postOpen_module (s : State) (d : Nat) (e : Event) : (s.postOpen d e).module = s.module := rfl
@[simp] theorem State.postOpen_parts (s : State) (d : Nat) (e : Event) : (s.postOpen d e).parts = s.parts := rfl
@[simp] theorem State.postOpen_cores (s : State) (d : Nat) (e : Event) : (s.postOpen d e).cores = s.cores := rfl
@[simp] theorem State.postOpen_clusters (s : State) (d : Nat) (e : Event) : (s.postOpen d e).clusters = s.clusters := rfl
@[simp] theorem State.postOpen_routers (s : State) (d : Nat) (e : Event) : (s.postOpen d e).routers = s.routers := rfl
@[simp] theorem State.postOpen_slices (s : State) (d : Nat) (e : Event) : (s.postOpen d e).slices = s.slices := rfl
@[simp] theorem State.postOpen_ports (s : State) (d : Nat) (e : Event) : (s.postOpen d e).ports = s.ports := rfl
@[simp] theorem State.postOpen_launches (s : State) (d : Nat) (e : Event) : (s.postOpen d e).launches = s.launches := rfl
@[simp] theorem State.postOpen_nextLaunch (s : State) (d : Nat) (e : Event) : (s.postOpen d e).nextLaunch = s.nextLaunch := rfl
@[simp] theorem State.postOpen_rows (s : State) (d : Nat) (e : Event) : (s.postOpen d e).rows = s.rows := rfl
@[simp] theorem State.postOpen_nextRow (s : State) (d : Nat) (e : Event) : (s.postOpen d e).nextRow = s.nextRow := rfl
@[simp] theorem State.postOpen_mem (s : State) (d : Nat) (e : Event) : (s.postOpen d e).mem = s.mem := rfl
@[simp] theorem State.postOpen_memPsn (s : State) (d : Nat) (e : Event) : (s.postOpen d e).memPsn = s.memPsn := rfl
@[simp] theorem State.postOpen_owner (s : State) (d : Nat) (e : Event) : (s.postOpen d e).owner = s.owner := rfl
@[simp] theorem State.postOpen_sealed (s : State) (d : Nat) (e : Event) : (s.postOpen d e).sealed = s.sealed := rfl
@[simp] theorem State.postOpen_regionKey (s : State) (d : Nat) (e : Event) : (s.postOpen d e).regionKey = s.regionKey := rfl
@[simp] theorem State.postOpen_errs (s : State) (d : Nat) (e : Event) : (s.postOpen d e).errs = s.errs := rfl
@[simp] theorem State.postOpen_out (s : State) (d : Nat) (e : Event) : (s.postOpen d e).out = s.out := rfl

/-! ## State.postOnce -/

@[simp] theorem State.postOnce_cycle (s : State) (d : Nat) (e : Event) : (s.postOnce d e).cycle = s.cycle := by unfold State.postOnce; split <;> rfl
@[simp] theorem State.postOnce_time18 (s : State) (d : Nat) (e : Event) : (s.postOnce d e).time18 = s.time18 := by unfold State.postOnce; split <;> rfl
@[simp] theorem State.postOnce_cur (s : State) (d : Nat) (e : Event) : (s.postOnce d e).cur = s.cur := by unfold State.postOnce; split <;> rfl
@[simp] theorem State.postOnce_bun (s : State) (d : Nat) (e : Event) : (s.postOnce d e).bun = s.bun := by unfold State.postOnce; split <;> rfl
@[simp] theorem State.postOnce_ev (s : State) (d : Nat) (e : Event) : (s.postOnce d e).ev = s.ev := by unfold State.postOnce; split <;> rfl
@[simp] theorem State.postOnce_free (s : State) (d : Nat) (e : Event) : (s.postOnce d e).free = s.free := by unfold State.postOnce; split <;> rfl
@[simp] theorem State.postOnce_module (s : State) (d : Nat) (e : Event) : (s.postOnce d e).module = s.module := by unfold State.postOnce; split <;> rfl
@[simp] theorem State.postOnce_parts (s : State) (d : Nat) (e : Event) : (s.postOnce d e).parts = s.parts := by unfold State.postOnce; split <;> rfl
@[simp] theorem State.postOnce_cores (s : State) (d : Nat) (e : Event) : (s.postOnce d e).cores = s.cores := by unfold State.postOnce; split <;> rfl
@[simp] theorem State.postOnce_clusters (s : State) (d : Nat) (e : Event) : (s.postOnce d e).clusters = s.clusters := by unfold State.postOnce; split <;> rfl
@[simp] theorem State.postOnce_routers (s : State) (d : Nat) (e : Event) : (s.postOnce d e).routers = s.routers := by unfold State.postOnce; split <;> rfl
@[simp] theorem State.postOnce_slices (s : State) (d : Nat) (e : Event) : (s.postOnce d e).slices = s.slices := by unfold State.postOnce; split <;> rfl
@[simp] theorem State.postOnce_ports (s : State) (d : Nat) (e : Event) : (s.postOnce d e).ports = s.ports := by unfold State.postOnce; split <;> rfl
@[simp] theorem State.postOnce_launches (s : State) (d : Nat) (e : Event) : (s.postOnce d e).launches = s.launches := by unfold State.postOnce; split <;> rfl
@[simp] theorem State.postOnce_nextLaunch (s : State) (d : Nat) (e : Event) : (s.postOnce d e).nextLaunch = s.nextLaunch := by unfold State.postOnce; split <;> rfl
@[simp] theorem State.postOnce_rows (s : State) (d : Nat) (e : Event) : (s.postOnce d e).rows = s.rows := by unfold State.postOnce; split <;> rfl
@[simp] theorem State.postOnce_nextRow (s : State) (d : Nat) (e : Event) : (s.postOnce d e).nextRow = s.nextRow := by unfold State.postOnce; split <;> rfl
@[simp] theorem State.postOnce_mem (s : State) (d : Nat) (e : Event) : (s.postOnce d e).mem = s.mem := by unfold State.postOnce; split <;> rfl
@[simp] theorem State.postOnce_memPsn (s : State) (d : Nat) (e : Event) : (s.postOnce d e).memPsn = s.memPsn := by unfold State.postOnce; split <;> rfl
@[simp] theorem State.postOnce_owner (s : State) (d : Nat) (e : Event) : (s.postOnce d e).owner = s.owner := by unfold State.postOnce; split <;> rfl
@[simp] theorem State.postOnce_sealed (s : State) (d : Nat) (e : Event) : (s.postOnce d e).sealed = s.sealed := by unfold State.postOnce; split <;> rfl
@[simp] theorem State.postOnce_regionKey (s : State) (d : Nat) (e : Event) : (s.postOnce d e).regionKey = s.regionKey := by unfold State.postOnce; split <;> rfl
@[simp] theorem State.postOnce_errs (s : State) (d : Nat) (e : Event) : (s.postOnce d e).errs = s.errs := by unfold State.postOnce; split <;> rfl
@[simp] theorem State.postOnce_out (s : State) (d : Nat) (e : Event) : (s.postOnce d e).out = s.out := by unfold State.postOnce; split <;> rfl

/-! ## State.emit -/

@[simp] theorem State.emit_cycle (s : State) (o : Output) : (s.emit o).cycle = s.cycle := rfl
@[simp] theorem State.emit_time18 (s : State) (o : Output) : (s.emit o).time18 = s.time18 := rfl
@[simp] theorem State.emit_cur (s : State) (o : Output) : (s.emit o).cur = s.cur := rfl
@[simp] theorem State.emit_bun (s : State) (o : Output) : (s.emit o).bun = s.bun := rfl
@[simp] theorem State.emit_agenda (s : State) (o : Output) : (s.emit o).agenda = s.agenda := rfl
@[simp] theorem State.emit_ev (s : State) (o : Output) : (s.emit o).ev = s.ev := rfl
@[simp] theorem State.emit_free (s : State) (o : Output) : (s.emit o).free = s.free := rfl
@[simp] theorem State.emit_module (s : State) (o : Output) : (s.emit o).module = s.module := rfl
@[simp] theorem State.emit_parts (s : State) (o : Output) : (s.emit o).parts = s.parts := rfl
@[simp] theorem State.emit_cores (s : State) (o : Output) : (s.emit o).cores = s.cores := rfl
@[simp] theorem State.emit_clusters (s : State) (o : Output) : (s.emit o).clusters = s.clusters := rfl
@[simp] theorem State.emit_routers (s : State) (o : Output) : (s.emit o).routers = s.routers := rfl
@[simp] theorem State.emit_slices (s : State) (o : Output) : (s.emit o).slices = s.slices := rfl
@[simp] theorem State.emit_ports (s : State) (o : Output) : (s.emit o).ports = s.ports := rfl
@[simp] theorem State.emit_launches (s : State) (o : Output) : (s.emit o).launches = s.launches := rfl
@[simp] theorem State.emit_nextLaunch (s : State) (o : Output) : (s.emit o).nextLaunch = s.nextLaunch := rfl
@[simp] theorem State.emit_rows (s : State) (o : Output) : (s.emit o).rows = s.rows := rfl
@[simp] theorem State.emit_nextRow (s : State) (o : Output) : (s.emit o).nextRow = s.nextRow := rfl
@[simp] theorem State.emit_mem (s : State) (o : Output) : (s.emit o).mem = s.mem := rfl
@[simp] theorem State.emit_memPsn (s : State) (o : Output) : (s.emit o).memPsn = s.memPsn := rfl
@[simp] theorem State.emit_owner (s : State) (o : Output) : (s.emit o).owner = s.owner := rfl
@[simp] theorem State.emit_sealed (s : State) (o : Output) : (s.emit o).sealed = s.sealed := rfl
@[simp] theorem State.emit_regionKey (s : State) (o : Output) : (s.emit o).regionKey = s.regionKey := rfl
@[simp] theorem State.emit_errs (s : State) (o : Output) : (s.emit o).errs = s.errs := rfl

/-! ## State.advance -/

@[simp] theorem State.advance_cur (s : State) (t : Nat) : (s.advance t).cur = s.cur := by unfold State.advance; split <;> rfl
@[simp] theorem State.advance_bun (s : State) (t : Nat) : (s.advance t).bun = s.bun := by unfold State.advance; split <;> rfl
@[simp] theorem State.advance_agenda (s : State) (t : Nat) : (s.advance t).agenda = s.agenda := by unfold State.advance; split <;> rfl
@[simp] theorem State.advance_ev (s : State) (t : Nat) : (s.advance t).ev = s.ev := by unfold State.advance; split <;> rfl
@[simp] theorem State.advance_free (s : State) (t : Nat) : (s.advance t).free = s.free := by unfold State.advance; split <;> rfl
@[simp] theorem State.advance_module (s : State) (t : Nat) : (s.advance t).module = s.module := by unfold State.advance; split <;> rfl
@[simp] theorem State.advance_parts (s : State) (t : Nat) : (s.advance t).parts = s.parts := by unfold State.advance; split <;> rfl
@[simp] theorem State.advance_cores (s : State) (t : Nat) : (s.advance t).cores = s.cores := by unfold State.advance; split <;> rfl
@[simp] theorem State.advance_clusters (s : State) (t : Nat) : (s.advance t).clusters = s.clusters := by unfold State.advance; split <;> rfl
@[simp] theorem State.advance_routers (s : State) (t : Nat) : (s.advance t).routers = s.routers := by unfold State.advance; split <;> rfl
@[simp] theorem State.advance_slices (s : State) (t : Nat) : (s.advance t).slices = s.slices := by unfold State.advance; split <;> rfl
@[simp] theorem State.advance_ports (s : State) (t : Nat) : (s.advance t).ports = s.ports := by unfold State.advance; split <;> rfl
@[simp] theorem State.advance_launches (s : State) (t : Nat) : (s.advance t).launches = s.launches := by unfold State.advance; split <;> rfl
@[simp] theorem State.advance_nextLaunch (s : State) (t : Nat) : (s.advance t).nextLaunch = s.nextLaunch := by unfold State.advance; split <;> rfl
@[simp] theorem State.advance_rows (s : State) (t : Nat) : (s.advance t).rows = s.rows := by unfold State.advance; split <;> rfl
@[simp] theorem State.advance_nextRow (s : State) (t : Nat) : (s.advance t).nextRow = s.nextRow := by unfold State.advance; split <;> rfl
@[simp] theorem State.advance_mem (s : State) (t : Nat) : (s.advance t).mem = s.mem := by unfold State.advance; split <;> rfl
@[simp] theorem State.advance_memPsn (s : State) (t : Nat) : (s.advance t).memPsn = s.memPsn := by unfold State.advance; split <;> rfl
@[simp] theorem State.advance_owner (s : State) (t : Nat) : (s.advance t).owner = s.owner := by unfold State.advance; split <;> rfl
@[simp] theorem State.advance_sealed (s : State) (t : Nat) : (s.advance t).sealed = s.sealed := by unfold State.advance; split <;> rfl
@[simp] theorem State.advance_regionKey (s : State) (t : Nat) : (s.advance t).regionKey = s.regionKey := by unfold State.advance; split <;> rfl
@[simp] theorem State.advance_errs (s : State) (t : Nat) : (s.advance t).errs = s.errs := by unfold State.advance; split <;> rfl
@[simp] theorem State.advance_out (s : State) (t : Nat) : (s.advance t).out = s.out := by unfold State.advance; split <;> rfl

/-! ## State.setHbmByte -/

@[simp] theorem State.setHbmByte_cycle (s : State) (pa : Nat) (b : Byte) : (s.setHbmByte pa b).cycle = s.cycle := by unfold State.setHbmByte; split <;> rfl
@[simp] theorem State.setHbmByte_time18 (s : State) (pa : Nat) (b : Byte) : (s.setHbmByte pa b).time18 = s.time18 := by unfold State.setHbmByte; split <;> rfl
@[simp] theorem State.setHbmByte_cur (s : State) (pa : Nat) (b : Byte) : (s.setHbmByte pa b).cur = s.cur := by unfold State.setHbmByte; split <;> rfl
@[simp] theorem State.setHbmByte_bun (s : State) (pa : Nat) (b : Byte) : (s.setHbmByte pa b).bun = s.bun := by unfold State.setHbmByte; split <;> rfl
@[simp] theorem State.setHbmByte_agenda (s : State) (pa : Nat) (b : Byte) : (s.setHbmByte pa b).agenda = s.agenda := by unfold State.setHbmByte; split <;> rfl
@[simp] theorem State.setHbmByte_ev (s : State) (pa : Nat) (b : Byte) : (s.setHbmByte pa b).ev = s.ev := by unfold State.setHbmByte; split <;> rfl
@[simp] theorem State.setHbmByte_free (s : State) (pa : Nat) (b : Byte) : (s.setHbmByte pa b).free = s.free := by unfold State.setHbmByte; split <;> rfl
@[simp] theorem State.setHbmByte_module (s : State) (pa : Nat) (b : Byte) : (s.setHbmByte pa b).module = s.module := by unfold State.setHbmByte; split <;> rfl
@[simp] theorem State.setHbmByte_parts (s : State) (pa : Nat) (b : Byte) : (s.setHbmByte pa b).parts = s.parts := by unfold State.setHbmByte; split <;> rfl
@[simp] theorem State.setHbmByte_cores (s : State) (pa : Nat) (b : Byte) : (s.setHbmByte pa b).cores = s.cores := by unfold State.setHbmByte; split <;> rfl
@[simp] theorem State.setHbmByte_clusters (s : State) (pa : Nat) (b : Byte) : (s.setHbmByte pa b).clusters = s.clusters := by unfold State.setHbmByte; split <;> rfl
@[simp] theorem State.setHbmByte_routers (s : State) (pa : Nat) (b : Byte) : (s.setHbmByte pa b).routers = s.routers := by unfold State.setHbmByte; split <;> rfl
@[simp] theorem State.setHbmByte_slices (s : State) (pa : Nat) (b : Byte) : (s.setHbmByte pa b).slices = s.slices := by unfold State.setHbmByte; split <;> rfl
@[simp] theorem State.setHbmByte_ports (s : State) (pa : Nat) (b : Byte) : (s.setHbmByte pa b).ports = s.ports := by unfold State.setHbmByte; split <;> rfl
@[simp] theorem State.setHbmByte_launches (s : State) (pa : Nat) (b : Byte) : (s.setHbmByte pa b).launches = s.launches := by unfold State.setHbmByte; split <;> rfl
@[simp] theorem State.setHbmByte_nextLaunch (s : State) (pa : Nat) (b : Byte) : (s.setHbmByte pa b).nextLaunch = s.nextLaunch := by unfold State.setHbmByte; split <;> rfl
@[simp] theorem State.setHbmByte_rows (s : State) (pa : Nat) (b : Byte) : (s.setHbmByte pa b).rows = s.rows := by unfold State.setHbmByte; split <;> rfl
@[simp] theorem State.setHbmByte_nextRow (s : State) (pa : Nat) (b : Byte) : (s.setHbmByte pa b).nextRow = s.nextRow := by unfold State.setHbmByte; split <;> rfl
@[simp] theorem State.setHbmByte_memPsn (s : State) (pa : Nat) (b : Byte) : (s.setHbmByte pa b).memPsn = s.memPsn := by unfold State.setHbmByte; split <;> rfl
@[simp] theorem State.setHbmByte_owner (s : State) (pa : Nat) (b : Byte) : (s.setHbmByte pa b).owner = s.owner := by unfold State.setHbmByte; split <;> rfl
@[simp] theorem State.setHbmByte_sealed (s : State) (pa : Nat) (b : Byte) : (s.setHbmByte pa b).sealed = s.sealed := by unfold State.setHbmByte; split <;> rfl
@[simp] theorem State.setHbmByte_regionKey (s : State) (pa : Nat) (b : Byte) : (s.setHbmByte pa b).regionKey = s.regionKey := by unfold State.setHbmByte; split <;> rfl
@[simp] theorem State.setHbmByte_errs (s : State) (pa : Nat) (b : Byte) : (s.setHbmByte pa b).errs = s.errs := by unfold State.setHbmByte; split <;> rfl
@[simp] theorem State.setHbmByte_out (s : State) (pa : Nat) (b : Byte) : (s.setHbmByte pa b).out = s.out := by unfold State.setHbmByte; split <;> rfl

end Sys2Proof.Machine
end

