-- ==== Sys2Proof/Laws/Tab.lean ====
section
/-! SUPPORT. The laws of the sparse table: reading after writing, and that writing keeps the canonical form. -/

namespace Sys2Proof

variable {α : Type}

theorem Tab.get_ins_same (d x : α) (m : Tab α) (n : Nat) : Tab.get d (Tab.ins m n x) n = x := by
  induction m with
  | nil => simp [Tab.ins, Tab.get]
  | cons a m ih =>
    obtain ⟨k, v⟩ := a
    simp only [Tab.ins]
    split
    · simp [Tab.get]
    · split
      · simp [Tab.get]
      · simp [Tab.get, *]

theorem Tab.get_ins_ne (d x : α) (m : Tab α) {n j : Nat} (h : j ≠ n) : Tab.get d (Tab.ins m n x) j = Tab.get d m j := by
  induction m with
  | nil => simp [Tab.ins, Tab.get, Ne.symm h]
  | cons a m ih =>
    obtain ⟨k, v⟩ := a
    simp only [Tab.ins]
    split
    · simp [Tab.get, Ne.symm h]
    · split
      · subst k; simp [Tab.get, Ne.symm h]
      · simp [Tab.get, ih]

theorem Tab.get_del_ne (d : α) (m : Tab α) {n j : Nat} (h : j ≠ n) : Tab.get d (Tab.del m n) j = Tab.get d m j := by
  induction m with
  | nil => rfl
  | cons a m ih =>
    obtain ⟨k, v⟩ := a
    simp only [Tab.del]
    split
    · subst k; simp [Tab.get, Ne.symm h]
    · simp [Tab.get, ih]

variable [DecidableEq α]

/-- A key that holds a value other than the default reads it after it is set. -/
theorem Tab.get_set_same (d : α) (m : Tab α) (n : Nat) {x : α} (h : x ≠ d) : Tab.get d (Tab.set d m n x) n = x := by
  simp [Tab.set, h, Tab.get_ins_same]

/-- A key that is given something reads it. -/
theorem Tab.get_set_some {β : Type} [DecidableEq β] (m : Tab (Option β)) (n : Nat) (x : β) : Tab.get none (Tab.set none m n (some x)) n = some x :=
  Tab.get_set_same none m n (by simp)

/-- Every other key reads as before. -/
theorem Tab.get_set_ne (d x : α) (m : Tab α) {n j : Nat} (h : j ≠ n) : Tab.get d (Tab.set d m n x) j = Tab.get d m j := by
  simp only [Tab.set]
  split
  · exact Tab.get_del_ne d m h
  · exact Tab.get_ins_ne d x m h

theorem Tab.wfFrom_mono (d : α) {a b : Nat} (h : b ≤ a) : ∀ {m : Tab α}, Tab.wfFrom d a m = true → Tab.wfFrom d b m = true
  | [], _ => rfl
  | (k, v) :: m, hw => by
    simp only [Tab.wfFrom, Bool.and_eq_true, decide_eq_true_eq] at hw ⊢
    exact ⟨⟨by omega, hw.1.2⟩, hw.2⟩

theorem Tab.get_below (d : α) {lo j : Nat} (h : j < lo) : ∀ {m : Tab α}, Tab.wfFrom d lo m = true → Tab.get d m j = d
  | [], _ => rfl
  | (k, v) :: m, hw => by
    simp only [Tab.wfFrom, Bool.and_eq_true, decide_eq_true_eq] at hw
    have : k ≠ j := by omega
    simp only [Tab.get, this, if_false]
    exact Tab.get_below d (by omega : j < k + 1) hw.2

theorem Tab.wfFrom_del (d : α) (n : Nat) : ∀ {m : Tab α} {lo : Nat}, Tab.wfFrom d lo m = true → Tab.wfFrom d lo (Tab.del m n) = true
  | [], _, _ => rfl
  | (k, v) :: m, lo, hw => by
    simp only [Tab.wfFrom, Bool.and_eq_true, decide_eq_true_eq] at hw
    simp only [Tab.del]
    split
    · exact Tab.wfFrom_mono d (by omega) hw.2
    · simp only [Tab.wfFrom, Bool.and_eq_true, decide_eq_true_eq]
      exact ⟨hw.1, Tab.wfFrom_del d n hw.2⟩

theorem Tab.wfFrom_ins (d : α) (n : Nat) {x : α} (hx : x ≠ d) :
    ∀ {m : Tab α} {lo : Nat}, lo ≤ n → Tab.wfFrom d lo m = true → Tab.wfFrom d lo (Tab.ins m n x) = true
  | [], lo, h, _ => by simp [Tab.ins, Tab.wfFrom, h, hx]
  | (k, v) :: m, lo, h, hw => by
    simp only [Tab.wfFrom, Bool.and_eq_true, decide_eq_true_eq] at hw
    simp only [Tab.ins]
    split
    · simp only [Tab.wfFrom, Bool.and_eq_true, decide_eq_true_eq]
      exact ⟨⟨h, hx⟩, ⟨by omega, hw.1.2⟩, hw.2⟩
    · split
      · subst k
        simp only [Tab.wfFrom, Bool.and_eq_true, decide_eq_true_eq]
        exact ⟨⟨h, hx⟩, hw.2⟩
      · simp only [Tab.wfFrom, Bool.and_eq_true, decide_eq_true_eq]
        exact ⟨hw.1, Tab.wfFrom_ins d n hx (by omega) hw.2⟩

/-- Setting a key keeps the canonical form. -/
theorem Tab.wf_set (d x : α) (n : Nat) {m : Tab α} (h : Tab.wf d m = true) : Tab.wf d (Tab.set d m n x) = true := by
  simp only [Tab.set]
  split
  · exact Tab.wfFrom_del d n h
  · next hx => exact Tab.wfFrom_ins d n hx (Nat.zero_le n) h

theorem Tab.get_del_same (d : α) (n : Nat) : ∀ {m : Tab α} {lo : Nat}, Tab.wfFrom d lo m = true → Tab.get d (Tab.del m n) n = d
  | [], _, _ => rfl
  | (k, v) :: m, lo, hw => by
    simp only [Tab.wfFrom, Bool.and_eq_true, decide_eq_true_eq] at hw
    simp only [Tab.del]
    split
    · next h => exact Tab.get_below d (by omega : n < k + 1) hw.2
    · next h => simp only [Tab.get, h, if_false]; exact Tab.get_del_same d n hw.2

/-- In a canonical table a key that is set reads what it was set to, the default too. -/
theorem Tab.get_set_wf (d x : α) (n : Nat) {m : Tab α} (h : Tab.wf d m = true) : Tab.get d (Tab.set d m n x) n = x := by
  by_cases hx : x = d
  · simp only [Tab.set, hx, if_true]; exact Tab.get_del_same d n h
  · exact Tab.get_set_same d m n hx

/-- A filter keeps the canonical form. -/
theorem Tab.wfFrom_filter (d : α) (p : Nat × α → Bool) : ∀ {m : Tab α} {lo : Nat}, Tab.wfFrom d lo m = true → Tab.wfFrom d lo (m.filter p) = true
  | [], _, _ => rfl
  | (k, v) :: m, lo, hw => by
    simp only [Tab.wfFrom, Bool.and_eq_true, decide_eq_true_eq] at hw
    simp only [List.filter]
    split
    · simp only [Tab.wfFrom, Bool.and_eq_true, decide_eq_true_eq]
      exact ⟨hw.1, Tab.wfFrom_filter d p hw.2⟩
    · exact Tab.wfFrom_mono d (by omega) (Tab.wfFrom_filter d p hw.2)

/-- A filter keeps the canonical form. -/
theorem Tab.wf_filter (d : α) (p : Nat × α → Bool) {m : Tab α} (h : Tab.wf d m = true) : Tab.wf d (m.filter p) = true := Tab.wfFrom_filter d p h

end Sys2Proof
end

