-- ==== Sys2Proof/Laws/Parts.lean ====
section
/-! SUPPORT. Reading a part of the state after it, or another, was changed. -/

namespace Sys2Proof.Machine

/-! ## Cores and contexts -/

@[simp] theorem State.core?_setCore_same (s : State) (c : Nat) (k : Core) : (s.setCore c k).core? c = some k :=
  Tab.get_set_some s.cores c _

theorem State.core?_setCore_ne (s : State) (k : Core) {c c' : Nat} (h : c' ≠ c) : (s.setCore c k).core? c' = s.core? c' :=
  Tab.get_set_ne none (some k) s.cores h

theorem State.updCore_of_some {s : State} {c : Nat} {k : Core} (f : Core → Core) (h : s.core? c = some k) : s.updCore c f = s.setCore c (f k) := by
  simp [State.updCore, h]

theorem State.updCore_of_none {s : State} {c : Nat} (f : Core → Core) (h : s.core? c = none) : s.updCore c f = s := by
  simp [State.updCore, h]

theorem State.core?_updCore_same (s : State) (c : Nat) (f : Core → Core) : (s.updCore c f).core? c = (s.core? c).map f := by
  cases h : s.core? c with
  | none => simp [State.updCore_of_none f h, h]
  | some k => simp [State.updCore_of_some f h]

theorem State.core?_updCore_ne (s : State) (f : Core → Core) {c c' : Nat} (h : c' ≠ c) : (s.updCore c f).core? c' = s.core? c' := by
  cases hk : s.core? c with
  | none => simp [State.updCore_of_none f hk]
  | some k => simp [State.updCore_of_some f hk, State.core?_setCore_ne s (f k) h]

@[simp] theorem Core.ctx?_setCtx_same (k : Core) (n : Nat) (x : Ctx) : (k.setCtx n x).ctx? n = some x :=
  Tab.get_set_some k.ctxs n _

theorem Core.ctx?_setCtx_ne (k : Core) (x : Ctx) {n n' : Nat} (h : n' ≠ n) : (k.setCtx n x).ctx? n' = k.ctx? n' :=
  Tab.get_set_ne none (some x) k.ctxs h

theorem State.ctx?_eq (s : State) (c n : Nat) : s.ctx? c n = (s.core? c).bind fun k => k.ctx? n := rfl

/-- The context that is changed. -/
theorem State.ctx?_updCtx_same (s : State) (c n : Nat) (f : Ctx → Ctx) : (s.updCtx c n f).ctx? c n = (s.ctx? c n).map f := by
  simp only [State.ctx?, State.updCtx, State.core?_updCore_same]
  cases hk : s.core? c with
  | none => simp
  | some k => cases hx : k.ctx? n <;> simp [hx]

/-- Another context of the same core. -/
theorem State.ctx?_updCtx_ne (s : State) (c : Nat) (f : Ctx → Ctx) {n n' : Nat} (h : n' ≠ n) : (s.updCtx c n f).ctx? c n' = s.ctx? c n' := by
  simp only [State.ctx?, State.updCtx, State.core?_updCore_same]
  cases hk : s.core? c with
  | none => simp
  | some k => cases hx : k.ctx? n <;> simp [hx, Core.ctx?_setCtx_ne k _ h]

/-- A context of another core. -/
theorem State.ctx?_updCtx_other (s : State) (n m : Nat) (f : Ctx → Ctx) {c c' : Nat} (h : c' ≠ c) : (s.updCtx c n f).ctx? c' m = s.ctx? c' m := by
  simp only [State.ctx?, State.updCtx, State.core?_updCore_ne s _ h]

/-- What a context's change leaves of its core. -/
theorem State.core?_updCtx_same {s : State} {c n : Nat} {k : Core} {x : Ctx} (f : Ctx → Ctx) (hk : s.core? c = some k) (hx : k.ctx? n = some x) :
    (s.updCtx c n f).core? c = some (k.setCtx n (f x)) := by
  simp [State.updCtx, State.core?_updCore_same, hk, hx]

/-! ## The other parts -/

theorem State.part?_updPart_same (s : State) (p : Nat) (f : Part → Part) : (s.updPart p f).part? p = (s.part? p).map f := by
  unfold State.updPart
  cases h : s.part? p with
  | none => simp [h]
  | some q => exact Tab.get_set_some s.parts p _

theorem State.part?_updPart_ne (s : State) (f : Part → Part) {p p' : Nat} (h : p' ≠ p) : (s.updPart p f).part? p' = s.part? p' := by
  unfold State.updPart
  cases s.part? p with
  | none => rfl
  | some q => exact Tab.get_set_ne none (some (f q)) s.parts h

theorem State.launch?_updLaunch_same (s : State) (l : Nat) (f : Launch → Launch) : (s.updLaunch l f).launch? l = (s.launch? l).map f := by
  unfold State.updLaunch
  cases h : s.launch? l with
  | none => simp [h]
  | some q => exact Tab.get_set_some s.launches l _

theorem State.launch?_updLaunch_ne (s : State) (f : Launch → Launch) {l l' : Nat} (h : l' ≠ l) : (s.updLaunch l f).launch? l' = s.launch? l' := by
  unfold State.updLaunch
  cases s.launch? l with
  | none => rfl
  | some q => exact Tab.get_set_ne none (some (f q)) s.launches h

theorem State.cluster?_updCluster_same (s : State) (c : Nat) (f : Cluster → Cluster) : (s.updCluster c f).cluster? c = (s.cluster? c).map f := by
  unfold State.updCluster
  cases h : s.cluster? c with
  | none => simp [h]
  | some q => exact Tab.get_set_some s.clusters c _

theorem State.router?_updRouter_same (s : State) (r : Nat) (f : Router → Router) : (s.updRouter r f).router? r = (s.router? r).map f := by
  unfold State.updRouter
  cases h : s.router? r with
  | none => simp [h]
  | some q => exact Tab.get_set_some s.routers r _

theorem State.router?_updRouter_ne (s : State) (f : Router → Router) {r r' : Nat} (h : r' ≠ r) : (s.updRouter r f).router? r' = s.router? r' := by
  unfold State.updRouter
  cases s.router? r with
  | none => rfl
  | some q => exact Tab.get_set_ne none (some (f q)) s.routers h

theorem State.slice?_updSlice_same (s : State) (n : Nat) (f : Slice → Slice) : (s.updSlice n f).slice? n = (s.slice? n).map f := by
  unfold State.updSlice
  cases h : s.slice? n with
  | none => simp [h]
  | some q => exact Tab.get_set_some s.slices n _

theorem State.slice?_updSlice_ne (s : State) (f : Slice → Slice) {n n' : Nat} (h : n' ≠ n) : (s.updSlice n f).slice? n' = s.slice? n' := by
  unfold State.updSlice
  cases s.slice? n with
  | none => rfl
  | some q => exact Tab.get_set_ne none (some (f q)) s.slices h

theorem State.port?_updPort_same (s : State) (n : Nat) (f : Port → Port) : (s.updPort n f).port? n = (s.port? n).map f := by
  unfold State.updPort
  cases h : s.port? n with
  | none => simp [h]
  | some q => exact Tab.get_set_some s.ports n _

theorem State.port?_updPort_ne (s : State) (f : Port → Port) {n n' : Nat} (h : n' ≠ n) : (s.updPort n f).port? n' = s.port? n' := by
  unfold State.updPort
  cases s.port? n with
  | none => rfl
  | some q => exact Tab.get_set_ne none (some (f q)) s.ports h

/-! ## The agenda -/

/-- An event that is put into an agenda is in it. -/
theorem mem_addEvent_self (d : Nat) (e : Event) (l : List (Nat × Event)) : (d, e) ∈ addEvent d e l := by
  induction l with
  | nil => simp [addEvent]
  | cons a l ih =>
    obtain ⟨k, v⟩ := a
    simp only [addEvent]
    split
    · simp
    · simp [ih]

/-- What stands in an agenda stays in it. -/
theorem mem_addEvent_of_mem {a : Nat × Event} {l : List (Nat × Event)} (d : Nat) (e : Event) (h : a ∈ l) : a ∈ addEvent d e l := by
  induction l with
  | nil => simp at h
  | cons b l ih =>
    obtain ⟨k, v⟩ := b
    simp only [addEvent]
    split
    · exact List.mem_cons_of_mem _ h
    · rcases List.mem_cons.1 h with h | h
      · simp [h]
      · exact List.mem_cons_of_mem _ (ih h)

/-- An event that is posted stands in the agenda at its cycle. -/
theorem State.mem_post (s : State) (d : Nat) (e : Event) : (s.cycle + d, e) ∈ (s.post d e).agenda := mem_addEvent_self _ _ _

/-- Posting leaves what stood in the agenda. -/
theorem State.mem_post_of_mem {s : State} {a : Nat × Event} (d : Nat) (e : Event) (h : a ∈ s.agenda) : a ∈ (s.post d e).agenda :=
  mem_addEvent_of_mem _ _ h

/-- An event that is posted once stands in the agenda. -/
theorem State.mem_postOnce (s : State) (d : Nat) (e : Event) : (s.cycle + d, e) ∈ (s.postOnce d e).agenda := by
  unfold State.postOnce
  split
  · next h =>
    obtain ⟨a, ha, he⟩ := List.any_eq_true.1 h
    simp only [Bool.and_eq_true, beq_iff_eq] at he
    obtain ⟨k, v⟩ := a
    simp only at he
    rw [← he.1, ← he.2]
    exact ha
  · exact s.mem_post d e

end Sys2Proof.Machine
end

