-- ==== Sys2Proof/Laws/Memory.lean ====
section
/-! SUPPORT. The laws of home memory: a byte that is written reads back, every other byte stays, and every operation on memory keeps the canonical
form. -/

namespace Sys2Proof.Machine

/-! ## Folds -/

/-- What every step of a fold keeps, the fold keeps. -/
theorem State.forEach_keeps {α : Type} (P : State → Prop) {f : State → α → State} (h : ∀ s x, P s → P (f s x)) (l : List α) (s : State) (hs : P s) :
    P (s.forEach l f) := by
  induction l generalizing s with
  | nil => exact hs
  | cons x l ih => exact ih (f s x) (h s x hs)

/-- A fold whose steps leave memory leaves memory. -/
theorem State.forEach_mem {α : Type} {f : State → α → State} (h : ∀ s x, (f s x).mem = s.mem) (l : List α) (s : State) : (s.forEach l f).mem = s.mem :=
  State.forEach_keeps (fun t => t.mem = s.mem) (fun t x ht => (h t x).trans ht) l s rfl

/-! ## Bytes -/

/-- A byte of HBM that is written reads back. -/
theorem State.hbmByte_setHbmByte_same {s : State} (h : s.Inv) {pa : Nat} (hp : pa < hbmTop) (b : Byte) : (s.setHbmByte pa b).hbmByte pa = b := by
  simp only [State.hbmByte, State.setHbmByte, hp, if_true]
  exact Tab.get_set_wf 0 b pa h

/-- Every other byte of HBM stays. -/
theorem State.hbmByte_setHbmByte_ne (s : State) {pa a : Nat} (b : Byte) (h : a ≠ pa) : (s.setHbmByte pa b).hbmByte a = s.hbmByte a := by
  simp only [State.hbmByte, State.setHbmByte]
  split
  · split
    · exact Tab.get_set_ne 0 b s.mem h
    · rfl
  · simp_all

/-- Home memory reads the same where HBM, the lines of the slices and the module are the same. -/
theorem State.homeByte_congr {s t : State} (hm : t.mem = s.mem) (hs : t.slices = s.slices) (hc : t.module = s.module) (a : Nat) :
    t.homeByte a = s.homeByte a := by
  simp [State.homeByte, State.hbmByte, State.frontLine, State.homeSlice, State.slice?, hm, hs, hc]

/-- A byte whose line no slice holds reads as HBM holds it. -/
theorem State.homeByte_of_no_line {s : State} {a : Nat} (h : s.frontLine a = none) : s.homeByte a = s.hbmByte a := by
  simp [State.homeByte, h]

/-- A byte whose line its slice holds reads as the most recently used line of it. -/
theorem State.homeByte_of_line {s : State} {a : Nat} (ha : a < hbmTop) {x : Line} (h : s.frontLine a = some x) :
    s.homeByte a = (x.word (a % 128 / 4)).w.extractLsb' (8 * (a % 4)) 8 := by
  simp [State.homeByte, ha, h]

/-! ## The canonical form -/

theorem State.inv_of_mem {s t : State} (h : t.mem = s.mem) (hs : s.Inv) : t.Inv := by
  simpa [State.Inv, h] using hs

theorem State.inv_setHbmByte {s : State} (h : s.Inv) (pa : Nat) (b : Byte) : (s.setHbmByte pa b).Inv := by
  unfold State.setHbmByte
  split
  · exact Tab.wf_set 0 b pa h
  · exact h

theorem State.inv_resetWith (f : Fuses) : (State.resetWith f).Inv := rfl

/-! ## What leaves memory alone -/

@[simp] theorem State.wakeControl_mem (s : State) (p : Nat) : (s.wakeControl p).mem = s.mem := by
  unfold State.wakeControl
  split <;> simp

@[simp] theorem State.notice_mem (s : State) (p cause : Nat) (info : Word64) : (s.notice p cause info).mem = s.mem := by
  simp [State.notice]

@[simp] theorem State.seal_mem (s : State) (sec k : Nat) : (s.seal sec k).mem = s.mem := rfl

@[simp] theorem State.revoke_mem (s : State) (own pa : Nat) : (s.revoke own pa).mem = s.mem := by
  unfold State.revoke
  dsimp only
  split
  · rfl
  · split
    · simp
    · exact State.forEach_mem (by simp) _ _

@[simp] theorem State.settleWays_mem (s : State) (n : Nat) : (s.settleWays n).mem = s.mem := by simp [State.settleWays]

@[simp] theorem State.countLine_mem (s : State) (a : Access) (pa : Nat) : (s.countLine a pa).1.mem = s.mem := by
  unfold State.countLine
  split <;> simp

@[simp] theorem State.dropDomainRows_mem (s : State) (p e : Nat) : (s.dropDomainRows p e).mem = s.mem := rfl

@[simp] theorem State.abortLaunch_mem (s : State) (l : Nat) : (s.abortLaunch l).mem = s.mem := by
  simp [State.abortLaunch]

@[simp] theorem State.abortAll_mem (s : State) (p : Nat) : (s.abortAll p).mem = s.mem := by
  unfold State.abortAll
  rw [State.postOnce_mem]
  exact State.forEach_mem (by simp) _ _

@[simp] theorem State.startSparing_mem (s : State) (sec : Nat) : (s.startSparing sec).mem = s.mem := by
  unfold State.startSparing
  dsimp only
  split
  · rfl
  · split <;> simp

@[simp] theorem State.countCorrected_mem (s : State) (sec : Nat) : (s.countCorrected sec).mem = s.mem := by
  unfold State.countCorrected
  dsimp only
  split
  · rfl
  · split <;> simp

@[simp] theorem State.meet_mem (s : State) (sec : Nat) (l : List SectorCheck) : (s.meet sec l).mem = s.mem := rfl

/-! ## What leaves a slice keeps the canonical form -/

theorem State.inv_setHbmWord {s : State} (h : s.Inv) (pa : Nat) (w : PWord) : (s.setHbmWord pa w).Inv :=
  State.forEach_keeps State.Inv (fun _ _ ht => State.inv_setHbmByte ht _ _) (List.range 4) s h

theorem State.inv_writeSector {s : State} (h : s.Inv) (x : Line) (i : Nat) : (s.writeSector x i).Inv := by
  unfold State.writeSector
  refine State.inv_of_mem (State.seal_mem _ _ _) ?_
  refine State.forEach_keeps State.Inv (fun _ _ ht => State.inv_setHbmWord ht _ _) _ _ ?_
  refine State.inv_of_mem (s := s) ?_ h
  show State.mem (if _ then s else _) = s.mem
  split
  · rfl
  · exact State.forEach_mem (by simp) _ _

theorem State.inv_writeLine {s : State} (h : s.Inv) (x : Line) : (s.writeLine x).Inv := by
  refine State.forEach_keeps State.Inv (fun t i ht => ?_) _ s h
  split
  · exact State.inv_writeSector ht x i
  · exact ht

theorem State.inv_leaveLine {s : State} (h : s.Inv) (n : Nat) (x : Line) : (s.leaveLine n x).Inv :=
  State.inv_writeLine (State.inv_of_mem (s := s) (by simp) h) x

theorem State.inv_leaveLines {s : State} (h : s.Inv) (n : Nat) (sel : Line → Bool) : (s.leaveLines n sel).Inv := by
  unfold State.leaveLines
  split
  · exact h
  · exact State.forEach_keeps State.Inv (fun _ x ht => State.inv_leaveLine ht n x) _ s h

theorem State.inv_placeLine {s : State} (h : s.Inv) (n : Nat) (x : Line) (allowed : List Nat) (retained : Bool) :
    (s.placeLine n x allowed retained).Inv := by
  unfold State.placeLine
  split
  · exact State.inv_writeLine h x
  · next v _ =>
    refine State.inv_of_mem (State.updSlice_mem ..) ?_
    cases v with
    | none => exact h
    | some y => exact State.inv_leaveLine h n y

theorem State.inv_setLine {s : State} (h : s.Inv) (n : Nat) (y : Line) : (s.setLine n y).Inv := by
  unfold State.setLine
  split
  · exact State.inv_writeLine h y
  · split
    · exact State.inv_of_mem (by simp) h
    · exact State.inv_writeLine h y

theorem State.inv_eraseDomain {s : State} (h : s.Inv) (p e : Nat) : (s.eraseDomain p e).Inv := by
  unfold State.eraseDomain
  refine State.inv_of_mem ((State.updPart_mem ..).trans (State.dropDomainRows_mem ..)) ?_
  exact State.forEach_keeps State.Inv (fun _ n ht => State.inv_leaveLines ht n _) _ s h

theorem State.inv_fence {s : State} (h : s.Inv) (p : Nat) : (s.fence p).Inv := by
  unfold State.fence
  refine State.inv_of_mem (State.abortAll_mem _ p) ?_
  exact State.forEach_keeps State.Inv (fun _ e ht => State.inv_eraseDomain ht p e) _ _ (State.inv_of_mem (s := s) (by simp) h)

theorem State.inv_countIntegrity {s : State} (h : s.Inv) (p : Nat) : (s.countIntegrity p).Inv := by
  unfold State.countIntegrity
  split
  · exact h
  · dsimp only
    split
    · exact State.inv_fence (State.inv_of_mem (s := s) (by simp) h) p
    · exact State.inv_of_mem (by simp) h

/-! ## Every read keeps the canonical form -/

theorem State.inv_checkSector {s : State} (h : s.Inv) (a : Access) (sec : Nat) : (s.checkSector a sec).1.Inv := by
  have hn : ∀ cause info, (s.notice a.part cause info).Inv := fun _ _ => State.inv_of_mem (by simp) h
  unfold State.checkSector
  split
  · exact hn _ _
  · exact hn _ _
  · exact State.inv_countIntegrity (hn _ _) _
  · split
    · exact h
    · exact State.inv_countIntegrity (hn _ _) _
  · split
    · exact State.inv_of_mem (by simp) h
    · exact State.inv_countIntegrity (hn _ _) _

theorem State.inv_fillSector (a : Access) (no : Nat) (whole : Nat → Bool) {acc : State × List PWord} (h : acc.1.Inv) (i : Nat) :
    (State.fillSector a no whole acc i).1.Inv := by
  have hc := State.inv_checkSector h a (2 * no + i)
  unfold State.fillSector
  dsimp only
  split
  · next heq => split at heq <;> simp_all [Prod.ext_iff]
  · next heq => split at heq <;> simp_all [Prod.ext_iff]

/-- An access to a line of its home slice keeps the canonical form. -/
theorem State.inv_openLine {s : State} (h : s.Inv) (a : Access) (no : Nat) (whole : Nat → Bool) : (s.openLine a no whole).1.Inv := by
  have hc : ((s.settleWays (s.homeSlice (128 * no))).countLine a (128 * no)).1.Inv := State.inv_of_mem (by simp) h
  unfold State.openLine
  dsimp only
  generalize (s.settleWays (s.homeSlice (128 * no))).countLine a (128 * no) = r at hc ⊢
  obtain ⟨t, retained⟩ := r
  dsimp only
  split
  · dsimp only
    split
    · exact State.inv_placeLine (State.inv_of_mem (by simp) hc) ..
    · exact State.inv_of_mem (by simp) hc
  · have hf : ([0, 1].foldl (State.fillSector a no whole) (t, [])).1.Inv :=
      State.inv_fillSector a no whole (State.inv_fillSector a no whole hc 0) 1
    generalize [0, 1].foldl (State.fillSector a no whole) (t, []) = r at hf ⊢
    obtain ⟨u, ws⟩ := r
    dsimp only
    split
    · exact hf
    · exact State.inv_placeLine hf ..

theorem State.inv_lineWords {s : State} (h : s.Inv) (a : Access) (pa n : Nat) : (s.lineWords a pa n).1.Inv := by
  unfold State.lineWords
  split
  · exact h
  · exact State.inv_openLine h a (pa / 128) fun _ => false

theorem State.inv_homeWords (a : Access) (fuel : Nat) : ∀ {s : State} (pa n : Nat), s.Inv → (s.homeWords a fuel pa n).1.Inv := by
  induction fuel with
  | zero => intro s pa n h; exact h
  | succ fuel ih =>
    intro s pa n h
    simp only [State.homeWords]
    split
    · exact h
    · exact ih _ _ (State.inv_lineWords h ..)

theorem State.inv_homeRead {s : State} (h : s.Inv) (a : Access) (pa n : Nat) : (s.homeRead a pa n).1.Inv := by
  have hw := State.inv_homeWords a ((pa + n - pa / 4 * 4 + 3) / 4 + 1) (pa / 4 * 4) ((pa + n - pa / 4 * 4 + 3) / 4) h
  unfold State.homeRead
  dsimp only
  exact hw

/-! ## Every write keeps the canonical form -/

theorem State.inv_mergeWord (own : Nat) {acc : State × Line} (h : acc.1.Inv) (j : Nat) (w : PWord) (mask : Nat) :
    (State.mergeWord own acc j w mask).1.Inv := by
  unfold State.mergeWord
  split
  · exact h
  · dsimp only
    split
    · exact h
    · exact State.inv_of_mem (by simp) h

theorem State.inv_mergeWords (own first : Nat) : ∀ (l : List ((PWord × Nat) × Nat)) {acc : State × Line}, acc.1.Inv →
    (l.foldl (fun acc w => State.mergeWord own acc (first + w.2) w.1.1 w.1.2) acc).1.Inv
  | [], _, h => h
  | w :: l, _, h => State.inv_mergeWords own first l (State.inv_mergeWord own h (first + w.2) w.1.1 w.1.2)

theorem State.inv_lineWrite {s : State} (h : s.Inv) (a : Access) (own pa : Nat) (ws : List (PWord × Nat)) : (s.lineWrite a own pa ws).Inv := by
  unfold State.lineWrite
  dsimp only
  split
  · exact h
  · split
    · exact State.inv_of_mem (State.forEach_mem (by simp) _ _) h
    · generalize hq : (State.openLine s a (pa / 128) _) = r
      have ho : r.1.Inv := hq ▸ State.inv_openLine h a (pa / 128) _
      split
      · exact State.inv_of_mem (State.forEach_mem (by simp) _ _) ho
      · exact State.inv_setLine (State.inv_mergeWords own (pa % 128 / 4) ws.zipIdx ho) ..

theorem State.inv_homeWrite (a : Access) (own fuel : Nat) : ∀ {s : State} (pa : Nat) (ws : List (PWord × Nat)), s.Inv → (s.homeWrite a own fuel pa ws).Inv := by
  induction fuel with
  | zero => intro s pa ws h; exact h
  | succ fuel ih =>
    intro s pa ws h
    simp only [State.homeWrite]
    split
    · exact h
    · exact ih _ _ (State.inv_lineWrite h ..)

/-- A write that bypasses the stash keeps the canonical form. -/
theorem State.inv_homePut {s : State} (h : s.Inv) (a : Access) (pa n val : Nat) (psn : Bool) : (s.homePut a pa n val psn).Inv :=
  State.inv_homeWrite a 0 _ _ _ h

theorem State.inv_orPte {s : State} (h : s.Inv) (part pa bits : Nat) : (s.orPte part pa bits).Inv := by
  have hr := State.inv_homeRead h ⟨part, 0, none, none⟩ pa 8
  unfold State.orPte
  split
  · next s' v psn heq =>
    rw [heq] at hr
    split
    · exact hr
    · exact State.inv_homePut hr ..

/-- A region that is filled anew is empty, and memory canonical. -/
theorem State.inv_fillRegion {s : State} (h : s.Inv) (g k : Nat) : (s.fillRegion g k).Inv := by
  refine Tab.wf_filter 0 _ (m := (s.forEach _ _).mem) ?_
  exact State.forEach_keeps State.Inv (fun _ n ht => State.inv_leaveLines ht n _) _ s h

end Sys2Proof.Machine
end

