-- ==== Sys2Proof/Laws/Ops.lean ====
section
/-! SUPPORT. What each shared operation does, said once: the issuing context, the guard, the results of the slots, a trap, a stall. -/

namespace Sys2Proof.Machine

/-! ## An atomic that waits for another slot of its bundle -/

/-- Where no atomic of a context waits, none lands. -/
theorem State.landLate_none {s : State} {c n : Nat} {x : Ctx} (hx : s.ctx? c n = some x) (hl : x.late = none) : s.landLate c n = s := by
  simp [State.landLate, hx, hl]

/-- One that waits lands once: it is taken out of its context first. -/
theorem State.landLate_some {s : State} {c n : Nat} {x : Ctx} {y : ReadyAtomic} (hx : s.ctx? c n = some x) (hl : x.late = some y) :
    s.landLate c n = (s.updCtx c n fun x => { x with late := none }).atomLand c n y := by
  simp [State.landLate, hx, hl]

/-! ## Attempts -/

@[simp] theorem Try.bind_ok {α β : Type} (s : State) (a : α) (f : State → α → Try β) : (Try.ok s a).bind f = f s a := rfl
@[simp] theorem Try.bind_trap {α β : Type} (s : State) (c : Nat) (i : Word64) (f : State → α → Try β) : (Try.trap s c i : Try α).bind f = .trap s c i := rfl
@[simp] theorem Try.bind_wait {α β : Type} (s : State) (f : State → α → Try β) : (Try.wait s : Try α).bind f = .wait s := rfl
@[simp] theorem Try.bind_kill {α β : Type} (s : State) (k a : Nat) (f : State → α → Try β) : (Try.kill s k a : Try α).bind f = .kill s k a := rfl
@[simp] theorem Try.finish_ok (s t : State) : (Try.ok s t).finish = t := rfl
@[simp] theorem Try.finish_trap (s : State) (c : Nat) (i : Word64) : (Try.trap s c i : Try State).finish = s.trap c i := rfl
@[simp] theorem Try.finish_wait (s : State) : (Try.wait s : Try State).finish = s := rfl
@[simp] theorem Try.finish_kill (s : State) (k a : Nat) : (Try.kill s k a : Try State).finish = s.poisonKill k a := rfl

/-! ## The issuing context and the guard -/

/-- The issuer is the context that issues. -/
theorem State.issues.issuer_eq {s : State} {k : Core} {n : Nat} {x : Ctx} (h : s.issues k n x) : s.issuer = some (k, n, x) := by
  obtain ⟨h1, h2, h3⟩ := h
  simp [State.issuer, h1, h2, h3]

theorem State.issues.ctx?_eq {s : State} {k : Core} {n : Nat} {x : Ctx} (h : s.issues k n x) : s.ctx? s.cur n = some x := by
  obtain ⟨h1, h2, h3⟩ := h
  simp [State.ctx?, h1, h3]

/-- A slot operation acts for the context that issues. -/
theorem slotOp_eq {s : State} {k : Core} {n : Nat} {x : Ctx} (h : s.issues k n x) (f : Core → Nat → Ctx → State) : slotOp s f = .next (f k n x) := by
  simp [slotOp, h.issuer_eq]

/-- A slot operation never refuses, and faults only where no context issues. -/
theorem slotOp_next {s t : State} {f : Core → Nat → Ctx → State} (h : slotOp s f = .next t) : ∃ k n x, s.issuer = some (k, n, x) ∧ t = f k n x := by
  unfold slotOp at h
  split at h
  · cases h
  · next k n x hi => exact ⟨k, n, x, hi, by simpa using h.symm⟩

/-- An operation whose guard passes is attempted. -/
theorem guarded_of_passes {s : State} {k : Core} {n : Nat} {x : Ctx} {g : Guard} {b : Bank} (h : s.issues k n x) (hg : s.passes g b)
    (f : Core → Nat → Ctx → Try State) : guarded s g b f = .next (f k n x).finish := by
  simp only [State.passes] at hg
  simp [guarded, slotOp_eq h, hg]

/-- An operation whose guard fails has no effect. -/
theorem guarded_of_fails {s : State} {k : Core} {n : Nat} {x : Ctx} {g : Guard} {b : Bank} (h : s.issues k n x) (hg : Guard.ok g b s.bun.old = false)
    (f : Core → Nat → Ctx → Try State) : guarded s g b f = .next s := by
  simp [guarded, slotOp_eq h, hg]

/-- An I-slot operation whose guard passes writes its register. -/
theorem iResult_of_passes {s : State} {k : Core} {n : Nat} {x : Ctx} {g : Guard} (h : s.issues k n x) (hg : s.passes g .pi) (sl : ISlot) (d : Reg5) (lat : Nat)
    (v : RV) : iResult s sl g d lat v = .next (s.writeXY (ISlot.y sl) d (v.taint (Guard.psn g .pi s.bun.old)) lat) := by
  simp only [State.passes] at hg
  simp [iResult, slotOp_eq h, hg]

/-- A C-slot operation whose guard passes writes its register. -/
theorem cResult_of_passes {s : State} {k : Core} {n : Nat} {x : Ctx} {g : Guard} (h : s.issues k n x) (hg : s.passes g .pk) (d : CReg) (lat : Nat) (v : RV) :
    cResult s g d lat v = .next (s.writeC d (v.taint (Guard.psn g .pk s.bun.old)) lat) := by
  simp only [State.passes] at hg
  simp [cResult, slotOp_eq h, hg]

/-- A predicate result whose guard passes. -/
theorem pResult_of_passes {s : State} {k : Core} {n : Nat} {x : Ctx} {g : Guard} {b : Bank} (h : s.issues k n x) (hg : s.passes g b) (d : Reg5) (lat : Nat) (v : PV) :
    pResult s g b d lat v = .next (s.writeP b d (v.taint (Guard.psn g b s.bun.old)) lat) := by
  simp only [State.passes] at hg
  simp [pResult, slotOp_eq h, hg]

/-! ## Changing the issuing context -/

theorem State.updIssuer_eq {s : State} {k : Core} {n : Nat} {x : Ctx} (h : s.issues k n x) (f : Ctx → Ctx) : s.updIssuer f = s.updCtx s.cur n f := by
  simp [State.updIssuer, h.issuer_eq]

theorem State.writeXY_eq {s : State} {k : Core} {n : Nat} {x : Ctx} (h : s.issues k n x) (y : Bool) (d : Reg5) (v : RV) (lat : Nat) :
    s.writeXY y d v lat = s.updCtx s.cur n fun x => x.putXY s.cycle y d.toNat v lat := State.updIssuer_eq h _

theorem State.writeC_eq {s : State} {k : Core} {n : Nat} {x : Ctx} (h : s.issues k n x) (d : CReg) (v : RV) (lat : Nat) :
    s.writeC d v lat = s.updCtx s.cur n fun x => x.putC s.cycle d.toNat v lat := State.updIssuer_eq h _

theorem State.writeP_eq {s : State} {k : Core} {n : Nat} {x : Ctx} (h : s.issues k n x) (b : Bank) (d : Reg5) (v : PV) (lat : Nat) :
    s.writeP b d v lat = s.updCtx s.cur n fun x => x.putP s.cycle b d.toNat v lat := State.updIssuer_eq h _

/-- A write of a context leaves everything but the cores. -/
theorem State.updCtx_eq_with (s : State) (c n : Nat) (f : Ctx → Ctx) : s.updCtx c n f = { s with cores := (s.updCtx c n f).cores } := by
  unfold State.updCtx State.updCore
  split <;> rfl

/-! ## Traps -/

/-- A precise trap that enters (12 R284). -/
theorem State.trap_of_traps {s : State} {k : Core} {n : Nat} {x : Ctx} (h : s.issues k n x) (ht : x.traps true = true) (cause : Nat) (info : Word64) :
    s.trap cause info = ((({ s with bun := { s.bun with status := .trapped } } : State).endHolding s.cur n).updCtx s.cur n fun x =>
      { x.enterTrap s.bun.pc cause false info (brpendOf s.bun.win) with timer := none }).updCore s.cur fun k => { k with freeAt := s.cycle + 5 } := by
  simp [State.trap, h.issuer_eq, ht]

/-- A precise trap that does not enter kills (12 R284, R287). -/
theorem State.trap_of_not_traps {s : State} {k : Core} {n : Nat} {x : Ctx} (h : s.issues k n x) (ht : x.traps true = false) (cause : Nat) (info : Word64) :
    s.trap cause info = (({ s with bun := { s.bun with status := .trapped } } : State).endHolding s.cur n).kill s.cur n cause info := by
  simp [State.trap, h.issuer_eq, ht]

/-! ## Registers -/

@[simp] theorem Regs.getX_zero (r : Regs) : r.getX 0 = RV.zero := rfl
@[simp] theorem Regs.getY_zero (r : Regs) : r.getY 0 = RV.zero := rfl
@[simp] theorem Regs.getC_zero (r : Regs) : r.getC 0 = RV.zero := rfl

theorem Regs.getX_setX_ne (r : Regs) (v : RV) {n m : Nat} (h : m ≠ n) : (r.setX n v).getX m = r.getX m := by
  unfold Regs.setX Regs.getX
  split
  · rfl
  · split
    · rfl
    · exact Tab.get_set_ne RV.zero v r.x h

theorem Regs.getY_setY_ne (r : Regs) (v : RV) {n m : Nat} (h : m ≠ n) : (r.setY n v).getY m = r.getY m := by
  unfold Regs.setY Regs.getY
  split
  · rfl
  · split
    · rfl
    · exact Tab.get_set_ne RV.zero v r.y h

theorem Regs.getC_setC_ne (r : Regs) (v : RV) {n m : Nat} (h : m ≠ n) : (r.setC n v).getC m = r.getC m := by
  unfold Regs.setC Regs.getC
  split
  · rfl
  · split
    · rfl
    · exact Tab.get_set_ne RV.zero v r.c h

theorem Regs.getV_setV_ne (r : Regs) (v : VV) {n m : Nat} (h : m ≠ n) : (r.setV n v).getV m = r.getV m := Tab.get_set_ne (⟨0, 0⟩ : VV) v r.v h

theorem Regs.getPk_setPk_ne (r : Regs) (v : PV) {n m : Nat} (h : m ≠ n) : (r.setPk n v).getPk m = r.getPk m := by
  unfold Regs.setPk Regs.getPk
  split
  · rfl
  · split
    · rfl
    · exact Tab.get_set_ne (⟨0, false⟩ : PV) v r.pk h

theorem Regs.getPi_setPi_ne (r : Regs) (v : PV) {n m : Nat} (h : m ≠ n) : (r.setPi n v).getPi m = r.getPi m := by
  unfold Regs.setPi Regs.getPi
  split
  · rfl
  · split
    · rfl
    · exact Tab.get_set_ne (⟨0, false⟩ : PV) v r.pi h

theorem Regs.getPv_setPv_ne (r : Regs) (v : PV) {n m : Nat} (h : m ≠ n) : (r.setPv n v).getPv m = r.getPv m := by
  unfold Regs.setPv Regs.getPv
  split
  · rfl
  · split
    · rfl
    · exact Tab.get_set_ne (⟨0, false⟩ : PV) v r.pv h

/-! ## Semaphores -/

theorem Core.sem_setSem_ne (k : Core) (v : Sem) {n m : Nat} (h : m ≠ n) : (k.setSem n v).sem m = k.sem m :=
  Tab.get_set_ne (⟨0, false, false⟩ : Sem) v k.sems h

/-- A semaphore that takes a value that is not all zero reads it. -/
theorem Core.sem_setSem_same (k : Core) (n : Nat) {v : Sem} (h : v ≠ ⟨0, false, false⟩) : (k.setSem n v).sem n = v := Tab.get_set_same _ k.sems n h

@[simp] theorem Core.mapCtxs_sem (k : Core) (f : Nat → Ctx → Ctx) (n : Nat) : (k.mapCtxs f).sem n = k.sem n := rfl

end Sys2Proof.Machine
end

