-- ==== Sys2Proof/Tests/Slice0.lean ====
section
/-! SUPPORT. The model's own tests: words worked out in the spec decode to what they stand for; an ill-formed term for each check of WellFormed;
for every obligation that has hypotheses, a state and operands that meet them. -/

namespace Sys2Proof.Tests

open Sys2Proof Sys2Proof.Machine

set_option maxRecDepth 100000
set_option Elab.async false

/-! ## Encodings: words worked out in the spec -/

/-- A guard field of zeros. -/
abbrev always : Guard := ⟨false, false, 0⟩

-- 15 AADD to BRC, 16, 17, 18, 19: the examples under Encoding
theorem test_decode_control :
    decodeSlot .c 0x0800CFFD none = .ok (.brc ⟨always, 3, .ne, 0x7FD⟩) ∧ decodeSlot .c 0x10000380 none = .ok (.call ⟨always, 0x380⟩) ∧
    decodeSlot .c 0x14000000 none = .ok (.ret ⟨always⟩) ∧ decodeSlot .c 0x1800C0A0 none = .ok (.loop ⟨always, 3, 5⟩) ∧
    decodeSlot .c 0x1C000000 none = .ok (.eret ⟨always⟩) ∧ decodeSlot .c 0x20000007 none = .ok (.trap ⟨always, 7⟩) ∧
    decodeSlot .c 0x24000000 none = .ok (.yield ⟨always⟩) ∧
    decodeSlot .c 0x0C024400 (some 0x00000503) = .ok (.mwb ⟨always, 1, 2, 4, 3, 5, 0, 0⟩) := by decide

theorem test_decode_system :
    decodeSlot .c 0x40014080 none = .ok (.mfsr ⟨always, 5, 0x008⟩) ∧ decodeSlot .c 0x44019C30 none = .ok (.mtsr ⟨always, 6, 0x1C3⟩) ∧
    decodeSlot .c 0x48010A00 none = .ok (.tlbi ⟨always, 4, 5⟩) ∧ decodeSlot .c 0x28000000 none = .ok (.retire ⟨always⟩) ∧
    decodeSlot .c 0x2C000000 none = .ok (.halt ⟨always⟩) := by decide

theorem test_decode_integer :
    decodeSlot .i0 0x08014C64 none = .ok (.addiI ⟨.i0, always, 5, 6, 100⟩) ∧ decodeSlot .i0 0x0C00C853 none = .ok (.sub ⟨.i0, always, 3, 4, 5, .i64⟩) ∧
    decodeSlot .i1 0x38008642 none = .ok (.sra ⟨.i1, always, 2, 3, 4, .i32⟩) ∧ decodeSlot .i0 0x1400C857 none = .ok (.mulh ⟨.i0, always, 3, 4, 5, .n64⟩) ∧
    decodeSlot .i1 0x1C00C853 none = .ok (.rem ⟨.i1, always, 3, 4, 5, .i64⟩) ∧ decodeSlot .i1 0x4C010A62 none = .ok (.max ⟨.i1, always, 4, 5, 6, .i32⟩) ∧
    decodeSlot .i0 0x54014C73 none = .ok (.sel ⟨.i0, always, 5, 6, 7, 3⟩) ∧ decodeSlot .i0 0x5C011207 none = .ok (.cmpiI ⟨.i0, always, 4, 9, 7⟩) ∧
    decodeSlot .i0 0x64014010 none = .ok (.lih ⟨.i0, always, 5, 16⟩) ∧
    decodeSlot .i0 0x68014436 (some 0x10) = .ok (.lea64 ⟨.i0, always, 5, 2, 3, 3, 0x10⟩) ∧
    decodeSlot .i1 0x74018A00 none = .ok (.xmovI ⟨.i1, always, 6, 5, .x⟩) := by decide

theorem test_decode_c_arithmetic :
    decodeSlot .c 0x6C00C003 none = .ok (.liC ⟨always, 3, 3⟩) ∧ decodeSlot .c 0x6800C7FF none = .ok (.addiC ⟨always, 3, 3, 0x1FF⟩) ∧
    decodeSlot .c 0x7003C600 none = .ok (.xmovC ⟨always, 15, 3, .x⟩) := by decide

theorem test_decode_predicate :
    decodeSlot .f 0xA000C220 none = .ok (.pandIF ⟨.f, always, 3, 1, 2⟩) ∧ decodeSlot .i0 0xB0017FFF none = .ok (.psetIF ⟨.i0, always, 5, 0x3FFF⟩) ∧
    decodeSlot .i0 0xB4010E00 none = .ok (.pmovIF ⟨.i0, always, 4, 7, .pk⟩) := by decide

theorem test_decode_memory :
    decodeSlot .i1 0x80010683 none = .ok (.ld ⟨.i1, always, 4, 3, 8, .i64⟩) ∧ decodeSlot .i0 0x8801C5E6 none = .ok (.lda ⟨.i0, always, 7, 2, 0x1E, .n32⟩) ∧
    decodeSlot .i0 0x8401C422 none = .ok (.st ⟨.i0, always, 7, 2, 2, .i32⟩) ∧ decodeSlot .f 0x80014480 (some 0x100) = .ok (.vld64 ⟨always, 5, 2, false, .f32, 0x100⟩) ∧
    decodeSlot .f 0x88018789 none = .ok (.vgath ⟨always, 6, 3, true, 9⟩) := by decide

theorem test_decode_vector :
    decodeSlot .f 0x0400C220 none = .ok (.vadd ⟨always, 3, 1, 2, false, false, .f32, false⟩) ∧
    decodeSlot .f 0x0400C228 none = .ok (.vadd ⟨always, 3, 1, 2, true, false, .f32, false⟩) ∧
    decodeSlot .f 0x10010220 (some 3) = .ok (.vfma ⟨always, 4, 1, 2, 3, false, false, false, .f32⟩) ∧
    decodeSlot .f 0x68014000 none = .ok (.viota ⟨always, 5, .f32, false⟩) ∧
    decodeSlot .f 0x28010220 (some 0x80) = .ok (.vcmp ⟨always, 4, 1, 2, false, false, .f32, .lt, false⟩) ∧
    decodeSlot .f 0x58004200 (some 0x200) = .ok (.vcswap ⟨always, 1, 1, 0, false, false, .f32, 0, true, 0, false⟩) ∧
    decodeSlot .f 0x30008200 (some 0x1280) = .ok (.vcvt ⟨always, 2, 1, false, .f32, .e4m3, 4⟩) ∧
    decodeSlot .f 0x5001C600 none = .ok (.vred ⟨always, 7, 3, false, .f32, .add, false⟩) := by decide

theorem test_decode_matrix :
    decodeSlot .m 0x34000500 (some 0x21) = .ok (.mbfly64 ⟨always, 0, 1, false, true⟩ ⟨0, 0, 2, 1⟩) ∧
    decodeSlot .m 0x18001200 none = .ok (.mbld ⟨always, 4, 256⟩) ∧ decodeSlot .m 0x04078700 none = .ok (.mcfg ⟨always, 3, 3, 7⟩) ∧
    decodeSlot .m 0x08055400 none = .ok (.mfmt ⟨always, .e4m3, .e4m3, true⟩) ∧ decodeSlot .m 0x30010600 none = .ok (.mtrn ⟨always, 4, 3⟩) ∧
    decodeSlot .m 0x38001DF8 none = .ok (.mtwid ⟨always, 0x3BF, false⟩) ∧ decodeSlot .m 0x2001062C none = .ok (.mzrd ⟨always, 4, 3, 5, true, .f32⟩) := by decide

theorem test_decode_queue :
    decodeSlot .q 0x1C008640 (some 0x31) = .ok (.qrcopy64 ⟨always, 2, 3, 4, false⟩ ⟨0, 0, 3, 1⟩) ∧
    decodeSlot .q 0x08010000 (some 0x51) = .ok (.qld64 ⟨always, 2⟩ ⟨0, 0, 5, 1⟩) ∧ decodeSlot .q 0x2400C000 none = .ok (.gcfg ⟨always, 3, false, 0, false⟩) ∧
    decodeSlot .q 0x28010A00 none = .ok (.grun ⟨always, 4, 5, false, false⟩) ∧ decodeSlot .q 0x30018000 none = .ok (.qsave ⟨always, 6, false⟩) ∧
    decodeSlot .q 0x40008600 none = .ok (.spin ⟨always, 2, 3, false⟩) := by decide

theorem test_decode_y :
    decodeSlot .y 0x0A186001 (some 0x07003000) = .ok (.semadd64 ⟨⟨true, false, 3⟩, 12, 1⟩ ⟨7, 3, 0, 0⟩) ∧
    decodeSlot .y 0x04003800 none = .ok (.semset ⟨always, 7, 0⟩) ∧ decodeSlot .y 0x0C002002 none = .ok (.semwait ⟨always, 4, 2⟩) ∧
    decodeSlot .y 0x2000C447 none = .ok (.aadd ⟨always, 3, 2, 4, false, 3, true⟩) ∧ decodeSlot .y 0x4800A000 (some 0x91) = .ok (.chstart64 ⟨always, 5⟩ ⟨0, 0, 9, 1⟩) ∧
    decodeSlot .y 0x54024000 none = .ok (.rdtime ⟨always, 9, false⟩) ∧ decodeSlot .y 0x500100C2 none = .ok (.tstart ⟨always, 4, false, 6, 1⟩) ∧
    decodeSlot .y 0x18020000 (some 0x11) = .ok (.step64 ⟨always, true⟩ ⟨0, 0, 1, 1⟩) := by decide

-- 04, "A bundle encoded": three operations and a synchronisation word
theorem test_decode_bundle :
    (decodeHeader 0x05002046).map (fun h => slotWords h Slot.all [0x08014C64, 0x80010683, 0x0A186001, 0x07003000]) =
      some [⟨.i0, 0x08014C64, none⟩, ⟨.i1, 0x80010683, none⟩, ⟨.y, 0x0A186001, some 0x07003000⟩] := by decide

-- 04 R85: opcode 0 of every slot is unassigned; R79: a c register field of 16
theorem test_decode_refuses :
    Slot.all.all (fun sl => decodeSlot sl 0 none == .error .unassigned) = true ∧ decodeSlot .c 0x6C040003 none = .error .field := by decide

/-! ## Well-formedness: a term that fails each check -/

theorem test_wf_guard : Instr.wf (.yield ⟨⟨false, true, 0⟩⟩) = false := by decide
theorem test_wf_loop_size : Instr.wf (.loop ⟨always, 3, 0⟩) = false ∧ Instr.wf (.loop ⟨always, 3, 481⟩) = false := by decide
theorem test_wf_xmov : Instr.wf (.xmovC ⟨always, 3, 16, .c⟩) = false ∧ Instr.wf (.xmovI ⟨.i0, always, 3, 16, .c⟩) = false := by decide
theorem test_wf_abs_type : Instr.wf (.abs ⟨.i0, always, 3, 4, .n32⟩) = false := by decide
theorem test_wf_acquire_type : Instr.wf (.ldacq ⟨.i0, always, 3, 4, 0, .i16⟩) = false ∧ Instr.wf (.strel ⟨.i0, always, 3, 4, 0, .n8⟩) = false ∧
    Instr.wf (.ldacq64 ⟨.i0, always, 3, 4, 0, .i16⟩) = false ∧ Instr.wf (.strel64 ⟨.i0, always, 3, 4, 0, .n8⟩) = false := by decide
theorem test_wf_format_pair : Instr.wf (.mfmt ⟨always, .bf16, .f32, false⟩) = false ∧ Instr.wf (.mfmt64 ⟨always, .f32, .f32, true⟩ Sync.none) = false := by decide
theorem test_wf_half : Instr.wf (.mzrd ⟨always, 4, 3, 5, true, .bf16⟩) = false ∧ Instr.wf (.mzwr ⟨always, 4, 3, 5, true, .bf16⟩) = false ∧
    Instr.wf (.mzrd64 ⟨always, 4, 3, 5, true, .bf16⟩ Sync.none) = false ∧ Instr.wf (.mzwr64 ⟨always, 4, 3, 5, true, .bf16⟩ Sync.none) = false ∧
    Instr.wf (.vcmp ⟨always, 4, 1, 2, false, false, .f32, .lt, true⟩) = false ∧ Instr.wf (.vclass ⟨always, 4, 1, false, .f32, 1, true⟩) = false := by decide
theorem test_wf_points : Instr.wf (.mtwid ⟨always, 0, false⟩) = false ∧ Instr.wf (.mtwid64 ⟨always, 0, false⟩ Sync.none) = false := by decide
theorem test_wf_scope : Instr.wf (.fence ⟨always, 1, 1, 6⟩) = false := by decide
theorem test_wf_increment : Instr.wf (.tstart ⟨always, 4, false, 6, 0⟩) = false := by decide
theorem test_wf_tests : Instr.wf (.mwb ⟨always, 0, 0, 4, 3, 5, 0, 0⟩) = false ∧ Instr.wf (.mwb ⟨always, 1, 0, 14, 3, 5, 0, 0⟩) = false ∧
    Instr.wf (.mwb ⟨always, 0, 2, 4, 3, 0, 0, 0⟩) = false := by decide
theorem test_wf_bit_field : Instr.wf (.bfxImm ⟨.i0, always, 3, 4, 60, 4, false⟩) = false ∧ Instr.wf (.bfiImm ⟨.i0, always, 3, 4, 60, 4⟩) = false := by decide
theorem test_wf_convert : Instr.wf (.vcvt ⟨always, 2, 1, false, .bf16, .bf16, 0⟩) = false ∧ Instr.wf (.vcvt ⟨always, 2, 1, false, .f32, .f32, 0⟩) = false := by decide
theorem test_wf_compare_swap : Instr.wf (.vcswap ⟨always, 1, 1, 0, false, false, .f32, 5, true, 0, false⟩) = false ∧
    Instr.wf (.vcswap ⟨always, 1, 1, 0, false, false, .f32, 2, true, 2, false⟩) = false ∧
    Instr.wf (.vcswap ⟨always, 1, 1, 3, false, false, .f32, 0, true, 0, false⟩) = false := by decide
theorem test_wf_lane_index : Instr.wf (.vbcast64 ⟨always, 1, 1, false, .f32, 32⟩) = false := by decide
theorem test_wf_comparand : Instr.wf (.aadd64 ⟨always, 3, 2, 4, 5, false, 0, true, false, 0⟩) = false ∧
    Instr.wf (.aand64 ⟨always, 3, 2, 4, 5, false, 0, true, false, 0⟩) = false ∧ Instr.wf (.aor64 ⟨always, 3, 2, 4, 5, false, 0, true, false, 0⟩) = false ∧
    Instr.wf (.axor64 ⟨always, 3, 2, 4, 5, false, 0, true, false, 0⟩) = false ∧ Instr.wf (.amin64 ⟨always, 3, 2, 4, 5, false, 0, true, false, 0⟩) = false ∧
    Instr.wf (.amax64 ⟨always, 3, 2, 4, 5, false, 0, true, false, 0⟩) = false ∧ Instr.wf (.aswp64 ⟨always, 3, 2, 4, 5, false, 0, true, false, 0⟩) = false := by decide
/-! ## A small state: partition 0 on cluster 0, context 0 of core 0 issues -/

/-- The registers of the demo context: x2 a base in the first page, x3 to x5 hold 5, 7 and 8; c3 = 3 and c4 an aligned address. -/
def demoRegs : Regs := ⟨[(2, ⟨0x40000, false⟩), (3, ⟨5, false⟩), (4, ⟨7, false⟩), (5, ⟨8, false⟩)], [], [(3, ⟨3, false⟩), (4, ⟨0x10000, false⟩), (15, ⟨0x20000, false⟩)], [], [], [], []⟩
/-- The demo context: it issues, with its trap routine at 0x8000. -/
def demoX : Ctx := { Ctx.empty with st := .issuing, regs := demoRegs, pc := 0x10000, sr := CtxRegs.fresh 0x8001, timer := some 0 }
/-- A row of the stash that holds the block of x2, every byte valid. -/
def demoRow : Row := ⟨0x400, 0, BitVec.allOnes 256, 0, 0, 0, false, 0x40000, 0, 0, 0, 29⟩
/-- The demo core: its TLB holds the page of the first 512 MiB; sem1 holds 5; q2 is a stream register of context 0. -/
def demoK : Core := { Core.fresh 0 0 with
  launch := some 0, issuing := some 0, ctxs := [(0, some demoX), (1, some Ctx.empty), (2, some Ctx.empty), (3, some Ctx.empty)]
  tlb := [⟨0, 0, 29, 0x300F, 0x30000⟩], sems := [(1, ⟨5, false, false⟩)] }
/-- Partition 0 has every cluster and channel region; its control context is context 1 of core 0. -/
def demoP : Part := { Part.fresh { plantEntry with ctlctx := 1 } with keys := [(0, some ⟨0, 0, 0⟩)] }
/-- The image of one cluster without tasks. -/
def demoImg : Image := ⟨1, 1, false, [], [], [], 0⟩
/-- The launch that core 0 runs. -/
def demoL : Launch := ⟨0, ⟨0x100000, 0, 0x200000, 0, 0, 0, 0, false, false, 0, false⟩, 0, 0, 1, 1, 0, 0, [], false, false, true, none, demoImg⟩
/-- The machine at cycle 200. -/
def demo : State := { State.reset with
  cycle := 200, time18 := 2400, parts := [(0, some demoP)], cores := [(0, some demoK)]
  clusters := [(0, some { Cluster.fresh with launch := some 0, gated := false })], launches := [(0, some demoL)], nextLaunch := 1
  routers := [(0, some { Router.fresh with part := some 0 })], slices := [(0, some Slice.fresh)], ports := [(0, some Port.fresh)]
  bun := ⟨0x10000, 8, 0, demoRegs, demoRegs, none, [], [], true, .normal, 0⟩ }
/-- The demo machine with another context 0. -/
def demoWith (x : Ctx) : State := demo.updCtx 0 0 fun _ => x
/-- The demo context in its trap routine: privileged. -/
def demoT : Ctx := { demoX with sr := { demoX.sr with tmode := true } }
/-- The demo machine with its context privileged. -/
def demoPriv : State := demoWith demoT
/-- The demo core changed. -/
def demoCore (f : Core → Core) : State := demo.updCore 0 f

theorem demo_issues : demo.issues demoK 0 demoX := ⟨by decide +kernel, by decide +kernel, by decide +kernel⟩

/-- What a table gives for a key stands in it. -/
theorem get_mem {α : Type} [DecidableEq α] {m : Tab (Option α)} {n : Nat} {x : α} (h : Tab.get none m n = some x) : (n, some x) ∈ m := by
  induction m with
  | nil => simp [Tab.get] at h
  | cons a m ih =>
    obtain ⟨j, v⟩ := a
    simp only [Tab.get] at h
    split at h
    · next e => simp [← h, e]
    · exact List.mem_cons_of_mem _ (ih h)

/-! ## Results worked out in the spec -/

/-- The registers after one operation of the demo context on some registers. -/
def after (r : Regs) (i : Instr) : Option Regs :=
  match exec i { demo with bun := { demo.bun with old := r } } with
  | .next t => (t.ctx? 0 0).map (·.regs)
  | .fault _ => none
  | .refused _ => none
/-- x5 and x6 as given. -/
def two (a b : Word64) : Regs := ⟨[(5, ⟨a, false⟩), (6, ⟨b, false⟩)], [], [], [], [], [], []⟩
/-- The value that an operation leaves in x4. -/
def x4 (a b : Word64) (i : Instr) : Option Word64 := (after (two a b) i).map fun r => (r.getX 4).v

-- 15 ABS: only the low 32 bits are read
theorem test_abs_i32 : x4 0x0000000180000000 0 (.abs ⟨.i0, always, 4, 5, .i32⟩) = some 0xFFFFFFFF80000000 := by decide +kernel
-- 15 ADD: 0xFF + 0x80 as .i8 is 0x7F
theorem test_add_wraps : x4 0xFF 0x80 (.add ⟨.i0, always, 4, 5, 6, .i8⟩) = some 0x7F ∧ x4 0xFF 0x01 (.add ⟨.i0, always, 4, 5, 6, .n8⟩) = some 0 := by decide +kernel
-- 15 BFX: bits [15:8] of 0xF0A5, signed and unsigned
theorem test_bfx_sign :
    x4 0xF0A5 0 (.bfxImm ⟨.i0, always, 4, 5, 8, 7, true⟩) = some 0xFFFFFFFFFFFFFFF0 ∧ x4 0xF0A5 0 (.bfxImm ⟨.i0, always, 4, 5, 8, 7, false⟩) = some 0xF0 := by decide +kernel
-- 16 DIV: the most negative byte by −1
theorem test_div_corner : x4 0x80 0xFF (.div ⟨.i0, always, 4, 5, 6, .i8⟩) = some 0xFFFFFFFFFFFFFF80 := by decide +kernel
-- 16 DIV: a zero divisor
theorem test_div_zero : x4 7 0 (.div ⟨.i0, always, 4, 5, 6, .n64⟩) = some 0xFFFFFFFFFFFFFFFF ∧ x4 7 0 (.rem ⟨.i0, always, 4, 5, 6, .n64⟩) = some 7 := by decide +kernel
-- 17 MAX
theorem test_max_type : x4 0x80 0x01 (.max ⟨.i0, always, 4, 5, 6, .i8⟩) = some 1 ∧ x4 0x80 0x01 (.max ⟨.i0, always, 4, 5, 6, .n8⟩) = some 0x80 := by decide +kernel
-- 17 MULH
theorem test_mulh :
    x4 0xFFFFFFFFFFFFFFFF 1 (.mulh ⟨.i0, always, 4, 5, 6, .i64⟩) = some 0xFFFFFFFFFFFFFFFF ∧
    x4 0xFFFFFFFFFFFFFFFF 0xFFFFFFFFFFFFFFFF (.mulh ⟨.i0, always, 4, 5, 6, .n64⟩) = some 0xFFFFFFFFFFFFFFFE := by decide +kernel
-- 18 SHL to ROTL
theorem test_shifts :
    x4 0x80 200 (.sra ⟨.i0, always, 4, 5, 6, .i8⟩) = some 0xFFFFFFFFFFFFFFFF ∧ x4 1 64 (.shl ⟨.i0, always, 4, 5, 6, .n64⟩) = some 0 ∧
    x4 0x8001 17 (.rotl ⟨.i0, always, 4, 5, 6, .i16⟩) = some 3 ∧ x4 0x80 0 (.shr ⟨.i0, always, 4, 5, 6, .i8⟩) = some 0xFFFFFFFFFFFFFF80 := by decide +kernel
-- 19 XOR
theorem test_xor_i8 : x4 0x0F 0xF0 (.xor ⟨.i0, always, 4, 5, 6, .i8⟩) = some 0xFFFFFFFFFFFFFFFF := by decide +kernel
-- 16 LI and LIH: the upper half is replaced
theorem test_lih : x4 0x1 0 (.lih ⟨.i0, always, 4, 16⟩) = some 0x1000000000 := by decide +kernel
-- 19 VEXP2 of 0.5
theorem test_vexp2 :
    ((after { two 0 0 with v := [(1, ⟨0x3F000000, 0⟩)] } (.vexp2 ⟨always, 2, 1, false, .f32, false⟩)).map fun r => (r.getV 2).elem .f32 0) = some 0x3FB504F3 := by
  decide +kernel
-- 19 VLDEXP of 3.0 by −134 in BF16 is 0x0002
theorem test_vldexp :
    ((after { two 0 0 with v := [(1, ⟨0x4040, 0⟩), (3, ⟨0xC306, 0⟩)] } (.vldexp ⟨always, 2, 1, 3, false, false, .bf16, false⟩)).map fun r => (r.getV 2).elem .bf16 0) =
      some 0x0002 := by decide +kernel
-- 12 R284, 16 LD: an odd address traps with ALIGN and its address, and the routine's address is fetched next
theorem test_align_trap :
    (match exec (.ld ⟨.i0, always, 4, 5, 0, .i64⟩) { demo with bun := { demo.bun with old := two 0x40001 0 } } with
      | .next t => (t.ctx? 0 0).map fun x => (x.sr.trapcause, x.sr.trapinfo, x.sr.trappc, x.pc, x.sr.tmode)
      | _ => none) = some (5, 0x40001, 0x10000, 0x8000, true) := by decide +kernel
-- 11 R276, 00 R3: STREL writes the low bytes, little endian
theorem test_strel_bytes :
    (match exec (.strel ⟨.i0, always, 6, 5, 0, .i32⟩) { demo with bun := { demo.bun with old := two 0x40000 0x1122334455667788 } } with
      | .next t => (List.range 5).map fun i => t.homeByte (0x40000 + i)
      | _ => []) = [0x88, 0x77, 0x66, 0x55, 0] := by decide +kernel

/-! ## Witnesses -/

/-- A bundle of RETIRE alone, from reset. -/
def planted : State := State.reset.withFetchWord 32 0x28000000

theorem witness_StepRunsTheDecodedInstruction :
    planted.nextCore = some (0, 0) ∧ planted.agenda = [] ∧
    (let s1 := (planted.advance 0).countIssue 0 0
     let x := (s1.ctx? 0 0).getD Ctx.empty
     let s2 := s1.updCtx 0 0 fun x => { x with yreq := x.yreq && x.win.isSome }
     let b : Raw := ⟨0x05000001, [0x28000000]⟩
     ((planted.advance 0).core? 0).bind (·.issuing) = some 0 ∧ (s1.ctx? 0 0).isSome = true ∧ x.doom = none ∧ (x.pend.any && !x.sr.tmode && x.win.isNone) = false ∧
     s1.noticeDue 0 0 x = false ∧ s1.yieldDue 0 0 x = false ∧ (s2.nextBundle 0 x).2 = .raw b ∧ b.illegal x.pc x.win x.loops = false ∧
     b.delayBranch x.win = false ∧ bitsOf b.head 0 7 ≠ 0 ∧ b.stalls x (s2.nextBundle 0 x).1.cycle = false ∧
     b.slots = some [⟨.c, 0x28000000, none⟩] ∧ SlotWord.decode ⟨.c, 0x28000000, none⟩ = .ok (.retire ⟨always⟩)) := by decide +kernel

theorem witness_WhatAStepAddsToExec :
    (demo.ctx? 0 0 = some demoX ∧ demo.core? 0 = some demoK ∧ demo.bun.status = .normal ∧ demoX.win = none ∧ demoX.loops = [] ∧ demoX.hold = .none) ∧
    (let s := { State.reset with agenda := [(7, .dispatch 0)] }
     s.nextCore = none ∧ Event.engine (.dispatch 0) = none) := by decide +kernel

theorem witness_ResetMeetsTheInvariant : State.reset.Inv := by unfold State.Inv; decide +kernel

theorem witness_StepKeepsTheInvariant : demo.Inv ∧ goesOn (step planted) = true := by
  refine ⟨?_, ?_⟩
  · unfold State.Inv; decide +kernel
  · decide +kernel

theorem witness_StepNeverStops : demo.core? 0 = some demoK ∧ demoK.issuing = some 0 ∧ (demoK.ctx? 0).isSome = true := by decide +kernel

theorem witness_DecodeOfEncodeIsTheInstruction :
    Instr.wf (.add ⟨.i0, ⟨true, true, 31⟩, 31, 0, 31, .n64⟩) = true ∧ (encode (.add ⟨.i0, ⟨true, true, 31⟩, 31, 0, 31, .n64⟩)).isSome = true := by decide

-- a destination that is written, and x0
theorem witness_RegisterOperationsWriteOnlyTheirDestination :
    demo.issues demoK 0 demoX ∧ (let i := Instr.add ⟨.i0, always, 5, 3, 4, .i64⟩
      Instr.registersOnly i = true ∧ goesOn (exec i demo) = true ∧ goesOn (exec (.add ⟨.i0, always, 0, 3, 4, .i64⟩) demo) = true) :=
  ⟨demo_issues, by decide +kernel⟩

/-- A guard on pi1, which holds zero. -/
def never : Guard := ⟨true, false, 1⟩

theorem witness_FailingGuardHasNoEffect :
    demo.issues demoK 0 demoX ∧ Guard.ok never .pi demo.bun.old = false ∧ Guard.ok never .pk demo.bun.old = false :=
  ⟨demo_issues, by decide +kernel⟩

theorem demo_passes : demo.passes always .pi ∧ demo.passes always .pk := by unfold State.passes; decide +kernel

-- a count of the width (x5 = 8) and the one below it (x4 = 7), for an 8-bit type
theorem witness_IntegerResults :
    demo.issues demoK 0 demoX ∧ demo.passes always .pi ∧ IType.width .i8 ≤ (demo.bun.old.getX 5).v.toNat ∧ (demo.bun.old.getX 4).v.toNat < IType.width .i8 ∧
    IType.signed .i8 = true :=
  ⟨demo_issues, demo_passes.1, by decide +kernel⟩

/-- The demo core with the divider of I0 busy until cycle 201. -/
def busy : Core := { demoK with div0 := 201 }
theorem witness_DivideResults :
    demo.issues demoK 0 demoX ∧ demo.passes always .pi ∧ demoK.div0 ≤ demo.cycle ∧ IType.int .i64 (demoRegs.getX 3).v ≠ 0 ∧ IType.int .i64 (demoRegs.getX 9).v = 0 ∧
    (demoCore fun _ => busy).issues busy 0 demoX ∧ (demoCore fun _ => busy).cycle < busy.div0 :=
  ⟨demo_issues, demo_passes.1, by decide +kernel, by decide +kernel, by decide +kernel, ⟨by decide +kernel, by decide +kernel, by decide +kernel⟩, by decide +kernel⟩

theorem witness_ImmediateFieldAndMoveResults : demo.issues demoK 0 demoX ∧ demo.passes always .pi ∧ demo.passes always .pk :=
  ⟨demo_issues, demo_passes.1, demo_passes.2⟩

theorem witness_ComparisonAndPredicateResults : demo.issues demoK 0 demoX ∧ demo.passes always .pi ∧ demo.passes always .pk ∧ PSlot.i0 ≠ .f ∧ PSlot.f = .f :=
  ⟨demo_issues, demo_passes.1, demo_passes.2, by decide, rfl⟩

theorem witness_VectorElementResults : demo.issues demoK 0 demoX := demo_issues
theorem witness_VectorMoveTestAndReductionResults : demo.issues demoK 0 demoX := demo_issues

/-- The demo context as the issuing bundle stands in a delay window. -/
def windowed : State := { demo with bun := { demo.bun with win := some ⟨2, true, 0x10040, false⟩ } }

-- c15 and c4 hold aligned addresses, c3 = 3 does not
theorem witness_BranchesOpenTheirWindow :
    demo.issues demoK 0 demoX ∧ demo.bun.win = none ∧ demo.passes always .pk ∧ Guard.psn always .pk demo.bun.old = false ∧
    (demo.bun.old.getC 3).p = false ∧ ((demo.bun.old.getC 15).p = false ∧ (demo.bun.old.getC 15).v.getLsbD 0 = false ∧ (demo.bun.old.getC 15).v.getLsbD 1 = false) ∧
    (let o : OpMwb := ⟨always, 1, 2, 4, 3, 5, 0, 0⟩
     let h : OpMwb := ⟨always, 0, 1, 3, 3, 0, 0, 0⟩
     let target := fun o : OpMwb => demo.bun.old.getC (o.tb.toNat + (OpMwb.tests o).findIdx fun p => (demo.bun.old.getPk p.1.toNat).v.getLsbD 0 != p.2)
     (∀ p ∈ OpMwb.tests o, (demo.bun.old.getPk p.1.toNat).p = false) ∧ (target o).p = false ∧
     (∀ p ∈ OpMwb.tests h, (demo.bun.old.getPk p.1.toNat).p = false) ∧ (target h).p = false ∧ bitsOf (target h).v 0 2 ≠ 0) ∧
    windowed.issues demoK 0 demoX ∧ windowed.bun.win = some ⟨2, true, 0x10040, false⟩ :=
  ⟨demo_issues, rfl, demo_passes.2, by decide +kernel, by decide +kernel, by decide +kernel, by decide +kernel, demo_issues, rfl⟩

/-- The demo context inside an open loop level over the 20 bytes after this bundle, and three levels deep. -/
def looped : Ctx := { demoX with loops := [⟨0x10008, 5, 2, []⟩] }
def nested : Ctx := { demoX with loops := [⟨0x10008, 9, 2, []⟩, ⟨0x10008, 9, 2, []⟩, ⟨0x10008, 9, 2, []⟩] }
theorem nested_issues : (demoWith nested).issues (demoK.setCtx 0 nested) 0 nested := ⟨by decide +kernel, by decide +kernel, by decide +kernel⟩
theorem looped_issues : (demoWith looped).issues (demoK.setCtx 0 looped) 0 looped := ⟨by decide +kernel, by decide +kernel, by decide +kernel⟩

-- counts 3 (c3) and 0 (c0); a body that ends with the enclosing one, and one that passes it by 4 bytes; a fourth level
theorem witness_LoopOpensALevel :
    let start := demo.bun.pc + BitVec.ofNat 52 demo.bun.len
    demo.issues demoK 0 demoX ∧ (demoWith looped).issues (demoK.setCtx 0 looped) 0 looped ∧ (demoWith nested).issues (demoK.setCtx 0 nested) 0 nested ∧
    demo.bun.win = none ∧ demo.passes always .pk ∧ Guard.psn always .pk demo.bun.old = false ∧ (demo.bun.old.getC 3).p = false ∧
    bitsOf (demo.bun.old.getC 3).v 0 32 ≠ 0 ∧ bitsOf (demo.bun.old.getC 0).v 0 32 = 0 ∧ demoX.loops.length < 3 ∧ looped.loops.length < 3 ∧ 3 ≤ nested.loops.length ∧
    demoX.loops.head? = none ∧ looped.loops.head? = some ⟨0x10008, 5, 2, []⟩ ∧ start.toNat + 4 * 5 ≤ (0x10008 : VAddr).toNat + 4 * 5 ∧
    ¬(start.toNat + 4 * 6 ≤ (0x10008 : VAddr).toNat + 4 * 5) :=
  ⟨demo_issues, looped_issues, nested_issues, rfl, demo_passes.2, by decide +kernel⟩

/-- The demo context in its routine, with NEST and without, and with traps disabled. -/
def nests : Ctx := { demoT with sr := { demoT.sr with nest := true } }
def untrapped : Ctx := { demoX with sr := { demoX.sr with tvec := 0x8000 } }
theorem demoT_issues : demoPriv.issues (demoK.setCtx 0 demoT) 0 demoT := ⟨by decide +kernel, by decide +kernel, by decide +kernel⟩

theorem witness_TrapEntrySavesAndEnters :
    demo.issues demoK 0 demoX ∧ 0x05 < 256 ∧ demoX.sr.tvec.getLsbD 0 = true ∧ demoX.sr.tmode = false ∧
    ((demoWith nests).issues (demoK.setCtx 0 nests) 0 nests ∧ nests.sr.tvec.getLsbD 0 = true ∧ nests.sr.nest = true) ∧
    ((demoWith untrapped).issues (demoK.setCtx 0 untrapped) 0 untrapped ∧ untrapped.sr.tvec.getLsbD 0 = false) ∧
    (demoPriv.issues (demoK.setCtx 0 demoT) 0 demoT ∧ demoT.sr.tmode = true ∧ demoT.sr.nest = false) :=
  ⟨demo_issues, by decide, by decide, rfl, ⟨⟨by decide +kernel, by decide +kernel, by decide +kernel⟩, by decide +kernel⟩,
    ⟨⟨by decide +kernel, by decide +kernel, by decide +kernel⟩, by decide +kernel⟩, demoT_issues, rfl, rfl⟩

theorem priv_passes : demoPriv.passes always .pk := by unfold State.passes; decide +kernel

theorem witness_EretReturnsOrIsPrivileged :
    (demoPriv.issues (demoK.setCtx 0 demoT) 0 demoT ∧ demoPriv.bun.win = none ∧ demoPriv.passes always .pk ∧ Guard.psn always .pk demoPriv.bun.old = false ∧
      demoPriv.privileged demoPriv.cur 0 = true ∧ demoT.resume = none) ∧
    (demo.issues demoK 0 demoX ∧ demo.bun.win = none ∧ demo.passes always .pk ∧ Guard.psn always .pk demo.bun.old = false ∧ demo.privileged demo.cur 0 = false) :=
  ⟨⟨demoT_issues, by decide +kernel, priv_passes, by decide +kernel, by decide +kernel, rfl⟩, demo_issues, rfl, demo_passes.2, by decide +kernel, by decide +kernel⟩

theorem witness_TrapYieldRetireHalt :
    (demo.issues demoK 0 demoX ∧ demo.passes always .pk) ∧
    (let s := { demo with bun := { demo.bun with status := .trap 7 } }
     s.core? 0 = some demoK ∧ demoK.ctx? 0 = some demoX ∧ s.bun.status = .trap 7 ∧ s.bun.win = none ∧ demoX.win = none ∧ demoX.loops = [] ∧
     demoX.sr.tvec.getLsbD 0 = true ∧ demoX.sr.tmode = false) :=
  ⟨⟨demo_issues, demo_passes.2⟩, by decide +kernel⟩

/-- The demo context with SEM_OVERFLOW pending; with its issue counter at 1,024; as control context with a notice due. -/
def overflowed : Ctx := { demoX with pend := { Pending.none with semOvf := [12] } }
def counted : Ctx := { demoX with counter := 1024 }
def noticed : State := { demo with ev := .noticeTaken 0, parts := [(0, some { demoP with entry := plantEntry, notices := [⟨0x20, 9⟩] })] }

theorem witness_BoundaryEvents :
    (demo.core? 0 = some demoK ∧ demoK.issuing = some 0 ∧ demoK.ctx? 0 = some demoX) ∧
    -- a fetch at an address without a page, and one of a word that holds PM = 0
    (let x := { demoX with pc := BitVec.ofNat 52 0x40000000 }
     (((demoWith x).nextBundle 0 x).2 = .fault 0x07 ((match ((demoWith x).nextBundle 0 x).2 with | .fault _ i => i | .raw _ => 0)))) ∧
    ((demo.nextBundle 0 demoX).2 = .raw ⟨0, []⟩ ∧ bitsOf (0 : Word32) 0 7 = 0 ∧ Raw.stalls ⟨0, []⟩ demoX (demo.nextBundle 0 demoX).1.cycle = false) ∧
    (demoWith counted).yieldDue 0 0 counted = true ∧
    ((demoWith overflowed).ctx? 0 0 = some overflowed ∧ overflowed.st = .issuing ∧ overflowed.pend.preempt = none ∧ overflowed.pend.watchdog = none ∧
      overflowed.pend.faults = [] ∧ overflowed.sr.tmode = false ∧ overflowed.win = none ∧ overflowed.sr.tvec.getLsbD 0 = true ∧ overflowed.pend.semOvf = [12]) ∧
    (noticed.partOf 0 = 0 ∧ noticed.noticeDue 0 0 demoX = true ∧ (noticed.part? 0).map (·.notices) = some [⟨0x20, 9⟩] ∧
      (noticed.part? 0).map (fun p => (p.entry.ctlcore.toNat, p.entry.ctlctx.toNat)) = some (0, 0)) := by decide +kernel

/-- The demo machine with that row in the stash of core 0. -/
def stashed : State := demoCore fun k => { k with stash := { k.stash with rows := [(0, some demoRow)] } }
def stashedK : Core := { demoK with stash := { demoK.stash with rows := [(0, some demoRow)] } }
theorem stashed_issues : stashed.issues stashedK 0 demoX := ⟨by decide +kernel, by decide +kernel, by decide +kernel⟩
theorem stashed_passes : stashed.passes always .pi := by unfold State.passes; decide +kernel

-- a hit on the first byte and on the last one of the block, CHKA with and without a record, and a miss
theorem witness_LoadsHitOrBlock :
    (stashed.issues stashedK 0 demoX ∧ stashed.passes always .pi ∧ (stashed.bun.old.getX 2).p = false ∧ 0x40000 < 2 ^ 52 ∧ 0x40000 % IType.bytes .i64 = 0 ∧
      (OpL.op ⟨.i0, always, 7, 2, 0, .i64⟩).off = 0 ∧
      (let r := stashed.translate 0 0x40000 .read
       r.2 = .leaf ⟨0x40000, 0, 0, false, 29⟩ ∧ quarterOf 0 0x40000 0 = 0 ∧ ((r.1.core? 0).bind fun k => k.stash.find (0x40000 / 256)) = some (0, demoRow) ∧
       demoRow.has (0x40000 % 256) 8 = true ∧ demoRow.has 255 1 = true) ∧
      (demoX.watch.any fun w => w.y == false && w.d == 7) = false) ∧
    (demo.issues demoK 0 demoX ∧ demo.passes always .pi ∧
      (let r := demo.translate 0 0x40000 .read
       r.2 = .leaf ⟨0x40000, 0, 0, false, 29⟩ ∧ ((r.1.core? 0).map fun k => k.stash.find 0x400) = some none ∧
       (r.1.ensureRow 0 0x400 ⟨0x40000, 0, 0, false, 29⟩).2 = .row 0)) ∧
    ({ demoX with watch := [⟨false, 7, 0x40000, 8⟩] }.watch.any fun w => w.y == false && w.d == 7) = true :=
  ⟨⟨stashed_issues, stashed_passes, by decide +kernel⟩, ⟨demo_issues, demo_passes.1, by decide +kernel⟩, by decide⟩

/-- The demo bundle with a base register that is poisoned, at 2^52, and odd. -/
def withBase (v : RV) : State := { demo with bun := { demo.bun with old := demoRegs.setX 2 v } }
theorem witness_AccessChecks :
    (∀ v, (withBase v).issues demoK 0 demoX) ∧ (∀ v, Guard.ok always .pi (withBase v).bun.old = true ∧ Guard.ok always .pk (withBase v).bun.old = true) ∧
    ((withBase ⟨0, true⟩).bun.old.getX 2).p = true ∧
    (((withBase ⟨2 ^ 52, false⟩).bun.old.getX 2).p = false ∧ 2 ^ 52 ≤ (((withBase ⟨2 ^ 52, false⟩).bun.old.getX 2).v + 0).toNat) ∧
    (((withBase ⟨2 ^ 52 - 1, false⟩).bun.old.getX 2).p = false ∧ (((withBase ⟨2 ^ 52 - 1, false⟩).bun.old.getX 2).v + 0).toNat < 2 ^ 52 ∧
      (2 ^ 52 - 1) % IType.bytes .i16 ≠ 0 ∧ (2 ^ 52 - 1) % 4 ≠ 0) :=
  ⟨fun _ => demo_issues, fun _ => ⟨by rfl, by rfl⟩, by decide +kernel, by decide +kernel, by decide +kernel⟩

theorem witness_StoresWriteTheirRow :
    (demo.issues demoK 0 demoX ∧ demo.passes always .pi ∧ (demo.bun.old.getX 2).p = false ∧ 0x40000 < 2 ^ 52 ∧ 0x40000 % IType.bytes .i64 = 0 ∧
      (OpL.op ⟨.i0, always, 7, 2, 0, .i64⟩).off = 0 ∧
      (let r := demo.translate 0 0x40000 .write
       r.2 = .leaf ⟨0x40000, 0, 0, false, 29⟩ ∧ (r.1.ensureRow (quarterOf 0 0x40000 0) 0x400 ⟨0x40000, 0, 0, false, 29⟩).2 = .row 0)) ∧
    255 + 1 ≤ 256 :=
  ⟨⟨demo_issues, demo_passes.1, by decide +kernel⟩, by decide⟩

theorem witness_AcquireLoadAndReleaseStore :
    demo.issues demoK 0 demoX ∧ demo.passes always .pi ∧ (demo.bun.old.getX 2).p = false ∧ 0x40000 < 2 ^ 52 ∧ 0x40000 % IType.bytes .i64 = 0 ∧
    (let l : Leaf := ⟨0x40000, 0, 0, false, 29⟩
     (demo.translate 0 0x40000 .read).2 = .leaf l ∧ (demo.translate 0 0x40000 .write).2 = .leaf l ∧
     (match (demo.translate 0 0x40000 .write).1.releaseAll 63 4 with | .ok a b => decide (a = b) | _ => false) = true) :=
  ⟨demo_issues, demo_passes.1, by decide +kernel⟩

theorem witness_AtomicsPerformAtTheHomeSlice :
    (demo.issues demoK 0 demoX ∧ demo.passes always .pk ∧ (demo.bun.old.getX 2).p = false ∧ 0x40000 < 2 ^ 52 ∧ 0x40000 % 8 = 0 ∧
      (demo.translate 0 0x40000 .write).2 = .leaf ⟨0x40000, 0, 0, false, 29⟩ ∧ (3 : BitVec 2).getLsbD 1 = true ∧ (0 : BitVec 2).getLsbD 1 = false ∧
      (match (demo.translate 0 0x40000 .write).1.releaseAll 63 4 with | .ok a b => decide (a = b) | _ => false) = true) ∧
    (let f : AtomicFlight := ⟨false, 7, ⟨1, false⟩, false⟩
     let x := { demoX with atomics := [f] }
     let s := { demoWith x with ev := .atomicResponse 0 0 }
     s.ctx? 0 0 = some x ∧ x.atomics = [f] ∧ s.ev = .atomicResponse 0 0 ∧ f.acquire = false) :=
  ⟨⟨demo_issues, demo_passes.2, by decide +kernel⟩, by decide +kernel⟩

/-- The demo context held by an MCFG of its bundle, with an atomic that waits for it. -/
def heldX : Ctx := { demoX with holdM := .mcfg 3 0 7, late := some ((OpAtom.op .add ⟨always, 3, 2, 4, false, 0, true⟩).ready demoRegs ⟨0x40000, 0, 0, false, 29⟩) }
theorem held_issues : (demoWith heldX).issues (demoK.setCtx 0 heldX) 0 heldX := ⟨by decide +kernel, by decide +kernel, by decide +kernel⟩

-- a context that no slot of the bundle holds, one that an MCFG holds, and an atomic that has waited
theorem witness_AtomicsPerformAtTheHomeSlice_late :
    (((demo.translate 0 0x40000 .write).1.ctx? 0 0).map Ctx.held) = some false ∧
    (demoWith heldX).issues (demoK.setCtx 0 heldX) 0 heldX ∧ ((((demoWith heldX).translate 0 0x40000 .write).1.ctx? 0 0).map Ctx.held) = some true ∧
    (demoWith heldX).ctx? 0 0 = some heldX ∧ heldX.late.isSome = true :=
  ⟨by decide +kernel, held_issues, by decide +kernel, by decide +kernel, rfl⟩

-- no lane passes; all 32 lanes pass, at the base of x2, in rows that are there or can be allocated
theorem witness_VectorMemoryResults :
    stashed.issues stashedK 0 demoX ∧
    (let r := stashed.bun.old
     let o := OpVM.op true ⟨always, 5, 2, false, .f32⟩
     VMemOp.active (OpVM.op true ⟨never, 5, 2, false, .f32⟩) r = [] ∧ o.active r ≠ [] ∧ (r.getXY o.fs o.a.toNat).p = false ∧ o.vi = none ∧
     (∀ i ∈ o.active r, o.addr r i < 2 ^ 52 ∧ o.addr r i % 4 = 0) ∧
     (let ps := (o.active r).flatMap (o.pieces r)
      (match stashed.vTranslate .read (sortPieces ps) with
        | .ok s1 t => decide (s1 = t) && (match s1.vLoad none (sortPieces ps) [] with | .ok _ _ => true | _ => false)
        | _ => false) = true ∧
      (match stashed.vTranslate .write (sortPieces ps) with
        | .ok s1 t => decide (s1 = t) && (match s1.vStore 0 (r.getV 5) false (o.first r) ps with | .ok s2 u => decide (s2 = u) | _ => false)
        | _ => false) = true)) :=
  ⟨stashed_issues, by decide +kernel⟩

/-- A stream descriptor of 4,096 BF16 elements in the first page, and stream register 2 set to it by context 0. -/
def demoDesc : Desc := ⟨0x40000, [4096, 1, 1, 1, 1, 1], [2, 0, 0, 0, 0, 0], .bf16, 0, false, false, false, 0, 0, 0, 0, 0, 0, false⟩
def demoReg : SReg := ⟨1, 0, true, some demoDesc, 0x50000, 0, none⟩
/-- The demo core owning the matrix engine, with stream register 2, the rows of the stash at 0x40000 and 0x50000, and the set-up of a six-point transform. -/
def mxK : Core := { demoK with
  mxown := some 0, sregs := [(2, some demoReg)]
  stash := { demoK.stash with rows := [(0, some demoRow), (1, some { demoRow with block := 0x500, frame := 0x50000 })] }
  mx := { Matrix.fresh with clock := 200, rseq := 0x0001000000000008, twidIssued := some ⟨5, false, [2, 3]⟩, drained := true } }
def mxS : State := demoCore fun _ => mxK
theorem mx_issues : mxS.issues mxK 0 demoX := ⟨by decide +kernel, by decide +kernel, by decide +kernel⟩
theorem mx_settled : (mxS.mxSettle mxS.cur).issues mxK 0 demoX := ⟨by decide +kernel, by decide +kernel, by decide +kernel⟩
theorem mx_passes : mxS.passes always .pk := by unfold State.passes; decide +kernel
/-- A wait for 5 on sem1, which holds 5, and a signal of sem2. -/
def demoSync : Sync := ⟨1, 5, 2, 1⟩

-- a wait at its threshold, and none; an MBFLY of the last stage with ORD, the largest B offset; a context that does not own the engine
theorem witness_MatrixOperationsAreQueued :
    (mxS.issues mxK 0 demoX ∧ (mxS.mxSettle mxS.cur).issues mxK 0 demoX ∧ mxS.passes always .pk ∧ mxK.mxown = some 0 ∧ mxK.mx.queue.length < 16 ∧
      Sync.none.wt = 0 ∧ (mxK.sem demoSync.ws.toNat).met demoSync.wt.toNat = true ∧
      ((Tab.get none mxK.sregs 2 = some demoReg ∧ demoReg.alloc = true ∧ demoReg.owner = 0 ∧ demoReg.st ≠ 4) ∧ mxK.qcmds = []) ∧
      ((mxK.sreg 2).desc = some demoDesc ∧ demoDesc.et = mxK.mx.pair.1 ∧ demoDesc.et = mxK.mx.pair.2.1 ∧ demoDesc.sc = mxK.mx.pair.2.2) ∧
      (mxK.mx.twidIssued = some ⟨5, false, [2, 3]⟩ ∧ (1 : BitVec 4).toNat < [2, 3].length ∧ (1 : BitVec 4).toNat + 1 = [2, 3].length ∧
        (0 : Reg5).toNat + Twid.tiles ⟨5, false, [2, 3]⟩ ≤ 32) ∧
      ((5 : BitVec 16) ≠ 0 ∧ twidOf 5 false mxK.mx.rseq = some ⟨5, false, [2, 3]⟩) ∧
      (legalPair .bf16 .bf16 false = true ∧ legalPair .f32 .f32 false = true ∧ cfgK mxK.mx.cfgIssued ≤ 1024 ∧ mxK.mx.drained = true)) ∧
    (demo.issues demoK 0 demoX ∧ (demo.mxSettle demo.cur).issues { demoK with mx := { demoK.mx with clock := 200 } } 0 demoX ∧ demoK.mxown ≠ some 0 ∧
      demo.passes always .pk) :=
  ⟨⟨mx_issues, mx_settled, mx_passes, by decide +kernel⟩, demo_issues, ⟨by decide +kernel, by decide +kernel, by decide +kernel⟩, by decide, demo_passes.2⟩

theorem witness_AccumulatorPortOperationsStart :
    mxS.issues mxK 0 demoX ∧ (mxS.mxSettle mxS.cur).issues mxK 0 demoX ∧ mxK.mxown = some 0 ∧ (mxK.sem demoSync.ws.toNat).met demoSync.wt.toNat = true ∧
    mxS.passes always .pk ∧ (OpMrow.ft ⟨always, 4, 3, 63, false, .bf16⟩ = .bf16 → OpMrow.h ⟨always, 4, 3, 63, false, .bf16⟩ = false) ∧
    (mxK.mx.pair.1 = .f32 → (127 : BitVec 7).toNat ≤ 31) :=
  ⟨mx_issues, mx_settled, by decide, by decide +kernel, mx_passes, by decide, by decide +kernel⟩

/-- A matrix operation of context 0 that started at a cycle. -/
def demoOp (kind : MKind) (start : Option Nat) : MOp :=
  ⟨7, kind, 0, demoSync, 0, 0, start, 64, 64, 256, .bf16, .bf16, false, [], 0, 0, 0, 0, [], 0, none, [], [], [], false, (0, 0), false⟩
/-- The demo machine with an operation at work, or at the port, and an event. -/
def running (o : MOp) (e : Event) : State := { demoCore fun _ => { mxK with mx := { mxK.mx with run := [o] } } with ev := e }

theorem witness_MatrixQueueStartAndClear :
    (let o := demoOp .mdrain none
     let k := { mxK with mx := { mxK.mx with queue := [o] } }
     let s := { demoCore fun _ => k with ev := .matrixQueueStart 0 }
     s.core? 0 = some k ∧ k.mx.run = [] ∧ k.mx.port = [] ∧ k.mx.clock ≤ s.cycle ∧ k.fenced o.ctx o.id (if (MKind.memReg o.kind).isSome then 8 else 0) = false) ∧
    (let x := { demoX with holdM := .mcfg 3 0 7 }
     let k := mxK.setCtx 0 x
     let s := { demoCore fun _ => k with ev := .mcfgClear 0 }
     s.core? 0 = some k ∧ k.mx.run = [] ∧ k.mx.port = [] ∧ k.mx.queue = [] ∧ k.mxown = some 0 ∧ k.ctx? 0 = some x ∧ x.holdM = .mcfg 3 0 7) := by decide +kernel

/-- Whether an operation stands in its engine with its last effect in this cycle or before it. -/
def through (o : MOp) : Bool :=
  let s := (running o (.dispatch 0)).mxSettle 0
  match s.core? 0 with
  | none => false
  | some k => decide (k.mxOp 7 = some o) && !o.fin && k.mxThrough s.cycle o && decide (k.mx.clock ≤ s.cycle)

/-- An MMA of 8 rows and k = 32 that has done its steps, started at a cycle. -/
def demoMma (start : Nat) : MOp := { demoOp (.mma false 1 2 0) (some start) with m := 8, k := 32, step := 16 }

/-- Whether an operation stands in its engine in the cycle of its residue check, which costs so many cycles, its owner issuing. -/
def checkable (o : MOp) (cost : Nat) : Bool :=
  match ((running o (.dispatch 0)).mxSettle 0).core? 0 with
  | none => false
  | some k => decide (k.mxOp 7 = some o ∧ k.mx.clock ≤ 200 ∧ k.mxown = some 0 ∧ k.issuing = some 0 ∧ k.ctx? 0 = some demoX ∧ o.checked = some (200, cost))

-- each operation in the cycle of its last effect; an MMA, an MTRN and an MBFLY in the cycle of its residue check
theorem witness_MatrixCompletionsSignal :
    (through (demoMma (200 - 16 - 23 - 8)) = true ∧
      through { demoOp (.mbld 2 0) (some 0) with rowsWritten := 64 * 512 } = true ∧ through { demoOp (.mzst 1 2) (some 0) with given := 4096 } = true ∧
      through { demoOp (.mzld 1 2) (some 0) with rowsWritten := 64 } = true ∧ through (demoOp (.mtrn 4 3) (some (200 - 127))) = true ∧
      (let o := { demoOp (.mbfly 0 1 false true) (some 0) with twid := some ⟨5, false, [2, 3]⟩ }
       through { o with start := some (200 - o.stage) } = true) ∧
      through (demoOp (.mtwid ⟨5, false, [2, 3]⟩ 0) (some 199)) = true ∧ through (demoOp (.mfmt .e4m3 .e4m3 true) (some 199)) = true ∧
      through (demoOp .mdrain (some 200)) = true ∧ (through (demoOp (.mzrd 4 true .f32 ⟨0, 0⟩) (some 197)) = true ∧
        through (demoOp (.mzrd 4 false .bf16 ⟨0, 0⟩) (some 197)) = true ∧ demoX.vold = [] ∧
        (([(4, ⟨0, 0⟩, 203, 1)] : List (Nat × VV × Nat × Word32)).find? fun e => e.1 = 4 && decide (200 < e.2.2.1)) = some (4, ⟨0, 0⟩, 203, 1)) ∧
      through (demoOp (.mzwr 1 63 true .f32 ⟨0, 0⟩) (some 198)) = true ∧ through (demoOp (.mzero 1) (some 198)) = true) ∧
    (checkable (demoMma (200 - 16 - 22)) 40 = true ∧ checkable (demoOp (.mtrn 4 3) (some (200 - 63))) 127 = true ∧
      (let o := { demoOp (.mbfly 0 1 false true) (some 0) with twid := some ⟨5, false, [2, 3]⟩ }
       checkable { o with start := some (201 - o.stage) } o.stage = true)) := by decide +kernel

-- the last row of a tile, the word at N, and the neighbouring tile
theorem witness_MatrixWritesStayInTheirTile :
    Tab.wf (⟨0, 0⟩ : TileRow) mxK.mx.tiles = true ∧ (demoMma 0).rowsWritten < 64 ∧ (demoMma 0).kind = .mma false 1 2 0 ∧ (demoMma 0).n ≤ 64 ∧
    (demoOp (.mzwr 1 63 true .f32 ⟨0, 0⟩) none).kind = .mzwr 1 63 true .f32 ⟨0, 0⟩ ∧ (63 < 64) ∧ (1, 63) ≠ ((2, 63) : Nat × Nat) ∧
    (demoOp (.mzero 1) (some 198)).kind = .mzero 1 ∧ 200 = (demoOp (.mzero 1) (some 198)).base + 2 ∧
    -- the last row of an MZLD and of an MTRN, beside the tile that follows; a transform that fills its tile, and one that leaves the end of its last tile
    { demoOp (.mzld 1 2) none with rowsWritten := 63 }.rowsWritten < 64 ∧ (2, 63) ≠ ((1, 63) : Nat × Nat) ∧
    { demoOp (.mtrn 4 3) none with rowsWritten := 63 }.rowsWritten < 64 ∧ (5, 63) ≠ ((4, 63) : Nat × Nat) ∧
    { demoOp (.mbfly 0 1 false true) none with twid := some ⟨2047, false, [2, 3]⟩ }.twid = some ⟨2047, false, [2, 3]⟩ ∧
    (⟨2047, false, [2, 3]⟩ : Twid).tiles = 1 ∧ (⟨5, false, [2, 3]⟩ : Twid).n ≤ 32 * 63 + 63 / 2 ∧ 63 / 32 ≠ bitN false ∧
    (demoOp (.mbld 2 0) none).kind = .mbld 2 0 := by decide +kernel

/-- The demo registers with operands for the stream queue: x10 aligned to 128 bytes, x11 a length of 256, x12 a QCCOPY word of 4 bytes, x13 a binding. -/
def qRegs : Regs := ⟨[(2, ⟨0x40000, false⟩), (10, ⟨0x40080, false⟩), (11, ⟨0x100, false⟩), (12, ⟨0x400000007, false⟩), (13, ⟨0x1300000, false⟩)],
  [], [], [], [], [], []⟩
def qS : State := { demoCore fun _ => mxK with bun := { demo.bun with old := qRegs } }
theorem q_issues : qS.issues mxK 0 demoX := ⟨by decide +kernel, by decide +kernel, by decide +kernel⟩
theorem q_passes : qS.passes always .pk := by unfold State.passes; decide +kernel
/-- A command of context 0 in the stream queue. -/
def demoQ (kind : QKind) (started : Bool) : QCmd := ⟨9, 0, kind, demoSync, 0, started, 0, false, 0, [], false⟩
/-- A run of the grid that is through. -/
def demoRun : GRun := ⟨0, 2, 2, 0, 0, demoSync, false, [], [], 0, 4, false⟩

-- lengths at their largest and smallest, a wait that is not met, a full queue, a grid that runs
theorem witness_StreamCommandsAreQueued :
    (qS.issues mxK 0 demoX ∧ qS.passes always .pk ∧ (mxK.qcmds.filter fun q => !q.started).length < 16 ∧ (mxK.sem demoSync.ws.toNat).met demoSync.wt.toNat = true ∧
      ((qRegs.getX 10).p = false ∧ (qRegs.getX 10).v.toNat % 128 = 0 ∧ (mxK.sreg 3).alloc = false ∧ (mxK.sreg 2).owner = 0) ∧
      (Tab.get none mxK.sregs 2 = some demoReg ∧ demoReg.alloc = true ∧ demoReg.owner = 0) ∧
      ((qRegs.getX 11).v.toNat ≤ 2 ^ 32 ∧ (qRegs.getX 10).v.toNat + (qRegs.getX 11).v.toNat ≤ 2 ^ 52 ∧ (qRegs.getX 2).v.toNat + (qRegs.getX 11).v.toNat ≤ 2 ^ 52) ∧
      (let c := (qRegs.getX 12).v
       bitsOf c 32 16 % 4 = 0 ∧ 4 ≤ bitsOf c 32 16 ∧ bitsOf c 32 16 ≤ 16384 ∧ bitsOf c 48 16 = 0 ∧ bitsOf c 44 20 = 0 ∧ (qRegs.getX 10).v.toNat % 4 = 0 ∧
       (qRegs.getX 11).v.toNat % 4 = 0 ∧ 4 ≤ (qRegs.getX 11).v.toNat ∧ (qRegs.getX 11).v.toNat ≤ 2 ^ 24) ∧
      (let b := (qRegs.getX 13).v
       boundRegs b ≠ [] ∧ (boundRegs b).Nodup ∧ bitsOf b 38 26 = 0 ∧
        ∀ q ∈ boundRegs b, (({ mxK with sregs := [(2, some demoReg), (3, some demoReg)] } : Core).sreg q).alloc = true) ∧
      mxK.grid.run = none ∧ ((0x100 : Word64).toNat ≤ 8388608 ∧ (qRegs.getX 10).v.toNat + 0x100 ≤ 2 ^ 52)) ∧
    ({ mxK with grid := { Grid.fresh with run := some demoRun } } : Core).grid.run = some demoRun ∧
    (demoSync.wt ≠ 0 ∧ Slot.q ∉ demoX.sat ∧ (({ mxK with sems := [] } : Core).sem demoSync.ws.toNat).met demoSync.wt.toNat = false) ∧
    16 ≤ ((List.replicate 16 (demoQ (.qset 3 0) false)).filter fun q => !q.started).length :=
  ⟨⟨q_issues, q_passes, by decide +kernel⟩, by decide +kernel⟩

/-- The demo machine with one command of the stream queue and an event. -/
def qState (y : QCmd) (r : SReg) (e : Event) : State := { demoCore fun _ => { mxK with sregs := [(2, some r)], qcmds := [y] } with ev := e }

-- a stream that starts, one whose register is BAD; a QSET of a descriptor that can be read, and of address 0
theorem witness_StreamCommandsStart :
    (let y := demoQ (.strm 2 false false) false
     let k := { mxK with qcmds := [y] }
     (qState y demoReg (.streamCommandStart 0)).core? 0 = some k ∧ y.next = 0 ∧ k.qStarts y = true ∧ (k.sreg 2).desc = some demoDesc ∧
      k.strmBad y.ctx 2 false false = false ∧ 0 < demoDesc.total) ∧
    (let y := demoQ (.strm 2 false false) false
     let k := { mxK with sregs := [(2, some { demoReg with st := 4, desc := none })], qcmds := [y] }
     k.qStarts y = true ∧ k.strmBad y.ctx 2 false false = true ∧ k.ctx? y.ctx = some demoX ∧ demoX.st ≠ .empty ∧ demoX.pend.faults = []) ∧
    (let y := demoQ (.qset 2 0x50000) true
     let s := qState y demoReg (.qsetCompletion 0 2)
     s.core? 0 = some { mxK with qcmds := [y] } ∧ y.started = true ∧ y.faulted = false ∧ (0x50000 : Word64) ≠ 0 ∧
      (match s.readWords 0 false 0x50000 32 with | (s1, .got _) => (s1.core? 0).isSome | _ => false) = true) ∧
    ((demoQ (.qset 2 0) true).kind = .qset 2 0 ∧ Tab.wf none mxK.sregs = true) := by decide +kernel

/-- A stream of register 2 with one element to go. -/
def demoStrm (store : Bool) (done taken : Nat) (buf : List Elem) : Strm := ⟨9, store, 0, demoSync, 0, 4096, done, taken, buf, [], 0, 127, false, 0, false, false, false, false, false, false⟩
def strmState (t : Strm) (d : Desc) (e : Event) : State :=
  { demoCore fun _ => { mxK with sregs := [(2, some { demoReg with st := 2, desc := some d, strm := some t })] } with ev := e }

-- the last element arrives; a group of a store performs; an element beyond every page faults; a stream whose elements are all taken
theorem witness_StreamElementsAndRetirement :
    (let d := { demoDesc with base := 0x40000 - 2 * 4000 }
     let t := demoStrm false 4095 4095 []
     let s1 := ((strmState t d (.streamDataArrival 0 2)).mxSettle 0).afterTake 0
     (s1.core? 0).bind (fun k => (k.sreg 2).strm) = some t ∧ t.total = t.done + 1 ∧
      (match s1.fetchElem 0 2 d t t.done with | (_, .got _) => true | _ => false) = true) ∧
    (let t := demoStrm true 0 demoDesc.group (List.replicate demoDesc.group ⟨0, false, 127, false⟩)
     let s1 := (strmState t demoDesc (.storeStreamElementPerformed 0 2)).mxSettle 0
     (s1.core? 0).bind (fun k => (k.sreg 2).strm) = some t ∧ t.buf.length = demoDesc.group ∧
      (match s1.performGroup 0 2 demoDesc t t.done t.buf with | ⟨s2, k, _, .got ()⟩ => (s2.core? 0).isSome && k == demoDesc.group | _ => false) = true) ∧
    (let t := demoStrm false 0 0 []
     let d := { demoDesc with base := 0x40000000 }
     let s1 := (strmState t d (.streamElementFault 0 2)).mxSettle 0
     (match s1.fetchElem 0 2 d t t.done with
       | (s2, .fault cause _) => resumable cause && (match s2.core? 0 with | none => false | some k => (k.sreg 2).strm.isSome && (k.ctx? 0).isSome)
       | _ => false) = true) ∧
    (let t := demoStrm false 4096 4096 []
     let s1 := (strmState t demoDesc (.streamRetire 0 2)).mxSettle 0
     (s1.core? 0).bind (fun k => (k.sreg 2).strm) = some t ∧ t.taken = t.total ∧ demoReg.owner = t.ctx) := by decide +kernel

/-- The demo machine with one command at work and an event. -/
def workState (y : QCmd) (e : Event) : State := qState y demoReg e

-- the last 256 bytes of a QCOPY; a QCCOPY that finds another version, and one that finds its own; a stash command without write-backs to come
theorem witness_CopiesAndStashCommandsComplete :
    (let y := demoQ (.qcopy 0x60000 0x40000 0x100) true
     let s := workState y (.copyCompletion 0 9)
     s.core? 0 = some { mxK with qcmds := [y] } ∧ y.prog < (0x100 : Word64).toNat ∧ (0x100 : Word64).toNat ≤ y.prog + min ((0x100 : Word64).toNat - y.prog) (256 - 0x60000 % 256) ∧
      (match s.copyReads 0 0x60000 0x40000 (wordPieces 0x60000 0x100) with
        | (s1, .got l) => (match s1.copyWrites 0 0 false l with | (s2, .got ()) => (s2.core? 0).isSome | _ => false)
        | _ => false) = true) ∧
    (let v : Word64 := 0x400000007
     let s := workState (demoQ (.qccopy 0x60000 0x40000 v) true) (.copyCompletion 0 9)
     (match s.pagesFault 0 .read 0x40000 2 (bitsOf v 32 16) with
       | (s1, none) => (match s1.pagesFault 0 .write 0x60000 2 (bitsOf v 32 16 + 4) with
         | (s2, none) => (match s2.copyReads 0 0x60004 0x40000 (wordPieces 0x60004 (bitsOf v 32 16)) with
           | (s3, .got _) => (match s3.readVia 0 true 0x60000 4 with
             | (s4, .got (e, _)) => decide (e ≠ bitsOf v 0 32) && (s4.core? 0).isSome
             | _ => false)
           | _ => false)
         | _ => false)
       | _ => false) = true) ∧
    (let v : Word64 := 0x400000000
     let s := workState (demoQ (.qccopy 0x60000 0x40000 v) true) (.copyCompletion 0 9)
     (match s.pagesFault 0 .read 0x40000 2 (bitsOf v 32 16) with
       | (s1, none) => (match s1.pagesFault 0 .write 0x60000 2 (bitsOf v 32 16 + 4) with
         | (s2, none) => (match s2.copyReads 0 0x60004 0x40000 (wordPieces 0x60004 (bitsOf v 32 16)) with
           | (s3, .got l) => (match s3.readVia 0 true 0x60000 4 with
             | (s4, .got (e, _)) => decide (e = bitsOf v 0 32) && !s4.earlierPending 0 0 9 && (match s4.copyWrites 0 0 false l with
               | (s5, .got ()) => (match s5.translate 0 0x60000 .write with | (s6, .leaf _) => (s6.core? 0).isSome | _ => false)
               | _ => false)
             | _ => false)
           | _ => false)
         | _ => false)
       | _ => false) = true) ∧
    ((0 : Word64) = 0 ∧ 0 ≤ (demoQ (.stash 2 0x40000 0) true).prog ∧ (demoQ (.stash 2 0x40000 0) true).wbs = []) := by decide +kernel

/-- A load of the grid whose image has been read. -/
def demoLoad : GLoad := ⟨9, 0, 0x40000, false, 0, List.replicate 1024 ⟨0, false⟩, false⟩

theorem witness_GridEvents :
    (let s := { demoCore fun _ => { demoK with grid := { Grid.fresh with st := 1, load := some demoLoad } } with ev := .gcfgLoadEnd 0 }
     demoLoad.faulted = false ∧ demoLoad.addr.toNat % 4096 = 0 ∧
      (match s.gridRead 0 demoLoad 577 with | (s1, .got _) => (s1.core? 0).isSome | _ => false) = true) ∧
    (let k := { demoK with grid := { Grid.fresh with st := 3, run := some demoRun } }
     k.grid.run = some demoRun ∧ demoRun.nextAt ≤ demo.cycle ∧ demoRun.turns * (k.grid.iim1 + 1) ≤ demoRun.cyc ∧ k.grid.flight = [] ∧ demoRun.stopSync = []) ∧
    (let r := { demoRun with stopping := true }
     r.stopping = true ∧ r.cyc % (Grid.fresh.iim1 + 1) = 0) := by decide +kernel
-- a wait at its threshold, and one above it
theorem witness_SemaphoreOperations :
    demo.issues demoK 0 demoX ∧ demo.passes always .pk ∧ Tab.wf ⟨0, false, false⟩ demoK.sems = true ∧ 5 ≤ (demoK.sem 1).val.toNat ∧
    ((demoK.sem 1).err = false ∧ (demoK.sem 1).val.toNat < 6 ∧ Slot.y ∉ demoX.sat) :=
  ⟨demo_issues, demo_passes.2, by decide +kernel⟩

/-- A channel of a kind: BF16, elements of one word at 0x40000; a ring of 512 bytes with its state. -/
def demoChan (kind rst : Nat) : Chan := ⟨BitVec.ofNat 256 (kind + 4 * 9 + 2 ^ 64 * 0x40000 + 2 ^ 128 * 2), 0, 1, 0, 0, 0, 0, rst, none, none, 0, []⟩
/-- Partition 0 with a ring of two members. -/
def ringP : Part := { demoP with rings := [(0, some ⟨1, 0, 0, 1⟩)], badRings := 0 }
/-- The demo machine with channels 1 (send), 2 (receive) and 3 (ring), and its core changed. -/
def chanK : Core := { mxK with chans := [(1, some (demoChan 1 0)), (2, some (demoChan 2 0)), (3, some (demoChan 3 1))] }
def chanS (f : Core → Core) (e : Event) : State :=
  { demo with cores := [(0, some (f chanK))], parts := [(0, some ringP)], ports := [(0, some Port.fresh), (1, some Port.fresh)], ev := e }
theorem chan_issues : (chanS id demo.ev).issues chanK 0 demoX := ⟨by decide +kernel, by decide +kernel, by decide +kernel⟩
theorem chan_passes : (chanS id demo.ev).passes always .pk := by unfold State.passes; decide +kernel

theorem witness_ChannelCommandsAreQueued :
    (chanS id demo.ev).issues chanK 0 demoX ∧ (chanS id demo.ev).passes always .pk ∧ (chanK.ycmds.filter fun y => !y.started).length < 16 ∧
    (chanK.sem demoSync.ws.toNat).met demoSync.wt.toNat = true ∧ (chanK.chan? 1 = some (demoChan 1 0) ∧ (demoChan 1 0).kind = 1) ∧
    (chanK.chan? 2 = some (demoChan 2 0) ∧ (demoChan 2 0).kind = 2) ∧ (chanK.chan? 3 = some (demoChan 3 1) ∧ (demoChan 3 1).kind = 3) ∧
    ((chanS id demo.ev).ringOf 0 (demoChan 3 1) = some ⟨1, 0, 0, 1⟩ ∧ (demoChan 3 1).fits 2 = true ∧ chanK.ringAhead 3 1 < 3) :=
  ⟨chan_issues, chan_passes, by decide +kernel⟩

/-- A SEMADD of context 0 that is not complete. -/
def demoY (kind : YKind) : YCmd := ⟨8, 0, kind, demoSync, 0, false, false, none, false, false, false, false, 0⟩
/-- The demo core with a copy in its stream queue. -/
def pendingK : Core := { demoK with qcmds := [⟨8, 0, .qcopy 0x60000 0x40000 256, demoSync, 0, false, 0, false, 0, [], false⟩], nextCmd := 9 }
theorem pending_issues : (demoCore fun _ => pendingK).issues pendingK 0 demoX := ⟨by decide +kernel, by decide +kernel, by decide +kernel⟩

-- a gate that is free, and none; predecessors that are complete, and that are not
theorem witness_FenceAndTime :
    (demo.issues demoK 0 demoX ∧ demo.passes always .pk ∧ bitsOf (1 : BitVec 6) 0 2 ≠ 0 ∧ (63 : BitVec 6) ≠ 0 ∧ demoK.pending 0 63 = [] ∧ demo.rowsOut 0 0 = [] ∧
      (match demo.releaseHalf 4 with | .ok .. => true | _ => false) = true ∧ demoK.freeGate = some 0 ∧ (demo.bun.old.getXY false 4).p = false) ∧
    ((demoCore fun _ => pendingK).issues pendingK 0 demoX ∧ pendingK.pending 0 63 ≠ [] ∧ bitsOf (0x20 : BitVec 6) 0 2 = 0 ∧ bitsOf (3 : BitVec 6) 0 2 ≠ 0 ∧
      (∀ m y, pendingK.ctx? m = some y → y.fences = [])) ∧
    ({ demoK with gates := (List.range 8).map fun i => (i, some ⟨1000, 3, 1, 0, false⟩) } : Core).freeGate = none := by
  refine ⟨⟨demo_issues, demo_passes.2, by decide +kernel⟩, ⟨pending_issues, by decide +kernel, by decide +kernel, by decide +kernel, ?_⟩, by decide +kernel⟩
  intro m y hy
  have all : ∀ z ∈ pendingK.ctxs, ∀ x, z.2 = some x → x.fences = [] := by decide +kernel
  exact all _ (get_mem hy) y rfl

/-- The demo machine with one command in its channel queue. -/
def yState (y : YCmd) (e : Event) : State := chanS (fun k => { k with ycmds := [y] }) e

theorem witness_ChannelEvents :
    (yState (demoY (.semadd 3 1)) (.semaddApply 0 8)).core? 0 = some { chanK with ycmds := [demoY (.semadd 3 1)] } ∧
    (let g : Gate := ⟨demo.ticks, 3, 1, 0, false⟩
     let k := { demoK with gates := [(0, some g)] }
     Tab.wf none k.gates = true ∧ Tab.get none k.gates 0 = some g ∧ g.stopped = false ∧ g.t.toNat ≤ demo.ticks) ∧
    chanK.chan? 1 = some (demoChan 1 0) ∧
    (let h := { demoChan 2 0 with map := 1 }
     let y := { demoY (.chrecv 2) with started := true }
     y.kind = .chrecv 2 ∧ y.started = true ∧ h.map.getLsbD (h.next % h.depth) = true) ∧
    (let s := yState (demoY .drain) (.drainStart 0 8)
     s.rowsEnded 0 0 8 = true ∧ s.ctx? 0 0 = some demoX) ∧
    (let y := { demoY (.step false) with arrived := true }
     let s := yState y (.stepBarrierOpen 0 0 false)
     let k := { chanK with ycmds := [y] }
     (s.launch? 0).isSome = true ∧ s.scopeCores 0 0 false = [k] ∧ k.id = 0 ∧ y.arrived = true ∧ s.barrierReady [k] false = true) := by decide +kernel

-- TRAPPC in and outside privileged code, TIME, a number that no table assigns, a WO register
theorem witness_SpecialRegisterAccess :
    (demo.issues demoK 0 demoX ∧ demo.passes always .pk ∧ srKind 0x008 = .free ∧ (demo.bun.old.getC 3).p = false ∧ srKind 0x010 = .prw ∧
      demo.privileged 0 0 = false ∧ (demo.mxSettle 0).privileged 0 0 = false ∧ srKind 0x3FF = .none) ∧
    (demoPriv.issues (demoK.setCtx 0 demoT) 0 demoT ∧ demoPriv.passes always .pk ∧ demoPriv.privileged 0 0 = true ∧
      ((demoPriv.mxSettle 0).core? 0).isSome = true ∧ (demoPriv.mxSettle 0).privileged 0 0 = true) ∧
    (RV.p ⟨1, true⟩ = true) :=
  ⟨⟨demo_issues, demo_passes.2, by decide +kernel⟩, ⟨demoT_issues, priv_passes, by decide +kernel⟩, rfl⟩

-- counter k with and without four ways left in every slice
theorem witness_SpecialRegisterWrites :
    (Tab.wf 0 demoX.sr.loopc = true ∧ Tab.wf 0 demoX.sr.loopb = true) ∧
    (demo.core? 0 = some demoK ∧ demo.part? 0 = some demoP ∧ (demo.router? 0).isSome = true ∧ (demo.port? 0).isSome = true) ∧
    (let u := fun v : Word64 => (demo.updPart 0 fun q => { q with crctl := Tab.set 0 q.crctl 0 (keepBits v 0 45), crrej := setBits q.crrej 0 1 0 }).clearCounters 0 0
     (u 0).reservedSum 0 + 4 ≤ (u 0).waysU 0 ∧ (u 0x1FFFFFFFFFFF).waysU 0 < (u 0x1FFFFFFFFFFF).reservedSum 0 + 4) := by decide +kernel

/-- The demo machine with context 0 privileged and x6 aligned to 64 bytes. -/
def saveS (x : Ctx) : State := { demoWith x with bun := { demo.bun with old := demoRegs.setX 6 ⟨0x40000, false⟩ } }
theorem save_issues : (saveS demoT).issues (demoK.setCtx 0 demoT) 0 demoT := ⟨by decide +kernel, by decide +kernel, by decide +kernel⟩

theorem witness_SaveAndRestore :
    ((saveS demoT).issues (demoK.setCtx 0 demoT) 0 demoT ∧ (saveS demoT).privileged 0 0 = true ∧ ((saveS demoT).bun.old.getXY false 6).p = false ∧
      ((saveS demoT).bun.old.getXY false 6).v.toNat % 64 = 0 ∧ (demoK.sem demoSync.ws.toNat).met demoSync.wt.toNat = true ∧ demoT.tookPreempt = false ∧
      demo.privileged 0 0 = false) ∧
    (let y := demoQ (.qsave 0x40000) true
     let s1 := (qState y demoReg (.qsaveCompletion 0 9)).mxSettle 0
     (match s1.core? 0 with
      | some k => decide (k.qcmd 9 = some y) && k.stopped 0 9 && (match s1.writeRecords 0 0 9 0x40000 false 0 ((k.saveRecords 0 9).drop 0) with
        | (s2, .got ()) => (s2.core? 0).isSome
        | _ => false)
      | none => false) = true) ∧
    -- home memory holds zeros: the first record is the end record
    (let x := { demoT with holdQ := .qrest 0x40000 0 demoSync [] }
     let s := { demoCore fun _ => mxK.setCtx 0 x with ev := .qrestCompletion 0 0 }
     s.ctx? 0 0 = some x ∧
      (match s.readWords 0 false 0x40000 16 with | (s1, .got ws) => ws.all (fun v => !v.p) && wordsBits ws 0 8 == 0 && (s1.core? 0).isSome | _ => false) = true) :=
  ⟨⟨save_issues, by decide +kernel⟩, by decide +kernel, by decide +kernel⟩

-- a timer that has reached WDLIM, in trap mode and outside it; an accepted request and a refused one; a limit that is over
theorem witness_PreemptionAndSilentErrorEvents :
    (let s := { demo with time18 := 250 * 1000000 * 18 }
     s.ctx? 0 0 = some demoX ∧ s.part? (s.partOf 0) = some demoP ∧ demoX.timer = some 0 ∧ demoX.st = .issuing ∧ bitsOf demoP.wdcfg 0 16 ≠ 0 ∧
      demoX.pend.watchdog = none ∧ 0 + bitsOf demoP.wdcfg 0 16 * 1000000 ≤ s.ticks ∧ demoX.sr.tmode = false ∧ demoT.sr.tmode = true ∧ demoX.win = none) ∧
    (bitsOf (0 : Word64) 0 7 = 0 ∧ (demo.cluster? 0).bind (·.launch) = some 0 ∧ demo.launch? 0 = some demoL ∧ demoL.part = 0 ∧ demoP.prectlBusy = false ∧
      Fuses.enabled demo.module.fuses 0 = true ∧ { demoP with prectlBusy := true }.prectlBusy = true) ∧
    (let q := { demoL with preempt := some 0 }
     let s := { demo with launches := [(0, some q)], time18 := 18 * demoP.prelim }
     s.launch? 0 = some q ∧ q.preempt = some 0 ∧ 0 + demoP.prelim ≤ s.ticks) ∧
    (((demo.updCore 0 fun k => { k with silcnt := 1 }).mxSettle 0).core? 0).isSome = true := by decide +kernel

/-- An instance of the ring of channel 3, whose Load is over. -/
def demoRing : RingRun := ⟨8, 0, 0, demoSync, true, 0, 2, 0, 512, [], true, 2, 0, [], true, false⟩

-- a CHSEND with a credit, and without one; a CHRECV; a CHSTART with an idle channel and with one at work; a CHABORT
theorem witness_ChannelCommandStarts :
    (let s := yState (demoY (.chsend 1)) (.channelCommandStart 0)
     let k := { chanK with ycmds := [demoY (.chsend 1)] }
     s.core? 0 = some k ∧ s.flowsHeld 0 = false ∧ k.fenced 0 8 (YKind.path (.chsend 1)) = false ∧ k.chan? 1 = some (demoChan 1 0) ∧ 0 < (demoChan 1 0).cred ∧
      (match ((s.updCore 0 fun k => k.updY 8 fun y => { y with started := true }).updChan 0 1 fun h => { h with cred := h.cred - 1 }).readWords 0 false
          ((demoChan 1 0).buf + 256 * ((demoChan 1 0).sent % (demoChan 1 0).depth)) (demoChan 1 0).words with
        | (s1, .got _) => (match s1.core? 0 with | some k => (k.chan? 1).isSome | none => false)
        | _ => false) = true) ∧
    { demoChan 1 0 with cred := 0 }.cred = 0 ∧ (demoY (.chrecv 2)).kind = .chrecv 2 ∧
    ((chanS id demo.ev).ringOf 0 (demoChan 3 1) = some ⟨1, 0, 0, 1⟩ ∧ (demoChan 3 1).rst = 1 ∧ (demoChan 3 2).rst = 2 ∧ (demoChan 3 1).kind = 3) := by decide +kernel

/-- The ring channel with an instance. -/
def ringChan (r : RingRun) : Chan := { demoChan 3 2 with run := some r }
def ringS (h : Chan) (e : Event) : State := chanS (fun k => { k with chans := [(3, some h)] }) e
def noPacket : Packet := ⟨0, 0, false, 0, 0, 0, 0, false, 0, 0, 0, 0, 0, 0, 0, none, [], 0, [], []⟩

theorem witness_RingEvents :
    (let r := { demoRing with started := false, loaded := false }
     let s := ringS (ringChan r) (.ringInstanceStart 0 3)
     s.chan? 0 3 = some (ringChan r) ∧ (ringChan r).run = some r ∧ s.ringOf 0 (ringChan r) = some ⟨1, 0, 0, 1⟩ ∧ s.areaUsed 0 + (ringChan r).reserve r.n ≤ 7 * 2 ^ 20) ∧
    (let r := { demoRing with writing := false }
     let h := ringChan r
     let s := ringS h (.ringPacketArrival 1 noPacket)
     s.ringChannel 1 0 (fun _ g => g.uport == 1) = some (0, 3, h, ⟨1, 0, 0, 1⟩) ∧ h.rst ≠ 4 ∧ noPacket.inst.toNat = r.inst ∧ r.started = true ∧ r.loaded = true ∧
      s.ringChannel 1 7 (fun _ g => g.uport == 1) = none ∧ (s.port? 1).isSome = true) ∧
    (let h := ringChan { demoRing with step := 2 }
     h.pend = none ∧ 2 * demoRing.n - 2 ≤ 2 ∧ demoRing.writing = true ∧ (ringS h demo.ev).rows = []) ∧
    (let h := ringChan demoRing
     h.kind = 3 ∧ h.rst ≠ 4 ∧ demoRing.started = true ∧ demoRing.since + (ringS h demo.ev).ringLimit 0 h ≤ { ringS h demo.ev with time18 := 10 ^ 12 }.ticks) ∧
    (let h := ringChan demoRing
     let t : Token := ⟨0, 0, 0, true⟩
     (ringS h demo.ev).ringChannel 1 0 (fun h g => h.ring == t.ring.toNat && (if t.down then g.uport else g.dport) == 1) = some (0, 3, h, ⟨1, 0, 0, 1⟩) ∧
      t ∉ h.fwd ∧ t ∈ { h with fwd := [t] }.fwd) := by decide +kernel

/-- The demo machine with page tables in home memory that map the first 512 MiB. -/
def mapped : State :=
  (({ demo with parts := [(0, some { demoP with ptbase := setBits 0 13 33 (plantRoot / 8192) })] }).plantDouble plantRoot (BitVec.ofNat 64 (1 + plantTable))).plantDouble
    plantTable 0x300F

theorem witness_RingCommitAndLinkEvents :
    ((demo.part? 0).isSome = true ∧ ∀ n < 16, demo.ringChans 0 n = []) ∧
    (let s := (mapped.updPart 0 fun q => { q with commits := 1, ringbase := 0x40000 }).plantWords 0x40000 [0x82000001, 0, 0, 0]
     (s.readRing 0 0).2.isSome = true ∧ (s.part? 0).map (fun q => q.commits.getLsbD 0) = some true ∧ s.ringChans 0 0 = []) ∧
    (demo.port? 0 = some Port.fresh ∧ demo.module.fuses.lpen.getLsbD 0 = true) ∧
    (let x : LinkPacket := ⟨noPacket, 0, none, true⟩
     let l := { Port.fresh with up := true, sent := [x] }
     l.sent = [x] ∧ x.since + { demo with time18 := 10 ^ 12 }.linkLimit 0 ≤ { demo with time18 := 10 ^ 12 }.ticks) ∧
    (∀ r, { demo with cores := [] }.flowsHeld r = false) :=
  ⟨by decide +kernel, by decide +kernel, by decide +kernel, by decide +kernel, fun _ => rfl⟩

/-- A record that asks for an all-zero image and binds nothing. -/
def demoRecord : Packet := { noPacket with words := List.replicate 32 ⟨0, false⟩ }

-- a record that can be used
theorem witness_FabricInvocationBegins :
    (let x := { Slice.fresh with waiting := [demoRecord] }
     let s1 := { mapped with slices := [(0, some x)] }.updSlice 0 fun x => { x with waiting := [], run := some ⟨demoRecord, []⟩ }
     (match s1.fabricBegin 0 ⟨demoRecord, []⟩ with | (s2, .got _) => (s2.slice? 0).isSome | _ => false) = true) := by decide +kernel

-- a record that cannot be used, a run that is through
theorem witness_FabricInvocations :
    (let x := { Slice.fresh with waiting := [noPacket] }
     let s := { mapped with slices := [(0, some x)], ev := .fabricInvocationStart 0 }
     let s1 := s.updSlice 0 fun x => { x with waiting := [], run := some ⟨noPacket, []⟩ }
     s.slice? 0 = some x ∧ x.run = none ∧ x.waiting = [noPacket] ∧ badRecord noPacket = true ∧ badRecord demoRecord = false ∧
      (match s1.fabricBegin 0 ⟨noPacket, []⟩ with | (_, .fault cause _) => cause == 1 | _ => false) = true) ∧
    (let x := { Slice.fresh with run := some ⟨demoRecord, []⟩, grid := { Grid.fresh with st := 3, run := some demoRun } }
     x.run = some ⟨demoRecord, []⟩ ∧ x.grid.run = some demoRun ∧ demoRun.turns * (x.grid.iim1 + 1) ≤ demoRun.cyc ∧ x.grid.flight = []) := by decide +kernel

/-- A forwarding entry of flow 0 at port N, out of port E; one that groups. -/
def demoEntry : Rec128 := BitVec.ofNat 128 (1 + 2 ^ 23)

-- no entry; an entry of another partition; a forwarding entry; the last row of a QRCOPY, and one before it
theorem witness_PacketsAndRowSends :
    (let t := { Router.fresh with part := some 0 }
     t.waiting = [] ∧ t.matching 0 { noPacket with vc := t.arrivalVc 0 noPacket } = none ∧ (demo.router? 0) = some t ∧ (demo.part? 0).isSome = true) ∧
    (let t := { Router.fresh with part := some 0, entries := [demoEntry] }
     t.matching 0 { noPacket with vc := t.arrivalVc 0 noPacket } = some demoEntry ∧ t.part = some noPacket.part.toNat ∧
      { t with part := some 1 }.part ≠ some noPacket.part.toNat ∧ Rec128.act demoEntry ≠ 4 ∧ Rec128.groups demoEntry = false) ∧
    (let y := demoQ (.qrcopy 0x40000 256 0) true
     let s := workState y (.flowRowSend 0 9)
     (s.core? 0).bind (fun k => k.qcmd 9) = some y ∧ (256 : Word64).toNat ≤ y.prog + min 256 ((256 : Word64).toNat - y.prog) ∧
      (match s.readWords 0 false 0x40000 (min 256 (256 - 0) / 4) with | (s1, .got _) => (s1.core? 0).isSome | _ => false) = true) ∧
    0 + min 256 ((512 : Word64).toNat - 0) < (512 : Word64).toNat := by decide +kernel

/-- A stash endpoint whose row 0 is the block at 0x40000. -/
def demoPort : Rec128 := BitVec.ofNat 128 (2 ^ 32 * 0x400)
/-- A row that has been sent in two copies. -/
def demoSend : SendRow := ⟨0, 0, 0, demoSync, 2, false, 9, false, false⟩

-- a row that lands, one that faults, a first and a last acknowledgement, a parked row at its retry and at its limit
theorem witness_RowLandingAndAcknowledgement :
    ({ noPacket with xt := true, tgtk := 1 }.xt = true ∧ { noPacket with xt := true, tgtk := 4 }.tgtk = 4) ∧
    (let p := { noPacket with words := List.replicate 64 ⟨1, false⟩, desc := demoPort }
     let s := stashed
     let d := p.desc
     noPacket.xt = false ∧ (s.router? 0).map (fun t => (t.waiting, t.fq)) = some ([], []) ∧ (s.stashLand 0 (rowAddr d p) (Rec128.dk d == 1) p).2 = .landed ∧
      (s.stashLand 0 0x40000000 false p).2 = .faulted 0x07) ∧
    (let s := { demo with rows := [(0, some demoSend)] }
     s.row? 0 = some demoSend ∧ s.core? demoSend.core = some demoK ∧ Tab.wf none s.rows = true ∧ 1 < demoSend.copies ∧ { demoSend with copies := 1 }.copies ≤ 1) ∧
    (let x : Parked := ⟨{ noPacket with words := List.replicate 64 ⟨1, false⟩, desc := demoPort }, 0, 0, 64000, none⟩
     let t := { Router.fresh with part := some 0, eps := [(0, demoPort)], fq := [x] }
     let s := { stashed with routers := [(0, some t)], time18 := 18 * 64000 }
     let d := x.pkt.desc
     s.router? 0 = some t ∧ t.waiting = [] ∧ t.fq = [x] ∧ x.due s.cycle s.ticks = true ∧ s.completing 0 = false ∧ (s.stashLand 0 (rowAddr d x.pkt) (Rec128.dk d == 1) x.pkt).2 = .landed ∧
      (((s.stashLand 0 (rowAddr d x.pkt) (Rec128.dk d == 1) x.pkt).1.landedRow 0 d x.pkt).router? 0) = some t ∧
      x.since + max 1 t.limit.toNat * 100000 ≤ { demo with time18 := 18 * 5000000 }.ticks) := by decide +kernel

-- in privileged code and outside it; good words and a poisoned one; a bad shape and a length of zero
theorem witness_PrivilegedOperationsHoldTheirContext :
    (demo.issues demoK 0 demoX ∧ demo.passes always .pk ∧ demo.privileged 0 0 = false) ∧
    (demoPriv.issues (demoK.setCtx 0 demoT) 0 demoT ∧ demoPriv.passes always .pk ∧ demoPriv.privileged 0 0 = true ∧
      ((demoPriv.bun.old.getC 4).p = false ∧ (demoPriv.bun.old.getC 3).p = false ∧ bitsOf (demoPriv.bun.old.getC 3).v 1 2 ≠ 3 ∧ bitsOf (demoPriv.bun.old.getC 3).v 3 61 = 0) ∧
      (let a := (demoPriv.bun.old.getC 3).v
       bitsOf a 0 3 ≤ 4 ∧ bitsOf a 12 52 = 0 ∧ bitsOf a 4 8 ≤ 127 ∧ demoPriv.evacBefore demoPriv.free = false ∧ bitsOf a 5 59 = 0 ∧
       Tab.wf RV.zero demoT.regs.c = true) ∧
      (bitsOf (8 + 16 * 191 : Word64) 0 3 ≤ 4 ∧ (8 + 16 * 191 : Word64).getLsbD 3 = true ∧ bitsOf (8 + 16 * 191 : Word64) 4 8 ≤ 191) ∧
      (demoPriv.bun.old.getC 0).p = false) :=
  ⟨⟨demo_issues, demo_passes.2, by decide +kernel⟩, ⟨demoT_issues, priv_passes, by decide +kernel⟩⟩

/-- The demo machine with its context privileged and held. -/
def heldS (h : Hold) (e : Event) : State := { demoWith { demoT with hold := h } with ev := e }

-- the three reaches of a TLBI, an EVAC, a DRAFTLD with a bad shape, with length zero, with words that are read, and beyond its limit, a RETIRE
theorem witness_HeldOperationsComplete :
    (∀ reach < 3, (heldS (.tlbi false reach 0x40000 0) (.tlbiCompletion 0 0)).tlbiBefore 0 0 = false) ∧
    (let s := heldS (.evac 5 1 1 0 false) (.evacCompletion 0 0)
     s.evacBefore 0 = false ∧ s.module.opStep = false ∧
      (let cores := s.evacCores 0 (s.partOf 0) 1
       let slices := s.evacSlices (s.partOf 0) 1
       s.evacResult (s.partOf 0) 1 1 cores slices = 0 ∧ { s with parts := [(0, some { demoP with entry := { demoP.entry with mgmt := false } })] }.evacResult 0 3 1 cores slices ≠ 0)) ∧
    (5 ≠ 0 ∧ Tab.wf RV.zero demoT.regs.c = true) ∧
    (let s := heldS (.draftld 0 0x40000 16 false (some 0) [] .going) (.draftldCompletion 0 0)
     (s.core? 0).bind (·.launch) = some 0 ∧ s.launch? 0 = some demoL ∧ s.slotHeld demoL = false ∧ s.draftldBefore 0 0 = false ∧ s.flowing 0 = false ∧ demoK.fenced 0 demoK.nextCmd 16 = false ∧
      draftShapeBad 0x40000 3 false = true ∧ draftShapeBad 0x40000 0 false = false ∧ draftShapeBad 0x40000 16 false = false ∧
      (match ({ s with cores := [(0, some (mxK.setCtx 0 demoT))] }).draftWords 0 0x40000 5 [] 4 with | (_, _, .got ()) => true | _ => false) = true ∧
      ({ s with routers := [(0, some { Router.fresh with rounds := [⟨0, 0, 0, false, [], 0, [], [], []⟩] })] }).slotHeld demoL = true ∧ 0 ≤ s.time18) ∧
    (heldS .retire (.retireAccepted 0 0)).ctx? 0 0 = some { demoT with hold := .retire } := by decide +kernel

/-- A write-back of one byte, and of every byte, of the block at 0x40000. -/
def demoWb (mask : BitVec 256) : WriteBack := ⟨5, 0x40000, 0x5A, mask, 0, 0, 0, 0, none, 0x400, 29⟩
/-- The demo machine with that write-back under way. -/
def wbState (w : WriteBack) : State :=
  { demoCore fun k => { k with stash := { k.stash with wbs := [w], nextWb := 6 } } with ev := .writeBackPerformed 0 5 }

-- a fill of a row of which nothing is valid, and one of a row of which a byte is; a row with a dirty byte; the write-back of one byte and of all
theorem witness_FillsAndWriteBacks :
    (List.replicate 64 (⟨0, false⟩ : PWord)).length = 64 ∧
    (∀ b ∈ [0, 1],
      let v := BitVec.ofNat 256 b
      let f : Fill := ⟨0x400, 0x40000, 0, 0, none⟩
      let k := { demoK with stash := { demoK.stash with fills := [f], rows := [(0, some { demoRow with v := v })] } }
      let s := { demoCore fun _ => k with ev := .stashFillArrival 0 0x400 [] }
      s.core? 0 = some k ∧ (k.stash.fills.find? fun g => g.block = 0x400) = some f ∧
      (let home := ((s.flushWbs 0 f.pa).meet (f.pa / 64) []).homeWords ⟨f.part, f.ed, k.launch, f.range⟩ 65 f.pa 64
       (match home.1.core? 0 with
        | some k1 => Tab.wf none k1.stash.rows && (match k1.stash.find 0x400 with | some (n, r) => n == 0 && r.v == v | none => false)
        | none => false) = true)) ∧
    ({ demoRow with d := 1 }.d ≠ 0) ∧
    (∀ m ∈ [1, 2 ^ 256 - 1],
      let w := demoWb (BitVec.ofNat 256 m)
      let s := wbState w
      (s.core? 0).any (fun k => decide ((k.stash.wbs.find? fun v => v.id = 5) = some w ∧ 5 < k.stash.nextWb ∧ k.stash.wbs = [w] ∧
        s.keyOf ⟨w.part, w.ed, k.launch, w.range⟩ = some 0)) = true ∧ Memory.wf s.mem = true ∧
      Tab.wf 0 s.sealed = true ∧ Tab.wf .clean s.errs = true ∧ w.pa % 256 = 0 ∧ w.pa + 256 ≤ hbmTop ∧
      (∀ i < 4, s.sealOf (w.pa / 64 + i) = 0 ∧ Tab.get .clean s.errs (w.pa / 64 + i) = .clean) ∧
      -- no slice holds a line
      ∀ z ∈ s.slices, ∀ x, z.2 = some x → x.lines = []) := by decide +kernel

/-- The mapped machine with a queue descriptor 0 at 0x40000: 16 entries at 0x50000, HEAD 0, with the flags of its fourth word. -/
def queued (flags : Word32) (tail : Nat) : State :=
  (mapped.updPart 0 fun p => { p with qtbase := 0x40000, qtails := Tab.set 0 p.qtails 0 (BitVec.ofNat 32 tail), boundQ := [0] }).plantWords 0x40000 [0x50000, 0, 0, flags]

-- a tail at the ring's size and one beyond it, a queue that is owned; a launch semaphore; LAUNCH with a ring slot and without
theorem witness_WorkSubmission :
    (let s := queued 0x81 0
     (s.part? 0).map (·.fenced) = some false ∧
      (match (s.readQueue 0 0).2 with
        | some d => !d.bad && d.en && !d.own && decide ((16 + 2 ^ 32 - d.head) % 2 ^ 32 ≤ 2 ^ d.log2n) && decide (2 ^ d.log2n < (17 + 2 ^ 32 - d.head) % 2 ^ 32)
        | none => false) = true ∧
      (match ((queued 0x83 0).readQueue 0 0).2 with | some d => d.own | none => false) = true) ∧
    Tab.wf ⟨0, false, false⟩ demoP.lsems = true ∧
    (let s := { queued 0x83 0 with cores := [(0, some demoK)] }
     s.issues demoK 0 demoX ∧ s.passes always .pk ∧ s.partOf s.cur = 0 ∧ (s.bun.old.getC 4).p = false ∧ (s.bun.old.getC 4).v.toNat < 2 ^ 52 ∧
      (s.bun.old.getC 4).v.toNat % 64 = 0 ∧
      (match s.translate 0 0x10000 .read with
        | (s1, .leaf l) => !l.psn && (match s1.releaseAll 63 4 with
          | .ok s2 _ => (match s2.homeWords (s2.access 0 l.ed 0x10000) 3 l.pa 16 with
            | (s3, ws) => ws.all (fun w => !w.p) && (match s3.launchResult 0 ⟨0, false⟩, s3.launchResult 0 ⟨4096, false⟩ with
              | (s4, res, slot), (s5, r, _) => res == 0 && !s4.launchPending 0 0 && (match s4.launchSlot 0 slot with | (_, .inl _) => true | _ => false) &&
                  r != 0 && s5.cur == 0 && (match s5.ctx? 0 0 with | some z => Tab.wf RV.zero z.regs.c | none => false)))
          | _ => false)
        | _ => false) = true) ∧
    -- another context is about to append; the queue is not one that the core may append to
    ((heldS (.launch 5 ⟨0, false⟩ [] 0 0x50000 0x50000 0 false) demo.ev).launchPending 0 0 = true ∧ ((queued 0x81 0).launchResult 0 ⟨0, false⟩).2.1 ≠ 0) := by
  refine ⟨by decide +kernel, by decide +kernel, ⟨⟨by decide +kernel, by decide +kernel, by decide +kernel⟩, ?_, by decide +kernel⟩, by decide +kernel⟩
  unfold State.passes; decide +kernel

-- a fenced partition, one without a ready queue, one with; an image of one task; a launch of which nothing is left; a cluster free for GATEDLY
theorem witness_LaunchesRun :
    ({ demoP with fenced := true }.fenced = true ∧ demoP.selected = none) ∧
    ((mapped.bestQueue 0 demoP.boundQ none).2 = none ∧
      (match (queued 0x81 1).bestQueue 0 [0] none with
        | (s1, some (q, d, _)) => q == 0 && (s1.writePart 0 (((queued 0x81 1).part? 0).getD demoP |>.qdesc q) ⟨BitVec.ofNat 32 (d.head + 1), false⟩).2.isNone
        | _ => false) = true) ∧
    demoL.started = true ∧ (⟨[0x100, 0, 0, 0], none, 0, []⟩ : CoreRec).tasks.getD 0 0 ≠ 0 ∧
    (let s := { demo with cores := [(0, some { demoK with issuing := none, ctxs := Core.noTasks })] }
     s.launch? 0 = some demoL ∧ demoL.aborted = false ∧ s.landed 0 = true ∧ ∀ c ∈ s.coresOf 0, ((s.core? c).map Core.quiet).getD true = true) ∧
    (let s := { demo with clusters := [(0, some { Cluster.fresh with gated := false })], time18 := 18 * (255 * 10000) }
     let y := { Cluster.fresh with gated := false }
     s.cluster? 0 = some y ∧ s.partOfCluster 0 = some 0 ∧ y.launch = none ∧ bitsOf ({ demoP with schedcfg := 0x1FE0 }).schedcfg 5 8 ≠ 0 ∧
      y.freeSince + bitsOf ({ demoP with schedcfg := 0x1FE0 }).schedcfg 5 8 * 10000 ≤ s.ticks ∧ Tab.wf none s.cores = true) := by decide +kernel

-- a request that is accepted and one that is refused; a step in progress; fuses that pass and that fail
theorem witness_PowerAndResetEvents :
    (let s1 := { demo with module := { demo.module with pt := 1 } }
     s1.opreqWhy none 0 = 0 ∧ s1.opreqWhy none 1 ≠ 0 ∧ s1.module.booterr = 0 ∧ (8 : Word64).getLsbD 3 = true ∧ (0 : Word64).getLsbD 3 = false ∧
      ({ s1 with agenda := [(200, .opreqGo none 8)] }.agenda.any fun a => decide (a.1 ≤ s1.cycle) && Event.hostOpreq a.2) = true) ∧
    ({ demo.module with opStep := true }.opStep = true ∧ ¬(1 < 0 ∧ demo.limptBelow 0 = true) ∧ demo.limptBelow 1 = true) ∧ Fuses.booterr Fuses.full = 0 ∧ Fuses.booterr { Fuses.full with firmwareOk := false } ≠ 0 := by decide +kernel

/-- A live session of partition 0, and one that waits for its FINISH. -/
def sessioned : State := { demo with
  launches := [], module := { demo.module with sessions := [⟨1, some 0, some demoP.entry, true, none, 0⟩, ⟨2, some 0, some demoP.entry, false, none, 0⟩] } }

-- a map that breaks a rule, one that changes a partition at work, one that is taken; keys; the host's accesses; every state of TDISP
theorem witness_ManagementRequests :
    (PartMap.refused ⟨2, []⟩ demo.module.fuses = true ∧ PartMap.refused ⟨1, []⟩ demo.module.fuses = false ∧ demo.launchesOf 0 ≠ [] ∧
      PartMap.raw ⟨0, [(0, 2 ^ 128)]⟩ 0 ≠ PartMap.raw demo.module.map 0 ∧ sessioned.launchesOf 0 = [] ∧ demoP.tdist ≠ 1 ∧ demoP.tdist ≠ 2 ∧ demo.module.booterr = 0) ∧
    ((sessioned.part? 0).isSome = true ∧ sessioned.answers none = true ∧ { demo with module := { demo.module with booterr := 1 } }.module.booterr ≠ 0 ∧
      (∀ i < 6, 1 ≤ i → i < 4 → (sessioned.measurement none none i).isSome = true) ∧ sessioned.measurement none none 5 = none ∧
      (∀ q ∈ sessioned.module.sessions, q.id ≠ 3) ∧
      sessioned.module.sessions.find? (fun q => q.id = 2) = some ⟨2, some 0, some demoP.entry, false, none, 0⟩) ∧
    (let q : Session := ⟨1, some 0, some demoP.entry, true, none, 0⟩
     sessioned.keyTarget 1 1 = some (0, demoP, q) ∧ Tab.get none demoP.keys 1 = none ∧ demoP.fenced = false ∧ q.entry = some demoP.entry ∧
      Tab.wf none demoP.keys = true ∧ Tab.get none ({ demoP with keys := [(1, some ⟨3, 0, 0⟩)] } : Part).keys 1 ≠ none ∧ sessioned.part? 0 = some demoP) ∧
    ((match mapped.translateHome 0 0x40000 .write with | (_, .leaf _) => true | _ => false) = true ∧
      (match (mapped.landHostRows 0).translateHome 0 0x40000 .read with | (_, .leaf _) => true | _ => false) = true ∧
      (match demo.translateHome 0 0x40000 .write with | (_, .fault ..) => true | _ => false) = true ∧ mapped.takesHost 0 false = true ∧
      { mapped with parts := [(0, some { demoP with tdist := 2 })] }.takesHost 0 false = false ∧ 0x40000 % 256 + 256 ≤ 256) ∧
    (demoP.tdist = 0 ∧ { demoP with tdist := 1 }.tdist = 1 ∧ ¬((1 : BitVec 2) = 1 ∧ ({ demoP with tdist := 2 } : Part).tdist = 0)) := by decide +kernel

/-! ## Witnesses of further clauses -/

/-- Registers whose pk1 is poisoned, with a value of which bit 0 is set or not; with a poisoned c register. -/
def poisonPk (v : Word32) : Regs := { demoRegs with pk := [(1, ⟨v, true⟩)] }
def poisonC (n : Nat) : Regs := { demoRegs with c := [(n, ⟨0x20000, true⟩)] }
/-- A guard on pk1. -/
def pk1 : Guard := ⟨true, false, 1⟩

-- a poisoned guard that passes and one that fails, a clean one that fails, poisoned registers; the last delay bundle of a taken CALL and of a BR not taken, and the first one
theorem witness_BranchesOpenTheirWindow_poison :
    (Guard.psn pk1 .pk (poisonPk 1) = true ∧ Guard.psn pk1 .pk (poisonPk 0) = true ∧ Guard.ok pk1 .pk (poisonPk 1) ≠ Guard.ok pk1 .pk (poisonPk 0)) ∧
    (Guard.ok never .pk demoRegs = false ∧ Guard.psn never .pk demoRegs = false) ∧ ((poisonC 3).getC 3).p = true ∧ ((poisonC 15).getC 15).p = true ∧
    (let o : OpMwb := ⟨always, 1, 2, 4, 3, 1, 0, 0⟩
     ¬∀ p ∈ OpMwb.tests o, ((poisonPk 1).getPk p.1.toNat).p = false) ∧
    (let w : Window := ⟨1, true, 0x10040, true⟩
     let x := { demoX with win := some w }
     let s := { demoWith x with bun := { demo.bun with win := some w } }
     s.ctx? 0 0 = some x ∧ s.bun.status = .normal ∧ x.loops = [] ∧ x.hold = .none ∧ w.left - (1 + s.bun.er) = 0 ∧ (2 : Nat) - (1 + s.bun.er) ≠ 0 ∧
      (2 : Nat) - s.bun.er ≠ 0 ∧ Tab.wf RV.zero x.regs.c = true) := by decide +kernel

theorem witness_LoopOpensALevel_poison :
    Guard.ok never .pk demo.bun.old = false ∧ Guard.psn pk1 .pk (poisonPk 0xFFFFFFFF) = true ∧ Guard.ok pk1 .pk (poisonPk 0xFFFFFFFF) = true := by decide +kernel

theorem witness_EretReturnsOrIsPrivileged_poison :
    (let s := { demoPriv with bun := { demo.bun with old := poisonPk 0xFFFFFFFF } }
     s.privileged s.cur 0 = true ∧ Guard.ok pk1 .pk s.bun.old = true ∧ Guard.psn pk1 .pk s.bun.old = true) ∧ Guard.ok never .pk demo.bun.old = false := by decide +kernel

/-- An index descriptor and a gather descriptor that takes its indices from register 3. -/
def ixDesc : Desc := { demoDesc with et := .int .n32 }
def gathDesc : Desc := { demoDesc with ix := true, iq := 3 }
/-- The demo core with a gather register 4 and its index register 3. -/
def gathK : Core := { mxK with sregs := [(2, some demoReg), (3, some { demoReg with desc := some ixDesc }), (4, some { demoReg with desc := some gathDesc })] }

-- a free queue; a stream of each kind; a grid that is loaded, one that runs and one that is stopping
theorem witness_StreamCommandsAreQueued_started :
    (mxK.qcmds = [] ∧ demoX.fences = [] ∧ mxK.enginesUsed < 6 ∧ mxK.regBusy 2 = false ∧ mxK.regBusy 3 = false) ∧
    ((mxK.sreg 2).desc = some demoDesc ∧ 0 < demoDesc.total ∧ mxK.strmBad 0 2 false false = false ∧ mxK.strmBad 0 2 true false = false) ∧
    ((gathK.sreg 4).desc = some gathDesc ∧ 0 < gathDesc.total ∧ gathK.regBusy 4 = false ∧ gathK.regBusy gathDesc.iq = false ∧
      gathK.strmBad 0 4 false true = false ∧ gathK.strmBad 0 4 true true = false ∧ gathK.enginesUsed < 6) ∧
    (qS.flowsHeld 0 = false ∧ mxK.drainBefore 0 mxK.nextCmd = false ∧ (0 : Word64).toNat ≤ 2 ^ 32) ∧
    (({ mxK with grid := { Grid.fresh with st := 2 } } : Core).grid.st ≠ 0 ∧ ({ mxK with grid := { Grid.fresh with st := 4, run := some demoRun } } : Core).grid.st ≠ 3 ∧
      ({ mxK with grid := { Grid.fresh with st := 3, run := some demoRun } } : Core).grid.run = some demoRun) := by decide +kernel

theorem witness_ChannelCommandsAreQueued_started :
    chanK.ycmds = [] ∧ demoX.fences = [] ∧ (chanS id demo.ev).flowsHeld 0 = false ∧ (chanS id demo.ev).rowsEnded 0 0 chanK.nextCmd = true ∧ (demoChan 3 1).rst = 1 ∧
    0 < (demoChan 1 0).cred ∧
    (let s := chanS (fun k => { k with ycmds := [{ demoY (.chsend 1) with id := k.nextCmd }], nextCmd := k.nextCmd + 1 }) (.channelCommandStart 0)
     let h := demoChan 1 0
     (match ((s.updCore 0 fun k' => k'.updY chanK.nextCmd fun y => { y with started := true }).updChan 0 1 fun h => { h with cred := h.cred - 1 }).readWords 0 false
         (h.buf + 256 * (h.sent % h.depth)) h.words with
       | (s1, .got _) => (match s1.core? 0 with | some k => (k.chan? 1).isSome | none => false)
       | _ => false) = true) := by decide +kernel

-- a context that has taken PREEMPT; an end record
theorem witness_SaveAndRestore_started :
    { demoT with tookPreempt := true }.tookPreempt = true ∧ demoK.qcmds = [] ∧ demoT.fences = [] ∧
    (let u := { demoCore fun _ => mxK.setCtx 0 { demoT with holdQ := .qrest 0x40000 0 Sync.none [] } with ev := .qrestCompletion 0 0 }
     (match u.core? 0 with | some k => !k.fenced 0 k.nextCmd 4 | none => false) = true ∧
      (match u.readWords 0 false 0x40000 16 with
        | (s1, .got ws) => ws.all (fun v => !v.p) && wordsBits ws 0 8 == 0 && (match s1.core? 0 with | some k => (k.ctx? 0).isSome | none => false)
        | _ => false) = true) := by decide +kernel

-- a corrected error at the threshold and below it; a verified sector, the last one, and one that failed
theorem witness_PreemptionAndSilentErrorEvents_sparing :
    (let m := { demo.module with rspThr := 1 }
     m.sparing = none ∧ m.toSpare = [] ∧ m.kept = [] ∧ m.banks = [] ∧ HbmBank.spare ⟨0, 0⟩ = some 0 ∧ max 1 m.rspThr.toNat = 1 ∧
      (m.rowErrs.find? fun e => (e.1, e.2.1) == (0, 0)) = none ∧ 1 < max 1 ({ m with rspThr := 9 } : Module).rspThr.toNat) ∧
    (let x : Sparing := ⟨5, Config.bankOf 5, 7, 0, 3⟩
     x.bank = Config.bankOf x.sec ∧ x.spare < 8 ∧ ({ demo.module with sparing := some x }).sparing = some x ∧ HbmBank.spare ⟨0, 0 ||| BitVec.ofNat 8 (2 ^ x.spare)⟩ = some 1) :=
  ⟨by decide +kernel, rfl, by decide, rfl, by decide⟩

-- an enabled port and a disabled one; an acknowledgement, a 15th and a 16th flit in a row that fails, a packet
theorem witness_RingCommitAndLinkEvents_ports :
    demo.module.booterr = 0 ∧ { demo with module := { demo.module with booterr := 2 } }.module.booterr ≠ 0 ∧
    { Fuses.full with lpen := 0 }.lpen.getLsbD 0 = false ∧ demo.module.fuses.lpen.getLsbD 0 = true ∧ (demo.port? 0).map (·.blocked) = some [] ∧
    14 + 1 < 16 ∧ 16 ≤ 15 + 1 := by decide +kernel

-- an EVAC at work, a step above the limit, no TLBI at work; a DRAFTLD that has not begun, and at each of its ends
theorem witness_PrivilegedOperationsHoldTheirContext_stalls :
    ({ demoWith { demoT with hold := .evac 5 1 1 0 false } with free := 1 }.evacBefore 1 = true ∧ demoPriv.tlbiBefore 0 demoPriv.free = false ∧
      ({ demo.module with opStep := true, opTo := 3 } : Module).opStep = true ∧ max 1 demo.module.pt < 3) ∧
    (heldS (.draftld 0 0x40000 48 false none [] .load) demo.ev).hoppingAt 0 = false ∧
      ({ heldS (.draftld 0 0x40000 48 false none [] .load) demo.ev with agenda := [(201, .packetArrival 0 1 noPacket)] } : State).hoppingAt 0 = true ∧
    (demoT.hold = .none ∧ (∀ out : DraftEnd, { demoT with hold := .draftld 0 0x40000 48 false none [] out }.hold = .draftld 0 0x40000 48 false none [] out) ∧
      DraftEnd.result 1 ≠ .going ∧ ∀ cause info, DraftEnd.result 1 ≠ .fault cause info) :=
  ⟨by decide +kernel, by decide +kernel, by decide +kernel, rfl, fun _ => rfl, by decide, fun _ _ => by simp⟩

-- forms of every slot, each with its guard's bank
theorem witness_FailingGuardHasNoEffect_forms :
    (∀ i ∈ [Instr.sub ⟨.i0, never, 3, 4, 5, .i64⟩, .ld64 ⟨.i1, never, 3, 4, 8, .i64⟩, .pandIF ⟨.i1, never, 3, 1, 2⟩],
      Instr.guard i = some never ∧ Instr.scalarGuard i = some (.pi, false)) ∧
    (∀ i ∈ [Instr.launch ⟨never, 3, 4, 5⟩, .pandC ⟨never, 3, 1, 2⟩, .qset64 ⟨never, 2, 3, false⟩ Sync.none, .aadd ⟨never, 3, 2, 4, false, 3, true⟩, .semadd ⟨never, 12, 1⟩],
      Instr.guard i = some never ∧ Instr.scalarGuard i = some (.pk, false)) ∧
    (Instr.guard (.mdrain ⟨never⟩) = some never ∧ Instr.scalarGuard (.mdrain ⟨never⟩) = some (.pk, true)) ∧ Guard.ok never .pk demo.bun.oldM = false := by
  decide +kernel

/-- The demo context with a pending pre-emption, or none; with a pending watchdog, or none; with a stopped stream. -/
def pended (preempt : Option Word64) (watchdog : Option Nat) : Ctx :=
  { demoX with pend := ⟨preempt, watchdog, [⟨2, 7, 0x40000000, 0, 9⟩], [12]⟩ }

theorem witness_BoundaryEvents_order :
    (∀ x ∈ [pended (some 9) (some 0), pended none (some 0), pended none none],
      (demoWith x).ctx? 0 0 = some x ∧ x.st = .issuing ∧ x.sr.tmode = false ∧ x.win = none ∧ x.sr.tvec.getLsbD 0 = true) ∧
    (pended (some 9) (some 0)).pend.preempt = some 9 ∧ (pended none (some 0)).pend.watchdog = some 0 ∧ (pended none none).pend.faults ≠ [] := by decide +kernel

/-- VLD of a passing guard from x2, and VGATH with the indices of v1. -/
def vldOp : VMemOp := OpVM.op true ⟨always, 5, 2, false, .f32⟩
def gathOp : VMemOp := OpVX.op true ⟨always, 6, 2, false, 1⟩

-- CHKA without a record; an atomic at an odd address; a vector base that is poisoned, the first poisoned index, the first lane at 2^52, the first odd one
theorem witness_AccessChecks_vector :
    ((demoX.watch.any fun w => w.y == false && w.d == 7) = false ∧ (2 ^ 52 - 1) % 8 ≠ 0) ∧
    (vldOp.active (withBase ⟨0, true⟩).bun.old ≠ [] ∧ ((withBase ⟨0, true⟩).bun.old.getXY vldOp.fs vldOp.a.toNat).p = true) ∧
    (let r := { demoRegs with v := [(1, ⟨0, 0xC⟩)] }
     (r.getXY gathOp.fs gathOp.a.toNat).p = false ∧ 2 ∈ gathOp.active r ∧ gathOp.vi = some 1 ∧ (r.getV 1).p.getLsbD 2 = true ∧
      ∀ m ∈ gathOp.active r, m < 2 → ¬(r.getV 1).p.getLsbD m = true) ∧
    (let r := (withBase ⟨2 ^ 52 - 4, false⟩).bun.old
     (r.getXY vldOp.fs vldOp.a.toNat).p = false ∧ 1 ∈ vldOp.active r ∧ 2 ^ 52 < vldOp.addr r 1 + 4 ∧
      (∀ m ∈ vldOp.active r, 2 ^ 52 < vldOp.addr r m + 4 → vldOp.addr r 1 ≤ vldOp.addr r m) ∧ ¬2 ^ 52 < vldOp.addr r 0 + 4) ∧
    (let r := (withBase ⟨0x40002, false⟩).bun.old
     0 ∈ vldOp.active r ∧ (∀ l ∈ vldOp.active r, vldOp.addr r l + 4 ≤ 2 ^ 52) ∧ vldOp.addr r 0 % 4 ≠ 0 ∧
      ∀ m ∈ vldOp.active r, vldOp.addr r m % 4 ≠ 0 → vldOp.addr r 0 ≤ vldOp.addr r m) := by decide +kernel

-- a wait that is not met and a full queue in each of the three queues; a format pair that changes without an MDRAIN
theorem witness_MatrixOperationsAreQueued_waits :
    (let k := { mxK with sems := [] }
     demoSync.wt ≠ 0 ∧ (k.sem demoSync.ws.toNat).met demoSync.wt.toNat = false ∧ Slot.m ∉ demoX.sat ∧ Slot.q ∉ demoX.sat ∧ Slot.y ∉ demoX.sat) ∧
    16 ≤ (List.replicate 16 (demoOp .mdrain none)).length ∧ 16 ≤ ((List.replicate 16 (demoY .drain)).filter fun y => !y.started).length ∧
    (fmtWord .f32 .f32 false ≠ mxK.mx.fmtIssued ∧ { mxK.mx with drained := false }.drained = false ∧ Guard.ok always .pk mxS.bun.oldM = true) := by decide +kernel

-- no access of the context and no row stands in the way of a STEP's release half
theorem witness_ChannelCommandsAreQueued_step :
    (∀ z ∈ chanK.live 0, meets z.2 0x3F = false) ∧ (∀ l, (chanS id demo.ev).dirtyRows 0 (stepScope l) = [] ∧ (chanS id demo.ev).releaseWbs 0 (stepScope l) = []) := by
  decide +kernel

-- a ring channel with a start pending, and one that resets; a ring that is not there; sizes that break the rules
theorem witness_ChannelCommandsAreQueued_chstart :
    chanK.ringAhead 3 (demoChan 3 3).rst = 3 ∧ chanK.ringAhead 3 (demoChan 3 4).rst = 4 ∧ (demoChan 3 3).kind = 3 ∧ (demoChan 3 4).kind = 3 ∧
    (demo.ringOf 0 (demoChan 3 1)) = none ∧ (demoChan 3 1).fits 3 = false := by decide +kernel

theorem witness_SpecialRegisterAccess_guard : Guard.ok never .pk demo.bun.old = false ∧ srKind 0x008 ≠ .none ∧ srKind 0x008 ≠ .wo ∧
    srKind 0x0C2 = .wo ∧ demo.privileged 0 0 = false := by decide +kernel

-- the last spare of a bank fails
theorem witness_PreemptionAndSilentErrorEvents_lastSpare :
    HbmBank.spare ⟨0x7F, 0 ||| BitVec.ofNat 8 (2 ^ 7)⟩ = none ∧ (⟨5, Config.bankOf 5, 7, 7, 3⟩ : Sparing).spare < 8 := by decide

theorem witness_PrivilegedOperationsHoldTheirContext_launches :
    ∀ c m y d q e r sl pa ed gp, demoPriv.ctx? c m = some y → y.hold = .launch d q e r sl pa ed gp → r ≠ 0 := by
  intro c m y d q e r sl pa ed gp h hy
  have all : ∀ z ∈ demoPriv.cores, ∀ k, z.2 = some k → ∀ w ∈ k.ctxs, ∀ x, w.2 = some x → x.hold = .none := by decide +kernel
  obtain ⟨k, hk, hx⟩ : ∃ k, demoPriv.core? c = some k ∧ k.ctx? m = some y := by simpa [State.ctx?, Option.bind_eq_some_iff] using h
  rw [all _ (get_mem hk) k rfl _ (get_mem hx) y rfl] at hy
  cases hy

theorem witness_HeldOperationsComplete_slots :
    (heldS (.tlbi false 2 0x40000 0) (.tlbiCompletion 0 0)).slotPending false 0x40000 [0] = false ∧ demoT.holdM = .none ∧ demoT.holdQ = .none := by decide +kernel

/-- The mapped machine with a launch image of one cluster without tasks at 0x100000, and an entry for it selected. -/
def placing (fenced : Bool) : State :=
  let s := mapped.plantWords 0x100000 [0x4C4E4B39, 0x01010001, 0, 0, 64]
  { s.updPart 0 fun q => { q with selected := some (demoL.entry, 1, demoImg), fenced := fenced } with
    launches := [], clusters := [(0, some { Cluster.fresh with gated := true })], cores := [] }

-- a boundary with a queue at work; queues that must change; a launch that waits for power and one that is due; an entry that is placed, one that finds no rectangle
theorem witness_LaunchesRun_boundary :
    (let s := { queued 0x81 1 with ev := .residencyQuantumBoundary 0 }
     let x := (s.part? 0).getD demoP
     let s0 := s.post (s.cyclesOf (max 1 (bitsOf x.schedcfg 0 5) * 500000)) (.residencyQuantumBoundary 0)
     let s1 := s0.forEach ((x.queues.filter fun kv => kv.2.known).map (·.1)) fun s q => s.ageQueue 0 q
     s.part? 0 = some x ∧ x.fenced = false ∧ x.boundQ.Nodup ∧
      (match s1.part? 0 with
        | some y => (match s1.withWork 0 y.boundQ with | (s2, _) => (s2.part? 0).isSome)
        | none => false) = true) ∧
    (let q := { demoL with started := false }
     q.part = 0 ∧ q.started = false ∧ q.aborted = false ∧ Tab.wf none [(0, some q)] = true ∧ q.tstart ≤ demo.ticks ∧ demo.ticks < { q with tstart := 10000 }.tstart ∧
      demoL.started = true) ∧
    (let s := placing false
     (placing true).part? 0 = some { (s.part? 0).getD demoP with fenced := true } ∧ s.module.pt ≠ 4 ∧ s.module.opStep = false ∧
      (let i := demoImg
       s.origins 0 i.cw i.ch i.dieLocal ≠ [] ∧ (match s.chooseOrigin 0 i.cw i.ch i.dieLocal with
        | some o =>
          let q : Launch := ⟨0, demoL.entry, o.1, o.2, i.cw, i.ch, 1, s.ticks, [], false, false, false, none, i⟩
          ((s.updPart 0 fun x => { x with selected := none }).lackingCore q i).isNone
        | none => false) = true ∧ ({ s with clusters := [] }.chooseOrigin 0 i.cw i.ch i.dieLocal).isNone = true ∧ { s with clusters := [] }.origins 0 i.cw i.ch i.dieLocal ≠ [] ∧
        s.origins 0 17 1 false = [])) := by decide +kernel

-- a row of which a copy has been lost
theorem witness_RowLandingAndAcknowledgement_lost : demoSend.lost = false ∧ { demoSend with copies := 1, lost := true }.lost = true := by decide

-- the host's request on and off its IDE stream, where the TDI is in RUN
theorem witness_WorkSubmission_host :
    demo.takesHost 0 false = true ∧ { demo with parts := [(0, some { demoP with tdist := 2 })] }.takesHost 0 false = false ∧
    { demo with parts := [(0, some { demoP with tdist := 2 })] }.takesHost 0 true = true ∧ { demoP with fenced := true }.fenced = true := by decide +kernel

/-! ## Witnesses of the forms that stand beside those -/

/-- The demo context in the last delay bundle of a taken window, inside a loop level, with a program counter and a count; the machine with it. -/
def closing (pc : VAddr) (rem : Nat) : Ctx := { demoX with win := some ⟨1, true, 0x10040, false⟩, pc := pc, loops := [⟨0x10008, 5, rem, []⟩] }
def closingS (x : Ctx) : State := { demoWith x with bun := { demo.bun with win := some ⟨2, true, 0x10040, false⟩ } }

-- a window that closes inside a loop body, at its end with a turn left, and at its end in the last turn
theorem witness_BranchesOpenTheirWindow_loops :
    (∀ x, (closingS x).bun.status = .normal ∧ (closingS x).ctx? 0 0 = (demoWith x).ctx? 0 0) ∧
    ((demoWith (closing 0x10010 2)).ctx? 0 0 = some (closing 0x10010 2) ∧ (demoWith (closing 0x1001C 2)).ctx? 0 0 = some (closing 0x1001C 2) ∧
      (demoWith (closing 0x1001C 1)).ctx? 0 0 = some (closing 0x1001C 1)) ∧
    (∀ pc rem, (closing pc rem).hold = .none) ∧ 1 - (1 + demo.bun.er) = 0 ∧ (0x10010 : VAddr) ≠ 0x10008 + BitVec.ofNat 52 (4 * 5) ∧
    (0x1001C : VAddr) = 0x10008 + BitVec.ofNat 52 (4 * 5) ∧ Tab.wf RV.zero demoRegs.c = true :=
  ⟨fun _ => ⟨rfl, rfl⟩, by decide +kernel, fun _ _ => rfl, by decide +kernel, by decide +kernel, by decide +kernel, by decide +kernel⟩

/-- The demo context in its routine, told of a stopped stream of register 2, which stands FAULTED. -/
def resumes : Ctx := { demoT with resume := some ⟨2, 0x07, 0x40000000, 0, 9⟩ }
def resumesK : Core := { mxK.setCtx 0 resumes with
  sregs := [(2, some { demoReg with st := 3, strm := some ⟨9, false, 0, demoSync, 0, 4096, 7, 7, [], [], 0, 127, false, 0, false, false, true, false, false, false⟩ })] }
theorem witness_EretReturnsOrIsPrivileged_resume :
    (demoCore fun _ => resumesK).issues resumesK 0 resumes ∧ (demoCore fun _ => resumesK).passes always .pk ∧ (demoCore fun _ => resumesK).privileged 0 0 = true ∧
    ((resumesK.sreg 2).strm.map fun m => (m.faulted, m.id)) = some (true, 9) ∧ (resumes.resume.map fun f => (f.kind, f.cmd, f.reg)) = some (0, 9, 2) :=
  ⟨⟨by decide +kernel, by decide +kernel, by decide +kernel⟩, by unfold State.passes; decide +kernel, by decide +kernel, by decide +kernel, by decide +kernel⟩

-- a HALT whose bundle holds the context, and a context that such a one has doomed
theorem witness_TrapYieldRetireHalt_held :
    heldX.held = true ∧ demoX.held = false ∧
    (let x := { demoX with doom := some (0x16, 0) }
     (demoWith x).ctx? 0 0 = some x ∧ x.late = none ∧ x.doom = some (0x16, 0)) := by decide +kernel

-- a write of NOTSTAT that is still to act, and none
theorem witness_AtomicsPerformAtTheHomeSlice_writes :
    (let s := { demo with agenda := [(200, .notstatWrite 0 0)] }
     s.issues demoK 0 demoX ∧ (let s2 := (s.translate 0 0x40000 .write).1; (s2.ctx? 0 0).isSome = true ∧ s2.writesDue (s2.partOf 0) = true)) ∧
    (let s2 := (demo.translate 0 0x40000 .write).1; s2.writesDue (s2.partOf 0) = false) :=
  ⟨⟨⟨by decide +kernel, by decide +kernel, by decide +kernel⟩, by decide +kernel⟩, by decide +kernel⟩

-- a command that was issued before the bundle
theorem witness_FenceAndTime_earlier :
    let s := { demoCore fun _ => pendingK with bun := { demo.bun with cmd0 := 9 } }
    s.issues pendingK 0 demoX ∧ ((pendingK.pending 0 63).filter fun i => decide (i < s.bun.cmd0)) ≠ [] :=
  ⟨⟨by decide +kernel, by decide +kernel, by decide +kernel⟩, by decide +kernel⟩

-- loop registers where no level is open, in a routine, and of an open nest
theorem witness_SpecialRegisterWrites_nest : demoX.loops = [] ∧ demoT.sr.tmode = true ∧ looped.sr.tmode = false ∧ looped.loops ≠ [] := by decide

theorem witness_PrivilegedOperationsHoldTheirContext_late : ∀ c m y, demoPriv.ctx? c m = some y → y.late = none := by
  intro c m y h
  have all : ∀ z ∈ demoPriv.cores, ∀ k, z.2 = some k → ∀ w ∈ k.ctxs, ∀ x, w.2 = some x → x.late = none := by decide +kernel
  obtain ⟨k, hk, hx⟩ : ∃ k, demoPriv.core? c = some k ∧ k.ctx? m = some y := by simpa [State.ctx?, Option.bind_eq_some_iff] using h
  exact all _ (get_mem hk) k rfl _ (get_mem hx) y rfl

-- no atomic that waits, and one that waits for the TLBI alone
theorem witness_HeldOperationsComplete_late :
    (heldS (.tlbi false 2 0x40000 0) (.tlbiCompletion 0 0)).latePending false 0x40000 [0] = [] ∧
    (demoWith { demoT with hold := .tlbi false 2 0x40000 0, late := heldX.late }).latePending false 0x40000 [0] = [(0, 0, true)] := by decide +kernel

-- a fill that is checked under a key that stays
theorem witness_FillsAndWriteBacks_key :
    let f : Fill := ⟨0x400, 0x40000, 0, 0, none⟩
    (((demo.flushWbs 0 f.pa).meet (f.pa / 64) []).homeWords ⟨f.part, f.ed, some 0, f.range⟩ 65 f.pa 64).1.keyLoaded ⟨f.part, f.ed, some 0, f.range⟩ = true := by decide +kernel

/-- A move word: its guard, destination, source and immediate. -/
def moveWord (gd dst src imm : Nat) : Word32 := BitVec.ofNat 32 (2 ^ 31 + gd * 2 ^ 29 + dst * 2 ^ 23 + src * 2 ^ 17 + imm)
/-- A running grid with two moves of an element. -/
def movesOf (e : Nat) (a b : Word32) : Grid := { Grid.fresh with st := 3, img := [(32 * e, ⟨a, false⟩), (32 * e + 1, ⟨b, false⟩)] }
/-- Whether a cycle of it goes on, with a stream element at every GIN port and room at every GOUT port, the moves that perform naming these destinations. -/
def cycles (e : Nat) (g : Grid) (dsts : List Nat) : Bool :=
  (g.cycle 8 0 7 true false (fun _ => .word ⟨1, false⟩) (fun _ => .room)).isSome && (g.moves e 0 true).map (·.dst) == dsts

-- every destination and every source, the guards, a clash; a stall; a result that is due and one that is not
theorem witness_GridEvents_cycle :
    (∀ d ∈ [1, 8, 0x0B, 0x11, 0x12, 0x20, 0x21, 0x22, 0x23, 0x24, 0x25, 0x26, 0x27, 0x28, 0x29, 0x2A, 0x2B, 0x2C, 0x2D, 0x30, 0x31, 0x32, 0x33, 0x34, 0x35, 0x36, 0x38,
       0x3C, 0x3D, 0x3E], cycles 0 (movesOf 0 (moveWord 0 d 0x09 5) 0) [d] = true) ∧
    (∀ c ∈ [0, 1, 8, 0x09, 0x0A, 0x0B, 0x0C, 0x10, 0x13, 0x14, 0x20, 0x28, 0x30, 0x38, 0x3C], cycles 0 (movesOf 0 (moveWord 0 1 c 0) 0) [1] = true) ∧
    cycles 9 (movesOf 9 (moveWord 0 0x10 0x09 5) (moveWord 0 0x13 0x09 6)) [0x10, 0x13] = true ∧ cycles 7 (movesOf 7 (moveWord 0 0x15 0x09 5) 0) [0x15] = true ∧
    cycles 0 (movesOf 0 (moveWord 2 1 0x09 5) (moveWord 3 2 0x09 5)) [1, 2] = true ∧ cycles 0 (movesOf 0 (moveWord 1 1 0x09 5) (moveWord 0 2 0x09 5)) [2] = true ∧
    cycles 0 (movesOf 0 (moveWord 0 0x21 0x09 5) (moveWord 0 0x22 0x09 5)) [0x22] = true ∧
    ((movesOf 0 (moveWord 0 1 0x14 0) 0).cycle 8 0 0 true false (fun _ => .wait) (fun _ => .room)).isNone = true ∧
    (let g := { Grid.fresh with clock := 5, flight := [⟨0, 0x21, 5, ⟨1, false⟩⟩, ⟨0, 0x0B, 6, ⟨1, false⟩⟩] }
     Tab.wf ⟨0, false⟩ g.els = true ∧ Tab.wf ⟨0, false⟩ g.flags = true ∧ ∀ x ∈ g.flight, x.code < 64) := by decide +kernel

-- a cycle of a run that is not its last: one that goes on, one that stalls; a GCFG that signals; two GSTOPs
theorem witness_GridEvents_run :
    let r : GRun := { demoRun with turns := 4, cyc := 2, bind := 0x12 }
    let k := fun (w : Word32) => { mxK with
      sregs := [(2, some { demoReg with strm := some (demoStrm false 0 0 []) })], grid := { movesOf 0 w 0 with run := some r } }
    let cycle := fun (k : Core) => k.grid.cycle 8 (r.cyc % 1) (BitVec.ofNat 32 (r.base + r.cyc / 1)) (r.cyc / 1 + 1 == r.turns) r.psn (k.ginNow r) (k.goutNow r (r.cyc / 1))
    r.nextAt ≤ demo.cycle ∧ r.stopping = false ∧ r.cyc + 1 < r.turns * (Grid.fresh.iim1 + 1) ∧ (cycle (k (moveWord 0 1 0x09 5))).isSome = true ∧
    (cycle (k (moveWord 0 1 0x14 0))).isNone = true ∧
    ([demoQ (.gcfg 0x40000 0 false) true].find? fun y => y.id = 9) = some (demoQ (.gcfg 0x40000 0 false) true) ∧ demoSync.si ≠ 0 ∧
    ((demoSync :: [(0, demoSync), (0, demoSync)].map (·.2)).filter fun w => w.si ≠ 0 ∧ w.ss.toNat = 2).length = 3 := by decide +kernel

/-- An element with a code, of scale 2^0. -/
def elem (code : Nat) : Elem := ⟨BitVec.ofNat 64 code, false, 127, false⟩

-- a fold whose terms are finite, one with an infinity, with both, and with a NaN; a block of a narrow format
theorem witness_MatrixWritesStayInTheirTile_folds :
    (∀ a ∈ [0x3F80, 0x8000, 0x7F80, 0x7FC0], 2 * (0 + 1) ≤ #[elem a, elem 0x3F80].size ∧ 2 * (0 + 1) ≤ #[elem 0x3F80, elem 0x3F80].size) ∧
    (match f32 0x3F800000 with | .fin _ _ _ => true | _ => false) = true ∧ (elem 0x7F80).val .bf16 = .inf false ∧ (elem 0xFF80).val .bf16 = .inf true ∧
    (elem 0x7FC0).val .bf16 = .nan ∧ (match (elem 0x3F80).val .bf16 with | .fin _ _ _ => true | _ => false) = true ∧ 32 * (0 + 1) ≤ (Array.replicate 32 (elem 0x38)).size := by
  decide +kernel

-- an MMA with a column, that reads its last row, that writes it; CMUL at each quarter and between; an MBFLY of the last stage with ORD
theorem witness_MatrixWritesStayInTheirTile_values :
    (let o := { demoMma 0 with bcap := [[elem 0x3F80]], rowsRead := 7, rowsWritten := 6, acc := [⟨0, 0⟩] }
     0 < o.bcap.length ∧ 0 < o.k ∧ o.kind = .mma false 1 2 0 ∧ o.step = o.steps ∧ o.rowsRead < o.m ∧ o.rowsWritten < o.rowsRead ∧ 63 < o.n) ∧
    (∀ e ∈ [1, 3], 4 * e % 4 = 0 ∧ e % 4 ≠ 0 ∧ 4 * e / 4 % 4 = e) ∧ 4 * 2 % 4 = 0 ∧ 4 * 1 % 3 ≠ 0 ∧
    (let t : Twid := ⟨5, false, [2, 3]⟩
     let o := { demoOp (.mbfly 0 1 true true) (some 0) with twid := some t, src := List.replicate 64 ⟨0, 0⟩ }
     o.kind = .mbfly 0 1 true true ∧ o.twid = some t ∧ radixProduct t.rad = t.n ∧ 1 < t.rad.length ∧ o.src.length = 64 * t.tiles ∧
       1 < t.n / radixProduct (t.rad.drop 1) ∧ 0 < radixProduct (t.rad.drop 1) / 3 ∧
       -- place 5 has the digits 1 and 2
       1 < 2 ∧ 2 < 3 ∧ (1 * 3 + 2 = 1 * 3 + 0 + 2 * 1) ∧ ((List.range 2).map fun i => [1, 2].getD i 0 * radixProduct (t.rad.drop (i + 1))).sum = 5) := by decide +kernel

/-- An entry of flow 0 at port N with an action, XCNT, QUOTA, out of port E; the router of it, with a round that has taken rank 0 and holds rank 2. -/
def groupEntry (act xcnt quota : Nat) : Rec128 := BitVec.ofNat 128 (1 + 2 ^ 16 * act + 2 ^ 23 + 2 ^ 32 * xcnt + 2 ^ 98 * quota)
def heldRank (rank seqNo : Nat) : Contribution := ⟨rank, 0, seqNo, { noPacket with rank := BitVec.ofNat 16 rank, words := [⟨2, false⟩], vc := 2 }⟩
def groupRouter (e : Rec128) (held : List Contribution) : Router :=
  { Router.fresh with part := some 0, entries := [e], arrivals := 9, rounds := [⟨0, 0, 0, false, 0 :: held.map (·.rank), 1, [⟨1, false⟩], held, []⟩] }
def rankPacket (rank : Nat) : Packet := { noPacket with rank := BitVec.ofNat 16 rank, words := [⟨3, false⟩], vc := 2 }

-- a transpose in its range and beyond it
theorem witness_PacketsAndRowSends_transpose :
    let e := BitVec.ofNat 128 (1 + 2 ^ 16 * 4 + 2 ^ 98 * 3 + 2 ^ 106 * 1)
    let t := { Router.fresh with part := some 0, entries := [e] }
    t.matching 0 { noPacket with vc := t.arrivalVc 0 noPacket } = some e ∧ t.part = some noPacket.part.toNat ∧ Rec128.act e = 4 ∧
    (7 < (bitsOf e 98 8 + 1) * (bitsOf e 106 8 + 1)) ∧ (bitsOf e 98 8 + 1) * (bitsOf e 106 8 + 1) ≤ 8 := by decide +kernel

-- a rank out of range, one taken, a bad length, a group at its QUOTA; the rank whose turn it is, with the next one held, which completes the round or not; one that is held
theorem witness_PacketsAndRowSends_groups :
    (∀ act ∈ [1, 2, 3, 5], let e := groupEntry act 3 3; let t := groupRouter e [heldRank 2 8]
      t.matching 0 { rankPacket 1 with vc := t.arrivalVc 0 (rankPacket 1) } = some e ∧ t.part = some (rankPacket 1).part.toNat ∧ t.waiting = [] ∧ Rec128.act e = act ∧
      Rec128.rlo e + Rec128.xcnt e ≤ 3 ∧ 0 ∈ ((t.rounds.find? fun q => q.flow = 0 && q.seq = 0).map (·.ranks)).getD [] ∧
      (rankPacket 1).words.length - 1 = 0 ∧ { rankPacket 1 with words := [⟨0, false⟩, ⟨0, false⟩] }.words.length - 1 ≠ 0 ∧
      Rec128.quota (groupEntry act 3 2) ≤ ((t.rounds.filter fun q => q.flow = 0).map fun q => (if q.acc = [] then 0 else 1) + q.held.length).sum ∧
      ¬(Rec128.quota e ≤ ((t.rounds.filter fun q => q.flow = 0).map fun q => (if q.acc = [] then 0 else 1) + q.held.length).sum)) ∧
    (let held := insertHeld (heldRank 1 9) [heldRank 2 8]
     let l := [heldRank 1 9, heldRank 2 8]
     (held.map (·.rank)).Nodup ∧ (held.map (·.seqNo)).Nodup ∧ (∀ x ∈ l, x ∈ held) ∧ l.map (·.rank) = List.range' 1 l.length ∧ (∀ x ∈ held, x.rank ≠ 1 + l.length) ∧
     3 ≤ ([0, 2] ++ [1]).length ∧ ¬(4 ≤ ([0, 2] ++ [1]).length)) ∧
    (let held := insertHeld (heldRank 3 9) [heldRank 2 8]
     (held.map (·.rank)).Nodup ∧ (held.map (·.seqNo)).Nodup ∧ (∀ x ∈ held, x.rank ≠ 1 + 0)) ∧
    ([heldRank 2 8].Pairwise fun a b => a.rank < b.rank) ∧ (∀ d ∈ [heldRank 2 8], d.seqNo < (heldRank 1 9).seqNo) ∧
    (groupEntry 1 3 3).getLsbD 21 = false ∧ (BitVec.ofNat 128 (2 ^ 21) : Rec128).getLsbD 21 = true ∧ noPacket.wide = false := by decide +kernel

-- a channel that is empty
theorem witness_ChannelCommandsAreQueued_empty : chanK.chan? (9 : BitVec 6).toNat = none ∧ (demoChan 1 0).kind ≠ 2 ∧ (demoChan 1 0).kind ≠ 3 ∧ (demoChan 2 0).kind ≠ 1 := by
  decide +kernel

end Sys2Proof.Tests
end

section
/-! SUPPORT. The step: a bundle of one slot, and a bundle whose wait strands the core. -/

namespace Sys2Proof.Machine

/-! ## The bundle of one slot -/

@[simp] theorem outcomeStatus_next (t : State) : outcomeStatus (.next t) = some t.bun.status := rfl

/-- Of the outcomes that go on, only a trap ends the attempt. -/
theorem endsAttempt_next (t : State) : endsAttempt (.next t) = (t.bun.status == .trapped) := by simp [endsAttempt]

section OneSlot
variable {s t : State} {w : SlotWord} {c n : Nat}

/-- A bundle whose one slot traps comes to that trap. -/
theorem runSlots_one_of_trapped (h : slotOutcome s w = .next t) (ht : t.bun.status = .trapped) :
    runSlots s c n [w] = .next t := by
  cases hw : testsAtIssue s w <;> simp [runSlots, h, endsAttempt_next, ht, hw, waits]

/-- A bundle whose one slot waits comes to that wait. -/
theorem runSlots_one_of_waits (hs : s.bun.status = .normal) (h : slotOutcome s w = .next t) (ht : waits t.bun.status = true) :
    runSlots s c n [w] = .next t := by
  have hsame : ({ s with bun := { s.bun with status := .normal } } : State) = s := by rw [← hs]
  have hb : t.bun.status = .blocked ∨ t.bun.status = .stalled := by simpa [waits] using ht
  have hwait : waitAll s [w] false = .next t := by
    obtain hb | hb := hb <;> simp [waitAll, hsame, h, hb] <;> rw [← hb]
  have hends : endsAttempt (.next t) = false := by obtain hb | hb := hb <;> simp [endsAttempt_next, hb]
  simp [runSlots, h, hends, ht, hwait]

/-- A bundle whose one slot neither traps nor waits performs it. -/
theorem runSlots_one_of_performs {u : State} (h : slotOutcome s w = .next t) (htrap : t.bun.status ≠ .trapped) (hwait : waits t.bun.status = false)
    (hu : slotOutcome { s with bun := { s.bun with performs := true } } w = .next u) (hutrap : u.bun.status ≠ .trapped)
    (huwait : waits u.bun.status = false) : runSlots s c n [w] = .next u := by
  have hrank : slotRank w < 8 := by
    unfold slotRank
    dsimp only
    repeat' split
    all_goals omega
  have horder : performOrder [w] = [w] := by
    simp only [performOrder, List.filter_cons, List.filter_nil]
    generalize slotRank w = r at hrank
    interval_cases r <;> rfl
  have hends : endsAttempt (.next t) = false := by simp [endsAttempt_next, htrap]
  simp [runSlots, h, hends, hwait, horder, performAll, hu, hutrap, huwait]

end OneSlot

/-! ## From the step to the bundle -/

/-- A core issues where nothing of the agenda comes before it and no residue check fails in its cycle. -/
theorem step_of_nextCore {s : State} {c t : Nat} (hn : s.nextCore = some (c, t)) (hlate : ∀ a, s.agenda.head? = some a → t ≤ a.1)
    (hm : ∀ a ∈ s.agenda, a.1 = t → Event.mismatch a.2 = false) : step s = issueCore (s.advance t) c := by
  have hfind : (s.agenda.find? fun a => a.1 == t && Event.mismatch a.2) = none := by
    rw [List.find?_eq_none]
    intro a ha
    by_cases hat : a.1 = t
    · simp [hm a ha hat]
    · simp [hat]
  unfold step advanceModule
  cases hl : s.agenda with
  | nil => simp [hn]
  | cons a l =>
    obtain ⟨d, e⟩ := a
    have hd : ¬ d < t := by simpa using hlate (d, e) (by simp [hl])
    rw [hl] at hfind
    simp only [hn, hd, if_false, hfind]

/-- A context at whose boundary nothing stands before its next bundle attempts it. -/
theorem attempt_of_raw {s s1 s3 : State} {c n : Nat} {x : Ctx} {b : Raw} (h1 : s1 = (s.countIssue c n).landLate c n) (hx : s1.ctx? c n = some x)
    (hdoom : x.doom = none) (hpend : (x.pend.any && !x.sr.tmode && x.win.isNone) = false) (hnot : s1.noticeDue c n x = false)
    (hy : s1.yieldDue c n x = false)
    (hb : (s1.updCtx c n fun x => { x with yreq := x.yreq && x.win.isSome }).nextBundle c x = (s3, .raw b)) :
    attempt s c n = attemptRaw s3 c n x b := by
  subst h1
  have hpend' : (x.hold == .none && x.pend.any && !x.sr.tmode && x.win.isNone) = false := by
    simpa [Bool.and_assoc] using fun _ => by simpa [Bool.and_assoc] using hpend
  unfold attempt
  simp only [hx, hdoom, hpend', hnot, hy, hb, Bool.and_false, if_false, Bool.false_eq_true]

/-- A bundle that passes the checks on the whole bundle runs its slots. -/
theorem attemptRaw_of_slots {s : State} {c n : Nat} {x : Ctx} {b : Raw} {ts : List SlotWord} (hill : b.illegal x.pc x.win x.loops = false)
    (hdb : b.delayBranch x.win = false) (hpm : bitsOf b.head 0 7 ≠ 0) (hst : b.stalls x s.cycle = false) (hts : b.slots = some ts) :
    attemptRaw s c n x b = finishOutcome c n (runSlots (s.begin c n x b) c n ts) := by
  simp [attemptRaw, hill, hdb, hpm, hst, hts]

@[simp] theorem State.begin_status (s : State) (c n : Nat) (x : Ctx) (b : Raw) : (s.begin c n x b).bun.status = .normal := by
  simp [State.begin]

/-- Settles O1: a step of the core that issues next is the attempt of its context, which is that of its bundle, which is that of the one slot. -/
theorem stepRunsTheDecodedInstruction : Obligations.StepRunsTheDecodedInstruction := by
  unfold Obligations.StepRunsTheDecodedInstruction
  intro s s1 s2 s3 c t n x b w i hn hlate hm hiss h1 hx hdoom hpend hnot hy h2 hb hill hdb hpm hst hts hw s4 performing t' ht'
  have hstep : step s = finishOutcome c n (runSlots s4 c n [w]) := by
    rw [step_of_nextCore hn hlate hm, issueCore, hiss]
    exact (attempt_of_raw h1 hx hdoom hpend hnot hy (h2 ▸ hb)).trans (attemptRaw_of_slots hill hdb hpm hst hts)
  have hnormal : s4.bun.status = .normal := State.begin_status ..
  have hslot : slotOutcome s4 w = .next t' := by simp only [slotOutcome, hw, ht']
  refine ⟨?_, fun u htt htb hts' hu hut hub hus => ?_⟩
  · rintro (htrap | hblock | hstall)
    · rw [hstep, runSlots_one_of_trapped hslot htrap, finishOutcome]
    · rw [hstep, runSlots_one_of_waits hnormal hslot (by simp [hblock, waits]), finishOutcome]
    · rw [hstep, runSlots_one_of_waits hnormal hslot (by simp [hstall, waits]), finishOutcome]
  · have huslot : slotOutcome performing w = .next u := by simp only [slotOutcome, hw, hu]
    rw [hstep, runSlots_one_of_performs hslot htt (by simp [waits, htb, hts']) huslot hut (by simp [waits, hub, hus]), finishOutcome]

/-! ## A bundle whose wait strands the core

The slots of a bundle that wait are run one after another (03 R58), each in the state that the one before leaves, and `waitAll` goes on when one of them kills its
context. Here LD of I0 waits for a fill that is already on its way; its translation comes from the cluster's TLB, and the entry of LD of I1 leaves the core's TLB for
it, the only one without PIN. In the state before the bundle LD of I1 waits too; after I0 it walks page tables that map nothing, and its trap, with TVEC.EN = 0, kills
the context. SEMWAIT of Y, which waits as well, is then without a context that issues. -/

/-- The bundle: `LD x4, 64(x3)`, `LD y4, 64(y3)`, `SEMWAIT 4, 2`. -/
def strandedWords : List Word32 := [0x05000046, 0x80010683, 0x80010683, 0x0C002002]

/-- A TLB entry of partition 0 for a page of 512 MiB. -/
def strandedEntry (vpn pte : Nat) : TlbEntry := ⟨0, vpn, 29, BitVec.ofNat 64 pte, 0x30000⟩

/-- The context: it issues the bundle from its loop buffer, x3 in the page with number 0 and y3 in the page with number 1. -/
def strandedCtx : Ctx :=
  { Ctx.empty with
    st := .issuing, pc := 0x10000, timer := some 0
    regs := { Regs.zero with x := [(3, ⟨0x40000, false⟩)], y := [(3, ⟨0x20040000, false⟩)] }
    loops := [⟨0x10000, 8, 2, [(0x10000, strandedWords)]⟩] }

/-- The core: it waits for the fill of I0's block; its TLB holds 63 pinned entries and, without PIN, that of the page with number 1. -/
def strandedCore : Core :=
  { Core.fresh 0 0 with
    issuing := some 0
    ctxs := [(0, some strandedCtx), (1, some .empty), (2, some .empty), (3, some .empty)]
    stash := { Stash.empty 0 with fills := [⟨0x400, 0x40000, 0, 0, none⟩] }
    tlb := (List.range 63).map (fun i => strandedEntry (2 + i) 0x302F) ++ [strandedEntry 1 0x300F] }

/-- The machine: the cluster's TLB holds the page with number 0, and the page tables of partition 0 are empty. -/
def stranded : State :=
  { State.reset with
    parts := [(0, some { Part.fresh plantEntry with keys := [(0, some ⟨0, 0, 0⟩)] })]
    cores := [(0, some strandedCore)]
    clusters := [(0, some { Cluster.fresh with gated := false, tlb := [strandedEntry 0 0x300F] })] }

/-- Every core of the machine that issues has its context. -/
theorem stranded_hasCtx {c n : Nat} {k : Core} (hk : stranded.core? c = some k) (hn : k.issuing = some n) : (k.ctx? n).isSome = true := by
  have hcore : k = strandedCore := by
    simp only [State.core?, stranded, Tab.get] at hk
    split at hk <;> simp_all
  subst hcore
  obtain rfl : 0 = n := by simpa [strandedCore] using hn
  rfl

set_option maxRecDepth 100000 in
theorem step_stranded_stops : goesOn (step stranded) = false := by decide +kernel

/-- Refutes O7: the second of three waiting slots traps and kills the context, and the third finds no context that issues. -/
theorem not_stepNeverStops : ¬ Obligations.StepNeverStops := by
  unfold Obligations.StepNeverStops
  intro h
  have hgo := h stranded fun _ _ _ => stranded_hasCtx
  rw [step_stranded_stops] at hgo
  exact Bool.noConfusion hgo

end Sys2Proof.Machine
end
section
/-! SUPPORT. The events at a boundary. -/

namespace Sys2Proof.Machine

/-! ## Giving up issue, and traps of kind E and N -/

/-- A change of a core that leaves its contexts leaves every context. -/
theorem State.ctx?_updCore (s : State) (c : Nat) {f : Core → Core} (hf : ∀ k, (f k).ctxs = k.ctxs) (c' n : Nat) :
    (s.updCore c f).ctx? c' n = s.ctx? c' n := by
  by_cases h : c' = c
  · subst h
    cases hk : s.core? c' with
    | none => simp [State.updCore_of_none f hk]
    | some k => simp [State.ctx?, State.core?_updCore_same, hk, Core.ctx?, hf]
  · simp [State.ctx?, State.core?_updCore_ne s f h]

/-- The context that holds issue on a core, which an event at its boundary acts for. -/
theorem State.core?_bind_issuing {s : State} {c n : Nat} {k : Core} {x : Ctx} (hk : s.core? c = some k) (hn : k.issuing = some n) (hx : k.ctx? n = some x) :
    ((s.core? c).bind fun k => k.issuing.bind fun n => (k.ctx? n).map fun x => (n, x)) = some (n, x) := by simp [hk, hn, hx]

/-- Giving up issue puts a context into another state, from this cycle on, and leaves its core without an issuing context (02 R41). -/
theorem State.core?_switchOut {s : State} {c n : Nat} {k : Core} {x : Ctx} (hk : s.core? c = some k) (hn : k.issuing = some n) (hx : k.ctx? n = some x)
    (st : CtxState) : (s.switchOut c n st).core? c =
      some { k.setCtx n { x with st := st, since := s.cycle, counter := 0 } with issuing := none, freeAt := max k.freeAt (s.cycle + 1) } := by
  simp [State.switchOut, State.core?_updCore_same, State.core?_updCtx_same _ hk hx, hk, hn, Core.setCtx]

/-- A context whose TVEC is enabled, outside its trap routine, takes a trap of kind E or N with PEND 0 (12 R283, R284). -/
theorem State.ctx?_takeAsync {s : State} {c n : Nat} {x : Ctx} (hx : s.ctx? c n = some x) (ht : x.traps false = true) (cause : Nat) (info : Word64) :
    ∃ x', (s.takeAsync c n cause info).ctx? c n = some x' ∧ x'.sr.trappc = x.pc.zeroExtend 64 ∧ x'.sr.tmode = true ∧
      x'.sr.trapcause = BitVec.ofNat 64 (cause + 256) ∧ x'.sr.trapinfo = info ∧ x'.sr.brpend = 0 ∧ x'.pend = x.pend ∧ x'.regs = x.regs := by
  refine ⟨{ x.enterTrap x.pc cause true info 0 with timer := none, fills := [] }, ?_, rfl, rfl, rfl, rfl, rfl, rfl, rfl⟩
  simp [State.takeAsync, hx, ht, State.enterAsync, State.ctx?_updCore, State.ctx?_updCtx_same]

/-- Taking a trap of kind E or N leaves the partitions. -/
theorem State.takeAsync_parts {s : State} {c n : Nat} {x : Ctx} (hx : s.ctx? c n = some x) (ht : x.traps false = true) (cause : Nat) (info : Word64) :
    (s.takeAsync c n cause info).parts = s.parts := by
  simp [State.takeAsync, hx, ht, State.enterAsync]

/-- A context that is changed reads as it was changed to. -/
theorem State.ctx?_updCtx_of_some {s : State} {c n : Nat} {x : Ctx} (hx : s.ctx? c n = some x) (f : Ctx → Ctx) : (s.updCtx c n f).ctx? c n = some (f x) := by
  rw [State.ctx?_updCtx_same, hx, Option.map_some]

/-- The oldest notice of a partition is off its queue; where it told of a FLOW_MISS, its router may raise another (12 R288, 08 R205). -/
def State.dropNotice (s : State) (p : Nat) (m : Notice) (l : List Notice) : State :=
  let s := s.updPart p fun q => { q with notices := l }
  if m.cause = 0x11 then s.updRouter (bitsOf m.info 0 9) fun t => { t with missed := false } else s

@[simp] theorem State.dropNotice_parts (s : State) (p : Nat) (m : Notice) (l : List Notice) :
    (s.dropNotice p m l).parts = (s.updPart p fun q => { q with notices := l }).parts := by
  unfold State.dropNotice
  split <;> simp

@[simp] theorem State.dropNotice_cores (s : State) (p : Nat) (m : Notice) (l : List Notice) : (s.dropNotice p m l).cores = s.cores := by
  unfold State.dropNotice
  split <;> simp

/-- Settles O22: what each event does, by the lemma on what taking an event or giving up issue leaves. -/
theorem boundaryEvents : Obligations.BoundaryEvents := by
  unfold Obligations.BoundaryEvents
  intro s c n k x hk hn hx
  have hctx : s.ctx? c n = some x := by simp [State.ctx?, hk, hx]
  have hiss := State.core?_bind_issuing hk hn hx
  refine ⟨fun hev s1 cause info hb => ?_, fun hev s1 b hb hpm hst => ?_, fun hev hy => ?_, fun hev hst htm hwin hvec => ?_,
    fun hev hst hdue hvec p m l hp hm hcore hctl => ?_⟩
  · change execFetchFault s = _
    simp [execFetchFault, hev, hiss, hb]
  · change execBundleWithPmZero s = _
    simp [execBundleWithPmZero, hev, hiss, hb, hpm, hst]
  · have hexec : exec .issueCounterYield s = .next (s.yieldNow c n) := by
      change execIssueCounterYield s = _
      simp [execIssueCounterYield, hev, hiss, hy]
    have hcore := State.core?_updCtx_same (fun x => { x with yreq := false }) (State.core?_switchOut hk hn hx .ready)
      (Core.ctx?_setCtx_same k n _)
    exact ⟨_, _, _, hexec, hcore, rfl, Core.ctx?_setCtx_same _ n _, rfl, rfl, rfl⟩
  · have htrap : x.traps false = true := by simp [Ctx.traps, hvec, htm]
    -- whichever event comes off the list, the trap is that of the context without it
    have htakes : ∀ (f : Ctx → Ctx) cause info, exec .eventTaken s = .next ((s.updCtx c n f).takeAsync c n cause info) → (f x).sr = x.sr →
        (f x).pc = x.pc → (f x).regs = x.regs →
        ∃ t x', exec .eventTaken s = .next t ∧ t.ctx? c n = some x' ∧ x'.sr.trappc = x.pc.zeroExtend 64 ∧ x'.sr.tmode = true ∧
          x'.sr.trapcause = BitVec.ofNat 64 (cause + 256) ∧ x'.sr.trapinfo = info ∧ x'.sr.brpend = 0 ∧ x'.pend = (f x).pend ∧ x'.regs = x.regs := by
      intro f cause info hexec hsr hpc hregs
      obtain ⟨x', h⟩ := State.ctx?_takeAsync (State.ctx?_updCtx_of_some hctx f) (by simpa [Ctx.traps, hsr] using htrap) cause info
      rw [hpc, hregs] at h
      exact ⟨_, x', hexec, h⟩
    refine ⟨fun v hv => htakes (fun x => { x with pend := { x.pend with preempt := none }, tookPreempt := true }) 0x15 v ?_ rfl rfl rfl,
      fun w hv hw => htakes (fun x => { x with pend := { x.pend with watchdog := none } }) 0x17 _ ?_ rfl rfl rfl,
      fun f l hv hw hf => htakes (fun x => { x with pend := { x.pend with faults := l }, resume := some f }) 0x0F f.info ?_ rfl rfl rfl,
      fun i l hv hw hf hi => htakes (fun x => { x with pend := { x.pend with semOvf := l } }) 0x06 i ?_ rfl rfl rfl⟩
    all_goals change execEventTaken s = _
    · simp [execEventTaken, hev, hctx, hst, htm, hwin, hv]
    · simp [execEventTaken, hev, hctx, hst, htm, hwin, hv, hw]
    · simp [execEventTaken, hev, hctx, hst, htm, hwin, hv, hw, hf]
    · simp [execEventTaken, hev, hctx, hst, htm, hwin, hv, hw, hf, hi]
  · have htm : x.sr.tmode = false := by
      simp only [State.noticeDue, Bool.and_eq_true, Bool.not_eq_true'] at hdue
      exact hdue.1.1.2
    have htrap : x.traps false = true := by simp [Ctx.traps, hvec, htm]
    have hexec : exec .noticeTaken s = .next ((s.dropNotice (s.partOf c) m l).takeAsync c n m.cause m.info) := by
      change execNoticeTaken s = _
      simp [execNoticeTaken, State.dropNotice, hev, hp, hcore, hctl, hm, hctx, hst, hdue]
    have hu : (s.dropNotice (s.partOf c) m l).ctx? c n = some x := by rw [← hctx]; simp [State.ctx?, State.core?]
    obtain ⟨x', hx', _, htmode, hcause, hinfo, _⟩ := State.ctx?_takeAsync hu htrap m.cause m.info
    refine ⟨_, { p with notices := l }, x', hexec, ?_, rfl, hx', hcause, hinfo, htmode⟩
    have hp' := State.part?_updPart_same s (s.partOf c) fun q => { q with notices := l }
    rw [hp] at hp'
    simpa [State.part?, State.takeAsync_parts hu htrap] using hp'

end Sys2Proof.Machine
end
section
/-! SUPPORT. Work submission: a tail write, a launch semaphore, LAUNCH and its append. -/

namespace Sys2Proof.Machine

/-! ## The host's writes -/

section TailWrite
variable {s s1 : State} {p q : Nat} {x : Part} {v : Word32} {ide : Bool} {d : QDesc}

/-- A tail write that its descriptor accepts is taken: the queue is looked at, and so does dispatch (02 R29, R32). -/
theorem execQtailWrite_of_accepted (hev : s.ev = .qtailWrite p q v ide) (hx : s.part? p = some x) (ht : s.takesHost p ide = true) (hf : x.fenced = false)
    (hq : q < 4096) (hd : (s.updPart p fun x => x.setQueue q { x.queue q with known := true }).readQueue p q = (s1, some d)) (hbad : d.bad = false)
    (hen : d.en = true) (hown : d.own = false) (hroom : (v.toNat + 2 ^ 32 - d.head) % 2 ^ 32 ≤ 2 ^ d.log2n) :
    execQtailWrite s = .next (((s1.updPart p fun x => { x with qtails := Tab.set 0 x.qtails q v }).lookQueue p q).1.postOnce 1 (.dispatch p)) := by
  simp only [execQtailWrite, hev, hx, ht, hf, hd, hbad, hen, hown, Nat.not_le.2 hq, Nat.not_lt.2 hroom, decide_false, Bool.not_true, Bool.or_false,
    Bool.false_eq_true, if_false]

/-- A tail write that its descriptor does not accept leaves the error in it (02 R29). -/
theorem execQtailWrite_of_refused (hev : s.ev = .qtailWrite p q v ide) (hx : s.part? p = some x) (ht : s.takesHost p ide = true) (hf : x.fenced = false)
    (hq : q < 4096) (hd : (s.updPart p fun x => x.setQueue q { x.queue q with known := true }).readQueue p q = (s1, some d))
    (hbad : d.bad = true ∨ d.en = false ∨ d.own = true ∨ 2 ^ d.log2n < (v.toNat + 2 ^ 32 - d.head) % 2 ^ 32) :
    execQtailWrite s = .next (s1.setQueueErr p q) := by
  have hcond : (d.bad || !d.en || d.own || decide (2 ^ d.log2n < (v.toNat + 2 ^ 32 - d.head) % 2 ^ 32)) = true := by
    simpa [or_assoc] using hbad
  simp only [execQtailWrite, hev, hx, ht, hf, hd, hcond, Nat.not_le.2 hq, decide_false, Bool.not_true, Bool.or_false, Bool.false_eq_true, if_false, if_true]

end TailWrite

/-- The host's write of a launch semaphore (02 R35): VALUE as written, ERR and OVF cleared by ones. -/
def Part.writeLsem (x : Part) (n : Nat) (v : Word32) : Part :=
  let m := Tab.get ⟨0, false, false⟩ x.lsems (n % 256)
  { x with lsems := Tab.set ⟨0, false, false⟩ x.lsems (n % 256) ⟨v.truncate 16, m.err && !v.getLsbD 16, m.ovf && !v.getLsbD 17⟩ }

theorem execLaunchSemaphoreWrite_of_taken {s : State} {p n : Nat} {x : Part} {v : Word32} {ide : Bool} (hev : s.ev = .launchSemaphoreWrite p n v ide)
    (hx : s.part? p = some x) (ht : s.takesHost p ide = true) (hf : x.fenced = false) :
    execLaunchSemaphoreWrite s = .next ((s.updPart p fun x => x.writeLsem n v).postOnce 1 (.dispatch p)) := by
  simp [execLaunchSemaphoreWrite, hev, hx, ht, hf, Part.writeLsem]

/-! ## LAUNCH -/

/-- LAUNCH holds its context until its result comes (16 R406). -/
def State.holdLaunch (s : State) (n d : Nat) (q : RV) (e : List Word32) (r slot pa ed : Nat) (gp : Bool) : State :=
  (s.updCtx s.cur n fun x => { x with hold := .launch d q e r slot pa ed gp }).postOpen 40 (.launchAppend s.cur n)

section Launch
variable {s s1 s2 s3 s4 : State} {k : Core} {n p res at' : Nat} {y : Ctx} {o : OpC3} {l : Leaf} {u : State} {ws : List PWord}

/-- What a LAUNCH does once its entry is read, as its result says (16 R405 to R407). -/
theorem execLaunch_of_read (hiss : s.issues k n y) (hg : s.passes o.g .pk) (hp : s.partOf s.cur = p) (hap : (s.bun.old.getC o.a.toNat).p = false)
    (halt : (s.bun.old.getC o.a.toNat).v.toNat < 2 ^ 52) (hal : (s.bun.old.getC o.a.toNat).v.toNat % 64 = 0)
    (htr : s.translate s.cur (s.bun.old.getC o.a.toNat).v.toNat .read = (s1, .leaf l)) (hrel : s1.releaseAll 63 4 = .ok s2 u)
    (hws : s2.homeWords (s2.access s2.cur l.ed (s.bun.old.getC o.a.toNat).v.toNat) 3 l.pa 16 = (s3, ws)) (hpsn : l.psn = false)
    (hwsp : ∀ w ∈ ws, w.p = false) (hres : s3.launchResult p (s.bun.old.getC o.b.toNat) = (s4, res, at')) :
    execLaunch o s = .next (
      if res = 0 then
        if s4.launchPending p (s.bun.old.getC o.b.toNat).v.toNat then s4.stall
        else
          match s4.launchSlot p at' with
          | (s, .inr (cause, info)) => s.trap cause info
          | (t, .inl (pa, ed)) => t.holdLaunch n o.d.toNat (s.bun.old.getC o.b.toNat) (ws.map (·.w)) 0 at' pa ed (Guard.psn o.g .pk s.bun.old)
      else s4.holdLaunch n o.d.toNat (s.bun.old.getC o.b.toNat) (ws.map (·.w)) res 0 0 0 (Guard.psn o.g .pk s.bun.old)) := by
  have hany : ws.any (·.p) = false := by simpa using hwsp
  have hlt : ¬ 2 ^ 52 ≤ (s.bun.old.getC o.a.toNat).v.toNat := Nat.not_le.2 halt
  rw [execLaunch, guarded_of_passes hiss hg]
  simp only [hap, hal, hlt, htr, hrel, Try.bind_ok, hws, hpsn, hany, hp, hres, Bool.false_eq_true, if_false, Bool.or_self, ne_eq, not_true]
  cases res with
  | zero =>
    simp only [if_true]
    split
    · rfl
    · rcases s4.launchSlot p at' with ⟨t, ⟨pa, ed⟩ | ⟨cause, info⟩⟩ <;> rfl
  | succ r => rfl

end Launch

/-- The result of LAUNCH is written, and its context goes on (16 R407). -/
def State.launchDone (s : State) (c n d : Nat) (q : RV) (r : Nat) (gp : Bool) : State :=
  s.updCtx c n fun x => { x.putC s.cycle d ⟨BitVec.ofNat 64 r, q.p || gp⟩ 1 with hold := .none }

section Append
variable {s : State} {c n d r slot pa ed : Nat} {y : Ctx} {q : RV} {e : List Word32} {gp : Bool}

/-- A LAUNCH whose result is not 0 appends nothing. -/
theorem execLaunchAppend_of_ne (hev : s.ev = .launchAppend c n) (hy : s.ctx? c n = some y) (hhold : y.hold = .launch d q e r slot pa ed gp) (hr : r ≠ 0) :
    execLaunchAppend s = .next (s.launchDone c n d q r gp) := by
  simp [execLaunchAppend, hev, hy, hhold, hr, State.launchDone]

/-- A LAUNCH whose result is 0 appends its entry to the ring, and dispatch looks (16 R407). -/
theorem execLaunchAppend_of_zero (hev : s.ev = .launchAppend c n) (hy : s.ctx? c n = some y) (hhold : y.hold = .launch d q e 0 slot pa ed gp) :
    execLaunchAppend s = .next (((((s.homeWrite (s.access c ed slot) 0 3 pa (e.map fun w => ((⟨w, gp⟩ : PWord), 15))).updPart (s.partOf c) fun x =>
      { x.setQueue q.v.toNat { x.queue q.v.toNat with known := true } with
        qtails := Tab.set 0 x.qtails q.v.toNat (BitVec.ofNat 32 (x.qtail q.v.toNat + 1)) }).lookQueue (s.partOf c) q.v.toNat).1.launchDone c n d q 0 gp).postOnce 1
          (.dispatch (s.partOf c))) := by
  simp [execLaunchAppend, hev, hy, hhold, State.launchDone]

end Append

/-- Settles O56: each of the four events takes the branch of its own case, and an append that comes to 0 advances the tail of its queue. -/
theorem workSubmission : Obligations.WorkSubmission := by
  unfold Obligations.WorkSubmission
  intro s p x hx
  refine ⟨fun q v ide hev => ⟨fun ht => ?_, fun ht hf => ?_, fun s1 d ht hf hq hd => ⟨fun hbad hen hown hroom => ?_, fun hbad => ?_⟩⟩,
    fun n v ide hev ht hf hw => ?_, ?_, ?_⟩
  · change execQtailWrite s = _
    simp [execQtailWrite, hev, hx, ht]
  · change execQtailWrite s = _
    simp [execQtailWrite, hev, hx, ht, hf]
  · exact execQtailWrite_of_accepted hev hx ht hf hq hd hbad hen hown hroom
  · exact execQtailWrite_of_refused hev hx ht hf hq hd hbad
  · refine ⟨_, x.writeLsem n v, execLaunchSemaphoreWrite_of_taken hev hx ht hf, ?_, Tab.get_set_wf (⟨0, false, false⟩ : LSem) _ (n % 256) hw⟩
    simp only [State.part?, State.postOnce_parts]
    exact (State.part?_updPart_same ..).trans (congrArg _ hx)
  · intro k n y o s1 s2 s3 s4 l u ws res at' hiss hg hp a q hap halt hal htr hrel hws hpsn hwsp hres held
    have hexec := execLaunch_of_read hiss hg hp hap halt hal htr hrel hws hpsn hwsp hres
    have hholds : res ≠ 0 → exec (.launch o) s = held s4 0 0 0 := fun hr => hexec.trans (by rw [if_neg hr]; rfl)
    refine ⟨hholds, fun hr hpend => hexec.trans ?_, fun s5 pa ed hr hpend hslot => hexec.trans ?_, fun z hr hcur hz hd hwf => ?_⟩
    · rw [if_pos hr, if_pos hpend]
    · rw [if_pos hr, if_neg (by simp [q, hpend]), hslot]
      subst hr
      rfl
    · let t : State := { s4.holdLaunch n o.d.toNat q (ws.map (·.w)) res 0 0 0 (Guard.psn o.g .pk s.bun.old) with ev := .launchAppend s.cur n }
      have ht : t.ctx? s.cur n = some { z with hold := .launch o.d.toNat q (ws.map (·.w)) res 0 0 0 (Guard.psn o.g .pk s.bun.old) } := by
        rw [← hcur] at hz ⊢
        exact State.ctx?_updCtx_of_some hz _
      have hd' : o.d.toNat ≠ 0 := fun h => hd (BitVec.eq_of_toNat_eq h)
      refine ⟨_, _, _, hholds hr, execLaunchAppend_of_ne rfl ht rfl hr, State.ctx?_updCtx_of_some ht _, rfl, ?_⟩
      simp only [Ctx.putC, Regs.getC, Regs.setC, hd', if_false]
      exact Tab.get_set_wf _ _ _ hwf
  · intro c n y d q e r slot pa ed gp hev hy hhold hp done
    refine ⟨fun hr => execLaunchAppend_of_ne hev hy hhold hr, fun hr => ?_⟩
    subst hr hp
    exact execLaunchAppend_of_zero hev hy hhold

end Sys2Proof.Machine
end
section
/-! SUPPORT. The frame of memory: what an access of home memory, a walk and a read or a write of the scheduler leave of the machine. -/

namespace Sys2Proof.Machine

/-- From `s` to `t` nothing of the machine has changed that an access of memory leaves alone: time, the bundle, the clusters, the routers, the ports, the rows of
flows, what the module has given out; and every event that stood in the agenda stands there. -/
structure State.MemFrame (s t : State) : Prop where
  agenda : ∀ a ∈ s.agenda, a ∈ t.agenda
  cycle : t.cycle = s.cycle
  time18 : t.time18 = s.time18
  cur : t.cur = s.cur
  bun : t.bun = s.bun
  ev : t.ev = s.ev
  clusters : t.clusters = s.clusters
  routers : t.routers = s.routers
  ports : t.ports = s.ports
  rows : t.rows = s.rows
  out : t.out = s.out

namespace State.MemFrame

theorem refl (s : State) : s.MemFrame s := by constructor <;> simp

theorem trans {s t u : State} (h : s.MemFrame t) (h' : t.MemFrame u) : s.MemFrame u where
  agenda a ha := h'.agenda a (h.agenda a ha)
  cycle := h'.cycle.trans h.cycle
  time18 := h'.time18.trans h.time18
  cur := h'.cur.trans h.cur
  bun := h'.bun.trans h.bun
  ev := h'.ev.trans h.ev
  clusters := h'.clusters.trans h.clusters
  routers := h'.routers.trans h.routers
  ports := h'.ports.trans h.ports
  rows := h'.rows.trans h.rows
  out := h'.out.trans h.out

/-- A fold whose steps keep the frame keeps it. -/
theorem forEach {α : Type} {f : State → α → State} (h : ∀ (s : State) (x : α), s.MemFrame (f s x)) (l : List α) (s : State) : s.MemFrame (s.forEach l f) :=
  State.forEach_keeps (fun t => s.MemFrame t) (fun t x ht => ht.trans (h t x)) l s (refl s)

/-- The state of a pair that an operation answers. -/
theorem fst {α : Type} {s t : State} {a : α} {r : State × α} (h : s.MemFrame r.1) (he : r = (t, a)) : s.MemFrame t := by
  subst he
  exact h

/-! ## Updates -/

theorem updPart (s : State) (p : Nat) (f : Part → Part) : s.MemFrame (s.updPart p f) := by constructor <;> simp
theorem updCore (s : State) (c : Nat) (f : Core → Core) : s.MemFrame (s.updCore c f) := by constructor <;> simp
theorem updSlice (s : State) (n : Nat) (f : Slice → Slice) : s.MemFrame (s.updSlice n f) := by constructor <;> simp
theorem updLaunch (s : State) (l : Nat) (f : Launch → Launch) : s.MemFrame (s.updLaunch l f) := by constructor <;> simp
theorem post (s : State) (d : Nat) (e : Event) : s.MemFrame (s.post d e) := by
  constructor
  case agenda => exact fun a ha => State.mem_post_of_mem d e ha
  all_goals simp

theorem postOnce (s : State) (d : Nat) (e : Event) : s.MemFrame (s.postOnce d e) := by
  unfold State.postOnce
  split
  · exact refl s
  · exact post s d e

theorem setCores (s : State) (cores : Tab (Option Core)) : s.MemFrame { s with cores := cores } := ⟨fun _ h => h, rfl, rfl, rfl, rfl, rfl, rfl, rfl, rfl, rfl, rfl⟩
theorem setOwner (s : State) (owner : Tab Nat) : s.MemFrame { s with owner := owner } := ⟨fun _ h => h, rfl, rfl, rfl, rfl, rfl, rfl, rfl, rfl, rfl, rfl⟩
theorem setFree (s : State) (n : Nat) : s.MemFrame { s with free := n } := ⟨fun _ h => h, rfl, rfl, rfl, rfl, rfl, rfl, rfl, rfl, rfl, rfl⟩
theorem setModule (s : State) (m : Module) : s.MemFrame { s with module := m } := ⟨fun _ h => h, rfl, rfl, rfl, rfl, rfl, rfl, rfl, rfl, rfl, rfl⟩

/-! ## Notices, owners, keys -/

theorem wakeControl (s : State) (p : Nat) : s.MemFrame (s.wakeControl p) := by
  unfold State.wakeControl
  split
  · exact refl s
  · exact updCore s _ _

theorem notice (s : State) (p cause : Nat) (info : Word64) : s.MemFrame (s.notice p cause info) := (updPart s p _).trans (wakeControl _ p)

theorem setSeal (s : State) (sec k : Nat) : s.MemFrame (s.seal sec k) := by constructor <;> simp [State.seal]

theorem revoke (s : State) (own pa : Nat) : s.MemFrame (s.revoke own pa) := by
  unfold State.revoke
  dsimp only
  split
  · exact refl s
  · split
    · exact updCore s _ _
    · exact forEach (fun s t => updCore s _ _) _ s

theorem dropDomainRows (s : State) (p e : Nat) : s.MemFrame (s.dropDomainRows p e) := setCores s _

theorem abortLaunch (s : State) (l : Nat) : s.MemFrame (s.abortLaunch l) := (updLaunch s l _).trans (post _ _ _)

theorem abortAll (s : State) (p : Nat) : s.MemFrame (s.abortAll p) := (forEach abortLaunch _ s).trans (postOnce _ _ _)

theorem startSparing (s : State) (sec : Nat) : s.MemFrame (s.startSparing sec) := by
  unfold State.startSparing
  dsimp only
  split
  · exact setModule s _
  · split
    · exact setModule s _
    · exact (setModule s _).trans (notice _ _ _ _)

theorem countCorrected (s : State) (sec : Nat) : s.MemFrame (s.countCorrected sec) := by
  unfold State.countCorrected
  dsimp only
  split
  · exact setModule s _
  · split
    · exact setModule s _
    · exact (setModule s _).trans (startSparing _ sec)

/-! ## Lines -/

theorem setHbmWord (s : State) (pa : Nat) (w : PWord) : s.MemFrame (s.setHbmWord pa w) := by
  have hbyte : ∀ (s : State) (i : Nat), s.MemFrame (s.setHbmByte (pa + i) (w.w.extractLsb' (8 * i) 8)) := fun s i => by constructor <;> simp
  exact (forEach hbyte (List.range 4) s).trans (by constructor <;> simp [State.setHbmWord])

theorem writeSector (s : State) (x : Line) (i : Nat) : s.MemFrame (s.writeSector x i) := by
  unfold State.writeSector
  dsimp only
  refine trans ?_ (setSeal _ _ _)
  refine trans ?_ (forEach (fun s j => setHbmWord s _ _) _ _)
  refine trans ?_ (setOwner _ _)
  split
  · exact refl s
  · exact forEach (fun s j => revoke s _ _) _ s

theorem writeLine (s : State) (x : Line) : s.MemFrame (s.writeLine x) :=
  forEach (fun s i => by split; exacts [writeSector s x i, refl s]) _ s

theorem leaveLine (s : State) (n : Nat) (x : Line) : s.MemFrame (s.leaveLine n x) := (updSlice s n _).trans (writeLine _ x)

theorem leaveLines (s : State) (n : Nat) (sel : Line → Bool) : s.MemFrame (s.leaveLines n sel) := by
  unfold State.leaveLines
  split
  · exact refl s
  · exact forEach (fun s x => leaveLine s n x) _ s

theorem placeLine (s : State) (n : Nat) (x : Line) (allowed : List Nat) (retained : Bool) : s.MemFrame (s.placeLine n x allowed retained) := by
  unfold State.placeLine
  split
  · exact writeLine s x
  · next v _ =>
    refine trans ?_ (updSlice _ n _)
    cases v with
    | none => exact setFree s _
    | some y => exact (leaveLine s n y).trans (setFree _ _)

theorem setLine (s : State) (n : Nat) (y : Line) : s.MemFrame (s.setLine n y) := by
  unfold State.setLine
  split
  · exact writeLine s y
  · split
    · exact updSlice s n _
    · exact writeLine s y

theorem eraseDomain (s : State) (p e : Nat) : s.MemFrame (s.eraseDomain p e) :=
  ((forEach (fun s n => leaveLines s n _) _ s).trans (dropDomainRows _ p e)).trans (updPart _ p _)

theorem fence (s : State) (p : Nat) : s.MemFrame (s.fence p) :=
  ((updPart s p _).trans (forEach (fun s e => eraseDomain s p e) _ _)).trans (abortAll _ p)

theorem countIntegrity (s : State) (p : Nat) : s.MemFrame (s.countIntegrity p) := by
  unfold State.countIntegrity
  split
  · exact refl s
  · dsimp only
    split
    · exact (updPart s p _).trans (fence _ p)
    · exact updPart s p _

/-! ## Reads -/

theorem checkSector (s : State) (a : Access) (sec : Nat) : s.MemFrame (s.checkSector a sec).1 := by
  have hfails : ∀ info, s.MemFrame ((s.notice a.part 0x13 info).countIntegrity a.part) := fun info => (notice s _ _ info).trans (countIntegrity _ _)
  unfold State.checkSector
  split
  · exact notice s _ _ _
  · exact notice s _ _ _
  · exact hfails _
  · split
    · exact refl s
    · exact hfails _
  · split
    · exact countCorrected s sec
    · exact hfails _

theorem fillSector (a : Access) (no : Nat) (whole : Nat → Bool) (acc : State × List PWord) (i : Nat) : acc.1.MemFrame (State.fillSector a no whole acc i).1 := by
  have hc := checkSector acc.1 a (2 * no + i)
  have hr := refl acc.1
  unfold State.fillSector
  dsimp only
  split
  · next heq => split at heq <;> simp_all [Prod.ext_iff]
  · next heq => split at heq <;> simp_all [Prod.ext_iff]

theorem countLine (s : State) (a : Access) (pa : Nat) : s.MemFrame (s.countLine a pa).1 := by
  unfold State.countLine
  split
  · exact updSlice s _ _
  · exact refl s

theorem openLine (s : State) (a : Access) (no : Nat) (whole : Nat → Bool) : s.MemFrame (s.openLine a no whole).1 := by
  have hc : s.MemFrame ((s.settleWays (s.homeSlice (128 * no))).countLine a (128 * no)).1 := (updSlice s _ _).trans (countLine _ a _)
  unfold State.openLine
  dsimp only
  generalize (s.settleWays (s.homeSlice (128 * no))).countLine a (128 * no) = r at hc ⊢
  obtain ⟨t, retained⟩ := r
  dsimp only
  split
  · refine hc.trans ?_
    dsimp only
    split
    · exact (updSlice t _ _).trans (placeLine _ _ _ _ _)
    · exact (updSlice t _ _).trans (updSlice _ _ _)
  · have hf : t.MemFrame ([0, 1].foldl (State.fillSector a no whole) (t, [])).1 := (fillSector a no whole (t, []) 0).trans (fillSector a no whole _ 1)
    generalize [0, 1].foldl (State.fillSector a no whole) (t, []) = r at hf ⊢
    obtain ⟨u, ws⟩ := r
    dsimp only
    split
    · exact hc.trans hf
    · exact (hc.trans hf).trans (placeLine u _ _ _ _)

theorem lineWords (s : State) (a : Access) (pa n : Nat) : s.MemFrame (s.lineWords a pa n).1 := by
  unfold State.lineWords
  split
  · exact refl s
  · exact openLine s a _ _

theorem homeWords (a : Access) (fuel : Nat) : ∀ (s : State) (pa n : Nat), s.MemFrame (s.homeWords a fuel pa n).1 := by
  induction fuel with
  | zero => exact fun s _ _ => refl s
  | succ fuel ih =>
    intro s pa n
    simp only [State.homeWords]
    split
    · exact refl s
    · exact (lineWords s a pa _).trans (ih _ _ _)

theorem homeRead (s : State) (a : Access) (pa n : Nat) : s.MemFrame (s.homeRead a pa n).1 :=
  homeWords a ((pa + n - pa / 4 * 4 + 3) / 4 + 1) s (pa / 4 * 4) ((pa + n - pa / 4 * 4 + 3) / 4)

/-! ## Writes -/

theorem mergeWord (own : Nat) (acc : State × Line) (j : Nat) (w : PWord) (mask : Nat) : acc.1.MemFrame (State.mergeWord own acc j w mask).1 := by
  unfold State.mergeWord
  split
  · exact refl acc.1
  · dsimp only
    split
    · exact refl acc.1
    · exact revoke acc.1 _ _

theorem mergeWords (own first : Nat) : ∀ (l : List ((PWord × Nat) × Nat)) (acc : State × Line),
    acc.1.MemFrame (l.foldl (fun acc w => State.mergeWord own acc (first + w.2) w.1.1 w.1.2) acc).1
  | [], acc => refl acc.1
  | w :: l, acc => (mergeWord own acc (first + w.2) w.1.1 w.1.2).trans (mergeWords own first l _)

theorem lineWrite (s : State) (a : Access) (own pa : Nat) (ws : List (PWord × Nat)) : s.MemFrame (s.lineWrite a own pa ws) := by
  have hno : ∀ (s : State) (l : List Nat) (g : Nat → Word64), s.MemFrame (s.forEach l fun s i => s.notice a.part 0x13 (g i)) :=
    fun s l g => forEach (fun s i => notice s _ _ _) l s
  unfold State.lineWrite
  dsimp only
  split
  · exact refl s
  · split
    · exact hno _ _ _
    · generalize hq : State.openLine s a (pa / 128) _ = r
      have ho : s.MemFrame r.1 := hq ▸ openLine s a (pa / 128) _
      split
      · exact ho.trans (hno _ _ _)
      · exact (ho.trans (mergeWords own (pa % 128 / 4) ws.zipIdx r)).trans (setLine _ _ _)

theorem homeWrite (a : Access) (own fuel : Nat) : ∀ (s : State) (pa : Nat) (ws : List (PWord × Nat)), s.MemFrame (s.homeWrite a own fuel pa ws) := by
  induction fuel with
  | zero => exact fun s _ _ => refl s
  | succ fuel ih =>
    intro s pa ws
    simp only [State.homeWrite]
    split
    · exact refl s
    · exact (lineWrite s a own pa _).trans (ih _ _ _)

theorem homePut (s : State) (a : Access) (pa n val : Nat) (psn : Bool) : s.MemFrame (s.homePut a pa n val psn) := homeWrite a 0 _ s _ _

/-! ## Walks, and the scheduler's reads and writes -/

theorem orPte (s : State) (part pa bits : Nat) : s.MemFrame (s.orPte part pa bits) := by
  have hr := homeRead s ⟨part, 0, none, none⟩ pa 8
  unfold State.orPte
  split
  next s' v psn heq =>
    rw [heq] at hr
    split
    · exact hr
    · exact hr.trans (homePut _ _ _ _ _ _)

theorem walkFrom (part va : Nat) (u : Use) (fuel : Nat) : ∀ (s : State) (table level : Nat), s.MemFrame (s.walkFrom part va u fuel table level).1 := by
  induction fuel with
  | zero => exact fun s _ _ => refl s
  | succ fuel ih =>
    intro s table level
    have hr := homeRead s ⟨part, 0, none, none⟩ (table + 8 * levelIndex va level) 8
    simp only [State.walkFrom]
    generalize s.homeRead ⟨part, 0, none, none⟩ (table + 8 * levelIndex va level) 8 = r at hr ⊢
    obtain ⟨t, v, psn⟩ := r
    dsimp only
    split
    · exact hr
    · split
      · exact hr
      · split
        · exact hr
        · exact hr.trans (ih _ _ _)

theorem walk (s : State) (part va : Nat) (u : Use) : s.MemFrame (s.walk part va u).1 := by
  unfold State.walk
  split
  · exact refl s
  · exact walkFrom part va u 3 s _ _

theorem translateHome (s : State) (part va : Nat) (u : Use) : s.MemFrame (s.translateHome part va u).1 := by
  have hw := walk s part va u
  unfold State.translateHome
  split
  · next heq => exact hw.fst heq
  · next heq =>
    rw [heq] at hw
    split
    · exact hw
    · exact hw.trans (orPte _ _ _ _)

theorem partWords (p : Nat) (fuel : Nat) : ∀ (s : State) (va n : Nat), s.MemFrame (s.partWords p fuel va n).1 := by
  induction fuel with
  | zero => exact fun s _ _ => refl s
  | succ fuel ih =>
    intro s va n
    have ht := translateHome s p va .read
    simp only [State.partWords]
    split
    · exact refl s
    · split
      · exact refl s
      · split
        · next heq => exact ht.fst heq
        · next t l heq =>
          rw [heq] at ht
          have hw := ht.trans (homeWords ⟨p, l.ed, none, t.rangeAt p va⟩ 3 t l.pa (min n ((64 - va % 64) / 4)))
          have hrest := hw.trans (ih _ (va + 4 * min n ((64 - va % 64) / 4)) (n - min n ((64 - va % 64) / 4)))
          split
          · next heq' => exact hrest.fst heq'
          · next heq' => exact hrest.fst heq'

theorem readPart (s : State) (p va n : Nat) : s.MemFrame (s.readPart p va n).1 := by
  have h := partWords p (n + 2) s (va - va % 4) (n + 1)
  unfold State.readPart
  split
  · exact partWords p _ s _ _
  · split
    · next heq => exact h.fst heq
    · next heq => exact h.fst heq

theorem writePart (s : State) (p va : Nat) (w : PWord) : s.MemFrame (s.writePart p va w).1 := by
  have ht := translateHome s p va .write
  unfold State.writePart
  split
  · exact refl s
  · split
    · next heq => exact ht.fst heq
    · next heq =>
      rw [heq] at ht
      exact ht.trans (homePut _ _ _ _ _ _)

end State.MemFrame

/-! ## The reads of queues -/

namespace State.MemFrame

theorem queueFault (s : State) (p q : Nat) (f : Nat × Word64) : s.MemFrame (s.queueFault p q f) := by
  unfold State.queueFault
  split
  · exact refl s
  · dsimp only
    split
    · exact updPart s p _
    · exact (notice s _ _ _).trans (updPart _ p _)

theorem readQueue (s : State) (p q : Nat) : s.MemFrame (s.readQueue p q).1 := by
  unfold State.readQueue
  split
  · exact refl s
  · next x _ =>
    have hr := readPart s p (x.qdesc q) 8
    split
    · next heq => exact (hr.fst heq).trans (queueFault _ p q _)
    · next heq => exact hr.fst heq

theorem setQueueErr (s : State) (p q : Nat) : s.MemFrame (s.setQueueErr p q) := by
  unfold State.setQueueErr
  split
  · exact refl s
  · next x _ =>
    have hr := readPart s p (x.qdesc q + 12) 1
    split
    · next heq => exact (hr.fst heq).trans (writePart _ p _ _)
    · next heq => exact hr.fst heq

theorem readHead (s : State) (p q : Nat) : s.MemFrame (s.readHead p q).1 := by
  have hq := readQueue s p q
  unfold State.readHead
  split
  · next heq => exact hq.fst heq
  · next t d heq =>
    rw [heq] at hq
    dsimp only
    have herr : s.MemFrame (if d.bad then t.setQueueErr p q else t) := by
      split
      · exact hq.trans (setQueueErr t p q)
      · exact hq
    generalize (if d.bad then t.setQueueErr p q else t) = u at herr ⊢
    split
    · exact herr
    · split
      · exact herr.trans (updPart u p _)
      · have hr := readPart u p (d.ring + 64 * (d.head % 2 ^ d.log2n)) 16
        split
        · next heq => exact (herr.trans (hr.fst heq)).trans (queueFault _ p q _)
        · next heq => exact (herr.trans (hr.fst heq)).trans (updPart _ p _)

theorem lookQueue (s : State) (p q : Nat) : s.MemFrame (s.lookQueue p q).1 := by
  have h := readHead s p q
  unfold State.lookQueue
  split
  · next heq => exact h.fst heq
  · next heq => exact (h.fst heq).trans (updPart _ p _)

theorem ageQueue (s : State) (p q : Nat) : s.MemFrame (s.ageQueue p q) := by
  have h := lookQueue s p q
  unfold State.ageQueue
  split
  · next heq => exact h.fst heq
  · next heq => exact (h.fst heq).trans (updPart _ p _)

theorem withWork (p : Nat) : ∀ (qs : List Nat) (s : State), s.MemFrame (s.withWork p qs).1
  | [], s => refl s
  | q :: qs, s => (readHead s p q).trans (withWork p qs _)

theorem unbindIdle (s : State) (p : Nat) : s.MemFrame (s.unbindIdle p) :=
  ((withWork p _ s).trans (withWork p _ _)).trans (updPart _ p _)

end State.MemFrame

end Sys2Proof.Machine
end
section
/-! SUPPORT. The residency of queues: which of them leave their slots at a boundary, and which come in. -/

namespace Sys2Proof.Machine

/-! ## The order of residency -/

/-- Where a list is cut after its first elements of a kind, the rest is what follows them. -/
theorem drop_length_takeWhile {α : Type} (f : α → Bool) (l : List α) : l.drop (l.takeWhile f).length = l.dropWhile f := by
  induction l with
  | nil => rfl
  | cons a l ih => by_cases h : f a <;> simp [h, ih]

/-- An element put after all that come no later keeps a list in order. -/
theorem pairwise_insert {f : Nat → Nat} (q : Nat) {l : List Nat} (h : l.Pairwise fun a b => f a ≤ f b) :
    (l.takeWhile (fun r => decide (f r ≤ f q)) ++ q :: l.dropWhile (fun r => decide (f r ≤ f q))).Pairwise fun a b => f a ≤ f b := by
  induction l with
  | nil => simp
  | cons b l ih =>
    obtain ⟨hb, hl⟩ := List.pairwise_cons.1 h
    by_cases hq : f b ≤ f q
    · simp only [List.takeWhile_cons, List.dropWhile_cons, hq, decide_true, if_true, List.cons_append]
      refine List.pairwise_cons.2 ⟨fun a ha => ?_, ih hl⟩
      rcases List.mem_append.1 ha with ha | ha
      · exact hb a ((List.takeWhile_sublist _).subset ha)
      · rcases List.mem_cons.1 ha with rfl | ha
        · exact hq
        · exact hb a ((List.dropWhile_sublist _).subset ha)
    · simp only [List.takeWhile_cons, List.dropWhile_cons, hq, decide_false, Bool.false_eq_true, if_false, List.nil_append]
      refine List.pairwise_cons.2 ⟨fun a ha => ?_, h⟩
      rcases List.mem_cons.1 ha with rfl | ha
      · omega
      · have := hb a ha; omega

theorem byResidency_perm (p : Part) : ∀ (qs acc : List Nat), (byResidency p qs acc).Perm (qs ++ acc)
  | [], acc => .refl _
  | q :: qs, acc => by
    refine (byResidency_perm p qs _).trans ?_
    rw [drop_length_takeWhile]
    refine (List.Perm.append_left qs List.perm_middle).trans ?_
    rw [List.takeWhile_append_dropWhile]
    exact List.perm_middle

/-- The queues bound first come first. -/
theorem byResidency_sorted (p : Part) : ∀ (qs acc : List Nat), acc.Pairwise (fun a b => (p.queue a).since ≤ (p.queue b).since) →
    (byResidency p qs acc).Pairwise fun a b => (p.queue a).since ≤ (p.queue b).since
  | [], _, h => h
  | q :: qs, acc, h => by
    refine byResidency_sorted p qs _ ?_
    rw [drop_length_takeWhile]
    exact pairwise_insert (f := fun q => (p.queue q).since) q h

/-! ## Slots -/

theorem foldl_unbind_waitQ (out : List Nat) (p : Part) : (out.foldl Part.unbind p).waitQ = p.waitQ := by
  induction out generalizing p with
  | nil => rfl
  | cons q out ih => exact ih (p.unbind q)

/-- Queues that are unbound leave the slots, and the others stay in their order. -/
theorem foldl_unbind_boundQ (out : List Nat) (p : Part) : (out.foldl Part.unbind p).boundQ = p.boundQ.filter fun q => !out.contains q := by
  induction out generalizing p with
  | nil => simp
  | cons q out ih =>
    rw [List.foldl_cons, ih, Part.unbind, List.filter_filter]
    refine List.filter_congr fun r _ => ?_
    by_cases h : r = q <;> simp [h]

theorem foldl_bindQueue (now : Nat) (l : List Nat) (p : Part) :
    (l.foldl (Part.bindQueue now) p).boundQ = p.boundQ ++ l ∧ (l.foldl (Part.bindQueue now) p).waitQ = p.waitQ := by
  induction l generalizing p with
  | nil => simp
  | cons q l ih =>
    obtain ⟨hb, hw⟩ := ih (p.bindQueue now q)
    exact ⟨hb.trans (by simp [Part.bindQueue, Part.setQueue]), hw⟩

/-- Free slots go to the head of the waiting list (02 R31 rule 3). -/
theorem Part.fillSlots_boundQ (p : Part) (now : Nat) : (p.fillSlots now).boundQ = p.boundQ ++ p.waitQ.take (64 - p.boundQ.length) :=
  (foldl_bindQueue now _ _).1

theorem Part.fillSlots_waitQ (p : Part) (now : Nat) : (p.fillSlots now).waitQ = p.waitQ.drop (64 - p.boundQ.length) :=
  (foldl_bindQueue now _ _).2

/-- The queues that leave their slots at a boundary (02 R31 rule 2). -/
def Part.leaving (p : Part) (now quantum : Nat) : List Nat :=
  (byResidency p (p.boundQ.filter fun q => decide ((p.queue q).since + quantum ≤ now)) []).take (p.waitQ.length - (64 - p.boundQ.length))

theorem Part.rotate_boundQ (p : Part) (now quantum : Nat) : let out := p.leaving now quantum
    let stay := p.boundQ.filter fun q => !out.contains q
    (p.rotate now quantum).boundQ = stay ++ (p.waitQ ++ out).take (64 - stay.length) := by
  simp only [Part.rotate, Part.fillSlots_boundQ, foldl_unbind_boundQ, foldl_unbind_waitQ, Part.leaving]

theorem Part.rotate_waitQ (p : Part) (now quantum : Nat) : let out := p.leaving now quantum
    let stay := p.boundQ.filter fun q => !out.contains q
    (p.rotate now quantum).waitQ = (p.waitQ ++ out).drop (64 - stay.length) := by
  simp only [Part.rotate, Part.fillSlots_waitQ, foldl_unbind_boundQ, foldl_unbind_waitQ, Part.leaving]

/-- Of the queues that have stayed for a quantum, those leave that were bound first. -/
theorem Part.leaving_first (p : Part) (now quantum : Nat) {q r : Nat} (hq : q ∈ p.leaving now quantum)
    (hr : r ∈ p.boundQ.filter fun q => decide ((p.queue q).since + quantum ≤ now)) (hout : r ∉ p.leaving now quantum) :
    (p.queue q).since ≤ (p.queue r).since := by
  have hsorted := byResidency_sorted p (p.boundQ.filter fun q => decide ((p.queue q).since + quantum ≤ now)) [] .nil
  have hmem : r ∈ byResidency p (p.boundQ.filter fun q => decide ((p.queue q).since + quantum ≤ now)) [] :=
    (byResidency_perm p _ []).mem_iff.2 (by simpa using hr)
  rw [← List.take_append_drop (p.waitQ.length - (64 - p.boundQ.length)) (byResidency p _ [])] at hsorted hmem
  exact (List.pairwise_append.1 hsorted).2.2 q hq r ((List.mem_append.1 hmem).resolve_left hout)

end Sys2Proof.Machine
end
section
/-! SUPPORT. Launches: what their placement, their start, their completion and the power of their clusters come to. -/

namespace Sys2Proof.Machine

/-! ## Tables and folds -/

/-- What a table gives for a key stands in it. -/
theorem mem_of_get {α : Type} {m : Tab (Option α)} {n : Nat} {x : α} (h : Tab.get none m n = some x) : (n, some x) ∈ m := by
  induction m with
  | nil => cases h
  | cons a m ih =>
    obtain ⟨j, v⟩ := a
    by_cases hj : j = n
    · subst hj
      simp_all [Tab.get]
    · exact List.mem_cons_of_mem _ (ih (by simpa [Tab.get, hj] using h))

/-- The keys of a canonical table rise. -/
theorem wfFrom_keys {α : Type} [DecidableEq α] (d : α) : ∀ {m : Tab α} {lo : Nat}, Tab.wfFrom d lo m = true →
    (∀ a ∈ m, lo ≤ a.1) ∧ m.Pairwise fun a b => a.1 < b.1
  | [], _, _ => by simp
  | (k, v) :: m, lo, h => by
    simp only [Tab.wfFrom, Bool.and_eq_true, decide_eq_true_eq] at h
    obtain ⟨hlo, hm⟩ := wfFrom_keys d h.2
    refine ⟨fun a ha => ?_, List.pairwise_cons.2 ⟨fun a ha => hlo a ha, hm⟩⟩
    rcases List.mem_cons.1 ha with rfl | ha
    · exact h.1.1
    · exact Nat.le_trans h.1.1 (Nat.le_of_succ_le (hlo a ha))

/-- A key of a canonical table stands in it once. -/
theorem split_of_get {α : Type} [DecidableEq α] {m : Tab (Option α)} (hw : Tab.wf none m = true) {n : Nat} {x : α} (h : Tab.get none m n = some x) :
    ∃ l r, m = l ++ (n, some x) :: r ∧ (∀ a ∈ l, a.1 ≠ n) ∧ ∀ a ∈ r, a.1 ≠ n := by
  obtain ⟨l, r, rfl⟩ := List.append_of_mem (mem_of_get h)
  obtain ⟨_, hlr⟩ := wfFrom_keys none hw
  obtain ⟨_, hr, hl⟩ := List.pairwise_append.1 hlr
  exact ⟨l, r, rfl, fun a ha => Nat.ne_of_lt (hl a ha (n, some x) (by simp)), fun a ha => Nat.ne_of_gt ((List.pairwise_cons.1 hr).1 a ha)⟩

/-- A fold whose steps change nothing changes nothing. -/
theorem State.forEach_of_fixed {α : Type} {f : State → α → State} {s : State} : ∀ {l : List α}, (∀ x ∈ l, f s x = s) → s.forEach l f = s
  | [], _ => rfl
  | x :: l, h => by
    have hx : s.forEach (x :: l) f = (f s x).forEach l f := rfl
    rw [hx, h x (by simp)]
    exact forEach_of_fixed fun y hy => h y (List.mem_cons_of_mem _ hy)

/-! ## The launches that stand at a placement -/

/-- A launch that a placement leaves as it is: another partition's, one that has started, one that is to end. -/
def Launch.stands (p : Nat) (q : Launch) : Prop := q.part ≠ p ∨ q.started = true ∨ q.aborted = true

/-- What a placement does to one launch (02 R37 steps 6 and 7). -/
def State.startDue (p : Nat) (s : State) (kv : Nat × Option Launch) : State :=
  match s.launch? kv.1 with
  | none => s
  | some q =>
    if q.part ≠ p || q.started || q.aborted then s
    else if s.ticks < q.tstart then s.postOnce (s.cyclesOf (q.tstart - s.ticks)) (.launchPlacement p)
    else s.startLaunch kv.1 q

theorem execLaunchPlacement_eq {s : State} {p : Nat} (hev : s.ev = .launchPlacement p) :
    execLaunchPlacement s = .next ((s.forEach s.launches (State.startDue p)).placeSelected p) := by
  unfold execLaunchPlacement
  rw [hev]
  rfl

theorem State.startDue_of_stands {s : State} {p : Nat} {kv : Nat × Option Launch} (h : ∀ q, s.launch? kv.1 = some q → q.stands p) : s.startDue p kv = s := by
  unfold State.startDue
  split
  · rfl
  · next q hq =>
    have hq := h q hq
    simp only [Launch.stands, ne_eq] at hq
    rw [if_pos (by simpa [or_assoc] using hq)]

theorem State.startDue_of_due {s : State} {p : Nat} {kv : Nat × Option Launch} {q : Launch} (hq : s.launch? kv.1 = some q) (h : ¬ q.stands p) :
    s.startDue p kv = if s.ticks < q.tstart then s.postOnce (s.cyclesOf (q.tstart - s.ticks)) (.launchPlacement p) else s.startLaunch kv.1 q := by
  simp only [Launch.stands, not_or, ne_eq, not_not, Bool.not_eq_true] at h
  obtain ⟨hp, hs, ha⟩ := h
  simp [State.startDue, hq, hp, hs, ha]

/-- Of the launches only the one that is due is touched, where what it comes to leaves the others. -/
theorem State.forEach_startDue {s t : State} {p l : Nat} {q : Launch} (hw : Tab.wf none s.launches = true) (hq : s.launch? l = some q)
    (hothers : ∀ m r, s.launch? m = some r → m ≠ l → r.stands p) (ht : s.startDue p (l, some q) = t) (hsame : ∀ m, m ≠ l → t.launch? m = s.launch? m) :
    s.forEach s.launches (State.startDue p) = t := by
  obtain ⟨a, b, hab, ha, hb⟩ := split_of_get hw hq
  have hbefore : s.forEach a (State.startDue p) = s :=
    forEach_of_fixed fun kv hkv => startDue_of_stands fun r hr => hothers _ r hr (ha kv hkv)
  have hafter : t.forEach b (State.startDue p) = t :=
    forEach_of_fixed fun kv hkv => startDue_of_stands fun r hr => hothers _ r (by rw [← hsame _ (hb kv hkv)]; exact hr) (hb kv hkv)
  have hfold : s.forEach s.launches (State.startDue p) = ((s.forEach a (State.startDue p)).startDue p (l, some q)).forEach b (State.startDue p) := by
    rw [hab]
    simp only [State.forEach, List.foldl_append, List.foldl_cons]
  rw [hfold, hbefore, ht, hafter]

theorem State.loadDraft_launches (s : State) (q : Launch) (l : List DraftRec) : (s.loadDraft q l).launches = s.launches :=
  State.forEach_keeps (fun t => t.launches = s.launches) (fun _ _ ht => (State.updRouter_launches ..).trans ht) _ s rfl

/-- The start of a launch leaves the others. -/
theorem State.launch?_startLaunch_ne (s : State) (q : Launch) {l m : Nat} (h : m ≠ l) : (s.startLaunch l q).launch? m = s.launch? m := by
  have hcores : ∀ (t : State) (cs : List (CoreRec × Nat)) (f : State → CoreRec × Nat → Core → Core),
      (t.forEach cs fun s x => s.updCore (q.coreOf x.2) (f s x)).launches = t.launches := fun t cs f =>
    State.forEach_keeps (fun u => u.launches = t.launches) (fun _ _ hu => (State.updCore_launches ..).trans hu) _ t rfl
  unfold State.startLaunch
  dsimp only
  simp only [State.launch?, State.postOnce_launches]
  refine (State.launch?_updLaunch_ne _ _ h).trans ?_
  simp only [State.launch?, hcores, State.loadDraft_launches]

/-! ## Clusters -/

/-- A change of some clusters, one after another, changes each of them, as often as it is named. -/
theorem State.cluster?_forEach {f : State → Nat → State} {g : Cluster → Cluster} (hg : ∀ x, g (g x) = g x)
    (hf : ∀ (s : State) (c c' : Nat), (f s c).cluster? c' = if c' = c then (s.cluster? c').map g else s.cluster? c') (l : List Nat) (s : State) (c : Nat) :
    (s.forEach l f).cluster? c = if c ∈ l then (s.cluster? c).map g else s.cluster? c := by
  induction l generalizing s with
  | nil => rfl
  | cons a l ih =>
    refine (ih (f s a)).trans ?_
    rw [hf]
    by_cases hc : c = a <;> by_cases hl : c ∈ l <;> simp [hc, hl, Function.comp_def, hg]

theorem State.cluster?_updCluster_ne (s : State) (f : Cluster → Cluster) {c c' : Nat} (h : c' ≠ c) : (s.updCluster c f).cluster? c' = s.cluster? c' := by
  unfold State.updCluster
  cases s.cluster? c with
  | none => rfl
  | some q => exact Tab.get_set_ne none (some (f q)) s.clusters h

theorem State.cluster?_updCluster (s : State) (c : Nat) (f : Cluster → Cluster) (c' : Nat) :
    (s.updCluster c f).cluster? c' = if c' = c then (s.cluster? c').map f else s.cluster? c' := by
  by_cases h : c' = c
  · subst h
    simp [State.cluster?_updCluster_same]
  · simp [h, State.cluster?_updCluster_ne s f h]

/-- A gated cluster gets power: its cores are as they are after waking (02 R37 step 5, 10 R252). -/
def State.powerUp (limpt : Nat) (s : State) (cl : Nat) : State :=
  let s := s.updCluster cl fun x => { x with gated := false }
  s.forEach (List.range 4) fun s t =>
    let k := Core.fresh (coreAt cl t) limpt
    s.setCore (coreAt cl t) { k with freeAt := s.cycle, mx := { k.mx with clock := s.cycle } }

theorem State.cluster?_powerUp (limpt : Nat) (s : State) (cl c : Nat) :
    (s.powerUp limpt cl).cluster? c = if c = cl then (s.cluster? c).map (fun x => { x with gated := false }) else s.cluster? c := by
  rw [← State.cluster?_updCluster]
  unfold State.powerUp
  dsimp only
  refine State.forEach_keeps (fun t => t.cluster? c = (s.updCluster cl fun x => { x with gated := false }).cluster? c) ?_ _ _ rfl
  exact fun _ _ ht => ht

/-- What a placement does with a launch that it has found room for (02 R37 step 5): its gated clusters wake, all of them are its own, and it starts once they
have power. -/
def State.place (s : State) (p : Nat) (q : Launch) : State :=
  let l := s.nextLaunch
  let cold := q.clusters.filter s.gatedCluster
  let due := s.ticks + (if cold.isEmpty then 0 else 4000)
  let s := s.forEach cold (State.powerUp s.wakeLimpt)
  let s := s.forEach q.clusters fun s cl => s.updCluster cl fun x => { x with launch := some l }
  let s := { s with launches := Tab.set none s.launches l (some { q with tstart := due }), nextLaunch := l + 1 }
  (s.post (s.cyclesOf (due - s.ticks)) (.launchPlacement p)).postOnce 1 (.dispatch p)

/-- The launch that is placed is recorded. -/
theorem State.launch?_place (s : State) (p : Nat) (q : Launch) : ∃ due, (s.place p q).launch? s.nextLaunch = some { q with tstart := due } :=
  ⟨_, by
    simp only [State.place, State.launch?, State.postOnce_launches, State.post_launches]
    exact Tab.get_set_some _ _ _⟩

/-- Every cluster of a launch that is placed is its own, and has power. -/
theorem State.cluster?_place {s : State} {p : Nat} {q : Launch} {cl : Nat} {y : Cluster} (hcl : cl ∈ q.clusters) (hy : s.cluster? cl = some y) :
    (s.place p q).cluster? cl = some { y with gated := false, launch := some s.nextLaunch } := by
  have hwake := State.cluster?_forEach (g := fun x => { x with gated := false }) (fun _ => rfl) (State.cluster?_powerUp s.wakeLimpt)
    (q.clusters.filter s.gatedCluster) s cl
  have htake := State.cluster?_forEach (g := fun x => { x with launch := some s.nextLaunch }) (fun _ => rfl) (fun s c c' => State.cluster?_updCluster s c _ c')
    q.clusters (s.forEach (q.clusters.filter s.gatedCluster) (State.powerUp s.wakeLimpt)) cl
  have hplace : (s.place p q).cluster? cl = ((s.forEach (q.clusters.filter s.gatedCluster) (State.powerUp s.wakeLimpt)).forEach q.clusters
      fun t cl => t.updCluster cl fun x => { x with launch := some s.nextLaunch }).cluster? cl := by
    simp only [State.place, State.cluster?, State.postOnce_clusters, State.post_clusters]
  rw [hplace, htake, hwake, if_pos hcl, hy]
  by_cases hg : y.gated = true
  · simp [hcl, State.gatedCluster, hy, hg]
  · have hon : { y with gated := false } = y := by
      cases y
      simp_all
    have hwarm : ({ y with gated := false, launch := some s.nextLaunch } : Cluster) = { y with launch := some s.nextLaunch } := by
      cases y
      simp_all
    simp [State.gatedCluster, hy, hg, hwarm]

/-- The launch that an entry becomes where its image finds room at an origin. -/
def Launch.ofEntry (p lseq now : Nat) (e : Entry) (i : Image) (o : Nat × Nat) : Launch :=
  ⟨p, e, o.1, o.2, i.cw, i.ch, lseq, now, [], false, false, false, none, i⟩

section Placement
variable {s : State} {p lseq : Nat} {x : Part} {e : Entry} {i : Image}

/-- An entry of a fenced partition ends ABORTED (13 R305). -/
theorem State.placeSelected_of_fenced (hx : s.part? p = some x) (hsel : x.selected = some (e, lseq, i)) (hf : x.fenced = true) :
    s.placeSelected p = (s.updPart p fun x => { x with selected := none }).completeUnrun p e 0x25 := by
  simp [State.placeSelected, hx, hsel, hf]

variable (hx : s.part? p = some x) (hsel : x.selected = some (e, lseq, i)) (hf : x.fenced = false) (hpt : s.module.pt ≠ 4)
  (hop : s.module.opStep = true → s.module.opTo ≠ 4)

include hx hsel hf hpt hop

/-- Where the partition is not fenced and launches run, the selected entry goes by its shape and its image (02 R37 steps 2 to 5). -/
theorem State.placeSelected_of_open : s.placeSelected p =
    let s2 := s.updPart p fun x => { x with selected := none }
    if s.origins p i.cw i.ch i.dieLocal = [] then s2.completeUnrun p e 0x23
    else
      match s.chooseOrigin p i.cw i.ch i.dieLocal with
      | none => s
      | some o =>
        match s2.lackingCore (Launch.ofEntry p lseq s.ticks e i o) i with
        | some (c, need) => (s2.notice p 0x10 (BitVec.ofNat 64 (c + fieldAt 9 need + fieldAt 23 (s2.rowsOfCore c)))).completeUnrun p e 0x10
        | none => s2.place p (Launch.ofEntry p lseq s.ticks e i o) := by
  have hop' : ¬(s.module.pt = 4 ∨ s.module.opStep = true ∧ s.module.opTo = 4) := by
    rintro (h | ⟨h, h'⟩)
    · exact hpt h
    · exact hop h h'
  have hsome : ((s.part? p).bind fun x => x.selected.map fun e => (x, e)) = some (x, e, lseq, i) := by
    simp [hx, hsel]
  unfold State.placeSelected
  rw [hsome]
  dsimp only
  rw [if_neg (by simp [hf]), if_neg (by simpa using hop')]
  by_cases ho : s.origins p i.cw i.ch i.dieLocal = []
  · rw [if_pos (by simp [ho]), if_pos ho]
  · rw [if_neg (by simp [ho]), if_neg ho]
    cases s.chooseOrigin p i.cw i.ch i.dieLocal with
    | none => rfl
    | some o =>
      unfold Launch.ofEntry
      dsimp only
      cases State.lackingCore _ _ i with
      | none => rfl
      | some c => rfl

end Placement

/-- What of a launch that is placed can be read off the machine: its record, and that its clusters are its own and have power. -/
theorem State.place_spec {s s2 : State} {p : Nat} {q : Launch} (hn : s2.nextLaunch = s.nextLaunch) (hc : s2.clusters = s.clusters) :
    ∃ q', (s2.place p q).launch? s.nextLaunch = some q' ∧ { q' with tstart := q.tstart } = q ∧
      ∀ cl ∈ q.clusters, ∀ y, s.cluster? cl = some y → ∃ y', (s2.place p q).cluster? cl = some y' ∧ y'.launch = some s.nextLaunch ∧ y'.gated = false := by
  obtain ⟨due, hdue⟩ := s2.launch?_place p q
  refine ⟨{ q with tstart := due }, by rw [← hn]; exact hdue, rfl, fun cl hcl y hy => ⟨_, State.cluster?_place hcl (y := y) ?_, by rw [hn], rfl⟩⟩
  simpa only [State.cluster?, hc] using hy

/-! ## The start of a task -/

/-- A context at task start has ARG in x1, and 0 in every other register (02 R39). -/
theorem Regs.getX_taskStart (arg : Word64) (m : Nat) : (Regs.zero.setX 1 ⟨arg, false⟩).getX m = if m = 1 then ⟨arg, false⟩ else ⟨0, false⟩ := by
  split
  · next h =>
    subst h
    exact Tab.get_set_wf RV.zero ⟨arg, false⟩ 1 rfl
  · next h =>
    rw [Regs.getX_setX_ne _ _ h]
    unfold Regs.getX
    split <;> rfl

/-- A table that is laid out over the keys below 4. -/
theorem get_map_range {α : Type} (f : Nat → α) {n : Nat} (hn : n < 4) : Tab.get none ((List.range 4).map fun n => (n, some (f n))) n = some (f n) := by
  interval_cases n <;> rfl

/-- The context of a task of a core that starts. -/
theorem Core.ctx?_start (k : Core) (now l : Nat) (q : Launch) (i : Nat) (r : CoreRec) (tvec : Word64) (grids : List Nat) {n : Nat} (hn : n < 4)
    (ht : r.tasks.getD n 0 ≠ 0) : (k.start now l q i r tvec grids).ctx? n =
      some (Ctx.start now tvec (BitVec.ofNat 64 (n + 4 * i + fieldAt 16 (q.lseq % 65536) + fieldAt 32 q.part)) q.entry.arg (q.entry.limg.toNat + r.tasks.getD n 0)) := by
  refine (get_map_range _ hn).trans ?_
  dsimp only
  rw [if_neg ht]

/-! ## The end of a launch, and power -/

/-- A launch that started, is not to be aborted, and of which nothing is left to do writes its record (02 R45 to R47). -/
theorem execLaunchCompletion_of_done {s : State} {l : Nat} {q : Launch} (hev : s.ev = .launchCompletion l) (hq : s.launch? l = some q) (ha : q.aborted = false)
    (hs : q.started = true) (hland : s.landed l = true) (hquiet : ∀ c k, c ∈ s.coresOf l → s.core? c = some k → k.quiet = true) :
    let s1 := s.forEach (s.coresOf l) State.flushStash
    let f := firstKill q.kills
    let status := match f with | some k => k.2.2.2 | none => if q.remote then 0x20 else 0
    let first := match f with | none => 0 | some k => k.2.1 + fieldAt 9 k.2.2.1
    let s2 := s1.complete q.part q.entry status q.kills.length first q.tstart
    let s3 := if q.preempt.isSome then s2.updPart q.part fun x => { x with prectlBusy := false } else s2
    execLaunchCompletion s = .next ((({ s3 with launches := Tab.set none s3.launches l none } : State).freeClusters q).wakeRings) := by
  unfold execLaunchCompletion
  rw [hev]
  simp only [hq, ha, hs, hland, Bool.false_and, Bool.false_eq_true, if_false, Bool.true_or, Bool.true_and, Bool.and_true, Option.getD_some, if_true]
  refine congrArg _ (if_neg ?_)
  simp only [Bool.not_eq_true, Bool.not_eq_false', List.all_eq_true]
  intro c hc
  split
  · rfl
  · next k hk => exact hquiet c k hc hk

/-- The cores that are taken out of the machine are not in it, and the others stand as they did. -/
theorem State.core?_forEach_erase (f : Nat → Nat) (l : List Nat) {s : State} (hw : Tab.wf none s.cores = true) (c : Nat) :
    (s.forEach l fun s t => { s with cores := Tab.set none s.cores (f t) none }).core? c = if ∃ t ∈ l, f t = c then none else s.core? c := by
  induction l generalizing s with
  | nil => rfl
  | cons t l ih =>
    refine (ih (s := { s with cores := Tab.set none s.cores (f t) none }) (Tab.wf_set none none (f t) hw)).trans ?_
    by_cases h : f t = c
    · subst h
      have herased : ({ s with cores := Tab.set none s.cores (f t) none } : State).core? (f t) = none := Tab.get_set_wf none none (f t) hw
      simp [herased]
    · have hkept : ({ s with cores := Tab.set none s.cores (f t) none } : State).core? c = s.core? c := Tab.get_set_ne none none s.cores (Ne.symm h)
      simp [hkept, h]

/-- A cluster loses power: its translations go, and its cores with what they hold but for their LIMPT (02 R38). -/
def State.powerDown (s : State) (cl : Nat) : State :=
  let limpts := (List.range 4).map fun t => match s.core? (coreAt cl t) with | none => 0 | some k => k.stash.limpt
  let s := s.updCluster cl fun x => { x with gated := true, tlb := [], limpts := limpts }
  s.forEach (List.range 4) fun s t => { s with cores := Tab.set none s.cores (coreAt cl t) none }

theorem State.cluster?_powerDown {s : State} {cl : Nat} {y : Cluster} (hy : s.cluster? cl = some y) :
    ∃ y', (s.powerDown cl).cluster? cl = some y' ∧ y'.gated = true ∧ y'.tlb = [] := by
  let limpts := (List.range 4).map fun t => match s.core? (coreAt cl t) with | none => 0 | some k => k.stash.limpt
  refine ⟨{ y with gated := true, tlb := [], limpts := limpts }, ?_, rfl, rfl⟩
  refine State.forEach_keeps (fun t => t.cluster? cl = some { y with gated := true, tlb := [], limpts := limpts }) ?_ _ _ ?_
  · exact fun _ _ ht => ht
  · rw [State.cluster?_updCluster, if_pos rfl, hy]
    rfl

theorem State.core?_powerDown {s : State} (hw : Tab.wf none s.cores = true) (cl : Nat) {i : Nat} (hi : i < 4) : (s.powerDown cl).core? (coreAt cl i) = none := by
  refine (State.core?_forEach_erase (coreAt cl) (List.range 4) (by simpa using hw) _).trans (if_pos ⟨i, by simpa using hi, rfl⟩)

/-- A cluster that has been free for GATEDLY loses power. -/
theorem execClusterPowerGate_of_due {s : State} {cl p : Nat} {x : Part} {y : Cluster} (hev : s.ev = .clusterPowerGate cl) (hy : s.cluster? cl = some y)
    (hp : s.partOfCluster cl = some p) (hx : s.part? p = some x) (hg : y.gated = false) (hl : y.launch = none) (hd : bitsOf x.schedcfg 5 8 ≠ 0)
    (hdue : y.freeSince + bitsOf x.schedcfg 5 8 * 10000 ≤ s.ticks) : execClusterPowerGate s = .next (s.powerDown cl) := by
  have hlate : ¬ s.ticks < y.freeSince + bitsOf x.schedcfg 5 8 * 10000 := by omega
  unfold execClusterPowerGate
  rw [hev]
  simp only [hy, hp, Option.bind_some, hx, hg, hl, Bool.false_or, Option.isSome_none, decide_eq_true_eq, if_neg hd, if_neg hlate]
  rfl

end Sys2Proof.Machine
end
section
/-! SUPPORT. Dispatch and the residency quantum, and the whole of how launches run. -/

namespace Sys2Proof.Machine

/-! ## The residency quantum -/

section Residency
variable {s : State} {p : Nat} {x : Part}

/-- A boundary of the residency quantum: the next one is due, and unless the partition is fenced the queues grow older, those without work leave and slots change
hands. -/
theorem execResidencyQuantumBoundary_eq (hx : s.part? p = some x) (hev : s.ev = .residencyQuantumBoundary p) :
    let quantum := max 1 (bitsOf x.schedcfg 0 5) * 500000
    let s0 := s.post (s.cyclesOf quantum) (.residencyQuantumBoundary p)
    let aged := s0.forEach ((x.queues.filter fun kv => kv.2.known).map (·.1)) fun s q => s.ageQueue p q
    execResidencyQuantumBoundary s = .next (if x.fenced then s0
      else ((aged.unbindIdle p).updPart p fun u => u.rotate (aged.unbindIdle p).ticks quantum).postOnce 1 (.dispatch p)) := by
  unfold execResidencyQuantumBoundary
  rw [hev]
  simp only [hx]

/-- After every boundary the next one stands in the agenda. -/
theorem mem_agenda_execResidencyQuantumBoundary (hx : s.part? p = some x) (hev : s.ev = .residencyQuantumBoundary p) :
    ∃ t, execResidencyQuantumBoundary s = .next t ∧
      (s.cycle + s.cyclesOf (max 1 (bitsOf x.schedcfg 0 5) * 500000), Event.residencyQuantumBoundary p) ∈ t.agenda := by
  refine ⟨_, execResidencyQuantumBoundary_eq hx hev, ?_⟩
  have hdue := State.mem_post s (s.cyclesOf (max 1 (bitsOf x.schedcfg 0 5) * 500000)) (.residencyQuantumBoundary p)
  split
  · exact hdue
  · refine State.MemFrame.agenda (((State.MemFrame.forEach (fun s q => .ageQueue s p q) _ _).trans (.unbindIdle _ p)).trans ((State.MemFrame.updPart _ p _).trans
      (.postOnce _ _ _))) _ hdue

/-- Queues that have no work are unbound, bound and waiting ones. -/
theorem State.unbindIdle_of_withWork {y z : Part} {s2 s3 : State} {on w : List Nat} (hy : s.part? p = some y) (hon : s.withWork p y.boundQ = (s2, on))
    (hz : s2.part? p = some z) (hw : s2.withWork p z.waitQ = (s3, w)) :
    s.unbindIdle p = s3.updPart p fun u => { (u.boundQ.filter fun q => !on.contains q).foldl Part.unbind u with waitQ := w } := by
  simp only [State.unbindIdle, hy, hon, hz, hw]

end Residency

/-! ## Queues that change hands -/

theorem Part.leaving_subset (x : Part) (now quantum : Nat) : ∀ q ∈ x.leaving now quantum, q ∈ x.boundQ.filter fun q => decide ((x.queue q).since + quantum ≤ now) :=
  fun _ hq => by simpa using (byResidency_perm x _ []).mem_iff.1 (List.mem_of_mem_take hq)

theorem Part.leaving_nodup {x : Part} (h : x.boundQ.Nodup) (now quantum : Nat) : (x.leaving now quantum).Nodup :=
  ((byResidency_perm x _ []).nodup_iff.2 (by simpa using h.filter _)).sublist (List.take_sublist _ _)

theorem Part.leaving_length (x : Part) (now quantum : Nat) :
    (x.leaving now quantum).length =
      min (x.waitQ.length - (64 - x.boundQ.length)) (x.boundQ.filter fun q => decide ((x.queue q).since + quantum ≤ now)).length := by
  rw [Part.leaving, List.length_take, (byResidency_perm x _ []).length_eq, List.append_nil]

/-! ## Placements -/

section Placement
variable {s : State} {p l : Nat} {q : Launch}

/-- A placement at which no launch is due places what is selected. -/
theorem execLaunchPlacement_of_stands (hev : s.ev = .launchPlacement p) (h : ∀ l q, s.launch? l = some q → q.stands p) :
    execLaunchPlacement s = .next (s.placeSelected p) := by
  rw [execLaunchPlacement_eq hev, State.forEach_of_fixed fun kv _ => State.startDue_of_stands fun q hq => h kv.1 q hq]

variable (hev : s.ev = .launchPlacement p) (hw : Tab.wf none s.launches = true) (hq : s.launch? l = some q) (hdue : ¬ q.stands p)
  (hothers : ∀ m r, s.launch? m = some r → m ≠ l → r.stands p)

include hev hw hq hdue hothers

/-- The launch whose clusters have woken starts (02 R37 step 7). -/
theorem execLaunchPlacement_of_start (hnow : q.tstart ≤ s.ticks) : execLaunchPlacement s = .next ((s.startLaunch l q).placeSelected p) := by
  have hone : s.startDue p (l, some q) = s.startLaunch l q := by
    rw [State.startDue_of_due hq hdue, if_neg (by omega)]
  rw [execLaunchPlacement_eq hev, State.forEach_startDue hw hq hothers hone fun m hm => State.launch?_startLaunch_ne s q hm]

/-- A launch whose clusters still wake is looked at again when it is due (02 R37 step 6). -/
theorem execLaunchPlacement_of_waking (hnow : s.ticks < q.tstart) :
    execLaunchPlacement s = .next ((s.postOnce (s.cyclesOf (q.tstart - s.ticks)) (.launchPlacement p)).placeSelected p) := by
  have hone : s.startDue p (l, some q) = s.postOnce (s.cyclesOf (q.tstart - s.ticks)) (.launchPlacement p) := by
    rw [State.startDue_of_due hq hdue, if_pos hnow]
  rw [execLaunchPlacement_eq hev, State.forEach_startDue hw hq hothers hone fun m _ => by simp only [State.launch?, State.postOnce_launches]]

end Placement

/-- Settles O57: dispatch, the residency quantum, placement, start, completion and the power gate each by the lemma of their event. -/
theorem launchesRun : Obligations.LaunchesRun := by
  unfold Obligations.LaunchesRun
  intro s p x hx
  refine ⟨fun hev => ⟨fun h => ?_, fun s1 hf hsel hbest => ?_, fun s1 s2 q d e hf hsel hbest hwrite => ?_⟩,
    fun hev => ⟨mem_agenda_execResidencyQuantumBoundary hx hev, fun hf => ?_, fun s1 y s2 on z s3 w hf hs1 hy hon hz hw => ?_⟩,
    fun now quantum hnodup => ?_,
    fun hev => ⟨execLaunchPlacement_of_stands hev, fun l q hwf hq hp hs ha hothers => ?_⟩,
    fun e lseq i hsel => ⟨State.placeSelected_of_fenced hx hsel, fun hf hpt hop => ?_⟩,
    fun k now l q i r tvec grids n hn ht => ?_,
    fun l q hev hq ha hs hland hquiet => execLaunchCompletion_of_done hev hq ha hs hland hquiet,
    fun cl y hev hy hp hg hl hd hdue hwf => ?_⟩
  · change execDispatch s = _
    simp [execDispatch, hev, hx, h]
  · change execDispatch s = _
    simp [execDispatch, hev, hx, hf, hsel, hbest]
  · change execDispatch s = _
    simp [execDispatch, hev, hx, hf, hsel, hbest, hwrite]
  · exact (execResidencyQuantumBoundary_eq hx hev).trans (by rw [if_pos hf])
  · refine (execResidencyQuantumBoundary_eq hx hev).trans ?_
    rw [if_neg (by simp [hf]), ← hs1, State.unbindIdle_of_withWork hy hon hz hw]
  · exact ⟨x.leaving now quantum, Part.leaving_nodup hnodup now quantum, Part.leaving_subset x now quantum, Part.leaving_length x now quantum,
      fun q hq r hr hout => Part.leaving_first x now quantum hq hr hout, Part.rotate_boundQ x now quantum, Part.rotate_waitQ x now quantum⟩
  · have hdue : ¬ q.stands p := by simp [Launch.stands, hp, hs, ha]
    exact ⟨execLaunchPlacement_of_start hev hwf hq hdue hothers, execLaunchPlacement_of_waking hev hwf hq hdue hothers⟩
  · have hopen := State.placeSelected_of_open hx hsel hf hpt hop
    refine ⟨fun ho => hopen.trans (if_pos ho), fun ho hc => ?_, fun o ho hc => ⟨fun c need hlack => ?_, fun hlack => ?_⟩⟩
    · rw [hopen, if_neg ho, hc]
    · rw [hopen, if_neg ho, hc]
      dsimp only
      rw [show State.lackingCore _ (Launch.ofEntry p lseq s.ticks e i o) i = _ from hlack]
    · let s2 := s.updPart p fun x => { x with selected := none }
      obtain ⟨q', hrec, hsame, hclusters⟩ := State.place_spec (s := s) (s2 := s2) (p := p) (q := Launch.ofEntry p lseq s.ticks e i o) (by simp [s2]) (by simp [s2])
      refine ⟨s2.place p (Launch.ofEntry p lseq s.ticks e i o), q', ?_, hrec, hsame, hclusters⟩
      rw [hopen, if_neg ho, hc]
      dsimp only
      rw [show State.lackingCore _ (Launch.ofEntry p lseq s.ticks e i o) i = _ from hlack]
  · refine ⟨_, Core.ctx?_start k now l q i r tvec grids hn ht, rfl, ?_, fun m hm => ?_, rfl, rfl, rfl⟩
    · exact (Regs.getX_taskStart _ 1).trans (if_pos rfl)
    · exact (Regs.getX_taskStart _ m).trans (if_neg hm)
  · obtain ⟨y', hy', hgated, htlb⟩ := State.cluster?_powerDown hy
    exact ⟨s.powerDown cl, y', execClusterPowerGate_of_due hev hy hp hx hg hl hd hdue, hy', hgated, htlb, fun i hi => State.core?_powerDown hwf cl hi⟩

end Sys2Proof.Machine
end
section
/-! SUPPORT. The encoding: each code, each format and each word read back, and so every instruction. -/

namespace Sys2Proof

/-! ## Fields of a concatenation

`Nat.reduceAdd` is kept from the proofs below: it would write 19 for the sum of the widths of the fields, in which these lemmas find their parts. -/

/-- A field that lies in the low part. -/
@[simp] theorem extractLsb'_append_low {v w s l : Nat} (x : BitVec v) (y : BitVec w) (h : s + l ≤ w) : (x ++ y).extractLsb' s l = y.extractLsb' s l :=
  BitVec.extractLsb'_append_eq_of_add_le h

/-- A field that lies in the high part. -/
@[simp] theorem extractLsb'_append_high {v w s l : Nat} (x : BitVec v) (y : BitVec w) (h : w ≤ s) : (x ++ y).extractLsb' s l = x.extractLsb' (s - w) l :=
  BitVec.extractLsb'_append_eq_of_le h

/-! ## Codes (04 R79 to R81) -/

@[simp] theorem bitOf_bitBits (b : Bool) : bitOf (bitBits b) = b := by cases b <;> rfl
@[simp] theorem cOf_cBits (c : CReg) : cOf (cBits c) = some c := by
  simp (disch := decide) [-Nat.reduceAdd, cOf, cBits, c.isLt]
@[simp] theorem iTypeOf_iTypeBits (t : IType) : iTypeOf (iTypeBits t) = some t := by cases t <;> rfl
@[simp] theorem eTypeOf_eTypeBits (t : EType) : eTypeOf (eTypeBits t) = some t := by
  cases t with
  | int t => cases t <;> rfl
  | _ => rfl
@[simp] theorem fType2Of_fType2Bits (t : FType) : fType2Of (fType2Bits t) = some t := by cases t <;> rfl
@[simp] theorem fTypeTOf_fTypeTBits (t : FType) : fTypeTOf (fTypeTBits t) = some t := by cases t <;> rfl
@[simp] theorem condOf_condBits (t : Cond) : condOf (condBits t) = some t := by cases t <;> rfl
@[simp] theorem vCondOf_vCondBits (t : VCond) : vCondOf (vCondBits t) = some t := by cases t <;> rfl
@[simp] theorem redOpOf_redOpBits (t : RedOp) : redOpOf (redOpBits t) = some t := by cases t <;> rfl
@[simp] theorem xFileOf_xFileBits (t : XFile) : xFileOf (xFileBits t) = some t := by cases t <;> rfl
@[simp] theorem bankOf_bankBits (t : Bank) : bankOf (bankBits t) = some t := by cases t <;> rfl
@[simp] theorem fType1Of_fType1Bits (t : FType) : fType1Of (fType1Bits t) = t := by cases t <;> rfl

/-! ## Extension words (04 R83, 19 R517) -/

@[simp] theorem zeroExt_wideExt (b : Bool) : zeroExt (wideExt b) = true := by cases b <;> rfl
@[simp] theorem isSome_wideExt (b : Bool) : (wideExt b).isSome = b := by cases b <;> rfl
@[simp] theorem syncOf_syncBits (s : Sync) : syncOf (syncBits s) = s := by
  simp (disch := decide) [-Nat.reduceAdd, syncOf, syncBits]

/-! ## Formats (04 R78)

The operands of each format are read back from the bits that they are written to. Those of a predicate operation take their slot from the map in which they
stand (03 R55). -/

@[simp] theorem parseN_bitsN (p : OpN) : parseN p.g (bitsN p) = some p := by
  simp (disch := decide) [-Nat.reduceAdd, parseN, bitsN]
@[simp] theorem parseJ_bitsJ (p : OpJ) : parseJ p.g (bitsJ p) = some p := by
  simp (disch := decide) [-Nat.reduceAdd, parseJ, bitsJ]
@[simp] theorem parseJ64_bitsJ64 (p : OpJ64) : parseJ64 p.g (bitsJ64 p) (extJ64 p) = some p := by
  simp (disch := decide) [-Nat.reduceAdd, parseJ64, bitsJ64, extJ64]
@[simp] theorem parseK_bitsK (p : OpK) : parseK p.g (bitsK p) = some p := by
  simp (disch := decide) [-Nat.reduceAdd, parseK, bitsK]
@[simp] theorem parseK64_bitsK64 (p : OpK64) : parseK64 p.g (bitsK64 p) (extK64 p) = some p := by
  simp (disch := decide) [-Nat.reduceAdd, parseK64, bitsK64, extK64]
@[simp] theorem parseMwb_bitsMwb (p : OpMwb) : parseMwb p.g (bitsMwb p) (extMwb p) = some p := by
  simp (disch := decide) [-Nat.reduceAdd, parseMwb, bitsMwb, extMwb]
@[simp] theorem parseLoop_bitsLoop (p : OpLoop) : parseLoop p.g (bitsLoop p) = some p := by
  simp (disch := decide) [-Nat.reduceAdd, parseLoop, bitsLoop]
@[simp] theorem parseTrap_bitsTrap (p : OpTrap) : parseTrap p.g (bitsTrap p) = some p := by
  simp (disch := decide) [-Nat.reduceAdd, parseTrap, bitsTrap]
@[simp] theorem parseTrap64_bitsTrap64 (p : OpTrap64) : parseTrap64 p.g (bitsTrap64 p) (extTrap64 p) = some p := by
  simp (disch := decide) [-Nat.reduceAdd, parseTrap64, bitsTrap64, extTrap64]
@[simp] theorem parseC3_bitsC3 (p : OpC3) : parseC3 p.g (bitsC3 p) = some p := by
  simp (disch := decide) [-Nat.reduceAdd, parseC3, bitsC3]
@[simp] theorem parseC2_bitsC2 (p : OpC2) : parseC2 p.g (bitsC2 p) = some p := by
  simp (disch := decide) [-Nat.reduceAdd, parseC2, bitsC2]
@[simp] theorem parseTlbi_bitsTlbi (p : OpTlbi) : parseTlbi p.g (bitsTlbi p) = some p := by
  simp (disch := decide) [-Nat.reduceAdd, parseTlbi, bitsTlbi]
@[simp] theorem parseS_bitsS (p : OpS) : parseS p.g (bitsS p) = some p := by
  simp (disch := decide) [-Nat.reduceAdd, parseS, bitsS]
@[simp] theorem parseCmpC_bitsCmpC (p : OpCmpC) : parseCmpC p.g (bitsCmpC p) = some p := by
  simp (disch := decide) [-Nat.reduceAdd, parseCmpC, bitsCmpC]
@[simp] theorem parseCmpiC_bitsCmpiC (p : OpCmpiC) : parseCmpiC p.g (bitsCmpiC p) = some p := by
  simp (disch := decide) [-Nat.reduceAdd, parseCmpiC, bitsCmpiC]
@[simp] theorem parseCmpiC64_bitsCmpiC64 (p : OpCmpiC64) : parseCmpiC64 p.g (bitsCmpiC64 p) (extCmpiC64 p) = some p := by
  simp (disch := decide) [-Nat.reduceAdd, parseCmpiC64, bitsCmpiC64, extCmpiC64]
@[simp] theorem parseAddiC_bitsAddiC (p : OpAddiC) : parseAddiC p.g (bitsAddiC p) = some p := by
  simp (disch := decide) [-Nat.reduceAdd, parseAddiC, bitsAddiC]
@[simp] theorem parseAddiC64_bitsAddiC64 (p : OpAddiC64) : parseAddiC64 p.g (bitsAddiC64 p) (extAddiC64 p) = some p := by
  simp (disch := decide) [-Nat.reduceAdd, parseAddiC64, bitsAddiC64, extAddiC64]
@[simp] theorem parseLiC_bitsLiC (p : OpLiC) : parseLiC p.g (bitsLiC p) = some p := by
  simp (disch := decide) [-Nat.reduceAdd, parseLiC, bitsLiC]
@[simp] theorem parseLiC64_bitsLiC64 (p : OpLiC64) : parseLiC64 p.g (bitsLiC64 p) (extLiC64 p) = some p := by
  simp (disch := decide) [-Nat.reduceAdd, parseLiC64, bitsLiC64, extLiC64]
@[simp] theorem parseXmovC_bitsXmovC (p : OpXmovC) : parseXmovC p.g (bitsXmovC p) = some p := by
  simp (disch := decide) [-Nat.reduceAdd, parseXmovC, bitsXmovC]
@[simp] theorem parseP3C_bitsP3C (p : OpP3C) : parseP3C p.g (bitsP3C p) = some p := by
  simp (disch := decide) [-Nat.reduceAdd, parseP3C, bitsP3C]
@[simp] theorem parseP2C_bitsP2C (p : OpP2C) : parseP2C p.g (bitsP2C p) = some p := by
  simp (disch := decide) [-Nat.reduceAdd, parseP2C, bitsP2C]
@[simp] theorem parsePsetC_bitsPsetC (p : OpPsetC) : parsePsetC p.g (bitsPsetC p) = some p := by
  simp (disch := decide) [-Nat.reduceAdd, parsePsetC, bitsPsetC]
@[simp] theorem parsePsetC64_bitsPsetC64 (p : OpPsetC64) : parsePsetC64 p.g (bitsPsetC64 p) (extPsetC64 p) = some p := by
  simp (disch := decide) [-Nat.reduceAdd, parsePsetC64, bitsPsetC64, extPsetC64]
@[simp] theorem parsePmovC_bitsPmovC (p : OpPmovC) : parsePmovC p.g (bitsPmovC p) = some p := by
  simp (disch := decide) [-Nat.reduceAdd, parsePmovC, bitsPmovC]
@[simp] theorem parseIA_bitsIA (p : OpIA) : parseIA p.sl p.g (bitsIA p) = some p := by
  simp (disch := decide) [-Nat.reduceAdd, parseIA, bitsIA]
@[simp] theorem parseIA1_bitsIA1 (p : OpIA1) : parseIA1 p.sl p.g (bitsIA1 p) = some p := by
  simp (disch := decide) [-Nat.reduceAdd, parseIA1, bitsIA1]
@[simp] theorem parseIB_bitsIB (p : OpIB) : parseIB p.sl p.g (bitsIB p) = some p := by
  simp (disch := decide) [-Nat.reduceAdd, parseIB, bitsIB]
@[simp] theorem parseIB64_bitsIB64 (p : OpIB64) : parseIB64 p.sl p.g (bitsIB64 p) (extIB64 p) = some p := by
  simp (disch := decide) [-Nat.reduceAdd, parseIB64, bitsIB64, extIB64]
@[simp] theorem parseSel_bitsSel (p : OpSel) : parseSel p.sl p.g (bitsSel p) = some p := by
  simp (disch := decide) [-Nat.reduceAdd, parseSel, bitsSel]
@[simp] theorem parseSel64_bitsSel64 (p : OpSel64) : parseSel64 p.sl p.g (bitsSel64 p) (extSel64 p) = some p := by
  simp (disch := decide) [-Nat.reduceAdd, parseSel64, bitsSel64, extSel64]
@[simp] theorem parseIU_bitsIU (p : OpIU) : parseIU p.sl p.g (bitsIU p) = some p := by
  simp (disch := decide) [-Nat.reduceAdd, parseIU, bitsIU]
@[simp] theorem parseIU64_bitsIU64 (p : OpIU64) : parseIU64 p.sl p.g (bitsIU64 p) (extIU64 p) = some p := by
  simp (disch := decide) [-Nat.reduceAdd, parseIU64, bitsIU64, extIU64]
@[simp] theorem parseLea_bitsLea (p : OpLea) : parseLea p.sl p.g (bitsLea p) = some p := by
  simp (disch := decide) [-Nat.reduceAdd, parseLea, bitsLea]
@[simp] theorem parseLea64_bitsLea64 (p : OpLea64) : parseLea64 p.sl p.g (bitsLea64 p) (extLea64 p) = some p := by
  simp (disch := decide) [-Nat.reduceAdd, parseLea64, bitsLea64, extLea64]
@[simp] theorem parseBfx_bitsBfx (p : OpBfx) : parseBfx p.sl p.g (bitsBfx p) = some p := by
  simp (disch := decide) [-Nat.reduceAdd, parseBfx, bitsBfx]
@[simp] theorem parseBfxImm_bitsBfxImm (p : OpBfxImm) : parseBfxImm p.sl p.g (bitsBfxImm p) (extBfxImm p) = some p := by
  simp (disch := decide) [-Nat.reduceAdd, parseBfxImm, bitsBfxImm, extBfxImm]
@[simp] theorem parseBfi_bitsBfi (p : OpBfi) : parseBfi p.sl p.g (bitsBfi p) = some p := by
  simp (disch := decide) [-Nat.reduceAdd, parseBfi, bitsBfi]
@[simp] theorem parseBfiImm_bitsBfiImm (p : OpBfiImm) : parseBfiImm p.sl p.g (bitsBfiImm p) (extBfiImm p) = some p := by
  simp (disch := decide) [-Nat.reduceAdd, parseBfiImm, bitsBfiImm, extBfiImm]
@[simp] theorem parseXmovI_bitsXmovI (p : OpXmovI) : parseXmovI p.sl p.g (bitsXmovI p) = some p := by
  simp (disch := decide) [-Nat.reduceAdd, parseXmovI, bitsXmovI]
@[simp] theorem parseL_bitsL (p : OpL) : parseL p.sl p.g (bitsL p) = some p := by
  simp (disch := decide) [-Nat.reduceAdd, parseL, bitsL]
@[simp] theorem parseL64_bitsL64 (p : OpL64) : parseL64 p.sl p.g (bitsL64 p) (extL64 p) = some p := by
  simp (disch := decide) [-Nat.reduceAdd, parseL64, bitsL64, extL64]
@[simp] theorem parseP3_bitsP3 {sl : PSlot} (p : OpP3) (h : p.sl = sl) : parseP3 sl p.g (bitsP3 p) = some p := by
  simp (disch := decide) [-Nat.reduceAdd, parseP3, bitsP3, ← h]
@[simp] theorem parseP2_bitsP2 {sl : PSlot} (p : OpP2) (h : p.sl = sl) : parseP2 sl p.g (bitsP2 p) = some p := by
  simp (disch := decide) [-Nat.reduceAdd, parseP2, bitsP2, ← h]
@[simp] theorem parsePset_bitsPset {sl : PSlot} (p : OpPset) (h : p.sl = sl) : parsePset sl p.g (bitsPset p) = some p := by
  simp (disch := decide) [-Nat.reduceAdd, parsePset, bitsPset, ← h]
@[simp] theorem parsePset64_bitsPset64 {sl : PSlot} (p : OpPset64) (h : p.sl = sl) : parsePset64 sl p.g (bitsPset64 p) (extPset64 p) = some p := by
  simp (disch := decide) [-Nat.reduceAdd, parsePset64, bitsPset64, extPset64, ← h]
@[simp] theorem parsePmov_bitsPmov {sl : PSlot} (p : OpPmov) (h : p.sl = sl) : parsePmov sl p.g (bitsPmov p) = some p := by
  simp (disch := decide) [-Nat.reduceAdd, parsePmov, bitsPmov, ← h]
@[simp] theorem parseV2_bitsV2 (p : OpV2) : parseV2 p.g (bitsV2 p) (wideExt p.wide) = some p := by
  simp (disch := decide) [-Nat.reduceAdd, parseV2, bitsV2]
@[simp] theorem parseV1_bitsV1 (p : OpV1) : parseV1 p.g (bitsV1 p) (wideExt p.wide) = some p := by
  simp (disch := decide) [-Nat.reduceAdd, parseV1, bitsV1]
@[simp] theorem parseV3_bitsV3 (p : OpV3) : parseV3 p.g (bitsV3 p) (extV3 p) = some p := by
  simp (disch := decide) [-Nat.reduceAdd, parseV3, bitsV3, extV3]
@[simp] theorem parseVcmp_bitsVcmp (p : OpVcmp) : parseVcmp p.g (bitsVcmp p) (extVcmp p) = some p := by
  simp (disch := decide) [-Nat.reduceAdd, parseVcmp, bitsVcmp, extVcmp]
@[simp] theorem parseVclass_bitsVclass (p : OpVclass) : parseVclass p.g (bitsVclass p) (extVclass p) = some p := by
  simp (disch := decide) [-Nat.reduceAdd, parseVclass, bitsVclass, extVclass]
@[simp] theorem parseVsel_bitsVsel (p : OpVsel) : parseVsel p.g (bitsVsel p) (extVsel p) = some p := by
  simp (disch := decide) [-Nat.reduceAdd, parseVsel, bitsVsel, extVsel]
@[simp] theorem parseVcvt_bitsVcvt (p : OpVcvt) : parseVcvt p.g (bitsVcvt p) (extVcvt p) = some p := by
  simp (disch := decide) [-Nat.reduceAdd, parseVcvt, bitsVcvt, extVcvt]
@[simp] theorem parseVS_bitsVS (p : OpVS) : parseVS p.g (bitsVS p) = some p := by
  simp (disch := decide) [-Nat.reduceAdd, parseVS, bitsVS]
@[simp] theorem parseVrnd64_bitsVrnd64 (p : OpVrnd64) : parseVrnd64 p.g (bitsVrnd64 p) (extVrnd64 p) = some p := by
  simp (disch := decide) [-Nat.reduceAdd, parseVrnd64, bitsVrnd64, extVrnd64]
@[simp] theorem parseVred_bitsVred (p : OpVred) : parseVred p.g (bitsVred p) (wideExt p.wide) = some p := by
  simp (disch := decide) [-Nat.reduceAdd, parseVred, bitsVred]
@[simp] theorem parseVcswap_bitsVcswap (p : OpVcswap) : parseVcswap p.g (bitsVcswap p) (extVcswap p) = some p := by
  simp (disch := decide) [-Nat.reduceAdd, parseVcswap, bitsVcswap, extVcswap]
@[simp] theorem parseVbcast64_bitsVbcast64 (p : OpVbcast64) : parseVbcast64 p.g (bitsVbcast64 p) (extVbcast64 p) = some p := by
  simp (disch := decide) [-Nat.reduceAdd, parseVbcast64, bitsVbcast64, extVbcast64]
@[simp] theorem parseViota_bitsViota (p : OpViota) : parseViota p.g (bitsViota p) (wideExt p.wide) = some p := by
  simp (disch := decide) [-Nat.reduceAdd, parseViota, bitsViota]
@[simp] theorem parseVmov_bitsVmov (p : OpVmov) : parseVmov p.g (bitsVmov p) (wideExt p.wide) = some p := by
  simp (disch := decide) [-Nat.reduceAdd, parseVmov, bitsVmov]
@[simp] theorem parseVpack_bitsVpack (p : OpVpack) : parseVpack p.g (bitsVpack p) = some p := by
  simp (disch := decide) [-Nat.reduceAdd, parseVpack, bitsVpack]
@[simp] theorem parseVpack64_bitsVpack64 (p : OpVpack64) : parseVpack64 p.g (bitsVpack64 p) (extVpack64 p) = some p := by
  simp (disch := decide) [-Nat.reduceAdd, parseVpack64, bitsVpack64, extVpack64]
@[simp] theorem parseVunpk_bitsVunpk (p : OpVunpk) : parseVunpk p.g (bitsVunpk p) = some p := by
  simp (disch := decide) [-Nat.reduceAdd, parseVunpk, bitsVunpk]
@[simp] theorem parseVM_bitsVM (p : OpVM) : parseVM p.g (bitsVM p) = some p := by
  simp (disch := decide) [-Nat.reduceAdd, parseVM, bitsVM]
@[simp] theorem parseVM64_bitsVM64 (p : OpVM64) : parseVM64 p.g (bitsVM64 p) (extVM64 p) = some p := by
  simp (disch := decide) [-Nat.reduceAdd, parseVM64, bitsVM64, extVM64]
@[simp] theorem parseVX_bitsVX (p : OpVX) : parseVX p.g (bitsVX p) = some p := by
  simp (disch := decide) [-Nat.reduceAdd, parseVX, bitsVX]
@[simp] theorem parseVX64_bitsVX64 (p : OpVX64) : parseVX64 p.g (bitsVX64 p) (extVX64 p) = some p := by
  simp (disch := decide) [-Nat.reduceAdd, parseVX64, bitsVX64, extVX64]
@[simp] theorem parseMcfg_bitsMcfg (p : OpMcfg) : parseMcfg p.g (bitsMcfg p) = some p := by
  simp (disch := decide) [-Nat.reduceAdd, parseMcfg, bitsMcfg]
@[simp] theorem parseMfmt_bitsMfmt (p : OpMfmt) : parseMfmt p.g (bitsMfmt p) = some p := by
  simp (disch := decide) [-Nat.reduceAdd, parseMfmt, bitsMfmt]
@[simp] theorem parseMma_bitsMma (p : OpMma) : parseMma p.g (bitsMma p) = some p := by
  simp (disch := decide) [-Nat.reduceAdd, parseMma, bitsMma]
@[simp] theorem parseMbld_bitsMbld (p : OpMbld) : parseMbld p.g (bitsMbld p) = some p := by
  simp (disch := decide) [-Nat.reduceAdd, parseMbld, bitsMbld]
@[simp] theorem parseMzero_bitsMzero (p : OpMzero) : parseMzero p.g (bitsMzero p) = some p := by
  simp (disch := decide) [-Nat.reduceAdd, parseMzero, bitsMzero]
@[simp] theorem parseMrow_bitsMrow (p : OpMrow) : parseMrow p.g (bitsMrow p) = some p := by
  simp (disch := decide) [-Nat.reduceAdd, parseMrow, bitsMrow]
@[simp] theorem parseMtile_bitsMtile (p : OpMtile) : parseMtile p.g (bitsMtile p) = some p := by
  simp (disch := decide) [-Nat.reduceAdd, parseMtile, bitsMtile]
@[simp] theorem parseMtrn_bitsMtrn (p : OpMtrn) : parseMtrn p.g (bitsMtrn p) = some p := by
  simp (disch := decide) [-Nat.reduceAdd, parseMtrn, bitsMtrn]
@[simp] theorem parseMbfly_bitsMbfly (p : OpMbfly) : parseMbfly p.g (bitsMbfly p) = some p := by
  simp (disch := decide) [-Nat.reduceAdd, parseMbfly, bitsMbfly]
@[simp] theorem parseMtwid_bitsMtwid (p : OpMtwid) : parseMtwid p.g (bitsMtwid p) = some p := by
  simp (disch := decide) [-Nat.reduceAdd, parseMtwid, bitsMtwid]
@[simp] theorem parseQset_bitsQset (p : OpQset) : parseQset p.g (bitsQset p) = some p := by
  simp (disch := decide) [-Nat.reduceAdd, parseQset, bitsQset]
@[simp] theorem parseQstrm_bitsQstrm (p : OpQstrm) : parseQstrm p.g (bitsQstrm p) = some p := by
  simp (disch := decide) [-Nat.reduceAdd, parseQstrm, bitsQstrm]
@[simp] theorem parseQcopy_bitsQcopy (p : OpQcopy) : parseQcopy p.g (bitsQcopy p) = some p := by
  simp (disch := decide) [-Nat.reduceAdd, parseQcopy, bitsQcopy]
@[simp] theorem parseGcfg_bitsGcfg (p : OpGcfg) : parseGcfg p.g (bitsGcfg p) = some p := by
  simp (disch := decide) [-Nat.reduceAdd, parseGcfg, bitsGcfg]
@[simp] theorem parseGrun_bitsGrun (p : OpGrun) : parseGrun p.g (bitsGrun p) = some p := by
  simp (disch := decide) [-Nat.reduceAdd, parseGrun, bitsGrun]
@[simp] theorem parseQsave_bitsQsave (p : OpQsave) : parseQsave p.g (bitsQsave p) = some p := by
  simp (disch := decide) [-Nat.reduceAdd, parseQsave, bitsQsave]
@[simp] theorem parseStash_bitsStash (p : OpStash) : parseStash p.g (bitsStash p) = some p := by
  simp (disch := decide) [-Nat.reduceAdd, parseStash, bitsStash]
@[simp] theorem parseSem_bitsSem (p : OpSem) : parseSem p.g (bitsSem p) = some p := by
  simp (disch := decide) [-Nat.reduceAdd, parseSem, bitsSem]
@[simp] theorem parseSem64_bitsSem64 (p : OpSem64) : parseSem64 p.g (bitsSem64 p) (extSem64 p) = some p := by
  simp (disch := decide) [-Nat.reduceAdd, parseSem64, bitsSem64, extSem64]
@[simp] theorem parseFence_bitsFence (p : OpFence) : parseFence p.g (bitsFence p) = some p := by
  simp (disch := decide) [-Nat.reduceAdd, parseFence, bitsFence]
@[simp] theorem parseStep_bitsStep (p : OpStep) : parseStep p.g (bitsStep p) = some p := by
  simp (disch := decide) [-Nat.reduceAdd, parseStep, bitsStep]
@[simp] theorem parseAtom_bitsAtom (p : OpAtom) : parseAtom p.g (bitsAtom p) = some p := by
  simp (disch := decide) [-Nat.reduceAdd, parseAtom, bitsAtom]
@[simp] theorem parseAtom64_bitsAtom64 (p : OpAtom64) : parseAtom64 p.g (bitsAtom64 p) (extAtom64 p) = some p := by
  simp (disch := decide) [-Nat.reduceAdd, parseAtom64, bitsAtom64, extAtom64]
@[simp] theorem parseCh_bitsCh (p : OpCh) : parseCh p.g (bitsCh p) = some p := by
  simp (disch := decide) [-Nat.reduceAdd, parseCh, bitsCh]
@[simp] theorem parseTstart_bitsTstart (p : OpTstart) : parseTstart p.g (bitsTstart p) = some p := by
  simp (disch := decide) [-Nat.reduceAdd, parseTstart, bitsTstart]
@[simp] theorem parseRdtime_bitsRdtime (p : OpRdtime) : parseRdtime p.g (bitsRdtime p) = some p := by
  simp (disch := decide) [-Nat.reduceAdd, parseRdtime, bitsRdtime]

/-! ## Slot words (03 R51) -/

@[simp] theorem opOf_wordOf (op : BitVec 6) (g : Guard) (o : BitVec 19) : opOf (wordOf op g o) = op := by
  simp (disch := decide) [-Nat.reduceAdd, opOf, wordOf]
@[simp] theorem guardOf_wordOf (op : BitVec 6) (g : Guard) (o : BitVec 19) : guardOf (wordOf op g o) = g := by
  simp (disch := decide) [-Nat.reduceAdd, guardOf, wordOf]
@[simp] theorem operands_wordOf (op : BitVec 6) (g : Guard) (o : BitVec 19) : (wordOf op g o).extractLsb' 0 19 = o := by
  simp (disch := decide) [-Nat.reduceAdd, wordOf]

section Slots
variable (op : BitVec 6) (g : Guard) (o : BitVec 19) (x : Option Word32)

theorem decodeFields_c : decodeFields .c (wordOf op g o) x = decodeC op.toNat g o x := by simp [decodeFields]
theorem decodeFields_f : decodeFields .f (wordOf op g o) x = decodeF op.toNat g o x := by simp [decodeFields]
theorem decodeFields_m : decodeFields .m (wordOf op g o) x = decodeM op.toNat g o x := by simp [decodeFields]
theorem decodeFields_q : decodeFields .q (wordOf op g o) x = decodeQ op.toNat g o x := by simp [decodeFields]
theorem decodeFields_y : decodeFields .y (wordOf op g o) x = decodeY op.toNat g o x := by simp [decodeFields]
theorem decodeFields_i (sl : ISlot) : decodeFields sl.slot (wordOf op g o) x = decodeI sl op.toNat g o x := by
  cases sl <;> simp [decodeFields, ISlot.slot]

end Slots

/-! ## Forms (04 R77) -/

@[simp] theorem assigned_some (i : Instr) : assigned (some (some i)) = .ok i := rfl
@[simp] theorem only32_none (r : Option Instr) : only32 none r = r := rfl
@[simp] theorem only64_some (e : Word32) (r : Word32 → Option Instr) : only64 (some e) r = r e := rfl
@[simp] theorem both_none (r : Option Instr) (r64 : Word32 → Option Instr) : both none r r64 = r := rfl
@[simp] theorem both_some (e : Word32) (r : Option Instr) (r64 : Word32 → Option Instr) : both (some e) r r64 = r64 e := rfl
@[simp] theorem engine_none {α : Type} (p : Option α) (f : α → Instr) (f64 : α → Sync → Instr) : engine none p f f64 = p.map f := rfl
@[simp] theorem engine_some {α : Type} (e : Word32) (p : Option α) (f : α → Instr) (f64 : α → Sync → Instr) :
    engine (some e) p f f64 = p.map fun o => f64 o (syncOf e) := rfl

/-! ## Instructions -/

/-- The map of its slot reads a word of `encode` back: `change` takes the arm of its opcode, whose operands the lemma of the format gives. -/
theorem decodeFields_encode {i : Instr} {t : SlotWord} (h : encode i = some t) : decodeFields t.slot t.w t.x = .ok i := by
  cases i <;> cases h
  case pandIF o | porIF o | pxorIF o | pnotIF o | psetIF o | pmovIF o | psetIF64 o =>
    cases hsl : o.sl <;> simp only [PSlot.slot, decodeFields, opOf_wordOf, guardOf_wordOf, operands_wordOf]
    all_goals
      change assigned (some _) = _
      simp [hsl]
  all_goals
    simp only [decodeFields_c, decodeFields_i, decodeFields_f, decodeFields_m, decodeFields_q, decodeFields_y]
    change assigned (some _) = _
    simp

/-- An instruction has an encoding where it has a guard: where it is a slot operation. -/
theorem isSome_encode (i : Instr) : (encode i).isSome = (Instr.guard i).isSome := by cases i <;> rfl

/-- Settles O4: the map of the slot gives back the instruction, which is well formed and so passes the checks. -/
theorem decodeOfEncodeIsTheInstruction : Obligations.DecodeOfEncodeIsTheInstruction := by
  unfold Obligations.DecodeOfEncodeIsTheInstruction
  refine ⟨fun i t hwf ht => ?_, fun i _ => by rw [isSome_encode]⟩
  rw [SlotWord.decode, decodeSlot, decodeFields_encode ht]
  exact if_pos hwf

end Sys2Proof
end
section
/-! SUPPORT. Guards that fail, hard-wired registers, and the frame of the operations on registers. -/

namespace Sys2Proof.Machine

/-! ## A guard that fails -/

/-- A slot operation that acts under a condition alone leaves the state where the condition fails. -/
theorem slotOp_of_fails {s : State} {k : Core} {n : Nat} {x : Ctx} (h : s.issues k n x) {b : Bool} (hb : b = false) (f : Core → Nat → Ctx → State) :
    (slotOp s fun k n x => if b then f k n x else s) = .next s := by
  rw [slotOp_eq h, hb]
  rfl

/-- Settles O10: an operation of a scalar slot is a slot operation under its guard, a predicate operation of I0 or I1 one under bank pi. -/
theorem failingGuardHasNoEffect : Obligations.FailingGuardHasNoEffect := by
  unfold Obligations.FailingGuardHasNoEffect
  intro s k n x i g b late hiss hguard hscalar hfails
  cases i <;> cases hguard
  case pandIF o | porIF o | pxorIF o | pnotIF o | psetIF o | pmovIF o | psetIF64 o =>
    obtain ⟨sl⟩ := o
    cases sl <;> cases hscalar <;> exact slotOp_of_fails hiss hfails _
  all_goals cases hscalar <;> exact slotOp_of_fails hiss hfails _

/-! ## Registers by their names -/

/-- Settles O9: register 0 is decided before the table is looked at, in every read and every write. -/
theorem hardwiredRegisters : Obligations.HardwiredRegisters := by
  unfold Obligations.HardwiredRegisters
  exact fun r v p => ⟨rfl, rfl, rfl, rfl, rfl, rfl, rfl, rfl, rfl, rfl, rfl, rfl⟩

section Read
variable (r : Regs) {m : RegName}

theorem Regs.read_setX {n : Nat} (v : RV) (h : m ≠ .x n) : (r.setX n v).read m = r.read m := by
  cases m with
  | x j => simp only [Regs.read, Regs.getX_setX_ne r v (show j ≠ n from fun e => h (e ▸ rfl))]
  | _ => unfold Regs.setX; split <;> rfl

theorem Regs.read_setY {n : Nat} (v : RV) (h : m ≠ .y n) : (r.setY n v).read m = r.read m := by
  cases m with
  | y j => simp only [Regs.read, Regs.getY_setY_ne r v (show j ≠ n from fun e => h (e ▸ rfl))]
  | _ => unfold Regs.setY; split <;> rfl

theorem Regs.read_setC {n : Nat} (v : RV) (h : m ≠ .c n) : (r.setC n v).read m = r.read m := by
  cases m with
  | c j => simp only [Regs.read, Regs.getC_setC_ne r v (show j ≠ n from fun e => h (e ▸ rfl))]
  | _ => unfold Regs.setC; split <;> rfl

theorem Regs.read_setV {n : Nat} (v : VV) (h : m ≠ .v n) : (r.setV n v).read m = r.read m := by
  cases m with
  | v j => simp only [Regs.read, Regs.getV_setV_ne r v (show j ≠ n from fun e => h (e ▸ rfl))]
  | _ => rfl

theorem Regs.read_setPk {n : Nat} (v : PV) (h : m ≠ .pk n) : (r.setPk n v).read m = r.read m := by
  cases m with
  | pk j => simp only [Regs.read, Regs.getPk_setPk_ne r v (show j ≠ n from fun e => h (e ▸ rfl))]
  | _ => unfold Regs.setPk; split <;> rfl

theorem Regs.read_setPi {n : Nat} (v : PV) (h : m ≠ .pi n) : (r.setPi n v).read m = r.read m := by
  cases m with
  | pi j => simp only [Regs.read, Regs.getPi_setPi_ne r v (show j ≠ n from fun e => h (e ▸ rfl))]
  | _ => unfold Regs.setPi; split <;> rfl

theorem Regs.read_setPv {n : Nat} (v : PV) (h : m ≠ .pv n) : (r.setPv n v).read m = r.read m := by
  cases m with
  | pv j => simp only [Regs.read, Regs.getPv_setPv_ne r v (show j ≠ n from fun e => h (e ▸ rfl))]
  | _ => unfold Regs.setPv; split <;> rfl

theorem Regs.read_setXY (y : Bool) {n : Nat} (v : RV) (h : m ≠ xyName y n) : (r.setXY y n v).read m = r.read m := by
  cases y with
  | false => exact r.read_setX v h
  | true => exact r.read_setY v h

theorem Regs.read_setP (b : Bank) {n : Nat} (v : PV) (h : m ≠ bankName b n) : (r.setP b n v).read m = r.read m := by
  cases b with
  | pk => exact r.read_setPk v h
  | pi => exact r.read_setPi v h
  | pv => exact r.read_setPv v h

end Read

/-! ## The frame of a register write -/

/-- From `x` to `x'` only registers named in `w` have changed, with what the scoreboard and the watch table keep. -/
def Ctx.WritesRegs (x x' : Ctx) (w : List RegName) : Prop :=
  x' = { x with regs := x'.regs, score := x'.score, watch := x'.watch, vold := x'.vold, pold := x'.pold } ∧ ∀ r, r ∉ w → x'.regs.read r = x.regs.read r

section Put
variable (x : Ctx) (now d lat : Nat)

theorem Ctx.putXY_writes (y : Bool) (v : RV) : x.WritesRegs (x.putXY now y d v lat) [xyName y d] :=
  ⟨rfl, fun _ hr => x.regs.read_setXY y v (fun e => hr (List.mem_singleton.2 e))⟩

theorem Ctx.putC_writes (v : RV) : x.WritesRegs (x.putC now d v lat) [.c d] :=
  ⟨rfl, fun _ hr => x.regs.read_setC v (fun e => hr (List.mem_singleton.2 e))⟩

theorem Ctx.putP_writes (b : Bank) (v : PV) : x.WritesRegs (x.putP now b d v lat) [bankName b d] :=
  ⟨rfl, fun _ hr => x.regs.read_setP b v (fun e => hr (List.mem_singleton.2 e))⟩

theorem Ctx.putV_writes (v : VV) (lanes : Word32) : x.WritesRegs (x.putV now d v lat lanes) [.v d] :=
  ⟨rfl, fun _ hr => x.regs.read_setV v (fun e => hr (List.mem_singleton.2 e))⟩

end Put

namespace WritesOnly
variable {s : State} {c n : Nat} {w : List RegName}

theorem refl : WritesOnly s s c n w where
  machine := rfl
  otherCores _ _ := rfl
  core k hk := ⟨k, hk, rfl⟩
  otherCtxs _ _ := rfl
  ctx x hx := ⟨x, hx, rfl, fun _ _ => rfl⟩
  memory _ := rfl

theorem updCtx {f : Ctx → Ctx} (hf : ∀ x, Ctx.WritesRegs x (f x) w) : WritesOnly s (s.updCtx c n f) c n w where
  machine := State.updCtx_eq_with ..
  otherCores c' hc := State.core?_updCore_ne s _ hc
  core k hk := by
    cases hx : k.ctx? n with
    | none => exact ⟨k, by simp [State.updCtx, State.core?_updCore_same, hk, hx], rfl⟩
    | some x => exact ⟨_, State.core?_updCtx_same f hk hx, rfl⟩
  otherCtxs n' hn := State.ctx?_updCtx_ne s c f hn
  ctx x hx := ⟨f x, State.ctx?_updCtx_of_some hx f, hf x⟩
  memory a := State.homeByte_congr (by simp) (by simp) (by simp) a

/-- The core takes other dividers besides. -/
theorem updCore {t : State} (h : WritesOnly s t c n w) {g : Core → Core} (hg : ∀ k, g k = { k with div0 := (g k).div0, div1 := (g k).div1 }) :
    WritesOnly s (t.updCore c g) c n w where
  machine := by
    rw [h.machine]
    unfold State.updCore
    split <;> rfl
  otherCores c' hc := by rw [State.core?_updCore_ne t g hc, h.otherCores c' hc]
  core k hk := by
    obtain ⟨k', hk', heq⟩ := h.core k hk
    refine ⟨g k', by rw [State.core?_updCore_same, hk']; rfl, ?_⟩
    rw [hg k', heq]
  otherCtxs n' hn := by rw [State.ctx?_updCore t c (fun k => by rw [hg]), h.otherCtxs n' hn]
  ctx x hx := by
    rw [State.ctx?_updCore t c (fun k => by rw [hg])]
    exact h.ctx x hx
  memory a := (State.homeByte_congr (by simp) (by simp) (by simp) a).trans (h.memory a)

end WritesOnly

/-! ## The no-progress timer -/

/-- The timer of a context starts, with or without a look at it to come, or it runs already (12 R291). -/
theorem State.startTimer_cases (s : State) (c n : Nat) :
    s.startTimer c n = s ∨ ∃ l, s.startTimer c n = { s.updCtx c n fun x => { x with timer := some s.ticks } with agenda := l } := by
  unfold State.startTimer
  split
  · dsimp only
    split
    · exact .inl rfl
    · split
      · exact .inr ⟨_, rfl⟩
      · exact .inr ⟨_, rfl⟩
  · exact .inr ⟨_, rfl⟩
  · exact .inl rfl

@[simp] theorem State.startTimer_bun (s : State) (c n : Nat) : (s.startTimer c n).bun = s.bun := by
  obtain h | ⟨l, h⟩ := s.startTimer_cases c n
  · rw [h]
  · rw [h]
    exact State.updCtx_bun ..

/-! ## The frame of a result -/

section Results
variable {s t : State} {k : Core} {n : Nat} {x : Ctx} (h : s.issues k n x)
include h

/-- A slot operation that writes registers where a condition holds, and else nothing. -/
theorem writesOnly_of_slotOp {w : List RegName} {b : Bool} {u : State} (hu : WritesOnly s u s.cur n w)
    (ht : (slotOp s fun _ _ _ => if b then u else s) = .next t) : WritesOnly s t s.cur n w := by
  rw [slotOp_eq h] at ht
  cases ht
  split
  · exact hu
  · exact .refl

theorem writesOnly_writeXY (y : Bool) (d : Reg5) (v : RV) (lat : Nat) : WritesOnly s (s.writeXY y d v lat) s.cur n [xyName y d.toNat] := by
  rw [State.writeXY_eq h]
  exact .updCtx fun x => x.putXY_writes ..

theorem writesOnly_writeC (d : CReg) (v : RV) (lat : Nat) : WritesOnly s (s.writeC d v lat) s.cur n [.c d.toNat] := by
  rw [State.writeC_eq h]
  exact .updCtx fun x => x.putC_writes ..

theorem writesOnly_writeP (b : Bank) (d : Reg5) (v : PV) (lat : Nat) : WritesOnly s (s.writeP b d v lat) s.cur n [bankName b d.toNat] := by
  rw [State.writeP_eq h]
  exact .updCtx fun x => x.putP_writes ..

theorem writesOnly_writeV (d : Reg5) (v : VV) (lat : Nat) (lanes : Word32) : WritesOnly s (s.writeV d v lat lanes) s.cur n [.v d.toNat] := by
  rw [State.writeV, State.updIssuer_eq h]
  exact .updCtx fun x => x.putV_writes ..

variable {g : Guard} {d : Reg5} {lat : Nat}

theorem writesOnly_iResult {sl : ISlot} {v : RV} (ht : iResult s sl g d lat v = .next t) : WritesOnly s t s.cur n [xyName (ISlot.y sl) d.toNat] :=
  writesOnly_of_slotOp h (writesOnly_writeXY h ..) ht

theorem writesOnly_cResult {d : CReg} {v : RV} (ht : cResult s g d lat v = .next t) : WritesOnly s t s.cur n [.c d.toNat] :=
  writesOnly_of_slotOp h (writesOnly_writeC h ..) ht

theorem writesOnly_pResult {b : Bank} {v : PV} (ht : pResult s g b d lat v = .next t) : WritesOnly s t s.cur n [bankName b d.toNat] :=
  writesOnly_of_slotOp h (writesOnly_writeP h ..) ht

theorem writesOnly_pvResult {v : PV} (ht : pvResult s g d lat v = .next t) : WritesOnly s t s.cur n [.pv d.toNat] := by
  cases (slotOp_eq h _).symm.trans ht
  exact writesOnly_writeP h ..

theorem writesOnly_predResult {sl : PSlot} {v : PV} (ht : predResult s sl g d lat v = .next t) :
    WritesOnly s t s.cur n [bankName (PSlot.bank sl) d.toNat] := by
  cases sl with
  | i0 => exact writesOnly_pResult h ht
  | i1 => exact writesOnly_pResult h ht
  | f => exact writesOnly_pvResult h ht

theorem writesOnly_vResult {new : List Lane} (ht : vResult s g d lat new = .next t) : WritesOnly s t s.cur n [.v d.toNat] := by
  cases (slotOp_eq h _).symm.trans ht
  exact writesOnly_writeV h ..

/-- Of the bundle, a stall is its status. -/
theorem State.stall_bun : s.stall.bun = { s.bun with status := .stalled } := by
  simp [State.stall, h.issuer_eq]

/-- A divide that finds its divider busy stalls (16 R382). -/
theorem divideResult_of_busy {o : OpIA} {f : Word64 → Word64 → Word64} (hg : Guard.ok o.g .pi s.bun.old = true)
    (hbusy : s.cycle < if ISlot.y o.sl then k.div1 else k.div0) : divideResult s o f = .next s.stall := by
  simp [divideResult, slotOp_eq h, hg, hbusy]

/-- One that does not writes its register. -/
theorem writesOnly_divideResult {o : OpIA} {f : Word64 → Word64 → Word64} (ht : divideResult s o f = .next t) (hst : t.bun.status ≠ .stalled) :
    WritesOnly s t s.cur n [xyName (ISlot.y o.sl) o.d.toNat] := by
  by_cases hg : Guard.ok o.g .pi s.bun.old = true
  · by_cases hbusy : s.cycle < if ISlot.y o.sl then k.div1 else k.div0
    · cases (divideResult_of_busy h hg hbusy).symm.trans ht
      exact absurd (congrArg Bundle.status (State.stall_bun h)) hst
    · cases (slotOp_eq h _).symm.trans ht
      simp only [hg, hbusy, if_true, if_false]
      exact (writesOnly_writeXY h ..).updCore fun k => by split <;> rfl
  · cases (slotOp_of_fails h (Bool.eq_false_of_not_eq_true hg) _).symm.trans ht
    exact .refl

end Results

/-- An operation on registers writes its destination alone, unless it is a divide that stalls its bundle on its divider (16 R382). -/
theorem writesOnly_of_registersOnly {i : Instr} {s t : State} {k : Core} {n : Nat} {x : Ctx} (hreg : i.registersOnly = true) (hiss : s.issues k n x)
    (ht : exec i s = .next t) (hst : t.bun.status ≠ .stalled) : WritesOnly s t s.cur n (Instr.uses i).writes := by
  cases i
  case div o | rem o => exact writesOnly_divideResult hiss ht hst
  case add o | addiI o | sub o | mul o | mulh o | and o | or o | xor o | andn o | shl o | shr o | sra o | rotl o | clz o | popc o | min o | max o | abs o |
      sel o | liI o | lih o | lea o | bfx o | bfi o | xmovI o | addiI64 o | sel64 o | liI64 o | lih64 o | lea64 o | bfxImm o | bfiImm o =>
    exact writesOnly_iResult hiss ht
  case addiC o | liC o | xmovC o | addiC64 o | liC64 o => exact writesOnly_cResult hiss ht
  case cmpC o | cmpiC o | cmpiC64 o | pandC o | porC o | pxorC o | pnotC o | psetC o | psetC64 o | pmovC o | cmpI o | cmpiI o | cmpiI64 o =>
    exact writesOnly_pResult hiss ht
  case pandIF o | porIF o | pxorIF o | pnotIF o | psetIF o | psetIF64 o | pmovIF o => exact writesOnly_predResult hiss ht
  case vcmp o | vclass o => exact writesOnly_pvResult hiss ht
  case vred o | vscan o =>
    cases (slotOp_eq hiss _).symm.trans ht
    exact writesOnly_writeV hiss ..
  case vadd o | vsub o | vmul o | vmax o | vmin o | vabs o | vneg o | vrnd o | vldexp o | vexp2 o | vlog2 o | vrcp o | vrsq o | vperm o | vbcast o |
      viota o | vmov o | vpack o | vunpk o | vfma o | vfms o | vsel o | vcvt o | vrnd64 o | vcswap o | vbcast64 o | vpack64 o =>
    exact writesOnly_vResult hiss ht
  all_goals exact absurd hreg Bool.false_ne_true

/-! ## A divide in a bundle that already stalls

The statement compares the bundle before and after. Where it counts as stalled before, that does not tell a divide that stalls from one that performs, and the
stall moves the cycle at which its core may next issue. Where the bundle does not stall, `writesOnly_of_registersOnly` is the frame. -/

/-- A core whose first divider is busy in the first cycle. -/
def dividingCore : Core := { Core.fresh 0 0 with issuing := some 0, div0 := 1 }

/-- The machine, in a bundle that stalls. -/
def dividing : State := { State.reset with cores := [(0, some dividingCore)], bun := { State.reset.bun with status := .stalled } }

/-- Refutes O8: the divide stalls, which the state of the bundle does not show, and its core may issue no earlier than the next cycle. -/
theorem not_registerOperationsWriteOnlyTheirDestination : ¬ Obligations.RegisterOperationsWriteOnlyTheirDestination := by
  unfold Obligations.RegisterOperationsWriteOnlyTheirDestination
  intro h
  have hiss : dividing.issues dividingCore 0 Ctx.empty := ⟨rfl, rfl, rfl⟩
  have hexec : exec (.div ⟨.i0, ⟨false, false, 0⟩, 1, 2, 3, .i64⟩) dividing = .next dividing.stall := divideResult_of_busy hiss rfl (by decide)
  have hbun : dividing.stall.bun = dividing.bun := State.stall_bun hiss
  obtain ⟨k', hk', hframe⟩ := (h _ _ _ _ _ _ rfl hiss hexec hbun).core dividingCore hiss.1
  have hfree : (dividing.stall.core? dividing.cur).map (·.freeAt) = some 1 := by decide +kernel
  rw [hk', hframe] at hfree
  exact absurd hfree (show some (0 : Nat) ≠ some 1 by decide)

end Sys2Proof.Machine
end
section
/-! SUPPORT. The sequencer around a bundle: its attempt, its end, an event, the control transfers and their delay windows. -/

namespace Sys2Proof.Machine

/-! ## The end of a bundle -/

section Finish
variable {s : State} {c n : Nat} {k : Core} {x : Ctx} (hk : s.core? c = some k) (hx : k.ctx? n = some x)
include hk hx

/-- A timer that starts changes its context's timer and nothing else of the core. -/
theorem State.core?_startTimer : ∃ k' x', (s.startTimer c n).core? c = some k' ∧ k'.ctx? n = some x' ∧ k'.freeAt = k.freeAt ∧
    x' = { x with timer := x'.timer } := by
  obtain h | ⟨l, h⟩ := s.startTimer_cases c n
  · exact ⟨k, x, by rw [h, hk], hx, rfl, rfl⟩
  · refine ⟨_, _, ?_, Core.ctx?_setCtx_same k n { x with timer := some s.ticks }, rfl, rfl⟩
    rw [h]
    exact State.core?_updCtx_same _ hk hx

/-- After a bundle that performed, the context goes on as `Ctx.follow` says, and its core issues next after the bundle's empty run (03 R50). -/
theorem State.core?_finish (hst : s.bun.status = .normal) : ∃ k' x', (s.finish c n).core? c = some k' ∧ k'.ctx? n = some x' ∧
    k'.freeAt = max k.freeAt (s.cycle + 1 + s.bun.er) ∧ x'.pc = (x.follow s.bun).pc ∧ x'.win = (x.follow s.bun).win ∧
    x'.loops = (x.follow s.bun).loops ∧ x'.regs = (x.follow s.bun).regs := by
  let x1 : Ctx := { x.follow s.bun with timer := none, filled := [], missed := [], sat := [], rel := none }
  let k1 : Core := { k.setCtx n x1 with freeAt := max k.freeAt (s.cycle + 1 + s.bun.er) }
  let t : State := (s.updCtx c n fun x => { x.follow s.bun with timer := none, filled := [], missed := [], sat := [], rel := none }).updCore c fun k =>
    { k with freeAt := max k.freeAt (s.cycle + 1 + s.bun.er) }
  have hk1 : t.core? c = some k1 := by rw [State.core?_updCore_same, State.core?_updCtx_same _ hk hx]; rfl
  have hx1 : k1.ctx? n = some x1 := Core.ctx?_setCtx_same k n x1
  have hfin : s.finish c n = if ((t.ctx? c n).map Ctx.held) == some true then t.startTimer c n else t := by
    simp only [State.finish, hst, t]
  rw [hfin]
  split
  · obtain ⟨k2, x2, hk2, hx2, hfree, heq⟩ := State.core?_startTimer hk1 hx1
    exact ⟨k2, x2, hk2, hx2, hfree, by rw [heq], by rw [heq], by rw [heq], by rw [heq]⟩
  · exact ⟨k1, x1, hk1, hx1, rfl, rfl, rfl, rfl, rfl⟩

end Finish

/-! ## What follows a bundle -/

/-- The delay bundles that remain of a window after a bundle with its empty run (03 R61, R62). -/
def Window.after (w : Window) (b : Bundle) : Nat :=
  match b.win with
  | none => w.left - b.er
  | some _ => w.left - (1 + b.er)

/-- The context after the back-edges of the bodies that end at a bundle (03 R70, R71). -/
def Ctx.afterLoops (x : Ctx) (b : Bundle) : Ctx :=
  { x with loops := (backEdge (noteBody x.loops b.pc b.raw) x.pc).1, pc := (backEdge (noteBody x.loops b.pc b.raw) x.pc).2 }

section Follow
variable {x : Ctx} {b : Bundle} {w : Window}

theorem Ctx.follow_of_none (h : x.win = none) : x.follow b = x.afterLoops b := by
  simp [Ctx.follow, Ctx.afterLoops, h]

theorem Ctx.follow_of_open (h : x.win = some w) (hl : w.after b ≠ 0) :
    x.follow b = { x.afterLoops b with win := some { w with left := w.after b } } := by
  cases hb : b.win <;> simp only [Window.after, hb] at hl <;> simp [Ctx.follow, Ctx.afterLoops, Window.after, h, hb, hl]

theorem Ctx.follow_of_untaken (h : x.win = some w) (hl : w.after b = 0) (ht : w.tkn = false) : x.follow b = { x.afterLoops b with win := none } := by
  cases hb : b.win <;> simp only [Window.after, hb] at hl <;> simp [Ctx.follow, Ctx.afterLoops, h, hb, hl, ht]

theorem Ctx.follow_of_taken (h : x.win = some w) (hl : w.after b = 0) (ht : w.tkn = true) (hc : w.call = false) :
    x.follow b = { x.afterLoops b with win := none, pc := w.tgt, loops := retarget (x.afterLoops b).loops w.tgt } := by
  cases hb : b.win <;> simp only [Window.after, hb] at hl <;> simp [Ctx.follow, Ctx.afterLoops, h, hb, hl, ht, hc]

theorem Ctx.follow_of_call (h : x.win = some w) (hl : w.after b = 0) (ht : w.tkn = true) (hc : w.call = true) :
    x.follow b = { x.afterLoops b with
      win := none, pc := w.tgt, loops := retarget (x.afterLoops b).loops w.tgt
      regs := x.regs.setC 15 ⟨(x.afterLoops b).pc.zeroExtend 64, false⟩, hold := Hold.loseC15 x.hold } := by
  cases hb : b.win <;> simp only [Window.after, hb] at hl <;> simp [Ctx.follow, Ctx.afterLoops, h, hb, hl, ht, hc]

end Follow

/-! ## Events -/

/-- An event whose engine is of no core that a freeze holds is its instruction (10 R255). -/
theorem happen_of_unfrozen {s : State} {e : Event} (h : ∀ c k, Event.engine e = some c → s.core? c = some k → k.frozenTo ≤ s.cycle) :
    happen s e = afterEvent e (exec (Event.instr e) { s with ev := e }) := by
  unfold happen
  split
  · rfl
  · next k hk =>
    obtain ⟨c, hc, hck⟩ := Option.bind_eq_some_iff.1 hk
    rw [if_neg (Nat.not_lt.2 (h c k hc hck))]

/-- Settles O2: the attempt and the end of a bundle by their lemmas, and an event that comes before every issue. -/
theorem whatAStepAddsToExec : Obligations.WhatAStepAddsToExec := by
  unfold Obligations.WhatAStepAddsToExec
  refine ⟨⟨fun s c n x b hx => ⟨?_, ?_, ?_, ?_⟩, fun s c n k x hk hx hst hwin hloops _ => ?_⟩, fun s d e l hl hlate hfrozen => ?_⟩
  · unfold State.begin
    exact State.ctx?_updCtx_of_some (by exact hx) _
  · simp [State.begin]
  · simp [State.begin]
  · simp [State.begin]
  · obtain ⟨k', x', hk', hx', hfree, hpc, hwin', hloops', hregs⟩ := State.core?_finish hk hx hst
    rw [Ctx.follow_of_none hwin, Ctx.afterLoops, hloops] at hpc hwin' hloops' hregs
    exact ⟨k', x', hk', hx', hpc, hwin'.trans hwin, hloops', hregs, hfree⟩
  · have hhappen : step s = happen { s.advance d with agenda := l } e := by
      unfold step advanceModule
      rw [hl]
      cases hn : s.nextCore with
      | none => rfl
      | some b => simp [hlate b.1 b.2 hn]
    rw [hhappen, happen_of_unfrozen]
    exact fun c k he hk => hfrozen c k he (by simpa [State.core?] using hk)

end Sys2Proof.Machine
end
section
/-! SUPPORT. Control transfers: what each attempts, and what becomes of its window and of the loop nest. -/

namespace Sys2Proof.Machine

/-! ## Bits of an address -/

/-- An address is aligned where its two low bits are zero (03 R68). -/
theorem bitsOf_low_two (v : Word64) : bitsOf v 0 2 = 0 ↔ v.getLsbD 0 = false ∧ v.getLsbD 1 = false := by
  have h0 : v.getLsbD 0 = decide (v.toNat % 2 = 1) := by simp [BitVec.getLsbD, Nat.testBit_eq_decide_div_mod_eq]
  have h1 : v.getLsbD 1 = decide (v.toNat / 2 % 2 = 1) := by simp [BitVec.getLsbD, Nat.testBit_eq_decide_div_mod_eq]
  simp only [bitsOf, h0, h1, decide_eq_false_iff_not]
  omega

/-- The low 52 bits of a register as an address. -/
theorem ofNat_bitsOf_52 (v : Word64) : BitVec.ofNat 52 (bitsOf v 0 52) = v.truncate 52 := by
  apply BitVec.eq_of_toNat_eq
  simp [bitsOf]

/-! ## Transfers -/

/-- MWB goes to the first test that holds (17 R452). -/
theorem mwbSel_eq_findIdx (r : Regs) (ts : List (Reg5 × Bool)) : mwbSel r ts = ts.findIdx fun t => (r.getPk t.1.toNat).v.getLsbD 0 != t.2 := by
  induction ts with
  | nil => rfl
  | cons t ts ih =>
    rw [mwbSel, List.findIdx_cons, ih]
    cases (r.getPk t.1.toNat).v.getLsbD 0 != t.2 <;> simp [Nat.add_comm]

section Transfer
variable {s : State} {k : Core} {n : Nat} {x : Ctx} (h : s.issues k n x)
include h

/-- A control transfer in a delay bundle raises DELAY_BRANCH, whatever its guard (03 R63). -/
theorem transfer_of_window {w : Window} (hw : s.bun.win = some w) (g : Guard) (always : Bool) (f : Ctx → Try State) :
    transfer s g always f = .next (s.trap 0x04 w.brpend) := by
  simp [transfer, slotOp_eq h, hw, brpendOf]

theorem execEret_of_window {w : Window} (hw : s.bun.win = some w) (o : OpN) : exec (.eret o) s = .next (s.trap 0x04 w.brpend) := by
  refine (slotOp_eq h _).trans ?_
  simp [hw, brpendOf]

theorem execLoop_of_window {w : Window} (hw : s.bun.win = some w) (o : OpLoop) : exec (.loop o) s = .next (s.trap 0x04 w.brpend) := by
  refine (slotOp_eq h _).trans ?_
  simp [hw, brpendOf]

theorem transfer_of_poison (hw : s.bun.win = none) {g : Guard} {always : Bool} (hp : Guard.psn g .pk s.bun.old = true)
    (ha : (always || Guard.ok g .pk s.bun.old) = true) (f : Ctx → Try State) : transfer s g always f = .next (s.poisonKill 1 0) := by
  simp [transfer, slotOp_eq h, hw, hp, ha]

theorem transfer_of_clean (hw : s.bun.win = none) {g : Guard} {always : Bool}
    (hp : Guard.psn g .pk s.bun.old = false ∨ (always || Guard.ok g .pk s.bun.old) = false) (f : Ctx → Try State) :
    transfer s g always f = .next (f x).finish := by
  obtain hp | hp := hp <;> simp [transfer, slotOp_eq h, hw, hp]

/-- A branch opens two delay bundles (03 R61). -/
theorem openWindow_finish (tkn : Bool) (tgt : VAddr) (call : Bool) :
    (openWindow s tkn tgt call).finish = s.updCtx s.cur n fun x => { x with win := some ⟨2, tkn, tgt, call⟩ } := by
  simp [openWindow, State.updIssuer_eq h]

/-- BR and CALL with a guard that is not poisoned. -/
theorem jumpOp_of_clean (hw : s.bun.win = none) {w : Nat} {g : Guard} (hp : Guard.psn g .pk s.bun.old = false) (disp : BitVec w) (call : Bool) :
    jumpOp s g disp call = .next (s.updCtx s.cur n fun x => { x with win := some ⟨2, Guard.ok g .pk s.bun.old, branchTarget s.bun.pc disp, call⟩ }) := by
  rw [jumpOp, transfer_of_clean h hw (.inl hp), openWindow_finish h]

/-- A poisoned guard kills BR. -/
theorem jumpOp_br_of_poison (hw : s.bun.win = none) {w : Nat} {g : Guard} (hp : Guard.psn g .pk s.bun.old = true) (disp : BitVec w) :
    jumpOp s g disp false = .next (s.poisonKill 1 0) := transfer_of_poison h hw hp rfl _

/-- A poisoned guard kills CALL where it passes. -/
theorem jumpOp_call_of_poison (hw : s.bun.win = none) {w : Nat} {g : Guard} (hp : Guard.psn g .pk s.bun.old = true) (disp : BitVec w) :
    jumpOp s g disp true = if Guard.ok g .pk s.bun.old then .next (s.poisonKill 1 0)
      else .next (s.updCtx s.cur n fun x => { x with win := some ⟨2, false, branchTarget s.bun.pc disp, true⟩ }) := by
  split
  · next hg => exact transfer_of_poison h hw hp (by simpa using hg) _
  · next hg => rw [jumpOp, transfer_of_clean h hw (.inr (by simpa using hg)), openWindow_finish h, Bool.eq_false_of_not_eq_true hg]

/-- BRC with a guard and a register that are not poisoned. -/
theorem brcOp_of_clean (hw : s.bun.win = none) {w : Nat} {g : Guard} {a : CReg} (hp : Guard.psn g .pk s.bun.old = false)
    (ha : (s.bun.old.getC a.toNat).p = false) (cc : Cond) (disp : BitVec w) : brcOp s g a cc disp =
      .next (s.updCtx s.cur n fun x => { x with
        win := some ⟨2, Guard.ok g .pk s.bun.old && Cond.holds cc (s.bun.old.getC a.toNat).v, branchTarget s.bun.pc disp, false⟩ }) := by
  rw [brcOp, transfer_of_clean h hw (.inl hp)]
  simp only [ha, Bool.false_eq_true, if_false, openWindow_finish h]

theorem brcOp_of_poison (hw : s.bun.win = none) {w : Nat} {g : Guard} {a : CReg}
    (hp : Guard.psn g .pk s.bun.old = true ∨ (s.bun.old.getC a.toNat).p = true) (cc : Cond) (disp : BitVec w) :
    brcOp s g a cc disp = .next (s.poisonKill 1 0) := by
  by_cases hg : Guard.psn g .pk s.bun.old = true
  · exact transfer_of_poison h hw hg rfl _
  · rw [brcOp, transfer_of_clean h hw (.inl (Bool.eq_false_of_not_eq_true hg))]
    simp [hp.resolve_left hg]

/-- A branch to the address in a register kills on poison, opens its window on an aligned address and traps on another (03 R68). -/
theorem openTo_finish (v : RV) : (openTo s v).finish =
    if v.p then s.poisonKill 1 0
    else if bitsOf v.v 0 2 ≠ 0 then s.trap 0x05 (BitVec.ofNat 64 (bitsOf v.v 0 52))
    else s.updCtx s.cur n fun x => { x with win := some ⟨2, true, v.v.truncate 52, false⟩ } := by
  unfold openTo
  split
  · rfl
  · split
    · rfl
    · rw [openWindow_finish h, ofNat_bitsOf_52]

/-- What a transfer to the address in a register comes to, by its poison and its alignment. -/
theorem outcomes_of_openTo {v : RV} {o : Host.Outcome State Fault Refusal} (ho : o = .next (openTo s v).finish) :
    (v.p = true → o = .next (s.poisonKill 1 0)) ∧
    (v.p = false → v.v.getLsbD 0 = false → v.v.getLsbD 1 = false →
      o = .next (s.updCtx s.cur n fun x => { x with win := some ⟨2, true, v.v.truncate 52, false⟩ })) ∧
    (v.p = false → bitsOf v.v 0 2 ≠ 0 → o = .next (s.trap 0x05 (BitVec.ofNat 64 (bitsOf v.v 0 52)))) := by
  rw [ho, openTo_finish h]
  refine ⟨fun hp => by rw [if_pos hp], fun hp h0 h1 => ?_, fun hp hb => ?_⟩
  · rw [if_neg (Bool.not_eq_true _ ▸ hp), if_neg (not_not.2 ((bitsOf_low_two v.v).2 ⟨h0, h1⟩))]
  · rw [if_neg (Bool.not_eq_true _ ▸ hp), if_pos hb]

/-- RET (18 R487). -/
theorem execRet_of_passes (hw : s.bun.win = none) {o : OpN} (hg : Guard.ok o.g .pk s.bun.old = true) (hp : Guard.psn o.g .pk s.bun.old = false) :
    exec (.ret o) s = .next (openTo s (s.bun.old.getC 15)).finish := by
  refine (transfer_of_clean h hw (.inl hp) _).trans ?_
  rw [if_pos hg]

theorem execRet_of_fails (hw : s.bun.win = none) {o : OpN} (hg : Guard.ok o.g .pk s.bun.old = false) :
    exec (.ret o) s = .next (s.updCtx s.cur n fun x => { x with win := some ⟨2, false, 0, false⟩ }) := by
  refine (transfer_of_clean h hw (.inr (by simpa using hg)) _).trans ?_
  rw [if_neg (by simp [hg]), openWindow_finish h]

section Mwb
variable {o : OpMwb} (hw : s.bun.win = none)
include hw

/-- MWB with nothing poisoned that it tests (17 R452, R453). -/
theorem execMwb_of_clean (hp : Guard.psn o.g .pk s.bun.old = false) (ht : ∀ p ∈ OpMwb.tests o, (s.bun.old.getPk p.1.toNat).p = false) :
    exec (.mwb o) s = .next (if Guard.ok o.g .pk s.bun.old
      then (openTo s (s.bun.old.getC (o.tb.toNat + (OpMwb.tests o).findIdx fun p => (s.bun.old.getPk p.1.toNat).v.getLsbD 0 != p.2))).finish
      else s.updCtx s.cur n fun x => { x with win := some ⟨2, false, 0, false⟩ }) := by
  have hany : ((OpMwb.tests o).any fun t => (s.bun.old.getPk t.1.toNat).p) = false := List.any_eq_false.2 fun p hp => by simp [ht p hp]
  refine (transfer_of_clean h hw (.inl hp) _).trans ?_
  simp only [hany, Bool.false_eq_true, if_false, mwbSel_eq_findIdx]
  split
  · rfl
  · rw [openWindow_finish h]

theorem execMwb_of_poison (hc : ¬(Guard.psn o.g .pk s.bun.old = false ∧ ∀ p ∈ OpMwb.tests o, (s.bun.old.getPk p.1.toNat).p = false)) :
    exec (.mwb o) s = .next (s.poisonKill 1 0) := by
  by_cases hp : Guard.psn o.g .pk s.bun.old = true
  · exact transfer_of_poison h hw hp rfl _
  · have hclean := Bool.eq_false_of_not_eq_true hp
    have hany : ((OpMwb.tests o).any fun t => (s.bun.old.getPk t.1.toNat).p) = true := by
      by_contra hn
      exact hc ⟨hclean, fun p hp => by simpa using List.any_eq_false.1 (Bool.eq_false_of_not_eq_true hn) p hp⟩
    refine (transfer_of_clean h hw (.inl hclean) _).trans ?_
    rw [if_pos hany]
    rfl

end Mwb

end Transfer

/-! ## The loop nest, apart from the bundles it has noted -/

/-- What the back-edge and a transfer look at in a level of the nest: its body and its count. -/
def LoopLevel.shape (l : LoopLevel) : VAddr × Nat × Nat := (l.start, l.size4, l.rem)

theorem noteBody_shape (ls : List LoopLevel) (a : VAddr) (ws : List Word32) : (noteBody ls a ws).map LoopLevel.shape = ls.map LoopLevel.shape := by
  simp only [noteBody, List.map_map]
  refine List.map_congr_left fun l _ => ?_
  simp only [Function.comp]
  split
  · rfl
  · split <;> rfl

/-- The back-edge depends on the shapes of the levels alone. -/
theorem backEdge_shape (pc : VAddr) : ∀ {ls ms : List LoopLevel}, ls.map LoopLevel.shape = ms.map LoopLevel.shape →
    (backEdge ls pc).1.map LoopLevel.shape = (backEdge ms pc).1.map LoopLevel.shape ∧ (backEdge ls pc).2 = (backEdge ms pc).2
  | [], [], _ => ⟨rfl, rfl⟩
  | l :: ls, m :: ms, h => by
    obtain ⟨hhead, htail⟩ := List.cons_eq_cons.1 h
    obtain ⟨hstart, hsize, hrem⟩ : l.start = m.start ∧ l.size4 = m.size4 ∧ l.rem = m.rem := by simpa [LoopLevel.shape] using hhead
    have hstop : l.stop = m.stop := by rw [LoopLevel.stop, LoopLevel.stop, hstart, hsize]
    simp only [backEdge, hstop, hrem]
    split
    · split
      · exact backEdge_shape pc htail
      · exact ⟨by simp [LoopLevel.shape, hstart, hsize, htail], hstart⟩
    · exact ⟨h, rfl⟩

/-- A transfer closes the levels whose body does not hold its target, by their shapes alone (03 R71). -/
theorem retarget_shape {ls ms : List LoopLevel} (h : ls.map LoopLevel.shape = ms.map LoopLevel.shape) (tgt : VAddr) :
    (retarget ls tgt).map LoopLevel.shape = (retarget ms tgt).map LoopLevel.shape := by
  let p : VAddr × Nat × Nat → Bool := fun q => decide (q.1.toNat ≤ tgt.toNat) && decide (tgt.toNat < q.1.toNat + 4 * q.2.1)
  have hp : ∀ ls, (retarget ls tgt).map LoopLevel.shape = (ls.map LoopLevel.shape).filter p := fun ls => (List.filter_map (f := LoopLevel.shape) (p := p)).symm
  rw [hp, hp, h]

/-- No body ends at the bundle. -/
theorem backEdge_of_inside {ls : List LoopLevel} {pc : VAddr} (h : ∀ l, ls.head? = some l → pc ≠ l.stop) : backEdge ls pc = (ls, pc) := by
  cases ls with
  | nil => rfl
  | cons l ls => rw [backEdge, if_neg (h l rfl)]

/-- The innermost body ends, and runs again. -/
theorem backEdge_of_again {l : LoopLevel} (ls : List LoopLevel) (h : 1 < l.rem) : backEdge (l :: ls) l.stop = ({ l with rem := l.rem - 1 } :: ls, l.start) := by
  rw [backEdge, if_pos rfl, if_neg (Nat.not_le.2 h)]

/-- The innermost body ends for the last time. -/
theorem backEdge_of_last {l : LoopLevel} (ls : List LoopLevel) (h : l.rem ≤ 1) : backEdge (l :: ls) l.stop = backEdge ls l.stop := by
  rw [backEdge, if_pos rfl, if_pos h]

theorem Ctx.afterLoops_shape (x : Ctx) (b : Bundle) :
    (x.afterLoops b).loops.map LoopLevel.shape = (backEdge x.loops x.pc).1.map LoopLevel.shape ∧ (x.afterLoops b).pc = (backEdge x.loops x.pc).2 :=
  backEdge_shape x.pc (noteBody_shape x.loops b.pc b.raw)

/-! ## The end of a delay window -/

section Window
variable {s : State} {c n : Nat} {x : Ctx} {w : Window} (hx : s.ctx? c n = some x) (hst : s.bun.status = .normal) (hw : x.win = some w)
include hx hst hw

/-- A delay bundle that is not the last, outside loops. -/
theorem State.finish_of_open (hl : w.after s.bun ≠ 0) (hloops : x.loops = []) : ∃ x', (s.finish c n).ctx? c n = some x' ∧
    x'.win = some { w with left := w.after s.bun } ∧ x'.pc = x.pc ∧ x'.regs = x.regs := by
  obtain ⟨k, hk, hkx⟩ := Option.bind_eq_some_iff.1 hx
  obtain ⟨k', x', hk', hx', -, hpc, hwin, -, hregs⟩ := State.core?_finish hk hkx hst
  rw [Ctx.follow_of_open hw hl] at hpc hwin hregs
  refine ⟨x', Option.bind_eq_some_iff.2 ⟨k', hk', hx'⟩, hwin, hpc.trans ?_, hregs⟩
  rw [(x.afterLoops_shape s.bun).2, hloops]
  rfl

/-- After the last delay bundle the transfer acts on the nest and the program counter that follow the bundle in sequence (03 R61, R71, 16 R360). -/
theorem State.finish_of_closed (hl : w.after s.bun = 0) {nest : List LoopLevel} {pc : VAddr} (hseq : backEdge x.loops x.pc = (nest, pc)) :
    ∃ x', (s.finish c n).ctx? c n = some x' ∧ x'.win = none ∧
      (w.tkn = true → x'.pc = w.tgt ∧ x'.loops.map LoopLevel.shape = (retarget nest w.tgt).map LoopLevel.shape ∧
        (w.call = true → x'.regs = x.regs.setC 15 ⟨pc.zeroExtend 64, false⟩)) ∧
      (w.tkn = false → x'.pc = pc ∧ x'.loops.map LoopLevel.shape = nest.map LoopLevel.shape) ∧
      (w.tkn = false ∨ w.call = false → x'.regs = x.regs) := by
  obtain ⟨k, hk, hkx⟩ := Option.bind_eq_some_iff.1 hx
  obtain ⟨k', x', hk', hx', -, hpc, hwin, hloops, hregs⟩ := State.core?_finish hk hkx hst
  have hctx : (s.finish c n).ctx? c n = some x' := Option.bind_eq_some_iff.2 ⟨k', hk', hx'⟩
  obtain ⟨hnest, hseqpc⟩ := x.afterLoops_shape s.bun
  rw [hseq] at hnest hseqpc
  cases ht : w.tkn with
  | false =>
    rw [Ctx.follow_of_untaken hw hl ht] at hpc hwin hloops hregs
    exact ⟨x', hctx, hwin, by simp, fun _ => ⟨hpc.trans hseqpc, by rw [hloops, hnest]⟩, fun _ => hregs⟩
  | true =>
    cases hc : w.call with
    | false =>
      rw [Ctx.follow_of_taken hw hl ht hc] at hpc hwin hloops hregs
      exact ⟨x', hctx, hwin, fun _ => ⟨hpc, by rw [hloops, retarget_shape hnest], by simp⟩, by simp, fun _ => hregs⟩
    | true =>
      rw [Ctx.follow_of_call hw hl ht hc] at hpc hwin hloops hregs
      exact ⟨x', hctx, hwin, fun _ => ⟨hpc, by rw [hloops, retarget_shape hnest], fun _ => by rw [hregs, hseqpc]⟩, by simp, by simp⟩

end Window

theorem Regs.getC_setC_same {r : Regs} (hr : Tab.wf RV.zero r.c = true) {n : Nat} (hn : n ≠ 0) (v : RV) : (r.setC n v).getC n = v := by
  simp only [Regs.setC, Regs.getC, hn, if_false]
  exact Tab.get_set_wf RV.zero v n hr

/-- Settles O17: the transfers by the lemmas of their operations, a window and a nest at the end of a bundle by those on `State.finish`. -/
theorem branchesOpenTheirWindow : Obligations.BranchesOpenTheirWindow := by
  unfold Obligations.BranchesOpenTheirWindow
  refine ⟨fun s k n x hiss hw => ?_, fun s k n x hiss hw => ?_, fun s c n x w hx hst hw hloops _ => ?_, fun s c n x w hx hst hw _ hl => ?_,
    fun s k n x w hiss hw => ?_⟩
  · exact ⟨fun o hp => ⟨jumpOp_of_clean hiss hw hp .., jumpOp_of_clean hiss hw hp ..⟩,
      fun o hp => ⟨jumpOp_of_clean hiss hw hp .., jumpOp_of_clean hiss hw hp ..⟩,
      fun o hp ha => brcOp_of_clean hiss hw hp ha .., fun o hp ha => brcOp_of_clean hiss hw hp ha ..,
      fun o hp => ⟨jumpOp_br_of_poison hiss hw hp _, jumpOp_call_of_poison hiss hw hp _⟩,
      fun o hp => ⟨jumpOp_br_of_poison hiss hw hp _, jumpOp_call_of_poison hiss hw hp _⟩,
      fun o hp => brcOp_of_poison hiss hw hp .., fun o hp => brcOp_of_poison hiss hw hp ..⟩
  · refine ⟨fun o => ⟨fun hg hp => outcomes_of_openTo hiss (execRet_of_passes hiss hw hg hp), fun hg hp => ?_, execRet_of_fails hiss hw⟩,
      fun o => ⟨fun hg ⟨hp, ht⟩ => outcomes_of_openTo hiss ?_, fun hg ⟨hp, ht⟩ => ?_, execMwb_of_poison hiss hw⟩⟩
    · exact transfer_of_poison hiss hw hp (by exact hg) _
    · exact (execMwb_of_clean hiss hw hp ht).trans (by rw [if_pos (by exact hg)])
    · exact (execMwb_of_clean hiss hw hp ht).trans (by rw [if_neg (by simp [hg])])
  · by_cases hl : w.after s.bun = 0
    · obtain ⟨x', hx', hwin, htaken, huntaken, hregs⟩ := State.finish_of_closed hx hst hw hl (nest := []) (pc := x.pc) (by rw [hloops, backEdge])
      refine ⟨x', hx', fun hne => absurd hl hne, fun _ => ⟨hwin, ?_, fun ht hc hwf => ?_, hregs⟩⟩
      · cases ht : w.tkn with
        | false => exact (huntaken ht).1
        | true => exact (htaken ht).1
      · rw [(htaken ht).2.2 hc]
        exact ⟨Regs.getC_setC_same hwf (by decide) _, fun m hm => Regs.getC_setC_ne _ _ hm⟩
    · obtain ⟨x', hx', hopen⟩ := State.finish_of_open hx hst hw hl hloops
      exact ⟨x', hx', fun _ => hopen, fun h => absurd h hl⟩
  · intro level closes ends
    have hcloses : ∀ nest pc, backEdge x.loops x.pc = (nest, pc) → closes nest pc := by
      intro nest pc hseq
      obtain ⟨x', hx', hwin, htaken, hrest⟩ := State.finish_of_closed hx hst hw hl hseq
      exact ⟨x', hx', hwin, fun ht => ⟨(htaken ht).1, (htaken ht).2.1, fun hc _ => (htaken ht).2.2 hc⟩, hrest⟩
    refine ⟨fun hin => hcloses _ _ (backEdge_of_inside hin), fun l ls hloops hpc => ⟨fun hr => hcloses _ _ ?_, fun hr hin => hcloses _ _ ?_⟩⟩
    · rw [hloops, hpc]
      exact backEdge_of_again ls hr
    · refine Eq.trans ?_ (backEdge_of_inside hin)
      rw [hloops, hpc]
      exact backEdge_of_last ls hr
  · have htrap := fun g always f => transfer_of_window hiss hw g always f
    exact ⟨fun o => ⟨htrap .., htrap ..⟩, fun o => ⟨htrap .., htrap ..⟩, fun o => ⟨htrap .., execEret_of_window hiss hw o⟩, fun o => htrap ..,
      fun o => htrap .., execLoop_of_window hiss hw, fun o => htrap ..⟩

end Sys2Proof.Machine
end
section
/-! SUPPORT. Special registers: what an MTSR leaves in the registers of a context, and the writes with effects of their own. -/

namespace Sys2Proof.Machine

/-! ## Fields of a word -/

/-- Keeping a field is masking the word with it. -/
theorem keepBits_eq_and (v : Word64) (lo len : Nat) : keepBits v lo len = v &&& BitVec.ofNat 64 (fieldAt lo (2 ^ len - 1)) := by
  refine BitVec.eq_of_getLsbD_eq fun i hi => ?_
  simp only [keepBits, fieldAt, bitsOf, BitVec.getLsbD_and, BitVec.getLsbD_ofNat, Nat.testBit_mul_two_pow, Nat.testBit_mod_two_pow,
    Nat.testBit_div_two_pow, Nat.testBit_two_pow_sub_one, hi, decide_true, Bool.true_and]
  by_cases hlo : lo ≤ i
  · simp [hlo, Nat.sub_add_cancel hlo, BitVec.getLsbD, Bool.and_comm]
  · simp [hlo]

/-- Keeping two fields is masking the word with both. -/
theorem keepBits_or_keepBits (v : Word64) (lo len lo' len' : Nat) :
    keepBits v lo len ||| keepBits v lo' len' = v &&& (BitVec.ofNat 64 (fieldAt lo (2 ^ len - 1)) ||| BitVec.ofNat 64 (fieldAt lo' (2 ^ len' - 1))) := by
  simp only [keepBits_eq_and, BitVec.and_or_distrib_left]

/-- A bit that is set reads as one. -/
theorem getLsbD_setBits_one {w : Nat} (v : BitVec w) {i : Nat} (h : i < w) : (setBits v i 1 1).getLsbD i = true := by
  simp [setBits, h]

/-! ## The registers of the loop nest -/

/-- The registers of a nest hold its levels, and zero for one that is not open (03 R72). -/
theorem get_nestRegs (f : LoopLevel → Word64) (ls : List LoopLevel) {m : Nat} (h : m < 3) : Tab.get 0 (nestRegs f ls) m = (ls[m]?.map f).getD 0 := by
  have h0 := Tab.wf_set 0 ((ls[0]?.map f).getD 0) 0 (m := []) rfl
  have h1 := Tab.wf_set 0 ((ls[1]?.map f).getD 0) 1 h0
  simp only [nestRegs, List.range_succ, List.range_zero, List.nil_append, List.foldl_append, List.foldl_cons, List.foldl_nil]
  match m, h with
  | 0, _ => rw [Tab.get_set_ne _ _ _ (by decide), Tab.get_set_ne _ _ _ (by decide), Tab.get_set_wf 0 _ 0 rfl]
  | 1, _ => rw [Tab.get_set_ne _ _ _ (by decide), Tab.get_set_wf 0 _ 1 h0]
  | 2, _ => exact Tab.get_set_wf 0 _ 2 h1

theorem Ctx.loopRegs_of_held {x : Ctx} (h : x.sr.tmode = true ∨ x.loops = []) (f : LoopLevel → Word64) (held : Tab Word64) : x.loopRegs f held = held := by
  rcases h with h | h <;> simp [Ctx.loopRegs, h]

theorem Ctx.loopRegs_of_open {x : Ctx} (ht : x.sr.tmode = false) (hl : x.loops ≠ []) (f : LoopLevel → Word64) (held : Tab Word64) :
    x.loopRegs f held = nestRegs f x.loops := by
  simp [Ctx.loopRegs, ht, hl]

theorem CtxRegs.write_loopc (sr : CtxRegs) (v : Word64) {m : Nat} (h : m < 3) :
    sr.write (0x018 + m) v = { sr with loopc := Tab.set 0 sr.loopc m (keepBits v 0 42) } := by
  match m, h with
  | 0, _ | 1, _ | 2, _ => rfl

theorem CtxRegs.write_loopb (sr : CtxRegs) (v : Word64) {m : Nat} (h : m < 3) :
    sr.write (0x01C + m) v = { sr with loopb := Tab.set 0 sr.loopb m (keepBits v 2 50) } := by
  match m, h with
  | 0, _ | 1, _ | 2, _ => rfl

section Read
variable (s : State) (k : Core) (n : Nat)

theorem State.readSr_loopc (x : Ctx) {m : Nat} (h : m < 3) : s.readSr k n x (0x018 + m) = Tab.get 0 (x.loopRegs LoopLevel.loopc x.sr.loopc) m := by
  match m, h with
  | 0, _ | 1, _ | 2, _ => rfl

theorem State.readSr_loopb (x : Ctx) {m : Nat} (h : m < 3) : s.readSr k n x (0x01C + m) = Tab.get 0 (x.loopRegs LoopLevel.loopb x.sr.loopb) m := by
  match m, h with
  | 0, _ | 1, _ | 2, _ => rfl

/-- A write of LOOPC reads back where the registers are what the context shows (03 R72). -/
theorem State.readSr_write_loopc {x : Ctx} (hx : x.sr.tmode = true ∨ x.loops = []) (hw : Tab.wf 0 x.sr.loopc = true) (v : Word64) {m : Nat} (h : m < 3) :
    s.readSr k n { x with sr := x.sr.write (0x018 + m) v } (0x018 + m) = v &&& 0x3FFFFFFFFFF := by
  rw [State.readSr_loopc s k n _ h, CtxRegs.write_loopc _ _ h, Ctx.loopRegs_of_held (by exact hx)]
  exact (Tab.get_set_wf 0 _ m hw).trans (keepBits_eq_and v 0 42)

/-- A write of LOOPB reads back where the registers are what the context shows (03 R72). -/
theorem State.readSr_write_loopb {x : Ctx} (hx : x.sr.tmode = true ∨ x.loops = []) (hw : Tab.wf 0 x.sr.loopb = true) (v : Word64) {m : Nat} (h : m < 3) :
    s.readSr k n { x with sr := x.sr.write (0x01C + m) v } (0x01C + m) = v &&& 0x000FFFFFFFFFFFFC := by
  rw [State.readSr_loopb s k n _ h, CtxRegs.write_loopb _ _ h, Ctx.loopRegs_of_held (by exact hx)]
  exact (Tab.get_set_wf 0 _ m hw).trans (keepBits_eq_and v 2 50)

end Read

/-! ## The writes with effects of their own -/

section Writes
variable {s : State} {c p n m : Nat} {v : Word64}

theorem execStstatWrite_of_ev (h : s.ev = .ststatWrite c v) :
    exec .ststatWrite s = .next (s.updCore c fun k => { k with stash := { k.stash with fulls := 0 } }) := by
  change execStstatWrite s = _
  simp [execStstatWrite, h]

theorem execSilcntWrite_of_ev (h : s.ev = .silcntWrite c v) : exec .silcntWrite s = .next (s.updCore c fun k => { k with silcnt := 0 }) := by
  change execSilcntWrite s = _
  simp [execSilcntWrite, h]

theorem execNotstatWrite_of_ev (h : s.ev = .notstatWrite p v) : exec .notstatWrite s = .next (s.updPart p fun q => { q with ndrop := 0 }) := by
  change execNotstatWrite s = _
  simp [execNotstatWrite, h]

theorem execFqstatWrite_of_ev (h : s.ev = .fqstatWrite c v) : exec .fqstatWrite s = .next (s.updRouter c fun r => { r with lost := 0 }) := by
  change execFqstatWrite s = _
  simp [execFqstatWrite, h]

theorem execFlogstWrite_of_ev (h : s.ev = .flogstWrite c v) :
    exec .flogstWrite s = .next (s.updRouter c fun r => { r with flog := [], flogOvf := v.getLsbD 4, drops := BitVec.ofNat 16 (bitsOf v 5 16) }) := by
  change execFlogstWrite s = _
  simp [execFlogstWrite, h]

theorem execLpstatWrite_of_ev (h : s.ev = .lpstatWrite n v) :
    exec .lpstatWrite s = .next (s.updPort n fun l => { l with stale := 0, bpart := BitVec.ofNat 3 (bitsOf v 39 3) }) := by
  change execLpstatWrite s = _
  simp [execLpstatWrite, h]

/-- CRCTL takes its value where the reservations with it leave four ways in every slice, and else keeps its own and sets REJ (10 R247, R248). -/
theorem execCrctlWrite_of_ev (h : s.ev = .crctlWrite p m v) :
    let u := (s.updPart p fun q => { q with crctl := Tab.set 0 q.crctl m (keepBits v 0 45), crrej := setBits q.crrej m 1 0 }).clearCounters p m
    exec .crctlWrite s = if u.reservedSum p + 4 ≤ u.waysU p then .next u else .next (s.updPart p fun q => { q with crrej := setBits q.crrej m 1 1 }) := by
  intro u
  change execCrctlWrite s = _
  simp only [execCrctlWrite, h, u]

end Writes

/-- Settles O44: the registers of a context by masking with their fields, those of the nest by the laws of its table, the other writes by what each event does. -/
theorem specialRegisterWrites : Obligations.SpecialRegisterWrites := by
  unfold Obligations.SpecialRegisterWrites
  refine ⟨fun s k n x v => ?_, fun s c p n m v k q r l hk hq hr hl => ?_⟩
  · refine ⟨keepBits_eq_and v 2 50, keepBits_eq_and v 0 9, rfl, keepBits_or_keepBits v 0 53 63 1, keepBits_or_keepBits v 0 1 2 50, rfl, fun hheld => ?_,
      fun ht hopen m hm => ?_, keepBits_eq_and v 0 20, keepBits_eq_and v 0 8, keepBits_eq_and v 0 6, keepBits_eq_and v 0 8⟩
    · exact ⟨fun hw _ hm => s.readSr_write_loopc k n hheld hw v hm, fun hw _ hm => s.readSr_write_loopb k n hheld hw v hm⟩
    · rw [State.readSr_loopc s k n x hm, State.readSr_loopb s k n x hm, Ctx.loopRegs_of_open ht hopen, Ctx.loopRegs_of_open ht hopen]
      exact ⟨get_nestRegs _ _ hm, get_nestRegs _ _ hm⟩
  · have core := fun f => (s.core?_updCore_same c f).trans (congrArg (Option.map f) hk)
    have part := fun f => (s.part?_updPart_same p f).trans (congrArg (Option.map f) hq)
    have router := fun f => (s.router?_updRouter_same c f).trans (congrArg (Option.map f) hr)
    have port := fun f => (s.port?_updPort_same n f).trans (congrArg (Option.map f) hl)
    exact ⟨fun h => ⟨_, _, execStstatWrite_of_ev h, core _, rfl⟩, fun h => ⟨_, _, execSilcntWrite_of_ev h, core _, rfl⟩,
      fun h => ⟨_, _, execNotstatWrite_of_ev h, part _, rfl⟩, fun h => ⟨_, _, execFqstatWrite_of_ev h, router _, rfl⟩,
      fun h => ⟨_, _, execFlogstWrite_of_ev h, router _, rfl, rfl⟩, fun h => ⟨_, _, execLpstatWrite_of_ev h, port _, rfl, rfl⟩,
      fun h => ⟨fun hfits => (execCrctlWrite_of_ev h).trans (if_pos hfits),
        fun hover => ⟨_, _, (execCrctlWrite_of_ev h).trans (if_neg (Nat.not_le.2 hover)), part _, rfl, getLsbD_setBits_one q.crrej⟩⟩⟩

end Sys2Proof.Machine
end
section
/-! SUPPORT. The matrix engine at its issue and its starts: the engine brought up to a cycle, an operation that starts at the port, MCFG, the start of the
queue, MCFG_CLEAR. -/

namespace Sys2Proof.Machine

/-! ## Posting leaves the cores -/

@[simp] theorem State.core?_post (s : State) (d : Nat) (e : Event) (c : Nat) : (s.post d e).core? c = s.core? c := rfl
@[simp] theorem State.core?_postOnce (s : State) (d : Nat) (e : Event) (c : Nat) : (s.postOnce d e).core? c = s.core? c := by simp [State.core?]

/-! ## The engine brought up to a cycle -/

/-- What an engine has taken or given posts events alone. -/
@[simp] theorem State.afterTake_cur (s : State) (c : Nat) : (s.afterTake c).cur = s.cur := by
  unfold State.afterTake
  split
  · rfl
  · refine State.forEach_keeps (fun t => t.cur = s.cur) (fun t kv ht => ?_) _ s rfl
    split
    · exact ht
    · split_ifs <;> simp [ht]

/-- An engine is settled for the core whose bundle executes, or for another: which that is stays. -/
@[simp] theorem State.mxSettle_cur (s : State) (c : Nat) : (s.mxSettle c).cur = s.cur := by
  unfold State.mxSettle
  split
  · rfl
  · split
    · rfl
    · refine State.forEach_keeps (fun t => t.cur = s.cur) (fun t o ht => ?_) _ _ (by simp)
      split_ifs <;> simp [ht]

/-- An engine with nothing at work comes to the cycle (06 R127). -/
theorem State.mxSettle_of_idle {s : State} {c : Nat} {k : Core} (hk : s.core? c = some k) (hrun : k.mx.run = []) (hport : k.mx.port = []) :
    s.mxSettle c = s.setCore c { k with mx := { k.mx with clock := max k.mx.clock s.cycle } } := by
  simp [State.mxSettle, Core.mxRunTo, hk, hrun, hport]

/-! ## A bundle that blocks on a semaphore -/

/-- A wait that is armed: its bundle blocks, and its context is BLOCKED with the wait among those it has armed (12 R290). -/
theorem State.arm_blocks {s : State} {k : Core} {n : Nat} {x : Ctx} (h : s.issues k n x) (sl : Slot) (sem thr : Nat) (engine : Bool) :
    ∃ x', (s.arm sl sem thr engine).bun.status = .blocked ∧ (s.arm sl sem thr engine).ctx? s.cur n = some x' ∧ x'.st = .blocked ∧
      x'.armed = x.armed ++ [⟨sl, sem, thr, engine⟩] ∧ x'.regs = x.regs := by
  obtain ⟨hk, hn, hx⟩ := h
  let t : State := s.updCtx s.cur n fun x => { x with armed := x.armed ++ [⟨sl, sem, thr, engine⟩] }
  let x1 : Ctx := { x with armed := x.armed ++ [⟨sl, sem, thr, engine⟩] }
  have htk : t.core? s.cur = some (k.setCtx n x1) := State.core?_updCtx_same _ hk hx
  have htx : (k.setCtx n x1).ctx? n = some x1 := Core.ctx?_setCtx_same k n x1
  have ht : t.issues (k.setCtx n x1) n x1 := ⟨by rw [show t.cur = s.cur from State.updCtx_cur ..]; exact htk, hn, htx⟩
  have harm : s.arm sl sem thr engine =
      ((({ t with bun := { t.bun with status := .blocked } } : State).updCtx s.cur n fun x => { x with st := .blocked }).startTimer s.cur n) := by
    have hcur : t.cur = s.cur := State.updCtx_cur ..
    rw [State.arm, State.updIssuer_eq ⟨hk, hn, hx⟩, State.block, ht.issuer_eq, hcur]
  have hblocked : (({ t with bun := { t.bun with status := .blocked } } : State).updCtx s.cur n fun x => { x with st := .blocked }).core? s.cur =
      some ((k.setCtx n x1).setCtx n { x1 with st := .blocked }) := State.core?_updCtx_same _ htk htx
  obtain ⟨k', x', hk', hx', -, heq⟩ := State.core?_startTimer hblocked (Core.ctx?_setCtx_same _ n _)
  rw [harm]
  exact ⟨x', by simp, by simp [State.ctx?, hk', hx'], by rw [heq], by rw [heq], by rw [heq]⟩

/-! ## The accumulator port -/

/-- An operation that starts at the accumulator port of the engine's owner: it stands last at the port, with this cycle its start, and the event of its completion
is posted (06 R130). -/
def StartsAtPort (s s1 : State) (k1 : Core) (n : Nat) (x1 : Ctx) (i : Instr) (w : Sync) (kind : MKind) (lat : Nat) (e : Nat → Event) : Prop :=
  ∃ t k' o, exec i s = .next t ∧ t.core? s.cur = some k' ∧ k'.mx.port = k1.mx.port ++ [o] ∧ o.kind = kind ∧ o.sync = w ∧ o.ctx = n ∧
    o.start = some s1.cycle ∧ k'.mx.queue = k1.mx.queue ∧ k'.ctx? n = some x1 ∧ (s1.cycle + lat, e o.id) ∈ t.agenda

/-- The wait of a synchronisation word that is met lets its operation go on. -/
theorem State.syncWait_of_met {s : State} {k : Core} {w : Sync} (h : w.wt = 0 ∨ (k.sem w.ws.toNat).met w.wt.toNat = true) (x : Ctx) (sl : Slot) :
    s.syncWait k x sl w = .ok s s := by
  obtain h | h := h <;> simp [State.syncWait, h]

/-- One that is not met, and was not satisfied before, is armed. -/
theorem State.syncWait_of_unmet {s : State} {k : Core} {w : Sync} (h : ¬(w.wt = 0 ∨ (k.sem w.ws.toNat).met w.wt.toNat = true)) {x : Ctx} {sl : Slot}
    (hs : sl ∉ x.sat) : s.syncWait k x sl w = .wait (s.arm sl w.ws.toNat w.wt.toNat true) := by
  rw [State.syncWait, if_neg]
  simpa [hs] using h

/-- The operation that an instruction becomes at its issue, under the configuration in force there (17 R417). -/
def State.issuedOp (s : State) (k : Core) (n : Nat) (i : Instr) (w : Sync) (start : Option Nat) (kind : MKind) : MOp where
  id := k.nextCmd
  kind := kind
  ctx := n
  sync := w
  word := engineWord i
  issue := s.cycle
  start := start
  m := cfgM k.mx.cfgIssued
  n := cfgN k.mx.cfgIssued
  k := cfgK k.mx.cfgIssued
  at' := (etypeOf (bitsOf k.mx.fmtIssued 0 4)).getD .bf16
  bt := (etypeOf (bitsOf k.mx.fmtIssued 4 4)).getD .bf16
  sc := k.mx.fmtIssued.getLsbD 8
  taken := []
  step := 0
  waited := 0
  rowsRead := 0
  rowsWritten := 0
  acc := []
  given := 0
  twid := k.mx.twidIssued
  src := []
  bcap := []
  bad := []
  fin := false
  lastStrm := (0, 0)
  psn := Instr.guardPsn s.bun.oldM i

/-- The core once an operation has been put at its accumulator port. -/
def Core.putPort (k : Core) (o : MOp) : Core :=
  { k with
    nextCmd := o.id + 1
    mx := { k.mx with
      port := k.mx.port ++ [o]
      drained := o.kind == .mdrain
      fmtIssued := match o.kind with | .mfmt a b sc => fmtWord a b sc | _ => k.mx.fmtIssued
      twidIssued := match o.kind with | .mtwid t _ => some t | _ => k.mx.twidIssued } }

/-- An operation of the port whose wait is met is put last there, and the event of its last effect is posted. -/
theorem State.mxIssue_port_of_met {s : State} {k : Core} {w : Sync} (hmet : w.wt = 0 ∨ (k.sem w.ws.toNat).met w.wt.toNat = true) (n : Nat) (x : Ctx)
    (i : Instr) {kind : MKind} {lat : Nat} {e : Nat → Event}
    (hlast : ∀ o : MOp, o.kind = kind → o.lastCycle = some (o.base + lat) ∧ o.event s.cur = e o.id) :
    let o := s.issuedOp k n i w (some s.cycle) kind
    let t := (s.updCore s.cur fun k => k.putPort o).post lat (e o.id)
    s.mxIssue k n x i w true kind = .ok t t := by
  intro o t
  obtain ⟨hcycle, hevent⟩ := hlast o rfl
  have hdue : o.base + lat - s.cycle = lat := by simp [o, MOp.base, State.issuedOp]
  simp only [o, State.issuedOp] at hcycle hevent hdue
  simp only [State.mxIssue, State.syncWait_of_met hmet, Try.bind_ok, Bool.not_true, Bool.false_and, Bool.false_eq_true, if_false, if_true, hcycle, hevent,
    State.updCore_cycle, State.updCore_cur, hdue]
  rfl

section Port
variable {s : State} {k k1 : Core} {n : Nat} {x x1 : Ctx} (hiss : s.issues k n x) (hset : (s.mxSettle s.cur).issues k1 n x1) (hown : k1.mxown = some n)
include hiss hset hown

/-- An M-slot operation of the engine's owner, under a guard that passes and with a legal encoding, is attempted with its engine settled (17 R417). -/
theorem mxSlot_of_owner {g : Guard} (hg : s.passesM g) {bad : Bool} (hbad : bad = false) (op : Nat) (f : State → Core → Nat → Ctx → Try State) :
    mxSlot s g op bad f = .next (f (s.mxSettle s.cur) k1 n x1).finish := by
  simp only [State.passesM] at hg
  simp [mxSlot, guardedM, slotOp_eq hiss, hg, hset.issuer_eq, hbad, hown]

variable {i j : Instr} {w : Sync} {g : Guard} {op : Nat} {bad : Bool} {kind : State → Core → Ctx → MKind} (hg : s.passesM g) (hbad : bad = false)
  (hexec : exec i s = mxSlot s g op bad fun s k n x => s.mxIssue k n x j w true (kind s k x))
include hg hbad hexec

/-- An operation of the port whose wait is met starts at its issue. -/
theorem startsAtPort_of_met (hmet : w.wt = 0 ∨ (k1.sem w.ws.toNat).met w.wt.toNat = true) {lat : Nat} {e : Nat → Event}
    (hlast : ∀ o : MOp, o.kind = kind (s.mxSettle s.cur) k1 x1 → o.lastCycle = some (o.base + lat) ∧ o.event s.cur = e o.id) :
    StartsAtPort s (s.mxSettle s.cur) k1 n x1 i w (kind (s.mxSettle s.cur) k1 x1) lat e := by
  rw [mxSlot_of_owner hiss hset hown hg hbad] at hexec
  obtain ⟨hk1, -, hx1⟩ := hset
  generalize kind (s.mxSettle s.cur) k1 x1 = kd at *
  have hcur : (s.mxSettle s.cur).cur = s.cur := s.mxSettle_cur s.cur
  generalize s.mxSettle s.cur = s1 at *
  rw [State.mxIssue_port_of_met hmet n x1 j (hcur.symm ▸ hlast)] at hexec
  refine ⟨_, k1.putPort (s1.issuedOp k1 n j w (some s1.cycle) kd), _, hexec, ?_, rfl, rfl, rfl, rfl, rfl, rfl, hx1, ?_⟩
  · rw [hcur] at hk1
    simp [State.core?_updCore_same, hcur, hk1]
  · simpa using State.mem_post (s1.updCore s1.cur _) lat _

/-- One whose wait is not met blocks its bundle. -/
theorem blocksOn_of_unmet (hmet : ¬(w.wt = 0 ∨ (k1.sem w.ws.toNat).met w.wt.toNat = true)) (hsat : Slot.m ∉ x1.sat) : BlocksOn s i n x1 .m w := by
  rw [mxSlot_of_owner hiss hset hown hg hbad, State.mxIssue, State.syncWait_of_unmet hmet hsat] at hexec
  obtain ⟨x', hst, hx', hrest⟩ := State.arm_blocks hset .m w.ws.toNat w.wt.toNat true
  exact ⟨_, x', hexec, hst, by simpa using hx', hrest⟩

end Port

/-! ## MCFG -/

/-- The core with the configuration of an MCFG in force at issue (06 R131). -/
def Core.configure (k : Core) (o : OpMcfg) : Core :=
  { k with mx := { k.mx with cfgIssued := BitVec.ofNat 64 (o.mc.toNat + 4 * o.nc.toNat + 16 * o.km.toNat), drained := false } }

/-- MCFG of the engine's owner sets the configuration in force at issue and holds its context until the engine is idle (06 R130, 17 R429). -/
theorem execMcfg_of_owner {s : State} {k k1 : Core} {n : Nat} {x x1 : Ctx} (hiss : s.issues k n x) (hset : (s.mxSettle s.cur).issues k1 n x1)
    (hown : k1.mxown = some n) {o : OpMcfg} (hg : s.passesM o.g) (hfits : k1.mx.pair.1 = .f32 → o.km.toNat ≤ 31) :
    exec (.mcfg o) s = .next ((((s.mxSettle s.cur).updCore s.cur fun k => k.configure o).updCtx s.cur n fun x =>
      { x with holdM := .mcfg o.mc o.nc o.km }).postOnce 0 (.mcfgClear s.cur)) := by
  have hlegal : (k1.mx.pair.1 == .f32 && decide (31 < o.km.toNat)) = false := by simpa using hfits
  rw [show exec (.mcfg o) s = execMcfg o s from rfl, execMcfg, mxSlot_of_owner hiss hset hown hg rfl]
  simp only [hlegal, Bool.false_eq_true, if_false, Try.finish_ok, State.updCore_cur, State.updCtx_cur, State.mxSettle_cur]
  rfl

/-- Settles O30: the port's operations by the lemmas on one whose wait is met and one whose wait is not, MCFG by its own. -/
theorem accumulatorPortOperationsStart : Obligations.AccumulatorPortOperationsStart := by
  unfold Obligations.AccumulatorPortOperationsStart
  rintro s s1 k k1 n x x1 w hiss rfl hset hown met started both
  have port : ∀ {g : Guard} {i : Instr} {i64 : Sync → Instr} {op : Nat} {bad : Bool} {kind : State → Core → Ctx → MKind} {lat : Nat} {e : Nat → Event},
      bad = false → (exec i s = mxSlot s g op bad fun s k n x => s.mxIssue k n x i Sync.none true (kind s k x)) →
      (exec (i64 w) s = mxSlot s g op bad fun s k n x => s.mxIssue k n x i w true (kind s k x)) →
      (∀ o : MOp, o.kind = kind (s.mxSettle s.cur) k1 x1 → o.lastCycle = some (o.base + lat) ∧ o.event s.cur = e o.id) →
      both g i i64 (kind (s.mxSettle s.cur) k1 x1) lat e := fun hbad hplain hsync hlast hg =>
    ⟨startsAtPort_of_met hiss hset hown hg hbad hplain (.inl rfl) hlast, fun hmet => startsAtPort_of_met hiss hset hown hg hbad hsync hmet hlast,
      fun hmet hsat => blocksOn_of_unmet hiss hset hown hg hbad hsync hmet hsat⟩
  refine ⟨fun o hh => ⟨?_, ?_⟩, fun o => ?_, fun o hg hfits => ?_⟩
  · refine port (kind := fun _ k _ => .mzrd o.v.toNat o.h o.ft (k.mx.row o.z.toNat o.row.toNat)) (bad := o.ft == .bf16 && o.h) ?_ rfl rfl fun p hp => ?_
    · simpa using hh
    · simp [MOp.lastCycle, MOp.event, hp]
  · refine port (kind := fun s _ x => .mzwr o.z.toNat o.row.toNat o.h o.ft (x.vNow s.cycle o.v.toNat)) (bad := o.ft == .bf16 && o.h) ?_ rfl rfl fun p hp => ?_
    · simpa using hh
    · simp [MOp.lastCycle, MOp.event, hp]
  · refine port (kind := fun _ _ _ => .mzero o.z.toNat) rfl rfl rfl fun p hp => ?_
    simp [MOp.lastCycle, MOp.event, hp]
  · have hk1 := hset.1
    rw [State.mxSettle_cur] at hk1
    have hconf : ((s.mxSettle s.cur).updCore s.cur fun k => k.configure o).core? s.cur = some (k1.configure o) := by
      rw [State.core?_updCore_same, hk1, Option.map_some]
    refine ⟨_, _, { x1 with holdM := .mcfg o.mc o.nc o.km }, execMcfg_of_owner hiss hset hown hg hfits, ?_, Core.ctx?_setCtx_same (k1.configure o) n _,
      rfl, rfl, rfl, rfl⟩
    rw [State.core?_postOnce]
    exact State.core?_updCtx_same _ hconf hset.2.2

/-! ## The start of the queue -/

/-- An operation that starts leaves the queue for those at work, its start this cycle (06 R126). -/
theorem State.core?_mxStart (s : State) (c : Nat) (o : MOp) : (s.mxStart c o).core? c = (s.core? c).map fun k =>
    { k with mx := { k.mx with queue := k.mx.queue.filter fun p => p.id ≠ o.id, run := k.mx.run ++ [{ o with start := some s.cycle }] } } := by
  rw [← State.core?_updCore_same]
  -- whatever else a start does is to post events
  simp only [State.mxStart]
  split <;> split <;> simp

/-- With nothing else at work, at the port or in the queue, an operation that no FENCE holds meets its start condition (06 R126, Table 7). -/
theorem Core.mxStarts_of_idle {k : Core} {o : MOp} (hrun : k.mx.run = []) (hport : k.mx.port = []) (hqueue : k.mx.queue = [o])
    (hfence : k.fenced o.ctx o.id (if (MKind.memReg o.kind).isSome then 8 else 0) = false) : k.mxStarts o = true := by
  have hearlier : ((k.mx.run ++ k.mx.queue).filter fun p => decide (p.id < o.id)) = [] := by simp [hrun, hqueue]
  simp only [Core.mxStarts, hearlier, hfence]
  simp only [hrun, hport]
  cases o.kind <;> rfl

/-- A queue of one operation that meets its start condition starts it. -/
theorem State.mxStartAll_one {s : State} {c : Nat} {k : Core} {o : MOp} (hk : s.core? c = some k) (hstarts : k.mxStarts o = true) :
    s.mxStartAll c [o] false = s.mxStart c o := by
  simp [State.mxStartAll, hk, hstarts]

/-- The start of a queue of one operation that can start, with the engine idle. -/
theorem execMatrixQueueStart_of_idle {s : State} {c : Nat} {k : Core} {o : MOp} (hk : s.core? c = some k) (hev : s.ev = .matrixQueueStart c)
    (hrun : k.mx.run = []) (hport : k.mx.port = []) (hqueue : k.mx.queue = [o]) (hclock : k.mx.clock ≤ s.cycle)
    (hfence : k.fenced o.ctx o.id (if (MKind.memReg o.kind).isSome then 8 else 0) = false) :
    ∃ t, exec .matrixQueueStart s = .next t ∧ t.core? c =
      some { k with mx := { k.mx with clock := s.cycle, queue := [], run := [{ o with start := some s.cycle }] } } := by
  let k1 : Core := { k with mx := { k.mx with clock := s.cycle } }
  have hset : s.mxSettle c = s.setCore c k1 := by rw [State.mxSettle_of_idle hk hrun hport, Nat.max_eq_right hclock]
  have hk1 : (s.setCore c k1).core? c = some k1 := State.core?_setCore_same ..
  have hstarts : k1.mxStarts o = true := Core.mxStarts_of_idle hrun hport hqueue hfence
  have hall : (s.setCore c k1).mxStartAll c k1.mx.queue false = (s.setCore c k1).mxStart c o := by
    rw [show k1.mx.queue = [o] from hqueue, State.mxStartAll_one hk1 hstarts]
  have hk2 : ((s.setCore c k1).mxStart c o).core? c =
      some { k with mx := { k.mx with clock := s.cycle, queue := [], run := [{ o with start := some s.cycle }] } } := by
    simp [State.core?_mxStart, k1, hrun, hqueue]
  rw [show exec .matrixQueueStart s = execMatrixQueueStart s from rfl]
  simp only [execMatrixQueueStart, hev, hset, hk1, hall, hk2, State.setCore_cycle, show ¬s.cycle < k1.mx.clock from Nat.lt_irrefl _, if_false,
    List.isEmpty_nil, if_true]
  refine ⟨_, rfl, ?_⟩
  split
  · rw [State.core?_postOnce, hk2]
  · exact hk2

/-! ## MCFG_CLEAR -/

/-- Looking whether a RETIRE goes on leaves every core. -/
@[simp] theorem State.core?_retryRetire (s : State) (c n c' : Nat) : (s.retryRetire c n).core? c' = s.core? c' := by
  unfold State.retryRetire
  split
  · rfl
  · split_ifs <;> simp

/-- MCFG_CLEAR with the engine idle and its owner held by an MCFG: MXCFG is loaded, the tiles are cleared, and the owner is held 64 cycles longer (06 R130). -/
theorem execMcfgClear_of_idle {s : State} {c n : Nat} {k : Core} {x : Ctx} {mc nc : BitVec 2} {km : BitVec 7} (hk : s.core? c = some k)
    (hev : s.ev = .mcfgClear c) (hrun : k.mx.run = []) (hport : k.mx.port = []) (hqueue : k.mx.queue = []) (hown : k.mxown = some n)
    (hx : k.ctx? n = some x) (hhold : x.holdM = .mcfg mc nc km) :
    ∃ t, exec .mcfgClear s = .next t ∧ t.core? c =
      some (Core.setCtx { k with mx := { k.mx with
        clock := max k.mx.clock s.cycle, cfg := BitVec.ofNat 64 (mc.toNat + 4 * nc.toNat + 16 * km.toNat), tiles := [] } } n
        { x with holdM := .none, holdUntil := max x.holdUntil (s.cycle + 64) }) := by
  let k1 : Core := { k with mx := { k.mx with clock := max k.mx.clock s.cycle } }
  have hset : s.mxSettle c = s.setCore c k1 := State.mxSettle_of_idle hk hrun hport
  have hk1 : (s.setCore c k1).core? c = some k1 := State.core?_setCore_same ..
  have hlive : k1.mx.live.isEmpty = true := by simp [Matrix.live, k1, hrun, hport, hqueue]
  have hbind : ((some k1).bind fun k => k.mxown.map fun n => (k, n)) = some (k1, n) := by simp [k1, hown]
  have hmap : (k1.ctx? n).map (fun x : Ctx => x.holdM) = some (.mcfg mc nc km) := by rw [show k1.ctx? n = some x from hx, Option.map_some, hhold]
  rw [show exec .mcfgClear s = execMcfgClear s from rfl]
  simp only [execMcfgClear, hev, hset, hk1, hbind, hmap, hlive, if_true]
  refine ⟨_, rfl, ?_⟩
  rw [State.core?_retryRetire]
  exact State.core?_updCtx_same (k := { k1 with mx := _ }) _ (by rw [State.core?_updCore_same, hk1, Option.map_some]) hx

/-- Settles O31: each event with the engine idle, by its lemma. -/
theorem matrixQueueStartAndClear : Obligations.MatrixQueueStartAndClear := by
  unfold Obligations.MatrixQueueStartAndClear
  refine ⟨fun s c k o hk hev hrun hport hqueue hclock hfence => ?_, fun s c n k x mc nc km hk hev hrun hport hqueue hown hx hhold => ?_⟩
  · obtain ⟨t, ht, hkt⟩ := execMatrixQueueStart_of_idle hk hev hrun hport hqueue hclock hfence
    exact ⟨t, _, ht, hkt, rfl, rfl⟩
  · obtain ⟨t, ht, hkt⟩ := execMcfgClear_of_idle hk hev hrun hport hqueue hown hx hhold
    exact ⟨t, _, _, ht, hkt, Core.ctx?_setCtx_same _ n _, rfl, fun _ _ => rfl, rfl, Nat.le_max_right _ _⟩

end Sys2Proof.Machine
end
section
/-! SUPPORT. Tiles: the words of a row, rows that are replaced, and what each operation of the matrix engine writes in a cycle (06 R119, R128). -/

namespace Sys2Proof.Machine

/-! ## The words of a row -/

/-- Word j of the number that a list of words makes is that of the list (06 R119). -/
theorem wordsNat_div_mod : ∀ (ws : List PWord) (j : Nat), wordsNat ws / 2 ^ (32 * j) % 2 ^ 32 = (ws.getD j ⟨0, false⟩).w.toNat
  | [], j => by simp [wordsNat]
  | w :: ws, 0 => by simpa [wordsNat] using w.w.isLt
  | w :: ws, j + 1 => by
    have hdiv : (w.w.toNat + 2 ^ 32 * wordsNat ws) / 2 ^ 32 = wordsNat ws := by omega
    rw [wordsNat, show 32 * (j + 1) = 32 + 32 * j by ring, pow_add, ← Nat.div_div_eq_div_mul, hdiv, wordsNat_div_mod ws j]
    rfl

/-- Bit j of the number that a list of Bools makes is that of the list. -/
theorem testBit_boolsNat : ∀ (l : List Bool) (j : Nat), (boolsNat l).testBit j = l.getD j false
  | [], j => by simp [boolsNat]
  | b :: l, 0 => by cases b <;> simp [boolsNat, bitN, Nat.testBit_zero]
  | b :: l, j + 1 => by
    have hdiv : (bitN b + 2 * boolsNat l) / 2 = boolsNat l := by cases b <;> simp [bitN]; omega
    rw [boolsNat, Nat.testBit_succ, hdiv, testBit_boolsNat l j]
    rfl

/-- A row made of a list of words holds them in order, with their poison. -/
theorem rowOf_word (ws : List PWord) {j : Nat} (hj : j < 64) : (rowOf ws).word j = ws.getD j ⟨0, false⟩ := by
  have hw : (BitVec.ofNat 2048 (wordsNat ws)).extractLsb' (32 * j) 32 = (ws.getD j ⟨0, false⟩).w := by
    refine BitVec.eq_of_getLsbD_eq fun i hi => ?_
    have hbit : (ws.getD j ⟨0, false⟩).w.getLsbD i = (wordsNat ws).testBit (32 * j + i) := by
      rw [← BitVec.testBit_toNat, ← wordsNat_div_mod ws j, Nat.testBit_mod_two_pow, Nat.testBit_div_two_pow, decide_eq_true hi, Bool.true_and, Nat.add_comm]
    rw [hbit, BitVec.getLsbD_extractLsb', BitVec.getLsbD_ofNat, decide_eq_true hi, decide_eq_true (show 32 * j + i < 2048 by omega), Bool.true_and,
      Bool.true_and]
  have hp : (BitVec.ofNat 64 (boolsNat (ws.map (·.p)))).getLsbD j = (ws.getD j ⟨0, false⟩).p := by
    rw [BitVec.getLsbD_ofNat, testBit_boolsNat, decide_eq_true hj, Bool.true_and, List.getD_eq_getElem?_getD, List.getD_eq_getElem?_getD,
      List.getElem?_map]
    cases ws[j]? <;> rfl
  rw [TileRow.word, rowOf, hw, hp]

/-- A row with words replaced. -/
theorem TileRow.put_word (r : TileRow) (f : Nat → Option PWord) {j : Nat} (hj : j < 64) : (r.put f).word j = (f j).getD (r.word j) := by
  rw [TileRow.put, rowOf_word _ hj, List.getD_eq_getElem?_getD]
  simp only [List.getElem?_map, List.getElem?_range hj, Option.map_some, Option.getD_some]
  cases f j <;> rfl

/-- A word that is not replaced stays. -/
theorem TileRow.put_word_of_none (r : TileRow) {f : Nat → Option PWord} {j : Nat} (hj : j < 64) (h : f j = none) : (r.put f).word j = r.word j := by
  rw [TileRow.put_word r f hj, h, Option.getD_none]

/-- The word of a row as an operation under a poisoned guard writes it (12 R300). -/
theorem TileRow.under_word (r : TileRow) (psn : Bool) {j : Nat} (hj : j < 64) : (r.under psn).word j = ⟨(r.word j).w, psn || (r.word j).p⟩ := by
  cases psn <;> simp only [TileRow.under, TileRow.word, if_true, if_false, Bool.false_eq_true, BitVec.getLsbD_allOnes, hj, decide_true, Bool.true_or,
    Bool.false_or]

/-! ## Rows of tiles -/

section Rows
variable {m : Matrix} (hm : Tab.wf (⟨0, 0⟩ : TileRow) m.tiles = true)

/-- A row that is not the one replaced stays. -/
theorem Matrix.row_setRow_ne (m : Matrix) {z i z' i' : Nat} (r : TileRow) (h : 64 * z' + i' ≠ 64 * z + i) : (m.setRow z i r).row z' i' = m.row z' i' :=
  Tab.get_set_ne _ r m.tiles h

include hm

/-- A row that is replaced reads as what it was replaced by. -/
theorem Matrix.row_setRow_same (z i : Nat) (r : TileRow) : (m.setRow z i r).row z i = r := Tab.get_set_wf _ r _ hm

/-- Replacing a row keeps the tiles canonical. -/
theorem Matrix.wf_setRow (z i : Nat) (r : TileRow) : Tab.wf (⟨0, 0⟩ : TileRow) (m.setRow z i r).tiles = true := Tab.wf_set _ r _ hm

end Rows

/-- Rows 0 to n − 1 from tile z on, each changed as it stands. -/
def Matrix.mapRows (m : Matrix) (z n : Nat) (f : Nat → TileRow → TileRow) : Matrix :=
  (List.range n).foldl (fun m i => m.setRow z i (f i (m.row z i))) m

theorem Matrix.mapRows_succ (m : Matrix) (z n : Nat) (f : Nat → TileRow → TileRow) :
    m.mapRows z (n + 1) f = (m.mapRows z n f).setRow z n (f n ((m.mapRows z n f).row z n)) := by
  simp [Matrix.mapRows, List.range_succ]

/-- Every other row stays. -/
theorem Matrix.row_mapRows_ne (m : Matrix) (z n : Nat) (f : Nat → TileRow → TileRow) {z' i' : Nat} (h : 64 * z' + i' < 64 * z ∨ 64 * z + n ≤ 64 * z' + i') :
    (m.mapRows z n f).row z' i' = m.row z' i' := by
  induction n with
  | zero => rfl
  | succ n ih => rw [Matrix.mapRows_succ, Matrix.row_setRow_ne _ _ (by omega), ih (by omega)]

theorem Matrix.wf_mapRows {m : Matrix} (hm : Tab.wf (⟨0, 0⟩ : TileRow) m.tiles = true) (z n : Nat) (f : Nat → TileRow → TileRow) :
    Tab.wf (⟨0, 0⟩ : TileRow) (m.mapRows z n f).tiles = true := by
  induction n with
  | zero => exact hm
  | succ n ih => rw [Matrix.mapRows_succ]; exact Matrix.wf_setRow ih z n _

/-- Each of the rows is changed from what it was. -/
theorem Matrix.row_mapRows {m : Matrix} (hm : Tab.wf (⟨0, 0⟩ : TileRow) m.tiles = true) (z : Nat) (f : Nat → TileRow → TileRow) {n i : Nat} (hi : i < n) :
    (m.mapRows z n f).row z i = f i (m.row z i) := by
  induction n with
  | zero => omega
  | succ n ih =>
    rw [Matrix.mapRows_succ]
    obtain hlt | rfl := Nat.lt_succ_iff_lt_or_eq.1 hi
    · rw [Matrix.row_setRow_ne _ _ (by omega), ih hlt]
    · rw [Matrix.row_setRow_same (Matrix.wf_mapRows hm z i f), Matrix.row_mapRows_ne m z i f (by omega)]

/-- What a table keeps of its keys it reads as before, and the default for the others. -/
theorem Tab.get_filter_key {α : Type} (d : α) (p : Nat → Bool) (n : Nat) : ∀ m : Tab α,
    Tab.get d (m.filter fun kv => p kv.1) n = if p n then Tab.get d m n else d
  | [] => by simp [Tab.get]
  | (k, v) :: m => by
    have ih := Tab.get_filter_key d p n m
    by_cases hp : p k = true
    · by_cases hk : k = n
      · subst hk; simp [Tab.get, hp]
      · simp [Tab.get, hp, hk, ih]
    · by_cases hk : k = n
      · subst hk; simpa [Tab.get, hp] using ih
      · simp [Tab.get, hp, hk, ih]

/-! ## The write of each operation -/

section Writes
variable (m : Matrix) (c : Nat) {o : MOp}

theorem Matrix.mxWrite_mma {zero : Bool} {z q b : Nat} (h : o.kind = .mma zero z q b) : m.mxWrite c o =
    if o.rowsWritten < o.rowsRead && c = o.base + o.steps + 24 + o.rowsWritten then
      (m.setRow z o.rowsWritten ((m.row z o.rowsWritten).put fun j => if j < o.n then some (((o.acc.getD 0 ⟨0, 0⟩).under o.psn).word j) else none),
        { o with acc := o.acc.drop 1, rowsWritten := o.rowsWritten + 1 })
    else (m, o) := by simp only [Matrix.mxWrite, h]

theorem Matrix.mxWrite_mzld {z q : Nat} (h : o.kind = .mzld z q) : m.mxWrite c o =
    if o.rowsWritten < o.rowsRead then
      (m.setRow z o.rowsWritten ((o.acc.getD 0 ⟨0, 0⟩).under o.psn), { o with acc := [], rowsWritten := o.rowsWritten + 1 })
    else (m, o) := by simp only [Matrix.mxWrite, h]

theorem Matrix.mxWrite_mtrn {zd zs : Nat} (h : o.kind = .mtrn zd zs) : m.mxWrite c o =
    if o.rowsWritten < 64 && c = o.base + 64 + o.rowsWritten then
      (m.setRow zd o.rowsWritten ((o.mtrnRow o.rowsWritten).under o.psn), { o with rowsWritten := o.rowsWritten + 1 })
    else (m, o) := by simp only [Matrix.mxWrite, h]

theorem Matrix.mxWrite_mzwr {z row : Nat} {h : Bool} {ft : FType} {u : VV} (hk : o.kind = .mzwr z row h ft u) : m.mxWrite c o =
    if c = o.base + 2 then (m.setRow z row (mzwrRow (m.row z row) h ft ⟨u.v, if o.psn then BitVec.allOnes 32 else u.p⟩), o) else (m, o) := by
  simp only [Matrix.mxWrite, hk]

/-- What a butterfly stage gives for word j of row i, where it holds a word of a point (06 R138). -/
def MOp.mbflyWord (o : MOp) (t : Twid) (stg : Nat) (scl ord : Bool) (i j : Nat) : Option PWord :=
  if 32 * i + j / 2 < t.n then
    let y := stageOut t stg scl ord (pointsOf o.src).toArray (32 * i + j / 2)
    some ⟨if j % 2 = 0 then y.re else y.im, y.p || o.psn || o.bad.contains (32 * i + j / 2)⟩
  else none

theorem Matrix.mxWrite_mbfly {zb stg : Nat} {scl ord : Bool} {t : Twid} (hk : o.kind = .mbfly zb stg scl ord) (ht : o.twid = some t) : m.mxWrite c o =
    if c = o.base + o.stage then (m.mapRows zb (64 * t.tiles) fun i r => r.put (o.mbflyWord t stg scl ord i), o) else (m, o) := by
  simp only [Matrix.mxWrite, hk, ht]
  rfl

/-- The rows of a tile emptied. -/
def Matrix.clearTile (m : Matrix) (z : Nat) : Matrix := { m with tiles := m.tiles.filter fun kv => !(kv.1 / 64 == z) }

theorem Matrix.mxWrite_mzero {z : Nat} (hk : o.kind = .mzero z) : m.mxWrite c o =
    if c = o.base + 2 then
      (if o.psn then (m.clearTile z).mapRows z 64 fun _ _ => ⟨0, BitVec.allOnes 64⟩ else m.clearTile z, o)
    else (m, o) := by
  simp only [Matrix.mxWrite, hk]
  rfl

/-- An MBLD writes the B store and no tile (06 R125). -/
theorem Matrix.tiles_mxWrite_mbld {q b : Nat} (hk : o.kind = .mbld q b) : (m.mxWrite c o).1.tiles = m.tiles := by
  have hfold : ∀ (l : List Nat) (f : Matrix → Nat → Matrix) (m : Matrix), (∀ m i, (f m i).tiles = m.tiles) → (l.foldl f m).tiles = m.tiles := by
    intro l f m hf
    induction l generalizing m with
    | nil => rfl
    | cons i l ih => rw [List.foldl_cons, ih, hf]
  simp only [Matrix.mxWrite, hk]
  split
  · exact hfold _ _ _ fun _ _ => rfl
  · rfl

theorem Matrix.mxWrite_mzst {z q : Nat} (hk : o.kind = .mzst z q) : m.mxWrite c o = (m, o) := by simp only [Matrix.mxWrite, hk]

end Writes

/-! ## The rows that a write leaves -/

/-- At most one row is replaced. -/
def Matrix.WritesRow (m m' : Matrix) (z i : Nat) : Prop := m' = m ∨ ∃ r, m' = m.setRow z i r

theorem Matrix.WritesRow.row_ne {m m' : Matrix} {z i z' i' : Nat} (h : m.WritesRow m' z i) (hne : 64 * z' + i' ≠ 64 * z + i) : m'.row z' i' = m.row z' i' := by
  obtain rfl | ⟨r, rfl⟩ := h
  · rfl
  · exact Matrix.row_setRow_ne m r hne

/-- Rows with different places in the tiles have different keys. -/
theorem rowKey_ne {z i z' i' : Nat} (hi : i < 64) (hi' : i' < 64) (h : (z', i') ≠ (z, i)) : 64 * z' + i' ≠ 64 * z + i := by
  intro heq
  exact h (Prod.ext (by dsimp only; omega) (by dsimp only; omega))

section WritesRow
variable (m : Matrix) (c : Nat) {o : MOp}

theorem Matrix.writesRow_mma {zero : Bool} {z q b : Nat} (h : o.kind = .mma zero z q b) : m.WritesRow (m.mxWrite c o).1 z o.rowsWritten := by
  rw [Matrix.mxWrite_mma m c h]
  split
  · exact .inr ⟨_, rfl⟩
  · exact .inl rfl

theorem Matrix.writesRow_mzld {z q : Nat} (h : o.kind = .mzld z q) : m.WritesRow (m.mxWrite c o).1 z o.rowsWritten := by
  rw [Matrix.mxWrite_mzld m c h]
  split
  · exact .inr ⟨_, rfl⟩
  · exact .inl rfl

theorem Matrix.writesRow_mtrn {zd zs : Nat} (h : o.kind = .mtrn zd zs) : m.WritesRow (m.mxWrite c o).1 zd o.rowsWritten := by
  rw [Matrix.mxWrite_mtrn m c h]
  split
  · exact .inr ⟨_, rfl⟩
  · exact .inl rfl

theorem Matrix.writesRow_mzwr {z row : Nat} {h : Bool} {ft : FType} {u : VV} (hk : o.kind = .mzwr z row h ft u) :
    m.WritesRow (m.mxWrite c o).1 z row := by
  rw [Matrix.mxWrite_mzwr m c hk]
  split
  · exact .inr ⟨_, rfl⟩
  · exact .inl rfl

end WritesRow

/-! ## What the writes leave of their own rows, and what they put there -/

section Values
variable {m : Matrix} (c : Nat) {o : MOp} (hm : Tab.wf (⟨0, 0⟩ : TileRow) m.tiles = true)
include hm

/-- An MMA leaves the words from N on (06 R121). -/
theorem Matrix.word_mxWrite_mma_of_le {zero : Bool} {z q b : Nat} (h : o.kind = .mma zero z q b) (hw : o.rowsWritten < 64) {i j : Nat} (hi : i < 64)
    (hj : j < 64) (hn : o.n ≤ j) : ((m.mxWrite c o).1.row z i).word j = (m.row z i).word j := by
  by_cases heq : i = o.rowsWritten
  · rw [Matrix.mxWrite_mma m c h, heq]
    split
    · rw [Matrix.row_setRow_same hm, TileRow.put_word_of_none _ hj (if_neg (Nat.not_lt.2 hn))]
    · rfl
  · rw [(m.writesRow_mma c h).row_ne (rowKey_ne hw hi (by simpa using heq))]

/-- An MMA that writes a row puts the words of what it has computed there, poisoned under a poisoned guard (06 R127, 12 R300). -/
theorem Matrix.mxWrite_mma_of_due {zero : Bool} {z q b : Nat} (h : o.kind = .mma zero z q b) {r : TileRow} {l : List TileRow} (hacc : o.acc = r :: l)
    (hrows : o.rowsWritten < o.rowsRead) (hc : c = o.base + o.steps + 24 + o.rowsWritten) :
    (∀ j < 64, j < o.n → ((m.mxWrite c o).1.row z o.rowsWritten).word j = ⟨(r.word j).w, o.psn || (r.word j).p⟩) ∧
      (m.mxWrite c o).2.rowsWritten = o.rowsWritten + 1 ∧ (m.mxWrite c o).2.acc = l := by
  rw [Matrix.mxWrite_mma m c h, if_pos (by simpa [hrows] using hc)]
  refine ⟨fun j hj hn => ?_, rfl, by simp [hacc]⟩
  rw [Matrix.row_setRow_same hm, TileRow.put_word _ _ hj, if_pos hn, Option.getD_some, TileRow.under_word _ _ hj, hacc]
  rfl

omit hm in
/-- The half of a row that FP32 lanes do not fill stays (17 R458). -/
theorem mzwrRow_f32_word_of_ne (old : TileRow) {h : Bool} (v : BitVec 1024) (p : Word32) {j : Nat} (hj : j < 64) (hh : j / 32 ≠ bitN h) :
    (mzwrRow old h .f32 ⟨v, p⟩).word j = old.word j := by
  refine TileRow.put_word_of_none old hj ?_
  dsimp only
  rw [if_neg hh]

/-- MZWR of FP32 lanes leaves the other half of its row (17 R458). -/
theorem Matrix.word_mxWrite_mzwr_f32 {z row : Nat} {h : Bool} {u : VV} (hk : o.kind = .mzwr z row h .f32 u) {j : Nat} (hj : j < 64) (hh : j / 32 ≠ bitN h) :
    ((m.mxWrite c o).1.row z row).word j = (m.row z row).word j := by
  rw [Matrix.mxWrite_mzwr m c hk]
  split
  · rw [Matrix.row_setRow_same hm, mzwrRow_f32_word_of_ne _ u.v _ hj hh]
  · rfl

omit hm in
/-- MBFLY leaves every row outside the tiles that it covers (06 R138). -/
theorem Matrix.row_mxWrite_mbfly_ne {zb stg : Nat} {scl ord : Bool} {t : Twid} (hk : o.kind = .mbfly zb stg scl ord) (ht : o.twid = some t) {z' i : Nat}
    (hi : i < 64) (hz : z' < zb ∨ zb + t.tiles ≤ z') : (m.mxWrite c o).1.row z' i = m.row z' i := by
  have hkey : 64 * z' + i < 64 * zb ∨ 64 * zb + 64 * t.tiles ≤ 64 * z' + i := by omega
  rw [Matrix.mxWrite_mbfly m c hk ht]
  split
  · rw [Matrix.row_mapRows_ne m zb _ _ hkey]
  · rfl

/-- A word of the tiles that an MBFLY covers, in the cycle in which it writes (06 R138). -/
theorem Matrix.word_mxWrite_mbfly {zb stg : Nat} {scl ord : Bool} {t : Twid} (hk : o.kind = .mbfly zb stg scl ord) (ht : o.twid = some t)
    (hc : c = o.base + o.stage) {i j : Nat} (hi : i < 64 * t.tiles) (hj : j < 64) :
    ((m.mxWrite c o).1.row zb i).word j = (o.mbflyWord t stg scl ord i j).getD ((m.row zb i).word j) := by
  rw [Matrix.mxWrite_mbfly m c hk ht, if_pos hc, Matrix.row_mapRows hm zb _ hi, TileRow.put_word _ _ hj]

/-- MBFLY leaves the words beyond its last point (17 R424). -/
theorem Matrix.word_mxWrite_mbfly_of_le {zb stg : Nat} {scl ord : Bool} {t : Twid} (hk : o.kind = .mbfly zb stg scl ord) (ht : o.twid = some t) {i j : Nat}
    (hi : i < 64 * t.tiles) (hj : j < 64) (hn : t.n ≤ 32 * i + j / 2) : ((m.mxWrite c o).1.row zb i).word j = (m.row zb i).word j := by
  by_cases hc : c = o.base + o.stage
  · rw [Matrix.word_mxWrite_mbfly c hm hk ht hc hi hj, MOp.mbflyWord, if_neg (Nat.not_lt.2 hn), Option.getD_none]
  · rw [Matrix.mxWrite_mbfly m c hk ht, if_neg hc]

omit hm in
/-- A tile that is cleared reads zero, and the others as before. -/
theorem Matrix.row_clearTile (m : Matrix) (z z' : Nat) {i : Nat} (hi : i < 64) : (m.clearTile z).row z' i = if z' = z then ⟨0, 0⟩ else m.row z' i := by
  have hdiv : (64 * z' + i) / 64 = z' := by omega
  rw [Matrix.row, Matrix.clearTile, Tab.get_filter_key (⟨0, 0⟩ : TileRow) (fun k => !(k / 64 == z)), hdiv]
  by_cases hz : z' = z
  · simp [hz]
  · simp [hz, Matrix.row]

/-- MZERO writes zero everywhere in its tile, poisoned under a poisoned guard, and leaves the others (06 R136, 12 R300). -/
theorem Matrix.row_mxWrite_mzero {z : Nat} (hk : o.kind = .mzero z) (hc : c = o.base + 2) {i : Nat} (hi : i < 64) :
    (m.mxWrite c o).1.row z i = ⟨0, if o.psn then BitVec.allOnes 64 else 0⟩ ∧ ∀ z', z' ≠ z → (m.mxWrite c o).1.row z' i = m.row z' i := by
  have hclear : Tab.wf (⟨0, 0⟩ : TileRow) (m.clearTile z).tiles = true := Tab.wf_filter _ _ hm
  have hother : ∀ z', z' ≠ z → (m.clearTile z).row z' i = m.row z' i := fun z' hz => (m.row_clearTile z z' hi).trans (if_neg hz)
  rw [Matrix.mxWrite_mzero m c hk, if_pos hc]
  cases o.psn with
  | false => exact ⟨(m.row_clearTile z z hi).trans (if_pos rfl), hother⟩
  | true =>
    have hsame := Matrix.row_mapRows hclear z (fun _ _ => ⟨0, BitVec.allOnes 64⟩) hi
    have hframe : ∀ z', z' ≠ z → ((m.clearTile z).mapRows z 64 fun _ _ => ⟨0, BitVec.allOnes 64⟩).row z' i = (m.clearTile z).row z' i :=
      fun z' hz => Matrix.row_mapRows_ne _ z 64 _ (by omega)
    exact ⟨hsame, fun z' hz => (hframe z' hz).trans (hother z' hz)⟩

end Values

end Sys2Proof.Machine
end
section
/-! SUPPORT. Exact sums (05 R96, R97, R108 to R110): what an exact sum of values is, and that one fold of the array rounds one. -/

namespace Sys2Proof.Machine

/-! ## Values counted in units -/

theorem scaledInt_zero (s : Bool) (e q : Int) : scaledInt s 0 e q = 0 := by cases s <;> simp [scaledInt]

/-- A number counted in units of 2^q, and in smaller ones. -/
theorem scaledInt_mul_pow (s : Bool) (m : Nat) {e q p : Int} (hq : q ≤ p) (hp : p ≤ e) : scaledInt s m e p * 2 ^ (p - q).toNat = scaledInt s m e q := by
  have hexp : (e - q).toNat = (e - p).toNat + (p - q).toNat := by omega
  cases s <;> simp [scaledInt, hexp, pow_add, mul_assoc]

/-- An integer of units of 2^p as a sign and a magnitude. -/
theorem scaledInt_natAbs (v : Int) {p q : Int} : scaledInt (decide (v < 0)) v.natAbs p q = v * 2 ^ (p - q).toNat := by
  by_cases hv : v < 0
  · simp only [scaledInt, hv, decide_true, if_true, Nat.cast_mul, Nat.cast_pow, Nat.cast_ofNat, Int.ofNat_natAbs_of_nonpos hv.le]
    ring
  · simp only [scaledInt, hv, decide_false, Bool.false_eq_true, if_false, Nat.cast_mul, Nat.cast_pow, Nat.cast_ofNat, Int.natAbs_of_nonneg (Int.not_lt.1 hv)]

theorem scaledInt_true_neg {m : Nat} (hm : m ≠ 0) (e q : Int) : scaledInt true m e q < 0 := by
  have hpos : 0 < m * 2 ^ (e - q).toNat := Nat.mul_pos (Nat.pos_of_ne_zero hm) (Nat.two_pow_pos _)
  simp only [scaledInt, if_true]
  omega

theorem scaledInt_add_exp (s : Bool) (m : Nat) (e q c : Int) : scaledInt s m (e + c) q = scaledInt s m e (q - c) := by
  simp only [scaledInt, show e + c - q = e - (q - c) by ring]

/-- A finite value as an integer of units of 2^q. -/
def Val.units (q : Int) : Val → Int
  | .fin s m e => scaledInt s m e q
  | .inf _ => 0
  | .nan => 0

/-- The unit 2^q is not above the exponent of a finite value. -/
def Val.Counts (q : Int) (x : Val) : Prop := ∀ s m e, x = .fin s m e → q ≤ e

/-- A value is finite. -/
def Val.IsFin (x : Val) : Prop := ∃ s m e, x = .fin s m e

/-! ## Exact sums -/

/-- A finite value is the exact sum of finite values: counted in units that all of them count in, its integer is the sum of theirs; a zero sum is −0 where all of
them are negative (05 R96). -/
structure FinSum (s : Bool) (m : Nat) (e : Int) (ts : List Val) : Prop where
  zero : m = 0 → s = ts.all Val.sign
  negative : ts.all Val.sign = true → s = true
  unit : ∀ q, (∀ x ∈ ts, x.Counts q) → m ≠ 0 → q ≤ e
  total : ∀ q, (∀ x ∈ ts, x.Counts q) → scaledInt s m e q = (ts.map (Val.units q)).sum

/-- A value is the exact sum of values: a NaN where one of them is, or infinities of both signs are; an infinity where one is; else their finite sum (05 R97). -/
def Val.IsSum (ts : List Val) : Val → Prop
  | .nan => Val.nan ∈ ts ∨ (Val.inf false ∈ ts ∧ Val.inf true ∈ ts)
  | .inf s => Val.nan ∉ ts ∧ Val.inf s ∈ ts ∧ Val.inf (!s) ∉ ts
  | .fin s m e => (∀ x ∈ ts, x.IsFin) ∧ FinSum s m e ts

theorem not_isFin_nan : ¬Val.nan.IsFin := by simp [Val.IsFin]
theorem not_isFin_inf (s : Bool) : ¬(Val.inf s).IsFin := by simp [Val.IsFin]

/-- −0 is the sum of nothing. -/
theorem Val.isSum_nil : Val.IsSum [] (.fin true 0 0) :=
  ⟨by simp, ⟨fun _ => rfl, fun _ => rfl, fun _ _ h => absurd rfl h, fun q _ => scaledInt_zero true 0 q⟩⟩

/-- A value is the sum of itself. -/
theorem Val.isSum_singleton (x : Val) : Val.IsSum [x] x := by
  cases x with
  | nan => exact .inl (by simp)
  | inf s => exact ⟨by simp, by simp, by cases s <;> simp⟩
  | fin s m e =>
    exact ⟨by simp [Val.IsFin], ⟨fun _ => by simp [Val.sign], fun h => by simpa [Val.sign] using h, fun q hq _ => hq _ (by simp) s m e rfl,
      fun q _ => by simp [Val.units]⟩⟩

/-- The sum of two finite sums is the sum of all their terms. -/
theorem FinSum.add {s t : Bool} {m n : Nat} {e g : Int} {ts us : List Val} (h : FinSum s m e ts) (h' : FinSum t n g us) :
    ∃ r k f, (Val.fin s m e).add (.fin t n g) = .fin r k f ∧ FinSum r k f (ts ++ us) := by
  have hall : (ts ++ us).all Val.sign = (ts.all Val.sign && us.all Val.sign) := List.all_append
  have hl : ∀ {q}, (∀ x ∈ ts ++ us, x.Counts q) → ∀ x ∈ ts, x.Counts q := fun hq x hx => hq x (List.mem_append_left _ hx)
  have hr : ∀ {q}, (∀ x ∈ ts ++ us, x.Counts q) → ∀ x ∈ us, x.Counts q := fun hq x hx => hq x (List.mem_append_right _ hx)
  have hsum : ∀ q, (∀ x ∈ ts ++ us, x.Counts q) → ((ts ++ us).map (Val.units q)).sum = scaledInt s m e q + scaledInt t n g q := fun q hq => by
    rw [List.map_append, List.sum_append, h.total q (hl hq), h'.total q (hr hq)]
  by_cases hm : m = 0
  · subst hm
    by_cases hn : n = 0
    · subst hn
      refine ⟨s && t, 0, 0, by simp [Val.add], fun _ => ?_, fun hneg => ?_, fun _ _ h0 => absurd rfl h0, fun q hq => ?_⟩
      · rw [hall, ← h.zero rfl, ← h'.zero rfl]
      · rw [hall, Bool.and_eq_true] at hneg
        rw [h.negative hneg.1, h'.negative hneg.2, Bool.and_self]
      · rw [hsum q hq, scaledInt_zero, scaledInt_zero, scaledInt_zero, add_zero]
    · refine ⟨t, n, g, by simp [Val.add, hn], fun h0 => absurd h0 hn, fun hneg => ?_, fun q hq h0 => h'.unit q (hr hq) h0, fun q hq => ?_⟩
      · rw [hall, Bool.and_eq_true] at hneg
        exact h'.negative hneg.2
      · rw [hsum q hq, scaledInt_zero, zero_add]
  · by_cases hn : n = 0
    · subst hn
      refine ⟨s, m, e, by simp [Val.add, hm], fun h0 => absurd h0 hm, fun hneg => ?_, fun q hq h0 => h.unit q (hl hq) h0, fun q hq => ?_⟩
      · rw [hall, Bool.and_eq_true] at hneg
        exact h.negative hneg.1
      · rw [hsum q hq, scaledInt_zero, add_zero]
    · let p := min e g
      let v := scaledInt s m e p + scaledInt t n g p
      have hneg : (ts ++ us).all Val.sign = true → v < 0 := fun hneg => by
        rw [hall, Bool.and_eq_true] at hneg
        have hs := scaledInt_true_neg hm e p
        have ht := scaledInt_true_neg hn g p
        simp only [v, h.negative hneg.1, h'.negative hneg.2]
        omega
      refine ⟨decide (v < 0), v.natAbs, p, by simp [Val.add, hm, hn, v, p], fun h0 => ?_, fun hn => decide_eq_true (hneg hn),
        fun q hq _ => le_min (h.unit q (hl hq) hm) (h'.unit q (hr hq) hn), fun q hq => ?_⟩
      · have hv : v = 0 := Int.natAbs_eq_zero.1 h0
        by_contra hne
        have hall' : (ts ++ us).all Val.sign = true := by simpa [hv] using hne
        have := hneg hall'
        omega
      · have hqp : q ≤ p := le_min (h.unit q (hl hq) hm) (h'.unit q (hr hq) hn)
        rw [scaledInt_natAbs, hsum q hq, ← scaledInt_mul_pow s m hqp (min_le_left e g), ← scaledInt_mul_pow t n hqp (min_le_right e g), ← add_mul]

/-- A list of finite values has neither a NaN nor an infinity. -/
theorem not_mem_of_isFin {ts : List Val} (h : ∀ x ∈ ts, x.IsFin) : Val.nan ∉ ts ∧ ∀ s, Val.inf s ∉ ts :=
  ⟨fun hx => not_isFin_nan (h _ hx), fun s hx => not_isFin_inf s (h _ hx)⟩

/-- The exact sum of two sums is the sum of all their terms (05 R96, R97). -/
theorem Val.IsSum.add {v u : Val} {ts us : List Val} (h : Val.IsSum ts v) (h' : Val.IsSum us u) : Val.IsSum (ts ++ us) (v.add u) := by
  have invalid : ∀ {l : List Val}, Val.IsSum l .nan → l ⊆ ts ++ us → Val.IsSum (ts ++ us) .nan := fun hnan hsub =>
    hnan.imp (fun hx => hsub hx) fun ⟨hx, hy⟩ => ⟨hsub hx, hsub hy⟩
  have hsubl : ts ⊆ ts ++ us := List.subset_append_left ts us
  have hsubr : us ⊆ ts ++ us := List.subset_append_right ts us
  match v, u, h, h' with
  | .nan, u, h, _ => exact invalid h hsubl
  | .inf s, .nan, _, h' => exact invalid h' hsubr
  | .fin s m e, .nan, _, h' => exact invalid h' hsubr
  | .inf s, .inf t, ⟨hnan, hin, hout⟩, ⟨hnan', hin', hout'⟩ =>
    by_cases hst : s = t
    · subst hst
      simp only [Val.add, if_true]
      exact ⟨by simp [hnan, hnan'], hsubl hin, by simp [hout, hout']⟩
    · simp only [Val.add, hst, if_false]
      obtain rfl : t = !s := Bool.eq_not.2 (Ne.symm hst)
      cases s with
      | false => exact .inr ⟨hsubl hin, hsubr hin'⟩
      | true => exact .inr ⟨hsubr hin', hsubl hin⟩
  | .inf s, .fin t n g, ⟨hnan, hin, hout⟩, ⟨hfin, _⟩ =>
    obtain ⟨hnan', hinf⟩ := not_mem_of_isFin hfin
    exact ⟨by simp [hnan, hnan'], hsubl hin, by simp [hout, hinf]⟩
  | .fin s m e, .inf t, ⟨hfin, _⟩, ⟨hnan, hin, hout⟩ =>
    obtain ⟨hnan', hinf⟩ := not_mem_of_isFin hfin
    exact ⟨by simp [hnan, hnan'], hsubr hin, by simp [hout, hinf]⟩
  | .fin s m e, .fin t n g, ⟨hfin, hs⟩, ⟨hfin', hs'⟩ =>
    obtain ⟨r, k, f, heq, hsum⟩ := hs.add hs'
    rw [heq]
    exact ⟨fun x hx => (List.mem_append.1 hx).elim (hfin x) (hfin' x), hsum⟩

/-- Values added one after another. -/
theorem Val.IsSum.foldl_add {ι : Type} (f : ι → Val) (l : List ι) {v : Val} {ts : List Val} (h : Val.IsSum ts v) :
    Val.IsSum (ts ++ l.map f) (l.foldl (fun s i => s.add (f i)) v) := by
  induction l generalizing v ts with
  | nil => simpa using h
  | cons i l ih => simpa using ih (h.add (Val.isSum_singleton (f i)))

/-! ## Scale bytes (05 R109) -/

/-- A value times the power of two that a scale byte stands for; 0xFF makes a NaN of it. -/
def Val.scaleBy (b : Byte) (x : Val) : Val := if b = 0xFF then .nan else x.scale ((b.toNat : Int) - 127)

theorem Val.mul_scaleVal (x : Val) (b : Byte) : x.mul (scaleVal b) = x.scaleBy b := by
  by_cases hb : b = 0xFF
  · simp only [scaleVal, Val.scaleBy, hb, if_true]
    cases x <;> rfl
  · simp only [scaleVal, Val.scaleBy, hb, if_false]
    cases x <;> simp [Val.mul, Val.scale]

theorem Val.units_scale (q c : Int) (x : Val) : (x.scale c).units q = x.units (q - c) := by
  cases x with
  | fin s m e => exact scaledInt_add_exp s m e q c
  | inf s => rfl
  | nan => rfl

theorem Val.counts_scale {q c : Int} {x : Val} (h : (x.scale c).Counts q) : x.Counts (q - c) := by
  rintro s m e rfl
  have := h s m (e + c) rfl
  omega

@[simp] theorem Val.sign_scale (x : Val) (c : Int) : (x.scale c).sign = x.sign := by cases x <;> rfl

@[simp] theorem Val.scale_eq_nan (x : Val) (c : Int) : x.scale c = .nan ↔ x = .nan := by cases x <;> simp [Val.scale]

@[simp] theorem Val.scale_eq_inf (x : Val) (c : Int) (s : Bool) : x.scale c = .inf s ↔ x = .inf s := by cases x <;> simp [Val.scale]

theorem Val.IsFin.scale {x : Val} (h : x.IsFin) (c : Int) : (x.scale c).IsFin := by
  obtain ⟨s, m, e, rfl⟩ := h
  exact ⟨s, m, e + c, rfl⟩

/-- A sum times a power of two is the sum of its terms times that. -/
theorem Val.IsSum.scale {v : Val} {ts : List Val} (h : Val.IsSum ts v) (c : Int) : Val.IsSum (ts.map (·.scale c)) (v.scale c) := by
  have hnan : Val.nan ∈ ts.map (·.scale c) ↔ Val.nan ∈ ts := by simp
  have hinf : ∀ s, Val.inf s ∈ ts.map (·.scale c) ↔ Val.inf s ∈ ts := by simp
  cases v with
  | nan => exact h.imp hnan.2 (And.imp (hinf false).2 (hinf true).2)
  | inf s => exact ⟨mt hnan.1 h.1, (hinf s).2 h.2.1, mt (hinf (!s)).1 h.2.2⟩
  | fin s m e =>
    obtain ⟨hfin, hzero, hneg, hunit, htotal⟩ := h
    have hall : (ts.map (·.scale c)).all Val.sign = ts.all Val.sign := by simp [Function.comp_def]
    have hcounts : ∀ {q}, (∀ x ∈ ts.map (·.scale c), x.Counts q) → ∀ x ∈ ts, x.Counts (q - c) := fun hq x hx =>
      Val.counts_scale (hq _ (List.mem_map_of_mem hx))
    refine ⟨?_, by rwa [hall], by rwa [hall], fun q hq h0 => ?_, fun q hq => ?_⟩
    · intro x hx
      obtain ⟨y, hy, rfl⟩ := List.mem_map.1 hx
      exact (hfin y hy).scale c
    · have := hunit _ (hcounts hq) h0
      omega
    · rw [scaledInt_add_exp, htotal _ (hcounts hq), List.map_map]
      exact congrArg List.sum (List.map_congr_left fun x _ => (Val.units_scale q c x).symm)

/-- A sum under a scale byte is the sum of its terms under it. -/
theorem Val.IsSum.scaleBy {v : Val} {ts : List Val} (h : Val.IsSum ts v) (hne : ts ≠ []) (b : Byte) : Val.IsSum (ts.map (Val.scaleBy b)) (v.scaleBy b) := by
  by_cases hb : b = 0xFF
  · obtain ⟨x, ts, rfl⟩ := List.exists_cons_of_ne_nil hne
    simp [Val.scaleBy, hb, Val.IsSum]
  · rw [show Val.scaleBy b = (·.scale ((b.toNat : Int) - 127)) from funext fun x => if_neg hb]
    exact h.scale _

/-! ## One fold of the array (05 R108 to R110) -/

/-- The formats whose folds take n elements: two of BF16, one of FP32, a block of 32 of a narrow one. -/
def FoldsBy (at' : EType) (n : Nat) : Prop :=
  (at' = .bf16 ∧ n = 2) ∨ (at' = .f32 ∧ n = 1) ∨ ((at' = .e4m3 ∨ at' = .e5m2 ∨ at' = .e3m2 ∨ at' = .e2m1) ∧ n = 32)

/-- A value under the scale byte of an element, where its format has scale bytes. -/
def Val.scaledBy (n : Nat) (e : Elem) (x : Val) : Val := if n = 32 then x.scaleBy e.scale else x

/-- The products of fold j, under their scale bytes. -/
def foldProducts (at' bt : EType) (n : Nat) (a b : Array Elem) (j : Nat) : List Val :=
  (List.range n).map fun i => Val.scaledBy n (b.getD (n * j) .dead) (Val.scaledBy n (a.getD (n * j) .dead)
    (((a.getD (n * j + i) .dead).val at').mul ((b.getD (n * j + i) .dead).val bt)))

/-- What fold j adds to its word, before the one rounding. -/
def foldSum (at' bt : EType) (n : Nat) (a b : Array Elem) (j : Nat) : Val :=
  Val.scaledBy n (b.getD (n * j) .dead) (Val.scaledBy n (a.getD (n * j) .dead) (dot (a.map fun e => e.val at') (b.map fun e => e.val bt) (n * j) n))

theorem getD_map_val {a : Array Elem} {i : Nat} (hi : i < a.size) (t : EType) : (a.map fun e => e.val t).getD i .nan = (a.getD i .dead).val t := by
  simp [hi]

/-- The dot product of elements that are there is the exact sum of their products. -/
theorem isSum_dot (at' bt : EType) {a b : Array Elem} {lo n : Nat} (ha : lo + n ≤ a.size) (hb : lo + n ≤ b.size) :
    Val.IsSum ((List.range n).map fun i => ((a.getD (lo + i) .dead).val at').mul ((b.getD (lo + i) .dead).val bt))
      (dot (a.map fun e => e.val at') (b.map fun e => e.val bt) lo n) := by
  have hprod : ((List.range n).map fun i => ((a.getD (lo + i) .dead).val at').mul ((b.getD (lo + i) .dead).val bt)) =
      (List.range n).map fun i => ((a.map fun e => e.val at').getD (lo + i) .nan).mul ((b.map fun e => e.val bt).getD (lo + i) .nan) :=
    List.map_congr_left fun i hi => by
      have hi := List.mem_range.1 hi
      rw [getD_map_val (by omega), getD_map_val (by omega)]
  rw [hprod]
  exact Val.isSum_nil.foldl_add _ (List.range n)

/-- What a fold adds is the exact sum of its products under their scale bytes. -/
theorem isSum_foldSum (at' bt : EType) {n : Nat} {a b : Array Elem} {j : Nat} (ha : n * (j + 1) ≤ a.size) (hb : n * (j + 1) ≤ b.size) :
    Val.IsSum (foldProducts at' bt n a b j) (foldSum at' bt n a b j) := by
  rw [Nat.mul_succ] at ha hb
  have hdot := isSum_dot at' bt ha hb
  by_cases hn : n = 32
  · subst hn
    have hscaled := (hdot.scaleBy (by simp) (a.getD (32 * j) .dead).scale).scaleBy (by simp) (b.getD (32 * j) .dead).scale
    simpa [foldProducts, foldSum, Val.scaledBy, Function.comp_def] using hscaled
  · simpa [foldProducts, foldSum, Val.scaledBy, hn] using hdot

/-- A fold rounds the sum of its word and what it adds once. -/
theorem accumulate_fold {at' : EType} (bt : EType) {n : Nat} (hf : FoldsBy at' n) (a b : Array Elem) (w : Word32) (j : Nat) :
    accumulate at' bt (n * (j + 1)) w a b = rne32 ((f32 (accumulate at' bt (n * j) w a b)).add (foldSum at' bt n a b j)) := by
  have hdiv : ∀ {n : Nat}, 0 < n → ∀ j, n * j / n = j := fun hn j => Nat.mul_div_cancel_left j hn
  obtain ⟨rfl, rfl⟩ | ⟨rfl, rfl⟩ | ⟨hnarrow, rfl⟩ := hf
  · simp [accumulate, foldSum, Val.scaledBy, List.range_succ, hdiv]
  · simp [accumulate, foldSum, Val.scaledBy, List.range_succ]
  · obtain rfl | rfl | rfl | rfl := hnarrow <;>
      simp [accumulate, foldSum, Val.scaledBy, List.range_succ, hdiv, Val.mul_scaleVal]

/-- Nothing is accumulated of no elements. -/
theorem accumulate_zero {at' : EType} (bt : EType) {n : Nat} (hf : FoldsBy at' n) (a b : Array Elem) (w : Word32) : accumulate at' bt 0 w a b = w := by
  obtain ⟨rfl, -⟩ | ⟨rfl, -⟩ | ⟨rfl | rfl | rfl | rfl, -⟩ := hf <;> rfl

theorem rne32_nan : rne32 .nan = 0x7FC00000 := by decide
theorem rne32_inf (s : Bool) : rne32 (.inf s) = if s then 0xFF800000 else 0x7F800000 := by cases s <;> decide

/-- What an exact sum rounds to: the canonical NaN, an infinity, or a finite sum rounded (05 R97, R110). -/
theorem Val.IsSum.rne32 {v : Val} {ts : List Val} (h : Val.IsSum ts v) :
    (Val.nan ∈ ts ∨ (Val.inf false ∈ ts ∧ Val.inf true ∈ ts) → Machine.rne32 v = 0x7FC00000) ∧
    (∀ sign, Val.nan ∉ ts → Val.inf sign ∈ ts → Val.inf (!sign) ∉ ts → Machine.rne32 v = if sign then 0xFF800000 else 0x7F800000) ∧
    ((∀ x ∈ ts, x.IsFin) → ∃ s m e, Machine.rne32 v = Machine.rne32 (.fin s m e) ∧ FinSum s m e ts) := by
  cases v with
  | nan =>
    refine ⟨fun _ => rne32_nan, fun sign hnan _ hout => ?_, fun hfin => ?_⟩
    · obtain hx | ⟨hf, ht⟩ := h
      · exact absurd hx hnan
      · cases sign with
        | false => exact absurd ht hout
        | true => exact absurd hf hout
    · obtain ⟨hnan, hinf⟩ := not_mem_of_isFin hfin
      simp [Val.IsSum, hnan, hinf] at h
  | inf s =>
    obtain ⟨hnan, hin, hout⟩ := h
    refine ⟨?_, fun sign _ _ hout' => ?_, fun hfin => absurd hin ((not_mem_of_isFin hfin).2 s)⟩
    · rintro (hx | ⟨hf, ht⟩)
      · exact absurd hx hnan
      · cases s with
        | false => exact absurd ht hout
        | true => exact absurd hf hout
    · have hs : s = sign := by_contra fun hne => hout' (Bool.eq_not.2 hne ▸ hin)
      rw [hs, rne32_inf]
  | fin s m e =>
    obtain ⟨hfin, hsum⟩ := h
    obtain ⟨hnan, hinf⟩ := not_mem_of_isFin hfin
    exact ⟨by simp [hnan, hinf], fun sign _ hin => absurd hin (hinf sign), fun _ => ⟨s, m, e, rfl, hsum⟩⟩

/-- A word of an i8 accumulation is the old word plus the exact sum of the products, modulo 2^32 (05 R108). -/
theorem accumulate_i8 (k : Nat) (acc : Word32) (a b : Array Elem) : accumulate (.int .i8) (.int .i8) k acc a b =
    acc + BitVec.ofInt 32 (((List.range k).map fun j => IType.int .i8 (a.getD j .dead).bits * IType.int .i8 (b.getD j .dead).bits).sum) := by
  induction k with
  | zero => simp [accumulate]
  | succ k ih =>
    have hstep : accumulate (.int .i8) (.int .i8) (k + 1) acc a b =
        accumulate (.int .i8) (.int .i8) k acc a b + BitVec.ofInt 32 (IType.int .i8 (a.getD k .dead).bits * IType.int .i8 (b.getD k .dead).bits) := by
      simp [accumulate, List.range_succ]
    rw [hstep, ih, List.range_succ, List.map_append, List.sum_append, BitVec.ofInt_add, BitVec.add_assoc]
    simp

end Sys2Proof.Machine
end
section
/-! SUPPORT. What the operations of the matrix engine compute: a row of an MMA (06 R121, R123, R133), CMUL (06 R141), the points of a butterfly stage and the words
that it leaves in its tiles (06 R138, R142 to R144). -/

namespace Sys2Proof.Machine

/-! ## A row of an MMA -/

@[simp] theorem MOp.aRow_size (o : MOp) (all : Array Elem) (i : Nat) : (o.aRow all i).size = o.k := by simp [MOp.aRow]

/-- The elements of A that a row takes: group by group, each group's those of its row (06 R123). -/
theorem MOp.aRow_getD (o : MOp) (es : List Elem) (i : Nat) {k : Nat} (hk : k < o.k) :
    (o.aRow es.toArray i).getD k .dead = es.getD (k / groupSize o.at' * (o.m * groupSize o.at') + i * groupSize o.at' + k % groupSize o.at') .dead := by
  simp [MOp.aRow, hk, Array.getD_eq_getD_getElem?, List.getD_eq_getElem?_getD]

/-- A word of a row of an MMA: the sum of its column, poisoned where the old word, an element of the row or of the column, or a scale byte of the row is, or the row
is condemned (06 R133, R135). -/
theorem MOp.mmaRow_word (o : MOp) (zero : Bool) (old : TileRow) (i : Nat) {j : Nat} (hj : j < o.bcap.length) (hw : j < 64) :
    (o.mmaRow zero old i).word j =
      ⟨accumulate o.at' o.bt o.k (if zero then 0 else (old.word j).w) (o.aRow o.taken.reverse.toArray i) (o.bcap.getD j []).toArray,
        (!zero && (old.word j).p) || (o.aRow o.taken.reverse.toArray i).any (fun e => e.p || e.sp) || (o.bcap.getD j []).toArray.any (·.p) ||
          o.bad.contains i⟩ := by
  rw [MOp.mmaRow, rowOf_word _ hw, List.getD_eq_getElem?_getD, List.getElem?_map, List.getElem?_eq_getElem (by simpa using hj), Option.map_some,
    Option.getD_some, List.getElem_zipIdx, List.getD_eq_getElem _ _ hj, Nat.zero_add]

/-- An MMA that has done its steps reads a row in the cycle of that row, and computes it (06 R127). -/
theorem Core.mxRead_mma_of_due (k : Core) {c : Nat} {o : MOp} {zero : Bool} {z q b : Nat} (h : o.kind = .mma zero z q b) (hstep : o.step = o.steps)
    (hrows : o.rowsRead < o.m) (hc : c = o.base + o.steps + 23 + o.rowsRead) :
    (k.mxRead c o).2.acc = o.acc ++ [o.mmaRow zero (k.mx.row z o.rowsRead) o.rowsRead] ∧ (k.mxRead c o).2.rowsRead = o.rowsRead + 1 := by
  have hdone : ¬o.step < o.steps := by omega
  have hdue : (decide (o.rowsRead < o.m) && decide (c = o.base + o.steps + 23 + o.rowsRead)) = true := by simpa [hrows] using hc
  simp only [Core.mxRead, h, if_neg hdone, if_pos hdue, and_self]

/-! ## CMUL (06 R141) -/

section Cmul
variable {n : Nat} (inv : Bool) (u : Word32 × Word32) {e : Nat}

theorem cmul_of_whole (h : e % n = 0) : cmul n inv u e = u := if_pos h

/-- The quarter turn by which CMUL turns, counted in the direction of the transform. -/
def quarterTurn (inv : Bool) (q : Nat) : Nat := if inv && q ≠ 2 then 4 - q else q

theorem cmul_of_quarter (hw : e % n ≠ 0) (hq : 4 * e % n = 0) : cmul n inv u e =
    if quarterTurn inv (4 * e / n % 4) = 1 then (u.2, negW u.1) else if quarterTurn inv (4 * e / n % 4) = 2 then (negW u.1, negW u.2) else (negW u.2, u.1) := by
  simp only [cmul, if_neg hw, if_pos hq]
  rfl

theorem cmul_of_between (hq : 4 * e % n ≠ 0) : cmul n inv u e =
    (rne32 (((f32 u.1).mul (f32 (twiddle n inv e).1)).add (f32 (mulF u.2 (twiddle n inv e).2)).neg),
      rne32 (((f32 u.1).mul (f32 (twiddle n inv e).2)).add (f32 (mulF u.2 (twiddle n inv e).1)))) := by
  have hw : e % n ≠ 0 := fun hw => hq (Nat.mod_eq_zero_of_dvd (Dvd.dvd.mul_left (Nat.dvd_of_mod_eq_zero hw) 4))
  simp only [cmul, if_neg hw, if_neg hq]

end Cmul

/-! ## The places of a stage (06 R142) -/

theorem radixProduct_eq_prod (l : List Nat) : radixProduct l = l.prod := List.prod_eq_foldl.symm

theorem radixProduct_cons (r : Nat) (l : List Nat) : radixProduct (r :: l) = r * radixProduct l := by simp [radixProduct_eq_prod]

/-- The block, the output and the butterfly of a place of a stage. -/
theorem stage_place {r m b j p : Nat} (hj : j < m) (hp : p < r) :
    (b * (r * m) + j + p * m) / (r * m) = b ∧ (b * (r * m) + j + p * m) % (r * m) / m = p ∧ (b * (r * m) + j + p * m) % m = j := by
  have hlt : j + p * m < r * m := by nlinarith
  have hpos : 0 < r * m := by omega
  have hplace : b * (r * m) + j + p * m = j + p * m + r * m * b := by ring
  have hmod : (b * (r * m) + j + p * m) % (r * m) = j + p * m := by rw [hplace, Nat.add_mul_mod_self_left, Nat.mod_eq_of_lt hlt]
  refine ⟨?_, ?_, ?_⟩
  · rw [hplace, Nat.add_mul_div_left _ _ hpos, Nat.div_eq_of_lt hlt, Nat.zero_add]
  · rw [hmod, Nat.add_mul_div_right _ _ (by omega), Nat.div_eq_of_lt hj, Nat.zero_add]
  · rw [show b * (r * m) + j + p * m = j + (b * r + p) * m by ring, Nat.add_mul_mod_self_right, Nat.mod_eq_of_lt hj]

/-- The point that rows hold at a place (06 R138). -/
def pointAt (rows : List TileRow) (k : Nat) : Point :=
  let r := rows.getD (k / 32) ⟨0, 0⟩
  ⟨(r.word (2 * (k % 32))).w, (r.word (2 * (k % 32) + 1)).w, (r.word (2 * (k % 32))).p || (r.word (2 * (k % 32) + 1)).p⟩

theorem pointAt_nil (k : Nat) : pointAt [] k = ⟨0, 0, false⟩ := by simp [pointAt, TileRow.word]

theorem pointAt_cons_of_lt (r : TileRow) (rows : List TileRow) {k : Nat} (hk : k < 32) : pointAt (r :: rows) k = pointAt [r] k := by
  simp [pointAt, Nat.div_eq_of_lt hk]

theorem pointAt_cons_add (r : TileRow) (rows : List TileRow) (k : Nat) : pointAt (r :: rows) (k + 32) = pointAt rows k := by
  simp [pointAt, Nat.add_div_right]

theorem pointsOf_cons (r : TileRow) (rows : List TileRow) : pointsOf (r :: rows) = ((List.range 32).map (pointAt [r])) ++ pointsOf rows := by
  have hrow : ∀ k ∈ List.range 32, pointAt [r] k = ⟨(r.word (2 * k)).w, (r.word (2 * k + 1)).w, (r.word (2 * k)).p || (r.word (2 * k + 1)).p⟩ := fun k hk => by
    have hk := List.mem_range.1 hk
    simp [pointAt, Nat.div_eq_of_lt hk, Nat.mod_eq_of_lt hk]
  rw [List.map_congr_left hrow]
  rfl

/-- The points of a transform, place by place; there is none beyond the rows. -/
theorem pointsOf_getD : ∀ (rows : List TileRow) (k : Nat), (pointsOf rows).getD k ⟨0, 0, false⟩ = pointAt rows k
  | [], k => by rw [pointAt_nil]; rfl
  | r :: rows, k => by
    rw [pointsOf_cons]
    obtain hk | ⟨i, rfl⟩ : k < 32 ∨ ∃ i, k = i + 32 := (Nat.lt_or_ge k 32).imp_right fun h => ⟨k - 32, by omega⟩
    · rw [pointAt_cons_of_lt r rows hk, List.getD_append _ _ _ _ (by simpa using hk)]
      simp [List.getD_eq_getElem?_getD, hk]
    · rw [pointAt_cons_add, ← pointsOf_getD rows i, List.getD_append_right _ _ _ _ (by simp)]
      simp

theorem pointsOf_toArray_getD (rows : List TileRow) (k : Nat) : (pointsOf rows).toArray.getD k ⟨0, 0, false⟩ = pointAt rows k := by
  rw [← pointsOf_getD, Array.getD_eq_getD_getElem?, List.getD_eq_getElem?_getD, List.getElem?_toArray]

/-- Output p of butterfly (b, j) of a stage whose points were read as `point` gives them (06 R142, R143). -/
def butterfly (t : Twid) (stg : Nat) (scl : Bool) (point : Nat → Point) (b j p : Nat) : Point :=
  let r := t.rad.getD stg 2
  let ns := radixProduct (t.rad.drop stg)
  let u := fun q => point (b * ns + j + q * (ns / r))
  let sum := (List.range' 1 (r - 1)).foldl (fun (acc : Word32 × Word32) q =>
    let x := cmul t.n t.inv ((u q).re, (u q).im) (p * q % r * (t.n / r))
    (addW acc.1 x.1, addW acc.2 x.2)) ((u 0).re, (u 0).im)
  let y := cmul t.n t.inv (if scl then (mulF sum.1 (radixScale r), mulF sum.2 (radixScale r)) else sum) (j * p * (t.n / ns))
  ⟨y.1, y.2, (List.range r).any fun q => (u q).p⟩

/-- A stage gives at a place the output of its butterfly. -/
theorem stagePoint_eq_butterfly (t : Twid) (stg : Nat) (scl : Bool) (rows : List TileRow) (n : Nat) :
    let r := t.rad.getD stg 2
    let ns := radixProduct (t.rad.drop stg)
    stagePoint t stg scl (pointsOf rows).toArray n = butterfly t stg scl (pointAt rows) (n / ns) (n % (ns / r)) (n % ns / (ns / r)) := by
  intro r ns
  simp only [stagePoint, butterfly, pointsOf_toArray_getD, List.range'_eq_map_range, List.foldl_map, Nat.add_comm 1]
  rfl

/-! ## The reversed place (06 R144) -/

/-- A place with its digits taken last to first, and the place itself. -/
theorem undrev_digits : ∀ (rad d : List Nat), d.length = rad.length → (∀ i < d.length, d.getD i 0 < rad.getD i 0) →
    undrev rad ((List.range d.length).map fun i => d.getD i 0 * radixProduct (rad.take i)).sum =
      ((List.range d.length).map fun i => d.getD i 0 * radixProduct (rad.drop (i + 1))).sum ∧
    ((List.range d.length).map fun i => d.getD i 0 * radixProduct (rad.take i)).sum < radixProduct rad
  | [], [], _, _ => by simp [undrev, radixProduct]
  | r :: rad, c :: d, hlen, hlt => by
    have hc : c < r := by simpa using hlt 0 (by simp)
    obtain ⟨hrev, hbound⟩ := undrev_digits rad d (by simpa using hlen) fun i hi => by simpa using hlt (i + 1) (by simpa using hi)
    have htake : ((List.range (d.length + 1)).map fun i => (c :: d).getD i 0 * radixProduct ((r :: rad).take i)).sum =
        c + r * ((List.range d.length).map fun i => d.getD i 0 * radixProduct (rad.take i)).sum := by
      rw [List.range_succ_eq_map, List.map_cons, List.map_map, List.sum_cons, ← List.sum_map_mul_left]
      simp [radixProduct_eq_prod, Function.comp_def, Nat.mul_left_comm]
    have hdrop : ((List.range (d.length + 1)).map fun i => (c :: d).getD i 0 * radixProduct ((r :: rad).drop (i + 1))).sum =
        c * radixProduct rad + ((List.range d.length).map fun i => d.getD i 0 * radixProduct (rad.drop (i + 1))).sum := by
      rw [List.range_succ_eq_map, List.map_cons, List.map_map, List.sum_cons]
      simp [Function.comp_def]
    rw [List.length_cons, htake, hdrop]
    refine ⟨?_, ?_⟩
    · rw [undrev, Nat.add_mul_mod_self_left, Nat.mod_eq_of_lt hc, Nat.add_mul_div_left _ _ (by omega), Nat.div_eq_of_lt hc, Nat.zero_add, hrev]
    · rw [radixProduct_cons]
      nlinarith

/-! ## The words of a butterfly stage -/

section Stage
variable {x : Matrix} {o : MOp} {zb stg : Nat} {scl ord : Bool} {t : Twid}

/-- A point stands at a place of a transform in the tiles from zb on, both of its words with its poison. -/
def Matrix.PointStands (m : Matrix) (t : Twid) (zb n : Nat) (y : Point) : Prop :=
  n < t.n ∧ let row := m.row zb (n / 32)
    row.word (2 * (n % 32)) = ⟨y.re, y.p⟩ ∧ row.word (2 * (n % 32) + 1) = ⟨y.im, y.p⟩

/-- A point as an MBFLY writes it at a place: poisoned under a poisoned guard, and where the place is condemned (06 R133, R135). -/
def MOp.written (o : MOp) (n : Nat) (y : Point) : Point := { y with p := y.p || o.psn || o.bad.contains n }

/-- Every place of a transform holds what its stage gives there once it has been written. -/
theorem Matrix.pointStands_mxWrite (hm : Tab.wf (⟨0, 0⟩ : TileRow) x.tiles = true) (hk : o.kind = .mbfly zb stg scl ord) (ht : o.twid = some t) {n : Nat}
    (hn : n < t.n) : (x.mxWrite (o.base + o.stage) o).1.PointStands t zb n (o.written n (stageOut t stg scl ord (pointsOf o.src).toArray n)) := by
  have hrow : n / 32 < 64 * t.tiles := by simp only [Twid.tiles]; omega
  have hplace : 32 * (n / 32) + 2 * (n % 32) / 2 = n ∧ 32 * (n / 32) + (2 * (n % 32) + 1) / 2 = n := by omega
  refine ⟨hn, ?_, ?_⟩
  · rw [Matrix.word_mxWrite_mbfly _ hm hk ht rfl hrow (by omega), MOp.mbflyWord, hplace.1, if_pos hn, Option.getD_some, if_pos (by omega)]
    rfl
  · rw [Matrix.word_mxWrite_mbfly _ hm hk ht rfl hrow (by omega), MOp.mbflyWord, hplace.2, if_pos hn, Option.getD_some, if_neg (by omega)]
    rfl

/-- The radix of a stage divides what its block holds. -/
theorem radixProduct_drop {rad : List Nat} (hs : stg < rad.length) (hr : 0 < rad.getD stg 2) :
    radixProduct (rad.drop stg) = rad.getD stg 2 * (radixProduct (rad.drop stg) / rad.getD stg 2) := by
  have hcons : rad.drop stg = rad.getD stg 2 :: rad.drop (stg + 1) := by rw [List.drop_eq_getElem_cons hs, List.getD_eq_getElem _ _ hs]
  rw [hcons, radixProduct_cons, Nat.mul_div_cancel_left _ hr]

/-- A place of a stage is one of the transform's. -/
theorem stage_place_lt {r m n b j p : Nat} (hb : b < n / (r * m)) (hj : j < m) (hp : p < r) : b * (r * m) + j + p * m < n := by
  have hblock : (b + 1) * (r * m) ≤ n := (Nat.mul_le_mul_right _ hb).trans (Nat.div_mul_le_self n _)
  nlinarith

/-- At the place of output p of butterfly (b, j), a stage gives that output. -/
theorem stagePoint_of_place (hs : stg < t.rad.length) (hr : 0 < t.rad.getD stg 2) (rows : List TileRow) {b j p : Nat}
    (hj : j < radixProduct (t.rad.drop stg) / t.rad.getD stg 2) (hp : p < t.rad.getD stg 2) :
    stagePoint t stg scl (pointsOf rows).toArray (b * radixProduct (t.rad.drop stg) + j + p * (radixProduct (t.rad.drop stg) / t.rad.getD stg 2)) =
      butterfly t stg scl (pointAt rows) b j p := by
  have hns := radixProduct_drop hs hr
  obtain ⟨hblock, hout, hfly⟩ := stage_place (b := b) hj hp
  rw [← hns] at hblock hout hfly
  rw [stagePoint_eq_butterfly, hblock, hout, hfly]

section Place
variable (hm : Tab.wf (⟨0, 0⟩ : TileRow) x.tiles = true) (hk : o.kind = .mbfly zb stg scl ord) (ht : o.twid = some t) (hs : stg < t.rad.length)
  (hr : 0 < t.rad.getD stg 2) {b j p : Nat} (hj : j < radixProduct (t.rad.drop stg) / t.rad.getD stg 2)
  (hp : p < t.rad.getD stg 2)
include hm hk ht hs hr hj hp

/-- Without ORD, output p of butterfly (b, j) stands at its own place (06 R142). -/
theorem Matrix.pointStands_of_place (hb : b < t.n / radixProduct (t.rad.drop stg)) (hord : ord = false) :
    let n := b * radixProduct (t.rad.drop stg) + j + p * (radixProduct (t.rad.drop stg) / t.rad.getD stg 2)
    (x.mxWrite (o.base + o.stage) o).1.PointStands t zb n (o.written n (butterfly t stg scl (pointAt o.src) b j p)) := by
  intro n
  have hns := radixProduct_drop hs hr
  have hn : n < t.n := by
    have hlt := stage_place_lt (hns ▸ hb) hj hp
    rwa [← hns] at hlt
  have hstands := Matrix.pointStands_mxWrite hm hk ht hn
  rwa [stageOut, hord, if_neg Bool.false_ne_true, stagePoint_of_place hs hr o.src hj hp] at hstands

/-- With ORD it stands at the place that has its digits last to first (06 R144). -/
theorem Matrix.pointStands_of_reversed (hprod : radixProduct t.rad = t.n) (hord : ord = true) {d : List Nat} (hlen : d.length = t.rad.length)
    (hdigits : ∀ i < d.length, d.getD i 0 < t.rad.getD i 0)
    (hplace : b * radixProduct (t.rad.drop stg) + j + p * (radixProduct (t.rad.drop stg) / t.rad.getD stg 2) =
      ((List.range d.length).map fun i => d.getD i 0 * radixProduct (t.rad.drop (i + 1))).sum) :
    let n := ((List.range d.length).map fun i => d.getD i 0 * radixProduct (t.rad.take i)).sum
    (x.mxWrite (o.base + o.stage) o).1.PointStands t zb n (o.written n (butterfly t stg scl (pointAt o.src) b j p)) := by
  intro n
  obtain ⟨hrev, hbound⟩ := undrev_digits t.rad d hlen hdigits
  have hstands := Matrix.pointStands_mxWrite hm hk ht (hbound.trans_eq hprod)
  rwa [stageOut, hord, if_pos rfl, hrev, ← hplace, stagePoint_of_place hs hr o.src hj hp] at hstands

end Place

end Stage

/-- Settles O33: the frame and the values of each write by its lemmas, the sums by `Val.IsSum`, a butterfly stage place by place. -/
theorem matrixWritesStayInTheirTile : Obligations.MatrixWritesStayInTheirTile := by
  unfold Obligations.MatrixWritesStayInTheirTile
  refine ⟨fun m c o hm => ⟨?_, ?_, ?_, ?_, ?_, ?_, ?_, ?_, ?_⟩, accumulate_i8, fun at' bt n a b w hf => ⟨accumulate_zero bt hf a b w, ?_⟩, fun o zero old i => ?_,
    fun k m c o zero z q b hk hm => ⟨fun hstep hrows hc => k.mxRead_mma_of_due hk hstep hrows hc, fun r l hacc hrows hc => m.mxWrite_mma_of_due c hm hk hacc hrows hc⟩,
    fun n inv u e hn => ?_, ⟨rfl, rfl, rfl, rfl, rfl⟩, fun x o zb stg scl ord t hk ht hm hprod hrad hs hsrc => ?_⟩
  · exact fun zero z q b hk hw z' i hi hz => (m.writesRow_mma c hk).row_ne (rowKey_ne hw hi (by simp [hz]))
  · exact fun z q hk hw z' i hi hz => (m.writesRow_mzld c hk).row_ne (rowKey_ne hw hi hz)
  · exact fun zd zs hk hw z' i hi hz => (m.writesRow_mtrn c hk).row_ne (rowKey_ne hw hi hz)
  · exact fun zb stg scl ord t hk ht => ⟨fun z' i hi hz => m.row_mxWrite_mbfly_ne c hk ht hi hz,
      fun i hi j hj hn => Matrix.word_mxWrite_mbfly_of_le c hm hk ht hi hj hn⟩
  · exact fun z row h u hk _ j hj hh => Matrix.word_mxWrite_mzwr_f32 c hm hk hj hh
  · rintro q b (hk | hk)
    · exact m.tiles_mxWrite_mbld c hk
    · rw [m.mxWrite_mzst c hk]
  · exact fun zero z q b hk hw i hi j hj hn => Matrix.word_mxWrite_mma_of_le c hm hk hw hi hj hn
  · exact fun z row h f u hk hrow z' i hi hz => (m.writesRow_mzwr c hk).row_ne (rowKey_ne hrow hi hz)
  · exact fun z hk hc i hi => Matrix.row_mxWrite_mzero c hm hk hc hi
  · intro j ha hb
    have hsum := (Val.isSum_singleton (f32 (accumulate at' bt (n * j) w a b))).add (isSum_foldSum at' bt ha hb)
    obtain ⟨hnan, hinf, hfin⟩ := hsum.rne32
    rw [← accumulate_fold bt hf] at hnan hinf hfin
    refine ⟨hnan, hinf, fun hall => ?_⟩
    obtain ⟨s, m, e, heq, hzero, -, -, htotal⟩ := hfin hall
    exact ⟨s, m, e, heq, hzero, fun q _ hq => htotal q hq⟩
  · intro a g
    have hg : g = groupSize o.at' := by
      simp only [g]
      cases o.at' <;> rfl
    rw [hg]
    exact ⟨o.aRow_size _ i, fun k hk => o.aRow_getD _ i hk, fun j hj hw => o.mmaRow_word zero old i hj hw⟩
  · intro minus quarter
    refine ⟨cmul_of_whole inv u, fun ⟨hw, hq, hturn⟩ => ?_, fun ⟨hw, hq, hturn⟩ => ?_, fun ⟨hw, hq, hturn⟩ => ?_, cmul_of_between inv u⟩ <;>
      rw [cmul_of_quarter inv u hw hq, hturn]
    · simp [quarterTurn, minus, negW]
    · cases inv <;> simp [quarterTurn, minus, negW]
    · cases inv <;> simp [quarterTurn, minus, negW]
  · intro r ns m point b j p hb hj hp u value sum y psn n stands
    have hr : 0 < t.rad.getD stg 2 := by
      have hmem : t.rad.getD stg 2 ∈ t.rad := by rw [List.getD_eq_getElem _ _ hs]; exact List.getElem_mem hs
      have := hrad _ hmem
      omega
    exact ⟨fun hord => Matrix.pointStands_of_place hm hk ht hs hr hj hp hb hord, fun hord d hlen hdigits hplace =>
      Matrix.pointStands_of_reversed hm hk ht hs hr hj hp hprod hord hlen hdigits hplace⟩

end Sys2Proof.Machine
end
section
/-! SUPPORT. What the accesses of memory, and what follows the completion of a command, leave of the cores and the slices. -/

namespace Sys2Proof.Machine

/-! ## What stays of a core -/

/-- A context keeps its registers, and its task where it has one. -/
structure Ctx.Stays (x x' : Ctx) : Prop where
  regs : x'.regs = x.regs
  empty : x'.st = .empty ↔ x.st = .empty

theorem Ctx.Stays.refl (x : Ctx) : x.Stays x := ⟨rfl, Iff.rfl⟩
theorem Ctx.Stays.trans {x y z : Ctx} (h : x.Stays y) (h' : y.Stays z) : x.Stays z := ⟨h'.regs.trans h.regs, h'.empty.trans h.empty⟩

/-- A context that becomes READY was BLOCKED. -/
theorem Ctx.Stays.ready (x : Ctx) (now : Nat) : x.Stays (x.ready now) := by
  unfold Ctx.ready
  split
  · next h => exact ⟨rfl, by simp [h]⟩
  · exact .refl x

theorem Ctx.Stays.release (x : Ctx) (now : Nat) : x.Stays (x.release now) := by
  unfold Ctx.release
  split
  · exact .ready x now
  · exact .refl x

theorem Ctx.Stays.wake (x : Ctx) (now : Nat) : x.Stays (x.wake now) := by
  unfold Ctx.wake
  split
  · exact .ready x now
  · exact .refl x

/-- Every context of a core stays. -/
def Core.CtxsStay (k k' : Core) : Prop := ∀ n x, k.ctx? n = some x → ∃ x', k'.ctx? n = some x' ∧ x.Stays x'

theorem Core.CtxsStay.of_eq {k k' : Core} (h : k'.ctxs = k.ctxs) : k.CtxsStay k' := fun n x hx => ⟨x, by rw [Core.ctx?, h]; exact hx, .refl x⟩

theorem Core.CtxsStay.trans {k l m : Core} (h : k.CtxsStay l) (h' : l.CtxsStay m) : k.CtxsStay m := fun n x hx => by
  obtain ⟨y, hy, hxy⟩ := h n x hx
  obtain ⟨z, hz, hyz⟩ := h' n y hy
  exact ⟨z, hz, hxy.trans hyz⟩

/-- A core of which one context is replaced by one that it stays. -/
theorem Core.CtxsStay.setCtx {k : Core} {n : Nat} {x x' : Ctx} (hx : k.ctx? n = some x) (h : x.Stays x') : k.CtxsStay (k.setCtx n x') := fun m y hy => by
  by_cases hm : m = n
  · subst hm
    obtain rfl : x = y := Option.some.inj (hx.symm.trans hy)
    exact ⟨x', Core.ctx?_setCtx_same k m x', h⟩
  · exact ⟨y, (Core.ctx?_setCtx_ne k x' hm).trans hy, .refl y⟩

/-- Every entry of a table changed. -/
theorem Tab.get_map {α β : Type} (f : Nat → α → β) (m : Tab (Option α)) (n : Nat) :
    Tab.get none (m.map fun kv => (kv.1, kv.2.map (f kv.1))) n = (Tab.get none m n).map (f n) := by
  induction m with
  | nil => rfl
  | cons a m ih =>
    obtain ⟨j, v⟩ := a
    by_cases hj : j = n
    · simp [Tab.get, hj]
    · simpa [Tab.get, hj] using ih

theorem Core.ctx?_mapCtxs (k : Core) (f : Nat → Ctx → Ctx) (n : Nat) : (k.mapCtxs f).ctx? n = (k.ctx? n).map (f n) := Tab.get_map f k.ctxs n

theorem Core.CtxsStay.mapCtxs (k : Core) {f : Nat → Ctx → Ctx} (hf : ∀ n x, Ctx.Stays x (f n x)) : k.CtxsStay (k.mapCtxs f) := fun n x hx =>
  ⟨f n x, by rw [Core.ctx?_mapCtxs, hx, Option.map_some], hf n x⟩

/-- Of a core, its stash, its TLB and its contexts alone may have changed, and the contexts stay. -/
structure Core.Stays (k k' : Core) : Prop where
  rest : k' = { k with ctxs := k'.ctxs, stash := k'.stash, tlb := k'.tlb }
  ctxs : k.CtxsStay k'

namespace Core.Stays

theorem refl (k : Core) : k.Stays k := ⟨rfl, .of_eq rfl⟩
theorem trans {k l m : Core} (h : k.Stays l) (h' : l.Stays m) : k.Stays m := ⟨by rw [h'.rest, h.rest], h.ctxs.trans h'.ctxs⟩

/-- Another stash and another TLB. -/
theorem memory (k : Core) (stash : Stash) (tlb : List TlbEntry) : k.Stays { k with stash := stash, tlb := tlb } := ⟨rfl, .of_eq rfl⟩

theorem mapCtxs (k : Core) {f : Nat → Ctx → Ctx} (hf : ∀ n x, Ctx.Stays x (f n x)) : k.Stays (k.mapCtxs f) := ⟨rfl, .mapCtxs k hf⟩

section
variable {k k' : Core} (h : k.Stays k')
include h

theorem sems : k'.sems = k.sems := by rw [h.rest]
theorem mx : k'.mx = k.mx := by rw [h.rest]
theorem sregs : k'.sregs = k.sregs := by rw [h.rest]
theorem qcmds : k'.qcmds = k.qcmds := by rw [h.rest]
theorem grid : k'.grid = k.grid := by rw [h.rest]
theorem sem (n : Nat) : k'.sem n = k.sem n := by rw [Core.sem, h.sems, Core.sem]
theorem sreg (q : Nat) : k'.sreg q = k.sreg q := by rw [Core.sreg, h.sregs, Core.sreg]

end

end Core.Stays

/-! ## What stays of the machine -/

/-- Time is the same, every core stays, and every slice is there. -/
structure State.Stays (s t : State) : Prop where
  cycle : t.cycle = s.cycle
  cores : ∀ c k, s.core? c = some k → ∃ k', t.core? c = some k' ∧ k.Stays k'
  slices : ∀ n, (s.slice? n).isSome = true → (t.slice? n).isSome = true

namespace State.Stays

/-- What changes neither time nor the cores nor the slices. -/
theorem of_eq {s t : State} (hcycle : t.cycle = s.cycle) (hcores : t.cores = s.cores) (hslices : t.slices = s.slices) : s.Stays t where
  cycle := hcycle
  cores c k hk := ⟨k, by rw [State.core?, hcores]; exact hk, .refl k⟩
  slices n h := by rw [State.slice?, hslices]; exact h

theorem refl (s : State) : s.Stays s := of_eq rfl rfl rfl

theorem trans {s t u : State} (h : s.Stays t) (h' : t.Stays u) : s.Stays u where
  cycle := h'.cycle.trans h.cycle
  cores c k hk := by
    obtain ⟨l, hl, hkl⟩ := h.cores c k hk
    obtain ⟨m, hm, hlm⟩ := h'.cores c l hl
    exact ⟨m, hm, hkl.trans hlm⟩
  slices n hn := h'.slices n (h.slices n hn)

/-- A fold each step of which keeps the rest keeps it. -/
theorem forEach {α : Type} {f : State → α → State} (h : ∀ (s : State) (x : α), s.Stays (f s x)) (l : List α) (s : State) : s.Stays (s.forEach l f) :=
  State.forEach_keeps (fun t => s.Stays t) (fun t x ht => ht.trans (h t x)) l s (refl s)

/-- The state of a pair that an operation answers. -/
theorem fst {α : Type} {s t : State} {a : α} {r : State × α} (h : s.Stays r.1) (he : r = (t, a)) : s.Stays t := by
  subst he
  exact h

theorem ctx? {s t : State} (h : s.Stays t) {c n : Nat} {x : Ctx} (hx : s.ctx? c n = some x) : ∃ x', t.ctx? c n = some x' ∧ x.Stays x' := by
  obtain ⟨k, hk, hx⟩ := Option.bind_eq_some_iff.1 hx
  obtain ⟨k', hk', hkk⟩ := h.cores c k hk
  obtain ⟨x', hx', hxx⟩ := hkk.ctxs n x hx
  exact ⟨x', by rw [State.ctx?, hk']; exact hx', hxx⟩

/-! ## Updates -/

theorem updPart (s : State) (p : Nat) (f : Part → Part) : s.Stays (s.updPart p f) := of_eq (by simp) (by simp) (by simp)
theorem updLaunch (s : State) (l : Nat) (f : Launch → Launch) : s.Stays (s.updLaunch l f) := of_eq (by simp) (by simp) (by simp)
theorem updCluster (s : State) (c : Nat) (f : Cluster → Cluster) : s.Stays (s.updCluster c f) := of_eq (by simp) (by simp) (by simp)
theorem post (s : State) (d : Nat) (e : Event) : s.Stays (s.post d e) := of_eq rfl rfl rfl
theorem postOnce (s : State) (d : Nat) (e : Event) : s.Stays (s.postOnce d e) := of_eq (by simp) (by simp) (by simp)
theorem postOpen (s : State) (d : Nat) (e : Event) : s.Stays (s.postOpen d e) := of_eq rfl rfl rfl

theorem updSlice (s : State) (n : Nat) (f : Slice → Slice) : s.Stays (s.updSlice n f) where
  cycle := by simp
  cores c k hk := ⟨k, by rw [State.core?, State.updSlice_cores]; exact hk, .refl k⟩
  slices m hm := by
    by_cases h : m = n
    · rwa [h, State.slice?_updSlice_same, Option.isSome_map, ← h]
    · rwa [State.slice?_updSlice_ne s f h]

theorem updCore (s : State) (c : Nat) {f : Core → Core} (hf : ∀ k, s.core? c = some k → k.Stays (f k)) : s.Stays (s.updCore c f) where
  cycle := by simp
  cores c' k hk := by
    by_cases h : c' = c
    · subst h
      exact ⟨f k, by rw [State.core?_updCore_same, hk, Option.map_some], hf k hk⟩
    · exact ⟨k, (State.core?_updCore_ne s f h).trans hk, .refl k⟩
  slices m hm := by rw [State.slice?, State.updCore_slices]; exact hm

theorem updCtx (s : State) (c n : Nat) {f : Ctx → Ctx} (hf : ∀ x, Ctx.Stays x (f x)) : s.Stays (s.updCtx c n f) :=
  updCore s c fun k _ => by
    split
    · exact .refl k
    · next x hx => exact ⟨rfl, .setCtx hx (hf x)⟩

theorem setModule (s : State) (m : Module) : s.Stays { s with module := m } := of_eq rfl rfl rfl
theorem setOwner (s : State) (owner : Tab Nat) : s.Stays { s with owner := owner } := of_eq rfl rfl rfl
theorem setFree (s : State) (n : Nat) : s.Stays { s with free := n } := of_eq rfl rfl rfl
theorem setSeal (s : State) (sec k : Nat) : s.Stays (s.seal sec k) := of_eq rfl rfl rfl

/-! ## Notices, owners, keys -/

theorem wakeControl (s : State) (p : Nat) : s.Stays (s.wakeControl p) := by
  unfold State.wakeControl
  split
  · exact refl s
  · refine updCtx s _ _ fun x => ?_
    split
    · exact .ready x _
    · exact .refl x

theorem notice (s : State) (p cause : Nat) (info : Word64) : s.Stays (s.notice p cause info) := (updPart s p _).trans (wakeControl _ p)

theorem revoke (s : State) (own pa : Nat) : s.Stays (s.revoke own pa) := by
  unfold State.revoke
  dsimp only
  split
  · exact refl s
  · split
    · exact updCore s _ fun k _ => .memory k _ _
    · exact forEach (fun s t => updCore s _ fun k _ => .memory k _ _) _ s

theorem mapCores (s : State) {f : Core → Core} (hf : ∀ k : Core, k.Stays (f k)) : s.Stays { s with cores := s.cores.map fun kv => (kv.1, kv.2.map f) } where
  cycle := rfl
  cores c k hk := ⟨f k, (Tab.get_map (fun _ => f) s.cores c).trans (congrArg _ hk), hf k⟩
  slices _ h := h

theorem dropDomainRows (s : State) (p e : Nat) : s.Stays (s.dropDomainRows p e) := mapCores s fun k => .memory k _ _

theorem abortLaunch (s : State) (l : Nat) : s.Stays (s.abortLaunch l) := (updLaunch s l _).trans (post _ _ _)

theorem abortAll (s : State) (p : Nat) : s.Stays (s.abortAll p) := (forEach abortLaunch _ s).trans (postOnce _ _ _)

theorem startSparing (s : State) (sec : Nat) : s.Stays (s.startSparing sec) := by
  unfold State.startSparing
  dsimp only
  split
  · exact setModule s _
  · split
    · exact setModule s _
    · exact (setModule s _).trans (notice _ _ _ _)

theorem countCorrected (s : State) (sec : Nat) : s.Stays (s.countCorrected sec) := by
  unfold State.countCorrected
  dsimp only
  split
  · exact setModule s _
  · split
    · exact setModule s _
    · exact (setModule s _).trans (startSparing _ sec)

/-! ## Lines -/

theorem setHbmWord (s : State) (pa : Nat) (w : PWord) : s.Stays (s.setHbmWord pa w) := by
  have hbyte : ∀ (s : State) (i : Nat), s.Stays (s.setHbmByte (pa + i) (w.w.extractLsb' (8 * i) 8)) := fun s i => of_eq (by simp) (by simp) (by simp)
  exact (forEach hbyte (List.range 4) s).trans (of_eq rfl rfl rfl)

theorem writeSector (s : State) (x : Line) (i : Nat) : s.Stays (s.writeSector x i) := by
  unfold State.writeSector
  dsimp only
  refine trans ?_ (setSeal _ _ _)
  refine trans ?_ (forEach (fun s j => setHbmWord s _ _) _ _)
  refine trans ?_ (setOwner _ _)
  split
  · exact refl s
  · exact forEach (fun s j => revoke s _ _) _ s

theorem writeLine (s : State) (x : Line) : s.Stays (s.writeLine x) :=
  forEach (fun s i => by split; exacts [writeSector s x i, refl s]) _ s

theorem leaveLine (s : State) (n : Nat) (x : Line) : s.Stays (s.leaveLine n x) := (updSlice s n _).trans (writeLine _ x)

theorem leaveLines (s : State) (n : Nat) (sel : Line → Bool) : s.Stays (s.leaveLines n sel) := by
  unfold State.leaveLines
  split
  · exact refl s
  · exact forEach (fun s x => leaveLine s n x) _ s

theorem placeLine (s : State) (n : Nat) (x : Line) (allowed : List Nat) (retained : Bool) : s.Stays (s.placeLine n x allowed retained) := by
  unfold State.placeLine
  split
  · exact writeLine s x
  · next v _ =>
    refine trans ?_ (updSlice _ n _)
    cases v with
    | none => exact setFree s _
    | some y => exact (leaveLine s n y).trans (setFree _ _)

theorem setLine (s : State) (n : Nat) (y : Line) : s.Stays (s.setLine n y) := by
  unfold State.setLine
  split
  · exact writeLine s y
  · split
    · exact updSlice s n _
    · exact writeLine s y

theorem eraseDomain (s : State) (p e : Nat) : s.Stays (s.eraseDomain p e) :=
  ((forEach (fun s n => leaveLines s n _) _ s).trans (dropDomainRows _ p e)).trans (updPart _ p _)

theorem fence (s : State) (p : Nat) : s.Stays (s.fence p) := ((updPart s p _).trans (forEach (fun s e => eraseDomain s p e) _ _)).trans (abortAll _ p)

theorem countIntegrity (s : State) (p : Nat) : s.Stays (s.countIntegrity p) := by
  unfold State.countIntegrity
  split
  · exact refl s
  · dsimp only
    split
    · exact (updPart s p _).trans (fence _ p)
    · exact updPart s p _

/-! ## Home memory -/

theorem checkSector (s : State) (a : Access) (sec : Nat) : s.Stays (s.checkSector a sec).1 := by
  have hfails : ∀ info, s.Stays ((s.notice a.part 0x13 info).countIntegrity a.part) := fun info => (notice s _ _ info).trans (countIntegrity _ _)
  unfold State.checkSector
  split
  · exact notice s _ _ _
  · exact notice s _ _ _
  · exact hfails _
  · split
    · exact refl s
    · exact hfails _
  · split
    · exact countCorrected s sec
    · exact hfails _

theorem fillSector (a : Access) (no : Nat) (whole : Nat → Bool) (acc : State × List PWord) (i : Nat) : acc.1.Stays (State.fillSector a no whole acc i).1 := by
  have hread : acc.1.Stays (if whole i then (acc.1, true) else acc.1.checkSector a (2 * no + i)).1 := by
    split
    · exact refl acc.1
    · exact checkSector acc.1 a _
  unfold State.fillSector
  dsimp only
  split
  · next heq => exact hread.fst heq
  · next heq => exact hread.fst heq

theorem countLine (s : State) (a : Access) (pa : Nat) : s.Stays (s.countLine a pa).1 := by
  unfold State.countLine
  split
  · exact updSlice s _ _
  · exact refl s

theorem openLine (s : State) (a : Access) (no : Nat) (whole : Nat → Bool) : s.Stays (s.openLine a no whole).1 := by
  have hcount : s.Stays ((s.settleWays (s.homeSlice (128 * no))).countLine a (128 * no)).1 := (updSlice s _ _).trans (countLine _ a _)
  unfold State.openLine
  dsimp only
  generalize (s.settleWays (s.homeSlice (128 * no))).countLine a (128 * no) = r at hcount ⊢
  obtain ⟨t, retained⟩ := r
  dsimp only
  split
  · refine hcount.trans ?_
    dsimp only
    split
    · exact (updSlice t _ _).trans (placeLine _ _ _ _ _)
    · exact (updSlice t _ _).trans (updSlice _ _ _)
  · have hfill := hcount.trans ((fillSector a no whole (t, []) 0).trans (fillSector a no whole _ 1))
    dsimp only
    split
    · exact hfill
    · exact hfill.trans (placeLine _ _ _ _ _)

theorem homeWords (a : Access) (fuel : Nat) : ∀ (s : State) (pa n : Nat), s.Stays (s.homeWords a fuel pa n).1 := by
  have hline : ∀ (s : State) (pa n : Nat), s.Stays (s.lineWords a pa n).1 := fun s pa n => by
    unfold State.lineWords
    split
    · exact refl s
    · exact openLine s a _ _
  induction fuel with
  | zero => exact fun s _ _ => refl s
  | succ fuel ih =>
    intro s pa n
    simp only [State.homeWords]
    split
    · exact refl s
    · exact (hline s pa _).trans (ih _ _ _)

theorem homeRead (s : State) (a : Access) (pa n : Nat) : s.Stays (s.homeRead a pa n).1 :=
  homeWords a ((pa + n - pa / 4 * 4 + 3) / 4 + 1) s (pa / 4 * 4) ((pa + n - pa / 4 * 4 + 3) / 4)

theorem mergeWord (own : Nat) (acc : State × Line) (j : Nat) (w : PWord) (mask : Nat) : acc.1.Stays (State.mergeWord own acc j w mask).1 := by
  unfold State.mergeWord
  split
  · exact refl acc.1
  · dsimp only
    split
    · exact refl acc.1
    · exact revoke acc.1 _ _

theorem mergeWords (own first : Nat) : ∀ (l : List ((PWord × Nat) × Nat)) (acc : State × Line),
    acc.1.Stays (l.foldl (fun acc w => State.mergeWord own acc (first + w.2) w.1.1 w.1.2) acc).1
  | [], acc => refl acc.1
  | w :: l, acc => (mergeWord own acc (first + w.2) w.1.1 w.1.2).trans (mergeWords own first l _)

theorem lineWrite (s : State) (a : Access) (own pa : Nat) (ws : List (PWord × Nat)) : s.Stays (s.lineWrite a own pa ws) := by
  have hno : ∀ (s : State) (l : List Nat) (g : Nat → Word64), s.Stays (s.forEach l fun s i => s.notice a.part 0x13 (g i)) :=
    fun s l g => forEach (fun s i => notice s _ _ _) l s
  unfold State.lineWrite
  dsimp only
  split
  · exact refl s
  · split
    · exact hno _ _ _
    · generalize hr : State.openLine s a (pa / 128) _ = r
      have hopen : s.Stays r.1 := hr ▸ openLine s a (pa / 128) _
      split
      · exact hopen.trans (hno _ _ _)
      · exact (hopen.trans (mergeWords own (pa % 128 / 4) ws.zipIdx r)).trans (setLine _ _ _)

theorem homeWrite (a : Access) (own fuel : Nat) : ∀ (s : State) (pa : Nat) (ws : List (PWord × Nat)), s.Stays (s.homeWrite a own fuel pa ws) := by
  induction fuel with
  | zero => exact fun s _ _ => refl s
  | succ fuel ih =>
    intro s pa ws
    simp only [State.homeWrite]
    split
    · exact refl s
    · exact (lineWrite s a own pa _).trans (ih _ _ _)

theorem homePut (s : State) (a : Access) (pa n val : Nat) (psn : Bool) : s.Stays (s.homePut a pa n val psn) := homeWrite a 0 _ s _ _

/-! ## Walks and translations -/

theorem orPte (s : State) (part pa bits : Nat) : s.Stays (s.orPte part pa bits) := by
  unfold State.orPte
  split
  next heq =>
  have hread := (homeRead s ⟨part, 0, none, none⟩ pa 8).fst heq
  split
  · exact hread
  · exact hread.trans (homePut _ _ _ _ _ _)

theorem walkFrom (part va : Nat) (u : Use) (fuel : Nat) : ∀ (s : State) (table level : Nat), s.Stays (s.walkFrom part va u fuel table level).1 := by
  induction fuel with
  | zero => exact fun s _ _ => refl s
  | succ fuel ih =>
    intro s table level
    have hread := homeRead s ⟨part, 0, none, none⟩ (table + 8 * levelIndex va level) 8
    simp only [State.walkFrom]
    split_ifs
    · exact hread
    · exact hread
    · exact hread
    · exact hread.trans (ih _ _ _)

theorem walk (s : State) (part va : Nat) (u : Use) : s.Stays (s.walk part va u).1 := by
  unfold State.walk
  split
  · exact refl s
  · exact walkFrom part va u 3 s _ _

theorem translateHome (s : State) (part va : Nat) (u : Use) : s.Stays (s.translateHome part va u).1 := by
  have hwalk := walk s part va u
  unfold State.translateHome
  split
  · next heq => exact hwalk.fst heq
  · next heq =>
    split
    · exact hwalk.fst heq
    · exact (hwalk.fst heq).trans (orPte _ _ _ _)

theorem useEntry (s : State) (c va : Nat) (u : Use) (e : TlbEntry) : s.Stays (s.useEntry c va u e).1 := by
  unfold State.useEntry
  dsimp only
  split
  · exact refl s
  · split
    · exact ((orPte s _ _ _).trans (updCore _ c fun k _ => .memory k _ _)).trans (updCluster _ _ _)
    · exact refl s

theorem translate (s : State) (c va : Nat) (u : Use) : s.Stays (s.translate c va u).1 := by
  have hwalk := walk s (s.partOf c) va u
  unfold State.translate
  dsimp only
  split
  · exact useEntry s c va u _
  · split
    · exact (updCore s c fun k _ => .memory k _ _).trans (useEntry _ c va u _)
    · split
      · next heq => exact hwalk.fst heq
      · next heq =>
        split
        · exact hwalk.fst heq
        · exact ((((hwalk.fst heq).trans (orPte _ _ _ _)).trans (updCore _ c fun k _ => .memory k _ _)).trans (updCluster _ _ _)).trans
            (useEntry _ c va u _)

/-! ## The stash -/

theorem writeBackRow (s : State) (q n : Nat) : s.Stays (s.writeBackRow q n) := by
  unfold State.writeBackRow
  split
  · exact refl s
  · split
    · exact refl s
    · split
      · exact refl s
      · exact (updCore s q fun k _ => .memory k _ _).trans (postOpen _ _ _)

theorem ensureRow (s : State) (q block : Nat) (l : Leaf) : s.Stays (s.ensureRow q block l).1 := by
  have hupd : ∀ (s : State) (st : Core → Stash), s.Stays (s.updCore q fun k => { k with stash := st k }) := fun s st =>
    updCore s q fun k _ => .memory k _ _
  unfold State.ensureRow
  split
  · exact refl s
  · split
    · split
      · exact hupd s _
      · exact refl s
    · dsimp only
      split
      · exact hupd s _
      · split
        · split_ifs
          · exact refl s
          · exact (writeBackRow s q _).trans (hupd _ _)
        · split
          · exact hupd s _
          · exact refl s

theorem requestFill (s : State) (q block : Nat) (l : Leaf) : s.Stays (s.requestFill q block l) := by
  unfold State.requestFill
  split
  · exact refl s
  · split
    · exact refl s
    · exact (updCore s q fun k _ => .memory k _ _).trans (postOpen _ _ _)

theorem readVia (s : State) (c : Nat) (home : Bool) (va n : Nat) : s.Stays (s.readVia c home va n).1 := by
  have htr := translate s c va .read
  unfold State.readVia
  split
  · exact refl s
  · split
    · next heq => exact htr.fst heq
    · next t l heq =>
      have ht : s.Stays t := htr.fst heq
      split
      · exact ht.trans (homeRead t _ _ _)
      · dsimp only
        split
        · exact ht
        · have hrow := ensureRow t (quarterOf c va l.cc) (va / 256) l
          split
          · next heq => exact ht.trans (hrow.fst heq)
          · next heq => exact ht.trans (hrow.fst heq)
          · next heq => exact (ht.trans (hrow.fst heq)).trans (requestFill _ _ _ _)

theorem readBytes (c : Nat) (home : Bool) (n : Nat) : ∀ (s : State) (va : Nat), s.Stays (s.readBytes c home va n).1 := by
  induction n with
  | zero => exact fun s _ => refl s
  | succ n ih =>
    intro s va
    have hread := readVia s c home va 1
    simp only [State.readBytes]
    split
    · next t v p heq =>
      have hrest := (hread.fst heq).trans (ih t (va + 1))
      split
      · next heq' => exact hrest.fst heq'
      · exact hrest
    · exact hread

theorem readWords (c : Nat) (home : Bool) (n : Nat) : ∀ (s : State) (va : Nat), s.Stays (s.readWords c home va n).1 := by
  induction n with
  | zero => exact fun s _ => refl s
  | succ n ih =>
    intro s va
    have hread := readVia s c home va 4
    simp only [State.readWords]
    split
    · next heq =>
      have hrest := (hread.fst heq).trans (ih _ (va + 4))
      split
      · next heq' => exact hrest.fst heq'
      · exact hrest
    · next heq =>
      have hrest := (hread.fst heq).trans (ih _ (va + 4))
      split
      · next heq' => exact hrest.fst heq'
      · exact hrest
    · next heq => exact hread.fst heq
    · next heq => exact hread.fst heq

/-! ## The halves of release and acquire, and the end of a command -/

theorem pushRelease (s : State) (r : Release) : s.Stays (s.pushRelease r).1 := by
  unfold State.pushRelease
  refine List.foldlRecOn (motive := fun a : State × Release => s.Stays a.1) r.todo _ (refl s) fun a ha e _ => ?_
  dsimp only
  split
  · exact ha
  · split
    · exact ha
    · split_ifs
      · exact ha
      · exact ha
      · exact ha.trans (writeBackRow _ _ _)

theorem startRelease (s : State) (c scope : Nat) : s.Stays (s.startRelease c scope).1 := pushRelease s _

theorem dropWords (s : State) (q n : Nat) (words : List Nat) : s.Stays (s.dropWords q n words) := by
  unfold State.dropWords
  split
  · exact refl s
  · refine trans (updCore s q fun k _ => .memory k _ _) (forEach (fun s c => ?_) _ _)
    exact updCore s c fun k _ => .mapCtxs k fun _ _ => ⟨rfl, Iff.rfl⟩

theorem acquire (s : State) (c scope : Nat) : s.Stays (s.acquire c scope) := by
  refine forEach (fun s q => ?_) _ s
  split
  · exact refl s
  · refine forEach (fun s n => ?_) _ s
    split
    · exact refl s
    · split
      · exact dropWords s _ _ _
      · exact refl s

theorem acquireBy (s : State) (c n scope : Nat) : s.Stays (s.acquireBy c n scope) := by
  refine trans (acquire s c scope) ?_
  exact updCtx _ c n fun _ => ⟨rfl, Iff.rfl⟩

theorem fenceStep (c n : Nat) : ∀ (fs : List FenceWait) (s : State), s.Stays (s.fenceStep c n fs).1
  | [], s => refl s
  | f :: fs, s => by
    unfold State.fenceStep
    split
    · exact refl s
    · extract_lets cmds r
      have hr : s.Stays r.1 := by
        simp only [r]
        split
        · exact refl s
        · dsimp only
          split
          · exact startRelease s c _
          · exact pushRelease s _
      clear_value r
      obtain ⟨t, g⟩ := r
      dsimp only
      split_ifs
      · exact (hr.trans (acquireBy t c n _)).trans (fenceStep c n fs _)
      · exact hr.trans (fenceStep c n fs t)

theorem wakeCore (s : State) (c : Nat) : s.Stays (s.wakeCore c) := by
  have hif : ∀ (s : State) (b : Bool) (d : Nat) (e : Event), s.Stays (if b then s.postOnce d e else s) := fun s b d e => by
    cases b
    · exact refl s
    · exact postOnce s d e
  have hunless : ∀ (s : State) (b : Bool) (d : Nat) (e : Event), s.Stays (if b then s else s.postOnce d e) := fun s b d e => by
    cases b
    · exact postOnce s d e
    · exact refl s
  unfold State.wakeCore
  split
  · exact refl s
  · extract_lets streams commands loader queue matrix channels rings
    have hstreams : s.Stays streams := forEach (fun s q => by
      split
      · exact refl s
      · exact hunless s _ _ _) _ s
    have hcommands : streams.Stays commands := forEach (fun s q => by
      cases q.kind with
      | strm | gcfg | grun => exact refl s
      | qset | qcopy | qccopy | qrcopy | qsave | stash => exact postOnce s _ _) _ _
    have hrings : channels.Stays rings := forEach (fun s kv => by
      split
      · exact refl s
      · exact postOnce s _ _) _ _
    have hqueues : commands.Stays channels := (((hif _ _ _ _).trans (hif _ _ _ _)).trans (hunless _ _ _ _)).trans (hunless _ _ _ _)
    refine (((hstreams.trans hcommands).trans hqueues).trans hrings).trans (forEach (fun s n => ?_) _ _)
    split
    · exact postOnce s _ _
    · exact postOnce s _ _
    · exact refl s

theorem tryFences (s : State) (c : Nat) : s.Stays (s.tryFences c) := by
  refine forEach (fun s n => ?_) _ s
  split
  · exact refl s
  · next x _ =>
    split
    · exact refl s
    · have hfence := fenceStep c n x.fences s
      generalize s.fenceStep c n x.fences = r at hfence ⊢
      obtain ⟨t, l⟩ := r
      have ht : s.Stays (t.updCtx c n fun x => { x with fences := l }) := hfence.trans (updCtx t c n fun _ => ⟨rfl, Iff.rfl⟩)
      dsimp only
      split
      · exact ht.trans (wakeCore _ c)
      · exact ht

theorem lookBarriers (s : State) (c : Nat) : s.Stays (s.lookBarriers c) := by
  unfold State.lookBarriers
  split
  · exact refl s
  · split
    · exact postOnce s _ _
    · exact refl s

theorem afterCommand (s : State) (c : Nat) : s.Stays (s.afterCommand c) := ((tryFences s c).trans (wakeCore _ c)).trans (lookBarriers _ c)

theorem afterTake (s : State) (c : Nat) : s.Stays (s.afterTake c) := by
  unfold State.afterTake
  split
  · exact refl s
  · refine forEach (fun s kv => ?_) _ s
    split
    · exact refl s
    · split_ifs
      all_goals simp only [refl, postOnce]

end State.Stays

end Sys2Proof.Machine
end
section
/-! SUPPORT. Fabric invocations (07 R179, R180): what the elements of a slice's streams leave, how an invocation starts and how it ends. -/

namespace Sys2Proof.Machine

/-! ## Memory, as a fabric slice reaches it -/

namespace State.Stays

theorem fabricRead (s : State) (sl : Nat) (own : Bool) (p : Packet) (va n : Nat) : s.Stays (s.fabricRead sl own p va n).1 := by
  have htr := translateHome s p.part.toNat va .read
  unfold State.fabricRead
  split
  · exact refl s
  · split
    · next heq => exact htr.fst heq
    · next heq =>
      split
      · exact htr.fst heq
      · exact (htr.fst heq).trans (homeRead _ _ _ _)

theorem fabricWrite (s : State) (sl : Nat) (p : Packet) (va n val : Nat) (psn : Bool) : s.Stays (s.fabricWrite sl p va n val psn).1 := by
  have htr := translateHome s p.part.toNat va .write
  unfold State.fabricWrite
  split
  · exact refl s
  · split
    · next heq => exact htr.fst heq
    · next heq =>
      split
      · exact htr.fst heq
      · exact (htr.fst heq).trans (homePut _ _ _ _ _ _)

theorem fabricBytes (sl : Nat) (p : Packet) (n : Nat) : ∀ (s : State) (va : Nat), s.Stays (s.fabricBytes sl p va n).1 := by
  induction n with
  | zero => exact fun s _ => refl s
  | succ n ih =>
    intro s va
    have hread := fabricRead s sl true p va 1
    simp only [State.fabricBytes]
    split
    · next heq =>
      have hrest := (hread.fst heq).trans (ih _ (va + 1))
      split
      · next heq' => exact hrest.fst heq'
      · exact hrest
    · exact hread

theorem fabricPuts (sl : Nat) (p : Packet) (psn : Bool) (n : Nat) : ∀ (s : State) (va val : Nat), s.Stays (s.fabricPuts sl p va val psn n).1 := by
  induction n with
  | zero => exact fun s _ _ => refl s
  | succ n ih =>
    intro s va val
    have hwrite := fabricWrite s sl p va 1 val psn
    simp only [State.fabricPuts]
    split
    · next heq => exact (hwrite.fst heq).trans (ih _ _ _)
    · exact hwrite

/-! ## Elements -/

theorem fabricElem (s : State) (sl : Nat) (p : Packet) (d : Desc) (a : Int) (sub : Nat) : s.Stays (s.fabricElem sl p d a sub).1 := by
  unfold State.fabricElem
  split
  · exact refl s
  · extract_lets bits r
    have hr : s.Stays r.1 := by
      simp only [r]
      split
      · exact fabricRead s _ _ _ _ _
      · exact fabricBytes _ _ _ s _
    clear_value r
    split
    · exact hr
    · exact hr

theorem fabricIdx (s : State) (sl : Nat) (r : FRun) (t : FStrm) (i : Nat) : s.Stays (s.fabricIdx sl r t i).1 := by
  unfold State.fabricIdx
  dsimp only
  split
  · exact refl s
  · split
    · exact refl s
    · next e _ =>
      have helem := fabricElem s sl r.pkt e.desc (e.desc.address (i / t.desc.perIdx) 0).1 (e.desc.address (i / t.desc.perIdx) 0).2
      split
      · exact refl s
      · split
        · exact refl s
        · split
          · next heq =>
            split
            · exact helem.fst heq
            · exact helem.fst heq
          · next heq => exact helem.fst heq
          · next heq => exact helem.fst heq
          · next heq => exact helem.fst heq

theorem fabricBits (s : State) (sl : Nat) (p : Packet) (va sub n val : Nat) (psn : Bool) : s.Stays (s.fabricBits sl p va sub n val psn).1 := by
  have hread := fabricBytes sl p (spanBytes sub n) s va
  unfold State.fabricBits
  split
  · exact fabricWrite s _ _ _ _ _ _
  · dsimp only
    split
    · next heq => exact (hread.fst heq).trans (fabricPuts _ _ _ _ _ _ _)
    · next heq => exact hread.fst heq
    · next heq => exact hread.fst heq
    · next heq => exact hread.fst heq

theorem fabricCodes (sl : Nat) (p : Packet) (d : Desc) (v : Int) : ∀ (l : List (Nat × Bool)) (s : State) (i : Nat), s.Stays (s.fabricCodes sl p d i v l).1
  | [], s, _ => refl s
  | (code, x) :: l, s, i => by
    have hbits := fabricBits s sl p (d.address i v).1.toNat (d.address i v).2 (EType.bits d.et) code x
    unfold State.fabricCodes
    dsimp only
    split
    · exact refl s
    · split
      · next heq => exact (hbits.fst heq).trans (fabricCodes sl p d v l _ _)
      · exact hbits

theorem fabricGroup (s : State) (sl : Nat) (r : FRun) (t : FStrm) : s.Stays (s.fabricGroup sl r t).1 := by
  unfold State.fabricGroup
  extract_lets d es i ws rest b
  have hidx := fabricIdx s sl r rest i
  split
  · exact refl s
  · split
    · next u t heq =>
      have hu : s.Stays u := hidx.fst heq
      extract_lets w
      have hw : s.Stays w.1 := by
        simp only [w]
        split
        · have hscale := fabricWrite u sl r.pkt (d.scaleAddr i) 1 (if ws.any (lacksCode d.et) then 255 else b) (es.any (·.p))
          split
          · next heq => exact (hu.trans (hscale.fst heq)).trans (fabricCodes _ _ _ _ _ _ _)
          · exact hu.trans hscale
        · exact hu.trans (fabricCodes _ _ _ _ _ _ _)
      clear_value w
      split
      · exact hw
      · exact hw
      · exact hw
      · exact hw
    · exact hidx

theorem fabricFlush (sl : Nat) (g : GRun) (r : FRun) : ∀ (ps : List Nat) (s : State) (status : Nat × Nat), s.Stays (s.fabricFlush sl g r status ps).1
  | [], s, _ => refl s
  | p :: ps, s, status => by
    unfold State.fabricFlush
    split
    · exact fabricFlush sl g r ps s status
    · next t _ =>
      have hgroup := fabricGroup s sl r t
      split
      · exact fabricFlush sl g r ps s status
      · split
        · next heq => exact (hgroup.fst heq).trans (fabricFlush sl g r ps _ _)
        · next heq => exact (hgroup.fst heq).trans (fabricFlush sl g r ps _ _)
        · next heq => exact (hgroup.fst heq).trans (fabricFlush sl g r ps _ _)
        · next heq => exact (hgroup.fst heq).trans (fabricFlush sl g r ps _ _)

end State.Stays

/-! ## The invocation -/

/-- An invocation that ends leaves its slice IDLE and free for the next; the rest of the slice stays (07 R180). -/
theorem State.slice?_fabricEnd {s : State} {sl : Nat} {x : Slice} (hx : s.slice? sl = some x) (status addr : Nat) (r : FRun) :
    (s.fabricEnd sl status addr r).slice? sl = some { x with run := none, grid := { x.grid.land with st := 2, run := none } } := by
  simp only [State.fabricEnd, State.slice?, State.postOnce_slices, State.postOpen_slices]
  exact (State.slice?_updSlice_same s sl _).trans (congrArg _ hx)

section Start
variable {s : State} {sl : Nat} {x : Slice} {p : Packet} {ps : List Packet} (hx : s.slice? sl = some x) (hev : s.ev = .fabricInvocationStart sl)
  (hrun : x.run = none) (hwait : x.waiting = p :: ps) (hroom : ps.length < 8)
include hx hev hrun hwait hroom

/-- A free slice takes the record that waits first, with fewer than nine waiting: one that it can use runs from the next cycle on (07 R179). -/
theorem execFabricInvocationStart_of_got {s2 : State} {r : FRun}
    (hbegin : (s.updSlice sl fun x => { x with waiting := ps, run := some ⟨p, []⟩ }).fabricBegin sl ⟨p, []⟩ = (s2, .got r)) :
    exec .fabricInvocationStart s = .next ((s2.updSlice sl fun x => { x with run := some r }).post 1 (.fabricInvocationEnd sl)) := by
  have hninth : ps[7]? = none := List.getElem?_eq_none (by omega)
  change execFabricInvocationStart s = _
  simp only [execFabricInvocationStart, hev, hx, hrun, hwait, hninth, hbegin]

/-- One that it cannot use ends at once (07 R180). -/
theorem execFabricInvocationStart_of_fault {s2 : State} {cause a : Nat}
    (hbegin : (s.updSlice sl fun x => { x with waiting := ps, run := some ⟨p, []⟩ }).fabricBegin sl ⟨p, []⟩ = (s2, .fault cause a)) :
    exec .fabricInvocationStart s = .next (s2.fabricEnd sl cause a ⟨p, []⟩) := by
  have hninth : ps[7]? = none := List.getElem?_eq_none (by omega)
  change execFabricInvocationStart s = _
  simp only [execFabricInvocationStart, hev, hx, hrun, hwait, hninth, hbegin]

end Start

/-- A run of a slice whose cycles are through performs what its store streams hold, and ends with status 0 or that of the first that cannot (07 R180). -/
theorem State.fabricTick_of_through {s : State} {sl : Nat} {x : Slice} (r : FRun) {g : GRun} (hcyc : g.turns * (x.grid.iim1 + 1) ≤ g.cyc)
    (hflight : ∀ f ∈ x.grid.flight, f.due ≤ x.grid.clock) : ∃ c a, s.fabricTick sl x r g = (s.fabricFlush sl g r (0, 0) [4, 5]).1.fabricEnd sl c a r := by
  have hall : (x.grid.flight.all fun f => decide (f.due ≤ x.grid.clock)) = true := by simpa using hflight
  simp only [State.fabricTick, hcyc, hall, if_true]
  exact ⟨_, _, rfl⟩

/-- Settles O50: a start by what the record comes to, an end by what the flush of the streams leaves of its slice. -/
theorem fabricInvocations : Obligations.FabricInvocations := by
  unfold Obligations.FabricInvocations
  intro s sl x hx
  refine ⟨fun p ps s1 hev hrun hwait hroom hs1 => ?_, fun r g hev hrun hgrid hcyc hflight => ?_⟩
  · subst hs1
    refine ⟨fun s2 r x2 hbegin hx2 => ?_, fun s2 cause a hbegin => ?_, fun hbad => ?_⟩
    · have hslice := (State.slice?_updSlice_same s2 sl fun x => { x with run := some r }).trans (congrArg _ hx2)
      exact ⟨_, _, execFabricInvocationStart_of_got hx hev hrun hwait hroom hbegin, hslice, rfl, by
        simpa using State.mem_post (s2.updSlice sl fun x => { x with run := some r }) 1 _⟩
    · exact execFabricInvocationStart_of_fault hx hev hrun hwait hroom hbegin
    · have hbegin : ∀ t : State, t.fabricBegin sl ⟨p, []⟩ = (t, .fault 0x01 0) := fun t => by simp [State.fabricBegin, hbad]
      have htaken := (State.slice?_updSlice_same s sl fun x => { x with waiting := ps, run := some ⟨p, []⟩ }).trans (congrArg _ hx)
      exact ⟨_, _, execFabricInvocationStart_of_fault hx hev hrun hwait hroom (hbegin _), State.slice?_fabricEnd htaken _ _ _, rfl, rfl, rfl, rfl⟩
  · have hexec : exec .fabricInvocationEnd s = .next (s.fabricTick sl x r g) := by
      change execFabricInvocationEnd s = _
      simp only [execFabricInvocationEnd, hev, hx, hrun, hgrid]
    obtain ⟨c, a, hend⟩ := State.fabricTick_of_through (s := s) (sl := sl) r hcyc hflight
    obtain ⟨y, hy⟩ := Option.isSome_iff_exists.1 ((State.Stays.fabricFlush sl g r [4, 5] s (0, 0)).slices sl (by rw [hx]; rfl))
    rw [hend] at hexec
    exact ⟨_, _, hexec, State.slice?_fabricEnd hy c a r, rfl, rfl, rfl⟩

end Sys2Proof.Machine
end
section
/-! SUPPORT. A run of the grid that is through when its stop is asked for (07 R161, R162). -/

namespace Sys2Proof.Machine

/-- A run of one turn of one cycle, all of it done; its stop is asked for, by no GSTOP that would signal. -/
def stoppedRun : GRun := ⟨0, 1, 1, 0, 0, Sync.none, true, [], [], 0, 0, false⟩

/-- The machine at the GRUN_COMPLETION of core 0, whose grid is RUNNING `stoppedRun`. -/
def atStoppedRun : State :=
  { State.reset with
    cores := [(0, some { Core.fresh 0 0 with grid := { Grid.fresh with st := 3, run := some stoppedRun } })]
    ev := .grunCompletion 0 }

set_option maxRecDepth 100000 in
/-- The run ends at the turn boundary as a stopped one does: its state is held. -/
theorem gridTick_atStoppedRun_held : ((atStoppedRun.gridTick 0).core? 0).map (·.grid.held) = some true := by decide +kernel

/-- Refutes O38: its clause on a run whose turns are through asks that the state is not held, and leaves out that no stop is asked for; where one is, the run
that stands at its last turn boundary ends held (07 R162). -/
theorem not_gridEvents : ¬ Obligations.GridEvents := by
  unfold Obligations.GridEvents
  intro h
  obtain ⟨hcore, -⟩ := h
  obtain ⟨-, hthrough, -⟩ := hcore atStoppedRun 0 _ rfl
  obtain ⟨t, k', hexec, hk', -, -, hheld, -⟩ :=
    hthrough stoppedRun rfl rfl (Nat.zero_le _) (Nat.le_refl _) (fun _ hf => absurd hf List.not_mem_nil) rfl
  obtain rfl : atStoppedRun.gridTick 0 = t := Host.Outcome.next.inj hexec
  have hstopped := gridTick_atStoppedRun_held
  rw [hk', Option.map_some, hheld] at hstopped
  exact Bool.noConfusion (Option.some.inj hstopped)

end Sys2Proof.Machine
end
section
/-! SUPPORT. What the signal of a command, and what follows it, leave of the cores (12 R289, 04 R83). -/

namespace Sys2Proof.Machine

/-- A signal of 1 or more leaves a value that is not zero. -/
theorem Sem.signal_ne_zero (m : Sem) {n : Nat} (h : n ≠ 0) : m.signal n ≠ ⟨0, false, false⟩ := fun h0 => by
  have hval : (BitVec.ofNat 16 (min 65535 (m.val.toNat + n))).toNat = 0 := congrArg (·.val.toNat) h0
  rw [BitVec.toNat_ofNat] at hval
  omega

theorem Ctx.Stays.retest (x : Ctx) (now sem : Nat) (m : Sem) : x.Stays (x.retest now sem m) := by
  unfold Ctx.retest
  refine trans ?_ (release _ now)
  exact ⟨rfl, Iff.rfl⟩

/-- Of a core, its semaphores and what `Core.Stays` lets change may have changed, and the semaphore of a synchronisation word has its signal. -/
structure Core.Signalled (k : Core) (w : Sync) (k' : Core) : Prop where
  rest : k' = { k with ctxs := k'.ctxs, sems := k'.sems, stash := k'.stash, tlb := k'.tlb }
  ctxs : k.CtxsStay k'
  sem : w.si ≠ 0 → k'.sem w.ss.toNat = (k.sem w.ss.toNat).signal w.si.toNat

namespace Core.Signalled

theorem stays {k l m : Core} {w : Sync} (h : k.Signalled w l) (h' : l.Stays m) : k.Signalled w m where
  rest := by rw [h'.rest, h.rest]
  ctxs := h.ctxs.trans h'.ctxs
  sem hw := (h'.sem _).trans (h.sem hw)

section
variable {k k' : Core} {w : Sync} (h : k.Signalled w k')
include h

theorem qcmds : k'.qcmds = k.qcmds := by rw [h.rest]
theorem sregs : k'.sregs = k.sregs := by rw [h.rest]
theorem sreg (q : Nat) : k'.sreg q = k.sreg q := by rw [Core.sreg, h.sregs, Core.sreg]

end

end Core.Signalled

/-- The core after a semaphore of it has taken a value. -/
theorem State.core?_putSem {s : State} {c : Nat} {k : Core} (hk : s.core? c = some k) (n : Nat) (v : Sem) :
    ∃ k', (s.putSem c n v).core? c = some k' ∧ k' = { k with ctxs := k'.ctxs, sems := Tab.set ⟨0, false, false⟩ k.sems n v } ∧ k.CtxsStay k' := by
  refine ⟨_, by rw [State.putSem, State.core?_updCore_same, hk, Option.map_some], rfl, .mapCtxs (k.setSem n v) fun _ x => ?_⟩
  split
  · exact .retest x _ _ _
  · exact .refl x

/-- What a signal does beyond its semaphore: SEM_OVERFLOW may become pending. -/
theorem State.putSem_stays_signal {s : State} {c : Nat} {k : Core} (hk : s.core? c = some k) (n inc by' : Nat) :
    (s.putSem c n ((k.sem n).signal inc)).Stays (s.signal c n inc by') := by
  simp only [State.signal, hk]
  split
  · refine .updCtx _ c by' fun x => ?_
    split
    · exact .refl x
    · refine .trans ?_ (.wake _ _)
      exact ⟨rfl, Iff.rfl⟩
  · exact .refl _

/-- A signal keeps what it does not name. -/
theorem State.core?_post1 {s : State} {c : Nat} {k : Core} (hk : s.core? c = some k) (n : Nat) (w : Sync) :
    ∃ k', (s.post1 c n w).core? c = some k' ∧ k.Signalled w k' := by
  unfold State.post1
  split
  · next hw => exact ⟨k, hk, rfl, .of_eq rfl, absurd hw⟩
  next hw =>
  have hinc : w.si.toNat ≠ 0 := fun h => hw (BitVec.eq_of_toNat_eq h)
  obtain ⟨k1, hk1, hrest, hctxs⟩ := State.core?_putSem hk w.ss.toNat ((k.sem w.ss.toNat).signal w.si.toNat)
  have h1 : k.Signalled w k1 := {
    rest := by rw [hrest]
    ctxs := hctxs
    sem := fun _ => by
      rw [hrest]
      exact Core.sem_setSem_same k _ (Sem.signal_ne_zero _ hinc) }
  obtain ⟨k2, hk2, h2⟩ := (State.putSem_stays_signal hk w.ss.toNat w.si.toNat n).cores c k1 hk1
  exact ⟨k2, hk2, h1.stays h2⟩

/-- A command that is through signals, and what waits on it is looked at. -/
theorem State.core?_post1_afterCommand {s : State} {c : Nat} {k : Core} (hk : s.core? c = some k) (n : Nat) (w : Sync) :
    ∃ k', ((s.post1 c n w).afterCommand c).core? c = some k' ∧ k.Signalled w k' := by
  obtain ⟨k1, hk1, h1⟩ := State.core?_post1 hk n w
  obtain ⟨k2, hk2, h2⟩ := (State.Stays.afterCommand (s.post1 c n w) c).cores c k1 hk1
  exact ⟨k2, hk2, h1.stays h2⟩

/-- A command of the queue that is through leaves it and signals. -/
theorem State.core?_qDone {s : State} {c : Nat} {k : Core} (hk : s.core? c = some k) (y : QCmd) :
    ∃ k', (s.qDone c y).core? c = some k' ∧ (k.dropQ y.id).Signalled y.sync k' :=
  State.core?_post1_afterCommand (by rw [State.core?_updCore_same, hk, Option.map_some]) y.ctx y.sync

@[simp] theorem Core.dropQ_qcmds (k : Core) (id : Nat) : (k.dropQ id).qcmds = k.qcmds.filter fun q => q.id ≠ id := rfl

/-- A queue of one command is empty without it. -/
theorem Core.dropQ_qcmds_of_single {k : Core} {y : QCmd} (h : k.qcmds = [y]) : (k.dropQ y.id).qcmds = [] := by simp [h]

end Sys2Proof.Machine
end
section
/-! SUPPORT. The elements of a stream: how they arrive, perform, fault and retire (07 R169 to R175). -/

namespace Sys2Proof.Machine

/-! ## Stream registers -/

@[simp] theorem Core.sreg_setSreg_same (k : Core) (q : Nat) (r : SReg) : (k.setSreg q r).sreg q = r := by simp [Core.sreg, Core.setSreg, Tab.get_set_some]

theorem Core.sreg_setSreg_ne (k : Core) {q p : Nat} (r : SReg) (h : p ≠ q) : (k.setSreg q r).sreg p = k.sreg p := by
  simp [Core.sreg, Core.setSreg, Tab.get_set_ne none (some r) k.sregs h]

/-- A stream register that takes the value it has reads as before, as does every other. -/
theorem Core.sreg_setSreg_of_eq {k : Core} {q p : Nat} {r : SReg} (h : p = q → r = k.sreg p) : (k.setSreg q r).sreg p = k.sreg p := by
  by_cases hp : p = q
  · rw [← hp, Core.sreg_setSreg_same, h hp]
  · exact Core.sreg_setSreg_ne k r hp

@[simp] theorem Core.setSreg_sem (k : Core) (q : Nat) (r : SReg) (n : Nat) : (k.setSreg q r).sem n = k.sem n := rfl
@[simp] theorem Core.setSreg_ctx? (k : Core) (q : Nat) (r : SReg) (n : Nat) : (k.setSreg q r).ctx? n = k.ctx? n := rfl

theorem State.core?_updSreg {s : State} {c : Nat} {k : Core} (hk : s.core? c = some k) (q : Nat) (f : SReg → SReg) :
    (s.updSreg c q f).core? c = some (k.setSreg q (f (k.sreg q))) := by rw [State.updSreg, State.core?_updCore_same, hk, Option.map_some]

@[simp] theorem State.updSreg_cycle (s : State) (c q : Nat) (f : SReg → SReg) : (s.updSreg c q f).cycle = s.cycle := State.updCore_cycle ..

/-- The core after the stream of a register has changed. -/
theorem State.core?_updStrm {s : State} {c q : Nat} {k : Core} (hk : s.core? c = some k) (f : Strm → Strm) :
    (s.updStrm c q f).core? c = some (k.setSreg q { k.sreg q with strm := (k.sreg q).strm.map f }) := State.core?_updSreg hk q _

theorem State.ctx?_of_core? {s : State} {c n : Nat} {k : Core} (hk : s.core? c = some k) : s.ctx? c n = k.ctx? n := by rw [State.ctx?, hk, Option.bind_some]

/-- A context with a task is no orphan. -/
theorem State.orphan_of_task {s : State} {c n : Nat} {k : Core} {x : Ctx} (hk : s.core? c = some k) (hx : k.ctx? n = some x) (h : x.st ≠ .empty) :
    s.orphan c n = false := by simp [State.orphan, State.ctx?_of_core? hk, hx, h]

/-! ## The engine, settled -/

@[simp] theorem State.core?_afterTake (s : State) (c c' : Nat) : (s.afterTake c).core? c' = s.core? c' := by
  unfold State.afterTake
  split
  · rfl
  · refine State.forEach_keeps (fun t => t.core? c' = s.core? c') (fun t kv ht => ?_) _ s rfl
    split
    · exact ht
    · split_ifs <;> simp [ht]

@[simp] theorem State.core?_kickGrid (s : State) (c c' : Nat) : (s.kickGrid c).core? c' = s.core? c' := by
  unfold State.kickGrid
  split
  · rfl
  · exact State.core?_postOnce ..

theorem State.core?_mxSettle {s : State} {c : Nat} {k : Core} (hk : s.core? c = some k) : (s.mxSettle c).core? c = some (k.mxRunTo s.cycle) := by
  simp only [State.mxSettle, hk]
  split
  · exact State.core?_setCore_same ..
  · refine State.forEach_keeps (fun t => t.core? c = some (k.mxRunTo s.cycle)) (fun t o ht => ?_) _ _ (by simp)
    split_ifs <;> simp [ht]

@[simp] theorem State.mxSettle_cycle (s : State) (c : Nat) : (s.mxSettle c).cycle = s.cycle := by
  unfold State.mxSettle
  split
  · rfl
  · split
    · rfl
    · exact State.forEach_keeps (fun t => t.cycle = s.cycle) (fun t o ht => by split_ifs <;> simp [ht]) _ _ (State.Stays.afterTake _ c).cycle

theorem Core.mxCycles_clock (n : Nat) : ∀ k : Core, (k.mxCycles n).mx.clock = k.mx.clock + n := by
  induction n with
  | zero => exact fun _ => rfl
  | succ n ih =>
    intro k
    rw [Core.mxCycles, ih (k.mxCycle k.mx.clock), show (k.mxCycle k.mx.clock).mx.clock = k.mx.clock + 1 from rfl]
    omega

/-- An engine that is brought up to a cycle is there. -/
theorem Core.le_mxRunTo_clock (k : Core) (now : Nat) : now ≤ (k.mxRunTo now).mx.clock := by
  unfold Core.mxRunTo
  split
  · exact Nat.le_max_right ..
  · rw [Core.mxCycles_clock]
    omega

/-- An engine that is there already stays as it is. -/
theorem Core.mxRunTo_of_le {k : Core} {now : Nat} (h : now ≤ k.mx.clock) : k.mxRunTo now = k := by
  unfold Core.mxRunTo
  split
  · rw [Nat.max_eq_left h]
  · rw [Nat.sub_eq_zero_of_le h, Core.mxCycles]

/-- A core whose engine has been settled stands at the cycle. -/
theorem State.cycle_le_of_mxSettle {s : State} {c : Nat} {k : Core} (hk : (s.mxSettle c).core? c = some k) : s.cycle ≤ k.mx.clock := by
  cases hc : s.core? c with
  | none =>
    have hsame : s.mxSettle c = s := by simp only [State.mxSettle, hc]
    rw [hsame, hc] at hk
    cases hk
  | some k0 =>
    obtain rfl : k0.mxRunTo s.cycle = k := Option.some.inj ((State.core?_mxSettle hc).symm.trans hk)
    exact k0.le_mxRunTo_clock s.cycle

/-- Settling an engine that stands at the cycle leaves its core. -/
theorem State.core?_mxSettle_of_le {s : State} {c : Nat} {k : Core} (hk : s.core? c = some k) (h : s.cycle ≤ k.mx.clock) : (s.mxSettle c).core? c = some k := by
  rw [State.core?_mxSettle hk, Core.mxRunTo_of_le h]

/-! ## Fetching an element -/

/-- Between two states time is the same, and a core keeps its engine and, of the stream on a register, the number of its command and its context. -/
structure State.Fetches (c q : Nat) (s t : State) : Prop where
  cycle : t.cycle = s.cycle
  core : ∀ k, s.core? c = some k → ∃ k', t.core? c = some k' ∧ k'.mx = k.mx ∧
    (k'.sreg q).strm.map (fun u => (u.id, u.ctx)) = (k.sreg q).strm.map (fun u => (u.id, u.ctx))

namespace State.Fetches

theorem of_stays {s t : State} (c q : Nat) (h : s.Stays t) : s.Fetches c q t where
  cycle := h.cycle
  core k hk := by
    obtain ⟨k', hk', hkk⟩ := h.cores c k hk
    exact ⟨k', hk', hkk.mx, by rw [hkk.sreg]⟩

theorem refl (c q : Nat) (s : State) : s.Fetches c q s := of_stays c q (.refl s)

theorem trans {c q : Nat} {s t u : State} (h : s.Fetches c q t) (h' : t.Fetches c q u) : s.Fetches c q u where
  cycle := h'.cycle.trans h.cycle
  core k hk := by
    obtain ⟨l, hl, hlmx, hls⟩ := h.core k hk
    obtain ⟨m, hm, hmmx, hms⟩ := h'.core l hl
    exact ⟨m, hm, hmmx.trans hlmx, hms.trans hls⟩

/-- The stream's IDX and scale byte, as its fetches take them. -/
theorem updStrm (c q : Nat) (s : State) {f : Strm → Strm} (hf : ∀ u, (f u).id = u.id ∧ (f u).ctx = u.ctx) : s.Fetches c q (s.updStrm c q f) where
  cycle := State.updSreg_cycle ..
  core k hk := ⟨_, State.core?_updStrm hk f, rfl, by
    rw [Core.sreg_setSreg_same]
    cases (k.sreg q).strm with
    | none => rfl
    | some u => simp [hf u]⟩

theorem fst {α : Type} {c q : Nat} {s t : State} {a : α} {r : State × α} (h : s.Fetches c q r.1) (he : r = (t, a)) : s.Fetches c q t := by
  subst he
  exact h

theorem readElem (c q : Nat) (s : State) (d : Desc) (a : Int) (sub : Nat) : s.Fetches c q (s.readElem c d a sub).1 := by
  unfold State.readElem
  split
  · exact refl c q s
  · extract_lets bits r
    have hr : s.Fetches c q r.1 := by
      simp only [r]
      split
      · exact of_stays c q (.readVia s c _ _ _)
      · exact of_stays c q (.readBytes c _ _ s _)
    clear_value r
    split
    · exact hr
    · exact hr

theorem takeIdx (c q : Nat) (s : State) (d : Desc) (t : Strm) (i : Nat) : s.Fetches c q (s.takeIdx c q d t i).1 := by
  unfold State.takeIdx
  split
  · exact refl c q s
  extract_lets j
  split
  · exact refl c q s
  split
  · exact refl c q s
  · next e _ =>
    split
    · exact refl c q s
    split
    · exact refl c q s
    have hread := readElem c q s e (e.address j 0).1 (e.address j 0).2
    extract_lets a
    split
    · next heq =>
      split
      · exact hread.fst heq
      · exact (hread.fst heq).trans (updStrm c q _ fun _ => ⟨rfl, rfl⟩)
    · next heq => exact hread.fst heq
    · next heq => exact hread.fst heq
    · next heq => exact hread.fst heq

theorem takeScale (c q : Nat) (s : State) (d : Desc) (t : Strm) (i : Nat) : s.Fetches c q (s.takeScale c q d t i).1 := by
  have hread : s.Fetches c q (s.readVia c d.home (d.scaleAddr i) 1).1 := of_stays c q (.readVia s c _ _ _)
  unfold State.takeScale
  extract_lets block
  split
  · exact refl c q s
  split
  · exact refl c q s
  split
  · next heq => exact (hread.fst heq).trans (updStrm c q _ fun _ => ⟨rfl, rfl⟩)
  · next heq => exact hread.fst heq
  · next heq => exact hread.fst heq
  · next heq => exact hread.fst heq

theorem fetchElem (c q : Nat) (s : State) (d : Desc) (t : Strm) (i : Nat) : s.Fetches c q (s.fetchElem c q d t i).1 := by
  have hidx := takeIdx c q s d t i
  unfold State.fetchElem
  split
  · exact refl c q s
  split
  · next u v heq =>
    have hu := hidx.fst heq
    have hscale := hu.trans (takeScale c q u d t i)
    split
    · next w sc sp heq' =>
      have hread := (hscale.fst heq').trans (readElem c q w d (d.address i v).1 (d.address i v).2)
      extract_lets a
      split
      · next heq'' => exact hread.fst heq''
      · next heq'' => exact hread.fst heq''
      · next heq'' => exact hread.fst heq''
      · next heq'' => exact hread.fst heq''
    · next heq' => exact hscale.fst heq'
    · next heq' => exact hscale.fst heq'
    · next heq' => exact hscale.fst heq'
  · next heq => exact hidx.fst heq
  · next heq => exact hidx.fst heq
  · next heq => exact hidx.fst heq

end State.Fetches

end Sys2Proof.Machine
end
section
/-! SUPPORT. Arrival, performance, fault and retirement of a stream (07 R169 to R175). -/

namespace Sys2Proof.Machine

/-! ## Arrival -/

theorem levelElems_pos (units bits : Nat) : 0 < levelElems units bits := Nat.succ_pos _

/-- A stream all of whose elements have arrived takes no more. -/
theorem State.pump_of_all {s : State} {c q : Nat} {k : Core} {t : Strm} (hk : s.core? c = some k) (ht : (k.sreg q).strm = some t) (hall : t.total ≤ t.done)
    (n : Nat) : (s.pump c q n).1 = s := by
  cases n with
  | zero => rfl
  | succ n => cases hd : (k.sreg q).desc <;> simp [State.pump, hk, ht, hd, hall]

section
variable {s u : State} {c q : Nat} {k : Core} {d : Desc} {t : Strm} {e : Elem} (hk : s.core? c = some k) (hd : (k.sreg q).desc = some d)
  (ht : (k.sreg q).strm = some t) (hstore : t.store = false) (hfaulted : t.faulted = false) (hfrozen : t.frozen = false)
  (hcancelled : t.cancelled = false)
include hk hd ht hstore hfaulted hfrozen hcancelled

/-- An element that is read goes to the buffer of its stream. -/
theorem State.pump_of_got (hstopped : t.stopped = false) (hmore : t.done < t.total) (hbuf : t.buf = []) (he : s.fetchElem c q d t t.done = (u, .got e))
    (n : Nat) : s.pump c q (n + 1) =
      (u.updStrm c q fun t => { t with buf := t.buf ++ [e], done := t.done + 1, stopped := false }).pump c q n := by
  have hroom : ¬levelElems d.off (EType.bits d.et) ≤ 0 := Nat.not_le_of_lt (levelElems_pos ..)
  simp [State.pump, hk, hd, ht, hstore, hfaulted, hfrozen, hcancelled, hstopped, hmore, hbuf, he, hroom]

/-- The last element of a stream is delivered: what is left to do is to post events. -/
theorem State.core?_deliver_last (hstopped : t.stopped = false) (hlast : t.total = t.done + 1) (hbuf : t.buf = [])
    (he : s.fetchElem c q d t t.done = (u, .got e)) {k2 : Core} {t2 : Strm} (hk2 : u.core? c = some k2) (ht2 : (k2.sreg q).strm = some t2)
    (hdone : t2.done = t.done) (htotal : t2.total = t.total) :
    (s.deliver c q).core? c = some (k2.setSreg q { k2.sreg q with strm := some { t2 with buf := t2.buf ++ [e], done := t.total, stopped := false } }) ∧
    (s.deliver c q).cycle = u.cycle := by
  let put := u.updStrm c q fun t => { t with buf := t.buf ++ [e], done := t.done + 1, stopped := false }
  have hput : put.core? c = some (k2.setSreg q { k2.sreg q with strm := some { t2 with buf := t2.buf ++ [e], done := t.total, stopped := false } }) := by
    simp only [put, State.core?_updStrm hk2, ht2, Option.map_some, hdone, hlast]
  have hpump : (s.pump c q (max 1 (2048 / EType.bits d.et))).1 = put := by
    obtain ⟨n, hn⟩ : ∃ n, max 1 (2048 / EType.bits d.et) = n + 1 := Nat.exists_eq_succ_of_ne_zero (by omega)
    rw [hn, State.pump_of_got hk hd ht hstore hfaulted hfrozen hcancelled hstopped (by omega) hbuf he]
    exact State.pump_of_all hput (by rw [Core.sreg_setSreg_same]) (Nat.le_of_eq htotal) n
  have hcycle : put.cycle = u.cycle := State.updSreg_cycle ..
  clear_value put
  simp only [State.deliver, hk, Option.map_some, ht, hd, hstore, hcancelled, Bool.false_and, Bool.false_eq_true, if_false]
  generalize s.pump c q (max 1 (2048 / EType.bits d.et)) = r at hpump
  obtain ⟨w, p⟩ := r
  obtain rfl : w = put := hpump
  cases p with
  | more =>
    dsimp only
    split
    · exact ⟨hput, hcycle⟩
    · exact ⟨(State.core?_postOnce ..).trans hput, (State.Stays.postOnce ..).cycle.trans hcycle⟩
  | waits => exact ⟨hput, hcycle⟩
  | ends => exact ⟨hput, hcycle⟩

end

/-- STREAM_DATA_ARRIVAL delivers, and what follows leaves the core where its engine stands at the cycle. -/
theorem core?_execStreamDataArrival {s : State} {c q : Nat} (hev : s.ev = .streamDataArrival c q) {k : Core}
    (hk : (((s.mxSettle c).afterTake c).deliver c q).core? c = some k) (hclock : (((s.mxSettle c).afterTake c).deliver c q).cycle ≤ k.mx.clock) :
    ∃ t, exec .streamDataArrival s = .next t ∧ t.core? c = some k := by
  have hset : (((((s.mxSettle c).afterTake c).deliver c q).mxSettle c).kickGrid c).core? c = some k := by
    rw [State.core?_kickGrid, State.core?_mxSettle_of_le hk hclock]
  change ∃ t, execStreamDataArrival s = .next t ∧ _
  simp only [execStreamDataArrival, hev, Host.Outcome.next.injEq, exists_eq_left', hset, Option.map_some]
  split
  · exact hset
  · split_ifs <;> simp [hset]

/-! ## Performance -/

theorem Desc.group_pos (d : Desc) : 0 < d.group := by
  unfold Desc.group
  split
  · decide
  · split <;> decide

/-- A group of its own is what performs next. -/
theorem Core.groupNow_of_group {k : Core} {q : Nat} {d : Desc} {t : Strm} (hfirst : t.done % d.group = 0) (hbuf : t.buf.length = d.group) :
    k.groupNow q d t = t.buf := by
  have htake : t.buf.take d.group = t.buf := List.take_of_length_le (Nat.le_of_eq hbuf)
  simp [Core.groupNow, hfirst, htake, hbuf]

theorem Core.groupNow_of_empty {k : Core} {q : Nat} {d : Desc} {t : Strm} (hbuf : t.buf = []) : k.groupNow q d t = [] := by
  simp [Core.groupNow, hbuf]

/-- A store stream that holds nothing performs nothing. -/
theorem State.performStore_of_empty {s : State} {c q : Nat} {k : Core} {t : Strm} (hk : s.core? c = some k) (ht : (k.sreg q).strm = some t) (hbuf : t.buf = [])
    (n : Nat) : (s.performStore c q n).1 = s := by
  cases n with
  | zero => rfl
  | succ n => cases hd : (k.sreg q).desc <;> simp [State.performStore, hk, ht, hd, Core.groupNow_of_empty hbuf]

/-- A group that performs leaves the buffer. -/
theorem State.core?_performStore_group {s u w : State} {c q : Nat} {k k2 : Core} {d : Desc} {t t2 : Strm} (hk : s.core? c = some k)
    (hd : (k.sreg q).desc = some d) (ht : (k.sreg q).strm = some t) (hstore : t.store = true) (hfaulted : t.faulted = false) (hcancelled : t.cancelled = false)
    (hfirst : t.done % d.group = 0) (hbuf : t.buf.length = d.group)
    (hperf : s.performGroup c q d t t.done (t.buf.map fun e => { e with p := e.p || t.psn }) = ⟨u, d.group, w, .got ()⟩)
    (hk2 : u.core? c = some k2) (ht2 : (k2.sreg q).strm = some t2) (hbuf2 : t2.buf = t.buf) (hdone2 : t2.done = t.done) (n : Nat) :
    (s.performStore c q (n + 1)).1.core? c = some (k2.setSreg q { k2.sreg q with strm := some { t2 with buf := [], done := t.done + d.group } }) := by
  have hsome : t.buf.isEmpty = false := by
    rw [List.isEmpty_eq_false_iff_exists_mem]
    exact List.exists_mem_of_length_pos (hbuf ▸ d.group_pos)
  have hdrop : t.buf.drop d.group = [] := List.drop_eq_nil_of_le (Nat.le_of_eq hbuf)
  have htook : (u.updStrm c q fun t => { t with buf := t.buf.drop d.group, done := t.done + d.group }).core? c =
      some (k2.setSreg q { k2.sreg q with strm := some { t2 with buf := [], done := t.done + d.group } }) := by
    rw [State.core?_updStrm hk2, ht2, Option.map_some, hbuf2, hdrop, hdone2]
  simp only [State.performStore, hk, hd, ht, Option.map_some, hstore, hfaulted, hcancelled, Core.groupNow_of_group hfirst hbuf, hsome, hperf, Bool.not_true,
    Bool.or_self, Bool.false_eq_true, if_false]
  rw [State.performStore_of_empty htook (by rw [Core.sreg_setSreg_same]) rfl]
  exact htook

/-- STORE_STREAM_ELEMENT_PERFORMED performs, and settles the engine. -/
theorem core?_execStoreStreamElementPerformed {s : State} {c q : Nat} (hev : s.ev = .storeStreamElementPerformed c q) {k k' : Core} {d : Desc} {t : Strm}
    (hk : (s.mxSettle c).core? c = some k) (hd : (k.sreg q).desc = some d) (ht : (k.sreg q).strm = some t) (hstore : t.store = true)
    (hfaulted : t.faulted = false) (hk' : ((s.mxSettle c).performStore c q (max 1 (2048 / EType.bits d.et / d.group))).1.core? c = some k') :
    ∃ u now, exec .storeStreamElementPerformed s = .next u ∧ u.core? c = some (k'.mxRunTo now) := by
  change ∃ u now, execStoreStreamElementPerformed s = .next u ∧ _
  rw [exists_comm]
  refine ⟨((s.mxSettle c).performStore c q (max 1 (2048 / EType.bits d.et / d.group))).1.cycle, ?_⟩
  simp only [execStoreStreamElementPerformed, hev, Host.Outcome.next.injEq, exists_eq_left', hk, ht, hd, Option.map_some, hstore, hfaulted,
    Bool.not_true, Bool.or_self, Bool.false_eq_true, if_false]
  generalize (s.mxSettle c).performStore c q (max 1 (2048 / EType.bits d.et / d.group)) = r at hk'
  obtain ⟨u, p⟩ := r
  have hset : ((u.mxSettle c).kickGrid c).core? c = some (k'.mxRunTo u.cycle) := by rw [State.core?_kickGrid, State.core?_mxSettle hk']
  dsimp only
  split
  · exact hset
  · split_ifs <;> simp [hset]

/-- An engine with nothing at work leaves the stream registers. -/
theorem Core.sreg_mxRunTo_of_idle {k : Core} (hrun : k.mx.run = []) (hport : k.mx.port = []) (now q : Nat) : (k.mxRunTo now).sreg q = k.sreg q := by
  simp only [Core.mxRunTo, hrun, hport, List.isEmpty_nil, Bool.and_self, if_true]
  rfl

/-! ## Fault -/

/-- A fault put among others is there. -/
theorem mem_addFault (f : SFault) (l : List SFault) : f ∈ addFault f l := by
  induction l with
  | nil => exact List.mem_cons_self
  | cons g l ih =>
    unfold addFault
    split
    · exact List.mem_cons_self
    · exact List.mem_cons_of_mem _ ih

@[simp] theorem Ctx.wake_pend (x : Ctx) (now : Nat) : (x.wake now).pend = x.pend := by
  unfold Ctx.wake Ctx.ready
  split
  · split <;> rfl
  · rfl

/-- A fault that is reported to a context with a task is pending there. -/
theorem State.core?_reportFault {s : State} {c n : Nat} {k : Core} {x : Ctx} (hk : s.core? c = some k) (hx : k.ctx? n = some x) (htask : x.st ≠ .empty)
    (f : SFault) : ∃ x', (s.reportFault c n f).core? c = some (k.setCtx n x') ∧ x'.pend.faults = addFault f x.pend.faults := by
  refine ⟨{ x with pend := { x.pend with faults := addFault f x.pend.faults } }.wake s.cycle, ?_, ?_⟩
  · simp only [State.reportFault, State.ctx?_of_core? hk, hx, htask, if_false]
    exact State.core?_updCtx_same _ hk hx
  · rw [Ctx.wake_pend]

@[simp] theorem Core.setCtx_sreg (k : Core) (n : Nat) (x : Ctx) (q : Nat) : (k.setCtx n x).sreg q = k.sreg q := rfl

/-- A stream that faults on an element of a cause that ERET can resume. -/
theorem State.core?_faultStream {s : State} {c q cause addr : Nat} {k : Core} {t : Strm} {x : Ctx} (hk : s.core? c = some k) (ht : (k.sreg q).strm = some t)
    (hx : k.ctx? t.ctx = some x) (htask : x.st ≠ .empty) (hcause : resumable cause = true) :
    ∃ k' x', (s.faultStream c q cause addr).core? c = some k' ∧ (k'.sreg q).st = 3 ∧ (k'.sreg q).fcause = BitVec.ofNat 8 cause ∧
      k'.ctx? t.ctx = some x' ∧ ⟨q, cause, addr, 0, t.id⟩ ∈ x'.pend.faults := by
  have hk1 := State.core?_updSreg hk q fun r => { r with fcause := BitVec.ofNat 8 cause }
  obtain ⟨x', hk2, hfaults⟩ := State.core?_reportFault (n := t.ctx) hk1 hx htask ⟨q, cause, addr, 0, t.id⟩
  have hk3 := State.core?_updSreg hk2 q fun r => { r with st := 3, strm := r.strm.map fun t => { t with faulted := true } }
  refine ⟨_, x', Eq.trans ?_ hk3, ?_, ?_, ?_, hfaults ▸ mem_addFault _ _⟩
  · simp only [State.faultStream, hk, Option.bind_some, ht, Option.map_some, State.ctx?_of_core? hk1, Core.setSreg_ctx?, hx, htask, hcause, decide_false,
      Bool.not_false, Bool.and_self, if_true]
  · rw [Core.sreg_setSreg_same]
  · rw [Core.sreg_setSreg_same, Core.setCtx_sreg, Core.sreg_setSreg_same]
  · rw [Core.setSreg_ctx?, Core.ctx?_setCtx_same]

/-! ## Retirement -/

/-- A load stream all of whose elements have been taken, of a context with a task, retires. -/
theorem State.core?_retireStream {s : State} {c q : Nat} {k : Core} {d : Desc} {t : Strm} {x : Ctx} (hk : s.core? c = some k)
    (hd : (k.sreg q).desc = some d) (ht : (k.sreg q).strm = some t) (hstore : t.store = false) (htaken : t.taken = t.total) (hx : k.ctx? t.ctx = some x)
    (htask : x.st ≠ .empty) :
    ∃ k', (s.retireStream c q).core? c = some k' ∧ (k.setSreg q { k.sreg q with st := 1, strm := none }).Signalled t.sync k' := by
  have horphan : s.orphan c t.ctx = false := State.orphan_of_task hk hx htask
  have hk1 := State.core?_updSreg hk q fun r => { r with st := if r.desc.isSome then 1 else 4, strm := none }
  have hsome : (k.sreg q).desc.isSome = true := by rw [hd, Option.isSome_some]
  simp only [hsome, if_true] at hk1
  obtain ⟨k', hk', h'⟩ := State.core?_post1_afterCommand hk1 t.ctx t.sync
  refine ⟨k', ?_, h'⟩
  simp only [State.retireStream, hk, Option.bind_some, ht, hstore, horphan, htaken, Bool.false_and, Bool.and_false, Bool.false_eq_true, if_false, beq_self_eq_true,
    Bool.not_true]
  exact hk'

/-- The register of a stream that takes its indexes by another keeps what it holds. -/
theorem State.core?_freeIndex {s : State} {c q : Nat} {k : Core} {t : Strm} (hk : s.core? c = some k) (ht : (k.sreg q).strm = some t) :
    ∃ k', (s.freeIndex c q).core? c = some k' ∧ k' = { k with sregs := k'.sregs } ∧ k'.sreg q = k.sreg q := by
  cases hd : (k.sreg q).desc with
  | none => exact ⟨k, by simp [State.freeIndex, hk, ht, hd], rfl, rfl⟩
  | some d =>
    cases hix : d.ix with
    | false => exact ⟨k, by simp [State.freeIndex, hk, ht, hd, hix], rfl, rfl⟩
    | true =>
      refine ⟨_, Eq.trans ?_ (State.core?_updSreg hk d.iq fun r => if r.st = 2 && r.strm.isNone then { r with st := 1 } else r), rfl, ?_⟩
      · simp only [State.freeIndex, hk, ht, hd, hix, Option.map_some, if_true]
      refine Core.sreg_setSreg_of_eq fun hq => ?_
      rw [← hq]
      simp [ht]

theorem State.freeOrphan_of_task {s : State} {c q : Nat} {k : Core} {x : Ctx} (hk : s.core? c = some k) (hx : k.ctx? (k.sreg q).owner = some x)
    (htask : x.st ≠ .empty) : s.freeOrphan c q = s := by
  simp [State.freeOrphan, hk, State.orphan_of_task hk hx htask]

/-- STREAM_RETIRE of a load stream that is through, its owner with a task. -/
theorem core?_execStreamRetire {s : State} {c q : Nat} (hev : s.ev = .streamRetire c q) {k : Core} {d : Desc} {t : Strm} {x : Ctx}
    (hk : (s.mxSettle c).core? c = some k) (hd : (k.sreg q).desc = some d) (ht : (k.sreg q).strm = some t) (hstore : t.store = false)
    (htaken : t.taken = t.total) (howner : (k.sreg q).owner = t.ctx) (hx : k.ctx? t.ctx = some x) (htask : x.st ≠ .empty) :
    ∃ u k', exec .streamRetire s = .next u ∧ u.core? c = some k' ∧ k'.sreg q = { k.sreg q with st := 1, strm := none } ∧
      (t.sync.si ≠ 0 → k'.sem t.sync.ss.toNat = (k.sem t.sync.ss.toNat).signal t.sync.si.toNat) := by
  obtain ⟨k1, hk1, h1⟩ := State.core?_retireStream hk hd ht hstore htaken hx htask
  have hgone : (k1.sreg q).strm = none := by rw [h1.sreg, Core.sreg_setSreg_same]
  obtain ⟨k2, hk2, hrest, hsame⟩ := State.core?_freeIndex hk ht
  have hctx : k2.ctx? t.ctx = some x := by rw [hrest]; exact hx
  obtain ⟨k3, hk3, h3⟩ := State.core?_retireStream hk2 (hsame ▸ hd) (hsame ▸ ht) hstore htaken hctx htask
  have hreg : k3.sreg q = { k.sreg q with st := 1, strm := none } := by rw [h3.sreg, Core.sreg_setSreg_same, hsame]
  obtain ⟨x3, hx3, hxx⟩ := h3.ctxs t.ctx x hctx
  have hfree : (((s.mxSettle c).freeIndex c q).retireStream c q).freeOrphan c q = ((s.mxSettle c).freeIndex c q).retireStream c q :=
    State.freeOrphan_of_task hk3 (by rw [hreg]; exact howner ▸ hx3) fun h => htask (hxx.empty.1 h)
  refine ⟨((s.mxSettle c).freeIndex c q).retireStream c q, k3, ?_, hk3, hreg, fun hsi => ?_⟩
  · change execStreamRetire s = _
    simp only [execStreamRetire, hev, hk1, Option.bind_some, hgone, if_true, hfree]
  · rw [h3.sem hsi, Core.setSreg_sem, hrest]
    rfl

/-! ## The obligation -/

/-- Settles O36: the four events of a stream, each by the lemma on its event above. -/
theorem streamElementsAndRetirement : Obligations.StreamElementsAndRetirement := by
  unfold Obligations.StreamElementsAndRetirement
  intro s c q
  refine ⟨?arrival, ?performed, ?fault, ?retire⟩
  case arrival =>
    rintro s1 s2 k1 d t e hev rfl hk1 hd ht hstore hfaulted hfrozen hcancelled hstopped hlast hbuf he ⟨k2, t2, hk2, ht2, hbuf2, hdone2, htotal2⟩
    have hfetch := (State.Fetches.fetchElem c q _ d t t.done).fst he
    obtain ⟨k2', hk2', hmx, -⟩ := hfetch.core k1 hk1
    obtain rfl : k2 = k2' := Option.some.inj (hk2.symm.trans hk2')
    obtain ⟨hdeliver, hcycle⟩ := State.core?_deliver_last hk1 hd ht hstore hfaulted hfrozen hcancelled hstopped hlast hbuf he hk2 ht2 hdone2 htotal2
    have hclock : s2.cycle ≤ k2.mx.clock := by
      rw [hmx, hfetch.cycle, (State.Stays.afterTake _ c).cycle, State.mxSettle_cycle]
      exact State.cycle_le_of_mxSettle ((State.core?_afterTake _ c c).symm.trans hk1)
    obtain ⟨s3, hexec, hk3⟩ := core?_execStreamDataArrival hev hdeliver (by rw [hcycle]; exact hclock)
    exact ⟨s3, _, _, hexec, hk3, by rw [Core.sreg_setSreg_same], rfl, by rw [hbuf2, hbuf, List.nil_append]⟩
  case performed =>
    rintro s1 s2 u k1 d t hev rfl hk1 hd ht - - hstore hfaulted hcancelled hfirst hbuf hperf ⟨k2, t2, hk2, ht2, hbuf2, hdone2, hrun, hport⟩
    obtain ⟨n, hn⟩ : ∃ n, max 1 (2048 / EType.bits d.et / d.group) = n + 1 := Nat.exists_eq_succ_of_ne_zero (by omega)
    have hk3 := State.core?_performStore_group hk1 hd ht hstore hfaulted hcancelled hfirst hbuf hperf hk2 ht2 hbuf2 hdone2 n
    obtain ⟨s3, now, hexec, hs3⟩ := core?_execStoreStreamElementPerformed hev hk1 hd ht hstore hfaulted (by rw [hn]; exact hk3)
    exact ⟨s3, _, _, hexec, hs3, by rw [Core.sreg_mxRunTo_of_idle (k := k2.setSreg q _) hrun hport, Core.sreg_setSreg_same], rfl, rfl⟩
  case fault =>
    rintro s1 s2 k1 k2 d t x cause addr hev rfl hk1 hd ht hstore hfaulted hfrozen hcancelled hfetch hcause hk2 hx htask hsome
    obtain ⟨k2', hk2', -, hstrm⟩ := ((State.Fetches.fetchElem c q _ d t t.done).fst hfetch).core k1 hk1
    obtain rfl : k2 = k2' := Option.some.inj (hk2.symm.trans hk2')
    obtain ⟨t2, ht2⟩ := Option.isSome_iff_exists.1 hsome
    rw [ht2, ht, Option.map_some, Option.map_some, Option.some.injEq, Prod.mk.injEq] at hstrm
    obtain ⟨hid, hctx⟩ := hstrm
    obtain ⟨k3, x3, hk3, hst, hfcause, hx3, hmem⟩ := State.core?_faultStream (addr := addr) hk2 ht2 (hctx ▸ hx) htask hcause
    refine ⟨s2.faultStream c q cause addr, k3, x3, ?_, hk3, hst, hfcause, hctx ▸ hx3, hid ▸ hmem⟩
    change execStreamElementFault s = _
    have hnone : (s.mxSettle c).abandonOp c q = none := by simp [State.abandonOp, hk1, ht, hfrozen]
    simp [execStreamElementFault, hev, hnone, State.streamFaultNow, hk1, ht, hd, hfaulted, hcancelled, hstore, hfetch]
  case retire =>
    rintro s1 k1 d t x hev rfl hk1 hd ht hstore htaken howner hx htask
    obtain ⟨u, k', hexec, hk', hreg, hsem⟩ := core?_execStreamRetire hev hk1 hd ht hstore htaken howner hx htask
    exact ⟨u, k', hexec, hk', by rw [hreg], by rw [hreg], hsem⟩

end Sys2Proof.Machine
end
section
/-! SUPPORT. How a stream command and a QSET of the queue come to effect (07 R164, R165, R169, R172, R175). -/

namespace Sys2Proof.Machine

/-! ## Starts -/

@[simp] theorem State.core?_postOpen (s : State) (d : Nat) (e : Event) (c : Nat) : (s.postOpen d e).core? c = s.core? c := rfl

/-- The queue starts its one command, where it may start. -/
theorem State.qStartAll_single {s : State} {c : Nat} {k : Core} {y : QCmd} (hk : s.core? c = some k) (hstarts : k.qStarts y = true)
    (hflow : (QKind.isRcopy y.kind && s.flowsHeld c) = false) : s.qStartAll c [y] = s.qStart c y := by
  simp [State.qStartAll, hk, hstarts, hflow]

/-- A queue of one command, marked as started, is empty without it. -/
theorem Core.dropQ_updQ_of_single {k : Core} {y : QCmd} (h : k.qcmds = [y]) {f : QCmd → QCmd} (hf : (f y).id = y.id) :
    (k.updQ y.id f).dropQ y.id = { k with qcmds := [] } := by simp [Core.updQ, Core.dropQ, h, hf]

/-- A stream command that starts leaves the queue. -/
theorem State.qStart_strm {s : State} {c q : Nat} {k : Core} {y : QCmd} {store ix : Bool} (hk : s.core? c = some k) (hq : k.qcmds = [y])
    (hkind : y.kind = .strm q store ix) :
    ∃ t : State, s.qStart c y = t.startStream c y.id y.ctx q store ix y.sync y.word y.next y.psn ∧ t.core? c = some { k with qcmds := [] } := by
  refine ⟨_, by simp only [State.qStart, hkind]; rfl, ?_⟩
  rw [State.core?_updCore_same, State.core?_updCore_same, hk, Option.map_some, Option.map_some, Core.dropQ_updQ_of_single hq rfl]

section
variable {s : State} {c n q : Nat} {k : Core} {store ix : Bool} (hk : s.core? c = some k) (id : Nat) (sync : Sync) (word : Word32) (psn : Bool)
include hk

/-- A stream on a good descriptor makes its register ACTIVE with all its elements to come. -/
theorem State.core?_startStream {d : Desc} (hd : (k.sreg q).desc = some d) (hbad : k.strmBad n q store ix = false) (htotal : 0 < d.total) :
    ∃ k' m, (s.startStream c id n q store ix sync word 0 psn).core? c = some k' ∧ k' = { k with sregs := k'.sregs } ∧ (k'.sreg q).st = 2 ∧
      (k'.sreg q).strm = some m ∧ m.store = store ∧ m.ctx = n ∧ m.sync = sync ∧ m.total = d.total ∧ m.done = 0 ∧ m.taken = 0 ∧ m.cancelled = false := by
  have hst : (k.sreg q).st ≠ 4 := fun h4 => by simp [Core.strmBad, hd, h4] at hbad
  unfold State.startStream
  split
  · next hnone => rw [hk] at hnone; cases hnone
  next k0 hk0 =>
  obtain rfl : k = k0 := Option.some.inj (hk.symm.trans hk0)
  extract_lets r bad onM total t s1 s2 s3
  have hb : bad = false := hbad
  have hdr : r.desc = some d := hd
  have htot : total = d.total := by simp only [total, hdr, hb, Bool.false_eq_true, if_false]
  have hk1 : s1.core? c = some (k.setSreg q { k.sreg q with st := 2, strm := some t }) := by
    rw [State.core?_updSreg hk]
    simp [hd, hst, hb]
  obtain ⟨k', hk3, hrest, hst', hstrm'⟩ : ∃ k', s3.core? c = some k' ∧ k' = { k with sregs := k'.sregs } ∧ (k'.sreg q).st = 2 ∧ (k'.sreg q).strm = some t := by
    simp only [s3, s2, hb, hdr, Bool.not_false, Bool.and_true, Bool.false_eq_true, if_false]
    split
    · refine ⟨_, State.core?_updSreg hk1 d.iq _, rfl, ?_⟩
      by_cases hq : q = d.iq
      · simp [← hq]
      · simp [Core.sreg_setSreg_ne _ _ hq]
    · exact ⟨_, hk1, rfl, by simp⟩
  have hmin : ∀ n, min 0 n = 0 := Nat.zero_min
  refine ⟨k', t, Eq.trans ?_ hk3, hrest, hst', hstrm', rfl, rfl, rfl, htot, hmin _, hmin _, hb⟩
  have hne : total ≠ min 0 total := by omega
  rw [if_neg hne, hdr]
  cases store
  · simp only [Bool.false_eq_true, if_false]
    split
    · exact State.core?_postOpen ..
    · exact State.core?_postOnce ..
  · exact State.core?_postOnce ..

/-- A stream on a bad descriptor is cancelled, and STREAM_FAULT of cause 1 is pending in its context. -/
theorem State.core?_startStream_bad {x : Ctx} (hbad : k.strmBad n q store ix = true) (hx : k.ctx? n = some x) (htask : x.st ≠ .empty) :
    ∃ k' m x', (s.startStream c id n q store ix sync word 0 psn).core? c = some k' ∧ (k'.sreg q).strm = some m ∧ m.cancelled = true ∧
      k'.ctx? n = some x' ∧ x'.pend.faults = addFault ⟨q, 0x01, 0, 3, id⟩ x.pend.faults := by
  unfold State.startStream
  split
  · next hnone => rw [hk] at hnone; cases hnone
  next k0 hk0 =>
  obtain rfl : k = k0 := Option.some.inj (hk.symm.trans hk0)
  extract_lets r bad onM total t s1 s2 s3
  have hb : bad = true := hbad
  have htot : total = 0 := by
    simp only [total, hb, if_true]
    split <;> rfl
  have hs2 : s2 = s1 := by
    simp only [s2, hb, Bool.not_true, Bool.and_false, Bool.false_eq_true, if_false]
    split <;> rfl
  have hs3 : s3 = s1.reportFault c n ⟨q, 0x01, 0, 3, id⟩ := by simp only [s3, hb, if_true, hs2]
  obtain ⟨x', hk3, hfaults⟩ := State.core?_reportFault (State.core?_updSreg hk q _) hx htask ⟨q, 0x01, 0, 3, id⟩
  refine ⟨_, t, x', Eq.trans ?_ hk3, ?_, hb, Core.ctx?_setCtx_same .., hfaults⟩
  · have heq : total = min 0 total := by omega
    rw [if_pos heq, State.core?_postOnce, hs3]
  · rw [Core.setCtx_sreg, Core.sreg_setSreg_same]

end

/-! ## QSET -/

/-- The QSET of a queue of one command is the one that completes. -/
theorem execQsetCompletion_single {s : State} {c q : Nat} {a : Word64} {k : Core} {y : QCmd} (hev : s.ev = .qsetCompletion c q) (hk : s.core? c = some k)
    (hq : k.qcmds = [y]) (hkind : y.kind = .qset q a) (hstarted : y.started = true) (hfaulted : y.faulted = false) :
    (∀ s1 ws, a ≠ 0 → s.readWords c false a.toNat 32 = (s1, .got ws) →
      let d := parseDesc q (ws.map fun w => { w with p := w.p || y.psn })
      exec .qsetCompletion s =
        .next (((s1.updSreg c q fun r => { r with st := if d.isSome then 1 else 4, desc := d, descAddr := a }).qDone c y).postOnce 0 (.streamRetire c q))) ∧
    (a = 0 → exec .qsetCompletion s = .next ((s.updCore c fun k => { k with sregs := Tab.set none k.sregs q none }).qDone c y)) := by
  refine ⟨fun s1 ws ha hread => ?_, fun ha => ?_⟩
  · have ha0 : a ≠ 0#64 := ha
    change execQsetCompletion s = _
    simp [execQsetCompletion, hev, hk, hq, hkind, hstarted, hfaulted, ha0, hread]
  · change execQsetCompletion s = _
    simp [execQsetCompletion, hev, hk, hq, hkind, hstarted, hfaulted, ha]

/-! ## The obligation -/

/-- Settles O35: starts by what `startStream` does on a good and on a bad descriptor, QSET by what its completion does for an address and for 0. -/
theorem streamCommandsStart : Obligations.StreamCommandsStart := by
  unfold Obligations.StreamCommandsStart
  refine ⟨?starts, ?completes⟩
  case starts =>
    intro s c q k y store ix hk hev hq hkind hnext hstarts
    obtain ⟨t, hstart, hkt⟩ := State.qStart_strm hk hq hkind
    have hexec : exec .streamCommandStart s = .next (t.startStream c y.id y.ctx q store ix y.sync y.word 0 y.psn) := by
      have hflow : (QKind.isRcopy y.kind && s.flowsHeld c) = false := by simp [hkind, QKind.isRcopy]
      change execStreamCommandStart s = _
      simp only [execStreamCommandStart, hev, hk, hq]
      rw [State.qStartAll_single hk hstarts hflow, hstart, hnext]
    refine ⟨fun d hd hbad htotal _ => ?_, fun x hbad hx htask hnone => ?_⟩
    · obtain ⟨k', m, hk', hrest, hflows⟩ := State.core?_startStream hkt y.id y.sync y.word y.psn hd hbad htotal
      exact ⟨_, k', m, hexec, hk', by rw [hrest], hflows⟩
    · obtain ⟨k', m, x', hk', hm, hcancelled, hx', hfaults⟩ := State.core?_startStream_bad hkt y.id y.sync y.word y.psn hbad hx htask
      exact ⟨_, k', m, x', hexec, hk', hm, hcancelled, hx', by rw [hfaults, hnone, addFault]⟩
  case completes =>
    intro s c q a k y hk hev hq hkind hstarted hfaulted
    obtain ⟨hset, hfree⟩ := execQsetCompletion_single hev hk hq hkind hstarted hfaulted
    refine ⟨fun s1 k1 ws ha hread hk1 => ?_, fun ha hwf => ?_⟩
    · obtain ⟨k1', hk1', hkk⟩ := ((State.Stays.readWords c false 32 s a.toNat).fst hread).cores c k hk
      obtain rfl : k1 = k1' := Option.some.inj (hk1.symm.trans hk1')
      obtain ⟨k', hk', h'⟩ := State.core?_qDone (State.core?_updSreg hk1 q _) y
      refine ⟨_, k', hset s1 ws ha hread, (State.core?_postOnce ..).trans hk', ?_, ?_, ?_, ?_, h'.sem⟩
      · exact h'.qcmds.trans (Core.dropQ_qcmds_of_single (hkk.qcmds.trans hq))
      all_goals exact congrArg _ ((h'.sreg q).trans (Core.sreg_setSreg_same ..))
    · have hk0 : (s.updCore c fun k => { k with sregs := Tab.set none k.sregs q none }).core? c = some { k with sregs := Tab.set none k.sregs q none } := by
        rw [State.core?_updCore_same, hk, Option.map_some]
      obtain ⟨k', hk', h'⟩ := State.core?_qDone hk0 y
      refine ⟨_, k', hfree ha, hk', h'.qcmds.trans (Core.dropQ_qcmds_of_single hq), ?_, h'.sem⟩
      rw [h'.sregs]
      exact Tab.get_set_wf none none q hwf

end Sys2Proof.Machine
end
section
/-! SUPPORT. How a command of the Q slot is issued (07 R163, R172, 18 R461). -/

namespace Sys2Proof.Machine

/-! ## What enters the queue -/

/-- The command that an instruction enters in the queue at its issue. -/
def State.issuedQ (s : State) (k : Core) (n : Nat) (i : Instr) (w : Sync) (kind : QKind) : QCmd :=
  ⟨k.nextCmd, n, kind, w, engineWord i, false, 0, false, 0, [], Instr.guardPsn s.bun.old i⟩

/-- What a command does to the stream registers at its issue: a QSET takes its register (07 R163). -/
def QKind.take (n : Nat) : QKind → State → State
  | .qset q _ => fun s => s.updSreg s.cur q fun r => { r with alloc := true, owner := n }
  | _ => id

/-- The stream registers of a core after the issue of a command. -/
def Core.sregsTaken (k : Core) (n : Nat) : QKind → Tab (Option SReg)
  | .qset q _ => Tab.set none k.sregs q (some { k.sreg q with alloc := true, owner := n })
  | _ => k.sregs

/-- The core once a command has entered its queue. -/
def Core.enqueue (k : Core) (n : Nat) (q : QCmd) : Core :=
  { k with nextCmd := k.nextCmd + 1, qcmds := k.qcmds ++ [q], sregs := k.sregsTaken n q.kind }

@[simp] theorem Core.enqueue_qcmds (k : Core) (n : Nat) (q : QCmd) : (k.enqueue n q).qcmds = k.qcmds ++ [q] := rfl

/-- The register that a QSET has taken. -/
theorem Core.sreg_enqueue_qset (k : Core) (n : Nat) {q : QCmd} {r : Nat} {a : Word64} (h : q.kind = .qset r a) :
    (k.enqueue n q).sreg r = { k.sreg r with alloc := true, owner := n } := by
  simp [Core.sreg, Core.enqueue, Core.sregsTaken, h, Tab.get_set_some]

/-- No command that enters the queue makes a register ACTIVE or FAULTED. -/
@[simp] theorem Core.regBusy_enqueue (k : Core) (n : Nat) (q : QCmd) (r : Nat) : (k.enqueue n q).regBusy r = k.regBusy r := by
  obtain ⟨a, ha⟩ | hsame : (∃ a, q.kind = .qset r a) ∨ (k.enqueue n q).sreg r = k.sreg r := by
    cases hkind : q.kind with
    | qset p a =>
      by_cases hp : r = p
      · exact .inl ⟨a, by rw [hp]⟩
      · exact .inr (by simp [Core.sreg, Core.enqueue, Core.sregsTaken, hkind, Tab.get_set_ne _ _ _ hp])
    | strm | qcopy | qccopy | qrcopy | gcfg | grun | qsave | stash => exact .inr (by simp [Core.sreg, Core.enqueue, Core.sregsTaken, hkind])
  · rw [Core.regBusy, Core.sreg_enqueue_qset k n ha, Core.regBusy]
  · rw [Core.regBusy, hsame, Core.regBusy]

/-! ## A DRAFTLD in the launch of a core -/

/-- An entry of a table after a key has been given something is that or an old one. -/
theorem Tab.mem_ins {α : Type} {m : Tab α} {n : Nat} {x : α} {e : Nat × α} (h : e ∈ Tab.ins m n x) : e = (n, x) ∨ e ∈ m := by
  induction m with
  | nil => exact .inl (List.mem_singleton.1 h)
  | cons a m ih =>
    obtain ⟨j, v⟩ := a
    unfold Tab.ins at h
    split_ifs at h
    · exact List.mem_cons.1 h
    · exact (List.mem_cons.1 h).imp_right (List.mem_cons_of_mem _)
    · obtain rfl | h := List.mem_cons.1 h
      · exact .inr List.mem_cons_self
      · exact (ih h).imp_right (List.mem_cons_of_mem _)

/-- A core that keeps its launch and its contexts holds no flow operations that were not held. -/
theorem State.flowsHeld_updCore {s : State} {c : Nat} {f : Core → Core} (h : s.flowsHeld c = false) (hf : ∀ k, (f k).launch = k.launch ∧ (f k).ctxs = k.ctxs) :
    (s.updCore c f).flowsHeld c = false := by
  cases hk : s.core? c with
  | none => rwa [State.updCore_of_none f hk]
  | some k =>
    obtain ⟨hlaunch, hctxs⟩ := hf k
    rw [State.updCore_of_some f hk]
    cases hl : k.launch with
    | none => simp [State.flowsHeld, hlaunch, hl]
    | some l =>
      simp only [State.flowsHeld, hk, Option.bind_some, hl, List.any_eq_false] at h
      simp only [State.flowsHeld, State.core?_setCore_same, Option.bind_some, hlaunch, hl, List.any_eq_false]
      intro e he
      have hmem : e ∈ Tab.ins s.cores c (some (f k)) := by simpa [State.setCore, Tab.set] using he
      obtain rfl | he := Tab.mem_ins hmem
      · simpa only [hlaunch, hctxs] using h _ (mem_of_get hk)
      · exact h e he

@[simp] theorem State.flowsHeld_postOnce (s : State) (d : Nat) (e : Event) (c : Nat) : (s.postOnce d e).flowsHeld c = s.flowsHeld c := by
  simp [State.flowsHeld]

/-! ## The issue -/

/-- What a command that has entered the queue of the core at hand leaves: the core with it, and its start due in this cycle. -/
structure State.Queued (s t : State) (k : Core) (n : Nat) (q : QCmd) : Prop where
  core : t.core? s.cur = some (k.enqueue n q)
  due : (s.cycle, Event.streamCommandStart s.cur) ∈ t.agenda
  flows : s.flowsHeld s.cur = false → t.flowsHeld s.cur = false

/-- An instruction whose operands have passed its checks: what is left of it is the issue of a command. -/
def State.Enters (s : State) (k : Core) (n : Nat) (x : Ctx) (i : Instr) (w : Sync) (kind : QKind) : Prop :=
  ∃ j, exec i s = .next (s.qIssue k n x j w kind (kind.take n)).finish

theorem State.take_queued {s : State} {k : Core} (hk : s.core? s.cur = some k) (n : Nat) (q : QCmd) :
    s.Queued ((q.kind.take n (s.updCore s.cur fun k => { k with nextCmd := k.nextCmd + 1, qcmds := k.qcmds ++ [q] })).postOnce 0 (.streamCommandStart s.cur)) k n q := by
  let t : State := s.updCore s.cur fun k => { k with nextCmd := k.nextCmd + 1, qcmds := k.qcmds ++ [q] }
  have ht : t.core? s.cur = some { k with nextCmd := k.nextCmd + 1, qcmds := k.qcmds ++ [q] } := by
    rw [State.core?_updCore_same, hk, Option.map_some]
  have hcur : t.cur = s.cur := State.updCore_cur ..
  have hcycle : t.cycle = s.cycle := State.updCore_cycle ..
  have hflows : s.flowsHeld s.cur = false → t.flowsHeld s.cur = false := fun h => State.flowsHeld_updCore h fun _ => ⟨rfl, rfl⟩
  change s.Queued ((q.kind.take n t).postOnce 0 (.streamCommandStart s.cur)) k n q
  clear_value t
  have hdue : ∀ v : State, v.cycle = s.cycle → (s.cycle, Event.streamCommandStart s.cur) ∈ (v.postOnce 0 (.streamCommandStart s.cur)).agenda := fun v hv => by
    simpa [hv] using State.mem_postOnce v 0 (.streamCommandStart s.cur)
  cases hkind : q.kind with
  | qset r a =>
    refine ⟨?_, hdue _ (by rw [QKind.take, State.updSreg_cycle, hcycle]), fun h => ?_⟩
    · simp only [State.core?_postOnce, QKind.take, hcur, State.core?_updSreg ht, Core.enqueue, Core.sregsTaken, hkind]
      rfl
    · simp only [State.flowsHeld_postOnce, QKind.take, hcur]
      exact State.flowsHeld_updCore (hflows h) fun _ => ⟨rfl, rfl⟩
  | strm | qcopy | qccopy | qrcopy | gcfg | grun | qsave | stash =>
    refine ⟨?_, hdue t hcycle, fun h => (State.flowsHeld_postOnce ..).trans (hflows h)⟩
    simp only [State.core?_postOnce, QKind.take, id, ht, Core.enqueue, Core.sregsTaken, hkind]

/-- A command that finds the queue full stalls in place (07 R172). -/
theorem State.Enters.stalls {s : State} {k : Core} {n : Nat} {x : Ctx} {i : Instr} {w : Sync} {kind : QKind} (h : s.Enters k n x i w kind)
    (hmet : w.wt = 0 ∨ (k.sem w.ws.toNat).met w.wt.toNat = true) (hfull : 16 ≤ (k.qcmds.filter fun q => !q.started).length) :
    exec i s = .next s.stall := by
  obtain ⟨j, hexec⟩ := h
  rw [hexec, State.qIssue, State.syncWait_of_met hmet, Try.bind_ok, if_pos hfull, Try.finish_wait]

section
variable {s : State} {k : Core} {n : Nat} {x : Ctx} (hiss : s.issues k n x)
include hiss

/-- An operation that waits for its semaphore blocks its bundle (04 R83, 12 R290). -/
theorem blocksOn_of_syncWait {i : Instr} {w : Sync} {f : State → State → Try State} (hexec : exec i s = .next ((s.syncWait k x .q w).bind f).finish)
    (hmet : ¬(w.wt = 0 ∨ (k.sem w.ws.toNat).met w.wt.toNat = true)) (hsat : Slot.q ∉ x.sat) : BlocksOn s i n x .q w := by
  rw [State.syncWait_of_unmet hmet hsat] at hexec
  obtain ⟨x', hst, hx', hrest⟩ := State.arm_blocks hiss .q w.ws.toNat w.wt.toNat true
  exact ⟨_, x', hexec, hst, hx', hrest⟩

variable {i : Instr} {w : Sync} {kind : QKind} (h : s.Enters k n x i w kind)
include h

/-- A command whose wait is met enters the queue where there is room. -/
theorem State.Enters.queued (hmet : w.wt = 0 ∨ (k.sem w.ws.toNat).met w.wt.toNat = true) (hroom : ¬16 ≤ (k.qcmds.filter fun q => !q.started).length) :
    ∃ j t, exec i s = .next t ∧ s.Queued t k n (s.issuedQ k n j w kind) := by
  obtain ⟨j, hexec⟩ := h
  obtain ⟨hk, -, -⟩ := hiss
  refine ⟨j, _, ?_, State.take_queued hk n (s.issuedQ k n j w kind)⟩
  rw [hexec, State.qIssue, State.syncWait_of_met hmet, Try.bind_ok, if_neg hroom, Try.finish_ok, State.updCore_cur]
  rfl

theorem State.Enters.blocks (hmet : ¬(w.wt = 0 ∨ (k.sem w.ws.toNat).met w.wt.toNat = true)) (hsat : Slot.q ∉ x.sat) : BlocksOn s i n x .q w := by
  obtain ⟨j, hexec⟩ := h
  exact blocksOn_of_syncWait hiss hexec hmet hsat

end

/-! ## The checks of the commands -/

/-- A command in both its forms: where its guard passes, what is left is the issue of the command. -/
def State.BothEnter (s : State) (k : Core) (n : Nat) (x : Ctx) (g : Guard) (i : Instr) (i64 : Sync → Instr) (kind : QKind) : Prop :=
  s.passes g .pk → s.Enters k n x i Sync.none kind ∧ ∀ w, s.Enters k n x (i64 w) w kind

/-- A list that holds no number twice. -/
theorem dupNat_of_nodup {l : List Nat} (h : l.Nodup) : dupNat l = false := by
  induction l with
  | nil => rfl
  | cons a l ih =>
    obtain ⟨ha, hl⟩ := List.nodup_cons.1 h
    simp [dupNat, ha, ih hl]

section
variable {s : State} {k : Core} {n : Nat} {x : Ctx} (hiss : s.issues k n x)

/-- The two forms of a command are one operation, with the synchronisation word and without. -/
theorem State.bothEnter_of_op {g : Guard} {i j : Instr} {i64 : Sync → Instr} {kind : QKind} {op : Sync → Host.Outcome State Fault Refusal}
    (hop : s.passes g .pk → ∀ w, op w = .next (s.qIssue k n x j w kind (kind.take n)).finish) (hplain : exec i s = op Sync.none)
    (hsync : ∀ w, exec (i64 w) s = op w) : s.BothEnter k n x g i i64 kind := fun hg =>
  ⟨⟨j, hplain.trans (hop hg _)⟩, fun w => ⟨j, (hsync w).trans (hop hg w)⟩⟩

include hiss

/-- QSET of a register that is free or the context's (18 R481). -/
theorem qsetOp_of_passes {o : OpQset} (hg : s.passes o.g .pk) {a : RV} (ha : s.bun.old.getXY o.fs o.a.toNat = a) (hp : a.p = false)
    (halign : a.v.toNat % 128 = 0) (howner : (k.sreg o.q.toNat).alloc = false ∨ (k.sreg o.q.toNat).owner = n) (w : Sync) :
    qsetOp s o w = .next (s.qIssue k n x (.qset o) w (.qset o.q.toNat a.v) (QKind.take n (.qset o.q.toNat a.v))).finish := by
  have hmine : ((k.sreg o.q.toNat).alloc && decide ((k.sreg o.q.toNat).owner ≠ n)) = false := by
    obtain h | h := howner <;> simp [h]
  rw [qsetOp, qSlot, guarded_of_passes hiss hg, ha]
  simp only [hp, hmine, Bool.false_eq_true, if_false, halign, ne_eq, not_true_eq_false]
  rfl

/-- QLD, QST, QGATH and QSCAT on a register of the context (18 R477). -/
theorem qstrmOp_of_passes {o : OpQstrm} (hg : s.passes o.g .pk) (hmine : ∃ e, Tab.get none k.sregs o.q.toNat = some e ∧ e.alloc = true ∧ e.owner = n)
    (op : Nat) (i : Instr) (store ix : Bool) (w : Sync) :
    qstrmOp s o w op i store ix = .next (s.qIssue k n x i w (.strm o.q.toNat store ix) id).finish := by
  obtain ⟨e, he, halloc, howner⟩ := hmine
  rw [qstrmOp, qSlot, guarded_of_passes hiss hg]
  simp [State.ownedReg, he, halloc, howner]

/-- A copy none of whose operands is poisoned (18 R461). -/
theorem copyOp_of_passes {o : OpQcopy} (hg : s.passes o.g .pk) {a b c : RV} (ha : s.bun.old.getXY o.fs o.a.toNat = a) (hb : s.bun.old.getXY o.fs o.b.toNat = b)
    (hc : s.bun.old.getXY o.fs o.c.toNat = c) (hpa : a.p = false) (hpb : b.p = false) (hpc : c.p = false)
    (f : State → Core → Nat → Ctx → Word64 → Word64 → Word64 → Try State) : copyOp s o f = .next (f s k n x a.v b.v c.v).finish := by
  rw [copyOp, qSlot, guarded_of_passes hiss hg, ha, hb, hc]
  simp only [hpa, hpb, hpc, Bool.or_self, Bool.false_eq_true, if_false]

/-- QCOPY within its limits (18 R471). -/
theorem qcopyOp_of_passes {o : OpQcopy} (hg : s.passes o.g .pk) {a b c : RV} (ha : s.bun.old.getXY o.fs o.a.toNat = a) (hb : s.bun.old.getXY o.fs o.b.toNat = b)
    (hc : s.bun.old.getXY o.fs o.c.toNat = c) (hpa : a.p = false) (hpb : b.p = false) (hpc : c.p = false) (hlen : c.v.toNat ≤ 2 ^ 32)
    (hd : a.v.toNat + c.v.toNat ≤ 2 ^ 52) (hs : b.v.toNat + c.v.toNat ≤ 2 ^ 52) (w : Sync) :
    qcopyOp s o w = .next (s.qIssue k n x (.qcopy o) w (.qcopy a.v b.v c.v) id).finish := by
  have hlimits : ¬((2 ^ 32 < c.v.toNat ∨ 2 ^ 52 < a.v.toNat + c.v.toNat) ∨ 2 ^ 52 < b.v.toNat + c.v.toNat) := by omega
  rw [qcopyOp, copyOp_of_passes hiss hg ha hb hc hpa hpb hpc]
  simp only [Bool.or_eq_true, decide_eq_true_eq, hlimits, if_false]

/-- QCCOPY within its limits and aligned (18 R472, R474). -/
theorem qccopyOp_of_passes {o : OpQcopy} (hg : s.passes o.g .pk) {a b c : RV} (ha : s.bun.old.getXY o.fs o.a.toNat = a)
    (hb : s.bun.old.getXY o.fs o.b.toNat = b) (hc : s.bun.old.getXY o.fs o.c.toNat = c) (hpa : a.p = false) (hpb : b.p = false) (hpc : c.p = false)
    (h4 : bitsOf c.v 32 16 % 4 = 0) (hlo : 4 ≤ bitsOf c.v 32 16) (hhi : bitsOf c.v 32 16 ≤ 16384) (hver : bitsOf c.v 48 16 = 0) (hd : a.v.toNat % 4 = 0)
    (hs : b.v.toNat % 4 = 0) (w : Sync) : qccopyOp s o w = .next (s.qIssue k n x (.qccopy o) w (.qccopy a.v b.v c.v) id).finish := by
  have hlimits : ¬(((bitsOf c.v 32 16 % 4 ≠ 0 ∨ bitsOf c.v 32 16 < 4) ∨ 16384 < bitsOf c.v 32 16) ∨ bitsOf c.v 48 16 ≠ 0) := by omega
  rw [qccopyOp, copyOp_of_passes hiss hg ha hb hc hpa hpb hpc]
  simp only [Bool.or_eq_true, decide_eq_true_eq, hlimits, if_false, hd, hs, ne_eq, not_true_eq_false]

/-- QRCOPY within its limits and aligned (18 R473). -/
theorem qrcopyOp_of_passes {o : OpQcopy} (hg : s.passes o.g .pk) {a b c : RV} (ha : s.bun.old.getXY o.fs o.a.toNat = a)
    (hb : s.bun.old.getXY o.fs o.b.toNat = b) (hc : s.bun.old.getXY o.fs o.c.toNat = c) (hpa : a.p = false) (hpb : b.p = false) (hpc : c.p = false)
    (h4 : b.v.toNat % 4 = 0) (hlo : 4 ≤ b.v.toNat) (hhi : b.v.toNat ≤ 2 ^ 24) (hver : bitsOf c.v 44 20 = 0) (hd : a.v.toNat % 4 = 0) (w : Sync) :
    qrcopyOp s o w = .next (s.qIssue k n x (.qrcopy o) w (.qrcopy a.v b.v c.v) id).finish := by
  have hlimits : ¬(((b.v.toNat % 4 ≠ 0 ∨ b.v.toNat < 4) ∨ 2 ^ 24 < b.v.toNat) ∨ bitsOf c.v 44 20 ≠ 0) := by omega
  rw [qrcopyOp, copyOp_of_passes hiss hg ha hb hc hpa hpb hpc]
  simp only [Bool.or_eq_true, decide_eq_true_eq, hlimits, if_false, hd, ne_eq, not_true_eq_false]

/-- GCFG of an address that is not poisoned (16 R399). -/
theorem gcfgOp_of_passes {o : OpGcfg} (hg : s.passes o.g .pk) {a : RV} (ha : s.bun.old.getXY o.fs o.a.toNat = a) (hp : a.p = false) (w : Sync) :
    gcfgOp s o w = .next (s.qIssue k n x (.gcfg o) w (.gcfg a.v o.iim1.toNat o.lut) id).finish := by
  rw [gcfgOp, qSlot, guarded_of_passes hiss hg, ha]
  simp only [hp, Bool.false_eq_true, if_false]

/-- GRUN that binds registers of the context, each once (07 R160). -/
theorem grunOp_of_passes {o : OpGrun} (hg : s.passes o.g .pk) {a b : RV} (ha : s.bun.old.getXY o.fs o.a.toNat = a) (hb : s.bun.old.getXY o.fs o.b.toNat = b)
    (hpa : a.p = false) (hpb : b.p = false) (hmine : ∀ q ∈ boundRegs a.v, (k.sreg q).alloc = true ∧ (k.sreg q).owner = n) (hnodup : (boundRegs a.v).Nodup)
    (hrest : bitsOf a.v 38 26 = 0) (w : Sync) : grunOp s o w = .next (s.qIssue k n x (.grun o) w (.grun a.v b.v.toNat o.keep) id).finish := by
  have hall : ((boundRegs a.v).any fun q => !((k.sreg q).alloc && decide ((k.sreg q).owner = n))) = false := by
    rw [List.any_eq_false]
    intro q hq
    simp [hmine q hq]
  rw [grunOp, qSlot, guarded_of_passes hiss hg, ha, hb]
  simp only [hpa, hpb, hall, dupNat_of_nodup hnodup, hrest, ne_eq, not_true_eq_false, decide_false, Bool.or_self, Bool.false_eq_true, if_false]

/-- The stash commands within their limits (18 R497). -/
theorem stashOp_of_passes {o : OpStash} (hg : s.passes o.g .pk) {a b : RV} (ha : s.bun.old.getXY o.fs o.a.toNat = a) (hb : s.bun.old.getXY o.fs o.b.toNat = b)
    (hpa : a.p = false) (hpb : b.p = false) (hlen : b.v.toNat ≤ 8388608) (hend : a.v.toNat + b.v.toNat ≤ 2 ^ 52) (sub : Nat) (i : Instr) (w : Sync) :
    stashOp s o w sub i = .next (s.qIssue k n x i w (.stash sub a.v b.v) id).finish := by
  have hlimits : ¬(8388608 < b.v.toNat ∨ 2 ^ 52 < a.v.toNat + b.v.toNat) := by omega
  rw [stashOp, qSlot, guarded_of_passes hiss hg, ha, hb]
  simp only [hpa, hpb, Bool.or_self, Bool.or_eq_true, decide_eq_true_eq, hlimits, Bool.false_eq_true, if_false]

/-- Every command of the Q slot that passes its checks. -/
theorem Core.qAdmits_of_bothEnter {f : Guard → Instr → (Sync → Instr) → QKind → Prop} (h : ∀ g i i64 kind, s.BothEnter k n x g i i64 kind → f g i i64 kind) :
    k.qAdmits s.bun.old n f := by
  refine ⟨?qset, ?strm, ?copy, ?gcfg, ?grun, ?stash⟩
  case qset => exact fun o ha halign howner => h _ _ _ _ (State.bothEnter_of_op (fun hg => qsetOp_of_passes hiss hg rfl ha halign howner) rfl fun _ => rfl)
  case strm =>
    have strm : ∀ {o : OpQstrm} (op : Nat) {i : Instr} (j : Instr) {i64 : Sync → Instr} (store ix : Bool),
        (∃ e, Tab.get none k.sregs o.q.toNat = some e ∧ e.alloc = true ∧ e.owner = n) → exec i s = qstrmOp s o Sync.none op j store ix →
        (∀ w, exec (i64 w) s = qstrmOp s o w op j store ix) → f o.g i i64 (.strm o.q.toNat store ix) := fun op _ j _ store ix hmine hplain hsync =>
      h _ _ _ _ (State.bothEnter_of_op (fun hg => qstrmOp_of_passes hiss hg hmine op j store ix) hplain hsync)
    exact fun o hmine => ⟨strm 0x02 (.qld o) false false hmine rfl fun _ => rfl, strm 0x03 (.qst o) true false hmine rfl fun _ => rfl,
      strm 0x04 (.qgath o) false true hmine rfl fun _ => rfl, strm 0x05 (.qscat o) true true hmine rfl fun _ => rfl⟩
  case copy =>
    exact fun o ha hb hc =>
      ⟨fun hlen hd hs => h _ _ _ _ (State.bothEnter_of_op (fun hg => qcopyOp_of_passes hiss hg rfl rfl rfl ha hb hc hlen hd hs) rfl fun _ => rfl),
        fun h4 hlo hhi hver hd hs =>
          h _ _ _ _ (State.bothEnter_of_op (fun hg => qccopyOp_of_passes hiss hg rfl rfl rfl ha hb hc h4 hlo hhi hver hd hs) rfl fun _ => rfl),
        fun h4 hlo hhi hver hd =>
          h _ _ _ _ (State.bothEnter_of_op (fun hg => qrcopyOp_of_passes hiss hg rfl rfl rfl ha hb hc h4 hlo hhi hver hd) rfl fun _ => rfl)⟩
  case gcfg => exact fun o ha => h _ _ _ _ (State.bothEnter_of_op (fun hg => gcfgOp_of_passes hiss hg rfl ha) rfl fun _ => rfl)
  case grun =>
    exact fun o ha hb hmine hnodup hrest =>
      h _ _ _ _ (State.bothEnter_of_op (fun hg => grunOp_of_passes hiss hg rfl rfl ha hb hmine hnodup hrest) rfl fun _ => rfl)
  case stash =>
    intro o a b ha hb hlen hend
    have stash : ∀ (sub : Nat) {i : Instr} (j : Instr) {i64 : Sync → Instr}, exec i s = stashOp s o Sync.none sub j →
        (∀ w, exec (i64 w) s = stashOp s o w sub j) → f o.g i i64 (.stash sub a.v b.v) := fun sub _ j _ hplain hsync =>
      h _ _ _ _ (State.bothEnter_of_op (fun hg => stashOp_of_passes hiss hg rfl rfl ha hb hlen hend sub j) hplain hsync)
    exact ⟨stash 0 (.spin o) rfl fun _ => rfl, stash 1 (.sunpin o) rfl fun _ => rfl, stash 2 (.swb o) rfl fun _ => rfl, stash 3 (.sinv o) rfl fun _ => rfl⟩

end

end Sys2Proof.Machine
end
section
/-! SUPPORT. How the one command of a queue starts (07 R172 Table 11). -/

namespace Sys2Proof.Machine

/-! ## What a start asks for -/

/-- The engine of a command is free for it: its registers are neither ACTIVE nor FAULTED, a stream or a copy finds an engine, and no DRAIN holds a QRCOPY. -/
def Core.engineFree (k : Core) (n id : Nat) : QKind → Prop
  | .qset r _ => k.regBusy r = false
  | .strm r _ _ => k.regBusy r = false ∧ (∀ d, (k.sreg r).desc = some d → d.ix = true → k.regBusy d.iq = false) ∧ k.enginesUsed < 6
  | .qcopy _ _ _ | .qccopy _ _ _ => k.enginesUsed < 6
  | .qrcopy _ _ _ => k.enginesUsed < 6 ∧ k.drainBefore n id = false
  | .gcfg _ _ _ | .grun _ _ _ | .qsave _ | .stash _ _ _ => True

/-- A command that is alone in the queue starts where its engine is free and no FENCE holds it. -/
theorem Core.qStarts_of_alone {k : Core} {q : QCmd} {x : Ctx} (hq : k.qcmds = [q]) (hs : q.started = false) (hx : k.ctx? q.ctx = some x) (hf : x.fences = [])
    (hfree : k.engineFree q.ctx q.id q.kind) : k.qStarts q = true := by
  have hfenced : ∀ m, k.fenced q.ctx q.id m = false := fun m => by simp [Core.fenced, hx, hf]
  cases hkind : q.kind with
  | strm r store ix =>
    rw [hkind] at hfree
    obtain ⟨hbusy, hindex, hengine⟩ := hfree
    have hdesc : ∀ d, (k.sreg r).desc = some d → (!d.ix || !k.regBusy d.iq) = true := fun d hd => by
      cases hix : d.ix with
      | false => rfl
      | true => simp [hindex d hd hix]
    cases hd : (k.sreg r).desc with
    | none => simp [Core.qStarts, hq, hs, hfenced, hkind, hbusy, hengine, hd]
    | some d => simp [Core.qStarts, hq, hs, hfenced, hkind, hbusy, hengine, hd, hdesc d hd]
  | qrcopy a b v =>
    rw [hkind] at hfree
    obtain ⟨hengine, hdrain⟩ := hfree
    simp [Core.qStarts, hq, hs, hfenced, hkind, hengine, hdrain]
  | qset r a =>
    rw [hkind] at hfree
    have hbusy : k.regBusy r = false := hfree
    simp [Core.qStarts, hq, hs, hfenced, hkind, hbusy]
  | qcopy a b v | qccopy a b v =>
    rw [hkind] at hfree
    have hengine : k.enginesUsed < 6 := hfree
    simp [Core.qStarts, hq, hs, hfenced, hkind, hengine]
  | gcfg | grun | qsave | stash => simp [Core.qStarts, hq, hs, hfenced, hkind]

/-- No command but a QSET touches a stream register at its issue. -/
theorem Core.sregs_enqueue (k : Core) (n : Nat) {q : QCmd} (h : QKind.isQset q.kind = false) : (k.enqueue n q).sregs = k.sregs := by
  cases hkind : q.kind with
  | qset r a => rw [hkind] at h; cases h
  | strm | qcopy | qccopy | qrcopy | gcfg | grun | qsave | stash => simp [Core.enqueue, Core.sregsTaken, hkind]

/-- Nor does it take an engine. -/
theorem Core.enginesUsed_enqueue {k : Core} (n : Nat) {q : QCmd} (h : QKind.isQset q.kind = false) (hs : q.started = false) :
    (k.enqueue n q).enginesUsed = k.enginesUsed := by simp [Core.enginesUsed, Core.sregs_enqueue k n h, hs]

/-- The engine that is free before the issue of a command is free after it. -/
theorem Core.engineFree_enqueue {k : Core} {n m id : Nat} {q : QCmd} (hs : q.started = false) (h : k.engineFree m id q.kind) :
    (k.enqueue n q).engineFree m id q.kind := by
  have hengines : QKind.isQset q.kind = false → (k.enqueue n q).enginesUsed = k.enginesUsed := fun h => Core.enginesUsed_enqueue n h hs
  have hsreg : QKind.isQset q.kind = false → ∀ r, (k.enqueue n q).sreg r = k.sreg r := fun h r => by rw [Core.sreg, Core.sregs_enqueue k n h, Core.sreg]
  cases hkind : q.kind with
  | qset r a =>
    rw [hkind] at h
    exact (Core.regBusy_enqueue k n q r).trans h
  | strm r store ix =>
    rw [hkind] at h hengines hsreg
    obtain ⟨hbusy, hindex, hengine⟩ := h
    refine ⟨(Core.regBusy_enqueue k n q r).trans hbusy, fun d hd hix => ?_, (hengines rfl).symm ▸ hengine⟩
    rw [hsreg rfl] at hd
    exact (Core.regBusy_enqueue k n q d.iq).trans (hindex d hd hix)
  | qcopy a b v | qccopy a b v =>
    rw [hkind] at h hengines
    exact (hengines rfl).trans_lt h
  | qrcopy a b v =>
    rw [hkind] at h hengines
    obtain ⟨hengine, hdrain⟩ := h
    exact ⟨(hengines rfl).trans_lt hengine, hdrain⟩
  | gcfg | grun | qsave | stash => trivial

/-! ## The start -/

/-- After the start of a command alone in the queue: an effect, the registers of its context, and in the queue at most the command at work. -/
def State.StartsTo (u : State) (c n : Nat) (x : Ctx) (q : QCmd) (effect : State → Core → Prop) : Prop :=
  ∃ k', u.core? c = some k' ∧ effect u k' ∧ (∀ x', k'.ctx? n = some x' → x'.regs = x.regs) ∧ (k'.qcmds = [] ∨ k'.qcmds = [{ q with started := true }])

theorem State.StartsTo.imp {u : State} {c n : Nat} {x : Ctx} {q : QCmd} {P Q : State → Core → Prop} (h : u.StartsTo c n x q P) (hPQ : ∀ k', P u k' → Q u k') :
    u.StartsTo c n x q Q := by
  obtain ⟨k', hk', hP, hrest⟩ := h
  exact ⟨k', hk', hPQ k' hP, hrest⟩

/-- An instruction issues a command that the event it posted starts. -/
def State.Runs (s : State) (k : Core) (n : Nat) (x : Ctx) (i : Instr) (w : Sync) (effect : State → Core → Prop) : Prop :=
  ∃ t u k', exec i s = .next t ∧ exec .streamCommandStart { t with ev := .streamCommandStart s.cur } = .next u ∧ u.core? s.cur = some k' ∧ effect u k' ∧
    (∀ x', k'.ctx? n = some x' → x'.regs = x.regs) ∧ (k'.qcmds = [] ∨ ∃ q, k'.qcmds = [q] ∧ q.started = true ∧ q.id = k.nextCmd ∧ q.ctx = n ∧ q.sync = w)

/-- A command that enters an empty queue starts where its engine is free and nothing holds it. -/
theorem State.Enters.runs {s : State} {k : Core} {n : Nat} {x : Ctx} {i : Instr} {w : Sync} {kind : QKind} (h : s.Enters k n x i w kind)
    (hiss : s.issues k n x) (hmet : w.wt = 0 ∨ (k.sem w.ws.toNat).met w.wt.toNat = true) (hq : k.qcmds = []) (hf : x.fences = [])
    (hfree : k.engineFree n k.nextCmd kind) (hflow : QKind.isRcopy kind = true → s.flowsHeld s.cur = false) {effect : State → Core → Prop}
    (heffect : ∀ (t : State) (q : QCmd), q.kind = kind → q.sync = w → q.ctx = n → q.id = k.nextCmd → q.next = 0 → t.core? s.cur = some (k.enqueue n q) →
      (t.qStart s.cur q).StartsTo s.cur n x q effect) : s.Runs k n x i w effect := by
  obtain ⟨j, t, hexec, hcore, -, hflows⟩ := h.queued hiss hmet (by simp [hq])
  obtain ⟨-, -, hx⟩ := hiss
  let q := s.issuedQ k n j w kind
  let t' : State := { t with ev := .streamCommandStart s.cur }
  have hq1 : (k.enqueue n q).qcmds = [q] := by rw [Core.enqueue_qcmds, hq, List.nil_append]
  have hk' : t'.core? s.cur = some (k.enqueue n q) := hcore
  have hstarts : (k.enqueue n q).qStarts q = true := Core.qStarts_of_alone hq1 rfl hx hf (Core.engineFree_enqueue rfl hfree)
  have hheld : (QKind.isRcopy q.kind && t'.flowsHeld s.cur) = false := by
    cases hr : QKind.isRcopy kind with
    | false => simp [q, State.issuedQ, hr]
    | true => exact Bool.and_eq_false_imp.2 fun _ => hflows (hflow hr)
  obtain ⟨k2, hk2, heff, hregs, hqueue⟩ := heffect t' q rfl rfl rfl rfl rfl hk'
  refine ⟨t, t'.qStart s.cur q, k2, hexec, ?_, hk2, heff, hregs, hqueue.imp_right fun h => ⟨_, h, rfl, rfl, rfl, rfl⟩⟩
  change execStreamCommandStart t' = _
  rw [← State.qStartAll_single hk' hstarts hheld, ← hq1]
  simp only [execStreamCommandStart, t', hk']

/-! ## What a start does -/

/-- A command is at work in the queue, and an event of it is to come. -/
def State.Working (kind : QKind) (e : Event) (u : State) (k' : Core) : Prop := (∃ q ∈ k'.qcmds, q.kind = kind) ∧ ∃ d, (d, e) ∈ u.agenda

/-- A command that was alone in the queue has left it and signalled. -/
def State.Ended (k : Core) (w : Sync) (_ : State) (k' : Core) : Prop :=
  k'.qcmds = [] ∧ (w.si ≠ 0 → k'.sem w.ss.toNat = (k.sem w.ss.toNat).signal w.si.toNat)

/-- A stream of a context flows on a register, with all its elements to come. -/
def State.Flows (q n : Nat) (d : Desc) (store : Bool) (w : Sync) (_ : State) (k' : Core) : Prop :=
  (k'.sreg q).st = 2 ∧ ∃ m, (k'.sreg q).strm = some m ∧ m.store = store ∧ m.ctx = n ∧ m.sync = w ∧ m.total = d.total ∧ m.done = 0 ∧ m.taken = 0 ∧
    m.cancelled = false

/-- The grid is being loaded, by a command of a context. -/
def State.Loads (c id n : Nat) (a : Word64) (lut : Bool) (ii : Nat) (_ : Sync) (u : State) (k' : Core) : Prop :=
  k'.grid.st = 1 ∧ k'.grid.load = some ⟨id, n, a, lut, ii, [], false⟩ ∧ ∃ d, (d, Event.gcfgLoadEnd c) ∈ u.agenda

/-- The grid runs for a context. -/
def State.GridRuns (c n : Nat) (b : Word64) (turns : Nat) (w : Sync) (u : State) (k' : Core) : Prop :=
  k'.grid.st = 3 ∧ (∃ g, k'.grid.run = some g ∧ g.bind = b ∧ g.turns = turns ∧ g.cyc = 0 ∧ g.ctx = n ∧ g.sync = w) ∧
    ∃ d, (d, Event.grunCompletion c) ∈ u.agenda

theorem Core.updQ_qcmds_of_single {k : Core} {q : QCmd} (h : k.qcmds = [q]) (f : QCmd → QCmd) : (k.updQ q.id f).qcmds = [f q] := by simp [Core.updQ, h]

section
variable {t : State} {c n : Nat} {k : Core} {x : Ctx} {q : QCmd} (hk : t.core? c = some k) (hq : k.qcmds = [q]) (hx : k.ctx? n = some x)
include hk

/-- The core once its command is marked as started. -/
theorem State.core?_started : (t.updCore c fun k => k.updQ q.id fun q => { q with started := true }).core? c =
    some (k.updQ q.id fun q => { q with started := true }) := by rw [State.core?_updCore_same, hk, Option.map_some]

include hq hx

/-- A command whose start posts its event alone is at work. -/
theorem State.startsTo_working {u v : State} {e : Event} {d : Nat} (hcore : ∀ c', u.core? c' = v.core? c')
    (hv : v = t.updCore c fun k => k.updQ q.id fun q => { q with started := true }) (hmem : (d, e) ∈ u.agenda) :
    u.StartsTo c n x q (State.Working q.kind e) := by
  have hqueue := Core.updQ_qcmds_of_single hq fun q => { q with started := true }
  refine ⟨_, (hcore c).trans (hv ▸ State.core?_started hk), ⟨⟨{ q with started := true }, ?_, rfl⟩, d, hmem⟩, fun x' hx' => ?_, .inr hqueue⟩
  · rw [hqueue]
    exact List.mem_singleton_self _
  · exact congrArg Ctx.regs (Option.some.inj (hx'.symm.trans hx))

/-- A QSET is at work until its descriptor has been read. -/
theorem State.startsTo_qset {r : Nat} {a : Word64} (hkind : q.kind = .qset r a) :
    (t.qStart c q).StartsTo c n x q (State.Working q.kind (.qsetCompletion c r)) := by
  simp only [State.qStart, hkind]
  exact hkind ▸ State.startsTo_working hk hq hx (fun _ => State.core?_postOnce ..) rfl (State.mem_postOnce ..)

/-- A copy of one byte or more is at work. -/
theorem State.startsTo_qcopy {a b v : Word64} (hkind : q.kind = .qcopy a b v) (hv : v ≠ 0) :
    (t.qStart c q).StartsTo c n x q (State.Working q.kind (.copyCompletion c q.id)) := by
  simp only [State.qStart, hkind, if_neg hv]
  exact hkind ▸ State.startsTo_working hk hq hx (fun _ => State.core?_postOpen ..) rfl (mem_addEvent_self ..)

theorem State.startsTo_qccopy {a b v : Word64} (hkind : q.kind = .qccopy a b v) :
    (t.qStart c q).StartsTo c n x q (State.Working q.kind (.copyCompletion c q.id)) := by
  simp only [State.qStart, hkind]
  exact hkind ▸ State.startsTo_working hk hq hx (fun _ => State.core?_postOpen ..) rfl (mem_addEvent_self ..)

theorem State.startsTo_qrcopy {a b v : Word64} (hkind : q.kind = .qrcopy a b v) :
    (t.qStart c q).StartsTo c n x q (State.Working q.kind (.flowRowSend c q.id)) := by
  simp only [State.qStart, hkind]
  exact hkind ▸ State.startsTo_working hk hq hx (fun _ => State.core?_postOnce ..) rfl (State.mem_postOnce ..)

theorem State.startsTo_stash {op : Nat} {a v : Word64} (hkind : q.kind = .stash op a v) (hv : v ≠ 0) :
    (t.qStart c q).StartsTo c n x q (State.Working q.kind (.stashCommandCompletion c q.id)) := by
  simp only [State.qStart, hkind, if_neg hv]
  exact hkind ▸ State.startsTo_working hk hq hx (fun _ => State.core?_postOnce ..) rfl (State.mem_postOnce ..)

/-- A command that completes at its start signals and leaves the queue. -/
theorem State.startsTo_done : ((t.updCore c fun k => k.updQ q.id fun q => { q with started := true }).qDone c q).StartsTo c n x q
    (State.Ended k q.sync) := by
  obtain ⟨k', hk', h'⟩ := State.core?_qDone (State.core?_started (q := q) hk) q
  rw [Core.dropQ_updQ_of_single hq rfl] at h'
  obtain ⟨x', hx', hxx⟩ := h'.ctxs n x hx
  exact ⟨k', hk', ⟨h'.qcmds, h'.sem⟩, fun y hy => (congrArg Ctx.regs (Option.some.inj (hy.symm.trans hx'))).trans hxx.regs, .inl h'.qcmds⟩

/-- A QCOPY of no bytes completes at once. -/
theorem State.startsTo_qcopy_zero {a b v : Word64} (hkind : q.kind = .qcopy a b v) (hv : v = 0) :
    (t.qStart c q).StartsTo c n x q (State.Ended k q.sync) := by
  simp only [State.qStart, hkind, if_pos hv]
  exact State.startsTo_done hk hq hx

/-- So does a stash command of no bytes (10 R243). -/
theorem State.startsTo_stash_zero {op : Nat} {a v : Word64} (hkind : q.kind = .stash op a v) (hv : v = 0) :
    (t.qStart c q).StartsTo c n x q (State.Ended k q.sync) := by
  simp only [State.qStart, hkind, if_pos hv]
  exact State.startsTo_done hk hq hx

/-- A stream on a good descriptor flows. -/
theorem State.startsTo_flows {r : Nat} {store ix : Bool} {d : Desc} (hkind : q.kind = .strm r store ix) (hnext : q.next = 0) (hd : (k.sreg r).desc = some d)
    (hbad : k.strmBad q.ctx r store ix = false) (htotal : 0 < d.total) :
    (t.qStart c q).StartsTo c n x q (State.Flows r q.ctx d store q.sync) := by
  obtain ⟨u, hstart, hu⟩ := State.qStart_strm hk hq hkind
  obtain ⟨k', m, hk', hrest, hst, hm⟩ := State.core?_startStream hu q.id q.sync q.word q.psn hd hbad htotal
  refine ⟨k', ?_, ⟨hst, m, hm⟩, fun x' hx' => ?_, .inl (by rw [hrest])⟩
  · rw [hstart, hnext]
    exact hk'
  · rw [hrest] at hx'
    exact congrArg Ctx.regs (Option.some.inj (hx'.symm.trans hx))

/-- A command whose start changes the grid alone, and posts its event. -/
theorem State.startsTo_grid (f : Core → Grid) (d : Nat) (e : Event) :
    (((t.updCore c fun k => k.updQ q.id fun q => { q with started := true }).updCore c fun k => { k with grid := f k }).postOnce d e).StartsTo c n x q
      fun u k' => k'.grid = f (k.updQ q.id fun q => { q with started := true }) ∧ ∃ d, (d, e) ∈ u.agenda := by
  refine ⟨{ k.updQ q.id (fun q => { q with started := true }) with grid := f (k.updQ q.id fun q => { q with started := true }) }, ?_,
    ⟨rfl, _, State.mem_postOnce ..⟩, fun x' hx' => ?_, .inr (Core.updQ_qcmds_of_single hq _)⟩
  · rw [State.core?_postOnce, State.core?_updCore_same, State.core?_started hk, Option.map_some]
  · exact congrArg Ctx.regs (Option.some.inj (hx'.symm.trans hx))

/-- GCFG loads (07 R159). -/
theorem State.startsTo_gcfg {a : Word64} {ii : Nat} {lut : Bool} (hkind : q.kind = .gcfg a ii lut) :
    (t.qStart c q).StartsTo c n x q (State.Loads c q.id q.ctx a lut ii q.sync) := by
  simp only [State.qStart, hkind]
  refine (State.startsTo_grid hk hq hx _ _ _).imp fun k' h => ?_
  obtain ⟨hgrid, hdue⟩ := h
  exact ⟨by rw [hgrid], by rw [hgrid], hdue⟩

/-- GRUN runs a grid that is not empty (07 R160). -/
theorem State.startsTo_grun {b : Word64} {turns : Nat} {keep : Bool} (hkind : q.kind = .grun b turns keep) (hst : k.grid.st ≠ 0) :
    (t.qStart c q).StartsTo c n x q (State.GridRuns c q.ctx b (turns % 2 ^ 32) q.sync) := by
  have hst' : (k.updQ q.id fun q => { q with started := true }).grid.st ≠ 0 := hst
  simp only [State.qStart, hkind, State.startRun, State.core?_started hk, if_neg hst']
  refine (State.startsTo_grid hk hq hx (fun _ => _) _ _).imp fun k' h => ?_
  obtain ⟨hgrid, hdue⟩ := h
  exact ⟨by rw [hgrid], ⟨_, by rw [hgrid], rfl, rfl, rfl, rfl, rfl⟩, hdue⟩

end

end Sys2Proof.Machine
end
section
/-! SUPPORT. GSTOP (07 R162), and the commands of the Q slot from issue to start. -/

namespace Sys2Proof.Machine

/-! ## GSTOP -/

section
variable {s : State} {k : Core} {n : Nat} {x : Ctx} (hiss : s.issues k n x) {o : OpN} (hg : s.passes o.g .pk)
include hiss hg

/-- GSTOP waits for its semaphore, and stops the grid. -/
theorem gstopOp_of_passes (w : Sync) : gstopOp s o w =
    .next ((s.syncWait k x .q w).bind fun s _ => .ok (s.gridStop s.cur n w) (s.gridStop s.cur n w)).finish := by
  rw [gstopOp, qSlot, guarded_of_passes hiss hg]

/-- A GSTOP whose wait is met acts at its issue. -/
theorem gstopOp_of_met {w : Sync} (hmet : w.wt = 0 ∨ (k.sem w.ws.toNat).met w.wt.toNat = true) : gstopOp s o w = .next (s.gridStop s.cur n w) := by
  rw [gstopOp_of_passes hiss hg, State.syncWait_of_met hmet, Try.bind_ok, Try.finish_ok]

end

/-- On a grid that is not RUNNING it signals. -/
theorem State.gridStop_of_idle {s : State} {c : Nat} {k : Core} (hk : s.core? c = some k) (hst : k.grid.st ≠ 3) (n : Nat) (w : Sync) :
    s.gridStop c n w = s.post1 c n w := by simp only [State.gridStop, hk, Option.bind_some, if_neg hst]

/-- A RUNNING grid is to stop at its next turn boundary. -/
theorem State.gridStop_of_running {s : State} {c : Nat} {k : Core} {r : GRun} (hk : s.core? c = some k) (hst : k.grid.st = 3) (hrun : k.grid.run = some r)
    (n : Nat) (w : Sync) :
    (s.gridStop c n w).core? c =
      some { k with grid := { k.grid with st := 4, run := some { r with stopping := true, stopSync := r.stopSync ++ [(n, w)] } } } ∧
    (s.cycle, Event.gstopBoundary c) ∈ (s.gridStop c n w).agenda := by
  simp only [State.gridStop, hk, Option.bind_some, if_pos hst, hrun]
  refine ⟨by rw [State.core?_postOnce, State.core?_updCore_same, hk, Option.map_some], ?_⟩
  have hcycle : (s.updCore c fun k => { k with grid := { k.grid with
      st := 4, run := some { r with stopping := true, stopSync := r.stopSync ++ [(n, w)] } } }).cycle = s.cycle := State.updCore_cycle ..
  have hmem := State.mem_postOnce (s.updCore c fun k => { k with grid := { k.grid with
    st := 4, run := some { r with stopping := true, stopSync := r.stopSync ++ [(n, w)] } } }) 0 (.gstopBoundary c)
  rwa [hcycle] at hmem

/-! ## The obligation -/

/-- A command whose two forms enter the queue starts in both where it is alone, its engine is free and nothing holds it. -/
theorem State.BothEnter.runs {s : State} {k : Core} {n : Nat} {x : Ctx} {g : Guard} {i : Instr} {i64 : Sync → Instr} {kind : QKind}
    (h : s.BothEnter k n x g i i64 kind) (hiss : s.issues k n x) {w : Sync} (hmet : w.wt = 0 ∨ (k.sem w.ws.toNat).met w.wt.toNat = true) (hq : k.qcmds = [])
    (hf : x.fences = []) (hfree : k.engineFree n k.nextCmd kind) (hflow : QKind.isRcopy kind = true → s.flowsHeld s.cur = false)
    {effect : Sync → State → Core → Prop}
    (heffect : ∀ (t : State) (q : QCmd), q.kind = kind → q.ctx = n → q.id = k.nextCmd → q.next = 0 → t.core? s.cur = some (k.enqueue n q) →
      (t.qStart s.cur q).StartsTo s.cur n x q (effect q.sync)) (hg : s.passes g .pk) :
    s.Runs k n x i Sync.none (effect Sync.none) ∧ s.Runs k n x (i64 w) w (effect w) := by
  obtain ⟨hplain, hsync⟩ := h hg
  exact ⟨hplain.runs hiss (.inl rfl) hq hf hfree hflow fun t q hkind hw hn hid hnext hk => hw ▸ heffect t q hkind hn hid hnext hk,
    (hsync w).runs hiss hmet hq hf hfree hflow fun t q hkind hw hn hid hnext hk => hw ▸ heffect t q hkind hn hid hnext hk⟩

/-- Settles O34: what a command that has passed its checks does is its issue (`qAdmits_of_bothEnter`); where it is alone and free to start, the event of its
issue starts it (`Enters.runs`), to the effect of its kind (`startsTo_…`). -/
theorem streamCommandsAreQueued : Obligations.StreamCommandsAreQueued := by
  unfold Obligations.StreamCommandsAreQueued
  refine ⟨?issue, ?start⟩
  case issue =>
    intro s k n x w hiss met full queued
    have ⟨hk, _, hx⟩ := hiss
    have hqueued : ∀ {i w kind}, s.Enters k n x i w kind → (w.wt = 0 ∨ (k.sem w.ws.toNat).met w.wt.toNat = true) → ¬full →
        queued i w kind := fun h hmet hroom => by
      obtain ⟨j, t, hexec, hcore, hdue, -⟩ := h.queued hiss hmet hroom
      exact ⟨t, _, _, hexec, hcore, rfl, rfl, rfl, rfl, rfl, hx, hdue, fun r a hkind => by rw [Core.sreg_enqueue_qset k n hkind]; exact ⟨rfl, rfl⟩⟩
    refine ⟨Core.qAdmits_of_bothEnter hiss fun g i i64 kind h hg => ?_, fun o hg => ⟨?_, fun hst => ?_, fun r hst hrun => ?_⟩⟩
    · obtain ⟨hplain, hsync⟩ := h hg
      exact ⟨fun hroom => ⟨hqueued hplain (.inl rfl) hroom, fun hmet => hqueued (hsync w) hmet hroom⟩, fun hmet hsat => (hsync w).blocks hiss hmet hsat,
        fun hfull => ⟨hplain.stalls (.inl rfl) hfull, fun hmet => (hsync w).stalls hmet hfull⟩⟩
    · exact fun hmet hsat => blocksOn_of_syncWait hiss (gstopOp_of_passes hiss hg w) hmet hsat
    · refine ⟨(gstopOp_of_met hiss hg (.inl rfl)).trans ?_, fun hmet => (gstopOp_of_met hiss hg hmet).trans ?_⟩
      · rw [State.gridStop_of_idle hk hst]
        rfl
      · rw [State.gridStop_of_idle hk hst]
    · have stops : ∀ {i w}, exec i s = .next (s.gridStop s.cur n w) → ∃ t k', exec i s = .next t ∧ t.core? s.cur = some k' ∧ k'.ctx? n = some x ∧
          (s.cycle, Event.gstopBoundary s.cur) ∈ t.agenda ∧
          k'.grid = { k.grid with st := 4, run := some { r with stopping := true, stopSync := r.stopSync ++ [(n, w)] } } := fun {_ w} hexec => by
        obtain ⟨hcore, hdue⟩ := State.gridStop_of_running hk hst hrun n w
        exact ⟨_, _, hexec, hcore, hx, hdue, rfl⟩
      exact ⟨stops (gstopOp_of_met hiss hg (.inl rfl)), fun hmet => stops (gstopOp_of_met hiss hg hmet)⟩
  case start =>
    intro s k n x w hiss hq hf hengine hmet r runs both working flows
    have ⟨_, _, hx⟩ := hiss
    have hq1 : ∀ q, (k.enqueue n q).qcmds = [q] := fun q => by rw [Core.enqueue_qcmds, hq, List.nil_append]
    have starts : ∀ {g i i64 kind} {effect : Sync → State → Core → Prop}, s.BothEnter k n x g i i64 kind → k.engineFree n k.nextCmd kind →
        (QKind.isRcopy kind = true → s.flowsHeld s.cur = false) →
        (∀ (t : State) (q : QCmd), q.kind = kind → q.ctx = n → q.id = k.nextCmd → q.next = 0 → t.core? s.cur = some (k.enqueue n q) →
          (t.qStart s.cur q).StartsTo s.cur n x q (effect q.sync)) → both g i i64 effect := fun h hfree hflow heffect =>
      h.runs hiss hmet hq hf hfree hflow heffect
    obtain ⟨hset, hstrm, hcopy, hcfg, hrun, hstash⟩ : k.qAdmits r n (s.BothEnter k n x) := Core.qAdmits_of_bothEnter hiss fun _ _ _ _ h => h
    refine ⟨?qset, ?strm, ?copy, ?gcfg, ?grun, ?stash⟩
    case qset =>
      intro o a ha halign howner hbusy
      exact starts (hset o ha halign howner) hbusy (fun h => nomatch h) fun t q hkind _ _ _ hk => hkind ▸ State.startsTo_qset hk (hq1 q) hx hkind
    case strm =>
      intro o d reg hmine hd hbusy htotal hindex
      obtain ⟨hld, hst, hgath, hscat⟩ := hstrm o hmine
      have strm : ∀ {i i64} {store ix : Bool}, s.BothEnter k n x o.g i i64 (.strm reg store ix) → k.strmBad n reg store ix = false →
          both o.g i i64 (State.Flows reg n d store) := fun {_ _ store ix} h hbad => by
        refine starts h ⟨hbusy, fun e he hix => ?_, hengine⟩ (fun h => nomatch h) fun t q hkind hn _ hnext hk => ?_
        · obtain rfl : d = e := Option.some.inj (hd.symm.trans he)
          exact hindex hix
        · have hsregs : (k.enqueue n q).sregs = k.sregs := Core.sregs_enqueue k n (by rw [hkind]; rfl)
          have hd' : ((k.enqueue n q).sreg reg).desc = some d := by rw [Core.sreg, hsregs]; exact hd
          have hbad' : (k.enqueue n q).strmBad q.ctx reg store ix = false := by
            simp only [Core.strmBad, Core.sreg, hsregs, hn]
            exact hbad
          have hflows := State.startsTo_flows hk (hq1 q) hx hkind hnext hd' hbad' htotal
          rwa [hn] at hflows
      exact ⟨strm hld, strm hst, strm hgath, strm hscat⟩
    case copy =>
      intro o a b v ha hb hv
      obtain ⟨hqcopy, hqccopy, hqrcopy⟩ := hcopy o ha hb hv
      refine ⟨fun hlen hd hs => ⟨fun h0 => ?_, fun h0 => ?_⟩, fun h4 hlo hhi hver hd hs => ?_, fun h4 hlo hhi hver hd hflow hdrain => ?_⟩
      · exact starts (hqcopy hlen hd hs) hengine (fun h => nomatch h) fun t q hkind _ hid _ hk =>
          hid ▸ hkind ▸ State.startsTo_qcopy hk (hq1 q) hx hkind h0
      · exact starts (effect := State.Ended k) (hqcopy hlen hd hs) hengine (fun h => nomatch h) fun t q hkind _ _ _ hk =>
          State.startsTo_qcopy_zero (k := k.enqueue n q) hk (hq1 q) hx hkind h0
      · exact starts (hqccopy h4 hlo hhi hver hd hs) hengine (fun h => nomatch h) fun t q hkind _ hid _ hk =>
          hid ▸ hkind ▸ State.startsTo_qccopy hk (hq1 q) hx hkind
      · exact starts (hqrcopy h4 hlo hhi hver hd) ⟨hengine, hdrain⟩ (fun _ => hflow) fun t q hkind _ hid _ hk =>
          hid ▸ hkind ▸ State.startsTo_qrcopy hk (hq1 q) hx hkind
    case gcfg =>
      intro o a ha
      exact starts (effect := State.Loads s.cur k.nextCmd n a.v o.lut o.iim1.toNat) (hcfg o ha) trivial (fun h => nomatch h) fun t q hkind hn hid _ hk => by
        have hloads := State.startsTo_gcfg hk (hq1 q) hx hkind
        rwa [hid, hn] at hloads
    case grun =>
      intro o a b ha hb hmine hnodup hrest hst
      exact starts (effect := State.GridRuns s.cur n a.v (b.v.toNat % 2 ^ 32)) (hrun o ha hb hmine hnodup hrest) trivial
        (fun h => nomatch h) fun t q hkind hn _ _ hk => by
        have hruns := State.startsTo_grun hk (hq1 q) hx hkind hst
        rwa [hn] at hruns
    case stash =>
      intro o a b does ended ha hb hlen hend
      obtain ⟨hspin, hsunpin, hswb, hsinv⟩ := hstash o ha hb hlen hend
      have runsTo : ∀ {op i i64}, s.BothEnter k n x o.g i i64 (.stash op a.v b.v) →
          (b.v ≠ 0 → both o.g i i64 (does op)) ∧ (b.v = 0 → both o.g i i64 ended) := fun {op _ _} h =>
        ⟨fun h0 => starts (effect := fun _ => State.Working (.stash op a.v b.v) (.stashCommandCompletion s.cur k.nextCmd)) h trivial
            (fun h => nomatch h) fun t q hkind _ hid _ hk =>
            hid ▸ hkind ▸ State.startsTo_stash hk (hq1 q) hx hkind h0,
          fun h0 => starts (effect := State.Ended k) h trivial (fun h => nomatch h) fun t q hkind _ _ _ hk =>
            State.startsTo_stash_zero (k := k.enqueue n q) hk (hq1 q) hx hkind h0⟩
      obtain ⟨pin, pin0⟩ := runsTo hspin
      obtain ⟨unpin, unpin0⟩ := runsTo hsunpin
      obtain ⟨wb, wb0⟩ := runsTo hswb
      obtain ⟨inv, inv0⟩ := runsTo hsinv
      exact ⟨fun h0 => ⟨pin h0, unpin h0, wb h0, inv h0⟩, fun h0 => ⟨pin0 h0, unpin0 h0, wb0 h0, inv0 h0⟩⟩

end Sys2Proof.Machine
end
section
/-! SUPPORT. What the completion of a command leaves of the machine beyond its cores and its agenda, and of each context but its FENCEs and its watch
records. -/

namespace Sys2Proof.Machine

/-- A context but for the records that it watches and its FENCEs. -/
def Ctx.SameTask (x x' : Ctx) : Prop := x' = { x with watch := x'.watch, fences := x'.fences }

theorem Ctx.SameTask.refl (x : Ctx) : x.SameTask x := rfl
theorem Ctx.SameTask.trans {x y z : Ctx} (h : x.SameTask y) (h' : y.SameTask z) : x.SameTask z := by
  rw [Ctx.SameTask] at h h' ⊢
  rw [h', h]

/-- Of a core, its stash and its contexts alone may have changed, and of a context the records that it watches and its FENCEs. -/
structure Core.KeepsTasks (k k' : Core) : Prop where
  rest : k' = { k with ctxs := k'.ctxs, stash := k'.stash }
  ctxs : ∀ n x, k.ctx? n = some x → ∃ x', k'.ctx? n = some x' ∧ x.SameTask x'

namespace Core.KeepsTasks

theorem refl (k : Core) : k.KeepsTasks k := ⟨rfl, fun _ x hx => ⟨x, hx, .refl x⟩⟩

theorem trans {k l m : Core} (h : k.KeepsTasks l) (h' : l.KeepsTasks m) : k.KeepsTasks m where
  rest := by rw [h'.rest, h.rest]
  ctxs n x hx := by
    obtain ⟨y, hy, hxy⟩ := h.ctxs n x hx
    obtain ⟨z, hz, hyz⟩ := h'.ctxs n y hy
    exact ⟨z, hz, hxy.trans hyz⟩

theorem sem {k k' : Core} (h : k.KeepsTasks k') (n : Nat) : k'.sem n = k.sem n := by rw [h.rest]; rfl

end Core.KeepsTasks

/-- Beyond its cores and its agenda the machine is as it was, and every core keeps its tasks. -/
structure State.KeepsTasks (s t : State) : Prop where
  rest : t = { s with cores := t.cores, agenda := t.agenda, free := t.free }
  cores : ∀ c k, s.core? c = some k → ∃ k', t.core? c = some k' ∧ k.KeepsTasks k'

namespace State.KeepsTasks

theorem of_agenda {s t : State} (h : t = { s with agenda := t.agenda, free := t.free }) : s.KeepsTasks t where
  rest := by rw [h]
  cores c k hk := ⟨k, by rw [h]; exact hk, .refl k⟩

theorem refl (s : State) : s.KeepsTasks s := of_agenda rfl

theorem trans {s t u : State} (h : s.KeepsTasks t) (h' : t.KeepsTasks u) : s.KeepsTasks u where
  rest := by rw [h'.rest, h.rest]
  cores c k hk := by
    obtain ⟨l, hl, hkl⟩ := h.cores c k hk
    obtain ⟨m, hm, hlm⟩ := h'.cores c l hl
    exact ⟨m, hm, hkl.trans hlm⟩

theorem forEach {α : Type} {f : State → α → State} (h : ∀ (s : State) (x : α), s.KeepsTasks (f s x)) (l : List α) (s : State) :
    s.KeepsTasks (s.forEach l f) :=
  State.forEach_keeps (fun t => s.KeepsTasks t) (fun t x ht => ht.trans (h t x)) l s (refl s)

theorem rows {s t : State} (h : s.KeepsTasks t) : t.rows = s.rows := by rw [h.rest]

/-! ## Updates -/

theorem post (s : State) (d : Nat) (e : Event) : s.KeepsTasks (s.post d e) := of_agenda rfl
theorem postOpen (s : State) (d : Nat) (e : Event) : s.KeepsTasks (s.postOpen d e) := of_agenda rfl

theorem postOnce (s : State) (d : Nat) (e : Event) : s.KeepsTasks (s.postOnce d e) := by
  unfold State.postOnce
  split
  · exact refl s
  · exact post s d e

theorem updCore (s : State) (c : Nat) {f : Core → Core} (hf : ∀ k, Core.KeepsTasks k (f k)) : s.KeepsTasks (s.updCore c f) where
  rest := by
    unfold State.updCore
    split <;> rfl
  cores c' k hk := by
    by_cases h : c' = c
    · subst h
      exact ⟨f k, by rw [State.core?_updCore_same, hk, Option.map_some], hf k⟩
    · exact ⟨k, (State.core?_updCore_ne s f h).trans hk, .refl k⟩

/-- A change of a stash. -/
theorem updStash (s : State) (c : Nat) (f : Core → Stash) : s.KeepsTasks (s.updCore c fun k => { k with stash := f k }) :=
  updCore s c fun _ => ⟨rfl, fun _ x hx => ⟨x, hx, .refl x⟩⟩

theorem updCtx (s : State) (c n : Nat) {f : Ctx → Ctx} (hf : ∀ x, Ctx.SameTask x (f x)) : s.KeepsTasks (s.updCtx c n f) :=
  updCore s c fun k => by
    split
    · exact .refl k
    · next y hy =>
      refine ⟨rfl, fun m x hx => ?_⟩
      by_cases h : m = n
      · subst h
        obtain rfl : y = x := Option.some.inj (hy.symm.trans hx)
        exact ⟨f y, Core.ctx?_setCtx_same k m _, hf y⟩
      · exact ⟨x, (Core.ctx?_setCtx_ne k _ h).trans hx, .refl x⟩

/-! ## The halves of release and acquire, and the end of a command -/

theorem writeBackRow (s : State) (q n : Nat) : s.KeepsTasks (s.writeBackRow q n) := by
  unfold State.writeBackRow
  split
  · exact refl s
  · split
    · exact refl s
    · split
      · exact refl s
      · exact (updStash s q fun _ => _).trans (postOpen _ _ _)

theorem pushRelease (s : State) (r : Release) : s.KeepsTasks (s.pushRelease r).1 := by
  unfold State.pushRelease
  refine List.foldlRecOn (motive := fun a : State × Release => s.KeepsTasks a.1) r.todo _ (refl s) fun a ha e _ => ?_
  dsimp only
  split
  · exact ha
  · split
    · exact ha
    · split_ifs
      · exact ha
      · exact ha
      · exact ha.trans (writeBackRow _ _ _)

theorem dropWords (s : State) (q n : Nat) (words : List Nat) : s.KeepsTasks (s.dropWords q n words) := by
  unfold State.dropWords
  split
  · exact refl s
  · refine (updStash s q _).trans (forEach (fun s c => updCore s c fun k => ⟨rfl, fun n x hx => ?_⟩) _ _)
    rw [Core.ctx?_mapCtxs, hx]
    exact ⟨_, rfl, rfl⟩

theorem acquireBy (s : State) (c n scope : Nat) : s.KeepsTasks (s.acquireBy c n scope) := by
  have hacquire : s.KeepsTasks (s.acquire c scope) := forEach (fun s q => by
    split
    · exact refl s
    · refine forEach (fun s n => ?_) _ s
      split
      · exact refl s
      · split
        · exact dropWords s _ _ _
        · exact refl s) _ s
  exact hacquire.trans (updCtx _ c n fun _ => rfl)

theorem fenceStep (c n : Nat) : ∀ (fs : List FenceWait) (s : State), s.KeepsTasks (s.fenceStep c n fs).1
  | [], s => refl s
  | f :: fs, s => by
    unfold State.fenceStep
    split
    · exact refl s
    · extract_lets cmds r
      have hr : s.KeepsTasks r.1 := by
        simp only [r]
        split
        · exact refl s
        · dsimp only
          split
          · exact pushRelease s _
          · exact pushRelease s _
      clear_value r
      obtain ⟨t, g⟩ := r
      dsimp only
      split_ifs
      · exact (hr.trans (acquireBy t c n _)).trans (fenceStep c n fs _)
      · exact hr.trans (fenceStep c n fs t)

/-- What wakes a core posts events alone. -/
theorem wakeCore (s : State) (c : Nat) : s.KeepsTasks (s.wakeCore c) := by
  have hif : ∀ (s : State) (b : Bool) (d : Nat) (e : Event), s.KeepsTasks (if b then s.postOnce d e else s) := fun s b d e => by
    cases b
    · exact refl s
    · exact postOnce s d e
  have hunless : ∀ (s : State) (b : Bool) (d : Nat) (e : Event), s.KeepsTasks (if b then s else s.postOnce d e) := fun s b d e => by
    cases b
    · exact postOnce s d e
    · exact refl s
  unfold State.wakeCore
  split
  · exact refl s
  · extract_lets streams commands loader queue matrix channels rings
    have hstreams : s.KeepsTasks streams := forEach (fun s q => by
      split
      · exact refl s
      · exact hunless s _ _ _) _ s
    have hcommands : streams.KeepsTasks commands := forEach (fun s q => by
      cases q.kind with
      | strm | gcfg | grun => exact refl s
      | qset | qcopy | qccopy | qrcopy | qsave | stash => exact postOnce s _ _) _ _
    have hrings : channels.KeepsTasks rings := forEach (fun s kv => by
      split
      · exact refl s
      · exact postOnce s _ _) _ _
    have hqueues : commands.KeepsTasks channels := (((hif _ _ _ _).trans (hif _ _ _ _)).trans (hunless _ _ _ _)).trans (hunless _ _ _ _)
    refine (((hstreams.trans hcommands).trans hqueues).trans hrings).trans (forEach (fun s n => ?_) _ _)
    split
    · exact postOnce s _ _
    · exact postOnce s _ _
    · exact refl s

theorem tryFences (s : State) (c : Nat) : s.KeepsTasks (s.tryFences c) := by
  refine forEach (fun s n => ?_) _ s
  split
  · exact refl s
  · next x _ =>
    split
    · exact refl s
    · have hfence := fenceStep c n x.fences s
      generalize s.fenceStep c n x.fences = r at hfence ⊢
      obtain ⟨t, l⟩ := r
      have ht : s.KeepsTasks (t.updCtx c n fun x => { x with fences := l }) := hfence.trans (updCtx t c n fun _ => rfl)
      dsimp only
      split
      · exact ht.trans (wakeCore _ c)
      · exact ht

theorem afterCommand (s : State) (c : Nat) : s.KeepsTasks (s.afterCommand c) := by
  have hlook : ∀ s : State, s.KeepsTasks (s.lookBarriers c) := fun s => by
    unfold State.lookBarriers
    split
    · exact refl s
    · split
      · exact postOnce s _ _
      · exact refl s
  exact ((tryFences s c).trans (wakeCore _ c)).trans (hlook _)

end State.KeepsTasks

end Sys2Proof.Machine
end
section
/-! SUPPORT. How a row lands, is parked, and ends (08 R198, R199, R206 to R210). -/

namespace Sys2Proof.Machine

/-! ## What leaves the routers -/

@[simp] theorem State.wakeControl_routers (s : State) (p : Nat) : (s.wakeControl p).routers = s.routers := by
  unfold State.wakeControl
  split <;> simp

@[simp] theorem State.notice_routers (s : State) (p cause : Nat) (info : Word64) : (s.notice p cause info).routers = s.routers := by simp [State.notice]

/-- A fold whose steps leave the routers leaves them. -/
theorem State.forEach_routers {α : Type} {f : State → α → State} (h : ∀ s x, (f s x).routers = s.routers) (l : List α) (s : State) :
    (s.forEach l f).routers = s.routers :=
  State.forEach_keeps (fun t => t.routers = s.routers) (fun t x ht => (h t x).trans ht) l s rfl

@[simp] theorem State.loseRows_routers (s : State) (l : List Nat) : (s.loseRows l).routers = s.routers := State.forEach_routers (by simp) l s

@[simp] theorem State.markChannel_routers (s : State) (r : Nat) (d : Rec128) (p : Packet) (lost : Bool) : (s.markChannel r d p lost).routers = s.routers := by
  unfold State.markChannel
  split <;> simp

/-- A router reads the same where the routers are the same. -/
theorem State.router?_congr {s t : State} (h : t.routers = s.routers) (r : Nat) : t.router? r = s.router? r := by rw [State.router?, h, State.router?]

/-! ## Landing and parking -/

/-- A delivery that nothing waits before goes as its landing goes. -/
theorem State.landStash_of_open {s : State} {r : Nat} {t : Router} (ht : s.router? r = some t) (hw : ∀ w ∈ t.waiting, w.1 < 16) (ep : Nat) (p : Packet)
    {s1 : State} {l : Land} (hland : s.stashLand r (rowAddr p.desc p) (Rec128.dk p.desc == 1) p = (s1, l)) :
    (l = .landed → s.landStash r ep p = s1.landedRow r p.desc p) ∧
    (∀ cause, l = .faulted cause → cause ≠ 0 → t.fq.length < 32 → s.landStash r ep p = s1.park r ep (rowAddr p.desc p) cause p) := by
  have hopen : (t.waiting.any fun w => 16 ≤ w.1 && w.2.vc == p.vc) = false := by
    refine List.any_eq_false.2 fun w hmem => ?_
    have := hw w hmem
    simp only [Bool.and_eq_true, decide_eq_true_eq]
    omega
  refine ⟨fun hl => ?_, fun cause hl hc hroom => ?_⟩
  · subst hl
    simp [State.landStash, ht, hopen, hland]
  · subst hl
    simp [State.landStash, ht, hopen, hland, hc, Nat.not_le.2 hroom]

/-- A row that is parked stands last in the fault queue of its router, to be tried again after 64 µs (08 R206, R207). -/
theorem State.router?_park {s : State} {r : Nat} {t : Router} (ht : s.router? r = some t) (ep va cause : Nat) (p : Packet) :
    (s.park r ep va cause p).router? r = some { t with fq := t.fq ++ [⟨p, ep, s.ticks, s.ticks + 64000, none⟩] } := by
  have hrouters : (s.park r ep va cause p).routers =
      (s.updRouter r fun t => { t with fq := t.fq ++ [⟨p, ep, s.ticks, s.ticks + 64000, none⟩] }).routers := by simp [State.park]
  rw [State.router?_congr hrouters, State.router?_updRouter_same, ht, Option.map_some]

/-- Where no delivery waits for the fault queue, its room lets none go on. -/
theorem State.settleDeliveries_of_none {s : State} {r : Nat} {t : Router} (ht : s.router? r = some t) (hw : t.waiting = []) : s.settleDeliveries r = s := by
  simp [State.settleDeliveries, ht, hw]

/-- A row that leaves the fault queue lost is counted (08 R209). -/
theorem State.router?_loseParked (s : State) (r : Nat) (x : Parked) :
    (s.loseParked r x).router? r = (s.router? r).map fun t => { t with lost := satInc16 t.lost 1 } := by
  have hrouters : (s.loseParked r x).routers = ((s.markChannel r x.pkt.desc x.pkt true).updRouter r fun t => { t with lost := satInc16 t.lost 1 }).routers := by
    simp [State.loseParked, State.loseRow]
  rw [State.router?_congr hrouters, State.router?_updRouter_same, State.router?_congr (State.markChannel_routers ..)]

/-! ## The fault queue of one row -/

section
variable {s : State} {r : Nat} {t : Router} {x : Parked} (ht : s.router? r = some t) (hw : t.waiting = []) (hfq : t.fq = [x])
include ht hw hfq

/-- A retry at which the one row lands empties the fault queue. -/
theorem State.router?_retryRows_of_landed {sel : Parked → Bool} (hsel : sel x = true) (hc : s.completing r = false) {s1 : State}
    (hland : s.stashLand r (rowAddr x.pkt.desc x.pkt) (Rec128.dk x.pkt.desc == 1) x.pkt = (s1, .landed))
    (ht1 : (s1.landedRow r x.pkt.desc x.pkt).router? r = some t) : (s.retryRows r sel).router? r = some { t with fq := [] } := by
  have hempty : ((s1.landedRow r x.pkt.desc x.pkt).updRouter r fun t => { t with fq := [] }).router? r = some { t with fq := [] } := by
    rw [State.router?_updRouter_same, ht1, Option.map_some]
  simpa [State.retryRows, ht, hfq, hsel, hc, hland, State.settleDeliveries_of_none hempty hw] using hempty

/-- The one row, parked for LIMIT, leaves the fault queue, and is counted (08 R209). -/
theorem execFlowRowLost_of_old (hev : s.ev = .flowRowLost r) (hold : x.since + max 1 t.limit.toNat * 100000 ≤ s.ticks) :
    ∃ u t', exec .flowRowLost s = .next u ∧ u.router? r = some t' ∧ t'.fq = [] ∧ t'.lost = satInc16 t.lost 1 := by
  have hlost : ((s.updRouter r fun t => { t with fq := [] }).loseParked r x).router? r = some { t with fq := [], lost := satInc16 t.lost 1 } := by
    rw [State.router?_loseParked, State.router?_updRouter_same, ht]
    rfl
  refine ⟨_, _, ?_, hlost, rfl, rfl⟩
  change execFlowRowLost s = _
  simp [execFlowRowLost, hev, ht, hfq, hold, State.forEach, State.settleDeliveries_of_none hlost hw]

end

/-! ## Acknowledgements -/

/-- What follows the end of a row changes commands of the core that sent it, and tries again what waits (08 R199). -/
theorem State.afterRow_keepsTasks (s : State) (x : SendRow) : ∃ f : Core → List YCmd,
    (s.updCore x.core fun k => { k with ycmds := f k }).KeepsTasks (s.afterRow x) := by
  unfold State.afterRow
  extract_lets u v w
  have hv : u.KeepsTasks v := (State.KeepsTasks.afterCommand u x.core).trans (.forEach (fun s kv => by
    split
    · exact .refl s
    · split
      · exact .postOnce _ _ _
      · exact .refl s) _ _)
  have hw : v.KeepsTasks w := .forEach (fun s y => by
    cases y.kind with
    | drain => exact .postOnce _ _ _
    | chsend | chrecv | chstart | chabort | semadd | step => exact .refl s) _ _
  exact ⟨_, (hv.trans hw).trans ((State.KeepsTasks.postOnce _ _ _).trans (.postOnce _ _ _))⟩

theorem State.rows_afterRow (s : State) (x : SendRow) : (s.afterRow x).rows = s.rows := by
  obtain ⟨f, h⟩ := s.afterRow_keepsTasks x
  rw [h.rows, State.updCore_rows]

/-- The semaphores of the core stay, and its contexts but for their records and FENCEs. -/
theorem State.core?_afterRow {s : State} {x : SendRow} {k : Core} (hk : s.core? x.core = some k) :
    ∃ k', (s.afterRow x).core? x.core = some k' ∧ (∀ n, k'.sem n = k.sem n) ∧
      ∀ n y, k.ctx? n = some y → ∃ y', k'.ctx? n = some y' ∧ y.SameTask y' := by
  obtain ⟨f, h⟩ := s.afterRow_keepsTasks x
  obtain ⟨k', hk', hkk⟩ := h.cores x.core _ (by rw [State.core?_updCore_same, hk, Option.map_some])
  exact ⟨k', hk', hkk.sem, hkk.ctxs⟩

/-- A change of a context leaves its core but for its contexts. -/
theorem State.core?_updCtx {s : State} {c : Nat} {k : Core} (hk : s.core? c = some k) (n : Nat) (f : Ctx → Ctx) :
    ∃ k', (s.updCtx c n f).core? c = some k' ∧ k' = { k with ctxs := k'.ctxs } ∧ k'.ctx? n = (k.ctx? n).map f := by
  refine ⟨_, by rw [State.updCtx, State.core?_updCore_same, hk, Option.map_some], ?_⟩
  cases hx : k.ctx? n with
  | none => exact ⟨rfl, hx⟩
  | some x => exact ⟨rfl, Core.ctx?_setCtx_same k n _⟩

/-- A signal leaves the rows. -/
theorem State.rows_post1 (s : State) (c n : Nat) (w : Sync) : (s.post1 c n w).rows = s.rows := by
  unfold State.post1
  split
  · rfl
  · unfold State.signal
    split
    · rfl
    · dsimp only
      split
      · simp [State.putSem]
      · simp [State.putSem]

/-- A signal with the error flag sets ERR and leaves the value (12 R289). -/
theorem State.core?_postErr {s : State} {c : Nat} {k : Core} (hk : s.core? c = some k) (w : Sync) :
    ∃ k', (s.postErr c w).core? c = some k' ∧ (w.si ≠ 0 → k'.sem w.ss.toNat = { k.sem w.ss.toNat with err := true }) ∧ k.CtxsStay k' := by
  unfold State.postErr
  split
  · next hw => exact ⟨k, hk, absurd hw, .of_eq rfl⟩
  · simp only [State.signalErr, hk]
    obtain ⟨k', hk', hrest, hctxs⟩ := State.core?_putSem hk w.ss.toNat { k.sem w.ss.toNat with err := true }
    refine ⟨k', hk', fun _ => ?_, hctxs⟩
    rw [hrest]
    exact Core.sem_setSem_same k _ (by simp)

theorem State.rows_postErr (s : State) (c : Nat) (w : Sync) : (s.postErr c w).rows = s.rows := by
  unfold State.postErr
  split
  · rfl
  · unfold State.signalErr
    split
    · rfl
    · simp [State.putSem]

section
variable {s : State} {i : Nat} {x : SendRow} {k : Core} (hx : s.row? i = some x) (hk : s.core? x.core = some k) (hwf : Tab.wf none s.rows = true)
include hx hk hwf

/-- A row all of whose copies have landed ends, and its send signals (08 R199). -/
theorem execLandingAcknowledgement_of_last (hev : s.ev = .landingAcknowledgement i) (hc : x.copies ≤ 1) (hlost : x.lost = false) :
    ∃ t k', exec .landingAcknowledgement s = .next t ∧ t.row? i = none ∧ t.core? x.core = some k' ∧
      (x.sync.si ≠ 0 → k'.sem x.sync.ss.toNat = (k.sem x.sync.ss.toNat).signal x.sync.si.toNat) := by
  let s1 : State := { s with rows := Tab.set none s.rows i none }
  have hexec : exec .landingAcknowledgement s = .next ((s1.post1 x.core x.ctx x.sync).afterRow x) := by
    change execLandingAcknowledgement s = _
    simp [execLandingAcknowledgement, hev, hx, Nat.not_lt.2 hc, hlost, s1]
  obtain ⟨k1, hk1, hsig⟩ := State.core?_post1 (s := s1) hk x.ctx x.sync
  obtain ⟨k2, hk2, hsem, -⟩ := State.core?_afterRow hk1
  refine ⟨_, k2, hexec, ?_, hk2, fun hsi => (hsem _).trans (hsig.sem hsi)⟩
  rw [State.row?, State.rows_afterRow, State.rows_post1]
  exact Tab.get_set_wf none none i hwf

/-- A row of which the first copy is lost ends with the error flag, and its sender's DRAINs are told (08 R210). -/
theorem execLossAcknowledgement_of_first (hev : s.ev = .lossAcknowledgement i) (hlost : x.lost = false) :
    ∃ t k', exec .lossAcknowledgement s = .next t ∧
      t.row? i = (if x.copies ≤ 1 then none else some { x with copies := x.copies - 1, lost := true }) ∧ t.core? x.core = some k' ∧
      (x.sync.si ≠ 0 → k'.sem x.sync.ss.toNat = { k.sem x.sync.ss.toNat with err := true }) ∧
      ∀ y, k.ctx? x.ctx = some y → ∃ y', k'.ctx? x.ctx = some y' ∧ y'.lost = true := by
  let left := if x.copies ≤ 1 then none else some { x with copies := x.copies - 1, lost := true }
  let s1 : State := { s with rows := Tab.set none s.rows i left }
  let s2 : State := (s1.postErr x.core x.sync).updCore x.core fun k => k.loseBlock x.cmd
  let s3 : State := s2.updCtx x.core x.ctx fun c => { c with lost := true }
  have hexec : exec .lossAcknowledgement s = .next (s3.afterRow x) := by
    change execLossAcknowledgement s = _
    simp [execLossAcknowledgement, hev, hx, hlost, s3, s2, s1, left]
  obtain ⟨k1, hk1, herr, hctxs⟩ := State.core?_postErr (s := s1) hk x.sync
  have hk2 : s2.core? x.core = some (k1.loseBlock x.cmd) := by simp only [s2, State.core?_updCore_same, hk1, Option.map_some]
  have hrow : (s3.afterRow x).row? i = left := by
    rw [State.row?, State.rows_afterRow]
    simp only [s3, s2, State.updCtx_rows, State.updCore_rows, State.rows_postErr]
    exact Tab.get_set_wf none left i hwf
  obtain ⟨k3, hk3, hrest3, hctxs3⟩ := State.core?_updCtx hk2 x.ctx fun c => { c with lost := true }
  obtain ⟨k4, hk4, hsem, hctxs4⟩ := State.core?_afterRow hk3
  refine ⟨_, k4, hexec, hrow, hk4, fun hsi => ?_, fun y hy => ?_⟩
  · rw [hsem, hrest3]
    exact herr hsi
  · obtain ⟨y1, hy1, -⟩ := hctxs x.ctx y hy
    obtain ⟨y', hy', hyy⟩ := hctxs4 x.ctx _ (hctxs3.trans (congrArg _ hy1))
    exact ⟨y', hy', by rw [hyy]⟩

end

/-- Settles O52: a landing goes as its unit says, a faulting one is parked; acknowledgements count the copies of a row and end it; parked rows land at a
retry or are lost at their limit. -/
theorem rowLandingAndAcknowledgement : Obligations.RowLandingAndAcknowledgement := by
  unfold Obligations.RowLandingAndAcknowledgement
  intro s r ep p
  refine ⟨?transit, ?stash, ?acknowledged, ?parked⟩
  case transit =>
    intro hev hxt
    refine ⟨fun h => ?_, fun h => ?_, fun h => ?_, fun h => ?_⟩
    all_goals
      change execRowLanding s = _
      simp [execRowLanding, hev, hxt, h]
  case stash =>
    intro t s1 hev hxt ht hw
    have hexec : exec .rowLanding s = .next (s.landStash r ep p) := by
      change execRowLanding s = _
      simp [execRowLanding, hev, hxt]
    refine ⟨fun hland => ?_, fun cause t1 hland hc hroom ht1 => ?_⟩
    · obtain ⟨hlanded, -⟩ := State.landStash_of_open ht hw ep p hland
      rw [hexec, hlanded rfl]
    · obtain ⟨-, hfaulted⟩ := State.landStash_of_open ht hw ep p hland
      exact ⟨_, _, by rw [hexec, hfaulted cause rfl hc hroom], State.router?_park ht1 .., rfl⟩
  case acknowledged =>
    intro i x k hx hk hwf
    refine ⟨execLandingAcknowledgement_of_last hx hk hwf, fun hev hc => ?_, execLossAcknowledgement_of_first hx hk hwf⟩
    change execLandingAcknowledgement s = _
    simp [execLandingAcknowledgement, hev, hx, hc]
  case parked =>
    intro t x s1 ht hw hfq
    refine ⟨fun hev hdue hc hland ht1 => ?_, execFlowRowLost_of_old ht hw hfq⟩
    have hretry := State.router?_retryRows_of_landed ht hw hfq (sel := fun x => x.due s.cycle s.ticks) hdue hc hland ht1
    have hnext : ((s.retryRows r fun x => x.due s.cycle s.ticks).updRouter r fun t =>
        { t with fq := t.fq.map fun x => if x.next ≤ s.ticks then { x with next := s.ticks + 64000 } else x }).router? r = some { t with fq := [] } := by
      rw [State.router?_updRouter_same, hretry]
      rfl
    refine ⟨_, _, ?_, hnext, rfl⟩
    change execParkedRowRetry s = _
    simp [execParkedRowRetry, hev, hnext, State.forEach]

end Sys2Proof.Machine
end
section
/-! SUPPORT. The ends of the instructions that hold their context: TLBI, EVAC, DRAFTLD, RETIRE (08 R203, 10 R254, R262, 16 R384 to R393, 18 R489). -/

namespace Sys2Proof.Machine

/-! ## TLBI -/

/-- No entry of a core's TLB matches what a TLBI drops. -/
def State.TlbFree (p : Nat) (all : Bool) (addr q : Nat) (s : State) : Prop :=
  ∀ k, s.core? q = some k → ∀ e ∈ k.tlb, ¬(e.part = p ∧ (all = true ∨ e.vpn = addr / 2 ^ e.size))

/-- TLBI drops the matching entries of every core in its reach (10 R262). -/
theorem State.tlbFree_dropTlb (s : State) (p : Nat) (all : Bool) (addr : Nat) {cores : List Nat} (clusters : List Nat) {q : Nat} (hq : q ∈ cores) :
    (s.dropTlb p all addr cores clusters).TlbFree p all addr q := by
  unfold State.dropTlb
  extract_lets keep t
  have hkeep : ∀ l : List TlbEntry, ∀ e ∈ l.filter keep, ¬(e.part = p ∧ (all = true ∨ e.vpn = addr / 2 ^ e.size)) := fun l e he => by
    have hkept := (List.mem_filter.1 he).2
    simp only [keep, Bool.not_eq_true', Bool.and_eq_false_iff, Bool.or_eq_false_iff, beq_eq_false_iff_ne] at hkept
    rintro ⟨hp, h⟩
    cases h <;> simp_all
  have hstep : ∀ (s : State) (c : Nat), (c = q ∨ s.TlbFree p all addr q) →
      (s.updCore c fun k => { k with tlb := k.tlb.filter keep }).TlbFree p all addr q := fun s c h k hk => by
    by_cases hc : q = c
    · subst hc
      rw [State.core?_updCore_same] at hk
      obtain ⟨k0, -, rfl⟩ := Option.map_eq_some_iff.1 hk
      exact hkeep k0.tlb
    · rw [State.core?_updCore_ne _ _ hc] at hk
      exact h.resolve_left (Ne.symm hc) k hk
  have hcores : t.TlbFree p all addr q := by
    simp only [t]
    clear_value t
    induction cores generalizing s with
    | nil => exact absurd hq List.not_mem_nil
    | cons c cs ih =>
      by_cases hc : c = q
      · exact State.forEach_keeps (State.TlbFree p all addr q) (fun s c h => hstep s c (.inr h)) cs _ (hstep s c (.inl hc))
      · exact ih _ ((List.mem_cons.1 hq).resolve_left (Ne.symm hc))
  exact State.forEach_keeps (State.TlbFree p all addr q) (fun s c h k hk => h k (by rw [State.core?, State.updCluster_cores] at hk; exact hk)) _ t hcores

/-! ## Results -/

/-- The held context goes on with its result in its register. -/
theorem State.ctx?_endHold {s : State} {c n : Nat} {x : Ctx} (hx : s.ctx? c n = some x) (hwf : Tab.wf RV.zero x.regs.c = true) {d : Nat} (hd : d ≠ 0) (v : Nat)
    (psn : Bool) : ∃ x', (s.endHold c n d v psn).ctx? c n = some x' ∧ x'.hold = .none ∧ x'.regs.getC d = ⟨BitVec.ofNat 64 v, psn⟩ :=
  ⟨_, State.ctx?_updCtx_of_some hx _, rfl, Regs.getC_setC_same hwf hd _⟩

/-! ## EVAC -/

/-- The work of an EVAC of result 0 and the end of its hold; with another result it does nothing more (10 R254). -/
def State.evacEnd (s : State) (c n d : Nat) (gp : Bool) (l : Nat) (cores slices : List Nat) : Nat → State
  | 0 =>
    match s.evacWork l cores with
    | (s, m) =>
      let s := s.forEach slices fun s n => (s.leaveLines n fun x => !s.wayUsable n l x.way).updSlice n fun sl => { sl with limpt := l }
      (s.endHold c n d 0 gp).updCtx c n fun x => { x with holdUntil := max x.holdUntil (s.cycle + 64 * m) }
  | r => s.endHold c n d r gp

theorem State.evacEnd_of_ne (s : State) (c n d : Nat) (gp : Bool) {l : Nat} {cores slices : List Nat} {r : Nat} (h : r ≠ 0) :
    s.evacEnd c n d gp l cores slices r = s.endHold c n d r gp := by
  cases r with
  | zero => exact absurd rfl h
  | succ r => rfl

/-- An EVAC that no earlier one and no step to a lower point holds back. -/
theorem execEvacCompletion_of_free {s : State} {c n d t scope seq : Nat} {gp : Bool} {x : Ctx} (hev : s.ev = .evacCompletion c n) (hx : s.ctx? c n = some x)
    (hhold : x.hold = .evac d t scope seq gp) (hbefore : s.evacBefore seq = false) (hstep : s.module.opStep = true → s.module.opTo ≤ max t s.module.pt) :
    let cores := s.evacCores c (s.partOf c) scope
    let slices := s.evacSlices (s.partOf c) scope
    exec .evacCompletion s = .next (s.evacEnd c n d gp (max t s.module.pt) cores slices (s.evacResult (s.partOf c) scope (max t s.module.pt) cores slices)) := by
  have hfree : (s.module.opStep && decide (max t s.module.pt < s.module.opTo)) = false := by
    cases h : s.module.opStep with
    | false => rfl
    | true => simpa only [Bool.true_and, decide_eq_false_iff_not, Nat.not_lt] using hstep h
  change execEvacCompletion s = _
  unfold execEvacCompletion
  rw [hev]
  refine congrArg Host.Outcome.next ?_
  rw [hx, Option.map_some, hhold]
  exact if_neg (by simp only [hbefore, hfree, Bool.or_self, Bool.false_eq_true, not_false_eq_true])

/-! ## DRAFTLD -/

section
variable {s : State} {c n l seq : Nat} {x : Ctx} {addr len : Word64} {bad : Bool} {due : Option Nat} {ws : List PWord} {q : Launch}
  (hev : s.ev = .draftldCompletion c n) (hx : s.ctx? c n = some x) (hhold : x.hold = .draftld seq addr len bad due ws .going)
  (hlaunch : s.launchOf c = some (l, q))
include hev hx hhold hlaunch

/-- Once the flows of its launch have ended, DRAFTLD comes to what its read comes to (16 R384). -/
theorem execDraftldCompletion_of_quiet (hheld : s.slotHeld q = false) (hbefore : s.draftldBefore l seq = false) (hflow : s.flowing l = false) {t : State}
    {vs : List PWord} {out : DraftEnd} (hread : s.draftldRead c n addr len bad ws q = (t, vs, out)) (hout : out ≠ .going) :
    exec .draftldCompletion s = .next (t.updCtx c n fun x => { x with hold := .draftld seq addr len bad none vs out }) := by
  change execDraftldCompletion s = _
  simp [execDraftldCompletion, hev, hx, hhold, hlaunch, hheld, hbefore, hflow, hread, hout]

/-- A combine group that holds a slot when 10 µs have passed ends it with result 2 (16 R386). -/
theorem execDraftldCompletion_of_late (hheld : s.slotHeld q = true) (hlate : ∃ t, due = some t ∧ t ≤ s.time18) :
    exec .draftldCompletion s = .next (s.updCtx c n fun x => { x with hold := .draftld seq addr len bad none ws (.result 2) }) := by
  obtain ⟨t, rfl, ht⟩ := hlate
  change execDraftldCompletion s = _
  simp [execDraftldCompletion, hev, hx, hhold, hlaunch, hheld, ht]

end

/-! ## RETIRE -/

namespace State.Stays

theorem mergeWb (s : State) (q : Nat) (w : WriteBack) : s.Stays (s.mergeWb q w) := (updCore s q fun k _ => .memory k _ _).trans (homeWrite _ _ _ _ _ _)

theorem performWb (s : State) (q id : Nat) : s.Stays (s.performWb q id) := by
  unfold State.performWb
  split
  · exact refl s
  · split
    · exact refl s
    · exact forEach (fun s w => mergeWb s q w) _ s

theorem flushWbs (s : State) (q pa : Nat) : s.Stays (s.flushWbs q pa) := by
  unfold State.flushWbs
  split
  · exact refl s
  · exact forEach (fun s (w : WriteBack) => performWb s q w.id) _ s

theorem evictWord (s : State) (c va : Nat) (l : Leaf) : s.Stays (s.evictWord c va l) := by
  unfold State.evictWord
  dsimp only
  split
  · exact flushWbs s _ _
  · exact ((flushWbs s _ _).trans (homeWrite _ _ _ _ _ _)).trans (dropWords _ _ _ _)

theorem evictWords (s : State) (c a n : Nat) (l : Leaf) : s.Stays (s.evictWords c a n l) :=
  (forEach (fun s w => evictWord s c w _) _ s).trans (updCore _ c fun k _ => .mapCtxs k fun _ _ => ⟨rfl, Iff.rfl⟩)

theorem atomLand (s : State) (c n : Nat) (y : ReadyAtomic) : s.Stays (s.atomLand c n y) := by
  unfold State.atomLand
  extract_lets ty size t
  have ht : s.Stays t := evictWords s c _ _ _
  have hread := homeRead t (t.access c y.leaf.ed y.at') y.leaf.pa size
  split
  next u old psn heq =>
  extract_lets old' a v w
  have hv : u.Stays v := by
    simp only [v]
    split
    · exact refl u
    · exact homePut u _ _ _ _ _
  have hw : v.Stays w := updCtx v c n fun _ => ⟨rfl, Iff.rfl⟩
  exact (((ht.trans (hread.fst heq)).trans hv).trans hw).trans (postOpen _ _ _)

/-- An atomic that has waited leaves the cores but for their contexts, stashes and TLBs. -/
theorem landLate (s : State) (c n : Nat) : s.Stays (s.landLate c n) := by
  unfold State.landLate
  split
  · exact refl s
  · refine trans ?_ (atomLand _ c n _)
    exact updCtx s c n fun _ => ⟨rfl, Iff.rfl⟩

end State.Stays

/-- A context that gives up issue: it is in the state given, and where it held issue its core has no issuing context. -/
theorem State.core?_switchOut_cases {s : State} {c n : Nat} {k : Core} {x : Ctx} (hk : s.core? c = some k) (hx : k.ctx? n = some x) (st : CtxState) :
    ∃ k' x', (s.switchOut c n st).core? c = some k' ∧ k'.ctx? n = some x' ∧ x'.st = st ∧ (k.issuing = some n → k'.issuing = none) := by
  unfold State.switchOut
  extract_lets u
  have hu : s.Stays u := by
    simp only [u]
    split
    · exact .refl s
    · split
      · exact .refl s
      · unfold State.countIssue
        split <;> exact .updCtx s c _ fun _ => ⟨rfl, Iff.rfl⟩
  obtain ⟨k1, hk1, hrest, hctxs⟩ := hu.cores c k hk
  obtain ⟨x1, hx1, -⟩ := hctxs n x hx
  refine ⟨_, { x1 with st := st, since := u.cycle, counter := 0 },
    by rw [State.core?_updCore_same, State.core?_updCtx_same _ hk1 hx1, Option.map_some], ?_, rfl, fun hn => ?_⟩
  · split <;> exact Core.ctx?_setCtx_same k1 n _
  · rw [if_pos (by rw [hrest]; exact hn)]

/-- The launch of a core is looked at again. -/
def State.lookLaunch (s : State) (c : Nat) : State :=
  match (s.core? c).bind (·.launch) with
  | none => s
  | some l => ((s.postOnce 0 (.stepBarrierOpen l (clusterOf c) false)).postOnce 0 (.stepBarrierOpen l (clusterOf c) true)).postOnce 1 (.launchCompletion l)

theorem State.keepsTasks_lookLaunch (s : State) (c : Nat) : s.KeepsTasks (s.lookLaunch c) := by
  unfold State.lookLaunch
  split
  · exact .refl s
  · exact ((State.KeepsTasks.postOnce _ _ _).trans (.postOnce _ _ _)).trans (.postOnce _ _ _)

/-- A context whose RETIRE has been accepted. -/
def Ctx.retired (x : Ctx) : Ctx :=
  { x with
    hold := .none, pend := Pending.none, armed := [], sat := [], fills := [], timer := none, rel := none, win := none, doom := none
    resume := none, sr := { x.sr with taskid := 0 } }

/-- The end of a context's task, with the kill that it is doomed to. -/
def State.retire (s : State) (c n : Nat) (x : Ctx) : State :=
  let s := ((s.landLate c n).switchOut c n .empty).updCtx c n Ctx.retired
  match x.doom with
  | none => s
  | some (cause, _) => s.countKill c n cause

/-- What follows it. -/
def State.afterRetire (s : State) (c : Nat) : State := (s.forEach (List.range 16) fun s q => s.postOnce 1 (.streamRetire c q)).afterCommand c

theorem execRetireAccepted_of_alone {s : State} {c n : Nat} {x : Ctx} (hx : s.ctx? c n = some x) (hev : s.ev = .retireAccepted c n)
    (hhold : x.hold = .retire) (hm : x.holdM = .none) (hq : x.holdQ = .none) :
    exec .retireAccepted s = .next (((s.retire c n x).afterRetire c).lookLaunch c) := by
  change execRetireAccepted s = _
  unfold execRetireAccepted
  rw [hev]
  refine congrArg Host.Outcome.next ?_
  rw [hx]
  refine (if_neg (by simp [hhold, hm, hq])).trans ?_
  extract_lets _ _ ended _ followed
  have hended : ended = s.retire c n x := by
    simp only [ended, State.retire]
    cases x.doom <;> rfl
  have hfollowed : followed = (s.retire c n x).afterRetire c := congrArg (State.afterRetire · c) hended
  rw [← hfollowed]
  clear_value followed
  rfl

/-- A kill that is counted leaves the cores. -/
theorem State.countKill_cores (s : State) (c n cause : Nat) : (s.countKill c n cause).cores = s.cores := by
  unfold State.countKill
  split
  · rfl
  · split <;> simp

/-- A context that has retired is EMPTY, and holds issue no longer. -/
theorem State.core?_retire {s : State} {c n : Nat} {k : Core} {x : Ctx} (hk : s.core? c = some k) (hx : k.ctx? n = some x) :
    ∃ k' x', (s.retire c n x).core? c = some k' ∧ k'.ctx? n = some (Ctx.retired x') ∧ x'.st = .empty ∧ (k.issuing = some n → k'.issuing = none) := by
  obtain ⟨k1, hk1, hrest, hctxs⟩ := (State.Stays.landLate s c n).cores c k hk
  obtain ⟨x1, hx1, -⟩ := hctxs n x hx
  obtain ⟨k2, x2, hk2, hx2, hst, hissuing⟩ := State.core?_switchOut_cases hk1 hx1 .empty
  refine ⟨_, x2, ?_, Core.ctx?_setCtx_same k2 n _, hst, fun hn => hissuing (by rw [hrest]; exact hn)⟩
  unfold State.retire
  rw [← State.core?_updCtx_same Ctx.retired hk2 hx2]
  dsimp only
  split
  · rfl
  · rw [State.core?, State.countKill_cores, State.core?]

/-- RETIRE leaves its context EMPTY, and its core without it (18 R489). -/
theorem ctx?_execRetireAccepted {s : State} {c n : Nat} {k : Core} {x : Ctx} (hk : s.core? c = some k) (hx : k.ctx? n = some x)
    (hev : s.ev = .retireAccepted c n) (hhold : x.hold = .retire) (hm : x.holdM = .none) (hq : x.holdQ = .none) :
    ∃ t k' x', exec .retireAccepted s = .next t ∧ t.core? c = some k' ∧ k'.ctx? n = some x' ∧ x'.st = .empty ∧ x'.hold = .none ∧ x'.sr.taskid = 0 ∧
      x'.pend = Pending.none ∧ (k.issuing = some n → k'.issuing = none) := by
  have hctx : s.ctx? c n = some x := by rw [State.ctx?, hk, Option.bind_some, hx]
  obtain ⟨k1, x1, hk1, hx1, hst, hissuing⟩ := State.core?_retire hk hx
  have hafter : (s.retire c n x).KeepsTasks (((s.retire c n x).afterRetire c).lookLaunch c) :=
    ((State.KeepsTasks.forEach (fun s q => .postOnce s _ _) _ _).trans (.afterCommand _ c)).trans (State.keepsTasks_lookLaunch _ c)
  obtain ⟨k', hk', hrest, hctxs⟩ := hafter.cores c k1 hk1
  obtain ⟨x', hx', hxx⟩ := hctxs n _ hx1
  rw [Ctx.SameTask] at hxx
  refine ⟨_, k', x', execRetireAccepted_of_alone hctx hev hhold hm hq, hk', hx', ?_⟩
  rw [hrest, hxx]
  exact ⟨hst, rfl, rfl, rfl, hissuing⟩

/-- Settles O54: TLBI and EVAC do their work where no earlier one is before them; DRAFTLD comes to its result; RETIRE leaves its context EMPTY. -/
theorem heldOperationsComplete : Obligations.HeldOperationsComplete := by
  unfold Obligations.HeldOperationsComplete
  intro s c n k x hk hx
  have hctx : s.ctx? c n = some x := by rw [State.ctx?, hk, Option.bind_some, hx]
  refine ⟨?tlbi, ?evac, fun v d gp hd hwf => State.ctx?_endHold hctx hwf hd v gp, ?draftld, ctx?_execRetireAccepted hk hx⟩
  case tlbi =>
    intro all reach addr seq hev hhold hbefore p cores hpending hlate clusters s1 s2 s3 s4
    refine ⟨?_, fun q k' hq hk' => s.tlbFree_dropTlb p all addr.toNat clusters hq k' hk'⟩
    have hlate' : ((s.latePending all addr.toNat cores).any fun y => !y.2.2) = false :=
      List.any_eq_false.2 fun y hy => by simp [hlate y hy]
    change execTlbiCompletion s = _
    simp only [execTlbiCompletion, hev, hctx, Option.map_some, hhold]
    rw [if_neg (by simp only [p, cores] at hbefore hpending hlate'; simp only [hbefore, hpending, hlate', Bool.or_self, Bool.false_eq_true, not_false_eq_true])]
  case evac =>
    intro d t scope seq gp hev hhold hbefore hstep l cores slices res
    have hexec := execEvacCompletion_of_free hev hctx hhold hbefore hstep
    refine ⟨fun hres => hexec.trans ?_, ?_⟩
    · rw [State.evacEnd_of_ne _ _ _ _ _ hres]
    · intro s1 m hres hwork s2
      rw [hexec, show s.evacResult (s.partOf c) scope l cores slices = 0 from hres, State.evacEnd, hwork]
  case draftld =>
    intro addr len bad seq due ws l q hev hhold hl hq becomes shapeBad
    have hlaunch : s.launchOf c = some (l, q) := by simp [State.launchOf, hk, hl, hq]
    refine ⟨fun hheld hbefore hflow => ⟨fun hbad => ?_, fun s1 ws1 hshape hfence hwords => ?_⟩, execDraftldCompletion_of_late hev hctx hhold hlaunch⟩
    · exact execDraftldCompletion_of_quiet hev hctx hhold hlaunch hheld hbefore hflow (by simp only [State.draftldRead, shapeBad] at hbad ⊢; rw [if_pos hbad]) nofun
    · refine execDraftldCompletion_of_quiet hev hctx hhold hlaunch hheld hbefore hflow ?_ (by split <;> nofun)
      simp [State.draftldRead, hk, hfence, hwords, show draftShapeBad addr.toNat len.toNat bad = false from hshape]

end Sys2Proof.Machine
end
section
/-! SUPPORT. How a router folds contributions (08 R189, R192, R195; 05 R104, R111, R112). -/

namespace Sys2Proof.Machine

/-! ## A router changed twice -/

theorem Tab.ins_ins {α : Type} (m : Tab α) (n : Nat) (x y : α) : Tab.ins (Tab.ins m n x) n y = Tab.ins m n y := by
  induction m with
  | nil => simp [Tab.ins]
  | cons a m ih =>
    obtain ⟨k, v⟩ := a
    rcases lt_trichotomy n k with h | h | h
    · simp [Tab.ins, h]
    · simp [Tab.ins, h]
    · simp [Tab.ins, Nat.not_lt.2 h.le, h.ne, ih]

theorem State.updRouter_of_some {s : State} {r : Nat} {t : Router} (h : s.router? r = some t) (f : Router → Router) :
    s.updRouter r f = { s with routers := Tab.set none s.routers r (some (f t)) } := by simp only [State.updRouter, h]

theorem State.updRouter_of_none {s : State} {r : Nat} (h : s.router? r = none) (f : Router → Router) : s.updRouter r f = s := by
  simp only [State.updRouter, h]

/-- Two changes of a router are one. -/
theorem State.updRouter_updRouter (s : State) (r : Nat) (f g : Router → Router) : (s.updRouter r f).updRouter r g = s.updRouter r fun t => g (f t) := by
  cases h : s.router? r with
  | none => rw [State.updRouter_of_none h, State.updRouter_of_none h, State.updRouter_of_none h]
  | some t =>
    have h' : (s.updRouter r f).router? r = some (f t) := by rw [State.router?_updRouter_same, h, Option.map_some]
    rw [State.updRouter_of_some h', State.updRouter_of_some h, State.updRouter_of_some h]
    simp [Tab.set, Tab.ins_ins]

/-- Changes of a router that agree on it are the same. -/
theorem State.updRouter_congr {s : State} {r : Nat} {t : Router} (h : s.router? r = some t) {f g : Router → Router} (hfg : f t = g t) :
    s.updRouter r f = s.updRouter r g := by rw [State.updRouter_of_some h, State.updRouter_of_some h, hfg]

/-! ## One fold -/

/-- The partial after a contribution has folded into it: the first is taken exactly (05 R111, 08 R195). -/
def foldIn (e : Rec128) (acc : List PWord) (c : Contribution) : List PWord :=
  if acc = [] then firstWords (Rec128.act e) (foldInput e c.pkt) else foldWords (Rec128.act e) (bitsOf e 19 2) acc (foldInput e c.pkt)

/-- A round after a contribution of it has folded. -/
def Round.fold (q : Round) (e : Rec128) (c : Contribution) : Round := { q with acc := foldIn e q.acc c, next := c.rank + 1, rows := q.rows ++ c.pkt.rows }

/-- A round that holds a contribution no longer. -/
def Round.release (q : Round) (c : Contribution) : Round := { q with held := q.held.filter fun d => d.seqNo ≠ c.seqNo }

theorem State.takeOut_fst (s : State) (r key due cost : Nat) : ∃ b, (s.takeOut r key due cost).1 = s.updRouter r fun t => { t with busy := b } := by
  unfold State.takeOut
  cases h : s.router? r with
  | none => exact ⟨[], (State.updRouter_of_none h _).symm⟩
  | some t => exact ⟨_, State.updRouter_congr h rfl⟩

/-- A fold takes the unit of its group, and folds into the round. -/
theorem State.foldOne_eq (s : State) (r : Nat) (e : Rec128) (q : Round) (c : Contribution) :
    ∃ b at', s.foldOne r e q c = (s.updRouter r fun t => { t with busy := b }, q.fold e c, at') := by
  let cost := if q.acc.isEmpty then 1 else foldCost e c.pkt
  obtain ⟨b, hb⟩ := s.takeOut_fst r (16 + q.flow) (s.cycle + 2) cost
  refine ⟨b, (s.takeOut r (16 + q.flow) (s.cycle + 2) cost).2, ?_⟩
  rw [← hb]
  simp [State.foldOne, Round.fold, foldIn, cost]

/-! ## The folds of a list of contributions -/

/-- A round after contributions that it held have folded, one after another. -/
def Round.folds (e : Rec128) (q : Round) (l : List Contribution) : Round := l.foldl (fun q c => (q.release c).fold e c) q

theorem Round.folds_eq (e : Rec128) (q : Round) (l : List Contribution) : q.folds e l =
    { q with held := q.held.filter fun d => !(l.map (·.seqNo)).contains d.seqNo, acc := l.foldl (foldIn e) q.acc,
             next := l.foldl (fun _ c => c.rank + 1) q.next, rows := q.rows ++ l.flatMap fun x => x.pkt.rows } := by
  induction l generalizing q with
  | nil => simp [Round.folds]
  | cons c l ih =>
    have hcons : q.folds e (c :: l) = Round.folds e ((q.release c).fold e c) l := rfl
    rw [hcons, ih]
    simp [Round.release, Round.fold, List.filter_filter, Bool.and_comm]

/-- Contributions of consecutive ranks leave the rank after the last as the next. -/
theorem next_of_ranks {l : List Contribution} {n : Nat} (h : l.map (·.rank) = List.range' n l.length) :
    l.foldl (fun _ c => c.rank + 1) n = n + l.length := by
  induction l generalizing n with
  | nil => rfl
  | cons c l ih =>
    simp only [List.map_cons, List.length_cons, List.range'_succ, List.cons.injEq] at h
    rw [List.foldl_cons, h.1, ih h.2, List.length_cons]
    omega

/-- One fold of `foldReady`: scan sends the partial on (08 R192). -/
def State.foldStep (s : State) (r inp : Nat) (e : Rec128) (q : Round) (c : Contribution) : State :=
  match s.foldOne r e q c with
  | (s, q, at') =>
    if Rec128.act e = 3 then
      (s.fanRows c.pkt.rows (Rec128.rlo e + Rec128.xcnt e - c.rank)).output r inp at' e
        (outPacket e r q c.pkt c.rank ((q.seq * Rec128.xcnt e + c.rank - Rec128.rlo e) % 65536))
    else s

/-- The state and the round after contributions have folded, one after another. -/
def State.folds (s : State) (r inp : Nat) (e : Rec128) (q : Round) (l : List Contribution) : State × Round :=
  l.foldl (fun a c => (a.1.foldStep r inp e (a.2.release c) c, (a.2.release c).fold e c)) (s, q)

theorem State.folds_snd (s : State) (r inp : Nat) (e : Rec128) (q : Round) (l : List Contribution) : (s.folds r inp e q l).2 = q.folds e l := by
  induction l generalizing s q with
  | nil => rfl
  | cons c l ih => exact ih _ _

theorem State.folds_concat (s : State) (r inp : Nat) (e : Rec128) (q : Round) (l : List Contribution) (c : Contribution) :
    (s.folds r inp e q (l ++ [c])).1 = (s.folds r inp e q l).1.foldStep r inp e ((q.folds e l).release c) c := by
  rw [← s.folds_snd r inp e q l]
  simp [State.folds]

theorem State.foldReady_of_some (s : State) (r inp : Nat) (e : Rec128) (fuel : Nat) {q : Round} {c : Contribution}
    (h : (q.held.find? fun c => c.rank = q.next) = some c) :
    ∃ at', s.foldReady r inp e (fuel + 1) q =
      (((s.foldStep r inp e (q.release c) c).foldReady r inp e fuel ((q.release c).fold e c)).1,
        ((s.foldStep r inp e (q.release c) c).foldReady r inp e fuel ((q.release c).fold e c)).2.1, at') := by
  obtain ⟨b, at', hone⟩ := s.foldOne_eq r e (q.release c) c
  simp only [State.foldReady, h, State.foldStep, hone]
  rw [show ({ q with held := q.held.filter fun d => d.seqNo ≠ c.seqNo } : Round) = q.release c from rfl, hone]
  exact ⟨_, rfl⟩

/-- `l` are the contributions that fold now: those held of the next ranks, one rank after another, as far as they are held (08 R189). -/
structure Round.Ready (q : Round) (l : List Contribution) : Prop where
  rank_nodup : (q.held.map (·.rank)).Nodup
  seqNo_nodup : (q.held.map (·.seqNo)).Nodup
  held : ∀ x ∈ l, x ∈ q.held
  ranks : l.map (·.rank) = List.range' q.next l.length
  last : ∀ x ∈ q.held, x.rank ≠ q.next + l.length

namespace Round.Ready

theorem length_le {q : Round} {l : List Contribution} (h : q.Ready l) : l.length ≤ q.held.length :=
  ((List.Nodup.of_map (·.rank) (h.ranks ▸ List.nodup_range' 1)).subperm h.held).length_le

theorem next_eq {q : Round} {l : List Contribution} (h : q.Ready l) : l.foldl (fun _ c => c.rank + 1) q.next = q.next + l.length := next_of_ranks h.ranks

theorem find?_none {q : Round} (h : q.Ready []) : (q.held.find? fun c => c.rank = q.next) = none :=
  List.find?_eq_none.2 fun x hx => by simpa using h.last x hx

section
variable {q : Round} {c : Contribution} {l : List Contribution} (h : q.Ready (c :: l))
include h

theorem rank_head : c.rank = q.next ∧ l.map (·.rank) = List.range' (q.next + 1) l.length := by
  have hranks := h.ranks
  simp only [List.map_cons, List.length_cons, List.range'_succ, List.cons.injEq] at hranks
  exact hranks

theorem find?_head : (q.held.find? fun c => c.rank = q.next) = some c := by
  have hc : c ∈ q.held := h.held c List.mem_cons_self
  obtain ⟨x, hx⟩ : ∃ x, (q.held.find? fun c => c.rank = q.next) = some x :=
    Option.isSome_iff_exists.1 (List.find?_isSome.2 ⟨c, hc, by simpa using h.rank_head.1⟩)
  have hxr : x.rank = q.next := by simpa using List.find?_some hx
  rw [hx, List.inj_on_of_nodup_map h.rank_nodup (List.mem_of_find?_eq_some hx) hc (hxr.trans h.rank_head.1.symm)]

/-- After the first of them the others fold. -/
theorem tail (e : Rec128) : ((q.release c).fold e c).Ready l := by
  obtain ⟨hc, hrest⟩ := h.rank_head
  have hother : ∀ x ∈ l, x.seqNo ≠ c.seqNo := fun x hx heq => by
    have hxc := List.inj_on_of_nodup_map h.seqNo_nodup (h.held x (List.mem_cons_of_mem _ hx)) (h.held c List.mem_cons_self) heq
    have hmem : x.rank ∈ List.range' (q.next + 1) l.length := hrest ▸ List.mem_map_of_mem hx
    rw [hxc, hc, List.mem_range'_1] at hmem
    omega
  refine ⟨h.rank_nodup.sublist (List.filter_sublist.map _), h.seqNo_nodup.sublist (List.filter_sublist.map _),
    fun x hx => List.mem_filter.2 ⟨h.held x (List.mem_cons_of_mem _ hx), by simpa using hother x hx⟩, by simpa [Round.fold, hc] using hrest, fun x hx => ?_⟩
  have := h.last x (List.mem_of_mem_filter hx)
  simp only [Round.fold, hc, List.length_cons] at this ⊢
  omega

end

end Round.Ready

/-- The held contributions whose turn has come fold. -/
theorem State.foldReady_eq (r inp : Nat) (e : Rec128) {l : List Contribution} : ∀ {fuel : Nat} {s : State} {q : Round}, q.Ready l → l.length ≤ fuel →
    ∃ at', s.foldReady r inp e fuel q = ((s.folds r inp e q l).1, q.folds e l, at') := by
  induction l with
  | nil =>
    intro fuel s q h _
    cases fuel with
    | zero => exact ⟨_, rfl⟩
    | succ fuel => exact ⟨_, by simp only [State.foldReady, h.find?_none]; rfl⟩
  | cons c l ih =>
    intro fuel s q h hfuel
    obtain ⟨fuel, rfl⟩ : ∃ m, fuel = m + 1 := Nat.exists_eq_succ_of_ne_zero (by simp at hfuel; omega)
    obtain ⟨at', hfirst⟩ := s.foldReady_of_some r inp e fuel h.find?_head
    obtain ⟨_, hrest⟩ := ih (s := s.foldStep r inp e (q.release c) c) (h.tail e) (by simpa using hfuel)
    rw [hfirst, hrest]
    exact ⟨at', rfl⟩

end Sys2Proof.Machine
end
section
/-! SUPPORT. The order of held contributions, and the words of a fold (05 R104, R111, R112, 08 R189, R195). -/

namespace Sys2Proof.Machine

/-! ## The order of held contributions -/

/-- By rank, within a rank by SRC, within both by arrival (08 R189). -/
def Contribution.Before (a b : Contribution) : Prop := a.rank < b.rank ∨ (a.rank = b.rank ∧ (a.src < b.src ∨ (a.src = b.src ∧ a.seqNo < b.seqNo)))

theorem Contribution.Before.trans {a b c : Contribution} (h : a.Before b) (h' : b.Before c) : a.Before c := by
  unfold Contribution.Before at h h' ⊢
  omega

theorem insertHeld_perm (c : Contribution) (l : List Contribution) : (insertHeld c l).Perm (c :: l) := by
  induction l with
  | nil => exact .refl _
  | cons d l ih =>
    simp only [insertHeld]
    split
    · exact .refl _
    · exact (ih.cons d).trans (.swap c d l)

theorem insertHeld_pairwise {c : Contribution} {l : List Contribution} (hl : l.Pairwise Contribution.Before) (hc : ∀ d ∈ l, d.seqNo < c.seqNo) :
    (insertHeld c l).Pairwise Contribution.Before := by
  induction l with
  | nil => exact List.pairwise_singleton _ _
  | cons d l ih =>
    obtain ⟨hd, hl'⟩ := List.pairwise_cons.1 hl
    simp only [insertHeld]
    split
    · next h =>
      have hcd : c.Before d := by
        simp only [Bool.or_eq_true, Bool.and_eq_true, decide_eq_true_eq] at h
        unfold Contribution.Before
        omega
      refine List.pairwise_cons.2 ⟨fun x hx => ?_, hl⟩
      rcases List.mem_cons.1 hx with rfl | hx
      · exact hcd
      · exact hcd.trans (hd x hx)
    · next h =>
      have hdc : d.Before c := by
        have := hc d List.mem_cons_self
        simp only [Bool.or_eq_true, Bool.and_eq_true, decide_eq_true_eq] at h
        unfold Contribution.Before
        omega
      refine List.pairwise_cons.2 ⟨fun x hx => ?_, ih hl' fun x hx => hc x (List.mem_cons_of_mem d hx)⟩
      rcases List.mem_cons.1 ((insertHeld_perm c l).mem_iff.1 hx) with rfl | hx
      · exact hdc
      · exact hd x hx

/-! ## The words of a fold -/

theorem foldWords_getElem? {act : Nat} (hact : act ≠ 5) (op : Nat) {acc ws : List PWord} {i : Nat} {x y : PWord} (hx : acc[i]? = some x) (hy : ws[i]? = some y) :
    (foldWords act op acc ws)[i]? = some
      ⟨rne32 (if op = 1 then (f32 x.w).max (f32 y.w) else if op = 2 then (f32 x.w).min (f32 y.w) else (f32 x.w).add (f32 y.w)), x.p || y.p⟩ := by
  have hzip : (acc.zip ws)[i]? = some (x, y) := List.getElem?_zip_eq_some.2 ⟨hx, hy⟩
  have hword : (if op = 1 then maxF x.w y.w else if op = 2 then minF x.w y.w else addW x.w y.w) =
      rne32 (if op = 1 then (f32 x.w).max (f32 y.w) else if op = 2 then (f32 x.w).min (f32 y.w) else (f32 x.w).add (f32 y.w)) := by
    split_ifs <;> rfl
  rw [foldWords, if_neg hact, List.getElem?_map, hzip, Option.map_some, hword]

/-- Pair after pair merges. -/
theorem mergePairs_getElem? : ∀ {i : Nat} {acc ws : List PWord} {x sa y sc : PWord}, acc[2 * i]? = some x → acc[2 * i + 1]? = some sa →
    ws[2 * i]? = some y → ws[2 * i + 1]? = some sc →
    (mergePairs acc ws)[2 * i]? = some (mergePair (x, sa) (y, sc)).1 ∧ (mergePairs acc ws)[2 * i + 1]? = some (mergePair (x, sa) (y, sc)).2 := by
  intro i
  induction i with
  | zero =>
    intro acc ws x sa y sc hx hsa hy hsc
    match acc, ws with
    | m :: t :: acc, n :: u :: ws =>
      simp only [Nat.mul_zero, List.getElem?_cons_zero, Nat.zero_add, List.getElem?_cons_succ, Option.some.injEq] at hx hsa hy hsc
      subst hx hsa hy hsc
      exact ⟨rfl, rfl⟩
    | [], _ | [_], _ | _, [] | _, [_] => simp_all
  | succ i ih =>
    intro acc ws x sa y sc hx hsa hy hsc
    match acc, ws with
    | m :: t :: acc, n :: u :: ws => exact ih (acc := acc) (ws := ws) hx hsa hy hsc
    | [], _ | [_], _ | _, [] | _, [_] => simp_all

theorem firstWords_five_getElem? {ws : List PWord} {i : Nat} {y s : PWord} (hy : ws[2 * i]? = some y) (hs : ws[2 * i + 1]? = some s) :
    (firstWords 5 ws)[2 * i]? = some ⟨y.w, y.p || s.p⟩ ∧ (firstWords 5 ws)[2 * i + 1]? = some ⟨s.w, y.p || s.p⟩ := by
  have hpair : ∀ j, j / 2 = i → ∀ d, (ws.getD (j / 2 * 2) d).p = y.p ∧ (ws.getD (j / 2 * 2 + 1) d).p = s.p := fun j hj d => by
    rw [hj, Nat.mul_comm, List.getD_eq_getElem?_getD, List.getD_eq_getElem?_getD, hy, hs]
    exact ⟨rfl, rfl⟩
  obtain ⟨h0, h1⟩ := hpair (2 * i) (by omega) y
  obtain ⟨h2, h3⟩ := hpair (2 * i + 1) (by omega) s
  rw [firstWords, if_pos rfl, List.getElem?_map, List.getElem?_map, List.getElem?_zipIdx, List.getElem?_zipIdx, hy, hs]
  simp only [Option.map_some, Nat.zero_add, h0, h1, h2, h3]
  cases y.p <;> cases s.p <;> exact ⟨rfl, rfl⟩

/-! ## The words that a contribution folds as -/

theorem widen_bitsOf_low (w : Word32) : widen (bitsOf w 0 16) = widen w.toNat := by simp [widen, bitsOf]
theorem widen_bitsOf_high (w : Word32) : widen (bitsOf w 16 16) = widen (w.toNat / 65536) := by simp [widen, bitsOf]

theorem widenWords_getElem? : ∀ {ws : List PWord} {i : Nat} {w : PWord}, ws[i]? = some w →
    (widenWords ws)[2 * i]? = some ⟨widen (bitsOf w.w 0 16), w.p⟩ ∧ (widenWords ws)[2 * i + 1]? = some ⟨widen (bitsOf w.w 16 16), w.p⟩
  | [], i, w, h => nomatch h
  | v :: ws, 0, w, h => by
    obtain rfl : v = w := by simpa using h
    rw [widen_bitsOf_low, widen_bitsOf_high]
    exact ⟨rfl, rfl⟩
  | v :: ws, i + 1, w, h => widenWords_getElem? (ws := ws) (i := i) h

theorem widenWords_length (ws : List PWord) : (widenWords ws).length = 2 * ws.length := by
  induction ws with
  | nil => rfl
  | cons w ws ih =>
    have : widenWords (w :: ws) = [⟨widen w.w.toNat, w.p⟩, ⟨widen (w.w.toNat / 65536), w.p⟩] ++ widenWords ws := rfl
    rw [this, List.length_append, ih]
    simp
    omega

theorem foldInput_of_wide {e : Rec128} {p : Packet} (h : e.getLsbD 21 = false ∨ p.wide = true) : foldInput e p = p.words := by
  have hnot : (e.getLsbD 21 && !p.wide) = false := by rcases h with h | h <;> rw [h] <;> simp
  rw [foldInput, hnot, if_neg Bool.false_ne_true]

theorem foldInput_of_bf16 {e : Rec128} {p : Packet} (he : e.getLsbD 21 = true) (hp : p.wide = false) : foldInput e p = widenWords p.words := by
  simp [foldInput, he, hp]

end Sys2Proof.Machine
end
section
/-! SUPPORT. How a packet is matched, and how a contribution joins its round (08 R187 to R196). -/

namespace Sys2Proof.Machine

/-! ## Arrival -/

section
variable {s : State} {r port : Nat} {p : Packet} {t : Router} (hev : s.ev = .packetArrival r port p) (ht : s.router? r = some t) (hw : t.waiting = [])
include hev ht hw

/-- A packet that can be matched goes as it is matched: where nothing waits at the router, nothing that waits goes on with it. -/
theorem execPacketArrival_of_some {u : State} (h : s.matchPacket r port { p with vc := t.arrivalVc port p } = some u) : exec .packetArrival s = .next u := by
  change execPacketArrival s = _
  simp [execPacketArrival, hev, State.arrive, ht, hw, h, State.settlePorts]

/-- A packet that must wait waits at its port. -/
theorem execPacketArrival_of_none (h : s.matchPacket r port { p with vc := t.arrivalVc port p } = none) :
    exec .packetArrival s = .next (s.updRouter r fun u => { u with waiting := [(port, { p with vc := t.arrivalVc port p })] }) := by
  change execPacketArrival s = _
  simp [execPacketArrival, hev, State.arrive, ht, hw, h]
  exact State.updRouter_congr ht (by simp [hw])

end

/-! ## Matching -/

section
variable {s : State} {r port : Nat} {p : Packet} {t : Router} {e : Rec128} (ht : s.router? r = some t)
include ht

theorem State.matchPacket_of_none (hm : t.matching port p = none) : s.matchPacket r port p = some (s.drop r port 0 p) := by
  simp [State.matchPacket, ht, hm]

variable (hm : t.matching port p = some e)
include hm

theorem State.matchPacket_of_other (hp : t.part ≠ some p.part.toNat) : s.matchPacket r port p = some (s.drop r port 5 p) := by
  simp [State.matchPacket, ht, hm, hp]

variable (hp : t.part = some p.part.toNat)
include hp

theorem State.matchPacket_of_forward (h4 : Rec128.act e ≠ 4) (hg : Rec128.groups e = false) :
    s.matchPacket r port p = some (s.output r port (s.cycle + 2) e p) := by
  simp [State.matchPacket, ht, hm, hp, h4, hg]

/-- A transpose sends on what stands in its matrix (08 R193). -/
theorem State.matchPacket_of_transpose (h4 : Rec128.act e = 4) : let w := bitsOf e 98 8 + 1; let h := bitsOf e 106 8 + 1; let seq := p.seq.toNat
    (w * h ≤ seq → s.matchPacket r port p = some (s.drop r port 4 p)) ∧
    (seq < w * h → s.matchPacket r port p = some (s.output r port (s.cycle + 2) e { p with seq := BitVec.ofNat 16 (seq % w * h + seq / w) })) := by
  intro w h seq
  refine ⟨fun hout => ?_, fun hin => ?_⟩
  · simp only [w, h, seq] at hout
    simp [State.matchPacket, ht, hm, hp, h4, hout]
  · simp only [w, h, seq] at hin
    simp [State.matchPacket, ht, hm, hp, h4, Nat.not_le.2 hin, w, h, seq]

/-- A contribution is dropped for its reason; one that needs a slot waits where its group is at QUOTA; another joins (08 R189, R190). -/
theorem State.matchPacket_of_groups (hg : Rec128.groups e = true) : let q := t.round? (bitsOf e 4 12) p.seq.toNat
    (∀ why, badContribution e port p q = some why → s.matchPacket r port p = some (s.drop r port why p)) ∧
    (badContribution e port p q = none → s.matchPacket r port p =
      if needsSlot e p q = true ∧ Rec128.quota e ≤ t.groupSlots (bitsOf e 4 12) then none else some (s.join r port e p)) := by
  have h4 : Rec128.act e ≠ 4 := fun h => by simp [Rec128.groups, h] at hg
  intro q
  refine ⟨fun why h => ?_, fun h => ?_⟩
  · simp only [q] at h
    simp [State.matchPacket, ht, hm, hp, hg, h4, h]
  · simp only [q] at h
    simp [State.matchPacket, ht, hm, hp, hg, h4, h, q]

end

/-! ## Contributions -/

/-- A round that no contribution has joined yet. -/
def Round.start (e : Rec128) (p : Packet) : Round := ⟨bitsOf e 4 12, p.seq.toNat, p.words.length - 1, p.wide, [], Rec128.rlo e, [], [], []⟩

/-- The round of a contribution. -/
def Router.roundOf (t : Router) (e : Rec128) (p : Packet) : Round := (t.round? (bitsOf e 4 12) p.seq.toNat).getD (Round.start e p)

theorem Router.roundOf_seq (t : Router) (e : Rec128) (p : Packet) : (t.roundOf e p).seq = p.seq.toNat := by
  unfold Router.roundOf
  cases h : t.round? (bitsOf e 4 12) p.seq.toNat with
  | none => rfl
  | some q =>
    have := List.find?_some h
    simp only [Bool.and_eq_true, decide_eq_true_eq] at this
    exact this.2

/-- The reasons for which a contribution is dropped, in their order (08 R196). -/
theorem badContribution_cases (e : Rec128) (port : Nat) (p : Packet) (q : Option Round) : let round := q.getD (Round.start e p)
    let rank := p.rank.toNat
    let badRank := rank < Rec128.rlo e ∨ (Rec128.act e ≠ 2 ∧ Rec128.rlo e + Rec128.xcnt e ≤ rank)
    let again := Rec128.act e ≠ 2 ∧ rank ∈ round.ranks
    let badLength := p.words.length - 1 ≠ round.ecm1 ∨ p.wide ≠ round.wide ∨ ((e.getLsbD 21 = true ∧ p.wide = false) ∧ 32 < p.words.length) ∨
      (Rec128.act e = 5 ∧ p.words.length % 2 = 1) ∨ (port ≠ 4 ∧ p.vc ≠ 2)
    (badRank → badContribution e port p q = some 1) ∧ (¬badRank → again → badContribution e port p q = some 2) ∧
    (¬badRank → ¬again → badLength → badContribution e port p q = some 3) ∧ (¬badRank → ¬again → ¬badLength → badContribution e port p q = none) := by
  intro round rank badRank again badLength
  unfold badContribution
  extract_lets lo inRange taken differs long
  have hrange : inRange = true ↔ ¬badRank := by
    simp only [inRange, badRank, lo, Bool.and_eq_true, Bool.or_eq_true, decide_eq_true_eq, beq_iff_eq]
    omega
  have htaken : taken = true ↔ again := by
    cases q <;> simp [taken, again, round, Round.start]
  have hlength : (differs || long || (Rec128.act e == 5 && Packet.count p % 2 == 1) || (port != 4 && p.vc != 2)) = true ↔ badLength := by
    cases q with
    | none =>
      simp [differs, long, badLength, round, Round.start, or_assoc]
      exact Iff.rfl
    | some v =>
      simp [differs, long, badLength, round, or_assoc, eq_comm (a := v.ecm1), eq_comm (a := v.wide)]
      exact Iff.rfl
  clear_value inRange taken
  refine ⟨fun h => ?_, fun h h' => ?_, fun h h' h'' => ?_, fun h h' h'' => ?_⟩
  · rw [if_pos (by simpa using mt hrange.1 (not_not.2 h))]
  · rw [if_neg (by simpa using hrange.2 h), if_pos (htaken.2 h')]
  · rw [if_neg (by simpa using hrange.2 h), if_neg (mt htaken.1 h'), if_pos (hlength.2 h'')]
  · rw [if_neg (by simpa using hrange.2 h), if_neg (mt htaken.1 h'), if_neg (mt hlength.1 h'')]

/-- A contribution needs a slot where it does not fold at once. -/
theorem needsSlot_iff (e : Rec128) (p : Packet) (q : Option Round) : needsSlot e p q = true ↔
    Rec128.act e = 2 ∨ (q.getD (Round.start e p)).acc = [] ∨ (q.getD (Round.start e p)).next ≠ p.rank.toNat := by
  cases q <;> simp [needsSlot, Round.start]

theorem Router.groupSlots_eq (t : Router) (flow : Nat) :
    t.groupSlots flow = ((t.rounds.filter fun q => q.flow = flow).map fun q => (if q.acc = [] then 0 else 1) + q.held.length).sum := by
  unfold Router.groupSlots
  refine congrArg List.sum (List.map_congr_left fun q _ => ?_)
  cases h : q.acc <;> simp [Round.slots, h, bitN]

/-! ## Joining a round -/

/-- A router that has taken one contribution more; `b` says until when its outputs are taken. -/
def State.counted (s : State) (r : Nat) (b : Tab Nat) : State := s.updRouter r fun t => { t with arrivals := t.arrivals + 1, busy := b }

theorem State.counted_busy (s : State) (r : Nat) (b b' : Tab Nat) : ((s.counted r b).updRouter r fun t => { t with busy := b' }) = s.counted r b' :=
  State.updRouter_updRouter s r _ _

/-- The contribution that a packet brings. -/
def Router.contribution (t : Router) (p : Packet) : Contribution := ⟨p.rank.toNat, p.src.toNat, t.arrivals, p⟩

/-- A round that a contribution has joined. -/
def Round.enrol (q : Round) (c : Contribution) : Round := { q with ranks := q.ranks ++ [c.rank], held := insertHeld c q.held }

theorem State.counted_eq {s : State} {r : Nat} {t : Router} (ht : s.router? r = some t) :
    (s.updRouter r fun t => { t with arrivals := t.arrivals + 1 }) = s.counted r t.busy := State.updRouter_congr ht rfl

/-- What the folds at a join come to; `complete`: the round has all of its contributions. -/
def State.joinFolds (s : State) (r inp : Nat) (e : Rec128) (q : Round) (complete : Bool) : State × Round × Nat :=
  if Rec128.act e = 2 then if complete then s.foldAll r e { q with held := [] } q.held else (s, q, s.cycle)
  else s.foldReady r inp e q.held.length q

/-- The round goes on, or ends with its output. -/
def State.settleRound (r inp : Nat) (e : Rec128) (p : Packet) (complete : Bool) : State × Round × Nat → State
  | (s, q, at') =>
    if complete then
      let s := s.updRouter r fun t => t.endRound q
      if Rec128.act e = 3 then s else s.output r inp at' e (outPacket e r q p (bitsOf e 64 16) p.seq.toNat)
    else s.updRouter r fun t => t.setRound q

theorem State.join_eq {s : State} {r : Nat} {t : Router} (ht : s.router? r = some t) (inp : Nat) (e : Rec128) (p : Packet) :
    let q := (t.roundOf e p).enrol (t.contribution p)
    let complete := decide (Rec128.xcnt e ≤ q.ranks.length)
    s.join r inp e p = State.settleRound r inp e p complete ((s.counted r t.busy).joinFolds r inp e q complete) := by
  intro q complete
  rw [← State.counted_eq ht]
  unfold State.join
  rw [ht]
  rfl

/-! ## Hold -/

/-- The folds of a hold take the unit of their group. -/
theorem State.foldAll_eq (s : State) (r : Nat) (e : Rec128) : ∀ (l : List Contribution) (b : Tab Nat) (q : Round), q.held = [] →
    ∃ b' at', (s.counted r b).foldAll r e q l = (s.counted r b', q.folds e l, at')
  | [], b, q, _ => ⟨b, _, rfl⟩
  | c :: l, b, q, hq => by
    obtain ⟨b1, at1, hone⟩ := (s.counted r b).foldOne_eq r e q c
    rw [State.counted_busy] at hone
    have hrelease : q.release c = q := by
      obtain ⟨flow, seq, ecm1, wide, ranks, next, acc, held, rows⟩ := q
      obtain rfl : held = [] := hq
      rfl
    obtain ⟨b2, at2, hrest⟩ := State.foldAll_eq s r e l b1 (q.fold e c) hq
    refine ⟨b2, max at1 at2, ?_⟩
    have hfolds : q.folds e (c :: l) = (q.fold e c).folds e l := congrArg (fun u => Round.folds e (u.fold e c) l) hrelease
    simp only [State.foldAll, hone, hrest, hfolds]

/-- The folds of a combine or a normalise take the unit of their group, and send nothing. -/
theorem State.folds_of_silent (s : State) (r inp : Nat) {e : Rec128} (h3 : Rec128.act e ≠ 3) : ∀ (l : List Contribution) (b : Tab Nat) (q : Round),
    ∃ b', ((s.counted r b).folds r inp e q l).1 = s.counted r b'
  | [], b, _ => ⟨b, rfl⟩
  | c :: l, b, q => by
    obtain ⟨b1, at1, hone⟩ := (s.counted r b).foldOne_eq r e (q.release c) c
    rw [State.counted_busy] at hone
    have hstep : (s.counted r b).foldStep r inp e (q.release c) c = s.counted r b1 := by simp only [State.foldStep, hone, if_neg h3]
    obtain ⟨b2, hrest⟩ := State.folds_of_silent s r inp h3 l b1 ((q.release c).fold e c)
    exact ⟨b2, by rw [← hrest, ← hstep]; rfl⟩

/-! ## Scan -/

/-- One fold of a scan takes the unit of its group, and the partial goes out. -/
theorem State.foldStep_of_scan (s : State) (r inp : Nat) {e : Rec128} (h3 : Rec128.act e = 3) (q : Round) (c : Contribution) :
    ∃ b at', s.foldStep r inp e q c = ((s.updRouter r fun t => { t with busy := b }).fanRows c.pkt.rows (Rec128.rlo e + Rec128.xcnt e - c.rank)).output r inp at' e
      (outPacket e r (q.fold e c) c.pkt c.rank ((q.seq * Rec128.xcnt e + c.rank - Rec128.rlo e) % 65536)) := by
  obtain ⟨b, at', hone⟩ := s.foldOne_eq r e q c
  exact ⟨b, at', by simp only [State.foldStep, hone, if_pos h3]; rfl⟩

end Sys2Proof.Machine
end
section
/-! SUPPORT. Drops, the rows of a QRCOPY, and the whole of packets and row sends (08 R181, R187 to R200). -/

namespace Sys2Proof.Machine

/-! ## Drops -/

/-- A drop is counted and logged, newest first (08 R204). -/
theorem State.router?_drop {s : State} {r : Nat} {t : Router} (ht : s.router? r = some t) (inp why : Nat) (p : Packet) :
    ∃ t', (s.drop r inp why p).router? r = some t' ∧ t'.drops = satInc16 t.drops 1 ∧ t'.flog = (flogEntry p inp why :: t.flog).take 8 ∧ t'.fq = t.fq ∧
      t'.entries = t.entries := by
  obtain ⟨missed, hdrop⟩ : ∃ missed : Router → Bool, (s.drop r inp why p).routers = (s.updRouter r fun t => { t with
      flog := (flogEntry p inp why :: t.flog).take 8, flogOvf := t.flogOvf || decide (8 ≤ t.flog.length), drops := satInc16 t.drops 1
      missed := missed t }).routers := by
    simp only [State.drop, ht, State.loseRows_routers]
    split
    · exact ⟨_, rfl⟩
    · exact ⟨_, State.notice_routers ..⟩
  exact ⟨_, ((State.router?_congr hdrop r).trans (State.router?_updRouter_same ..)).trans (congrArg _ ht), rfl, rfl, rfl, rfl⟩

/-! ## The rows of a QRCOPY -/

theorem Core.qcmd_updQ {k : Core} {y : QCmd} (hy : k.qcmd y.id = some y) {f : QCmd → QCmd} (hf : ∀ q, (f q).id = q.id) :
    (k.updQ y.id f).qcmd y.id = some (f y) := by
  have hid : ((fun q : QCmd => decide (q.id = y.id)) ∘ fun q => if q.id = y.id then f q else q) = fun q => decide (q.id = y.id) := by
    funext q
    by_cases h : q.id = y.id <;> simp [h, hf]
  rw [Core.qcmd] at hy
  rw [Core.qcmd, Core.updQ, List.find?_map, hid, hy, Option.map_some, if_pos rfl]

/-- The row that is sent is of its command, in one copy (08 R199). -/
theorem State.row?_sendRow (s : State) (c ctx cmd : Nat) (sync : Sync) (flow seq rank : Nat) (ws : List PWord) :
    ((s.sendRow c ctx cmd sync flow seq rank ws).row? s.nextRow).map (fun x => (x.core, x.ctx, x.cmd, x.copies)) = some (c, ctx, cmd, 1) := by
  simp only [State.sendRow, State.row?, State.post_rows, Tab.get_set_some, Option.map_some]

/-- A QRCOPY's next row goes once its source has been read; with the last, the command is complete (08 R200, 18 R473). -/
theorem execFlowRowSend_of_read {s s1 : State} {r : Nat} {y : QCmd} {a l h : Word64} {k1 : Core} {ws : List PWord} (hev : s.ev = .flowRowSend r y.id)
    (hy : (s.core? r).bind (fun k => k.qcmd y.id) = some y) (hkind : y.kind = .qrcopy a l h) (hst : y.started = true) (hf : y.faulted = false)
    (hread : s.readWords r false (a.toNat + y.prog) (min 256 (l.toNat - y.prog) / 4) = (s1, .got ws)) (hk1 : s1.core? r = some k1)
    (hy1 : k1.qcmd y.id = some y) :
    ∃ t k', exec .flowRowSend s = .next t ∧ t.core? r = some k' ∧
      (Tab.get none t.rows s1.nextRow).map (fun x => (x.core, x.ctx, x.cmd, x.copies)) = some (r, y.ctx, y.id, 1) ∧
      (l.toNat ≤ y.prog + min 256 (l.toNat - y.prog) → ∀ z ∈ k'.qcmds, z.id ≠ y.id) ∧
      (y.prog + min 256 (l.toNat - y.prog) < l.toNat → k'.qcmd y.id = some { y with prog := y.prog + min 256 (l.toNat - y.prog) } ∧
        (s1.cycle + 1, Event.flowRowSend r y.id) ∈ t.agenda) := by
  let len := min 256 (l.toNat - y.prog)
  let s2 : State := s1.sendRow r y.ctx y.id y.sync (bitsOf h 32 12) ((bitsOf h 0 16 + y.prog / 256) % 65536) (bitsOf h 16 16)
    (ws.map fun w => { w with p := w.p || y.psn })
  let s3 : State := s2.updCore r fun k => k.updQ y.id fun q => { q with prog := q.prog + len }
  have hexec : exec .flowRowSend s =
      .next (if l.toNat ≤ y.prog + len then (s3.updCore r fun k => k.dropQ y.id).afterCommand r else s3.post 1 (.flowRowSend r y.id)) := by
    change execFlowRowSend s = _
    simp only [execFlowRowSend, hev, hy, hkind, hst, hf, Bool.not_true, Bool.or_self, Bool.false_eq_true, if_false, hread]
    rfl
  have hk3 : s3.core? r = some (k1.updQ y.id fun q => { q with prog := q.prog + len }) := by
    rw [State.core?_updCore_same, show s2.core? r = some k1 from hk1, Option.map_some]
  have hrow : ∀ t : State, t.rows = s3.rows → (Tab.get none t.rows s1.nextRow).map (fun x => (x.core, x.ctx, x.cmd, x.copies)) = some (r, y.ctx, y.id, 1) :=
    fun t ht => by
      rw [ht, State.updCore_rows]
      exact State.row?_sendRow ..
  by_cases hlast : l.toNat ≤ y.prog + len
  · have hend := State.KeepsTasks.afterCommand (s3.updCore r fun k => k.dropQ y.id) r
    obtain ⟨k', hk', hrest, -⟩ := hend.cores r _ (by rw [State.core?_updCore_same, hk3, Option.map_some])
    refine ⟨_, k', by rw [hexec, if_pos hlast], hk', hrow _ (by rw [hend.rows, State.updCore_rows]), fun _ z hz => ?_,
      fun h => absurd hlast (Nat.not_le.2 h)⟩
    rw [hrest, Core.dropQ_qcmds] at hz
    simpa using (List.mem_filter.1 hz).2
  · refine ⟨s3.post 1 (.flowRowSend r y.id), _, by rw [hexec, if_neg hlast], hk3, hrow _ rfl, fun h => absurd h hlast, fun _ => ⟨Core.qcmd_updQ hy1 fun _ => rfl, ?_⟩⟩
    have hcycle : s3.cycle = s1.cycle := State.updCore_cycle ..
    rw [← hcycle]
    exact State.mem_post s3 1 _

/-! ## Contributions to a group -/

section
variable {s : State} {r : Nat} {t : Router} (ht : s.router? r = some t) (inp : Nat) {e : Rec128} {p : Packet}
include ht

/-- A contribution to a hold that is not complete is held (08 R189). -/
theorem State.join_of_stored (h2 : Rec128.act e = 2) (hc : ¬Rec128.xcnt e ≤ ((t.roundOf e p).ranks ++ [p.rank.toNat]).length) :
    s.join r inp e p = (s.counted r t.busy).updRouter r fun u => u.setRound ((t.roundOf e p).enrol (t.contribution p)) := by
  rw [State.join_eq ht]
  have hc' : decide (Rec128.xcnt e ≤ ((t.roundOf e p).enrol (t.contribution p)).ranks.length) = false := decide_eq_false hc
  rw [hc', State.joinFolds, if_pos h2]
  rfl

/-- The last contribution of a hold folds all of them, in the order held (08 R189). -/
theorem State.join_of_hold (h2 : Rec128.act e = 2) (hc : Rec128.xcnt e ≤ ((t.roundOf e p).ranks ++ [p.rank.toNat]).length) :
    let held := insertHeld (t.contribution p) (t.roundOf e p).held
    ∃ b at', s.join r inp e p = ((s.counted r b).updRouter r fun u => u.endRound (t.roundOf e p)).output r inp at' e
      (outPacket e r ((t.roundOf e p).folds e held) p (bitsOf e 64 16) p.seq.toNat) := by
  intro held
  rw [State.join_eq ht]
  have hc' : decide (Rec128.xcnt e ≤ ((t.roundOf e p).enrol (t.contribution p)).ranks.length) = true := decide_eq_true hc
  obtain ⟨b, at', hall⟩ := s.foldAll_eq r e held t.busy { (t.roundOf e p).enrol (t.contribution p) with held := [] } rfl
  refine ⟨b, at', ?_⟩
  rw [hc', State.joinFolds, if_pos h2, if_pos rfl]
  change State.settleRound r inp e p true ((s.counted r t.busy).foldAll r e _ held) = _
  rw [hall, State.settleRound, if_pos rfl]
  dsimp only
  rw [if_neg (by omega), Round.folds_eq, Round.folds_eq]
  rfl

variable {l : List Contribution} (hready : ((t.roundOf e p).enrol (t.contribution p)).Ready l)
include hready

/-- A contribution to another group folds those whose turn has come (08 R189). -/
theorem State.join_of_ready (h2 : Rec128.act e ≠ 2) : let q := (t.roundOf e p).enrol (t.contribution p)
    ∃ at', s.join r inp e p = State.settleRound r inp e p (decide (Rec128.xcnt e ≤ q.ranks.length))
      (((s.counted r t.busy).folds r inp e q l).1, q.folds e l, at') := by
  intro q
  obtain ⟨at', hfolds⟩ := State.foldReady_eq r inp e (s := s.counted r t.busy) hready hready.length_le
  exact ⟨at', by rw [State.join_eq ht, State.joinFolds, if_neg h2, hfolds]⟩

/-- Combine and normalise send the partial of a complete round alone (08 R189). -/
theorem State.join_of_silent (h2 : Rec128.act e ≠ 2) (h3 : Rec128.act e ≠ 3) : let q := (t.roundOf e p).enrol (t.contribution p)
    ∃ b at', (¬Rec128.xcnt e ≤ q.ranks.length → s.join r inp e p = (s.counted r b).updRouter r fun u => u.setRound (q.folds e l)) ∧
      (Rec128.xcnt e ≤ q.ranks.length → s.join r inp e p = ((s.counted r b).updRouter r fun u => u.endRound (q.folds e l)).output r inp at' e
        (outPacket e r (q.folds e l) p (bitsOf e 64 16) p.seq.toNat)) := by
  intro q
  obtain ⟨at', hsettled⟩ := State.join_of_ready ht inp hready h2
  obtain ⟨b, hb⟩ := s.folds_of_silent r inp h3 l t.busy q
  rw [hb] at hsettled
  refine ⟨b, at', fun hc => ?_, fun hc => ?_⟩
  · rw [hsettled, decide_eq_false hc]
    rfl
  · rw [hsettled, decide_eq_true hc, State.settleRound, if_pos rfl]
    exact if_neg h3

/-- Scan has sent its partials as it folded; a complete round ends (08 R192). -/
theorem State.join_of_scan (h3 : Rec128.act e = 3) : let q := (t.roundOf e p).enrol (t.contribution p)
    let u := ((s.counted r t.busy).folds r inp e q l).1
    (Rec128.xcnt e ≤ q.ranks.length → s.join r inp e p = u.updRouter r fun u => u.endRound (q.folds e l)) ∧
    (¬Rec128.xcnt e ≤ q.ranks.length → s.join r inp e p = u.updRouter r fun u => u.setRound (q.folds e l)) := by
  intro q u
  obtain ⟨at', hsettled⟩ := State.join_of_ready ht inp hready (by omega)
  refine ⟨fun hc => ?_, fun hc => ?_⟩
  · rw [hsettled, decide_eq_true hc, State.settleRound, if_pos rfl]
    exact if_pos h3
  · rw [hsettled, decide_eq_false hc]
    rfl

end

/-! ## The states of a scan -/

/-- The states before, between and after the folds of contributions. -/
def State.foldStates (s : State) (r inp : Nat) (e : Rec128) (q : Round) (l : List Contribution) : List State :=
  (List.range (l.length + 1)).map fun i => (s.folds r inp e q (l.take i)).1

section
variable (s : State) (r inp : Nat) (e : Rec128) (q : Round) (l : List Contribution)

theorem State.foldStates_length : (s.foldStates r inp e q l).length = l.length + 1 := by simp [State.foldStates]

theorem State.foldStates_head? : (s.foldStates r inp e q l).head? = some s := by
  rw [State.foldStates, List.range_succ_eq_map, List.map_cons, List.head?_cons]
  rfl

theorem State.foldStates_getLast? : (s.foldStates r inp e q l).getLast? = some (s.folds r inp e q l).1 := by
  rw [State.foldStates, List.range_succ, List.map_append, List.map_singleton, List.getLast?_concat, List.take_length]

/-- Each state is one fold after the one before it. -/
theorem State.foldStates_succ {i : Nat} {x : Contribution} {u v : State} (hx : l[i]? = some x) (hu : (s.foldStates r inp e q l)[i]? = some u)
    (hv : (s.foldStates r inp e q l)[i + 1]? = some v) : v = u.foldStep r inp e ((q.folds e (l.take i)).release x) x := by
  obtain ⟨hi, -⟩ := List.getElem?_eq_some_iff.1 hx
  have hget : ∀ j, j ≤ l.length → (s.foldStates r inp e q l)[j]? = some (s.folds r inp e q (l.take j)).1 := fun j hj => by
    rw [State.foldStates, List.getElem?_map, List.getElem?_range (by omega), Option.map_some]
  rw [hget i hi.le] at hu
  rw [hget (i + 1) hi, List.take_add_one, hx, Option.toList_some, State.folds_concat] at hv
  rw [← Option.some.inj hu, ← Option.some.inj hv]

theorem Round.folds_take_succ {i : Nat} {x : Contribution} (hx : l[i]? = some x) :
    ((q.folds e (l.take i)).release x).fold e x = q.folds e (l.take (i + 1)) := by
  rw [List.take_add_one, hx, Option.toList_some]
  simp [Round.folds]

end

/-! ## The obligation -/

/-- Settles O51: a packet is dropped, sent on or joins its round as it is matched (`matchPacket_of_…`); a round folds as `foldAll_eq` and `foldReady_eq` say. -/
theorem packetsAndRowSends : Obligations.PacketsAndRowSends := by
  unfold Obligations.PacketsAndRowSends
  refine ⟨?matched, ?groups, ?held, ?words, ?inputs⟩
  case matched =>
    intro s r
    refine ⟨fun port p t hev ht hw => ?_, fun port p t q ht _ => State.router?_drop ht port 0 p,
      fun y a l h s1 k1 ws hev hy hkind hst hf hread hk1 hy1 => execFlowRowSend_of_read hev hy hkind hst hf hread hk1 hy1⟩
    exact ⟨fun hm => execPacketArrival_of_some hev ht hw (State.matchPacket_of_none ht hm), fun e hm =>
      ⟨fun hp => execPacketArrival_of_some hev ht hw (State.matchPacket_of_other ht hm hp),
        fun hp h4 hg => execPacketArrival_of_some hev ht hw (State.matchPacket_of_forward ht hm hp h4 hg)⟩⟩
  case groups =>
    intro s r port p0 t e hev ht hw p hm hp act rlo xcnt rank seq drops
    have go : ∀ u, s.matchPacket r port p = some u → exec .packetArrival s = .next u := fun u => execPacketArrival_of_some hev ht hw
    refine ⟨fun h4 => ?transpose, fun hact => ?contribution⟩
    case transpose =>
      obtain ⟨hout, hin⟩ := State.matchPacket_of_transpose ht hm hp h4
      exact ⟨fun h => go _ (hout h), fun h => go _ (hin h)⟩
    intro flow round bf16 badRank again badLength slots stays
    have hg : Rec128.groups e = true := by
      simp only [act] at hact
      simpa [Rec128.groups] using hact
    obtain ⟨hdrop, hjoins⟩ := State.matchPacket_of_groups ht hm hp hg
    obtain ⟨hrank, hagain, hlength, hnone⟩ := badContribution_cases e port p (t.round? (bitsOf e 4 12) p.seq.toNat)
    have hstays : stays ↔ needsSlot e p (t.round? (bitsOf e 4 12) p.seq.toNat) = true ∧ Rec128.quota e ≤ t.groupSlots (bitsOf e 4 12) := by
      rw [needsSlot_iff, Router.groupSlots_eq, and_comm]
      rfl
    refine ⟨fun h => go _ (hdrop 1 (hrank h)), fun h h' => go _ (hdrop 2 (hagain h h')), fun h h' h'' => go _ (hdrop 3 (hlength h h' h'')),
      fun h h' h'' hs => execPacketArrival_of_none hev ht hw ((hjoins (hnone h h' h'')).trans (if_pos (hstays.1 hs))), fun h h' h'' hs => ?_⟩
    intro c ranks held fold1 rowsOf gives complete counts ends goesOn orank
    have hjoin : exec .packetArrival s = .next (s.join r port e p) := go _ ((hjoins (hnone h h' h'')).trans (if_neg (mt hstays.2 hs)))
    rw [hjoin]
    refine ⟨fun h2 => ⟨fun hc => congrArg _ (State.join_of_stored ht port h2 hc), fun hc => ?hold⟩, fun l hnodup hseqs hheld hranks hend => ?ranks⟩
    case hold =>
      obtain ⟨b, at', hend⟩ := State.join_of_hold ht port (p := p) h2 hc
      rw [Round.folds_eq] at hend
      exact ⟨b, at', congrArg _ hend⟩
    let q := round.enrol c
    have hready : ((t.roundOf e p).enrol (t.contribution p)).Ready l := ⟨hnodup, hseqs, hheld, hranks, hend⟩
    intro next
    have hnext : ((t.roundOf e p).enrol (t.contribution p)).folds e l = next := by
      rw [Round.folds_eq, hready.next_eq]
      rfl
    refine ⟨fun hact => ?silent, fun h3 => ?scan⟩
    case silent =>
      obtain ⟨b, at', hopen, hdone⟩ := State.join_of_silent ht port hready (show act ≠ 2 by omega) (show act ≠ 3 by omega)
      rw [hnext] at hopen hdone
      exact ⟨b, at', fun hc => congrArg _ (hopen hc), fun hc => congrArg _ (hdone hc)⟩
    case scan =>
      obtain ⟨hdone, hopen⟩ := State.join_of_scan ht port hready h3
      refine ⟨(counts t.busy).foldStates r port e q l, State.foldStates_length .., State.foldStates_head? .., fun i x u v hx hu hv => ?_, fun u hu => ?_⟩
      · obtain ⟨b, at', hstep⟩ := u.foldStep_of_scan r port h3 ((q.folds e (l.take i)).release x) x
        refine ⟨b, at', (State.foldStates_succ (counts t.busy) r port e q l hx hu hv).trans ?_⟩
        rw [hstep, Round.folds_take_succ e q l hx, Round.folds_eq, Round.folds_eq, Round.release, show q.seq = seq from t.roundOf_seq e p]
        rfl
      · rw [State.foldStates_getLast?] at hu
        obtain rfl := Option.some.inj hu
        rw [hnext] at hdone hopen
        exact ⟨fun hc => congrArg _ (hdone hc), fun hc => congrArg _ (hopen hc)⟩
  case held =>
    exact fun c l => ⟨insertHeld_perm c l, fun hl hc => insertHeld_pairwise hl hc⟩
  case words =>
    intro act op acc ws i x y
    refine ⟨fun hact => foldWords_getElem? hact op, fun hact => if_neg hact, fun sa sc hx hsa hy hsc => ?_, fun s hy hs => firstWords_five_getElem? hy hs⟩
    exact mergePairs_getElem? hx hsa hy hsc
  case inputs =>
    intro e p
    refine ⟨foldInput_of_wide, fun he hp => ?_⟩
    rw [foldInput_of_bf16 he hp]
    exact ⟨widenWords_length p.words, fun i w h => widenWords_getElem? h⟩

end Sys2Proof.Machine
end
section
/-! SUPPORT. What the signals of channel commands, and the end of one, leave of the cores (12 R289, 04 R83, 09 R216). -/

namespace Sys2Proof.Machine

/-- Of a core, the semaphore n has taken a value, one that is not all zero; its other semaphores, its channels, its queues and what else `Core.Stays` keeps are as
they were. -/
structure Core.Sets (k : Core) (n : Nat) (v : Sem) (k' : Core) : Prop where
  rest : k' = { k with ctxs := k'.ctxs, sems := k'.sems, stash := k'.stash, tlb := k'.tlb }
  sem : v ≠ ⟨0, false, false⟩ → k'.sem n = v
  others : ∀ m, m ≠ n → k'.sem m = k.sem m

namespace Core.Sets

theorem refl (k : Core) (n : Nat) : k.Sets n (k.sem n) k := ⟨rfl, fun _ => rfl, fun _ _ => rfl⟩

theorem stays {k l m : Core} {n : Nat} {v : Sem} (h : k.Sets n v l) (h' : l.Stays m) : k.Sets n v m where
  rest := by rw [h'.rest, h.rest]
  sem hv := (h'.sem n).trans (h.sem hv)
  others i hi := (h'.sem i).trans (h.others i hi)

section
variable {k k' : Core} {n : Nat} {v : Sem} (h : k.Sets n v k')
include h

theorem ycmds : k'.ycmds = k.ycmds := by rw [h.rest]
theorem chans : k'.chans = k.chans := by rw [h.rest]
theorem gates : k'.gates = k.gates := by rw [h.rest]
theorem chan? (ch : Nat) : k'.chan? ch = k.chan? ch := by rw [Core.chan?, h.chans, Core.chan?]

end

end Core.Sets

theorem State.core?_putSem_sets {s : State} {c : Nat} {k : Core} (hk : s.core? c = some k) (n : Nat) (v : Sem) :
    ∃ k', (s.putSem c n v).core? c = some k' ∧ k.Sets n v k' := by
  obtain ⟨k', hk', hrest, -⟩ := State.core?_putSem hk n v
  have hsems : k'.sems = Tab.set ⟨0, false, false⟩ k.sems n v := by rw [hrest]
  refine ⟨k', hk', by rw [hrest], fun hv => ?_, fun m hm => ?_⟩
  · rw [Core.sem, hsems, Tab.get_set_same _ _ _ hv]
  · rw [Core.sem, hsems, Tab.get_set_ne _ _ _ hm, Core.sem]

theorem State.core?_signal {s : State} {c : Nat} {k : Core} (hk : s.core? c = some k) (n inc by' : Nat) :
    ∃ k', (s.signal c n inc by').core? c = some k' ∧ k.Sets n ((k.sem n).signal inc) k' := by
  obtain ⟨k1, hk1, h1⟩ := State.core?_putSem_sets hk n ((k.sem n).signal inc)
  obtain ⟨k2, hk2, h2⟩ := (State.putSem_stays_signal hk n inc by').cores c k1 hk1
  exact ⟨k2, hk2, h1.stays h2⟩

/-- What the semaphore of a synchronisation word holds once the command has signalled, with the error flag or without. -/
def Core.semAfter (k : Core) (w : Sync) (err : Bool) : Sem :=
  if w.si = 0 then k.sem w.ss.toNat
  else if err then { k.sem w.ss.toNat with err := true } else (k.sem w.ss.toNat).signal w.si.toNat

/-- A word that signals leaves a value that is not all zero. -/
theorem Core.Sets.sem_semAfter {k k' : Core} {w : Sync} {err : Bool} (h : k.Sets w.ss.toNat (k.semAfter w err) k') (hw : w.si ≠ 0) :
    k'.sem w.ss.toNat = if err then { k.sem w.ss.toNat with err := true } else (k.sem w.ss.toNat).signal w.si.toNat := by
  have hvalue : k.semAfter w err = if err then { k.sem w.ss.toNat with err := true } else (k.sem w.ss.toNat).signal w.si.toNat := if_neg hw
  have hinc : w.si.toNat ≠ 0 := fun h => hw (BitVec.eq_of_toNat_eq h)
  rw [h.sem ?_, hvalue]
  rw [hvalue]
  cases err with
  | true => simp
  | false => simpa using Sem.signal_ne_zero _ hinc

theorem State.core?_post1_sets {s : State} {c : Nat} {k : Core} (hk : s.core? c = some k) (n : Nat) (w : Sync) :
    ∃ k', (s.post1 c n w).core? c = some k' ∧ k.Sets w.ss.toNat (k.semAfter w false) k' := by
  unfold State.post1 Core.semAfter
  split
  · exact ⟨k, hk, .refl k _⟩
  · exact State.core?_signal hk _ _ _

theorem State.core?_postErr_sets {s : State} {c : Nat} {k : Core} (hk : s.core? c = some k) (w : Sync) :
    ∃ k', (s.postErr c w).core? c = some k' ∧ k.Sets w.ss.toNat (k.semAfter w true) k' := by
  unfold State.postErr Core.semAfter
  split
  · exact ⟨k, hk, .refl k _⟩
  · simp only [State.signalErr, hk]
    exact State.core?_putSem_sets hk _ _

/-- What follows the end of a command keeps what its signal has set. -/
theorem State.core?_afterCommand_sets {s : State} {c n : Nat} {k k1 : Core} {v : Sem} (hk : s.core? c = some k1) (h : k.Sets n v k1) :
    ∃ k', (s.afterCommand c).core? c = some k' ∧ k.Sets n v k' := by
  obtain ⟨k2, hk2, h2⟩ := (State.Stays.afterCommand s c).cores c k1 hk
  exact ⟨k2, hk2, h.stays h2⟩

/-- A channel command that is through leaves its queue and signals. -/
theorem State.core?_yDone {s : State} {c : Nat} {k : Core} (hk : s.core? c = some k) (y : YCmd) (err : Bool) :
    ∃ k', (s.yDone c y err).core? c = some k' ∧ (k.dropY y.id).Sets y.sync.ss.toNat (k.semAfter y.sync err) k' := by
  have hdrop : (s.updCore c fun k => k.dropY y.id).core? c = some (k.dropY y.id) := by rw [State.core?_updCore_same, hk, Option.map_some]
  cases err with
  | true =>
    obtain ⟨k1, hk1, h1⟩ := State.core?_postErr_sets hdrop y.sync
    exact State.core?_afterCommand_sets hk1 h1
  | false =>
    obtain ⟨k1, hk1, h1⟩ := State.core?_post1_sets hdrop y.ctx y.sync
    exact State.core?_afterCommand_sets hk1 h1

/-! ## A queue of one command -/

theorem Core.dropY_ycmds_of_single {k : Core} {y : YCmd} (h : k.ycmds = [y]) : (k.dropY y.id).ycmds = [] := by simp [Core.dropY, h]

theorem Core.updY_ycmds_of_single {k : Core} {y : YCmd} (h : k.ycmds = [y]) (f : YCmd → YCmd) : (k.updY y.id f).ycmds = [f y] := by simp [Core.updY, h]

theorem Core.ycmd_of_single {k : Core} {y : YCmd} (h : k.ycmds = [y]) : k.ycmd y.id = some y := by simp [Core.ycmd, h]

/-! ## Channels -/

theorem State.chan?_of_core {s : State} {c ch : Nat} {k : Core} (hk : s.core? c = some k) : s.chan? c ch = k.chan? ch := by rw [State.chan?, hk, Option.bind_some]

theorem Core.chan?_updChan_same (k : Core) (ch : Nat) (f : Chan → Chan) : (k.updChan ch f).chan? ch = (k.chan? ch).map f := by
  unfold Core.updChan
  split
  · next h => rw [h, Option.map_none]
  · next h => rw [h, Option.map_some]; exact Tab.get_set_some k.chans ch _

theorem Core.chan?_updChan_ne (k : Core) (f : Chan → Chan) {ch ch' : Nat} (h : ch' ≠ ch) : (k.updChan ch f).chan? ch' = k.chan? ch' := by
  unfold Core.updChan
  split
  · rfl
  · next x _ => exact Tab.get_set_ne none (some (f x)) k.chans h

/-- A change of a channel changes its core's channels alone. -/
theorem Core.updChan_eq (k : Core) (ch : Nat) (f : Chan → Chan) : k.updChan ch f = { k with chans := (k.updChan ch f).chans } := by
  unfold Core.updChan
  split <;> rfl

@[simp] theorem Core.updChan_ycmds (k : Core) (ch : Nat) (f : Chan → Chan) : (k.updChan ch f).ycmds = k.ycmds := by rw [Core.updChan_eq]
@[simp] theorem Core.chan?_updY (k : Core) (id : Nat) (f : YCmd → YCmd) (ch : Nat) : (k.updY id f).chan? ch = k.chan? ch := rfl
@[simp] theorem Core.chan?_dropY (k : Core) (id ch : Nat) : (k.dropY id).chan? ch = k.chan? ch := rfl

theorem State.core?_updChan {s : State} {c : Nat} {k : Core} (hk : s.core? c = some k) (ch : Nat) (f : Chan → Chan) :
    (s.updChan c ch f).core? c = some (k.updChan ch f) := by rw [State.updChan, State.core?_updCore_same, hk, Option.map_some]

end Sys2Proof.Machine
end
section
/-! SUPPORT. What completes beside the rings: SEMADD, gates, credits, CHRECV, DRAIN, STEP (09 R216, R217, R233 to R235, 11 R274, R280). -/

namespace Sys2Proof.Machine

/-- A command's signal, as its synchronisation word says, with the error flag or without. -/
def Core.Signals (k k' : Core) (w : Sync) (err : Bool) : Prop :=
  w.si ≠ 0 → k'.sem w.ss.toNat = if err then { k.sem w.ss.toNat with err := true } else (k.sem w.ss.toNat).signal w.si.toNat

/-- The one command of the queue is through. -/
theorem State.core?_yDone_of_single {s : State} {c : Nat} {k : Core} {y : YCmd} (hk : s.core? c = some k) (hy : k.ycmds = [y]) (err : Bool) :
    ∃ k', (s.yDone c y err).core? c = some k' ∧ k'.ycmds = [] ∧ (∀ ch, k'.chan? ch = k.chan? ch) ∧ k.Signals k' y.sync err := by
  obtain ⟨k', hk', h'⟩ := State.core?_yDone hk y err
  exact ⟨k', hk', h'.ycmds.trans (Core.dropY_ycmds_of_single hy), h'.chan?, h'.sem_semAfter⟩

/-! ## SEMADD (18 R495) -/

/-- What SEMADD adds to its semaphore: its immediate, and what its synchronisation word signals there. -/
def YCmd.added (y : YCmd) (sem imm : Nat) : Nat := imm + if y.sync.ss.toNat = sem then y.sync.si.toNat else 0

/-- The semaphores after a SEMADD. -/
structure Core.Added (k : Core) (y : YCmd) (sem imm : Nat) (k' : Core) : Prop where
  ycmds : k'.ycmds = []
  value : y.added sem imm ≠ 0 → k'.sem sem = (k.sem sem).signal (y.added sem imm)
  signals : y.sync.ss.toNat ≠ sem → k.Signals k' y.sync false

section
variable {s : State} {c sem imm : Nat} {k : Core} {y : YCmd} (hk : s.core? c = some k) (hev : s.ev = .semaddApply c y.id) (hy : k.ycmds = [y])
  (hkind : y.kind = .semadd sem imm)
include hk hev hy hkind

/-- Where its synchronisation word signals the same semaphore, the two are one signal. -/
theorem execSemaddApply_of_joint (hsi : y.sync.si.toNat ≠ 0) (hss : y.sync.ss.toNat = sem) :
    ∃ t k', exec .semaddApply s = .next t ∧ t.core? c = some k' ∧ k.Added y sem imm k' := by
  have hdrop : (s.updCore c fun k => k.dropY y.id).core? c = some (k.dropY y.id) := by rw [State.core?_updCore_same, hk, Option.map_some]
  have hadded : y.added sem imm = imm + y.sync.si.toNat := by simp [YCmd.added, hss]
  obtain ⟨k1, hk1, h1⟩ := State.core?_signal hdrop sem (imm + y.sync.si.toNat) y.ctx
  obtain ⟨k2, hk2, h2⟩ := State.core?_afterCommand_sets hk1 h1
  refine ⟨_, k2, ?_, hk2, h2.ycmds.trans (Core.dropY_ycmds_of_single hy), fun h => ?_, fun h => absurd hss h⟩
  · change execSemaddApply s = _
    simp [execSemaddApply, hev, hk, Core.ycmd_of_single hy, hkind, hsi, hss]
  · rw [hadded] at h ⊢
    exact h2.sem (Sem.signal_ne_zero _ h)

/-- Where it does not, the immediate is added first, and then the word signals. -/
theorem execSemaddApply_of_apart (hapart : ¬(y.sync.si.toNat ≠ 0 ∧ y.sync.ss.toNat = sem)) :
    ∃ t k', exec .semaddApply s = .next t ∧ t.core? c = some k' ∧ k.Added y sem imm k' := by
  have hadded : y.added sem imm = imm := by
    rw [YCmd.added]
    split_ifs with hss <;> grind
  let s1 : State := s.updCore c fun k => k.dropY y.id
  let s2 : State := if imm = 0 then s1 else s1.signal c sem imm y.ctx
  have hexec : exec .semaddApply s = .next ((s2.post1 c y.ctx y.sync).afterCommand c) := by
    change execSemaddApply s = _
    simp only [execSemaddApply, hev, hk, Option.bind_some, Core.ycmd_of_single hy, hkind, Bool.and_eq_true, decide_eq_true_eq]
    rw [if_neg hapart]
  have hk1 : s1.core? c = some (k.dropY y.id) := by rw [State.core?_updCore_same, hk, Option.map_some]
  obtain ⟨k2, hk2, hcmds2, hsem2, hothers2⟩ : ∃ k2, s2.core? c = some k2 ∧ k2.ycmds = [] ∧ (imm ≠ 0 → k2.sem sem = (k.sem sem).signal imm) ∧
      ∀ m, m ≠ sem → k2.sem m = k.sem m := by
    by_cases himm : imm = 0
    · exact ⟨_, by rw [show s2 = s1 from if_pos himm]; exact hk1, Core.dropY_ycmds_of_single hy, fun h => absurd himm h, fun _ _ => rfl⟩
    · obtain ⟨k2, hk2, h2⟩ := State.core?_signal hk1 sem imm y.ctx
      exact ⟨k2, by rw [show s2 = s1.signal c sem imm y.ctx from if_neg himm]; exact hk2, h2.ycmds.trans (Core.dropY_ycmds_of_single hy),
        fun h => h2.sem (Sem.signal_ne_zero _ h), h2.others⟩
  obtain ⟨k3, hk3, h3⟩ := State.core?_post1_sets hk2 y.ctx y.sync
  obtain ⟨k4, hk4, h4⟩ := State.core?_afterCommand_sets hk3 h3
  refine ⟨_, k4, hexec, hk4, h4.ycmds.trans hcmds2, fun h => ?value, fun hss hsi => by rw [h4.sem_semAfter hsi, hothers2 _ hss]⟩
  case value =>
    rw [hadded] at h ⊢
    by_cases hss : y.sync.ss.toNat = sem
    · have hsi : y.sync.si = 0 := BitVec.eq_of_toNat_eq (by_contra fun hne => hapart ⟨hne, hss⟩)
      have hheld := h4.sem
      rw [Core.semAfter, if_pos hsi, hss, hsem2 h] at hheld
      exact hheld (Sem.signal_ne_zero _ h)
    · rw [h4.others sem (Ne.symm hss), hsem2 h]

/-- A SEMADD that is alone in the queue adds and signals. -/
theorem execSemaddApply_single : ∃ t k', exec .semaddApply s = .next t ∧ t.core? c = some k' ∧ k.Added y sem imm k' := by
  by_cases hjoint : y.sync.si.toNat ≠ 0 ∧ y.sync.ss.toNat = sem
  · obtain ⟨hsi, hss⟩ := hjoint
    exact execSemaddApply_of_joint hk hev hy hkind hsi hss
  · exact execSemaddApply_of_apart hk hev hy hkind hjoint

end

/-! ## DRAIN (11 R274) -/

/-- A DRAIN that is alone in the queue completes once every earlier row of its context has ended. -/
theorem execDrainStart_single {s : State} {c : Nat} {k : Core} {y : YCmd} {x : Ctx} (hk : s.core? c = some k) (hev : s.ev = .drainStart c y.id) (hy : k.ycmds = [y])
    (hkind : y.kind = .drain) (hended : s.rowsEnded c y.ctx y.id = true) (hx : k.ctx? y.ctx = some x) :
    ∃ t k', exec .drainStart s = .next t ∧ t.core? c = some k' ∧ k'.ycmds = [] ∧ k.Signals k' y.sync x.lost := by
  obtain ⟨k', hk', hcmds, -, hsignals⟩ := State.core?_yDone_of_single hk hy x.lost
  refine ⟨_, k', ?_, hk', hcmds, hsignals⟩
  have hstarted : k.barriersStarted y.ctx y.id = true := by simp [Core.barriersStarted, hy]
  change execDrainStart s = _
  simp [execDrainStart, hev, hk, Core.ycmd_of_single hy, hkind, hstarted, hended, hx, hk', hcmds, State.forEach]

/-! ## CHRECV (09 R217) -/

theorem getLsbD_setBits_zero {w : Nat} (v : BitVec w) (i : Nat) : (setBits v i 1 0).getLsbD i = false := by
  by_cases h : i < w
  · simp [setBits, h]
  · exact BitVec.getLsbD_of_ge _ _ (by omega)

/-- A CHRECV that waits for its element completes once it has landed or been lost. -/
theorem execChrecvCompletion_single {s : State} {c ch : Nat} {k : Core} {h : Chan} {y : YCmd} (hk : s.core? c = some k) (hev : s.ev = .chrecvCompletion c ch)
    (hh : k.chan? ch = some h) (hy : k.ycmds = [y]) (hkind : y.kind = .chrecv ch) (hstarted : y.started = true) (hheld : y.held = false)
    (hmap : h.map.getLsbD (h.next % h.depth) = true) :
    ∃ t k' h', exec .chrecvCompletion s = .next t ∧ t.core? c = some k' ∧ k'.ycmds = [] ∧ k'.chan? ch = some h' ∧ h'.next = h.next + 1 ∧
      h'.map.getLsbD (h.next % h.depth) = false ∧ k.Signals k' y.sync (h.lostMap.getLsbD (h.next % h.depth)) := by
  let i := h.next % h.depth
  let f : Chan → Chan := fun h => { h with map := setBits h.map i 1 0, lostMap := setBits h.lostMap i 1 0, next := h.next + 1 }
  have hk1 : (s.updCore c fun k => k.updChan ch f).core? c = some (k.updChan ch f) := by rw [State.core?_updCore_same, hk, Option.map_some]
  obtain ⟨k', hk', hcmds, hchan, hsignals⟩ := State.core?_yDone_of_single hk1 ((Core.updChan_ycmds k ch f).trans hy) (h.lostMap.getLsbD i)
  have hsems : ∀ n, (k.updChan ch f).sem n = k.sem n := fun n => by rw [Core.updChan_eq]; rfl
  refine ⟨_, k', f h, ?_, hk', hcmds, ?_, rfl, getLsbD_setBits_zero h.map i, fun hsi => ?_⟩
  · change execChrecvCompletion s = _
    simp [execChrecvCompletion, hev, hk, hh, hy, hkind, hstarted, hheld, hmap, i, f]
  · rw [hchan, Core.chan?_updChan_same, hh, Option.map_some]
  · rw [hsignals hsi, hsems]

/-! ## STEP (09 R235) -/

/-- Whether a barrier can open depends on the rows and the cores alone. -/
theorem State.barrierReady_congr {s t : State} (hrows : t.rows = s.rows) (hcores : t.cores = s.cores) (ks : List Core) (whole : Bool) :
    t.barrierReady ks whole = s.barrierReady ks whole := by
  simp only [State.barrierReady, State.rowsEnded, State.openRows, State.core?, hrows, hcores]

/-- A barrier of one core, whose one command is a STEP that has arrived, opens once the core's rows have ended. -/
theorem execStepBarrierOpen_single {s : State} {l cl : Nat} {whole : Bool} {k : Core} {y : YCmd} (hk : s.core? k.id = some k)
    (hev : s.ev = .stepBarrierOpen l cl whole) (hlaunch : (s.launch? l).isSome = true) (hcores : s.scopeCores l cl whole = [k]) (hy : k.ycmds = [y])
    (hkind : y.kind = .step whole) (harrived : y.arrived = true) (hready : s.barrierReady [k] whole = true) :
    ∃ t k', exec .stepBarrierOpen s = .next t ∧ t.core? k.id = some k' ∧ k'.ycmds = [] ∧ k.Signals k' y.sync false := by
  obtain ⟨q, hq⟩ := Option.isSome_iff_exists.1 hlaunch
  have hheld : y.held = false := by
    simp only [State.barrierReady, Bool.and_eq_true] at hready
    obtain ⟨hany, -⟩ := hready
    simpa [hy, hkind, YKind.isStep, harrived] using hany
  let u : State := if whole then s else s.postOnce 0 (.stepBarrierOpen l cl true)
  have hu : u.rows = s.rows ∧ u.cores = s.cores := by
    simp only [u]
    split <;> simp
  have hexec : exec .stepBarrierOpen s = .next ((u.acquireBy k.id y.ctx (stepScope whole)).yDone k.id y false) := by
    obtain ⟨hrows, hcores'⟩ := hu
    have hopen : (!u.barrierReady [k] whole) = false := by rw [State.barrierReady_congr hrows hcores', hready, Bool.not_true]
    change execStepBarrierOpen s = _
    simp only [execStepBarrierOpen, hev, hq, hcores]
    rw [if_neg (by rw [hopen]; exact Bool.false_ne_true)]
    simp [State.forEach, hy, hkind, YKind.isStep, harrived, hheld, u]
  have hku : u.core? k.id = some k := by rw [State.core?, hu.2]; exact hk
  obtain ⟨k1, hk1, h1⟩ := (State.Stays.acquireBy u k.id y.ctx (stepScope whole)).cores k.id k hku
  have hy1 : k1.ycmds = [y] := by rw [h1.rest]; exact hy
  obtain ⟨k2, hk2, hcmds, -, hsignals⟩ := State.core?_yDone_of_single hk1 hy1 false
  exact ⟨_, k2, hexec, hk2, hcmds, fun hsi => by rw [hsignals hsi, h1.sem]⟩

/-! ## The obligation -/

/-- A gate whose time has come is free again, and its semaphore is signalled (09 R233, R234). -/
theorem execTimeGateFire_of_due {s : State} {c i : Nat} {k : Core} {g : Gate} (hk : s.core? c = some k) (hev : s.ev = .timeGateFire c i)
    (hwf : Tab.wf none k.gates = true) (hg : Tab.get none k.gates i = some g) (hstopped : g.stopped = false) (hdue : g.t.toNat ≤ s.ticks) :
    ∃ t k', exec .timeGateFire s = .next t ∧ t.core? c = some k' ∧ Tab.get none k'.gates i = none ∧
      (g.inc ≠ 0 → k'.sem g.sem = (k.sem g.sem).signal g.inc) := by
  have hk1 : (s.updCore c fun k => { k with gates := Tab.set none k.gates i none }).core? c = some { k with gates := Tab.set none k.gates i none } := by
    rw [State.core?_updCore_same, hk, Option.map_some]
  obtain ⟨k', hk', h'⟩ := State.core?_signal hk1 g.sem g.inc g.ctx
  refine ⟨_, k', ?_, hk', ?_, fun hinc => h'.sem (Sem.signal_ne_zero _ hinc)⟩
  · change execTimeGateFire s = _
    simp [execTimeGateFire, hev, hk, hg, hstopped, Nat.not_lt.2 hdue]
  · rw [h'.gates]
    exact Tab.get_set_wf none none i hwf

/-- Settles O42: each event by what it does where its command is alone in the queue. -/
theorem channelEvents : Obligations.ChannelEvents := by
  unfold Obligations.ChannelEvents
  intro s c k hk signals
  refine ⟨fun y sem imm hev hy hkind => ?semadd, fun i g hev hwf hg hstopped hdue => execTimeGateFire_of_due hk hev hwf hg hstopped hdue,
    fun ch h hev hh => ?credit, fun ch h y hev hh hy hkind hstarted hheld hmap => execChrecvCompletion_single hk hev hh hy hkind hstarted hheld hmap,
    fun y x hev hy hkind hended hx => execDrainStart_single hk hev hy hkind hended hx, fun l cl whole y hev hl hcores hid hy hkind harrived hready => ?step⟩
  case semadd =>
    intro si
    obtain ⟨t, k', hexec, hk', hadded⟩ := execSemaddApply_single hk hev hy hkind
    exact ⟨t, k', hexec, hk', hadded.ycmds, hadded.value, hadded.signals⟩
  case credit =>
    let t : State := (s.updCore c fun k => k.updChan ch fun h => { h with cred := h.cred + 1 }).postOnce 0 (.channelCommandStart c)
    refine ⟨t, k.updChan ch fun h => { h with cred := h.cred + 1 }, ?_, ?_, ?_⟩
    · change execCreditTokenArrival s = _
      simp only [execCreditTokenArrival, hev, t]
    · rw [State.core?_postOnce, State.core?_updCore_same, hk, Option.map_some]
    · rw [Core.chan?_updChan_same, hh, Option.map_some]
  case step =>
    subst hid
    exact execStepBarrierOpen_single hk hev hl hcores hy hkind harrived hready

end Sys2Proof.Machine
end
section
/-! SUPPORT. What only adds to what is to come: the accesses of memory and what follows the end of a command keep time, every event of the agenda, and of each
partition its rings and the commits that wait (09 R219, R227). -/

namespace Sys2Proof.Machine

/-- A partition keeps its rings, those that are bad and the commits that wait. -/
structure Part.SameRings (q q' : Part) : Prop where
  rings : q'.rings = q.rings
  badRings : q'.badRings = q.badRings
  commits : q'.commits = q.commits

theorem Part.SameRings.refl (q : Part) : q.SameRings q := ⟨rfl, rfl, rfl⟩
theorem Part.SameRings.trans {p q r : Part} (h : p.SameRings q) (h' : q.SameRings r) : p.SameRings r :=
  ⟨h'.rings.trans h.rings, h'.badRings.trans h.badRings, h'.commits.trans h.commits⟩

/-- From `s` to `t` time stands, what stood in the agenda stands there, and every partition keeps its rings. -/
structure State.Grows (s t : State) : Prop where
  cycle : t.cycle = s.cycle
  agenda : ∀ a ∈ s.agenda, a ∈ t.agenda
  parts : ∀ p q, s.part? p = some q → ∃ q', t.part? p = some q' ∧ q.SameRings q'

namespace State.Grows

/-- What changes neither time nor the agenda nor the partitions. -/
theorem of_eq {s t : State} (hcycle : t.cycle = s.cycle) (hagenda : t.agenda = s.agenda) (hparts : t.parts = s.parts) : s.Grows t where
  cycle := hcycle
  agenda a ha := by rwa [hagenda]
  parts p q hq := ⟨q, by rw [State.part?, hparts]; exact hq, .refl q⟩

theorem refl (s : State) : s.Grows s := of_eq rfl rfl rfl

theorem trans {s t u : State} (h : s.Grows t) (h' : t.Grows u) : s.Grows u where
  cycle := h'.cycle.trans h.cycle
  agenda a ha := h'.agenda a (h.agenda a ha)
  parts p q hq := by
    obtain ⟨q1, hq1, h1⟩ := h.parts p q hq
    obtain ⟨q2, hq2, h2⟩ := h'.parts p q1 hq1
    exact ⟨q2, hq2, h1.trans h2⟩

theorem forEach {α : Type} {f : State → α → State} (h : ∀ (s : State) (x : α), s.Grows (f s x)) (l : List α) (s : State) : s.Grows (s.forEach l f) :=
  State.forEach_keeps (fun t => s.Grows t) (fun t x ht => ht.trans (h t x)) l s (refl s)

theorem fst {α : Type} {s t : State} {a : α} {r : State × α} (h : s.Grows r.1) (he : r = (t, a)) : s.Grows t := by
  subst he
  exact h

/-! ## Updates -/

theorem updCore (s : State) (c : Nat) (f : Core → Core) : s.Grows (s.updCore c f) := of_eq (by simp) (by simp) (by simp)
theorem updCtx (s : State) (c n : Nat) (f : Ctx → Ctx) : s.Grows (s.updCtx c n f) := updCore s c _
theorem updPort (s : State) (n : Nat) (f : Port → Port) : s.Grows (s.updPort n f) := of_eq (by simp) (by simp) (by simp)
theorem updSlice (s : State) (n : Nat) (f : Slice → Slice) : s.Grows (s.updSlice n f) := of_eq (by simp) (by simp) (by simp)
theorem updLaunch (s : State) (l : Nat) (f : Launch → Launch) : s.Grows (s.updLaunch l f) := of_eq (by simp) (by simp) (by simp)
theorem emit (s : State) (o : Output) : s.Grows (s.emit o) := of_eq rfl rfl rfl
theorem setModule (s : State) (m : Module) : s.Grows { s with module := m } := of_eq rfl rfl rfl
theorem setOwner (s : State) (owner : Tab Nat) : s.Grows { s with owner := owner } := of_eq rfl rfl rfl
theorem setFree (s : State) (n : Nat) : s.Grows { s with free := n } := of_eq rfl rfl rfl
theorem setSeal (s : State) (sec k : Nat) : s.Grows (s.seal sec k) := of_eq rfl rfl rfl

theorem of_agenda {s t : State} (hcycle : t.cycle = s.cycle) (hagenda : ∀ a ∈ s.agenda, a ∈ t.agenda) (hparts : t.parts = s.parts) : s.Grows t where
  cycle := hcycle
  agenda := hagenda
  parts := (of_eq (s := s) (t := { s with parts := t.parts }) rfl rfl hparts).parts

theorem post (s : State) (d : Nat) (e : Event) : s.Grows (s.post d e) := of_agenda rfl (fun _ => State.mem_post_of_mem d e) rfl
theorem postOpen (s : State) (d : Nat) (e : Event) : s.Grows (s.postOpen d e) := of_agenda rfl (fun _ => mem_addEvent_of_mem _ e) rfl

theorem postOnce (s : State) (d : Nat) (e : Event) : s.Grows (s.postOnce d e) := by
  unfold State.postOnce
  split
  · exact refl s
  · exact post s d e

theorem updPart (s : State) (p : Nat) {f : Part → Part} (hf : ∀ q, Part.SameRings q (f q)) : s.Grows (s.updPart p f) where
  cycle := by simp
  agenda := by simp
  parts p' q hq := by
    by_cases h : p' = p
    · subst h
      exact ⟨f q, (State.part?_updPart_same s p' f).trans (congrArg _ hq), hf q⟩
    · exact ⟨q, (State.part?_updPart_ne s f h).trans hq, .refl q⟩

/-! ## Notices, owners, lines -/

theorem notice (s : State) (p cause : Nat) (info : Word64) : s.Grows (s.notice p cause info) := by
  have hwake : ∀ s : State, s.Grows (s.wakeControl p) := fun s => by
    unfold State.wakeControl
    split
    · exact refl s
    · exact updCtx s _ _ _
  unfold State.notice
  refine trans (updPart s p fun q => ?_) (hwake _)
  split <;> exact ⟨rfl, rfl, rfl⟩

theorem revoke (s : State) (own pa : Nat) : s.Grows (s.revoke own pa) := by
  unfold State.revoke
  dsimp only
  split
  · exact refl s
  · split
    · exact updCore s _ _
    · exact forEach (fun s t => updCore s _ _) _ s

theorem writeSector (s : State) (x : Line) (i : Nat) : s.Grows (s.writeSector x i) := by
  have hbyte : ∀ (pa : Nat) (b : Byte) (s : State), s.Grows (s.setHbmByte pa b) := fun pa b s => of_eq (by simp) (by simp) (by simp)
  have hword : ∀ (s : State) (pa : Nat) (w : PWord), s.Grows (s.setHbmWord pa w) := fun s pa w =>
    (forEach (fun s i => hbyte _ _ s) (List.range 4) s).trans (of_eq rfl rfl rfl)
  unfold State.writeSector
  dsimp only
  refine trans (trans (trans ?_ (setOwner _ _)) (forEach (fun s j => hword s _ _) _ _)) (setSeal _ _ _)
  split
  · exact refl s
  · exact forEach (fun s j => revoke s _ _) _ s

theorem writeLine (s : State) (x : Line) : s.Grows (s.writeLine x) := forEach (fun s i => by split; exacts [writeSector s x i, refl s]) _ s

theorem leaveLine (s : State) (n : Nat) (x : Line) : s.Grows (s.leaveLine n x) := (updSlice s n _).trans (writeLine _ x)

theorem leaveLines (s : State) (n : Nat) (sel : Line → Bool) : s.Grows (s.leaveLines n sel) := by
  unfold State.leaveLines
  split
  · exact refl s
  · exact forEach (fun s x => leaveLine s n x) _ s

theorem placeLine (s : State) (n : Nat) (x : Line) (allowed : List Nat) (retained : Bool) : s.Grows (s.placeLine n x allowed retained) := by
  unfold State.placeLine
  split
  · exact writeLine s x
  · next v _ =>
    refine trans ?_ (updSlice _ n _)
    cases v with
    | none => exact setFree s _
    | some y => exact (leaveLine s n y).trans (setFree _ _)

theorem setLine (s : State) (n : Nat) (y : Line) : s.Grows (s.setLine n y) := by
  unfold State.setLine
  split
  · exact writeLine s y
  · split
    · exact updSlice s n _
    · exact writeLine s y

/-! ## What a failing sector brings about -/

theorem eraseDomain (s : State) (p e : Nat) : s.Grows (s.eraseDomain p e) := by
  have hrows : ∀ s : State, s.Grows (s.dropDomainRows p e) := fun _ => of_eq rfl rfl rfl
  have hkeys : ∀ s : State, s.Grows (s.updPart p fun q => { q with keys := Tab.set none q.keys e none }) := fun s => updPart s p fun _ => ⟨rfl, rfl, rfl⟩
  exact ((forEach (fun s n => leaveLines s n _) _ s).trans (hrows _)).trans (hkeys _)

theorem abortAll (s : State) (p : Nat) : s.Grows (s.abortAll p) := by
  have habort : ∀ (s : State) (l : Nat), s.Grows (s.abortLaunch l) := fun s l => (updLaunch s l _).trans (post _ _ _)
  exact (forEach habort _ s).trans (postOnce _ _ _)

theorem fence (s : State) (p : Nat) : s.Grows (s.fence p) := by
  have hmark : s.Grows (s.updPart p fun q => { q with fenced := true }) := updPart s p fun _ => ⟨rfl, rfl, rfl⟩
  exact (hmark.trans (forEach (fun s e => eraseDomain s p e) _ _)).trans (abortAll _ p)

theorem countIntegrity (s : State) (p : Nat) : s.Grows (s.countIntegrity p) := by
  have hcount : ∀ n, s.Grows (s.updPart p fun q => { q with seccnt := n }) := fun n => updPart s p fun _ => ⟨rfl, rfl, rfl⟩
  unfold State.countIntegrity
  split
  · exact refl s
  · dsimp only
    split
    · exact (hcount _).trans (fence _ p)
    · exact hcount _

theorem countCorrected (s : State) (sec : Nat) : s.Grows (s.countCorrected sec) := by
  have hsparing : ∀ s : State, s.Grows (s.startSparing sec) := fun s => by
    unfold State.startSparing
    dsimp only
    split
    · exact setModule s _
    · split
      · exact setModule s _
      · exact (setModule s _).trans (notice _ _ _ _)
  unfold State.countCorrected
  dsimp only
  split
  · exact setModule s _
  · split
    · exact setModule s _
    · exact (setModule s _).trans (hsparing _)

theorem checkSector (s : State) (a : Access) (sec : Nat) : s.Grows (s.checkSector a sec).1 := by
  have hfails : ∀ info, s.Grows ((s.notice a.part 0x13 info).countIntegrity a.part) := fun info => (notice s _ _ info).trans (countIntegrity _ _)
  unfold State.checkSector
  split
  · exact notice s _ _ _
  · exact notice s _ _ _
  · exact hfails _
  · split
    · exact refl s
    · exact hfails _
  · split
    · exact countCorrected s sec
    · exact hfails _

/-! ## Reads -/

theorem fillSector (a : Access) (no : Nat) (whole : Nat → Bool) (acc : State × List PWord) (i : Nat) : acc.1.Grows (State.fillSector a no whole acc i).1 := by
  have hread : acc.1.Grows (if whole i then (acc.1, true) else acc.1.checkSector a (2 * no + i)).1 := by
    split
    · exact refl acc.1
    · exact checkSector acc.1 a _
  unfold State.fillSector
  dsimp only
  split
  · next heq => exact hread.fst heq
  · next heq => exact hread.fst heq

theorem openLine (s : State) (a : Access) (no : Nat) (whole : Nat → Bool) : s.Grows (s.openLine a no whole).1 := by
  have hcount : ∀ t : State, t.Grows (t.countLine a (128 * no)).1 := fun t => by
    unfold State.countLine
    split
    · exact updSlice t _ _
    · exact refl t
  have hsettled : s.Grows ((s.settleWays (s.homeSlice (128 * no))).countLine a (128 * no)).1 := (updSlice s _ _).trans (hcount _)
  unfold State.openLine
  dsimp only
  generalize (s.settleWays (s.homeSlice (128 * no))).countLine a (128 * no) = r at hsettled ⊢
  obtain ⟨t, retained⟩ := r
  dsimp only
  split
  · refine hsettled.trans ?_
    dsimp only
    split
    · exact (updSlice t _ _).trans (placeLine _ _ _ _ _)
    · exact (updSlice t _ _).trans (updSlice _ _ _)
  · have hfill := hsettled.trans ((fillSector a no whole (t, []) 0).trans (fillSector a no whole _ 1))
    dsimp only
    split
    · exact hfill
    · exact hfill.trans (placeLine _ _ _ _ _)

theorem homeWords (a : Access) (fuel : Nat) : ∀ (s : State) (pa n : Nat), s.Grows (s.homeWords a fuel pa n).1 := by
  have hline : ∀ (s : State) (pa n : Nat), s.Grows (s.lineWords a pa n).1 := fun s pa n => by
    unfold State.lineWords
    split
    · exact refl s
    · exact openLine s a _ _
  induction fuel with
  | zero => exact fun s _ _ => refl s
  | succ fuel ih =>
    intro s pa n
    simp only [State.homeWords]
    split
    · exact refl s
    · exact (hline s pa _).trans (ih _ _ _)

theorem homeRead (s : State) (a : Access) (pa n : Nat) : s.Grows (s.homeRead a pa n).1 :=
  homeWords a ((pa + n - pa / 4 * 4 + 3) / 4 + 1) s (pa / 4 * 4) ((pa + n - pa / 4 * 4 + 3) / 4)

/-! ## Writes -/

theorem mergeWords (own first : Nat) : ∀ (l : List ((PWord × Nat) × Nat)) (acc : State × Line),
    acc.1.Grows (l.foldl (fun acc w => State.mergeWord own acc (first + w.2) w.1.1 w.1.2) acc).1
  | [], acc => refl acc.1
  | w :: l, acc => by
    have hword : acc.1.Grows (State.mergeWord own acc (first + w.2) w.1.1 w.1.2).1 := by
      unfold State.mergeWord
      split
      · exact refl acc.1
      · dsimp only
        split
        · exact refl acc.1
        · exact revoke acc.1 _ _
    exact hword.trans (mergeWords own first l _)

theorem lineWrite (s : State) (a : Access) (own pa : Nat) (ws : List (PWord × Nat)) : s.Grows (s.lineWrite a own pa ws) := by
  have hno : ∀ (s : State) (l : List Nat) (g : Nat → Word64), s.Grows (s.forEach l fun s i => s.notice a.part 0x13 (g i)) :=
    fun s l g => forEach (fun s i => notice s _ _ _) l s
  unfold State.lineWrite
  dsimp only
  split
  · exact refl s
  · split
    · exact hno _ _ _
    · generalize hr : State.openLine s a (pa / 128) _ = r
      have hopen : s.Grows r.1 := hr ▸ openLine s a (pa / 128) _
      split
      · exact hopen.trans (hno _ _ _)
      · exact (hopen.trans (mergeWords own (pa % 128 / 4) ws.zipIdx r)).trans (setLine _ _ _)

theorem homeWrite (a : Access) (own fuel : Nat) : ∀ (s : State) (pa : Nat) (ws : List (PWord × Nat)), s.Grows (s.homeWrite a own fuel pa ws) := by
  induction fuel with
  | zero => exact fun s _ _ => refl s
  | succ fuel ih =>
    intro s pa ws
    simp only [State.homeWrite]
    split
    · exact refl s
    · exact (lineWrite s a own pa _).trans (ih _ _ _)

/-! ## Walks -/

theorem orPte (s : State) (part pa bits : Nat) : s.Grows (s.orPte part pa bits) := by
  unfold State.orPte
  split
  next heq =>
  have hread := (homeRead s ⟨part, 0, none, none⟩ pa 8).fst heq
  split
  · exact hread
  · exact hread.trans (homeWrite _ 0 _ _ _ _)

theorem walkFrom (part va : Nat) (u : Use) (fuel : Nat) : ∀ (s : State) (table level : Nat), s.Grows (s.walkFrom part va u fuel table level).1 := by
  induction fuel with
  | zero => exact fun s _ _ => refl s
  | succ fuel ih =>
    intro s table level
    have hread := homeRead s ⟨part, 0, none, none⟩ (table + 8 * levelIndex va level) 8
    simp only [State.walkFrom]
    split_ifs
    · exact hread
    · exact hread
    · exact hread
    · exact hread.trans (ih _ _ _)

theorem translateHome (s : State) (part va : Nat) (u : Use) : s.Grows (s.translateHome part va u).1 := by
  have hwalk : s.Grows (s.walk part va u).1 := by
    unfold State.walk
    split
    · exact refl s
    · exact walkFrom part va u 3 s _ _
  unfold State.translateHome
  split
  · next heq => exact hwalk.fst heq
  · next heq =>
    split
    · exact hwalk.fst heq
    · exact (hwalk.fst heq).trans (orPte _ _ _ _)

/-! ## The end of a command -/

theorem pushRelease (s : State) (r : Release) : s.Grows (s.pushRelease r).1 := by
  have hrow : ∀ (s : State) (q n : Nat), s.Grows (s.writeBackRow q n) := fun s q n => by
    unfold State.writeBackRow
    split
    · exact refl s
    · split
      · exact refl s
      · split
        · exact refl s
        · exact (updCore s q _).trans (postOpen _ _ _)
  unfold State.pushRelease
  refine List.foldlRecOn (motive := fun a : State × Release => s.Grows a.1) r.todo _ (refl s) fun a ha e _ => ?_
  dsimp only
  split
  · exact ha
  · split
    · exact ha
    · split_ifs
      · exact ha
      · exact ha
      · exact ha.trans (hrow _ _ _)

theorem acquireBy (s : State) (c n scope : Nat) : s.Grows (s.acquireBy c n scope) := by
  have hdrop : ∀ (s : State) (q n : Nat) (words : List Nat), s.Grows (s.dropWords q n words) := fun s q n words => by
    unfold State.dropWords
    split
    · exact refl s
    · exact (updCore s q _).trans (forEach (fun s c => updCore s c _) _ _)
  have hacquire : s.Grows (s.acquire c scope) := forEach (fun s q => by
    split
    · exact refl s
    · refine forEach (fun s n => ?_) _ s
      split
      · exact refl s
      · split
        · exact hdrop s _ _ _
        · exact refl s) _ s
  exact hacquire.trans (updCtx _ c n _)

theorem fenceStep (c n : Nat) : ∀ (fs : List FenceWait) (s : State), s.Grows (s.fenceStep c n fs).1
  | [], s => refl s
  | f :: fs, s => by
    unfold State.fenceStep
    split
    · exact refl s
    · extract_lets cmds r
      have hr : s.Grows r.1 := by
        simp only [r]
        split
        · exact refl s
        · dsimp only
          split
          · exact pushRelease s _
          · exact pushRelease s _
      clear_value r
      obtain ⟨t, g⟩ := r
      dsimp only
      split_ifs
      · exact (hr.trans (acquireBy t c n _)).trans (fenceStep c n fs _)
      · exact hr.trans (fenceStep c n fs t)

theorem wakeCore (s : State) (c : Nat) : s.Grows (s.wakeCore c) := by
  have hif : ∀ (s : State) (b : Bool) (d : Nat) (e : Event), s.Grows (if b then s.postOnce d e else s) := fun s b d e => by
    cases b
    · exact refl s
    · exact postOnce s d e
  have hunless : ∀ (s : State) (b : Bool) (d : Nat) (e : Event), s.Grows (if b then s else s.postOnce d e) := fun s b d e => by
    cases b
    · exact postOnce s d e
    · exact refl s
  unfold State.wakeCore
  split
  · exact refl s
  · extract_lets streams commands loader queue matrix channels rings
    have hstreams : s.Grows streams := forEach (fun s q => by
      split
      · exact refl s
      · exact hunless s _ _ _) _ s
    have hcommands : streams.Grows commands := forEach (fun s q => by
      cases q.kind with
      | strm | gcfg | grun => exact refl s
      | qset | qcopy | qccopy | qrcopy | qsave | stash => exact postOnce s _ _) _ _
    have hrings : channels.Grows rings := forEach (fun s kv => by
      split
      · exact refl s
      · exact postOnce s _ _) _ _
    have hqueues : commands.Grows channels := (((hif _ _ _ _).trans (hif _ _ _ _)).trans (hunless _ _ _ _)).trans (hunless _ _ _ _)
    refine (((hstreams.trans hcommands).trans hqueues).trans hrings).trans (forEach (fun s n => ?_) _ _)
    split
    · exact postOnce s _ _
    · exact postOnce s _ _
    · exact refl s

theorem tryFences (s : State) (c : Nat) : s.Grows (s.tryFences c) := by
  refine forEach (fun s n => ?_) _ s
  split
  · exact refl s
  · next x _ =>
    split
    · exact refl s
    · have hfence := (fenceStep c n x.fences s).trans (updCtx _ c n fun y => { y with fences := (s.fenceStep c n x.fences).2 })
      dsimp only
      split
      · exact hfence.trans (wakeCore _ c)
      · exact hfence

theorem afterCommand (s : State) (c : Nat) : s.Grows (s.afterCommand c) := by
  have hlook : ∀ s : State, s.Grows (s.lookBarriers c) := fun s => by
    unfold State.lookBarriers
    split
    · exact refl s
    · split
      · exact postOnce s _ _
      · exact refl s
  exact ((tryFences s c).trans (wakeCore _ c)).trans (hlook _)

end State.Grows

end Sys2Proof.Machine
end
section
/-! SUPPORT. The ring packets that come in when a sequencer has room, and the abort of a ring channel (09 R221, R223 to R226). -/

namespace Sys2Proof.Machine

/-! ## What moves on a ring -/

/-- A channel but for the run at work on it; none begins. -/
structure Chan.Keeps (h h' : Chan) : Prop where
  rest : h' = { h with run := h'.run }
  idle : h.run = none → h'.run = none

theorem Chan.Keeps.refl (h : Chan) : h.Keeps h := ⟨rfl, id⟩
theorem Chan.Keeps.trans {g h i : Chan} (hg : g.Keeps h) (hi : h.Keeps i) : g.Keeps i where
  rest := by rw [hi.rest, hg.rest]
  idle hrun := hi.idle (hg.idle hrun)

/-- A core but for the runs at work on its ring channels. -/
structure Core.KeepsChans (k k' : Core) : Prop where
  rest : k' = { k with chans := k'.chans }
  chans : ∀ ch h, k.chan? ch = some h → ∃ h', k'.chan? ch = some h' ∧ h.Keeps h'

theorem Core.KeepsChans.refl (k : Core) : k.KeepsChans k := ⟨rfl, fun _ h hh => ⟨h, hh, .refl h⟩⟩

theorem Core.KeepsChans.trans {k l m : Core} (h : k.KeepsChans l) (h' : l.KeepsChans m) : k.KeepsChans m where
  rest := by rw [h'.rest, h.rest]
  chans ch c hc := by
    obtain ⟨c1, hc1, h1⟩ := h.chans ch c hc
    obtain ⟨c2, hc2, h2⟩ := h'.chans ch c1 hc1
    exact ⟨c2, hc2, h1.trans h2⟩

theorem Core.KeepsChans.updChan (k : Core) (ch : Nat) {f : Chan → Chan} (hf : ∀ h : Chan, h.Keeps (f h)) : k.KeepsChans (k.updChan ch f) where
  rest := Core.updChan_eq k ch f
  chans ch' h hh := by
    by_cases hch : ch' = ch
    · subst hch
      exact ⟨f h, (Core.chan?_updChan_same k ch' f).trans (congrArg _ hh), hf h⟩
    · exact ⟨h, (Core.chan?_updChan_ne k f hch).trans hh, .refl h⟩

/-- From `s` to `t` of the cores the runs at work alone have changed, and what is to come has grown. -/
structure State.RingsMove (s t : State) : Prop where
  grows : s.Grows t
  cores : ∀ c k, s.core? c = some k → ∃ k', t.core? c = some k' ∧ k.KeepsChans k'

namespace State.RingsMove

theorem of_cores {s t : State} (h : s.Grows t) (hcores : t.cores = s.cores) : s.RingsMove t :=
  ⟨h, fun c k hk => ⟨k, by rw [State.core?, hcores]; exact hk, .refl k⟩⟩

theorem refl (s : State) : s.RingsMove s := of_cores (.refl s) rfl

theorem trans {s t u : State} (h : s.RingsMove t) (h' : t.RingsMove u) : s.RingsMove u where
  grows := h.grows.trans h'.grows
  cores c k hk := by
    obtain ⟨k1, hk1, h1⟩ := h.cores c k hk
    obtain ⟨k2, hk2, h2⟩ := h'.cores c k1 hk1
    exact ⟨k2, hk2, h1.trans h2⟩

theorem forEach {α : Type} {f : State → α → State} (h : ∀ (s : State) (x : α), s.RingsMove (f s x)) (l : List α) (s : State) :
    s.RingsMove (s.forEach l f) :=
  State.forEach_keeps (fun t => s.RingsMove t) (fun t x ht => ht.trans (h t x)) l s (refl s)

theorem updPort (s : State) (n : Nat) (f : Port → Port) : s.RingsMove (s.updPort n f) := of_cores (.updPort s n f) (by simp)
theorem post (s : State) (d : Nat) (e : Event) : s.RingsMove (s.post d e) := of_cores (.post s d e) rfl
theorem postOnce (s : State) (d : Nat) (e : Event) : s.RingsMove (s.postOnce d e) := of_cores (.postOnce s d e) (by simp)

theorem updRing (s : State) (c ch : Nat) (f : RingRun → RingRun) : s.RingsMove (s.updRing c ch f) where
  grows := .updCore s c _
  cores c' k hk := by
    by_cases h : c' = c
    · subst h
      exact ⟨_, State.core?_updChan hk ch _, .updChan k ch fun h => ⟨rfl, fun hrun => by rw [hrun, Option.map_none]⟩⟩
    · exact ⟨k, (State.core?_updCore_ne s _ h).trans hk, .refl k⟩

theorem linkSend (s : State) (port : Nat) (l : Option Nat) (p : Packet) : s.RingsMove (s.linkSend port l p) := by
  have hgiven : ∀ (s : State) (b : Bool), s.RingsMove (if b then s.emit (.link port p) else s) := fun s b => by
    cases b
    · exact refl s
    · exact of_cores (.emit s _) rfl
  unfold State.linkSend
  split
  · exact refl s
  · exact ((updPort s port _).trans (hgiven _ _)).trans (post _ _ _)

theorem sendRing (s : State) (c dport : Nat) (h : Chan) (r : RingRun) (step row : Nat) (wide : Bool) (ws : List PWord) :
    s.RingsMove (s.sendRing c dport h r step row wide ws) := linkSend s dport _ _

theorem ringRow (s : State) (c ch dport : Nat) (h : Chan) (r : RingRun) (p : Packet) : s.RingsMove (s.ringRow c ch dport h r p) := by
  unfold State.ringRow
  extract_lets step j last op base ws rounded ws' base' f got full after u
  have hsent : s.RingsMove f.2 := by
    simp only [f]
    split_ifs
    · exact sendRing s ..
    · exact sendRing s ..
    · exact refl s
    · exact sendRing s ..
    · exact sendRing s ..
    · exact refl s
  have hmoved : s.RingsMove u := hsent.trans (updRing _ c ch _)
  split
  · exact hmoved.trans (postOnce _ _ _)
  · exact hmoved

theorem ringArrive {s t : State} {port : Nat} {p : Packet} (harrive : s.ringArrive port p = some t) : s.RingsMove t := by
  have hstale : ∀ {t}, some (s.stale port) = some t → s.RingsMove t := fun h => Option.some.inj h ▸ updPort s port _
  unfold State.ringArrive at harrive
  split at harrive
  · exact hstale harrive
  next c ch h g _ =>
  extract_lets -lift i pooled pool at harrive
  have hpool : ∀ {t}, pool = some t → s.RingsMove t := fun h => by
    simp only [pool] at h
    split at h
    · cases h
    · exact Option.some.inj h ▸ updPort s _ _
  split at harrive
  · exact hstale harrive
  split at harrive
  case h_1 => split at harrive; exacts [hpool harrive, hstale harrive]
  next r _ =>
  split at harrive
  case isFalse => split at harrive; exacts [hpool harrive, hstale harrive]
  split at harrive
  · exact hpool harrive
  split at harrive
  · split at harrive
    · cases harrive
    · exact Option.some.inj harrive ▸ updRing s c ch _
  · split at harrive
    · exact hstale harrive
    · exact Option.some.inj harrive ▸ ringRow s c ch _ h r p

theorem settleRing (port : Nat) : ∀ (l : List Packet) (s : State), s.RingsMove (s.settleRing port l)
  | [], s => updPort s port _
  | p :: l, s => by
    unfold State.settleRing
    split
    · next h => exact (ringArrive h).trans (settleRing port l _)
    · exact updPort s port _

theorem settleRings (s : State) : s.RingsMove s.settleRings := by
  refine forEach (fun s kv => ?_) _ s
  split
  · exact refl s
  · split
    · exact refl s
    · exact settleRing _ _ s

theorem wakeRings (s : State) : s.RingsMove s.wakeRings := by
  refine forEach (fun s kv => ?_) _ s
  split
  · exact refl s
  · refine forEach (fun s hv => ?_) _ s
    split
    · exact refl s
    · split
      · exact refl s
      · exact postOnce s _ _

theorem tellLaunch (s : State) (c : Nat) : s.RingsMove (s.tellLaunch c) := by
  unfold State.tellLaunch
  split
  · exact refl s
  · split
    · exact refl s
    · split
      · exact postOnce s _ _
      · exact refl s

theorem emptyPool (s : State) (c : Nat) (h : Chan) : s.RingsMove (s.emptyPool c h) := by
  unfold State.emptyPool
  split
  · exact refl s
  · exact updPort s _ _

theorem sendToken (s : State) (port : Nat) (t : Token) : s.RingsMove (s.sendToken port t) := by
  unfold State.sendToken
  split
  · exact refl s
  · split
    · exact of_cores (.emit s _) rfl
    · exact refl s

end State.RingsMove

/-! ## Aborts -/

/-- A ring channel that is RESETTING, with no run at work or pending. -/
structure Chan.Reset (h : Chan) : Prop where
  rst : h.rst = 4
  run : h.run = none
  pend : h.pend = none

theorem Chan.Reset.keeps {h h' : Chan} (hr : h.Reset) (hk : h.Keeps h') : h'.Reset where
  rst := by rw [hk.rest]; exact hr.rst
  run := hk.idle hr.run
  pend := by rw [hk.rest]; exact hr.pend

/-- A channel that is aborted at a TIME; the tokens that it sends itself count as forwarded. -/
def Chan.aborted (h : Chan) (now : Nat) (tokens : Bool) : Chan :=
  { h with rst := 4, run := none, pend := none, resetSince := now, fwd := if tokens then h.fwd ++ [h.token true, h.token false] else h.fwd }

theorem Chan.reset_aborted (h : Chan) (now : Nat) (tokens : Bool) : (h.aborted now tokens).Reset := ⟨rfl, rfl, rfl⟩

theorem State.emptyPool_cores (s : State) (c : Nat) (h : Chan) : (s.emptyPool c h).cores = s.cores := by
  unfold State.emptyPool
  split
  · rfl
  · exact State.updPort_cores s _ _

theorem State.sendToken_cores (s : State) (port : Nat) (x : Token) : (s.sendToken port x).cores = s.cores := by
  unfold State.sendToken
  split
  · rfl
  · split <;> rfl

theorem State.Grows.postErr (s : State) (c : Nat) (w : Sync) : s.Grows (s.postErr c w) := by
  unfold State.postErr State.signalErr
  split
  · exact refl s
  · split
    · exact refl s
    · exact updCore s c _

/-- Of a core, its channels and its channel commands are as they were. -/
def Core.SameChannels (k k' : Core) : Prop := k'.chans = k.chans ∧ k'.ycmds = k.ycmds

/-- An abort of a channel that is not RESETTING signals for what it ends, in a machine whose channels are as before; then the channel is RESETTING, and what waits is
tried (09 R226). -/
theorem State.abortRing_eq {s : State} {c ch : Nat} {k : Core} {h : Chan} (hk : s.core? c = some k) (hh : k.chan? ch = some h) (hkind : h.kind = 3)
    (hrst : h.rst ≠ 4) (tokens : Bool) : ∃ u, s.Grows u ∧ (∃ k', u.core? c = some k' ∧ k.SameChannels k') ∧
      s.abortRing c ch tokens =
        ((((u.updChan c ch fun h => h.aborted u.ticks tokens).afterCommand c).tellLaunch c).settleRings).wakeRings := by
  have hsignal : ∀ (t : State) (w : Sync), (∃ k', t.core? c = some k' ∧ k.SameChannels k') →
      ∃ k', (t.postErr c w).core? c = some k' ∧ k.SameChannels k' :=
    fun t w ⟨k1, hk1, hchans1, hcmds1⟩ => by
      obtain ⟨k2, hk2, h2⟩ := State.core?_postErr_sets hk1 w
      exact ⟨k2, hk2, h2.chans.trans hchans1, h2.ycmds.trans hcmds1⟩
  have hopen : ¬(decide (h.kind ≠ 3) || decide (h.rst = 4)) = true := by simp [hkind, hrst]
  unfold State.abortRing
  simp -zeta only [State.chan?_of_core hk, hh]
  rw [if_neg hopen]
  extract_lets g pool s1 s2 s3
  have hleave : s.Grows s1 ∧ s1.cores = s.cores := by
    have hpool : s.Grows pool ∧ pool.cores = s.cores := ⟨(RingsMove.emptyPool s c h).grows, State.emptyPool_cores s c h⟩
    clear_value g
    simp only [s1]
    cases g with
    | none => exact ⟨.refl s, rfl⟩
    | some r =>
      dsimp only
      split
      · have hdown := RingsMove.sendToken pool r.dport (h.token true)
        have hup := RingsMove.sendToken (pool.sendToken r.dport (h.token true)) r.uport (h.token false)
        exact ⟨hpool.1.trans (hdown.trans hup).grows, by rw [State.sendToken_cores, State.sendToken_cores, hpool.2]⟩
      · exact hpool
  have hrun : s1.Grows s2 ∧ ∃ k', s2.core? c = some k' ∧ k.SameChannels k' := by
    have hk1 : ∃ k', s1.core? c = some k' ∧ k.SameChannels k' := ⟨k, by rw [State.core?, hleave.2]; exact hk, rfl, rfl⟩
    simp only [s2]
    split
    · exact ⟨.refl s1, hk1⟩
    · exact ⟨.postErr s1 c _, hsignal s1 _ hk1⟩
  have hpend : s2.Grows s3 ∧ ∃ k', s3.core? c = some k' ∧ k.SameChannels k' := by
    simp only [s3]
    split
    · exact ⟨.refl s2, hrun.2⟩
    · exact ⟨.postErr s2 c _, hsignal s2 _ hrun.2⟩
  exact ⟨s3, (hleave.1.trans hrun.1).trans hpend.1, hpend.2, rfl⟩

/-- A ring channel that is aborted is RESETTING, and no command of its core is touched. -/
theorem State.core?_abortRing {s : State} {c ch : Nat} {k : Core} {h : Chan} (hk : s.core? c = some k) (hh : k.chan? ch = some h) (hkind : h.kind = 3)
    (hrst : h.rst ≠ 4) (tokens : Bool) : ∃ k' h', (s.abortRing c ch tokens).core? c = some k' ∧ k'.ycmds = k.ycmds ∧ k'.chan? ch = some h' ∧ h'.Reset := by
  obtain ⟨u, -, ⟨k1, hk1, hchans1, hcmds1⟩, heq⟩ := State.abortRing_eq hk hh hkind hrst tokens
  have hh1 : k1.chan? ch = some h := by rw [Core.chan?, hchans1]; exact hh
  have hk2 := State.core?_updChan hk1 ch fun h => h.aborted u.ticks tokens
  obtain ⟨k3, hk3, h3⟩ := (State.Stays.afterCommand (u.updChan c ch fun h => h.aborted u.ticks tokens) c).cores c _ hk2
  have hmoved := ((State.RingsMove.tellLaunch ((u.updChan c ch fun h => h.aborted u.ticks tokens).afterCommand c) c).trans (.settleRings _)).trans (.wakeRings _)
  obtain ⟨k4, hk4, h4⟩ := hmoved.cores c k3 hk3
  have hh3 : k3.chan? ch = some (h.aborted u.ticks tokens) := by
    rw [Core.chan?, h3.rest]
    exact (Core.chan?_updChan_same k1 ch _).trans (congrArg _ hh1)
  obtain ⟨h', hh', hkeeps⟩ := h4.chans ch _ hh3
  refine ⟨k4, h', heq ▸ hk4, ?_, hh', (Chan.reset_aborted h _ tokens).keeps hkeeps⟩
  rw [h4.rest, h3.rest]
  exact (Core.updChan_ycmds k1 ch _).trans hcmds1

/-- Whatever a channel is, its abort lets what is to come grow. -/
theorem State.Grows.abortRing (s : State) (c ch : Nat) (tokens : Bool) : s.Grows (s.abortRing c ch tokens) := by
  by_cases hopen : ∃ k h, s.core? c = some k ∧ k.chan? ch = some h ∧ h.kind = 3 ∧ h.rst ≠ 4
  · obtain ⟨k, h, hk, hh, hkind, hrst⟩ := hopen
    obtain ⟨u, hgrows, -, heq⟩ := State.abortRing_eq hk hh hkind hrst tokens
    rw [heq]
    have hreset : u.Grows (u.updChan c ch fun h => h.aborted u.ticks tokens) := updCore u c _
    exact ((hgrows.trans hreset).trans (afterCommand _ c)).trans (((RingsMove.tellLaunch _ c).trans (.settleRings _)).trans (.wakeRings _)).grows
  · unfold State.abortRing
    split
    · exact refl s
    · next h hh =>
      obtain ⟨k, hk, hh⟩ := Option.bind_eq_some_iff.1 hh
      have hclosed : (decide (h.kind ≠ 3) || decide (h.rst = 4)) = true := by
        by_contra hno
        simp only [Bool.or_eq_true, decide_eq_true_eq, not_or, not_not] at hno
        exact hopen ⟨k, h, hk, hh, hno⟩
      rw [if_pos hclosed]
      exact refl s

end Sys2Proof.Machine
end
section
/-! SUPPORT. A channel command that is alone in its queue, held by nothing, starts (09 R215 to R217, R222, R226). -/

namespace Sys2Proof.Machine

/-- The ring of a channel depends on the partitions alone. -/
theorem State.ringOf_congr {s t : State} (h : t.parts = s.parts) (c : Nat) (x : Chan) : t.ringOf c x = s.ringOf c x := by
  simp only [State.ringOf, State.part?, State.partOf, State.partOfCluster, h]

/-- The event that starts channel commands comes to a core whose queue holds one command: it has not started, and nothing holds it. -/
structure State.YStart (s : State) (c : Nat) (k : Core) (y : YCmd) : Prop where
  core : s.core? c = some k
  ev : s.ev = .channelCommandStart c
  alone : k.ycmds = [y]
  started : y.started = false
  arrived : y.arrived = false
  faulted : y.faulted = false
  flows : s.flowsHeld c = false
  unfenced : k.fenced y.ctx y.id (YKind.path y.kind) = false

/-- The event tries the one command of the queue. -/
theorem exec_channelCommandStart_single {s : State} {c : Nat} {k : Core} {y : YCmd} (hk : s.core? c = some k) (hev : s.ev = .channelCommandStart c)
    (hy : k.ycmds = [y]) : exec .channelCommandStart s = .next (s.yTry c y) := by
  change execChannelCommandStart s = _
  simp [execChannelCommandStart, hev, hk, hy, State.forEach, Core.ycmd_of_single hy]

namespace State.YStart

section
variable {s : State} {c : Nat} {k : Core} {y : YCmd} (h : s.YStart c k y)
include h

theorem exec_eq : exec .channelCommandStart s = .next (s.yTry c y) := exec_channelCommandStart_single h.core h.ev h.alone

/-- Nothing stands before the command. -/
theorem free {kind : YKind} (hkind : y.kind = kind) : (k.behind y || YKind.flowOp kind && (k.drainBefore y.ctx y.id || s.flowsHeld c) ||
    k.fenced y.ctx y.id (YKind.path kind)) = false := by
  subst hkind
  have hbehind : k.behind y = false := by
    unfold Core.behind
    split
    · rfl
    · simp [h.alone]
  have hdrain : k.drainBefore y.ctx y.id = false := by simp [Core.drainBefore, h.alone]
  simp [hbehind, hdrain, h.flows, h.unfenced]

/-- The core once the command is marked as started. -/
theorem core?_mark : (s.updCore c fun k => k.updY y.id fun y => { y with started := true }).core? c = some (k.updY y.id fun y => { y with started := true }) := by
  rw [State.core?_updCore_same, h.core, Option.map_some]

/-- The core once the command is gone. -/
theorem core?_drop : (s.updCore c fun k => k.dropY y.id).core? c = some (k.dropY y.id) := by rw [State.core?_updCore_same, h.core, Option.map_some]

variable {ch : Nat} {x : Chan} (hx : k.chan? ch = some x)
include hx

/-! ## CHSEND and CHRECV (09 R216, R217) -/

/-- A CHSEND without a credit waits. -/
theorem exec_chsend_of_noCredit (hkind : y.kind = .chsend ch) (hcred : x.cred = 0) : exec .channelCommandStart s = .next s := by
  rw [h.exec_eq]
  simp only [State.yTry, h.core, h.free hkind, hkind, hx, h.arrived, h.faulted, h.started, hcred]
  simp

/-- A CHSEND spends a credit and sends the row that it reads. -/
theorem exec_chsend_of_credit (hkind : y.kind = .chsend ch) (hcred : 0 < x.cred) {s1 : State} {k1 : Core} {x1 : Chan} {ws : List PWord}
    (hread : ((s.updCore c fun k => k.updY y.id fun y => { y with started := true }).updChan c ch fun h => { h with cred := h.cred - 1 }).readWords c false
        (x.buf + 256 * (x.sent % x.depth)) x.words = (s1, .got ws)) (hk1 : s1.core? c = some k1) (hx1 : k1.chan? ch = some x1) :
    ∃ t k' x', exec .channelCommandStart s = .next t ∧ t.core? c = some k' ∧ k'.chan? ch = some x' ∧ x' = { x1 with sent := x1.sent + 1 } ∧
      (Tab.get none t.rows s1.nextRow).map (·.cmd) = some y.id := by
  have hspent : ((s.updCore c fun k => k.updY y.id fun y => { y with started := true }).updChan c ch fun h => { h with cred := h.cred - 1 }).core? c =
      some ((k.updY y.id fun y => { y with started := true }).updChan ch fun h => { h with cred := h.cred - 1 }) := State.core?_updChan h.core?_mark ch _
  let sent (k : Core) : Core := (k.updChan ch fun h => { h with sent := h.sent + 1 }).updY y.id fun y => { y with arrived := true }
  have htry : s.yTry c y = (s1.sendRow c y.ctx y.id y.sync x.flow (x.sent % x.depth)
      ((k.updY y.id fun y => { y with started := true }).updChan ch fun h => { h with cred := h.cred - 1 }).logical
      (ws.map fun w => { w with p := w.p || y.psn })).updCore c sent := by
    have hnocredit : x.cred ≠ 0 := Nat.pos_iff_ne_zero.1 hcred
    simp only [State.yTry, h.core, h.free hkind, hkind, hx, h.arrived, h.faulted, h.started, if_neg hnocredit, State.chsendOn, hspent, hread]
    rfl
  refine ⟨_, sent k1, _, by rw [h.exec_eq, htry], ?_, ?_, rfl, ?_⟩
  · rw [State.core?_updCore_same]
    exact congrArg (Option.map sent) hk1
  · rw [Core.chan?_updY, Core.chan?_updChan_same, hx1, Option.map_some]
  · rw [State.updCore_rows]
    exact congrArg (Option.map _) (Tab.get_set_some s1.rows s1.nextRow _)

/-- A CHRECV waits for its element. -/
theorem exec_chrecv (hkind : y.kind = .chrecv ch) :
    ∃ t k', exec .channelCommandStart s = .next t ∧ t.core? c = some k' ∧ k'.ycmds = [{ y with started := true }] ∧
      (s.cycle, Event.chrecvCompletion c ch) ∈ t.agenda := by
  let mark := s.updCore c fun k => k.updY y.id fun y => { y with started := true }
  let u := if (decide (0 < x.next) && !y.crsent) = true then mark.sendCredit c x else mark
  have hu : u.cores = mark.cores ∧ u.cycle = s.cycle := by
    have hcredit : (mark.sendCredit c x).cores = mark.cores ∧ (mark.sendCredit c x).cycle = s.cycle := by
      unfold State.sendCredit
      split
      · exact ⟨rfl, State.updCore_cycle s c _⟩
      · exact ⟨rfl, State.updCore_cycle s c _⟩
    simp only [u]
    split
    · exact hcredit
    · exact ⟨rfl, State.updCore_cycle s c _⟩
  obtain ⟨hcores, hcycle⟩ := hu
  refine ⟨u.postOnce 0 (.chrecvCompletion c ch), k.updY y.id fun y => { y with started := true }, ?_, ?_, Core.updY_ycmds_of_single h.alone _, ?_⟩
  · rw [h.exec_eq]
    simp only [State.yTry, h.core, h.free hkind, hkind, hx, h.started]
    rfl
  · rw [State.core?_postOnce, State.core?, hcores]
    exact h.core?_mark
  · rw [← hcycle]
    exact State.mem_postOnce u 0 _

/-! ## CHSTART and CHABORT (09 R222, R226) -/

/-- A CHSTART on an idle ring channel begins a run. -/
theorem exec_chstart_of_idle (hkind : y.kind = .chstart ch) (hrst : x.rst = 1) {g : Ring} (hg : s.ringOf c x = some g) :
    ∃ t k' x' r, exec .channelCommandStart s = .next t ∧ t.core? c = some k' ∧ k'.ycmds = [] ∧ k'.chan? ch = some x' ∧ x'.rst = 2 ∧
      x'.inst = nextInst x.inst ∧ x'.run = some r ∧ r.id = y.id ∧ r.inst = nextInst x.inst ∧ r.ctx = y.ctx ∧ r.sync = y.sync ∧ r.started = false ∧
      r.n = g.nm1 + 1 ∧ r.pos = g.pos ∧ r.len = x.bytes := by
  let r : RingRun := {
    id := y.id, inst := nextInst x.inst, ctx := y.ctx, sync := y.sync, started := false, since := 0, n := g.nm1 + 1, pos := g.pos, len := x.bytes, data := []
    loaded := false, step := 0, got := 0, early := [], writing := false, wbLost := false }
  let begin (h : Chan) : Chan := { h with inst := nextInst x.inst, rst := 2, run := some r, pend := none }
  have hring : (s.updCore c fun k => k.dropY y.id).ringOf c x = some g := (State.ringOf_congr (State.updCore_parts s c _) c x).trans hg
  refine ⟨((s.updCore c fun k => k.dropY y.id).updChan c ch begin).postOnce 0 (.ringInstanceStart c ch), (k.dropY y.id).updChan ch begin, begin x, r,
    ?_, ?_, ?_, ?_, rfl, rfl, rfl, rfl, rfl, rfl, rfl, rfl, rfl, rfl, rfl⟩
  · rw [h.exec_eq]
    simp only [State.yTry, h.core, h.free hkind, Bool.and_false, hkind, hx, hrst, State.newInstance, State.chan?_of_core h.core?_drop, Core.chan?_dropY, hring]
    rfl
  · rw [State.core?_postOnce]
    exact State.core?_updChan h.core?_drop ch begin
  · rw [Core.updChan_ycmds, Core.dropY_ycmds_of_single h.alone]
  · rw [Core.chan?_updChan_same, Core.chan?_dropY, hx, Option.map_some]

/-- A CHSTART on a ring channel at work waits as the pending one. -/
theorem exec_chstart_of_busy (hkind : y.kind = .chstart ch) (hrst : x.rst = 2) :
    ∃ t k' x', exec .channelCommandStart s = .next t ∧ t.core? c = some k' ∧ k'.ycmds = [] ∧ k'.chan? ch = some x' ∧ x'.rst = 3 ∧ x'.pend = some y ∧
      x'.run = x.run := by
  let pending (h : Chan) : Chan := { h with rst := 3, pend := some y }
  refine ⟨_, _, pending x, ?_, State.core?_updChan h.core?_drop ch pending, ?_, ?_, rfl, rfl, rfl⟩
  · rw [h.exec_eq]
    simp only [State.yTry, h.core, h.free hkind, Bool.and_false, hkind, hx, hrst]
    rfl
  · rw [Core.updChan_ycmds, Core.dropY_ycmds_of_single h.alone]
  · rw [Core.chan?_updChan_same, Core.chan?_dropY, hx, Option.map_some]

/-- A CHABORT leaves its ring channel RESETTING; one that was not holds no run any more. -/
theorem exec_chabort (hkind : y.kind = .chabort ch) (hring : x.kind = 3) :
    ∃ t k' x', exec .channelCommandStart s = .next t ∧ t.core? c = some k' ∧ k'.ycmds = [] ∧ k'.chan? ch = some x' ∧ x'.rst = 4 ∧
      (x.rst ≠ 4 → x'.run = none ∧ x'.pend = none) := by
  obtain ⟨k1, x1, hk1, hcmds1, hx1, hrst1, hends⟩ : ∃ k1 x1, (s.abortRing c ch true).core? c = some k1 ∧ k1.ycmds = [y] ∧
      k1.chan? ch = some x1 ∧ x1.rst = 4 ∧ (x.rst ≠ 4 → x1.run = none ∧ x1.pend = none) := by
    by_cases hrst : x.rst = 4
    · have hsame : s.abortRing c ch true = s := by simp [State.abortRing, State.chan?_of_core h.core, hx, hrst]
      exact ⟨k, x, by rw [hsame]; exact h.core, h.alone, hx, hrst, fun hne => absurd hrst hne⟩
    · obtain ⟨k1, x1, hk1, hcmds1, hx1, hreset⟩ := State.core?_abortRing h.core hx hring hrst true
      exact ⟨k1, x1, hk1, hcmds1.trans h.alone, hx1, hreset.rst, fun _ => ⟨hreset.run, hreset.pend⟩⟩
  obtain ⟨k', hk', hcmds, hchans, -⟩ := State.core?_yDone_of_single hk1 hcmds1 false
  refine ⟨_, k', x1, ?_, hk', hcmds, (hchans ch).trans hx1, hrst1, hends⟩
  rw [h.exec_eq]
  simp only [State.yTry, h.core, h.free hkind, Bool.and_false, hkind]
  rfl

end

end State.YStart

/-- Settles O47: the start of each kind of channel command. -/
theorem channelCommandStarts : Obligations.ChannelCommandStarts := by
  unfold Obligations.ChannelCommandStarts
  intro s c ch k h y hk hev hy hstarted harrived hfaulted hflows hfenced hh
  have hstart : s.YStart c k y := ⟨hk, hev, hy, hstarted, harrived, hfaulted, hflows, hfenced⟩
  refine ⟨fun s1 k1 h1 ws hkind hcred hread hk1 hh1 => hstart.exec_chsend_of_credit hh hkind hcred hread hk1 hh1,
    fun hkind hcred => hstart.exec_chsend_of_noCredit hh hkind hcred, fun hkind => hstart.exec_chrecv hh hkind, fun g hkind hrst hg => ?idle,
    fun hkind hrst => hstart.exec_chstart_of_busy hh hkind hrst, fun hkind hring => hstart.exec_chabort hh hkind hring⟩
  case idle =>
    obtain ⟨t, k', h', r, hexec, hk', hcmds, hh', hrst', hinst, hrun, -, hr⟩ := hstart.exec_chstart_of_idle hh hkind hrst hg
    exact ⟨t, k', h', r, hexec, hk', hcmds, hh', hrst', hinst, hrun, hr⟩

end Sys2Proof.Machine
end
section
/-! SUPPORT. The issue of a channel command (16 R364 to R367, 12 R290), and what the event that it posts finds. -/

namespace Sys2Proof.Machine

/-- The command that enters the queue at the issue of an instruction. -/
def State.issuedY (s : State) (k : Core) (n : Nat) (i : Instr) (w : Sync) (kind : YKind) : YCmd :=
  ⟨k.nextCmd, n, kind, w, engineWord i, false, false, none, false, false, Instr.guardPsn s.bun.old i, false, 0⟩

/-- A core whose queue a command has entered. -/
def Core.enqueueY (k : Core) (y : YCmd) : Core := { k with nextCmd := k.nextCmd + 1, ycmds := k.ycmds ++ [y] }

/-- The machine after the issue of a command: its core's queue has it, and its event is due. -/
def State.enterY (s : State) (y : YCmd) (delay : Nat) (e : Event) : State := (s.updCore s.cur fun k => k.enqueueY y).post delay e

theorem State.yEnter_eq (s : State) (k : Core) (n : Nat) (i : Instr) (w : Sync) (kind : YKind) (delay : Nat) (e : Nat → Event) :
    s.yEnter k n i w kind delay e = .ok (s.enterY (s.issuedY k n i w kind) delay (e k.nextCmd)) (s.enterY (s.issuedY k n i w kind) delay (e k.nextCmd)) := rfl

theorem Core.enqueueY_ycmds_of_empty {k : Core} (h : k.ycmds = []) (y : YCmd) : (k.enqueueY y).ycmds = [y] := by rw [Core.enqueueY, h, List.nil_append]

theorem State.core?_enterY {s : State} {k : Core} (hk : s.core? s.cur = some k) (y : YCmd) (delay : Nat) (e : Event) :
    (s.enterY y delay e).core? s.cur = some (k.enqueueY y) := by
  change (s.updCore s.cur fun k => k.enqueueY y).core? s.cur = _
  rw [State.core?_updCore_same, hk, Option.map_some]

theorem State.enterY_due (s : State) (y : YCmd) (delay : Nat) (e : Event) : (s.cycle + delay, e) ∈ (s.enterY y delay e).agenda := by
  have hdue := State.mem_post (s.updCore s.cur fun k => k.enqueueY y) delay e
  rwa [State.updCore_cycle] at hdue

/-- An instruction whose operands have passed its checks: what is left of it is the issue of a channel command. -/
def State.YEnters (s : State) (k : Core) (n : Nat) (x : Ctx) (i : Instr) (w : Sync) (kind : YKind) (delay : Nat) (e : Event) : Prop :=
  ∃ j f, exec i s = .next ((s.yReady k w x).bind f).finish ∧
    f s s = .ok (s.enterY (s.issuedY k n j w kind) delay e) (s.enterY (s.issuedY k n j w kind) delay e)

/-- A command in both its forms: where its guard passes, what is left is the issue of the command. -/
def State.YBothEnter (s : State) (k : Core) (n : Nat) (x : Ctx) (g : Guard) (i : Instr) (i64 : Sync → Instr) (kind : YKind) (delay : Nat) (e : Event) : Prop :=
  s.passes g .pk → s.YEnters k n x i Sync.none kind delay e ∧ ∀ w, s.YEnters k n x (i64 w) w kind delay e

section
variable {s : State} {k : Core} {n : Nat} {x : Ctx} {i : Instr} {w : Sync}

/-- What a command does that may be issued: its wait is met, and the queue has room. -/
theorem exec_of_yReady {f : State → State → Try State} (hexec : exec i s = .next ((s.yReady k w x).bind f).finish)
    (hmet : w.wt = 0 ∨ (k.sem w.ws.toNat).met w.wt.toNat = true) (hroom : ¬16 ≤ (k.ycmds.filter fun y => !y.started).length) :
    exec i s = .next (f s s).finish := by
  rw [hexec, State.yReady, State.syncWait_of_met hmet, Try.bind_ok, if_neg hroom, Try.bind_ok]

/-- A command that finds the queue full stalls in place (03 R58). -/
theorem stalls_of_yReady {f : State → State → Try State} (hexec : exec i s = .next ((s.yReady k w x).bind f).finish)
    (hmet : w.wt = 0 ∨ (k.sem w.ws.toNat).met w.wt.toNat = true) (hfull : 16 ≤ (k.ycmds.filter fun y => !y.started).length) :
    exec i s = .next s.stall := by
  rw [hexec, State.yReady, State.syncWait_of_met hmet, Try.bind_ok, if_pos hfull]
  rfl

/-- A command that waits for its semaphore blocks its bundle (04 R83, 12 R290). -/
theorem blocks_of_yReady (hiss : s.issues k n x) {f : State → State → Try State} (hexec : exec i s = .next ((s.yReady k w x).bind f).finish)
    (hmet : ¬(w.wt = 0 ∨ (k.sem w.ws.toNat).met w.wt.toNat = true)) (hsat : Slot.y ∉ x.sat) : BlocksOn s i n x .y w := by
  rw [State.yReady, State.syncWait_of_unmet hmet hsat] at hexec
  obtain ⟨x', hst, hx', hrest⟩ := State.arm_blocks hiss .y w.ws.toNat w.wt.toNat true
  exact ⟨_, x', hexec, hst, hx', hrest⟩

variable {kind : YKind} {delay : Nat} {e : Event} (h : s.YEnters k n x i w kind delay e)
include h

/-- A command whose wait is met enters the queue where there is room. -/
theorem State.YEnters.exec_eq (hmet : w.wt = 0 ∨ (k.sem w.ws.toNat).met w.wt.toNat = true) (hroom : ¬16 ≤ (k.ycmds.filter fun y => !y.started).length) :
    ∃ j, exec i s = .next (s.enterY (s.issuedY k n j w kind) delay e) := by
  obtain ⟨j, f, hexec, hf⟩ := h
  exact ⟨j, by rw [exec_of_yReady hexec hmet hroom, hf, Try.finish_ok]⟩

theorem State.YEnters.stalls (hmet : w.wt = 0 ∨ (k.sem w.ws.toNat).met w.wt.toNat = true) (hfull : 16 ≤ (k.ycmds.filter fun y => !y.started).length) :
    exec i s = .next s.stall := by
  obtain ⟨j, f, hexec, -⟩ := h
  exact stalls_of_yReady hexec hmet hfull

theorem State.YEnters.blocks (hiss : s.issues k n x) (hmet : ¬(w.wt = 0 ∨ (k.sem w.ws.toNat).met w.wt.toNat = true)) (hsat : Slot.y ∉ x.sat) :
    BlocksOn s i n x .y w := by
  obtain ⟨j, f, hexec, -⟩ := h
  exact blocks_of_yReady hiss hexec hmet hsat

end

/-! ## The checks -/

section
variable {s : State} {k : Core} {n : Nat} {x : Ctx} (hiss : s.issues k n x)

theorem Core.chanKind_of_chan? {k : Core} {ch : Nat} {h : Chan} (hh : k.chan? ch = some h) (kind : Nat) : k.chanKind ch kind = (h.kind == kind) := by
  simp [Core.chanKind, hh]

/-- The two forms of a command are one operation, with the synchronisation word and without. -/
theorem State.yBothEnter_of_op {g : Guard} {i j : Instr} {i64 : Sync → Instr} {kind : YKind} {delay : Nat} {e : Nat → Event}
    {op : Sync → Host.Outcome State Fault Refusal} (hop : s.passes g .pk → ∀ w, op w = .next (s.yIssue k n j w kind x delay e).finish)
    (hplain : exec i s = op Sync.none) (hsync : ∀ w, exec (i64 w) s = op w) :
    s.YBothEnter k n x g i i64 kind delay (e k.nextCmd) := fun hg =>
  ⟨⟨j, fun s _ => s.yEnter k n j Sync.none kind delay e, hplain.trans (hop hg _), s.yEnter_eq k n j _ kind delay e⟩,
    fun w => ⟨j, fun s _ => s.yEnter k n j w kind delay e, (hsync w).trans (hop hg w), s.yEnter_eq k n j w kind delay e⟩⟩

/-- What a CHSTART on a ring channel does once it may be issued (09 R221, 16 R367). -/
def State.judgeChstart (s : State) (k : Core) (n : Nat) (o : OpCh) (h : Chan) (w : Sync) : Try State :=
  match s.ringOf s.cur h with
  | none => yIllegal s 0x12
  | some r =>
    if !h.fits (r.nm1 + 1) then yIllegal s 0x12
    else if k.ringAhead o.ch.toNat h.rst = 3 then .trap s 0x0D (BitVec.ofNat 64 o.ch.toNat)
    else if k.ringAhead o.ch.toNat h.rst = 4 then .trap s 0x0E (BitVec.ofNat 64 o.ch.toNat)
    else s.yEnter k n (.chstart o) w (.chstart o.ch.toNat) 0 fun _ => .channelCommandStart s.cur

section
variable (n : Nat) {o : OpCh} {h : Chan} (w : Sync)

theorem State.judgeChstart_of_noRing (k : Core) (hr : s.ringOf s.cur h = none) : s.judgeChstart k n o h w = .trap s 0x01 (illegalInfo 6 0x12 true) := by
  simp only [State.judgeChstart, hr]
  rfl

variable {r : Ring} (hr : s.ringOf s.cur h = some r)
include hr

theorem State.judgeChstart_of_unfit (k : Core) (hfits : h.fits (r.nm1 + 1) = false) : s.judgeChstart k n o h w = .trap s 0x01 (illegalInfo 6 0x12 true) := by
  simp only [State.judgeChstart, hr, hfits]
  rfl

theorem State.judgeChstart_of_busy (hfits : h.fits (r.nm1 + 1) = true) (hahead : k.ringAhead o.ch.toNat h.rst = 3) :
    s.judgeChstart k n o h w = .trap s 0x0D (BitVec.ofNat 64 o.ch.toNat) := by
  simp [State.judgeChstart, hr, hfits, hahead]

theorem State.judgeChstart_of_aborted (hfits : h.fits (r.nm1 + 1) = true) (hahead : k.ringAhead o.ch.toNat h.rst = 4) :
    s.judgeChstart k n o h w = .trap s 0x0E (BitVec.ofNat 64 o.ch.toNat) := by
  simp [State.judgeChstart, hr, hfits, hahead]

end

include hiss

/-- CHSEND, CHRECV and CHABORT on a channel of their kind. -/
theorem channelOp_of_passes {o : OpCh} {h : Chan} (hh : k.chan? o.ch.toNat = some h) (hg : s.passes o.g .pk) {kind : Nat} (hkind : h.kind = kind)
    (op : Nat) (i : Instr) (y : YKind) (w : Sync) :
    channelOp s o w op kind i y = .next (s.yIssue k n i w y x 0 fun _ => .channelCommandStart s.cur).finish := by
  rw [channelOp, guarded_of_passes hiss hg, Core.chanKind_of_chan? hh, hkind]
  simp

/-- They are ILLEGAL_OP where there is no channel of their kind (16 R366). -/
theorem channelOp_of_notKind {o : OpCh} (hg : s.passes o.g .pk) {kind : Nat} (hkind : k.chanKind o.ch.toNat kind = false) (op : Nat) (i : Instr)
    (y : YKind) (w : Sync) :
    channelOp s o w op kind i y = .next (s.trap 0x01 (illegalInfo 6 op true)) := by
  rw [channelOp, guarded_of_passes hiss hg, hkind]
  rfl

/-- In either form. -/
theorem illegal_of_notKind {o : OpCh} (hg : s.passes o.g .pk) {kind : Nat} (hkind : k.chanKind o.ch.toNat kind = false) {i : Instr} {i64 : Sync → Instr} {w : Sync}
    (op : Nat) (j : Instr) (y : YKind) (hplain : exec i s = channelOp s o Sync.none op kind j y) (hsync : exec (i64 w) s = channelOp s o w op kind j y) :
    exec i s = .next (s.trap 0x01 (illegalInfo 6 op true)) ∧ exec (i64 w) s = .next (s.trap 0x01 (illegalInfo 6 op true)) :=
  ⟨hplain.trans (channelOp_of_notKind hiss hg hkind op j y _), hsync.trans (channelOp_of_notKind hiss hg hkind op j y w)⟩

theorem chstartOp_of_ring {o : OpCh} {h : Chan} (hh : k.chan? o.ch.toNat = some h) (hg : s.passes o.g .pk) (hkind : h.kind = 3) (w : Sync) :
    chstartOp s o w = .next ((s.yReady k w x).bind fun s _ => s.judgeChstart k n o h w).finish := by
  rw [chstartOp, guarded_of_passes hiss hg]
  simp only [hh, hkind, ne_eq, not_true_eq_false, if_false]
  rfl

theorem exec_chstart_of_ring {o : OpCh} {h : Chan} (hh : k.chan? o.ch.toNat = some h) (hg : s.passes o.g .pk) (hkind : h.kind = 3) :
    exec (.chstart o) s = .next ((s.yReady k Sync.none x).bind fun s _ => s.judgeChstart k n o h Sync.none).finish := chstartOp_of_ring hiss hh hg hkind Sync.none

theorem exec_chstart64_of_ring {o : OpCh} {h : Chan} (hh : k.chan? o.ch.toNat = some h) (hg : s.passes o.g .pk) (hkind : h.kind = 3) (w : Sync) :
    exec (.chstart64 o w) s = .next ((s.yReady k w x).bind fun s _ => s.judgeChstart k n o h w).finish := chstartOp_of_ring hiss hh hg hkind w

theorem chstartOp_of_notRing {o : OpCh} (hg : s.passes o.g .pk) (hkind : ∀ h, k.chan? o.ch.toNat = some h → h.kind ≠ 3) (w : Sync) :
    chstartOp s o w = .next (s.trap 0x01 (illegalInfo 6 0x12 true)) := by
  rw [chstartOp, guarded_of_passes hiss hg]
  cases hh : k.chan? o.ch.toNat with
  | none =>
    simp only [hh]
    rfl
  | some h =>
    simp only [hh, if_pos (hkind h hh)]
    rfl

/-- A CHSTART that the judgement refuses traps in either form, where it may be issued. -/
theorem chstart_traps_of_judged {o : OpCh} {h : Chan} (hh : k.chan? o.ch.toNat = some h) (hg : s.passes o.g .pk) (hkind : h.kind = 3)
    (hroom : ¬16 ≤ (k.ycmds.filter fun y => !y.started).length) {cause : Nat} {info : Word64}
    (hjudge : ∀ w, s.judgeChstart k n o h w = .trap s cause info) (w : Sync) :
    exec (.chstart o) s = .next (s.trap cause info) ∧
      (w.wt = 0 ∨ (k.sem w.ws.toNat).met w.wt.toNat = true → exec (.chstart64 o w) s = .next (s.trap cause info)) :=
  ⟨(exec_of_yReady (exec_chstart_of_ring hiss hh hg hkind) (.inl rfl) hroom).trans (by rw [hjudge, Try.finish_trap]),
    fun hmet => (exec_of_yReady (exec_chstart64_of_ring hiss hh hg hkind w) hmet hroom).trans (by rw [hjudge, Try.finish_trap])⟩

/-- Every channel command that passes its checks. -/
theorem State.yAdmits_of_yBothEnter {f : Guard → Instr → (Sync → Instr) → YKind → Nat → Event → Prop}
    (h : ∀ g i i64 kind delay e, s.YBothEnter k n x g i i64 kind delay e → f g i i64 kind delay e) : s.yAdmits k f := by
  refine ⟨fun o => ?semadd, fun o => ?drain, fun o => ?step, fun o c hc => ⟨fun hkind => ?chsend, fun hkind => ?chrecv, fun hkind => ?chabort,
    fun r hkind hr hfits hahead => ?chstart⟩⟩
  case semadd => exact h _ _ _ _ _ _ (State.yBothEnter_of_op (op := semaddOp s o) (fun hg w => guarded_of_passes hiss hg _) rfl fun _ => rfl)
  case drain => exact h _ _ _ _ _ _ (State.yBothEnter_of_op (op := drainOp s o) (fun hg w => guarded_of_passes hiss hg _) rfl fun _ => rfl)
  case step => exact h _ _ _ _ _ _ (State.yBothEnter_of_op (op := stepOp s o) (fun hg w => guarded_of_passes hiss hg _) rfl fun _ => rfl)
  case chsend =>
    exact h _ _ _ _ _ _ (State.yBothEnter_of_op (fun hg => channelOp_of_passes hiss hc hg hkind 0x10 (.chsend o) (.chsend o.ch.toNat)) rfl fun _ => rfl)
  case chrecv =>
    exact h _ _ _ _ _ _ (State.yBothEnter_of_op (fun hg => channelOp_of_passes hiss hc hg hkind 0x11 (.chrecv o) (.chrecv o.ch.toNat)) rfl fun _ => rfl)
  case chabort =>
    exact h _ _ _ _ _ _ (State.yBothEnter_of_op (fun hg => channelOp_of_passes hiss hc hg hkind 0x13 (.chabort o) (.chabort o.ch.toNat)) rfl fun _ => rfl)
  case chstart =>
    have hjudged : ∀ w, s.judgeChstart k n o c w = .ok (s.enterY (s.issuedY k n (.chstart o) w (.chstart o.ch.toNat)) 0 (.channelCommandStart s.cur))
        (s.enterY (s.issuedY k n (.chstart o) w (.chstart o.ch.toNat)) 0 (.channelCommandStart s.cur)) := fun w => by
      have h3 : k.ringAhead o.ch.toNat c.rst ≠ 3 := by omega
      have h4 : k.ringAhead o.ch.toNat c.rst ≠ 4 := by omega
      simp only [State.judgeChstart, hr, hfits, h3, h4, Bool.not_true, Bool.false_eq_true, if_false]
      rfl
    exact h _ _ _ _ _ _ fun hg => ⟨⟨_, _, exec_chstart_of_ring hiss hc hg hkind, hjudged _⟩,
      fun w => ⟨_, _, exec_chstart64_of_ring hiss hc hg hkind w, hjudged w⟩⟩

end

/-! ## The event of the command -/

/-- A command that has entered an empty queue, with no FENCE of its context and no DRAFTLD in the way, is started by the event. -/
theorem State.issues.yStart_enterY {s : State} {k : Core} {n : Nat} {x : Ctx} (hiss : s.issues k n x) (hcmds : k.ycmds = []) (hfences : x.fences = [])
    (hflows : s.flowsHeld s.cur = false) (j : Instr) (w : Sync) (kind : YKind) (delay : Nat) (e : Event) :
    ({ s.enterY (s.issuedY k n j w kind) delay e with ev := .channelCommandStart s.cur } : State).YStart s.cur (k.enqueueY (s.issuedY k n j w kind))
      (s.issuedY k n j w kind) := by
  obtain ⟨hk, -, hx⟩ := hiss
  have hunfenced : (k.enqueueY (s.issuedY k n j w kind)).fenced n k.nextCmd (YKind.path kind) = false := by
    have hx' : (k.enqueueY (s.issuedY k n j w kind)).ctx? n = some x := hx
    simp [Core.fenced, hx', hfences]
  exact ⟨State.core?_enterY hk _ delay e, rfl, Core.enqueueY_ycmds_of_empty hcmds _, rfl, rfl, rfl,
    State.flowsHeld_updCore hflows fun _ => ⟨rfl, rfl⟩, hunfenced⟩

/-! ## STEP (09 R235, 11 R280) -/

theorem State.dirtyRows_updCore {f : Core → Core} (hf : ∀ k, (f k).stash = k.stash) (s : State) (c d scope : Nat) :
    (s.updCore c f).dirtyRows d scope = s.dirtyRows d scope := by
  unfold State.dirtyRows
  congr 1
  funext q
  by_cases hq : q = c
  · subst hq
    rw [State.core?_updCore_same]
    cases s.core? q <;> simp [hf]
  · rw [State.core?_updCore_ne s f hq]

theorem State.releaseWbs_updCore {f : Core → Core} (hf : ∀ k, (f k).stash = k.stash) (s : State) (c d scope : Nat) :
    (s.updCore c f).releaseWbs d scope = s.releaseWbs d scope := by
  unfold State.releaseWbs
  congr 1
  funext q
  by_cases hq : q = c
  · subst hq
    rw [State.core?_updCore_same]
    cases s.core? q <;> simp [hf]
  · rw [State.core?_updCore_ne s f hq]

namespace State.YStart

variable {s : State} {c : Nat} {k : Core} {y : YCmd} (h : s.YStart c k y) {l : Bool}
include h

/-- A STEP behind no access of its context, with nothing to write back, begins its release half, which is empty. -/
theorem exec_step_of_unreleased (hkind : y.kind = .step l) (hheld : y.held = false) (hrel : y.rel = none)
    (hlive : ((k.live y.ctx).any fun z => decide (z.1 < y.id) && meets z.2 0x3F) = false) (hdirty : s.dirtyRows c (stepScope l) = [])
    (hwbs : s.releaseWbs c (stepScope l) = []) :
    exec .channelCommandStart s =
      .next ((s.updCore c fun k => k.updY y.id fun y => { y with rel := some ⟨[], []⟩ }).postOnce 0 (.channelCommandStart c)) := by
  have hbarriers : k.barriersStarted y.ctx y.id = true := by simp [Core.barriersStarted, h.alone]
  have halone : (k.ycmds.any fun z => YKind.isStep l z.kind && z.ctx == y.ctx && decide (z.id < y.id)) = false := by simp [h.alone]
  have hrelease : s.startRelease c (stepScope l) = (s, ⟨[], []⟩) := by simp [State.startRelease, State.pushRelease, hdirty, hwbs]
  rw [h.exec_eq]
  simp only [State.yTry, h.core, h.free hkind, Bool.and_false, hkind, State.stepOn, h.started, h.arrived, hheld, hbarriers, halone, hrel, hlive, hrelease]
  rfl

/-- One whose release half is complete, with nothing to write back any more, starts and has arrived. -/
theorem exec_step_of_released (hkind : y.kind = .step l) (hheld : y.held = false) (hrel : y.rel = some ⟨[], []⟩) (hdirty : s.dirtyRows c (stepScope l) = [])
    (hwbs : s.releaseWbs c (stepScope l) = []) :
    ∃ t k', exec .channelCommandStart s = .next t ∧ t.core? c = some k' ∧ k'.ycmds = [{ y with started := true, arrived := true, mark := s.nextRow }] := by
  have hbarriers : k.barriersStarted y.ctx y.id = true := by simp [Core.barriersStarted, h.alone]
  have halone : (k.ycmds.any fun z => YKind.isStep l z.kind && z.ctx == y.ctx && decide (z.id < y.id)) = false := by simp [h.alone]
  have hpush : s.pushRelease ⟨[], []⟩ = (s, ⟨[], []⟩) := rfl
  have hreleased : s.released ⟨[], []⟩ = true := rfl
  have hnow : s.releaseNow c (stepScope l) = s := by simp [State.releaseNow, hdirty, hwbs]
  let arrive (k : Core) : Core := k.updY y.id fun y => { y with started := true, arrived := true, mark := s.nextRow }
  have harrived : (s.updCore c arrive).core? c = some (arrive k) := by rw [State.core?_updCore_same, h.core, Option.map_some]
  have htry : s.yTry c y = match k.launch with
      | none => s.updCore c arrive
      | some q => (s.updCore c arrive).postOnce 0 (.stepBarrierOpen q (clusterOf c) l) := by
    simp only [State.yTry, h.core, h.free hkind, Bool.and_false, hkind, State.stepOn, h.started, h.arrived, hheld, hbarriers, halone, hrel, hpush, hreleased, hnow]
    rfl
  refine ⟨_, arrive k, by rw [h.exec_eq, htry], ?_, Core.updY_ycmds_of_single h.alone _⟩
  split
  · exact harrived
  · rw [State.core?_postOnce]
    exact harrived

end State.YStart

end Sys2Proof.Machine
end
section
/-! SUPPORT. What the event of a channel command does where the command has entered an empty queue (09 R216, R217, R222, R226, R235, 11 R274, 18 R495). -/

namespace Sys2Proof.Machine

@[simp] theorem State.enterY_cycle (s : State) (y : YCmd) (delay : Nat) (e : Event) : (s.enterY y delay e).cycle = s.cycle := State.updCore_cycle s s.cur _
@[simp] theorem State.enterY_parts (s : State) (y : YCmd) (delay : Nat) (e : Event) : (s.enterY y delay e).parts = s.parts := State.updCore_parts s s.cur _

/-- A command that sends no rows changes nothing of those that are still to end. -/
theorem State.rowsEnded_enterY {s : State} {k : Core} (hk : s.core? s.cur = some k) {n id : Nat} (hended : s.rowsEnded s.cur n id = true) {y : YCmd}
    (hsends : YKind.sends y.kind = false) (delay : Nat) (e : Event) : (s.enterY y delay e).rowsEnded s.cur n id = true := by
  have hrows : (s.enterY y delay e).rows = s.rows := State.updCore_rows s s.cur _
  simp only [State.rowsEnded, State.openRows, hk, hrows, State.core?_enterY hk, Core.enqueueY, List.all_append, List.all_cons, List.all_nil, hsends, Bool.false_and,
    Bool.not_false, Bool.and_true] at hended ⊢
  exact hended

/-- A STEP that has entered the queue stands behind what its context has going on, and nothing else. -/
theorem Core.live_enqueueY {k : Core} {n id : Nat} (hlive : ∀ z ∈ k.live n, meets z.2 0x3F = false) {y : YCmd} (hpath : YKind.path y.kind = 0) :
    (((k.enqueueY y).live n).any fun z => decide (z.1 < id) && meets z.2 0x3F) = false := by
  rw [List.any_eq_false]
  intro z hz
  have hmeets : meets z.2 0x3F = false := by
    have hmem : z ∈ k.live n ∨ z.2 = YKind.path y.kind := by
      simp only [Core.live, Core.enqueueY, List.filter_append, List.map_append, List.mem_append] at hz ⊢
      have hnew : z ∈ (List.filter (fun c => decide (c.ctx = n)) [y]).map (fun c => (c.id, YKind.path c.kind)) → z.2 = YKind.path y.kind := fun h => by
        obtain ⟨c, hc, rfl⟩ := List.mem_map.1 h
        rw [List.mem_singleton.1 (List.mem_filter.1 hc).1]
      tauto
    obtain h | h := hmem
    · exact hlive z h
    · simp [h, hpath, meets]
  simp [hmeets]

/-- A command that enters the queue does, in either form, what the event that it posts brings about. -/
theorem State.YBothEnter.runs {s : State} {k : Core} {n : Nat} {x : Ctx} {g : Guard} {i : Instr} {i64 : Sync → Instr} {kind : YKind} {delay : Nat} {e : Event}
    (h : s.YBothEnter k n x g i i64 kind delay e) (hcmds : k.ycmds = []) {w : Sync} (hmet : w.wt = 0 ∨ (k.sem w.ws.toNat).met w.wt.toNat = true)
    {effect : Sync → State → Core → Prop}
    (heffect : ∀ j w, ∃ u k', exec (Event.instr e) { s.enterY (s.issuedY k n j w kind) delay e with ev := e } = .next u ∧
      u.core? s.cur = some k' ∧ effect w u k')
    (hg : s.passes g .pk) :
    (∃ t u k', exec i s = .next t ∧ exec (Event.instr e) { t with ev := e } = .next u ∧ u.core? s.cur = some k' ∧ effect Sync.none u k') ∧
      ∃ t u k', exec (i64 w) s = .next t ∧ exec (Event.instr e) { t with ev := e } = .next u ∧ u.core? s.cur = some k' ∧ effect w u k' := by
  have hroom : ¬16 ≤ (k.ycmds.filter fun y => !y.started).length := by simp [hcmds]
  obtain ⟨hplain, hsync⟩ := h hg
  obtain ⟨j, hexec⟩ := hplain.exec_eq (.inl rfl) hroom
  obtain ⟨u, k', hu⟩ := heffect j Sync.none
  obtain ⟨j', hexec'⟩ := (hsync w).exec_eq hmet hroom
  obtain ⟨u', k'', hu'⟩ := heffect j' w
  exact ⟨⟨_, u, k', hexec, hu⟩, ⟨_, u', k'', hexec', hu'⟩⟩

section
variable {s : State} {k : Core} {n : Nat} {x : Ctx} (hiss : s.issues k n x) (hcmds : k.ycmds = [])
include hiss hcmds

/-- SEMADD adds and signals. -/
theorem exec_semaddApply_enterY (o : OpSem) (j : Instr) (w : Sync) (delay : Nat) :
    ∃ u k', exec .semaddApply { s.enterY (s.issuedY k n j w (.semadd o.sem.toNat o.imm.toNat)) delay (.semaddApply s.cur k.nextCmd) with
        ev := .semaddApply s.cur k.nextCmd } = .next u ∧ u.core? s.cur = some k' ∧ k'.ycmds = [] ∧
      (o.imm.toNat + (if w.ss = o.sem then w.si.toNat else 0) ≠ 0 →
        k'.sem o.sem.toNat = (k.sem o.sem.toNat).signal (o.imm.toNat + if w.ss = o.sem then w.si.toNat else 0)) ∧
      (w.ss ≠ o.sem → w.si ≠ 0 → k'.sem w.ss.toNat = (k.sem w.ss.toNat).signal w.si.toNat) := by
  obtain ⟨hk, -, -⟩ := hiss
  let y := s.issuedY k n j w (.semadd o.sem.toNat o.imm.toNat)
  obtain ⟨u, k', hexec, hk', hadded⟩ := execSemaddApply_single
    (s := { s.enterY y delay (.semaddApply s.cur k.nextCmd) with ev := .semaddApply s.cur k.nextCmd })
    (State.core?_enterY hk y delay (.semaddApply s.cur k.nextCmd)) rfl (Core.enqueueY_ycmds_of_empty hcmds y) rfl
  have hsum : y.added o.sem.toNat o.imm.toNat = o.imm.toNat + if w.ss = o.sem then w.si.toNat else 0 := by
    simp only [YCmd.added, BitVec.toNat_inj, y, State.issuedY]
  refine ⟨u, k', hexec, hk', hadded.ycmds, ?_, fun hss hsi => ?_⟩
  · rw [← hsum]
    exact hadded.value
  · exact hadded.signals (fun h => hss (BitVec.eq_of_toNat_eq h)) hsi

/-- DRAIN signals, where every earlier row has ended. -/
theorem exec_drainStart_enterY (hended : s.rowsEnded s.cur n k.nextCmd = true) (j : Instr) (w : Sync) (delay : Nat) :
    ∃ u k', exec .drainStart { s.enterY (s.issuedY k n j w .drain) delay (.drainStart s.cur k.nextCmd) with ev := .drainStart s.cur k.nextCmd } = .next u ∧
      u.core? s.cur = some k' ∧ k'.ycmds = [] ∧
      (w.si ≠ 0 → k'.sem w.ss.toNat = if x.lost then { k.sem w.ss.toNat with err := true } else (k.sem w.ss.toNat).signal w.si.toNat) := by
  obtain ⟨hk, -, hx⟩ := hiss
  exact execDrainStart_single (s := { s.enterY (s.issuedY k n j w .drain) delay (.drainStart s.cur k.nextCmd) with ev := .drainStart s.cur k.nextCmd })
    (State.core?_enterY hk _ delay (.drainStart s.cur k.nextCmd)) rfl (Core.enqueueY_ycmds_of_empty hcmds _) rfl
    (State.rowsEnded_enterY hk hended rfl delay (.drainStart s.cur k.nextCmd)) hx

variable (hfences : x.fences = []) (hflows : s.flowsHeld s.cur = false)
include hfences hflows

/-- STEP, with no earlier access of its context going on and nothing to write back, starts and has arrived. -/
theorem exec_step_enterY {l : Bool} (hlive : ∀ z ∈ k.live n, meets z.2 0x3F = false) (hdirty : s.dirtyRows s.cur (stepScope l) = [])
    (hwbs : s.releaseWbs s.cur (stepScope l) = []) (j : Instr) (w : Sync) :
    ∃ u v k' y, exec .channelCommandStart
        { s.enterY (s.issuedY k n j w (.step l)) 0 (.channelCommandStart s.cur) with ev := .channelCommandStart s.cur } = .next u ∧
      (s.cycle, Event.channelCommandStart s.cur) ∈ u.agenda ∧ exec .channelCommandStart { u with ev := .channelCommandStart s.cur } = .next v ∧
      v.core? s.cur = some k' ∧ k'.ycmds = [y] ∧ y.id = k.nextCmd ∧ y.ctx = n ∧ y.kind = .step l ∧ y.sync = w ∧ y.started = true ∧ y.arrived = true := by
  let y := s.issuedY k n j w (.step l)
  let t : State := { s.enterY y 0 (.channelCommandStart s.cur) with ev := .channelCommandStart s.cur }
  let begun (k : Core) : Core := k.updY y.id fun y => { y with rel := some ⟨[], []⟩ }
  let u : State := (t.updCore s.cur begun).postOnce 0 (.channelCommandStart s.cur)
  have ht : t.YStart s.cur (k.enqueueY y) y := hiss.yStart_enterY hcmds hfences hflows j w _ 0 _
  have hdirtyT : t.dirtyRows s.cur (stepScope l) = [] := (State.dirtyRows_updCore (f := fun k => k.enqueueY y) (fun _ => rfl) s _ _ _).trans hdirty
  have hwbsT : t.releaseWbs s.cur (stepScope l) = [] := (State.releaseWbs_updCore (f := fun k => k.enqueueY y) (fun _ => rfl) s _ _ _).trans hwbs
  have hfirst : exec .channelCommandStart t = .next u := ht.exec_step_of_unreleased rfl rfl rfl (Core.live_enqueueY (y := y) hlive rfl) hdirtyT hwbsT
  have hcycle : (t.updCore s.cur begun).cycle = s.cycle := by rw [State.updCore_cycle]; exact State.enterY_cycle s y 0 (.channelCommandStart s.cur)
  have hu : ({ u with ev := .channelCommandStart s.cur } : State).YStart s.cur (begun (k.enqueueY y)) { y with rel := some ⟨[], []⟩ } := {
    core := by
      have hcore : u.core? s.cur = some (begun (k.enqueueY y)) := by
        rw [State.core?_postOnce, State.core?_updCore_same, ht.core, Option.map_some]
      exact hcore
    ev := rfl
    alone := Core.updY_ycmds_of_single ht.alone _
    started := rfl
    arrived := rfl
    faulted := rfl
    flows := (State.flowsHeld_postOnce _ 0 _ _).trans (State.flowsHeld_updCore ht.flows fun _ => ⟨rfl, rfl⟩)
    unfenced := ht.unfenced }
  have hstash : ∀ k : Core, (begun k).stash = k.stash := fun _ => rfl
  have hcores : u.cores = (t.updCore s.cur begun).cores := State.postOnce_cores ..
  have hdirtyU : u.dirtyRows s.cur (stepScope l) = [] := by
    rw [State.dirtyRows]
    simp only [State.core?, hcores]
    exact (State.dirtyRows_updCore hstash t s.cur s.cur _).trans hdirtyT
  have hwbsU : u.releaseWbs s.cur (stepScope l) = [] := by
    rw [State.releaseWbs]
    simp only [State.core?, hcores]
    exact (State.releaseWbs_updCore hstash t s.cur s.cur _).trans hwbsT
  obtain ⟨v, k', hexec, hk', hy'⟩ := hu.exec_step_of_released rfl rfl rfl hdirtyU hwbsU
  exact ⟨u, v, k', _, hfirst, hcycle ▸ State.mem_postOnce (t.updCore s.cur begun) 0 (.channelCommandStart s.cur),
    hexec, hk', hy', rfl, rfl, rfl, rfl, rfl, rfl⟩

end

/-! ## The obligation -/

/-- Settles O40: what a command that has passed its checks does is its issue (`yAdmits_of_yBothEnter`); where it is alone and nothing holds it,
the event of its issue does its work, as in O42 and O47. -/
theorem channelCommandsAreQueued : Obligations.ChannelCommandsAreQueued := by
  unfold Obligations.ChannelCommandsAreQueued
  refine ⟨?start, ?issue⟩
  case start =>
    intro s k n x w hiss hcmds hfences hflows hmet runs both start atWork
    have ⟨hk, _, _⟩ := hiss
    have hroom : ¬16 ≤ (k.ycmds.filter fun y => !y.started).length := by simp [hcmds]
    have hstart : ∀ j w kind delay e, ({ s.enterY (s.issuedY k n j w kind) delay e with ev := .channelCommandStart s.cur } : State).YStart s.cur _ _ :=
      fun j w kind delay e => hiss.yStart_enterY hcmds hfences hflows j w kind delay e
    have does : ∀ {g i i64 kind delay e} {effect : Sync → State → Core → Prop}, s.YBothEnter k n x g i i64 kind delay e →
        (∀ j w, ∃ u k', exec (Event.instr e) { s.enterY (s.issuedY k n j w kind) delay e with ev := e } = .next u ∧ u.core? s.cur = some k' ∧
          effect w u k') → both g i i64 e effect := fun h heffect => h.runs hcmds hmet heffect
    clear_value both
    obtain ⟨hsemadd, hdrain, hstep, hchan⟩ : s.yAdmits k (s.YBothEnter k n x) := State.yAdmits_of_yBothEnter hiss fun _ _ _ _ _ _ h => h
    refine ⟨fun o => does (hsemadd o) fun j w => exec_semaddApply_enterY hiss hcmds o j w 1,
      fun o hended => does (hdrain o) fun j w => exec_drainStart_enterY hiss hcmds hended j w 0, fun o hg hlive hdirty hwbs => ?step, fun o h hh => ?chan⟩
    case step =>
      intro arrives
      have arrived : ∀ {i w}, s.YEnters k n x i w (.step o.launch) 0 start → (w.wt = 0 ∨ (k.sem w.ws.toNat).met w.wt.toNat = true) →
          arrives i w := fun {_ w} h hmet => by
        obtain ⟨j, hexec⟩ := h.exec_eq hmet hroom
        obtain ⟨u, v, k', y, hfirst, hdue, hsecond, hk', hy, hid, hctx, hkind, hw, hstarted, harrived⟩ :=
          exec_step_enterY hiss hcmds hfences hflows hlive hdirty hwbs j w
        refine ⟨_, u, v, k', hexec, hfirst, hdue, hsecond, hk', ⟨y, hy, hid, hctx, hkind, hw, hstarted⟩, fun z hz => ?_⟩
        rw [hy] at hz
        rwa [List.mem_singleton.1 hz]
      obtain ⟨hplain, hsync⟩ := hstep o hg
      exact ⟨arrived hplain (.inl rfl), arrived (hsync w) hmet⟩
    case chan =>
      intro ch
      obtain ⟨hchsend, hchrecv, hchabort, hchstart⟩ := hchan o h hh
      refine ⟨fun hkind => ?chrecv, fun hkind => ?chabort,
        fun r hkind hrst hr hfits => ?chstart, fun hkind hcred hg => ?chsend⟩
      case chrecv =>
        refine does (hchrecv hkind) fun j w => ?_
        obtain ⟨u, k', hexec, hk', hy, hdue⟩ := (hstart j w _ 0 start).exec_chrecv hh rfl
        exact ⟨u, k', hexec, hk', ⟨_, hy, rfl, rfl, rfl, rfl, rfl⟩, by simpa using hdue⟩
      case chabort =>
        refine does (hchabort hkind) fun j w => ?_
        obtain ⟨u, k', h', hexec, hk', hy, hh', hrst', -⟩ := (hstart j w _ 0 start).exec_chabort hh rfl hkind
        exact ⟨u, k', hexec, hk', hy, h', hh', hrst'⟩
      case chstart =>
        have hahead : k.ringAhead ch h.rst < 3 := by simp [Core.ringAhead, hcmds, hrst]
        refine does (hchstart r hkind hr hfits hahead) fun j w => ?_
        have hring : (s.enterY (s.issuedY k n j w (.chstart ch)) 0 start).ringOf s.cur h = some r := (State.ringOf_congr (State.enterY_parts ..) s.cur h).trans hr
        obtain ⟨u, k', h', g, hexec, hk', hy, hh', hrst', hinst, hrun, hid, -, hctx, hw, hstarted, hn, -, hlen⟩ :=
          (hstart j w _ 0 start).exec_chstart_of_idle hh rfl hrst hring
        exact ⟨u, k', hexec, hk', hy, h', g, hh', hrst', hinst, hrun, hid, hctx, hw, hn, hlen, hstarted⟩
      case chsend =>
        intro sends
        have sent : ∀ {i w}, s.YEnters k n x i w (.chsend ch) 0 start → (w.wt = 0 ∨ (k.sem w.ws.toNat).met w.wt.toNat = true) →
            sends i := fun {_ w} henters hmet => by
          obtain ⟨j, hexec⟩ := henters.exec_eq hmet hroom
          exact ⟨_, hexec, fun s1 k1 h1 ws hread hk1 hh1 => (hstart j w _ 0 start).exec_chsend_of_credit hh rfl hcred hread hk1 hh1⟩
        obtain ⟨hplain, hsync⟩ := hchsend hkind hg
        exact ⟨sent hplain (.inl rfl), sent (hsync w) hmet⟩
  case issue =>
    intro s k n x w hiss met full queued illegal
    have ⟨hk, _, hx⟩ := hiss
    have enters : ∀ {i w kind delay e}, s.YEnters k n x i w kind delay e → (w.wt = 0 ∨ (k.sem w.ws.toNat).met w.wt.toNat = true) → ¬full →
        queued i w kind delay e := fun {_ w kind delay e} h hmet hroom => by
      obtain ⟨j, hexec⟩ := h.exec_eq hmet hroom
      exact ⟨_, _, s.issuedY k n j w kind, hexec, State.core?_enterY hk _ delay e, rfl, rfl, rfl, rfl, rfl, rfl, rfl, rfl, hx, State.enterY_due s _ delay e⟩
    refine ⟨State.yAdmits_of_yBothEnter hiss fun g i i64 kind delay e h hg => ?admitted, fun o hh hg => ?noChannel, fun o h hh hg => ?channel⟩
    case admitted =>
      obtain ⟨hplain, hsync⟩ := h hg
      exact ⟨fun hroom => ⟨enters hplain (.inl rfl) hroom, fun hmet => enters (hsync w) hmet hroom⟩, fun hmet hsat => (hsync w).blocks hiss hmet hsat,
        fun hfull => ⟨hplain.stalls (.inl rfl) hfull, fun hmet => (hsync w).stalls hmet hfull⟩⟩
    case noChannel =>
      have hnone : ∀ kind, k.chanKind o.ch.toNat kind = false := fun kind => by simp [Core.chanKind, hh]
      have hnoRing : ∀ h, k.chan? o.ch.toNat = some h → h.kind ≠ 3 := fun h hh' => by simp [hh] at hh'
      obtain ⟨hsend, hsend64⟩ := illegal_of_notKind hiss hg (hnone 1) (i := .chsend o) (i64 := .chsend64 o) 0x10 (.chsend o) (.chsend o.ch.toNat) rfl rfl
      obtain ⟨hrecv, hrecv64⟩ := illegal_of_notKind hiss hg (hnone 2) (i := .chrecv o) (i64 := .chrecv64 o) 0x11 (.chrecv o) (.chrecv o.ch.toNat) rfl rfl
      obtain ⟨habort, habort64⟩ := illegal_of_notKind hiss hg (hnone 3) (i := .chabort o) (i64 := .chabort64 o) 0x13 (.chabort o) (.chabort o.ch.toNat) rfl rfl
      exact ⟨hsend, hsend64, hrecv, hrecv64, chstartOp_of_notRing hiss hg hnoRing _, chstartOp_of_notRing hiss hg hnoRing w, habort, habort64⟩
    case channel =>
      have hother : ∀ kind, h.kind ≠ kind → k.chanKind o.ch.toNat kind = false := fun kind hne => by simp [Core.chanKind_of_chan? hh, hne]
      have hnoRing : h.kind ≠ 3 → ∀ h', k.chan? o.ch.toNat = some h' → h'.kind ≠ 3 := fun hne h' hh' => by
        obtain rfl : h = h' := Option.some.inj (hh.symm.trans hh')
        exact hne
      refine ⟨fun hne => illegal_of_notKind hiss hg (hother 1 hne) 0x10 (.chsend o) (.chsend o.ch.toNat) rfl rfl,
        fun hne => illegal_of_notKind hiss hg (hother 2 hne) 0x11 (.chrecv o) (.chrecv o.ch.toNat) rfl rfl,
        fun hne => illegal_of_notKind hiss hg (hother 3 hne) 0x13 (.chabort o) (.chabort o.ch.toNat) rfl rfl,
        fun hne => ⟨chstartOp_of_notRing hiss hg (hnoRing hne) _, chstartOp_of_notRing hiss hg (hnoRing hne) w⟩, fun hkind => ?ring⟩
      case ring =>
        intro ch traps ill
        have hplain := exec_chstart_of_ring hiss hh hg hkind
        have hsync := exec_chstart64_of_ring hiss hh hg hkind w
        have judged : ∀ {cause info}, ¬full → (∀ w, s.judgeChstart k n o h w = .trap s cause info) → traps cause info := fun hroom hjudge =>
          chstart_traps_of_judged hiss hh hg hkind hroom hjudge w
        exact ⟨fun hmet hsat => blocks_of_yReady hiss hsync hmet hsat,
          fun hfull => ⟨stalls_of_yReady hplain (.inl rfl) hfull, fun hmet => stalls_of_yReady hsync hmet hfull⟩,
          fun hroom hr => judged hroom fun w => State.judgeChstart_of_noRing n w k hr,
          fun r hroom hr => ⟨fun hfits => judged hroom fun w => State.judgeChstart_of_unfit n w hr k hfits, fun hfits =>
            ⟨fun hahead => judged hroom fun w => State.judgeChstart_of_busy n w hr hfits hahead,
              fun hahead => judged hroom fun w => State.judgeChstart_of_aborted n w hr hfits hahead⟩⟩⟩

end Sys2Proof.Machine
end
section
/-! SUPPORT. The commit of rings and what comes at a link port (09 R219, R227, R229 to R231, 13 R312). -/

namespace Sys2Proof.Machine

/-! ## Commits (09 R219, R227) -/

theorem getLsbD_setBits_ne {w : Nat} (v : BitVec w) {i j : Nat} (h : i ≠ j) (x : Nat) : (setBits v j 1 x).getLsbD i = v.getLsbD i := by
  have hbit : ∀ a : Nat, a < 2 → (BitVec.ofNat w a <<< j).getLsbD i = false := fun a ha => by
    rw [BitVec.getLsbD_shiftLeft, BitVec.getLsbD_ofNat]
    obtain hlt | hle := Nat.lt_or_ge i j
    · simp [hlt]
    · have hzero : a.testBit (i - j) = false := Nat.testBit_lt_two_pow (Nat.lt_of_lt_of_le ha (Nat.le_self_pow (by omega) 2))
      simp [hzero]
  by_cases hi : i < w
  · have hmask := hbit 1 (by omega)
    have hvalue := hbit (x % 2) (by omega)
    simp only [setBits, BitVec.getLsbD_or, BitVec.getLsbD_and, BitVec.getLsbD_not, hi, decide_true, Bool.true_and]
    norm_num [hmask, hvalue]
  · rw [BitVec.getLsbD_of_ge _ _ (by omega), BitVec.getLsbD_of_ge _ _ (by omega)]

/-- The commit of one ring: its channels are aborted, and its reread is due (09 R227). -/
def State.commitRing (p : Nat) (s : State) (n : Nat) : State :=
  ((s.forEach (s.ringChans p n) fun s x => s.abortRing x.1 x.2.1 true).updPart p fun q => { q with commits := setBits q.commits n 1 1 }).post 0
    (.ringCommitReread p n)

/-- From `s` to `t` the commits of some rings have come: they wait in the partition, besides those that waited, and their rereads are due. -/
structure State.Commits (s t : State) (p : Nat) (q : Part) (rings : List Nat) : Prop where
  cycle : t.cycle = s.cycle
  part : ∃ q', t.part? p = some q' ∧ ∀ i < 16, q'.commits.getLsbD i = (q.commits.getLsbD i || decide (i ∈ rings))
  due : ∀ n ∈ rings, (s.cycle, Event.ringCommitReread p n) ∈ t.agenda

theorem State.Commits.commitRing {s t : State} {p : Nat} {q : Part} {rings : List Nat} (h : s.Commits t p q rings) {n : Nat} (hn : n < 16) :
    s.Commits (t.commitRing p n) p q (rings ++ [n]) := by
  let u : State := t.forEach (t.ringChans p n) fun s x => s.abortRing x.1 x.2.1 true
  have hgrows : t.Grows u := .forEach (fun s (x : Nat × Nat × Chan) => .abortRing s x.1 x.2.1 true) _ t
  let v : State := u.updPart p fun q => { q with commits := setBits q.commits n 1 1 }
  have hcycle : v.cycle = s.cycle := (State.updPart_cycle u p _).trans (hgrows.cycle.trans h.cycle)
  obtain ⟨q1, hq1, hcommits⟩ := h.part
  obtain ⟨q2, hq2, hsame⟩ := hgrows.parts p q1 hq1
  refine ⟨hcycle, ⟨{ q2 with commits := setBits q2.commits n 1 1 }, ?_, fun i hi => ?_⟩, fun m hm => ?_⟩
  · exact (State.part?_updPart_same u p _).trans (congrArg _ hq2)
  · by_cases hin : i = n
    · subst hin
      rw [getLsbD_setBits_one _ hn]
      simp
    · rw [getLsbD_setBits_ne _ hin, hsame.commits, hcommits i hi]
      simp [hin]
  · obtain hm | hm := List.mem_append.1 hm
    · refine State.mem_post_of_mem (s := v) 0 _ ?_
      rw [State.updPart_agenda]
      exact hgrows.agenda _ (h.due m hm)
    · rw [List.mem_singleton.1 hm, ← hcycle]
      exact State.mem_post v 0 (.ringCommitReread p n)

theorem State.Commits.forEach {s : State} {p : Nat} {q : Part} : ∀ (l : List Nat), (∀ n ∈ l, n < 16) → ∀ {t : State} {rings : List Nat},
    s.Commits t p q rings → s.Commits (t.forEach l (State.commitRing p)) p q (rings ++ l)
  | [], _, _, rings, h => by rwa [List.append_nil]
  | n :: l, hl, t, rings, h => by
    have hrest := State.Commits.forEach l (fun m hm => hl m (List.mem_cons_of_mem _ hm)) (h.commitRing (hl n List.mem_cons_self))
    rwa [List.append_assoc, List.singleton_append] at hrest

/-- A commit takes its rings. -/
theorem execRingCommit_takes {s : State} {p : Nat} {q : Part} {rings : BitVec 16} (hev : s.ev = .ringCommit p rings) (hq : s.part? p = some q) :
    ∃ t q', exec .ringCommit s = .next t ∧ t.part? p = some q' ∧ q'.commits = q.commits ||| rings ∧
      ∀ n < 16, rings.getLsbD n = true → (s.cycle, Event.ringCommitReread p n) ∈ t.agenda := by
  let l := (List.range 16).filter fun n => rings.getLsbD n
  have hl : ∀ n, n ∈ l ↔ n < 16 ∧ rings.getLsbD n = true := fun n => by simp [l]
  have hstart : s.Commits s p q [] := ⟨rfl, ⟨q, hq, fun i _ => by simp⟩, fun _ hn => absurd hn List.not_mem_nil⟩
  obtain ⟨-, ⟨q', hq', hcommits⟩, hdue⟩ := State.Commits.forEach l (fun n hn => ((hl n).1 hn).1) hstart
  refine ⟨s.forEach l (State.commitRing p), q', ?_, hq', ?_, fun n hn hring => hdue n ((hl n).2 ⟨hn, hring⟩)⟩
  · change execRingCommit s = _
    simp only [execRingCommit, hev]
    rfl
  · refine BitVec.eq_of_getLsbD_eq fun i hi => ?_
    have htaken : decide (i ∈ [] ++ l) = rings.getLsbD i := by rw [Bool.eq_iff_iff, decide_eq_true_iff, List.nil_append, hl i, and_iff_right hi]
    rw [hcommits i hi, htaken, BitVec.getLsbD_or]

theorem State.Grows.readRing (s : State) (p n : Nat) : s.Grows (s.readRing p n).1 := by
  unfold State.readRing
  split
  · exact refl s
  · dsimp only
    split
    · exact refl s
    · split
      · next heq => exact (translateHome s _ _ _).fst heq
      · next heq => exact ((translateHome s _ _ _).fst heq).trans (homeRead _ _ _ _)

/-- A reread: what it leaves behind once the record has been read. -/
def State.rereadRing (s : State) (p n : Nat) (g : Option Ring) : State :=
  let chans := s.ringChans p n
  let flows := chans.filterMap fun x => (s.ringOf x.1 x.2.2).map fun g => (g.uport, BitVec.ofNat 12 x.2.2.flow)
  let s := s.forEach (List.range 18) fun s i => s.updPort i fun r => { r with early := r.early.filter fun x => !flows.contains (x.1, x.2.flow) }
  let s := s.forEach chans fun s x => s.updChan x.1 x.2.1 fun h => { h with rst := 1, inst := 0, fwd := [] }
  let s := s.updPart p fun q => { q with rings := Tab.set none q.rings n g, badRings := setBits q.badRings n 1 (bitN g.isNone), commits := setBits q.commits n 1 0 }
  s.settleRings

theorem State.part?_rereadRing {s : State} {p : Nat} {q : Part} (hq : s.part? p = some q) (n : Nat) (g : Ring) :
    ∃ q', (s.rereadRing p n (some g)).part? p = some q' ∧ Tab.get none q'.rings n = some g ∧ q'.badRings.getLsbD n = false ∧
      q'.commits.getLsbD n = false := by
  unfold State.rereadRing
  extract_lets chans flows s1 s2 s3
  have hgrows : s.Grows s2 := (Grows.forEach (fun s i => .updPort s i _) _ s).trans (.forEach (fun s (x : Nat × Nat × Chan) => .updCore s x.1 _) _ s1)
  obtain ⟨q2, hq2, -⟩ := hgrows.parts p q hq
  have hq3 : s3.part? p = some { q2 with
      rings := Tab.set none q2.rings n (some g), badRings := setBits q2.badRings n 1 0, commits := setBits q2.commits n 1 0 } :=
    (State.part?_updPart_same s2 p _).trans (congrArg _ hq2)
  obtain ⟨q', hq', hsame⟩ := (RingsMove.settleRings s3).grows.parts p _ hq3
  exact ⟨q', hq', by rw [hsame.rings]; exact Tab.get_set_some _ _ _, by rw [hsame.badRings]; exact getLsbD_setBits_zero _ _,
    by rw [hsame.commits]; exact getLsbD_setBits_zero _ _⟩

/-- Once no channel of a ring that a commit took is left, its record is read anew. -/
theorem execRingCommitReread_reads {s s1 : State} {p n : Nat} {q : Part} {g : Ring} (hev : s.ev = .ringCommitReread p n) (hq : s.part? p = some q)
    (hcommit : q.commits.getLsbD n = true) (hchans : s.ringChans p n = []) (hread : s.readRing p n = (s1, some g)) :
    ∃ t q', exec .ringCommitReread s = .next t ∧ t.part? p = some q' ∧ Tab.get none q'.rings n = some g ∧ q'.badRings.getLsbD n = false ∧
      q'.commits.getLsbD n = false := by
  obtain ⟨q1, hq1, -⟩ := ((State.Grows.readRing s p n).fst hread).parts p q hq
  obtain ⟨q', hq', hring⟩ := State.part?_rereadRing hq1 n g
  refine ⟨s1.rereadRing p n (some g), q', ?_, hq', hring⟩
  change execRingCommitReread s = _
  simp only [execRingCommitReread, hev, hq, hcommit, hchans, State.forEach, List.foldl_nil, hread]
  rfl

/-! ## Links (09 R229 to R231, 13 R312) -/

theorem State.port?_congr {s t : State} (h : t.ports = s.ports) (n : Nat) : t.port? n = s.port? n := by rw [State.port?, h, State.port?]

theorem State.launch?_congr {s t : State} (h : t.launches = s.launches) (m : Nat) : t.launch? m = s.launch? m := by rw [State.launch?, h, State.launch?]

theorem State.port?_updPort {s : State} {n : Nat} {l : Port} (hl : s.port? n = some l) (f : Port → Port) : (s.updPort n f).port? n = some (f l) := by
  rw [State.port?_updPort_same, hl, Option.map_some]

/-- An enabled link comes up with the lanes it trained, once its keys are in place. -/
theorem execLinkTraining_of_enabled {s : State} {n : Nat} {lanes : BitVec 4} {ts keyed : Bool} {l : Port} (hev : s.ev = .linkTraining n lanes ts keyed)
    (hl : s.port? n = some l) (hen : s.module.fuses.lpen.getLsbD n = true) (hboot : s.module.booterr = 0) :
    ∃ t l', exec .linkTraining s = .next t ∧ t.port? n = some l' ∧ l'.up = keyed ∧ l'.lanes = lanes ∧ l'.bpart = l.bpart ∧
      l'.sent = (if keyed then l.sent.map fun x => { x with given := true } else l.sent) ∧ l'.retrain = (if l.again then satInc16 l.retrain 1 else l.retrain) ∧
      (keyed = true → l'.key = s.module.nextKey ∧ t.module.nextKey = s.module.nextKey + 1) := by
  let trained (q : Port) : Port := { q with
    up := keyed, lanes := lanes, tsync := ts, retrain := if l.again then satInc16 q.retrain 1 else q.retrain, again := true
    key := if keyed then s.module.nextKey else q.key, authFails := 0
    sent := if keyed then q.sent.map fun x => { x with given := true } else q.sent }
  let s1 : State := s.updPort n trained
  let s2 : State := { s1 with module := { s1.module with nextKey := if keyed then s1.module.nextKey + 1 else s1.module.nextKey } }
  let give (s : State) (x : LinkPacket) : State := if x.given || !keyed then s else s.emit (.link n x.pkt)
  have hport : s2.port? n = some (trained l) := State.port?_updPort hl trained
  have hgive : ∀ (t : State) (x : LinkPacket), t.port? n = some (trained l) ∧ t.module = s2.module →
      (give t x).port? n = some (trained l) ∧ (give t x).module = s2.module := fun t x ht => by
    simp only [give]
    split <;> exact ht
  obtain ⟨hport', hmodule⟩ := State.forEach_keeps _ hgive l.sent s2 ⟨hport, rfl⟩
  refine ⟨s2.forEach l.sent give, trained l, ?_, hport', rfl, rfl, rfl, rfl, rfl, fun hkeyed => ⟨if_pos hkeyed, ?_⟩⟩
  · have hruns : (!s.module.fuses.lpen.getLsbD n || decide (s.module.booterr ≠ 0)) = false := by simp [hen, hboot]
    change execLinkTraining s = _
    simp only [execLinkTraining, hev, hl, hruns]
    rfl
  · rw [hmodule]
    simp [s2, s1, hkeyed]

/-- No other trains (14 R326). -/
theorem execLinkTraining_of_disabled {s : State} {n : Nat} {lanes : BitVec 4} {ts keyed : Bool} {l : Port} (hev : s.ev = .linkTraining n lanes ts keyed)
    (hl : s.port? n = some l) (hoff : s.module.fuses.lpen.getLsbD n = false ∨ s.module.booterr ≠ 0) : exec .linkTraining s = .next s := by
  have hstays : (!s.module.fuses.lpen.getLsbD n || decide (s.module.booterr ≠ 0)) = true := by
    obtain hoff | hboot := hoff <;> simp [*]
  change execLinkTraining s = _
  simp only [execLinkTraining, hev, hl, hstays]
  rfl

section
variable {s : State} {n : Nat} {a : LinkArrival} {l : Port} (hev : s.ev = .linkPacketArrival n a) (hl : s.port? n = some l)
include hev hl

/-- A disabled port takes nothing (01 R18). -/
theorem execLinkPacketArrival_of_disabled (hoff : s.module.fuses.lpen.getLsbD n = false) : exec .linkPacketArrival s = .next s := by
  change execLinkPacketArrival s = _
  simp only [execLinkPacketArrival, hev, hl, hoff]
  rfl

variable (hen : s.module.fuses.lpen.getLsbD n = true)
include hen

/-- An acknowledgement ends the oldest packet (09 R231). -/
theorem execLinkPacketArrival_ack (ha : a = .ack) :
    ∃ t l', exec .linkPacketArrival s = .next t ∧ t.port? n = some l' ∧ l' = { l with sent := l.sent.drop 1, authFails := 0 } := by
  subst ha
  let good : State := s.updPort n fun q => { q with authFails := 0 }
  let t : State := good.updPort n fun q => { q with sent := q.sent.drop 1 }
  have ht : t.port? n = some { l with sent := l.sent.drop 1, authFails := 0 } := State.port?_updPort (State.port?_updPort hl _) _
  let told : State := match l.sent.head?.bind (·.launch) with
    | none => t
    | some m => t.postOnce 0 (.launchCompletion m)
  have htold : told.ports = t.ports := by
    simp only [told]
    split
    · rfl
    · exact State.postOnce_ports t _ _
  refine ⟨told, _, ?_, (State.port?_congr htold n).trans ht, rfl⟩
  change execLinkPacketArrival s = _
  simp only [execLinkPacketArrival, hev, hl, hen]
  rfl

/-- A flit that fails authentication counts; the 16th in a row takes the link down for a retraining with new keys (13 R312). -/
theorem execLinkPacketArrival_authFails (ha : a = .authFails) :
    ∃ t l', exec .linkPacketArrival s = .next t ∧ t.port? n = some l' ∧ l'.sent = l.sent ∧
      (l.authFails + 1 < 16 → l'.authFails = l.authFails + 1 ∧ l'.up = l.up) ∧
      (16 ≤ l.authFails + 1 → l'.authFails = 0 ∧ l'.up = false ∧ l'.retrain = satInc16 l.retrain 1 ∧ l'.key = s.module.nextKey) := by
  subst ha
  change ∃ t l', execLinkPacketArrival s = .next t ∧ _
  simp only [execLinkPacketArrival, hev, hl, hen]
  by_cases hcount : l.authFails + 1 < 16
  · rw [if_pos hcount]
    exact ⟨_, _, rfl, State.port?_updPort hl _, rfl, fun _ => ⟨rfl, rfl⟩, fun h => by omega⟩
  · rw [if_neg hcount]
    let t : State := s.updPort n fun q => { q with authFails := 0, up := false, again := false, retrain := satInc16 q.retrain 1, key := s.module.nextKey }
    have ht := State.port?_updPort hl fun q => { q with authFails := 0, up := false, again := false, retrain := satInc16 q.retrain 1, key := s.module.nextKey }
    exact ⟨{ t with module := { t.module with nextKey := t.module.nextKey + 1 } }, _, rfl, ht, rfl, fun h => absurd h hcount, fun _ => ⟨rfl, rfl, rfl, rfl⟩⟩

/-- A packet comes in under the partition of its port (09 R230). -/
theorem execLinkPacketArrival_packet {p : Packet} (ha : a = .packet p) (hflows : s.flowsHeld (portRouter n) = false) :
    ∃ t p', exec .linkPacketArrival s = .next t ∧ (s.cycle, Event.packetArrival (portRouter n) 4 p') ∈ t.agenda ∧ p'.part = l.bpart ∧ p'.srck = 1 ∧
      p'.src.toNat = n % 512 ∧ p'.flow.toNat = bitsOf p.daddr 0 12 ∧ p'.words = p.words := by
  subst ha
  let good : State := s.updPort n fun q => { q with authFails := 0 }
  let p' : Packet := { p with
    part := l.bpart, src := BitVec.ofNat 9 n, srck := 1, xt := false, flow := BitVec.ofNat 12 (bitsOf p.daddr 0 12), rows := [] }
  have hheld : good.flowsHeld (portRouter n) = false := by
    have hcores : good.cores = s.cores := State.updPort_cores s n _
    simpa only [State.flowsHeld, State.core?, hcores] using hflows
  have hflow : bitsOf p.daddr 0 12 < 2 ^ 12 := Nat.mod_lt _ (by norm_num)
  refine ⟨good.post 0 (.packetArrival (portRouter n) 4 p'), p', ?_, ?_, rfl, rfl, BitVec.toNat_ofNat n 9, ?_, rfl⟩
  · change execLinkPacketArrival s = _
    simp only [execLinkPacketArrival, hev, hl, hen]
    rw [if_neg (by simp), if_neg (by rw [hheld]; exact Bool.false_ne_true)]
  · have hdue := State.mem_post good 0 (.packetArrival (portRouter n) 4 p')
    rwa [State.updPort_cycle] at hdue
  · rw [BitVec.toNat_ofNat, Nat.mod_eq_of_lt hflow]

end

/-! ## Time-outs (09 R231) -/

theorem State.notice_ports_launches (s : State) (p cause : Nat) (info : Word64) :
    (s.notice p cause info).ports = s.ports ∧ (s.notice p cause info).launches = s.launches := by
  unfold State.notice State.wakeControl
  split <;> simp

/-- A launch loses a packet. -/
def State.loseRemote (s : State) (m : Nat) : State := (s.updLaunch m fun q => { q with remote := true }).postOnce 0 (.launchCompletion m)

theorem State.port?_loseRemote (s : State) (m n : Nat) : (s.loseRemote m).port? n = s.port? n :=
  State.port?_congr ((State.postOnce_ports ..).trans (State.updLaunch_ports ..)) n

theorem State.launch?_loseRemote {s : State} {m m' : Nat} {q : Launch} (hq : s.launch? m' = some q) :
    ∃ q', (s.loseRemote m).launch? m' = some q' ∧ (m' = m ∨ q.remote = true → q'.remote = true) := by
  rw [State.loseRemote, State.launch?_congr (State.postOnce_launches ..)]
  by_cases hm : m' = m
  · subst hm
    exact ⟨{ q with remote := true }, (State.launch?_updLaunch_same s m' _).trans (congrArg _ hq), fun _ => rfl⟩
  · exact ⟨q, (State.launch?_updLaunch_ne s _ hm).trans hq, fun h => h.resolve_left hm⟩

theorem State.launch?_forEach_loseRemote {m : Nat} : ∀ (ls : List Nat) {s : State} {q : Launch}, s.launch? m = some q →
    ∃ q', (s.forEach ls State.loseRemote).launch? m = some q' ∧ (m ∈ ls ∨ q.remote = true → q'.remote = true)
  | [], _, q, hq => ⟨q, hq, fun h => h.resolve_left List.not_mem_nil⟩
  | m' :: ls, s, q, hq => by
    obtain ⟨q1, hq1, h1⟩ := State.launch?_loseRemote (m := m') hq
    obtain ⟨q2, hq2, h2⟩ := State.launch?_forEach_loseRemote ls hq1
    refine ⟨q2, hq2, fun h => h2 ?_⟩
    obtain hm | hremote := h
    · obtain hm | hm := List.mem_cons.1 hm
      · exact .inr (h1 (.inl hm))
      · exact .inl hm
    · exact .inr (h1 (.inr hremote))

/-- A time-out clears UP and discards; the launches that lost a packet are REMOTE_INCOMPLETE. -/
theorem execLinkTimeout_of_due {s : State} {n : Nat} {l : Port} {x : LinkPacket} {ls : List LinkPacket} (hev : s.ev = .linkTimeout n) (hl : s.port? n = some l)
    (hsent : l.sent = x :: ls) (hdue : x.since + s.linkLimit n ≤ s.ticks) :
    ∃ t l', exec .linkTimeout s = .next t ∧ t.port? n = some l' ∧ l'.sent = [] ∧ l'.up = false ∧
      ∀ y ∈ l.sent, ∀ m q, y.launch = some m → s.launch? m = some q → ∃ q', t.launch? m = some q' ∧ q'.remote = true := by
  let s1 : State := s.updPort n fun q => { q with sent := [], up := false }
  let s2 : State := s1.forEach (l.sent.filterMap (·.launch)) State.loseRemote
  let t : State := match s2.portHolder n with
    | none => s2
    | some part => s2.notice part 0x18 (BitVec.ofNat 64 (n + fieldAt 63 1))
  have ht : t.ports = s2.ports ∧ t.launches = s2.launches := by
    simp only [t]
    split
    · exact ⟨rfl, rfl⟩
    · exact State.notice_ports_launches s2 _ _ _
  obtain ⟨hports, hlaunches⟩ := ht
  have hport : s2.port? n = some { l with sent := [], up := false } :=
    State.forEach_keeps (fun u => u.port? n = some { l with sent := [], up := false }) (fun u m hu => (State.port?_loseRemote u m n).trans hu) _ s1
      (State.port?_updPort hl _)
  refine ⟨t, _, ?_, (State.port?_congr hports n).trans hport, rfl, rfl, fun y hy m q hm hq => ?_⟩
  · change execLinkTimeout s = _
    simp only [execLinkTimeout, hev, hl, hsent, if_neg (Nat.not_lt.2 hdue)]
    simp only [t, s2, hsent]
    rfl
  · have hq1 : s1.launch? m = some q := (State.launch?_congr (State.updPort_launches s n _) m).trans hq
    obtain ⟨q', hq', hremote⟩ := State.launch?_forEach_loseRemote (l.sent.filterMap (·.launch)) hq1
    exact ⟨q', (State.launch?_congr hlaunches m).trans hq', hremote (.inl (List.mem_filterMap.2 ⟨y, hy, hm⟩))⟩

/-- Settles O49: the commit and the reread of rings, then each event of a link port. -/
theorem ringCommitAndLinkEvents : Obligations.RingCommitAndLinkEvents := by
  unfold Obligations.RingCommitAndLinkEvents
  intro s
  refine ⟨fun p q rings hev hq _ => execRingCommit_takes hev hq,
    fun p n q s1 g hev _ hq hcommit hchans hread => execRingCommitReread_reads hev hq hcommit hchans hread,
    fun n lanes ts keyed l hev hl => ⟨execLinkTraining_of_enabled hev hl, execLinkTraining_of_disabled hev hl⟩,
    fun n a l hev hl => ⟨execLinkPacketArrival_of_disabled hev hl, fun hen => ⟨execLinkPacketArrival_ack hev hl hen, execLinkPacketArrival_authFails hev hl hen,
      fun p ha hflows => execLinkPacketArrival_packet hev hl hen ha hflows⟩⟩,
    fun n l x ls hev hl hsent hdue => execLinkTimeout_of_due hev hl hsent hdue⟩

end Sys2Proof.Machine
end
section
/-! SUPPORT. A core whose table of channels lists one number twice: two ring channels are at work, and only the first is read by its number (09 R220 to R223). -/

namespace Sys2Proof.Machine

/-- A run of a ring of two members, at the first of them. -/
def pairRun (inst : Nat) (underWay : Bool) : RingRun where
  id := inst
  inst := inst
  ctx := 0
  sync := Sync.none
  started := underWay
  since := 0
  n := 2
  pos := 0
  len := 512
  data := []
  loaded := underWay
  step := 0
  got := 0
  early := []
  writing := false
  wbLost := false

/-- A ring channel of a flow over ring 0, with a run at work. -/
def pairChan (flow inst : Nat) (underWay : Bool) : Chan :=
  ⟨BitVec.ofNat 256 (3 + 2 ^ 20 * flow + 2 ^ 128 * 2), 0, 0, 0, 0, 0, inst, 2, some (pairRun inst underWay), none, 0, []⟩

/-- A row of flow 1 for the run of number 5, held at its port. -/
def pairRow : Packet := ⟨1, 0, false, 0, 0, 0, 0, false, 0, 5, 0, 0, 0, 0, 0, none, [], 0, [], []⟩

/-- The machine at the RING_INSTANCE_START of channel 3 of core 0. The table lists a channel of flow 1 behind it under the same number; the row that this one
waits for is held at port 1. -/
def atTwiceListed : State :=
  { State.reset with
    parts := [(0, some { Part.fresh plantEntry with rings := [(0, some ⟨1, 0, 0, 1⟩)], badRings := 0 })]
    cores := [(0, some { Core.fresh 0 0 with launch := some 0, chans := [(3, some (pairChan 0 0 false)), (3, some (pairChan 1 5 true))] })]
    ports := [(0, some Port.fresh), (1, some { Port.fresh with blocked := [pairRow] })]
    ev := .ringInstanceStart 0 3 }

/-- The number of the run at work on channel 3 of core 0, where there is one. -/
def State.runAt3 (s : State) : Option Nat := ((s.chan? 0 3).bind (·.run)).map (·.inst)

set_option maxRecDepth 100000 in
theorem atTwiceListed_ready : atTwiceListed.ringOf 0 (pairChan 0 0 false) = some ⟨1, 0, 0, 1⟩ ∧ atTwiceListed.flowsHeld 0 = false ∧
    atTwiceListed.areaUsed 0 + (pairChan 0 0 false).reserve 2 ≤ 7 * 2 ^ 20 := by decide +kernel

/-- The number of the run at work on channel 3 after an outcome. -/
def runAfter (o : Host.Outcome State Fault Refusal) : Option Nat :=
  match o with
  | .next t => t.runAt3
  | _ => none

set_option maxRecDepth 100000 in
/-- The row held for the second entry writes its run over the one at work on the first. -/
theorem runAfter_atTwiceListed : runAfter (exec .ringInstanceStart atTwiceListed) = some 5 := by decide +kernel

/-- Refutes O48: its first clause asks that the run that makes its reservation is at work still when the rows held at the ports have been tried.
Over every state this fails where a core's table of channels lists a number twice, which no clause excludes: the row of the second entry is processed with the
run of that entry, and the result is put under the number that both have. -/
theorem not_ringEvents : ¬ Obligations.RingEvents := by
  unfold Obligations.RingEvents
  intro h
  obtain ⟨hstart, -⟩ := h atTwiceListed 0 3 (pairChan 0 0 false) rfl
  obtain ⟨hring, hflows, hroom⟩ := atTwiceListed_ready
  obtain ⟨t, h', r', hexec, hh', hrun, -, -, hinst⟩ := hstart (pairRun 0 false) _ rfl rfl hring rfl rfl hflows hroom
  have hother := runAfter_atTwiceListed
  rw [hexec, runAfter, State.runAt3, hh', Option.bind_some, hrun, Option.map_some, hinst] at hother
  exact absurd (Option.some.inj hother) (by decide)

end Sys2Proof.Machine
end
section
/-! SUPPORT. Loads through the stash: what an attempt that accesses memory leaves of its bundle, a load that hits and one that misses. -/

namespace Sys2Proof.Machine

/-! ## The bundle of an attempt -/

/-- From `s` to `t` the bundle that executes and the core it executes on are the same. -/
structure State.SameBundle (s t : State) : Prop where
  bun : t.bun = s.bun
  cur : t.cur = s.cur

namespace State.SameBundle

theorem refl (s : State) : s.SameBundle s := ⟨rfl, rfl⟩
theorem trans {s t u : State} (h : s.SameBundle t) (h' : t.SameBundle u) : s.SameBundle u := ⟨h'.bun.trans h.bun, h'.cur.trans h.cur⟩
theorem of_memFrame {s t : State} (h : s.MemFrame t) : s.SameBundle t := ⟨h.bun, h.cur⟩

/-- The state of a pair that an operation answers. -/
theorem fst {α : Type} {s t : State} {a : α} {r : State × α} (h : s.SameBundle r.1) (he : r = (t, a)) : s.SameBundle t := by
  subst he
  exact h

theorem updCore (s : State) (c : Nat) (f : Core → Core) : s.SameBundle (s.updCore c f) := ⟨by simp, by simp⟩
theorem updCluster (s : State) (c : Nat) (f : Cluster → Cluster) : s.SameBundle (s.updCluster c f) := ⟨by simp, by simp⟩
theorem postOpen (s : State) (d : Nat) (e : Event) : s.SameBundle (s.postOpen d e) := ⟨rfl, rfl⟩

theorem orPte (s : State) (part pa bits : Nat) : s.SameBundle (s.orPte part pa bits) := of_memFrame (.orPte s part pa bits)

theorem useEntry (s : State) (c va : Nat) (u : Use) (e : TlbEntry) : s.SameBundle (s.useEntry c va u e).1 := by
  unfold State.useEntry
  dsimp only
  split
  · exact refl s
  · split
    · exact ((orPte s _ _ _).trans (updCore _ _ _)).trans (updCluster _ _ _)
    · exact refl s

theorem translate (s : State) (c va : Nat) (u : Use) : s.SameBundle (s.translate c va u).1 := by
  have hwalk : s.SameBundle (s.walk (s.partOf c) va u).1 := of_memFrame (.walk s _ va u)
  unfold State.translate
  dsimp only
  split
  · exact useEntry s c va u _
  · split
    · exact (updCore s _ _).trans (useEntry _ c va u _)
    · split
      · next heq => exact hwalk.fst heq
      · next heq =>
        split
        · exact hwalk.fst heq
        · exact ((((hwalk.fst heq).trans (orPte _ _ _ _)).trans (updCore _ _ _)).trans (updCluster _ _ _)).trans (useEntry _ c va u _)

theorem writeBackRow (s : State) (q n : Nat) : s.SameBundle (s.writeBackRow q n) := by
  unfold State.writeBackRow
  split
  · exact refl s
  · split
    · exact refl s
    · split
      · exact refl s
      · exact (updCore s q _).trans (postOpen _ _ _)

theorem ensureRow (s : State) (q block : Nat) (l : Leaf) : s.SameBundle (s.ensureRow q block l).1 := by
  unfold State.ensureRow
  split
  · exact refl s
  · split
    · split
      · exact updCore s q _
      · exact refl s
    · dsimp only
      split
      · exact updCore s q _
      · split
        · split_ifs
          · exact refl s
          · exact (writeBackRow s q _).trans (updCore _ q _)
        · split
          · exact updCore s q _
          · exact refl s

theorem requestFill (s : State) (q block : Nat) (l : Leaf) : s.SameBundle (s.requestFill q block l) := by
  unfold State.requestFill
  split
  · exact refl s
  · split
    · exact refl s
    · exact (updCore s q _).trans (postOpen _ _ _)

end State.SameBundle

/-- Where every core stays, and the bundle with its core, the context that issues goes on issuing. -/
theorem State.Stays.issues {s t : State} (h : s.Stays t) (hb : s.SameBundle t) {k : Core} {n : Nat} {x : Ctx} (hiss : s.issues k n x) :
    ∃ k' x', t.issues k' n x' ∧ x.Stays x' := by
  obtain ⟨hk, hn, hx⟩ := hiss
  obtain ⟨k', hk', hstay⟩ := h.cores _ _ hk
  obtain ⟨x', hx', hxx⟩ := hstay.ctxs n x hx
  exact ⟨k', x', ⟨by rw [hb.cur, hk'], by rw [hstay.rest]; exact hn, hx'⟩, hxx⟩

/-! ## Blocking -/

/-- A bundle that blocks leaves its context BLOCKED, and of the context's other fields changes its timer alone (03 R58). -/
theorem State.block_of_issues {s : State} {k : Core} {n : Nat} {x : Ctx} (h : s.issues k n x) :
    s.block.bun.status = .blocked ∧ ∃ x', s.block.ctx? s.cur n = some x' ∧ x' = { x with st := .blocked, timer := x'.timer } := by
  obtain ⟨hk, hn, hx⟩ := h
  let t : State := { s with bun := { s.bun with status := .blocked } }
  have hblock : s.block = (t.updCtx s.cur n fun x => { x with st := .blocked }).startTimer s.cur n := by
    rw [State.block, State.issues.issuer_eq ⟨hk, hn, hx⟩]
  have hk' : (t.updCtx s.cur n fun x => { x with st := .blocked }).core? s.cur = some (k.setCtx n { x with st := .blocked }) :=
    State.core?_updCtx_same _ hk hx
  obtain ⟨k2, x2, hk2, hx2, -, hx2eq⟩ := State.core?_startTimer hk' (Core.ctx?_setCtx_same k n _)
  rw [hblock]
  exact ⟨by simp [t], x2, by rw [State.ctx?, hk2]; exact hx2, hx2eq⟩

/-! ## A load through the stash -/

/-- An address below 2^52, aligned, from a base without poison passes the checks (15 R332). -/
theorem State.checkAddr_of_good (s : State) {base : RV} {a size : Nat} (hp : base.p = false) (ha : a < 2 ^ 52) (hal : a % size = 0) (write : Bool) :
    s.checkAddr base a size write = .ok s s := by
  unfold State.checkAddr
  rw [if_neg (by simp [hp]), if_neg (Nat.not_le.2 ha), if_neg (not_not.2 hal)]

/-- What a context awaits after a load that missed (10 R238, R239). -/
def Ctx.awaitFill (x : Ctx) (q va : Nat) : Ctx :=
  { x with
    missed := if x.missed.contains va then x.missed else va :: x.missed
    fills := if x.fills.contains (q, va / 256) then x.fills else x.fills ++ [(q, va / 256)] }

theorem Ctx.mem_awaitFill_fills (x : Ctx) (q va : Nat) : (q, va / 256) ∈ (x.awaitFill q va).fills := by
  unfold Ctx.awaitFill
  dsimp only
  split
  · next h => simpa using h
  · simp

section Load
variable {s s1 : State} {l : Leaf} {c va n : Nat} (htr : s.translate c va .read = (s1, .leaf l))
include htr

/-- A load whose bytes its row holds takes them (10 R238). -/
theorem State.stashLoad_of_hit {kq : Core} {m : Nat} {r : Row} (hkq : s1.core? (quarterOf c va l.cc) = some kq) (hfind : kq.stash.find (va / 256) = some (m, r))
    (hhas : r.has (va % 256) n = true) :
    s.stashLoad c va n = .ok s1 ⟨r.data.toNat / 2 ^ (8 * (va % 256)) % 2 ^ (8 * n), l.psn || r.poisoned (va % 256) n, if quarterOf c va l.cc = c then 4 else 12,
      s1.filledAt (quarterOf c va l.cc) va⟩ := by
  simp [State.stashLoad, htr, hkq, hfind, hhas]

/-- A load that misses, and whose row can be had, asks for the fill and blocks (10 R238, R239). -/
theorem State.stashLoad_of_miss {s2 : State} {m : Nat}
    (hmiss : ∀ kq m r, s1.core? (quarterOf c va l.cc) = some kq → kq.stash.find (va / 256) = some (m, r) → r.has (va % 256) n = false)
    (hrow : s1.ensureRow (quarterOf c va l.cc) (va / 256) l = (s2, .row m)) :
    s.stashLoad c va n = .wait (((s2.requestFill (quarterOf c va l.cc) (va / 256) l).updIssuer fun x => x.awaitFill (quarterOf c va l.cc) va).block) := by
  have hnone : (((s1.core? (quarterOf c va l.cc)).bind fun k => k.stash.find (va / 256)).bind fun r => if r.2.has (va % 256) n then some r.2 else none) = none := by
    refine Option.bind_eq_none_iff.2 fun ⟨m, r⟩ hr => ?_
    obtain ⟨kq, hkq, hfind⟩ := Option.bind_eq_some_iff.1 hr
    simp [hmiss kq m r hkq hfind]
  simp only [State.stashLoad, htr, hnone, hrow]
  rfl

end Load

/-- The context of a load that has missed is BLOCKED, awaits the fill, and keeps its registers (10 R239, 03 R58). -/
theorem State.blocks_awaitFill {s : State} {k : Core} {n : Nat} {x : Ctx} (h : s.issues k n x) (q va : Nat) :
    let t := (s.updIssuer fun x => x.awaitFill q va).block
    t.bun.status = .blocked ∧ ∃ x', t.ctx? s.cur n = some x' ∧ x'.st = .blocked ∧ (q, va / 256) ∈ x'.fills ∧ x'.regs = x.regs := by
  obtain ⟨hk, hn, hx⟩ := h
  have hcur : (s.updIssuer fun x => x.awaitFill q va).cur = s.cur := by rw [State.updIssuer_eq ⟨hk, hn, hx⟩, State.updCtx_cur]
  have hawaits : (s.updIssuer fun x => x.awaitFill q va).issues (k.setCtx n (x.awaitFill q va)) n (x.awaitFill q va) := by
    refine ⟨?_, hn, Core.ctx?_setCtx_same k n _⟩
    rw [hcur, State.updIssuer_eq ⟨hk, hn, hx⟩]
    exact State.core?_updCtx_same _ hk hx
  obtain ⟨hstatus, x', hx', heq⟩ := State.block_of_issues hawaits
  rw [hcur] at hx'
  refine ⟨hstatus, x', hx', ?_, ?_, ?_⟩
  · rw [heq]
  · rw [heq]
    exact x.mem_awaitFill_fills q va
  · rw [heq]
    rfl

/-! ## LD, LDA and CHKA (16 R371 to R374, 03 R74) -/

/-- The record of the watch table that LDA enters and CHKA looks for (03 R73, R74). -/
def MemOp.watch (o : MemOp) (r : Regs) : Watch := ⟨ISlot.y o.sl, o.d.toNat, o.addr r, IType.bytes o.t⟩

/-- Whether a context has a record for the register of an operation. -/
def Ctx.watched (x : Ctx) (o : MemOp) : Bool := x.watch.any fun w => w.y == ISlot.y o.sl && w.d == o.d.toNat

section Address
variable {s : State} {o : MemOp} (hp : (o.base s.bun.old).p = false) (ha : o.addr s.bun.old < 2 ^ 52) (hal : o.addr s.bun.old % IType.bytes o.t = 0)
include hp ha hal

/-- A load of a good address writes the bytes that the stash gives, fitted to its type (16 R371, 15 R327). -/
theorem loadInto_of_ok {s1 : State} {v : Loaded} (hload : s.stashLoad s.cur (o.addr s.bun.old) (IType.bytes o.t) = .ok s1 v) :
    let t := s1.writeXY (ISlot.y o.sl) o.d ⟨IType.fit o.t (BitVec.ofNat 64 v.val), v.psn || Guard.psn o.g .pi s.bun.old⟩ (loadLat v.filled s1.cycle v.lat)
    loadInto s o = .ok t t := by
  simp only [loadInto, State.checkAddr_of_good s hp ha hal, Try.bind_ok, hload]

theorem loadInto_of_wait {t : State} (hload : s.stashLoad s.cur (o.addr s.bun.old) (IType.bytes o.t) = .wait t) : loadInto s o = .wait t := by
  simp only [loadInto, State.checkAddr_of_good s hp ha hal, Try.bind_ok, hload, Try.bind_wait]

end Address

section Operations
variable {s : State} {k : Core} {n : Nat} {x : Ctx} {o : MemOp} (hiss : s.issues k n x) (hg : s.passes o.g .pi)
include hiss hg

/-- What LD, LDA and CHKA come to where their load delivers: LDA enters a record too, and CHKA loads where its register has none. -/
theorem loads_of_ok {t : State} (hload : loadInto s o = .ok t t) (ht : s.SameBundle t) :
    ldOp s o = .next t ∧ ldaOp s o = .next (t.updIssuer fun x => x.enterWatch (o.watch s.bun.old)) ∧
    (x.watched o = true → chkaOp s o = .next s) ∧ (x.watched o = false → chkaOp s o = .next t) := by
  have hchka : chkaOp s o = .next (if x.watched o then .ok s s else loadInto s o).finish := guarded_of_passes hiss hg _
  refine ⟨?_, ?_, fun hw => ?_, fun hw => ?_⟩
  · rw [ldOp, guarded_of_passes hiss hg, hload, Try.finish_ok]
  · rw [ldaOp, guarded_of_passes hiss hg, hload, Try.bind_ok, Try.finish_ok, ht.bun]
    rfl
  · rw [hchka, if_pos hw, Try.finish_ok]
  · rw [hchka, if_neg (by simp [hw]), hload, Try.finish_ok]

/-- What they come to where their load waits: CHKA does nothing all the same where its register has a record. -/
theorem loads_of_wait {t : State} (hload : loadInto s o = .wait t) :
    ldOp s o = .next t ∧ ldaOp s o = .next t ∧ (¬x.watched o = true → chkaOp s o = .next t) ∧ (x.watched o = true → chkaOp s o = .next s) := by
  have hchka : chkaOp s o = .next (if x.watched o then .ok s s else loadInto s o).finish := guarded_of_passes hiss hg _
  refine ⟨?_, ?_, fun hw => ?_, fun hw => ?_⟩
  · rw [ldOp, guarded_of_passes hiss hg, hload, Try.finish_wait]
  · rw [ldaOp, guarded_of_passes hiss hg, hload, Try.bind_wait, Try.finish_wait]
  · rw [hchka, if_neg hw, hload, Try.finish_wait]
  · rw [hchka, if_pos hw, Try.finish_ok]

end Operations

/-- Settles O23: the load itself is `State.stashLoad_of_hit` or `State.stashLoad_of_miss`; what LD, LDA and CHKA make of it, `loads_of_ok` and `loads_of_wait`. -/
theorem loadsHitOrBlock : Obligations.LoadsHitOrBlock := by
  unfold Obligations.LoadsHitOrBlock
  constructor
  · intro s s1 k kq n m x o l r hiss hg base a size q hp ha hal htr hkq hfind hhas val v t
    have hs1 : s.SameBundle s1 := (State.SameBundle.translate s s.cur a .read).fst htr
    have hhit := State.stashLoad_of_hit htr hkq hfind hhas
    have hload : loadInto s o = .ok t t := (loadInto_of_ok hp ha hal hhit :)
    have ht : s.SameBundle t := hs1.trans (by
      obtain ⟨k1, x1, hiss1, -⟩ := ((State.Stays.translate s s.cur a .read).fst htr).issues hs1 hiss
      rw [show t = _ from State.writeXY_eq hiss1 _ _ _ _]
      exact .updCore s1 _ _)
    obtain ⟨hld, hlda, hwatched, hunwatched⟩ := loads_of_ok hiss hg hload ht
    exact ⟨fun i hi => by subst hi; exact ⟨hld, hlda, hwatched, hunwatched⟩, fun i hi => by subst hi; exact ⟨hld, hlda, hwatched, hunwatched⟩⟩
  · intro s s1 s2 k n m x o l hiss hg base a size q hp ha hal htr hmiss hrow blocks watched
    let t := ((s2.requestFill q (a / 256) l).updIssuer fun x => x.awaitFill q a).block
    have hload : loadInto s o = .wait t := loadInto_of_wait hp ha hal (State.stashLoad_of_miss htr hmiss hrow)
    have hbun2 : s.SameBundle s2 := ((State.SameBundle.translate s s.cur a .read).fst htr).trans ((State.SameBundle.ensureRow s1 _ _ l).fst hrow)
    have hstay2 : s.Stays s2 := ((State.Stays.translate s s.cur a .read).fst htr).trans ((State.Stays.ensureRow s1 _ _ l).fst hrow)
    obtain ⟨k2, y2, hiss2, -⟩ := hstay2.issues hbun2 hiss
    have hbun3 := State.SameBundle.requestFill s2 q (a / 256) l
    obtain ⟨k3, y3, hiss3, hy3⟩ := (State.Stays.requestFill s2 q (a / 256) l).issues hbun3 hiss2
    obtain ⟨hstatus, z, hz, hst, hfill, hregs⟩ := State.blocks_awaitFill hiss3 q a
    have hblocks : ∀ i, exec i s = .next t → blocks i := fun i hi => by
      refine ⟨t, hi, hstatus, fun x2 x3 hx2 hx3 => ?_⟩
      obtain rfl : y2 = x2 := Option.some.inj (hiss2.ctx?_eq.symm.trans (by rw [hbun2.cur, hx2]))
      obtain rfl : z = x3 := Option.some.inj (hz.symm.trans (by rw [hbun3.cur, hbun2.cur]; exact hx3))
      exact ⟨hst, hfill, hregs.trans hy3.regs⟩
    obtain ⟨hld, hlda, hunwatched, hwatched⟩ := loads_of_wait hiss hg hload
    exact ⟨fun i hi => by subst hi; exact ⟨hblocks _ hld, hblocks _ hlda, fun hw => hblocks _ (hunwatched hw), hwatched⟩,
      fun i hi => by subst hi; exact ⟨hblocks _ hld, hblocks _ hlda, fun hw => hblocks _ (hunwatched hw), hwatched⟩⟩

end Sys2Proof.Machine
end
section
/-! SUPPORT. Stores through the stash: the bits of a field, a write of bytes of a row, and ST. -/

namespace Sys2Proof.Machine

/-! ## The bits of a field -/

/-- A field of a word as the bits that are extracted. -/
theorem bitsOf_eq_toNat_extractLsb' {w : Nat} (v : BitVec w) (lo len : Nat) : bitsOf v lo len = (v.extractLsb' lo len).toNat := by
  rw [BitVec.extractLsb'_toNat, Nat.shiftRight_eq_div_pow, bitsOf]

/-- A field reads zero where none of its bits is set. -/
theorem bitsOf_ne_zero_iff {w : Nat} (v : BitVec w) (lo len : Nat) : bitsOf v lo len ≠ 0 ↔ ∃ i < len, v.getLsbD (lo + i) = true := by
  rw [bitsOf_eq_toNat_extractLsb', Ne, ← BitVec.toNat_zero (w := len), BitVec.toNat_inj, BitVec.eq_of_getLsbD_eq_iff]
  simp

/-- A field reads its greatest value where all of its bits are set. -/
theorem bitsOf_eq_ones_iff {w : Nat} (v : BitVec w) (lo len : Nat) : bitsOf v lo len = 2 ^ len - 1 ↔ ∀ i < len, v.getLsbD (lo + i) = true := by
  rw [bitsOf_eq_toNat_extractLsb', ← BitVec.toNat_allOnes, BitVec.toNat_inj, BitVec.eq_of_getLsbD_eq_iff]
  simp +contextual

/-- A bit of a word of which a field is replaced. -/
theorem getLsbD_setBits {w : Nat} (v : BitVec w) (lo len x : Nat) {i : Nat} (hi : i < w) :
    (setBits v lo len x).getLsbD i = if lo ≤ i ∧ i < lo + len then x.testBit (i - lo) else v.getLsbD i := by
  simp only [setBits, BitVec.getLsbD_or, BitVec.getLsbD_and, BitVec.getLsbD_not, BitVec.getLsbD_shiftLeft, BitVec.getLsbD_ofNat, Nat.testBit_two_pow_sub_one,
    Nat.testBit_mod_two_pow, hi, show i - lo < w by omega, decide_true, Bool.true_and]
  obtain hlo | hlo := Nat.lt_or_ge i lo
  · simp [hlo, Nat.not_le.2 hlo]
  · by_cases hlen : i - lo < len
    · simp [hlo, Nat.not_lt.2 hlo, hlen, show i < lo + len by omega]
    · simp [hlo, Nat.not_lt.2 hlo, hlen, show ¬i < lo + len by omega]

/-- A bit of a word after some of its bits are given, each from its number. -/
theorem getLsbD_foldl_setBits {w : Nat} (g : Nat → Bool) {i : Nat} (hi : i < w) : ∀ (l : List Nat) (v : BitVec w),
    (l.foldl (fun v j => setBits v j 1 (bitN (g j))) v).getLsbD i = if i ∈ l then g i else v.getLsbD i
  | [], v => by simp
  | j :: l, v => by
    rw [List.foldl_cons, getLsbD_foldl_setBits g hi l, getLsbD_setBits v j 1 _ hi]
    by_cases hij : i = j
    · subst hij
      cases hg : g i <;> simp [bitN]
    · rw [if_neg (show ¬(j ≤ i ∧ i < j + 1) by omega)]
      simp [hij]

/-! ## A write of bytes of a row (10 R240, 11 R269) -/

/-- The mask of `n` bytes of a row from byte `off` on. -/
def byteMask (off n : Nat) : BitVec 256 := BitVec.ofNat 256 ((2 ^ n - 1) * 2 ^ off)

theorem getLsbD_byteMask (off n : Nat) {j : Nat} (hj : j < 256) : (byteMask off n).getLsbD j = decide (off ≤ j ∧ j < off + n) := by
  rw [byteMask, BitVec.getLsbD_ofNat, Nat.testBit_mul_two_pow, Nat.testBit_two_pow_sub_one]
  simp only [hj, decide_true, Bool.true_and, Bool.decide_and]
  by_cases h : off ≤ j
  · simp [h, Nat.sub_lt_iff_lt_add' h]
  · simp [h]

/-- The bytes of a word that are written. -/
theorem bitsOf_byteMask_ne_zero {off n w : Nat} (hn : 0 < n) (hw : w < 64) : bitsOf (byteMask off n) (4 * w) 4 ≠ 0 ↔ off < 4 * w + 4 ∧ 4 * w < off + n := by
  rw [bitsOf_ne_zero_iff]
  constructor
  · rintro ⟨i, hi, h⟩
    rw [getLsbD_byteMask off n (by omega), decide_eq_true_eq] at h
    omega
  · intro h
    refine ⟨max (4 * w) off - 4 * w, by omega, ?_⟩
    rw [getLsbD_byteMask off n (by omega), decide_eq_true_eq]
    omega

theorem bitsOf_byteMask_eq_ones {off n w : Nat} (hw : w < 64) : bitsOf (byteMask off n) (4 * w) 4 = 15 ↔ off ≤ 4 * w ∧ 4 * w + 4 ≤ off + n := by
  rw [show (15 : Nat) = 2 ^ 4 - 1 by rfl, bitsOf_eq_ones_iff]
  constructor
  · intro h
    have h0 := h 0 (by omega)
    have h3 := h 3 (by omega)
    rw [getLsbD_byteMask off n (by omega), decide_eq_true_eq] at h0 h3
    omega
  · intro h i hi
    rw [getLsbD_byteMask off n (by omega), decide_eq_true_eq]
    omega

section Write
variable (r : Row) (off n val : Nat) (psn : Bool)

/-- The words of which a write of `n` bytes from byte `off` on writes one at least. -/
def wordsOf (off n : Nat) : List Nat := (List.range 64).filter fun i => bitsOf (byteMask off n) (4 * i) 4 ≠ 0

theorem mem_wordsOf {off n w : Nat} (hn : 0 < n) (hw : w < 64) : w ∈ wordsOf off n ↔ off < 4 * w + 4 ∧ 4 * w < off + n := by
  rw [wordsOf, List.mem_filter, decide_eq_true_eq, bitsOf_byteMask_ne_zero hn hw]
  simp [hw]

theorem Row.write_v : (r.write off n val psn).v = r.v ||| byteMask off n := rfl
theorem Row.write_d : (r.write off n val psn).d = r.d ||| byteMask off n := rfl
theorem Row.write_o : (r.write off n val psn).o = (wordsOf off n).foldl (fun v i => setBits v i 1 (bitN true)) r.o := rfl
theorem Row.write_psn : (r.write off n val psn).psn =
    (wordsOf off n).foldl (fun v i => setBits v i 1 (bitN (psn || (bitsOf (byteMask off n) (4 * i) 4 ≠ 15 && r.psn.getLsbD i)))) r.psn := rfl

/-- The bytes of a row after a write of some of them. -/
theorem Row.write_byte {j : Nat} (hj : j < 256) : (r.write off n val psn).data.extractLsb' (8 * j) 8 =
    if off ≤ j ∧ j < off + n then BitVec.ofNat 8 (val / 2 ^ (8 * (j - off))) else r.data.extractLsb' (8 * j) 8 := by
  refine BitVec.eq_of_getLsbD_eq fun i hi => ?_
  have hbit : (r.write off n val psn).data.getLsbD (8 * j + i) =
      if 8 * off ≤ 8 * j + i ∧ 8 * j + i < 8 * off + 8 * n then val.testBit (8 * j + i - 8 * off) else r.data.getLsbD (8 * j + i) :=
    getLsbD_setBits r.data _ _ _ (by omega)
  rw [BitVec.getLsbD_extractLsb', hbit]
  by_cases hin : off ≤ j ∧ j < off + n
  · rw [if_pos hin, if_pos (by omega), BitVec.getLsbD_ofNat, Nat.testBit_div_two_pow, show 8 * j + i - 8 * off = i + 8 * (j - off) by omega]
  · rw [if_neg hin, if_neg (by omega), BitVec.getLsbD_extractLsb']

/-- The bytes written are valid and dirty. -/
theorem Row.write_masks {j : Nat} (hj : j < 256) :
    (r.write off n val psn).v.getLsbD j = (r.v.getLsbD j || decide (off ≤ j ∧ j < off + n)) ∧
    (r.write off n val psn).d.getLsbD j = (r.d.getLsbD j || decide (off ≤ j ∧ j < off + n)) := by
  rw [Row.write_v, Row.write_d, BitVec.getLsbD_or, BitVec.getLsbD_or, getLsbD_byteMask off n hj]
  exact ⟨rfl, rfl⟩

/-- The words that a write of one byte at least lies in are owned, and take its poison: one written in part keeps its own too. -/
theorem Row.write_words (hn : 0 < n) {w : Nat} (hw : w < 64) :
    (r.write off n val psn).o.getLsbD w = (r.o.getLsbD w || decide (off < 4 * w + 4 ∧ 4 * w < off + n)) ∧
    (r.write off n val psn).psn.getLsbD w =
      if off ≤ 4 * w ∧ 4 * w + 4 ≤ off + n then psn
      else if off < 4 * w + 4 ∧ 4 * w < off + n then psn || r.psn.getLsbD w else r.psn.getLsbD w := by
  rw [Row.write_o, Row.write_psn, getLsbD_foldl_setBits (fun _ => true) hw, getLsbD_foldl_setBits _ hw]
  simp only [mem_wordsOf hn hw]
  constructor
  · split <;> simp_all
  · by_cases hwhole : off ≤ 4 * w ∧ 4 * w + 4 ≤ off + n
    · rw [if_pos (by omega), if_pos hwhole, (bitsOf_byteMask_eq_ones hw).2 hwhole]
      simp
    · rw [if_neg hwhole]
      simp [mt (bitsOf_byteMask_eq_ones hw).1 hwhole]

end Write

/-! ## ST (10 R240, 18 R499, 03 R73) -/

/-- What a store leaves of a machine that has its row: the bytes are in the row, and the records that they overlap have gone. -/
def State.stored (s : State) (c n q m a size val : Nat) (psn : Bool) : State :=
  (s.rowWrite q m (a % 256) size val psn).updCtx c n fun x => { x with watch := storeWatch x.watch a size }

/-- A store changes no byte of home memory. -/
theorem State.homeByte_stored (s : State) (c n q m a size val : Nat) (psn : Bool) (pa : Nat) : (s.stored c n q m a size val psn).homeByte pa = s.homeByte pa :=
  State.homeByte_congr (by simp [State.stored, State.rowWrite]) (by simp [State.stored, State.rowWrite]) (by simp [State.stored, State.rowWrite]) pa

/-- A store changes no register of any context. -/
theorem State.ctx?_stored {s : State} {c' n' : Nat} {x : Ctx} (hx : s.ctx? c' n' = some x) (c n q m a size val : Nat) (psn : Bool) :
    ∃ x', (s.stored c n q m a size val psn).ctx? c' n' = some x' ∧ x'.regs = x.regs ∧ x'.sr = x.sr := by
  have hrow : (s.rowWrite q m (a % 256) size val psn).ctx? c' n' = some x := by
    rw [State.rowWrite, State.ctx?_updCore s q (fun k => by split <;> rfl), hx]
  by_cases hc : c' = c
  · subst hc
    by_cases hn : n' = n
    · subst hn
      exact ⟨_, State.ctx?_updCtx_of_some hrow _, rfl, rfl⟩
    · exact ⟨x, (State.ctx?_updCtx_ne _ _ _ hn).trans hrow, rfl, rfl⟩
  · exact ⟨x, (State.ctx?_updCtx_other _ _ _ _ hc).trans hrow, rfl, rfl⟩

/-- ST to a block whose row is there, or could be allocated. -/
theorem stOp_of_row {s s1 s2 : State} {k : Core} {n m : Nat} {x : Ctx} {o : MemOp} {l : Leaf} (hiss : s.issues k n x) (hg : s.passes o.g .pi)
    (hp : (o.base s.bun.old).p = false) (ha : o.addr s.bun.old < 2 ^ 52) (hal : o.addr s.bun.old % IType.bytes o.t = 0)
    (htr : s.translate s.cur (o.addr s.bun.old) .write = (s1, .leaf l))
    (hrow : s1.rowFor (quarterOf s.cur (o.addr s.bun.old) l.cc) (o.addr s.bun.old / 256) l = (s2, .row m)) :
    stOp s o = .next (s2.stored s.cur n (quarterOf s.cur (o.addr s.bun.old) l.cc) m (o.addr s.bun.old) (IType.bytes o.t) (s.bun.old.getI o.sl o.d).v.toNat
      ((s.bun.old.getI o.sl o.d).p || Guard.psn o.g .pi s.bun.old)) := by
  rw [stOp, guarded_of_passes hiss hg]
  simp only [State.checkAddr_of_good s hp ha hal, Try.bind_ok, State.stashStore, htr, hrow, Bool.false_eq_true, if_false, Try.finish_ok]
  rfl

/-! ## A write of no bytes

The law of a write of a row holds of `n` bytes for every `n` but 0: `Row.write_byte`, `Row.write_masks` and `Row.write_words`. A write of no bytes lies in no word,
but in the inequalities by which the statement says which words `n` bytes at byte `off` lie in, a byte that is not the first of its word lies in it even where
`n` is 0. No store writes 0 bytes: what ST does is `stOp_of_row`, `State.homeByte_stored` and `State.ctx?_stored`. -/

/-- A row that holds nothing. -/
def blankRow : Row := ⟨0, 0, 0, 0, 0, 0, false, 0, 0, 0, 0, 16⟩

/-- Refutes O25: a write of no bytes at byte 2 of a row leaves word 0 as it was, which the statement has it own. -/
theorem not_storesWriteTheirRow : ¬ Obligations.StoresWriteTheirRow := by
  unfold Obligations.StoresWriteTheirRow
  rintro ⟨-, hwrite⟩
  obtain ⟨-, -, hwords, -⟩ := hwrite blankRow 2 0 0 false (by decide) (by decide)
  obtain ⟨howned, -⟩ := hwords 0 (by decide)
  have hnot : (blankRow.write 2 0 0 false).o.getLsbD 0 = false := by decide
  rw [hnot] at howned
  exact absurd howned (by decide)

end Sys2Proof.Machine
end
section
/-! SUPPORT. Acquire loads and release stores: releases and evictions leave the bundle that executes, so what performs after them performs on the same core. -/

namespace Sys2Proof.Machine

namespace State.SameBundle

theorem forEach {α : Type} {f : State → α → State} (h : ∀ (s : State) (x : α), s.SameBundle (f s x)) (l : List α) (s : State) :
    s.SameBundle (s.forEach l f) :=
  State.forEach_keeps (fun t => s.SameBundle t) (fun t x ht => ht.trans (h t x)) l s (refl s)

theorem updCtx (s : State) (c n : Nat) (f : Ctx → Ctx) : s.SameBundle (s.updCtx c n f) := updCore s c _

theorem updIssuer (s : State) (f : Ctx → Ctx) : s.SameBundle (s.updIssuer f) := by
  unfold State.updIssuer
  split
  · exact refl s
  · exact updCtx s _ _ f

theorem writeXY (s : State) (y : Bool) (d : Reg5) (v : RV) (lat : Nat) : s.SameBundle (s.writeXY y d v lat) := updIssuer s _

/-! ## Write-backs -/

theorem mergeWb (s : State) (q : Nat) (w : WriteBack) : s.SameBundle (s.mergeWb q w) := (updCore s q _).trans (of_memFrame (.homeWrite _ _ _ _ _ _))

theorem performWb (s : State) (q id : Nat) : s.SameBundle (s.performWb q id) := by
  unfold State.performWb
  split
  · exact refl s
  · split
    · exact refl s
    · exact forEach (fun s w => mergeWb s q w) _ s

theorem flushWbs (s : State) (q pa : Nat) : s.SameBundle (s.flushWbs q pa) := by
  unfold State.flushWbs
  split
  · exact refl s
  · exact forEach (fun s (w : WriteBack) => performWb s q w.id) _ s

theorem dropWords (s : State) (q n : Nat) (words : List Nat) : s.SameBundle (s.dropWords q n words) := by
  unfold State.dropWords
  split
  · exact refl s
  · exact (updCore s q _).trans (forEach (fun s c => updCore s c _) _ _)

theorem evictWord (s : State) (c va : Nat) (l : Leaf) : s.SameBundle (s.evictWord c va l) := by
  unfold State.evictWord
  dsimp only
  split
  · exact flushWbs s _ _
  · exact ((flushWbs s _ _).trans (of_memFrame (.homeWrite _ _ _ _ _ _))).trans (dropWords _ _ _ _)

theorem evictWords (s : State) (c a n : Nat) (l : Leaf) : s.SameBundle (s.evictWords c a n l) :=
  (forEach (fun s w => evictWord s c w _) _ s).trans (updCore _ c _)

/-! ## Release halves -/

theorem pushRelease (s : State) (r : Release) : s.SameBundle (s.pushRelease r).1 := by
  unfold State.pushRelease
  refine List.foldlRecOn (motive := fun a : State × Release => s.SameBundle a.1) r.todo _ (refl s) fun a ha e _ => ?_
  split
  · exact ha
  · dsimp only
    split
    · exact ha
    · split_ifs
      · exact ha
      · exact ha
      · exact ha.trans (writeBackRow _ _ _)

theorem releaseNow (s : State) (c scope : Nat) : s.SameBundle (s.releaseNow c scope) := by
  unfold State.releaseNow
  extract_lets t
  have hperform : t.SameBundle (t.forEach (t.releaseWbs c scope) fun s (w : Nat × Nat) => s.performWb w.1 w.2) :=
    forEach (fun s (w : Nat × Nat) => performWb s w.1 w.2) _ t
  refine trans (forEach (fun s e => ?_) (s.dirtyRows c scope) s) hperform
  split
  · exact refl s
  · exact (writeBackRow s _ _).trans (performWb _ _ _)

theorem releaseHalf {s t u : State} {scope : Nat} (h : s.releaseHalf scope = .ok t u) : s.SameBundle t := by
  unfold State.releaseHalf at h
  split at h
  · cases h
  · split at h
    · cases h
      exact (releaseNow s s.cur scope).trans (updIssuer _ _)
    · split at h
      next x _ _ t' r heq =>
      have hpush : s.SameBundle t' := by
        split at heq
        · exact (pushRelease s _).fst heq
        · exact (pushRelease s _).fst heq
      split_ifs at h
      cases h
      exact hpush

theorem releaseAfter {s t u : State} {pend : Core → Nat → List Nat} {scope : Nat} (h : s.releaseAfter pend scope = .ok t u) : s.SameBundle t := by
  unfold State.releaseAfter at h
  split at h
  · cases h
  · split_ifs at h
    · exact releaseHalf h
    · exact releaseHalf h

end State.SameBundle

@[simp] theorem State.writeXY_cur (s : State) (y : Bool) (d : Reg5) (v : RV) (lat : Nat) : (s.writeXY y d v lat).cur = s.cur :=
  (State.SameBundle.writeXY s y d v lat).cur

@[simp] theorem State.writeXY_cycle (s : State) (y : Bool) (d : Reg5) (v : RV) (lat : Nat) : (s.writeXY y d v lat).cycle = s.cycle := by
  unfold State.writeXY State.updIssuer
  split
  · rfl
  · exact State.updCtx_cycle ..

@[simp] theorem State.evictWords_cur (s : State) (c a n : Nat) (l : Leaf) : (s.evictWords c a n l).cur = s.cur := (State.SameBundle.evictWords s c a n l).cur

@[simp] theorem State.homePut_cur (s : State) (a : Access) (pa n val : Nat) (psn : Bool) : (s.homePut a pa n val psn).cur = s.cur :=
  (State.MemFrame.homePut s a pa n val psn).cur

/-! ## LDACQ and STREL (11 R276, 16 R373, 18 R503) -/

/-- An LDACQ that has read its value at the home slice: the value is on its way to the register, and the acquire half at module scope is done. -/
def State.acquireLoaded (s : State) (c n : Nat) (o : MemOp) (v : RV) : State :=
  let lat := 16 + Config.latency s.free
  (({ s with free := s.free + 1 }.writeXY (ISlot.y o.sl) o.d v lat).acquireBy c n 4).updCore c fun k => { k with freeAt := max k.freeAt (s.cycle + lat) }

section
variable {s s1 s2 : State} {k : Core} {n : Nat} {x : Ctx} {o : MemOp} {l : Leaf} (hiss : s.issues k n x) (hg : s.passes o.g .pi)
  (hp : (o.base s.bun.old).p = false) (ha : o.addr s.bun.old < 2 ^ 52) (hal : o.addr s.bun.old % IType.bytes o.t = 0)
include hiss hg hp ha hal

/-- LDACQ of a good address reads at the home slice, once its words have left the stash, and takes its acquire half. -/
theorem ldacqOp_of_leaf {v : Nat} {psn : Bool} (htr : s.translate s.cur (o.addr s.bun.old) .read = (s1, .leaf l))
    (hread : (s1.evictWords s.cur (o.addr s.bun.old) (IType.bytes o.t) l).homeRead
      ((s1.evictWords s.cur (o.addr s.bun.old) (IType.bytes o.t) l).access s.cur l.ed (o.addr s.bun.old)) l.pa (IType.bytes o.t) = (s2, v, psn)) :
    ldacqOp s o = .next (s2.acquireLoaded s.cur n o ⟨IType.fit o.t (BitVec.ofNat 64 v), psn || l.psn || Guard.psn o.g .pi s.bun.old⟩) := by
  have hs1 : s.SameBundle s1 := (State.SameBundle.translate s s.cur _ .read).fst htr
  have hs2 : s2.cur = s.cur := by
    rw [((State.SameBundle.of_memFrame (.homeRead _ _ _ _)).fst hread).cur, State.evictWords_cur, hs1.cur]
  rw [ldacqOp, guarded_of_passes hiss hg]
  simp only [State.checkAddr_of_good s hp ha hal, Try.bind_ok, htr, hs1.cur, State.evictWords_cur, hread, State.writeXY_cur, State.writeXY_cycle,
    Try.finish_ok]
  rw [← hs2]
  rfl

/-- STREL to a good address writes at the home slice, once its release half is complete and its words have left the stash. -/
theorem strelOp_of_leaf {u : State} (htr : s.translate s.cur (o.addr s.bun.old) .write = (s1, .leaf l)) (hrel : s1.releaseAll 63 4 = .ok s2 u) :
    let s3 := s2.evictWords s.cur (o.addr s.bun.old) (IType.bytes o.t) l
    strelOp s o = .next ((s3.homePut (s3.access s.cur l.ed (o.addr s.bun.old)) l.pa (IType.bytes o.t) (s.bun.old.getI o.sl o.d).v.toNat
      ((s.bun.old.getI o.sl o.d).p || Guard.psn o.g .pi s.bun.old)).updCtx s.cur n
        fun x => { x with watch := storeWatch x.watch (o.addr s.bun.old) (IType.bytes o.t) }) := by
  have hs2 : s.SameBundle s2 := ((State.SameBundle.translate s s.cur _ .write).fst htr).trans (.releaseAfter hrel)
  rw [strelOp, guarded_of_passes hiss hg]
  simp only [State.checkAddr_of_good s hp ha hal, Try.bind_ok, htr, hrel, State.evictWords_cur, State.homePut_cur, hs2.cur, Try.finish_ok]

end

/-- Settles O26: what performs at the home slice is `ldacqOp_of_leaf` and `strelOp_of_leaf`. -/
theorem acquireLoadAndReleaseStore : Obligations.AcquireLoadAndReleaseStore := by
  unfold Obligations.AcquireLoadAndReleaseStore
  intro s s1 k n x o l hiss hg base d a size gp hp ha hal
  constructor
  · intro htr s2 s3 v psn hread lat t
    have hexec : ldacqOp s o = .next t := ldacqOp_of_leaf hiss hg hp ha hal htr hread
    exact ⟨fun i hi => by subst hi; exact ⟨t, hexec, rfl, rfl, rfl, rfl⟩, fun i hi => by subst hi; exact ⟨t, hexec, rfl, rfl, rfl, rfl⟩⟩
  · intro htr s2 hrel s3 t
    have hexec : strelOp s o = .next t := strelOp_of_leaf hiss hg hp ha hal htr hrel
    exact ⟨fun i hi => by subst hi; exact hexec, fun i hi => by subst hi; exact hexec⟩

end Sys2Proof.Machine
end
section
/-! SUPPORT. FENCE, RDTIME and TSTART: a release that has nothing to wait for, a FENCE that waits for commands, a gate that is armed. -/

namespace Sys2Proof.Machine

/-! ## The commands of a context that are not complete -/

/-- Whether a context has a command of a number that is not complete and may have accesses on a path of a mask. -/
def Core.accesses (k : Core) (n mask i : Nat) : Bool := (k.live n).any fun z => z.1 == i && meets z.2 mask

theorem Core.accesses_of_mem_pending {k : Core} {n mask i : Nat} (h : i ∈ k.pending n mask) : k.accesses n mask i = true := by
  obtain ⟨z, hz, hi⟩ := List.mem_filterMap.1 h
  obtain ⟨hmeets, hid⟩ := Option.ite_none_right_eq_some.1 hi
  exact List.any_eq_true.2 ⟨z, hz, by simp [hmeets, Option.some.inj hid]⟩

/-- No command has accesses on no path. -/
theorem Core.ne_zero_of_pending {k : Core} {n : Nat} {mask : BitVec 6} (h : k.pending n mask.toNat ≠ []) : mask ≠ 0 := by
  rintro rfl
  exact h (by simp [Core.pending, meets])

/-! ## The release of a FENCE (11 R271 to R273) -/

section
variable {s : State} {k : Core} {n : Nat} {x : Ctx} (hiss : s.issues k n x) {pend : Core → Nat → List Nat} {scope : Nat}
include hiss

theorem State.releaseAfter_of_complete (hpend : pend k n = []) (hrows : scope = 5 → s.rowsOut s.cur n = []) : s.releaseAfter pend scope = s.releaseHalf scope := by
  have hout : ¬(decide (scope = 5) && !(s.rowsOut s.cur n).isEmpty) = true := by simpa using hrows
  simp [State.releaseAfter, hiss.issuer_eq, hpend, hout]

theorem State.releaseAfter_of_pending (hpend : pend k n ≠ []) (hperf : s.bun.performs = false) : s.releaseAfter pend scope = .wait s.stall := by
  simp [State.releaseAfter, hiss.issuer_eq, hpend, hperf]

end

/-! ## A FENCE that waits for commands (11 R273) -/

/-- Nothing lets a FENCE go on whose commands are not complete. -/
theorem State.fenceStep_of_live {s : State} {c n : Nat} {k : Core} {f : FenceWait} (hk : s.core? c = some k) (hcmds : f.cmds ≠ []) (hhalf : f.half = none)
    (hlive : ∀ i ∈ f.cmds, k.accesses n f.pred.toNat i = true) : s.fenceStep c n [f] = (s, [f]) := by
  have hfilter : (f.cmds.filter fun i => (k.live n).any fun z => z.1 == i && meets z.2 f.pred.toNat) = f.cmds := List.filter_eq_self.2 hlive
  simp [State.fenceStep, hk, hfilter, hcmds, hhalf]
  rw [← hhalf]

/-- Context `n` of a core holds the FENCE `f` alone, the commands that this waits for are not complete, and no other context holds one. -/
structure Core.OnlyFence (k : Core) (n : Nat) (f : FenceWait) (r : Regs) : Prop where
  live : ∀ i ∈ f.cmds, k.accesses n f.pred.toNat i = true
  own : ∃ x, k.ctx? n = some x ∧ x.regs = r ∧ x.fences = [f]
  others : ∀ m x, m ≠ n → k.ctx? m = some x → x.fences = []

theorem Core.OnlyFence.of_setCtx {k : Core} {n : Nat} {f : FenceWait} {x : Ctx}
    (hlive : ∀ i ∈ f.cmds, k.accesses n f.pred.toNat i = true) (hx : x.fences = [f])
    (hothers : ∀ m y, m ≠ n → k.ctx? m = some y → y.fences = []) : (k.setCtx n x).OnlyFence n f x.regs where
  live := hlive
  own := ⟨x, Core.ctx?_setCtx_same k n x, rfl, hx⟩
  others m y hm hy := hothers m y hm (by rwa [Core.ctx?_setCtx_ne k x hm] at hy)

/-- Trying the FENCEs of a core leaves one that waits for commands as it is. -/
theorem State.tryFences_of_onlyFence {s : State} {c n : Nat} {k : Core} {f : FenceWait} {r : Regs} (hcmds : f.cmds ≠ []) (hhalf : f.half = none)
    (hk : s.core? c = some k) (honly : k.OnlyFence n f r) :
    (s.tryFences c).bun = s.bun ∧ ∃ k', (s.tryFences c).core? c = some k' ∧ k'.OnlyFence n f r := by
  refine State.forEach_keeps (fun t => t.bun = s.bun ∧ ∃ k', t.core? c = some k' ∧ k'.OnlyFence n f r) (fun t m ht => ?_) (List.range 4) s
    ⟨rfl, k, hk, honly⟩
  obtain ⟨hbun, k', hk', honly'⟩ := ht
  obtain ⟨x, hx, rfl, hfence⟩ := honly'.own
  have hctx : t.ctx? c m = k'.ctx? m := by rw [State.ctx?, hk', Option.bind_some]
  by_cases hm : m = n
  · subst hm
    simp only [hctx, hx, hfence, List.isEmpty_cons, Bool.false_eq_true, if_false, State.fenceStep_of_live hk' hcmds hhalf honly'.live, lt_irrefl]
    exact ⟨by rw [State.updCtx_bun, hbun], _, State.core?_updCtx_same _ hk' hx, .of_setCtx honly'.live rfl honly'.others⟩
  · cases hy : k'.ctx? m with
    | none => simpa only [hctx, hy] using ⟨hbun, k', hk', honly'⟩
    | some y => simpa only [hctx, hy, honly'.others m y hm hy, List.isEmpty_nil, if_true] using ⟨hbun, k', hk', honly'⟩

/-! ## FENCE (18 R482, R483) -/

/-- The paths that a FENCE names as those of its successors, I or V: the context itself waits. -/
theorem succ_names_iv_iff (v : BitVec 6) : bitsOf v 0 2 ≠ 0 ↔ (v.getLsbD 0 || v.getLsbD 1) = true := by
  rw [bitsOf_ne_zero_iff]
  constructor
  · rintro ⟨i, hi, h⟩
    obtain rfl | rfl : i = 0 ∨ i = 1 := by omega
    · simp [h]
    · simp [h]
  · intro h
    rcases Bool.or_eq_true_iff.1 h with h | h
    · exact ⟨0, by decide, h⟩
    · exact ⟨1, by decide, h⟩

section
variable {s : State} {k : Core} {n : Nat} {x : Ctx} {o : OpFence} (hiss : s.issues k n x) (hg : s.passes o.g .pk)
include hiss hg

theorem execFence_of_none (hpred : o.pred = 0) (hsucc : o.succ = 0) : execFence o s = .next s := by
  simp [execFence, guarded_of_passes hiss hg, hpred, hsucc]

/-- One whose successors name I or V takes its acquire half once its release is complete. -/
theorem execFence_of_iv (hiv : bitsOf o.succ 0 2 ≠ 0) :
    let sc := fenceScopes o.pred o.succ o.scope.toNat
    execFence o s = .next ((if o.pred = 0 then .ok s s else s.releaseAfter (fun k n => k.pending n o.pred.toNat) sc.1 : Try State).bind
      fun t _ => .ok (t.acquireBy t.cur n sc.2) (t.acquireBy t.cur n sc.2)).finish := by
  have hsucc : o.succ ≠ 0 := fun h => hiv (by rw [h]; rfl)
  rw [execFence, guarded_of_passes hiss hg]
  simp only [(succ_names_iv_iff o.succ).1 hiv, hsucc, decide_false, Bool.and_false, Bool.false_eq_true, if_false, if_true]

/-- One that lets its context go on, with earlier commands to wait for, where no context of its core holds a FENCE: it stands in its context. -/
theorem execFence_of_waiting (hnot : bitsOf o.succ 0 2 = 0) (hnone : ∀ m y, k.ctx? m = some y → y.fences = [])
    (hearlier : ((k.pending n o.pred.toNat).filter fun i => decide (i < s.bun.cmd0)) ≠ []) :
    let sc := fenceScopes o.pred o.succ o.scope.toNat
    let f : FenceWait := ⟨k.nextCmd, o.pred, o.succ, (k.pending n o.pred.toNat).filter fun i => decide (i < s.bun.cmd0), none, sc.1, sc.2⟩
    ∃ t x', execFence o s = .next t ∧ t.bun = s.bun ∧ t.ctx? s.cur n = some x' ∧ x'.regs = x.regs ∧ x'.fences = [f] := by
  intro sc f
  have hpred : o.pred ≠ 0 := Core.ne_zero_of_pending fun h => hearlier (by rw [h, List.filter_nil])
  have hiv : ¬(o.succ.getLsbD 0 || o.succ.getLsbD 1) = true := fun h => (succ_names_iv_iff o.succ).2 h hnot
  have ⟨hk, _, hx⟩ := hiss
  let k1 : Core := { k with nextCmd := k.nextCmd + 1 }
  let s1 := s.updCore s.cur fun k => { k with nextCmd := k.nextCmd + 1 }
  let s2 := s1.updCtx s.cur n fun x => { x with fences := x.fences ++ [f] }
  have hk1 : s1.core? s.cur = some k1 := by rw [State.core?_updCore_same, hk, Option.map_some]
  have hk2 : s2.core? s.cur = some (k1.setCtx n { x with fences := x.fences ++ [f] }) := State.core?_updCtx_same _ hk1 hx
  have honly : (k1.setCtx n { x with fences := x.fences ++ [f] }).OnlyFence n f x.regs :=
    .of_setCtx (fun i hi => Core.accesses_of_mem_pending (List.mem_of_mem_filter hi)) (by simp [hnone n x hx]) fun m y _ hy => hnone m y hy
  obtain ⟨hbun, k', hk', honly'⟩ := State.tryFences_of_onlyFence hearlier rfl hk2 honly
  obtain ⟨x', hx', hregs, hfences⟩ := honly'.own
  refine ⟨s2.tryFences s.cur, x', ?_, by rw [hbun, State.updCtx_bun, State.updCore_bun], by rw [State.ctx?, hk', Option.bind_some, hx'], hregs, hfences⟩
  rw [execFence, guarded_of_passes hiss hg]
  simp only [hpred, hiv, decide_false, Bool.false_and, Bool.false_eq_true, if_false, State.updCtx_cur, State.updCore_cur, Try.finish_ok]
  rfl

end

/-! ## RDTIME and TSTART (09 R233, R234) -/

theorem execRdtime_of_passes {s : State} {k : Core} {n : Nat} {x : Ctx} {o : OpRdtime} (hiss : s.issues k n x) (hg : s.passes o.g .pk) :
    execRdtime o s = .next (s.writeXY o.fs o.d ⟨BitVec.ofNat 64 s.ticks, Guard.psn o.g .pk s.bun.old⟩ 4) := by
  simp only [State.passes] at hg
  rw [execRdtime, slotOp_eq hiss, if_pos hg]

/-- A gate that is armed, and its event. -/
theorem State.armGate_arms {s : State} {c : Nat} {k : Core} (hk : s.core? c = some k) (i : Nat) (g : Gate) :
    (∃ k', (s.armGate c i g).core? c = some k' ∧ Tab.get none k'.gates i = some g) ∧ ∃ d, (d, Event.timeGateFire c i) ∈ (s.armGate c i g).agenda := by
  refine ⟨⟨{ k with gates := Tab.set none k.gates i (some g) }, ?_, Tab.get_set_some k.gates i g⟩, _, State.mem_post _ _ _⟩
  rw [State.armGate, State.core?_post, State.core?_updCore_same, hk, Option.map_some]

section
variable {s : State} {k : Core} {n : Nat} {x : Ctx} {o : OpTstart} (hiss : s.issues k n x) (hg : s.passes o.g .pk)
  (hp : (s.bun.old.getXY o.fs o.a.toNat).p = false)
include hiss hg hp

theorem execTstart_of_freeGate {i : Nat} (hfree : k.freeGate = some i) :
    execTstart o s = .next (s.armGate s.cur i ⟨(s.bun.old.getXY o.fs o.a.toNat).v, o.sem.toNat, o.inc.toNat, n, false⟩) := by
  rw [execTstart, guarded_of_passes hiss hg]
  simp only [hp, hfree, Bool.false_eq_true, if_false, Try.finish_ok]

theorem execTstart_of_noGate (hfree : k.freeGate = none) : execTstart o s = .next s.stall := by
  rw [execTstart, guarded_of_passes hiss hg]
  simp only [hp, hfree, Bool.false_eq_true, if_false, Try.finish_wait]

end

/-- Settles O41: FENCE by what its successors name and what it has to wait for, then RDTIME and TSTART. -/
theorem fenceAndTime : Obligations.FenceAndTime := by
  unfold Obligations.FenceAndTime
  intro s k n x hiss
  refine ⟨?_, fun o hg => execRdtime_of_passes hiss hg, fun o hg hp => ⟨fun i hfree => ?_, execTstart_of_noGate hiss hg hp⟩⟩
  · intro o hg sc
    refine ⟨execFence_of_none hiss hg, fun hpred hiv => ?_, fun s1 u hpred hiv hpend hrows hhalf => ?_, fun hpend hiv hperf => ?_, ?_⟩
    · exact (execFence_of_iv hiss hg hiv).trans (by rw [if_pos hpred, Try.bind_ok, Try.finish_ok])
    · exact (execFence_of_iv hiss hg hiv).trans (by
        rw [if_neg hpred, State.releaseAfter_of_complete hiss hpend hrows, hhalf, Try.bind_ok, Try.finish_ok])
    · exact (execFence_of_iv hiss hg hiv).trans (by
        rw [if_neg (Core.ne_zero_of_pending hpend), State.releaseAfter_of_pending hiss hpend hperf, Try.bind_wait, Try.finish_wait])
    · intro earlier hearlier hnot _ hnone
      exact execFence_of_waiting hiss hg hnot hnone hearlier
  · have ⟨hk, _, _⟩ := hiss
    obtain ⟨⟨k', hk', hgate⟩, hevent⟩ := State.armGate_arms hk i ⟨(s.bun.old.getXY o.fs o.a.toNat).v, o.sem.toNat, o.inc.toNat, n, false⟩
    exact ⟨_, k', execTstart_of_freeGate hiss hg hp hfree, hk', hgate, hevent⟩

end Sys2Proof.Machine
end
section
/-! SUPPORT. Trap entry and kills (12 R284, R287), by what posts events alone. -/

namespace Sys2Proof.Machine

/-! ## Posting events alone -/

/-- From `s` to `t` nothing but the agenda has changed. -/
def State.Posts (s t : State) : Prop := t = { s with agenda := t.agenda }

namespace State.Posts

theorem refl (s : State) : s.Posts s := rfl

theorem trans {s t u : State} (h : s.Posts t) (h' : t.Posts u) : s.Posts u := by
  rw [State.Posts] at h h' ⊢
  rw [h', h]

theorem post (s : State) (d : Nat) (e : Event) : s.Posts (s.post d e) := rfl

theorem postOnce (s : State) (d : Nat) (e : Event) : s.Posts (s.postOnce d e) := by
  unfold State.postOnce
  split
  · exact refl s
  · exact post s d e

theorem forEach {α : Type} {f : State → α → State} (h : ∀ (s : State) (x : α), s.Posts (f s x)) (l : List α) (s : State) : s.Posts (s.forEach l f) :=
  State.forEach_keeps (fun t => s.Posts t) (fun t x ht => ht.trans (h t x)) l s (refl s)

theorem wakeRings (s : State) : s.Posts s.wakeRings := by
  refine forEach (fun s kv => ?_) _ s
  split
  · exact refl s
  · refine forEach (fun s hv => ?_) _ s
    split
    · exact refl s
    · split
      · exact refl s
      · exact postOnce s _ _

theorem wakeFlows (s : State) (l : Nat) : s.Posts (s.wakeFlows l) := by
  refine trans (forEach (fun s kv => ?_) _ s) (wakeRings _)
  split
  · exact refl s
  · split
    · exact (postOnce s _ _).trans (postOnce _ _ _)
    · exact refl s

/-- A context that is held no longer: whatever else this does is to post events. -/
theorem endHolding (s : State) (c n : Nat) : (s.updCtx c n fun x => { x with hold := .none }).Posts (s.endHolding c n) := by
  unfold State.endHolding
  dsimp only
  split
  · exact refl _
  · split
    · exact wakeFlows _ _
    · exact refl _

section
variable {s t : State} (h : s.Posts t)
include h

theorem cores : t.cores = s.cores := by rw [h]
theorem time18 : t.time18 = s.time18 := by rw [h]
theorem core? (c : Nat) : t.core? c = s.core? c := by rw [State.core?, h.cores, State.core?]
theorem ctx? (c n : Nat) : t.ctx? c n = s.ctx? c n := by rw [State.ctx?, h.core?, State.ctx?]

end

end State.Posts

theorem State.core?_endHolding {s : State} {c n : Nat} {k : Core} {x : Ctx} (hk : s.core? c = some k) (hx : k.ctx? n = some x) :
    (s.endHolding c n).core? c = some (k.setCtx n { x with hold := .none }) :=
  ((State.Posts.endHolding s c n).core? c).trans (State.core?_updCtx_same _ hk hx)

@[simp] theorem State.endHolding_time18 (s : State) (c n : Nat) : (s.endHolding c n).time18 = s.time18 :=
  (State.Posts.endHolding s c n).time18.trans (State.updCtx_time18 ..)

/-- The routine's address is the 50 bits of TVEC above its lowest two, as a number of words (12 R284). -/
theorem CtxRegs.toNat_routine (sr : CtxRegs) : sr.routine.toNat = 4 * bitsOf sr.tvec 2 50 := by
  have hlt : bitsOf sr.tvec 2 50 < 2 ^ 50 := Nat.mod_lt _ (by decide)
  rw [CtxRegs.routine, BitVec.toNat_ofNat, Nat.mod_eq_of_lt (by omega), Nat.mul_comm]

/-! ## Traps that enter -/

/-- The context in its routine, after a precise trap of the bundle at hand. -/
def State.trapped (s : State) (x : Ctx) (cause : Nat) (info : Word64) : Ctx :=
  { ({ x with hold := .none } : Ctx).enterTrap s.bun.pc cause false info (brpendOf s.bun.win) with timer := none }

theorem State.updCore_eq_with (s : State) (c : Nat) (f : Core → Core) : s.updCore c f = { s with cores := (s.updCore c f).cores } := by
  unfold State.updCore
  split <;> rfl

/-- A precise trap that enters changes its context and when its core issues, and beyond the cores and the agenda marks the bundle alone (12 R284). -/
theorem State.core?_trap_of_traps {s : State} {k : Core} {n : Nat} {x : Ctx} (h : s.issues k n x) (ht : x.traps true = true) (cause : Nat) (info : Word64) :
    (∃ k', (s.trap cause info).core? s.cur = some k' ∧ k'.ctx? n = some (s.trapped x cause info) ∧ k'.freeAt = s.cycle + 5 ∧
      ∀ m, m ≠ n → k'.ctx? m = k.ctx? m) ∧
    (∀ c, c ≠ s.cur → (s.trap cause info).core? c = s.core? c) ∧
    s.trap cause info = { s with
      cores := (s.trap cause info).cores, agenda := (s.trap cause info).agenda, bun := { s.bun with status := .trapped } } := by
  obtain ⟨hk, hn, hx⟩ := h
  rw [State.trap_of_traps ⟨hk, hn, hx⟩ ht]
  let s0 : State := { s with bun := { s.bun with status := .trapped } }
  have hposts : (s0.updCtx s.cur n fun x => { x with hold := .none }).Posts (s0.endHolding s.cur n) := .endHolding s0 s.cur n
  have hk1 : (s0.endHolding s.cur n).core? s.cur = _ := State.core?_endHolding hk hx
  have hk2 := State.core?_updCtx_same (fun x => { x.enterTrap s.bun.pc cause false info (brpendOf s.bun.win) with timer := none }) hk1
    (Core.ctx?_setCtx_same k n _)
  refine ⟨⟨_, (State.core?_updCore_same ..).trans (congrArg (Option.map _) hk2), Core.ctx?_setCtx_same (k.setCtx n _) n _, rfl, fun m hm => ?_⟩,
    fun c hc => ?_, ?_⟩
  · exact (Core.ctx?_setCtx_ne _ _ hm).trans (Core.ctx?_setCtx_ne k _ hm)
  · rw [State.core?_updCore_ne _ _ hc, State.updCtx, State.core?_updCore_ne _ _ hc, hposts.core? c, State.updCtx, State.core?_updCore_ne _ _ hc]
    rfl
  · have hrest : s0.endHolding s.cur n = { s0 with cores := (s0.endHolding s.cur n).cores, agenda := (s0.endHolding s.cur n).agenda } := by
      rw [hposts, State.updCtx_eq_with]
    change _ = ({ s0 with cores := _, agenda := _ } : State)
    rw [State.updCore_eq_with, State.updCtx_eq_with, hrest]

/-! ## Kills (12 R287) -/

theorem State.switchOut_time18 (s : State) (c n : Nat) (st : CtxState) : (s.switchOut c n st).time18 = s.time18 := by
  have hcount : ∀ m, (s.countIssue c m).time18 = s.time18 := fun m => by
    unfold State.countIssue
    split <;> simp
  unfold State.switchOut
  simp only [State.updCore_time18, State.updCtx_time18]
  split
  · rfl
  · split
    · rfl
    · exact hcount _

/-- Cancelling streams leaves the contexts. -/
theorem State.ctx?_cancelStreams (s : State) (c n c' n' : Nat) : (s.cancelStreams c n).ctx? c' n' = s.ctx? c' n' := by
  unfold State.cancelStreams
  split
  · rfl
  · extract_lets mine t
    have hposts : t.Posts (mine.foldl (fun s q => (s.post 1 (.streamDataArrival c q)).post 1 (.streamRetire c q)) t) :=
      .forEach (f := fun s q => (s.post 1 (.streamDataArrival c q)).post 1 (.streamRetire c q)) (fun s q => (State.Posts.post s _ _).trans (.post _ _ _)) mine t
    rw [hposts.ctx?]
    refine State.ctx?_updCore s c ?_ c' n'
    exact fun _ => rfl

/-- A kill leaves its context EMPTY, with its cause, at this TIME (12 R287). -/
theorem State.ctx?_kill {s : State} {c n : Nat} {k : Core} {x : Ctx} (hk : s.core? c = some k) (hx : k.ctx? n = some x) (cause : Nat) (info : Word64) :
    ∃ x', (s.kill c n cause info).ctx? c n = some x' ∧ x'.st = .empty ∧ x'.sr.trapcause = BitVec.ofNat 64 cause ∧ x'.sr.trapinfo = info ∧
      x'.pend = Pending.none ∧ x'.killed = some (cause, s.ticks) := by
  obtain ⟨k1, x1, hk1, hx1, hst, -⟩ := State.core?_switchOut_cases hk hx .empty
  unfold State.kill
  split
  · next hnone => rw [hk] at hnone; cases hnone
  extract_lets s1 s2 s3 s4 s5 s6
  have hx1' : s1.ctx? c n = some { x1 with hold := .none } := by
    rw [State.ctx?_of_core? (State.core?_endHolding hk1 hx1), Core.ctx?_setCtx_same]
  have hticks : s1.ticks = s.ticks := by rw [State.ticks, State.endHolding_time18, State.switchOut_time18, State.ticks]
  have hx2 := State.ctx?_updCtx_of_some hx1' fun x => { x with
    pend := Pending.none, armed := [], sat := [], fills := [], timer := none, rel := none, win := none, holdQ := .none
    killed := some (cause, s1.ticks)
    sr := { x.sr with trapcause := BitVec.ofNat 64 cause, trapinfo := info, taskid := 0 } }
  refine ⟨_, Eq.trans ?_ hx2, hst, rfl, rfl, rfl, by rw [hticks]⟩
  have hx3 : s3.ctx? c n = s2.ctx? c n := State.ctx?_cancelStreams s2 c n c n
  have hx4 : s4.ctx? c n = s3.ctx? c n := (State.Posts.postOnce _ _ _).ctx? c n |>.trans (by
    refine State.ctx?_updCore s3 c ?_ c n
    exact fun _ => rfl)
  have hposts6 : s4.Posts s6 := by
    have h5 : s4.Posts s5 := by
      simp only [s5]
      split
      · exact .postOnce _ _ _
      · exact .refl _
    simp only [s6]
    split
    · exact h5.trans (.postOnce _ _ _)
    · exact h5
  have hx6 : s6.ctx? c n = s2.ctx? c n := (hposts6.ctx? c n).trans (hx4.trans hx3)
  split
  · exact hx6
  · refine Eq.trans ?_ hx6
    rw [(State.Posts.postOnce _ _ _).ctx?, (State.Posts.postOnce _ _ _).ctx?, (State.Posts.post _ _ _).ctx?]
    simp [State.ctx?, State.core?]

/-- Settles O19: a trap that enters by `State.core?_trap_of_traps`, one that does not by `State.ctx?_kill`. -/
theorem trapEntrySavesAndEnters : Obligations.TrapEntrySavesAndEnters := by
  unfold Obligations.TrapEntrySavesAndEnters
  refine ⟨fun s k n x cause info hiss hcause hvec hmode => ?_, fun s k n x cause info hiss hno => ?_⟩
  · have htraps : x.traps true = true := by simpa [Ctx.traps, hvec] using hmode
    obtain ⟨⟨k', hk', hx', hfree, hothers⟩, hcores, hrest⟩ := State.core?_trap_of_traps hiss htraps cause info
    refine ⟨k', _, hk', hx', rfl, rfl, rfl, rfl, rfl, rfl, rfl, rfl, fun m hm => ⟨get_nestRegs _ _ hm, get_nestRegs _ _ hm⟩, x.sr.toNat_routine,
      rfl, rfl, rfl, rfl, hfree, hothers, hcores, fun a => ?_⟩
    rw [hrest]
    rfl
  · have htraps : x.traps true = false := by
      obtain hvec | ⟨hmode, hnest⟩ := hno
      · rw [Ctx.traps, hvec, Bool.false_and]
      · simp [Ctx.traps, hmode, hnest]
    rw [State.trap_of_not_traps hiss htraps]
    obtain ⟨hk, hn, hx⟩ := hiss
    let s0 : State := { s with bun := { s.bun with status := .trapped } }
    have hk1 : (s0.endHolding s.cur n).core? s.cur = _ := State.core?_endHolding hk hx
    have hticks : (s0.endHolding s.cur n).ticks = s.ticks := by rw [State.ticks, State.endHolding_time18, State.ticks]
    obtain ⟨x', hx', hst, hc, hi, hpend, hkilled⟩ := State.ctx?_kill hk1 (Core.ctx?_setCtx_same k n _) cause info
    exact ⟨x', hx', hst, hc, hi, hpend, hticks ▸ hkilled⟩

end Sys2Proof.Machine
end
section
/-! SUPPORT. The watchdog and pre-emption (12 R291 to R293, R298), a replayed cycle (R299), and the course of a sparing (R302). -/

namespace Sys2Proof.Machine

/-! ## The watchdog -/

/-- A context that may take a pending event is not BLOCKED once it has been woken (12 R286, 03 R67). -/
theorem Ctx.wake_ne_blocked {x : Ctx} (hpend : x.pend.any = true) (hmode : x.sr.tmode = false) (hwin : x.win = none) (now : Nat) :
    (x.wake now).st ≠ .blocked := by
  have hwake : (x.pend.any && !x.sr.tmode && x.win.isNone) = true := by rw [hpend, hmode, hwin]; rfl
  rw [Ctx.wake, if_pos hwake, Ctx.ready]
  split
  · exact nofun
  · next h => exact h

/-- A context at which WATCHDOG is pending, with what holds it. -/
def Ctx.timedOut (x : Ctx) : Ctx := { x with pend := { x.pend with watchdog := some x.heldBy } }

/-- WATCHDOG of a context whose timer has reached the limit: pending outside trap mode, a kill within (12 R291). -/
theorem execWatchdog_of_expired {s : State} {c n : Nat} {x : Ctx} {p : Part} {t : Nat} (hev : s.ev = .watchdog c n) (hx : s.ctx? c n = some x)
    (hp : s.part? (s.partOf c) = some p) (htimer : x.timer = some t) (hst : x.st = .issuing ∨ x.st = .blocked) (hlim : bitsOf p.wdcfg 0 16 ≠ 0)
    (hnone : x.pend.watchdog = none) (hdue : t + bitsOf p.wdcfg 0 16 * 1000000 ≤ s.ticks) :
    exec .watchdog s = .next (if x.sr.tmode then (s.landLate c n).kill c n 0x17 (BitVec.ofNat 64 x.heldBy)
      else s.updCtx c n fun x => x.timedOut.wake s.cycle) := by
  have hstands : (x.st = .empty || x.st = .ready || bitsOf p.wdcfg 0 16 * 1000000 = 0 || x.pend.watchdog.isSome) = false := by
    obtain hst | hst := hst <;> simp [hst, hnone, hlim]
  change execWatchdog s = _
  simp only [execWatchdog, hev, hx, hp, htimer, hstands, Nat.not_lt.2 hdue, Bool.false_eq_true, if_false]
  rfl

/-! ## Requests (12 R292) -/

/-- A request that is accepted (12 R292, R293). -/
theorem execPrectlGo_of_accepted {s : State} {p l : Nat} {v : Word64} {q : Part} {x : Cluster} {y : Launch} (hev : s.ev = .prectlGo p v)
    (hp : s.part? p = some q) (hx : s.cluster? (bitsOf v 0 7) = some x) (hl : x.launch = some l) (hy : s.launch? l = some y) (hpart : y.part = p)
    (hbusy : q.prectlBusy = false) (hen : Fuses.enabled s.module.fuses (bitsOf v 0 7) = true) :
    let s1 := (s.updPart p fun x => { x with prectlCluster := BitVec.ofNat 7 (bitsOf v 0 7), prectlBusy := true, prectlRej := false }).updLaunch l fun q =>
      { q with aborted := true, preempt := some s.ticks }
    let s2 := s1.forEach (s1.coresOf l) fun s' c => (s'.freezeCommands c (fun _ => true) none).updCore c fun k => k.mapCtxs fun _ x =>
      if x.st = .empty then x
      else ({ x with pend := { x.pend with preempt := some (BitVec.ofNat 64 s.ticks) } } : Ctx).wake (s'.freezeCommands c (fun _ => true) none).cycle
    exec .prectlGo s = .next ((s2.post (s2.cyclesOf q.prelim) (.preemptLimitExpiry l)).postOnce 1 (.launchCompletion l)) := by
  have hlaunch : (((s.cluster? (bitsOf v 0 7)).bind (·.launch)).bind fun l => (s.launch? l).map fun q => (l, q)) = some (l, y) := by simp [hx, hl, hy]
  have haccept : (!Fuses.enabled s.module.fuses (bitsOf v 0 7) || decide (y.part ≠ p) || q.prectlBusy) = false := by simp [hen, hpart, hbusy]
  have hticks : ∀ f g, ((s.updPart p f).updLaunch l g).ticks = s.ticks := fun f g => by
    rw [State.ticks, State.updLaunch_time18, State.updPart_time18, State.ticks]
  have hticks' : ∀ f, (s.updPart p f).ticks = s.ticks := fun f => by rw [State.ticks, State.updPart_time18, State.ticks]
  change execPrectlGo s = _
  simp only [execPrectlGo, hev, hp, hlaunch, haccept, hticks, hticks', Bool.false_eq_true, if_false]

/-- A request that is refused: REJ is set (12 R292). -/
theorem execPrectlGo_of_refused {s : State} {p : Nat} {v : Word64} {q : Part} (hev : s.ev = .prectlGo p v) (hp : s.part? p = some q)
    (hno : q.prectlBusy = true ∨ ∀ x l, s.cluster? (bitsOf v 0 7) = some x → x.launch = some l → s.launch? l = none) :
    exec .prectlGo s = .next (s.updPart p fun x => { x with prectlRej := true }) := by
  change execPrectlGo s = _
  simp only [execPrectlGo, hev, hp]
  split
  · rfl
  · next l y heq =>
    obtain hbusy | hfree := hno
    · simp only [hbusy, Bool.or_true, if_true]
    · obtain ⟨l', hl', hy⟩ := Option.bind_eq_some_iff.1 heq
      obtain ⟨x, hx, hxl⟩ := Option.bind_eq_some_iff.1 hl'
      rw [hfree x l' hx hxl] at hy
      cases hy

/-! ## Replays (12 R299) -/

/-- The core after it has been frozen for one cycle or more (10 R255). -/
theorem State.core?_freeze {s : State} {c f : Nat} {k : Core} (of : Event → Option Nat) (hf : f ≠ 0) (hk : (s.mxSettle c).core? c = some k) :
    ∃ k', (s.freeze of c f).core? c = some k' ∧ k'.silcnt = k.silcnt ∧ k'.frozenTo = max k.frozenTo s.cycle + f := by
  unfold State.freeze
  rw [if_neg hf]
  extract_lets u now op v
  have hv : v.core? c = _ := (State.core?_updCore_same ..).trans (congrArg (Option.map _) hk)
  refine ⟨_, hv, rfl, ?_⟩
  rw [← State.mxSettle_cycle s c]

/-- A core with one more replay counted in SILCNT. -/
def Core.countReplay (k : Core) : Core := { k with silcnt := setBits k.silcnt 0 16 (min 65535 (bitsOf k.silcnt 0 16 + 1)) }

/-- SHADOW_LATCH_REPLAY freezes its core for two cycles. -/
theorem core?_execShadowLatchReplay {s : State} {c : Nat} {k : Core} (hev : s.ev = .shadowLatchReplay c)
    (hk : ((s.updCore c Core.countReplay).mxSettle c).core? c = some k) :
    ∃ t k', exec .shadowLatchReplay s = .next t ∧ t.core? c = some k' ∧ k'.silcnt = k.silcnt ∧
      k'.frozenTo = max k.frozenTo ((s.updCore c Core.countReplay).mxSettle c).cycle + 2 := by
  obtain ⟨k', hk', hsil, hfrozen⟩ := State.core?_freeze Event.ofCore (show (2 : Nat) ≠ 0 by decide) hk
  refine ⟨((s.updCore c Core.countReplay).freeze Event.ofCore c 2).updRouter c fun t =>
    { t with busy := t.busy.map fun e => if s.cycle < e.2 then (e.1, e.2 + 2) else e }, k', ?_, ?_, hsil, by rw [hfrozen, State.mxSettle_cycle]⟩
  · change execShadowLatchReplay s = _
    simp only [execShadowLatchReplay, hev]
    rfl
  · rw [State.core?, State.updRouter_cores]
    exact hk'

/-! ## The course of a sparing (12 R302) -/

/-- The corrected errors that count toward a row. -/
def Module.rowCount (m : Module) (b r : Nat) : Nat := (m.rowErrs.find? fun e => (e.1, e.2.1) == (b, r)).elim 0 fun e => e.2.2

/-- The spare rows of a bank. -/
def Module.bank (m : Module) (b : Nat) : HbmBank := Tab.get (⟨0, 0⟩ : HbmBank) m.banks b

/-- The module with the spare rows of a bank replaced. -/
def Module.setBank (m : Module) (b : Nat) (x : HbmBank) : Module := { m with banks := Tab.set (⟨0, 0⟩ : HbmBank) m.banks b x }

theorem Module.bank_setBank_same (m : Module) (b : Nat) {x : HbmBank} (h : x ≠ ⟨0, 0⟩) : (m.setBank b x).bank b = x := Tab.get_set_same _ m.banks b h

/-- A bit that is set leaves a word that is not zero. -/
theorem or_two_pow_ne_zero (v : BitVec 8) {i : Nat} (h : i < 8) : v ||| BitVec.ofNat 8 (2 ^ i) ≠ 0 := fun h0 => by
  have hbit : (v ||| BitVec.ofNat 8 (2 ^ i)).getLsbD i = true := by
    rw [BitVec.getLsbD_or, BitVec.getLsbD_ofNat, decide_eq_true h, Nat.testBit_two_pow_self, Bool.and_true, Bool.or_true]
  rw [h0] at hbit
  exact Bool.noConfusion (hbit.symm.trans BitVec.getLsbD_zero)

@[simp] theorem State.notice_module (s : State) (p cause : Nat) (info : Word64) : (s.notice p cause info).module = s.module := by
  unfold State.notice State.wakeControl
  split <;> simp

/-- A sparing begins at the lowest-numbered good spare of its bank. -/
theorem State.startSparing_of_spare {s : State} {sec i : Nat} (h : (s.module.bank (Config.bankOf sec)).spare = some i) :
    s.startSparing sec = { s with module := { s.module with sparing := some ⟨sec, Config.bankOf sec, Config.rowOf sec, i, 0⟩ } } := by
  rw [Module.bank] at h
  simp only [State.startSparing, h]

/-- Where there is none the row is kept, and at most counted as retired. -/
theorem State.startSparing_of_none {s : State} {sec : Nat} (h : (s.module.bank (Config.bankOf sec)).spare = none) :
    (s.startSparing sec).module = { s.module with kept := (s.startSparing sec).module.kept, retired := (s.startSparing sec).module.retired } := by
  rw [Module.bank] at h
  simp only [State.startSparing, h]
  split
  · rfl
  · simp only [State.notice_module]

theorem State.nextSparing_of_none {s : State} (h : s.module.toSpare = []) : s.nextSparing = s := by simp only [State.nextSparing, h]

/-- Looking for a row among those that are not of it. -/
theorem find?_filter_not {α : Type} (p : α → Bool) (l : List α) : (l.filter fun e => !p e).find? p = none :=
  List.find?_eq_none.2 fun e he => by simpa using (List.mem_filter.1 he).2

section
variable (s : State) (sec : Nat)

/-- The module with one more corrected error of the row of a sector. -/
def Module.counted (m : Module) (sec : Nat) : Module :=
  { m with rowErrs := (Config.bankOf sec, Config.rowOf sec, m.rowCount (Config.bankOf sec) (Config.rowOf sec) + 1) ::
      m.rowErrs.filter fun e => !((e.1, e.2.1) == (Config.bankOf sec, Config.rowOf sec)) }

/-- A row whose count stays below the threshold is counted alone. -/
theorem State.countCorrected_of_below (h : s.module.rowCount (Config.bankOf sec) (Config.rowOf sec) + 1 < max 1 s.module.rspThr.toNat) :
    s.countCorrected sec = { s with module := s.module.counted sec } := by
  rw [Module.rowCount] at h
  simp only [State.countCorrected, h, decide_true, Bool.true_or, if_true]
  rfl

/-- A corrected error counts toward its row. -/
theorem State.rowErrs_countCorrected : (s.countCorrected sec).module.rowErrs = (s.module.counted sec).rowErrs := by
  have hstart : ∀ t : State, (t.startSparing sec).module.rowErrs = t.module.rowErrs := fun t => by
    cases h : (t.module.bank (Config.bankOf sec)).spare with
    | none => rw [State.startSparing_of_none h]
    | some i => rw [State.startSparing_of_spare h]
  unfold State.countCorrected
  extract_lets key n _ t known
  split
  · rfl
  · split
    · rfl
    · exact hstart t

/-- At the threshold the sparing of a row begins, where none is under way or waits and the row is not kept as it is. -/
theorem State.countCorrected_of_reached {i : Nat} (hthr : max 1 s.module.rspThr.toNat ≤ s.module.rowCount (Config.bankOf sec) (Config.rowOf sec) + 1)
    (hnone : s.module.sparing = none) (hwait : s.module.toSpare = []) (hkept : s.module.kept.contains (Config.bankOf sec, Config.rowOf sec) = false)
    (hspare : (s.module.bank (Config.bankOf sec)).spare = some i) :
    (s.countCorrected sec).module.sparing = some ⟨sec, Config.bankOf sec, Config.rowOf sec, i, 0⟩ := by
  rw [Module.rowCount] at hthr
  unfold State.countCorrected
  extract_lets key n m t known
  have hknown : known = false := by simp only [known, t, m, key, hkept, hnone, hwait, Option.any_none, List.any_nil, Bool.or_self]
  have hfree : t.module.sparing.isSome = false := by simp only [t, m, hnone, Option.isSome_none]
  have hbelow : ¬(decide (n < max 1 t.module.rspThr.toNat) || known) = true := by
    rw [hknown, Bool.or_false, decide_eq_true_eq]
    exact Nat.not_lt.2 hthr
  have hspare' : (t.module.bank (Config.bankOf sec)).spare = some i := hspare
  rw [if_neg hbelow, if_neg (by rw [hfree]; exact Bool.false_ne_true), State.startSparing_of_spare hspare']

end

/-- The module once the spare at hand is marked bad and its copy has stopped. -/
def Module.dropSpare (m : Module) (x : Sparing) : Module :=
  { m.setBank x.bank { m.bank x.bank with bad := (m.bank x.bank).bad ||| BitVec.ofNat 8 (2 ^ x.spare) } with sparing := none }

/-- The spare is marked bad. -/
theorem Module.bank_dropSpare {x : Sparing} (m : Module) (h : x.spare < 8) :
    (m.dropSpare x).bank x.bank = ⟨(m.bank x.bank).used, (m.bank x.bank).bad ||| BitVec.ofNat 8 (2 ^ x.spare)⟩ :=
  m.bank_setBank_same x.bank fun h0 => or_two_pow_ne_zero _ h (congrArg HbmBank.bad h0)

section
variable {s : State} {x : Sparing} (hx : s.module.sparing = some x)
include hx

/-- A sector that is copied is followed by the next. -/
theorem execRowSparing_of_copied (hev : s.ev = .rowSparing (.copied true false)) :
    exec .rowSparing s = .next { s with module := { s.module with sparing := some { x with sector := x.sector + 1 } } } := by
  change execRowSparing s = _
  simp only [execRowSparing, hev, hx, Bool.not_true, Bool.false_eq_true, if_false]

/-- An error read back marks the spare bad, and the copy begins again or is given up. -/
theorem execRowSparing_of_bad {last : Bool} (hev : s.ev = .rowSparing (.copied false last)) :
    exec .rowSparing s =
      let t := ({ s with module := s.module.dropSpare x } : State).startSparing x.sec
      .next (if t.module.sparing.isNone then t.nextSparing else { t with module := { t.module with restart := satInc16 t.module.restart 1 } }) := by
  change execRowSparing s = _
  simp only [execRowSparing, hev, hx, Bool.not_false, if_true]
  rw [← hev]
  rfl

/-- After the last sector the spare serves, and its row counts no errors. -/
theorem execRowSparing_of_last (hev : s.ev = .rowSparing (.copied true true)) (hspare : x.spare < 8) (hwait : s.module.toSpare = []) :
    ∃ t, exec .rowSparing s = .next t ∧ t.module.spared = satInc16 s.module.spared 1 ∧ t.mem = s.mem ∧ t.module.sparing = none ∧
      (t.module.bank x.bank).used = (s.module.bank x.bank).used ||| BitVec.ofNat 8 (2 ^ x.spare) ∧ t.module.rowCount x.bank x.row = 0 := by
  let b := s.module.bank x.bank
  let b' : HbmBank := { b with used := b.used ||| BitVec.ofNat 8 (2 ^ x.spare) }
  let m : Module := { s.module.setBank x.bank b' with
    spared := satInc16 s.module.spared 1, sparing := none, rowErrs := s.module.rowErrs.filter fun e => !((e.1, e.2.1) == (x.bank, x.row)) }
  let t : State := { s with module := m, errs := correctedCopy x.bank x.row s.errs }
  have hexec : exec .rowSparing s = .next t.nextSparing := by
    change execRowSparing s = _
    simp only [execRowSparing, hev, hx, Bool.not_true, Bool.false_eq_true, if_false, if_true]
    rw [← hev]
    rfl
  have hnext : t.nextSparing = t := State.nextSparing_of_none hwait
  have hbank : t.module.bank x.bank = b' := s.module.bank_setBank_same x.bank fun h0 => or_two_pow_ne_zero _ hspare (congrArg HbmBank.used h0)
  refine ⟨t, hexec.trans (congrArg _ hnext), rfl, rfl, rfl, congrArg HbmBank.used hbank, ?_⟩
  have hnot : (t.module.rowErrs.find? fun e => (e.1, e.2.1) == (x.bank, x.row)) = none := find?_filter_not _ _
  rw [Module.rowCount, hnot, Option.elim_none]

variable {last : Bool} (hev : s.ev = .rowSparing (.copied false last)) (hspare : x.spare < 8) (hbank : x.bank = Config.bankOf x.sec)
include hev hspare hbank

/-- The copy begins again at the next good spare. -/
theorem execRowSparing_of_bad_next {i : Nat}
    (hnext : (⟨(s.module.bank x.bank).used, (s.module.bank x.bank).bad ||| BitVec.ofNat 8 (2 ^ x.spare)⟩ : HbmBank).spare = some i) :
    ∃ t, exec .rowSparing s = .next t ∧ t.module.restart = satInc16 s.module.restart 1 ∧ t.mem = s.mem ∧
      (t.module.bank x.bank).bad = (s.module.bank x.bank).bad ||| BitVec.ofNat 8 (2 ^ x.spare) ∧
      t.module.sparing = some ⟨x.sec, x.bank, Config.rowOf x.sec, i, 0⟩ := by
  have hdrop := s.module.bank_dropSpare hspare
  rw [← hdrop, hbank] at hnext
  have hstart := State.startSparing_of_spare (s := { s with module := s.module.dropSpare x }) hnext
  refine ⟨_, execRowSparing_of_bad hx hev, ?_⟩
  simp only [hstart, Option.isNone_some, Bool.false_eq_true, if_false]
  exact ⟨rfl, trivial, congrArg HbmBank.bad hdrop, by rw [hbank]⟩

/-- Where no good spare is left the copy is given up. -/
theorem execRowSparing_of_bad_none (hwait : s.module.toSpare = [])
    (hnext : (⟨(s.module.bank x.bank).used, (s.module.bank x.bank).bad ||| BitVec.ofNat 8 (2 ^ x.spare)⟩ : HbmBank).spare = none) :
    ∃ t, exec .rowSparing s = .next t ∧ t.module.restart = s.module.restart ∧ t.mem = s.mem ∧ t.module.sparing = none := by
  let t := ({ s with module := s.module.dropSpare x } : State).startSparing x.sec
  rw [← s.module.bank_dropSpare hspare, hbank] at hnext
  have hmod := State.startSparing_of_none (s := { s with module := s.module.dropSpare x }) hnext
  have hnone : t.module.sparing = none := (congrArg Module.sparing hmod).trans rfl
  have hsame : t.nextSparing = t := State.nextSparing_of_none ((congrArg Module.toSpare hmod).trans hwait)
  refine ⟨t, ?_, (congrArg Module.restart hmod).trans rfl, State.startSparing_mem _ _, hnone⟩
  refine (execRowSparing_of_bad hx hev).trans ?_
  change Host.Outcome.next (if t.module.sparing.isNone then _ else _) = _
  rw [hnone, Option.isNone_none, if_pos rfl, hsame]

end

/-! ## The obligation -/

/-- Settles O46: the watchdog, a request and a replay by what their events come to, a sparing event by event. -/
theorem preemptionAndSilentErrorEvents : Obligations.PreemptionAndSilentErrorEvents := by
  unfold Obligations.PreemptionAndSilentErrorEvents
  intro s
  refine ⟨?watchdog, ?request, ?limit, ?replay, ?sparing⟩
  case watchdog =>
    intro c n x p t hev hx hp htimer hst hlim hnone hdue
    have hexec := execWatchdog_of_expired hev hx hp htimer hst hlim hnone hdue
    refine ⟨fun hmode => ?_, fun hmode => by rw [hexec, if_pos hmode]⟩
    rw [if_neg (by rw [hmode]; exact Bool.false_ne_true)] at hexec
    refine ⟨_, _, hexec, State.ctx?_updCtx_of_some hx _, Ctx.wake_pend _ _, fun hwin => Ctx.wake_ne_blocked (x := x.timedOut) ?_ hmode hwin _⟩
    simp only [Ctx.timedOut, Pending.any, Option.isSome_some, Bool.or_true, Bool.true_or]
  case request =>
    intro p q v hev hp cl
    refine ⟨fun x l y hx hl hy hpart hbusy hen => execPrectlGo_of_accepted hev hp hx hl hy hpart hbusy hen, fun hno => ?_⟩
    exact ⟨_, _, execPrectlGo_of_refused hev hp hno, (State.part?_updPart_same ..).trans (congrArg (Option.map _) hp), rfl⟩
  case limit =>
    intro l q t p hev hq hpre hp hdue
    change execPreemptLimitExpiry s = _
    simp only [execPreemptLimitExpiry, hev, hq, hpre, hp, Nat.not_lt.2 hdue, if_false]
  case replay =>
    rintro c k1 s1 hev rfl hk1
    exact core?_execShadowLatchReplay hev hk1
  case sparing =>
    intro count bank
    refine ⟨fun sec hev => ?_, fun hev => ?_, fun x hx => ⟨execRowSparing_of_copied hx, fun i last hev hspare hbank hnext => ?_,
      fun last hev hspare hbank hwait hnext => execRowSparing_of_bad_none hx hev hspare hbank hwait hnext, execRowSparing_of_last hx⟩⟩
    · have hexec : exec .rowSparing s = .next (s.countCorrected sec) := by
        change execRowSparing s = _
        simp only [execRowSparing, hev]
      refine ⟨_, hexec, ?_, State.countCorrected_mem s sec, fun hlt => by rw [State.countCorrected_of_below s sec hlt]; rfl,
        fun i hthr hnone hwait hkept hspare => State.countCorrected_of_reached s sec hthr hnone hwait hkept hspare⟩
      simp only [count, State.rowErrs_countCorrected, Module.counted, List.find?_cons, beq_self_eq_true, Option.elim_some]
      rfl
    · change execRowSparing s = _
      simp only [execRowSparing, hev]
    · exact execRowSparing_of_bad_next hx hev hspare hbank hnext

end Sys2Proof.Machine
end
section
/-! SUPPORT. What a signal leaves of the contexts (12 R289, R290), and the words of a v register that MZRD writes (17 R458). -/

namespace Sys2Proof.Machine

/-! ## Contexts that a signal wakes -/

/-- A context but for its state, the waits that it has armed or found satisfied, and its pending events. -/
def Ctx.Woken (x x' : Ctx) : Prop := x' = { x with st := x'.st, since := x'.since, armed := x'.armed, sat := x'.sat, pend := x'.pend }

namespace Ctx.Woken

theorem refl (x : Ctx) : x.Woken x := rfl

theorem trans {x y z : Ctx} (h : x.Woken y) (h' : y.Woken z) : x.Woken z := by
  rw [Ctx.Woken] at h h' ⊢
  rw [h', h]

theorem ready (x : Ctx) (now : Nat) : x.Woken (x.ready now) := by
  unfold Ctx.ready
  split <;> rfl

theorem release (x : Ctx) (now : Nat) : x.Woken (x.release now) := by
  unfold Ctx.release
  split
  · exact ready x now
  · exact refl x

theorem wake (x : Ctx) (now : Nat) : x.Woken (x.wake now) := by
  unfold Ctx.wake
  split
  · exact ready x now
  · exact refl x

theorem retest (x : Ctx) (now sem : Nat) (m : Sem) : x.Woken (x.retest now sem m) := by
  unfold Ctx.retest
  refine trans ?_ (release _ now)
  rfl

section
variable {x x' : Ctx} (h : x.Woken x')
include h

theorem regs : x'.regs = x.regs := by rw [h]
theorem vold : x'.vold = x.vold := by rw [h]
theorem holdQ : x'.holdQ = x.holdQ := by rw [h]

end

end Ctx.Woken

/-- A context after another of its core, or itself, has been changed to one that it wakes to. -/
theorem State.ctx?_updCtx_woken {s : State} {c m : Nat} {x : Ctx} (hx : s.ctx? c m = some x) (n : Nat) {f : Ctx → Ctx} (hf : ∀ y, Ctx.Woken y (f y)) :
    ∃ x', (s.updCtx c n f).ctx? c m = some x' ∧ x.Woken x' := by
  by_cases h : m = n
  · subst h
    exact ⟨f x, State.ctx?_updCtx_of_some hx f, hf x⟩
  · exact ⟨x, (State.ctx?_updCtx_ne s c f h).trans hx, .refl x⟩

/-- A signal wakes the contexts of its core (12 R289, R290). -/
theorem State.ctx?_signal {s : State} {c m : Nat} {x : Ctx} (hx : s.ctx? c m = some x) (n inc by' : Nat) :
    ∃ x', (s.signal c n inc by').ctx? c m = some x' ∧ x.Woken x' := by
  obtain ⟨k, hk, hkx⟩ := Option.bind_eq_some_iff.1 hx
  have hput : ∀ v, ∃ x', (s.putSem c n v).ctx? c m = some x' ∧ x.Woken x' := fun v => by
    have hcore : (s.putSem c n v).core? c = some ((k.setSem n v).mapCtxs fun _ x => if x.armed.any fun a => a.sem = n then x.retest s.cycle n v else x) := by
      rw [State.putSem, State.core?_updCore_same, hk, Option.map_some]
    refine ⟨_, by rw [State.ctx?_of_core? hcore, Core.ctx?_mapCtxs, show (k.setSem n v).ctx? m = some x from hkx, Option.map_some], ?_⟩
    split
    · exact .retest x _ _ _
    · exact .refl x
  obtain ⟨x1, hx1, h1⟩ := hput ((k.sem n).signal inc)
  simp only [State.signal, hk]
  split
  · obtain ⟨x2, hx2, h2⟩ := State.ctx?_updCtx_woken hx1 by' (f := fun x =>
      if x.st = .empty then x
      else ({ x with pend := { x.pend with semOvf := x.pend.semOvf ++ [BitVec.ofNat 64 (n + c * 256)] } } : Ctx).wake (s.putSem c n ((k.sem n).signal inc)).cycle)
      fun y => by
        split
        · exact .refl y
        · refine .trans ?_ (.wake _ _)
          rfl
    exact ⟨x2, hx2, h1.trans h2⟩
  · exact ⟨x1, hx1, h1⟩

theorem State.ctx?_post1 {s : State} {c m : Nat} {x : Ctx} (hx : s.ctx? c m = some x) (n : Nat) (w : Sync) :
    ∃ x', (s.post1 c n w).ctx? c m = some x' ∧ x.Woken x' := by
  unfold State.post1
  split
  · exact ⟨x, hx, .refl x⟩
  · exact State.ctx?_signal hx _ _ n

/-- A context keeps what a task of it keeps over the end of a command. -/
theorem State.KeepsTasks.ctx? {s t : State} (h : s.KeepsTasks t) {c n : Nat} {x : Ctx} (hx : s.ctx? c n = some x) :
    ∃ x', t.ctx? c n = some x' ∧ x.SameTask x' := by
  obtain ⟨k, hk, hkx⟩ := Option.bind_eq_some_iff.1 hx
  obtain ⟨k', hk', hkk⟩ := h.cores c k hk
  obtain ⟨x', hx', hxx⟩ := hkk.ctxs n x hkx
  exact ⟨x', (State.ctx?_of_core? hk').trans hx', hxx⟩

/-! ## A v register made of words -/

/-- The v register of a list of 32 words, wholly poisoned or with their own poison. -/
def vvOfWords (psn : Bool) (ws : List PWord) : VV :=
  ⟨BitVec.ofNat 1024 (wordsNat ws), if psn then BitVec.allOnes 32 else BitVec.ofNat 32 (boolsNat (ws.map (·.p)))⟩

/-- A word that lies in the number of a list of words is that of the list. -/
theorem extractLsb'_wordsNat (ws : List PWord) {w j : Nat} (h : 32 * j + 32 ≤ w) :
    (BitVec.ofNat w (wordsNat ws)).extractLsb' (32 * j) 32 = (ws.getD j ⟨0, false⟩).w := by
  refine BitVec.eq_of_getLsbD_eq fun i hi => ?_
  rw [← BitVec.testBit_toNat (ws.getD j ⟨0, false⟩).w, ← wordsNat_div_mod ws j, Nat.testBit_mod_two_pow, Nat.testBit_div_two_pow, decide_eq_true hi,
    Bool.true_and, Nat.add_comm i, BitVec.getLsbD_extractLsb', BitVec.getLsbD_ofNat, decide_eq_true hi, decide_eq_true (show 32 * j + i < w by omega),
    Bool.true_and, Bool.true_and]

theorem lane_vvOfWords (psn : Bool) (ws : List PWord) {j : Nat} (hj : j < 32) :
    (vvOfWords psn ws).lane j = ⟨(ws.getD j ⟨0, false⟩).w, psn || (ws.getD j ⟨0, false⟩).p⟩ := by
  have hp : (BitVec.ofNat 32 (boolsNat (ws.map (·.p)))).getLsbD j = (ws.getD j ⟨0, false⟩).p := by
    rw [BitVec.getLsbD_ofNat, testBit_boolsNat, decide_eq_true hj, Bool.true_and, List.getD_eq_getElem?_getD, List.getD_eq_getElem?_getD,
      List.getElem?_map]
    cases ws[j]? <;> rfl
  rw [VV.lane, vvOfWords, extractLsb'_wordsNat ws (by omega)]
  cases psn
  · rw [if_neg Bool.false_ne_true, hp, Bool.false_or]
  · rw [if_pos rfl, BitVec.getLsbD_allOnes, decide_eq_true hj, Bool.true_or]

/-- A BF16 element is a half of its lane (19 R517). -/
theorem VV.elem_bf16 (u : VV) (e : Nat) : u.elem .bf16 e = bitsOf (u.lane (e / 2)).w (16 * (e % 2)) 16 := by
  have hhalf : ∀ a r : Nat, r < 2 → a % 2 ^ 32 / 2 ^ (16 * r) % 2 ^ 16 = a / 2 ^ (16 * r) % 2 ^ 16 := fun a r hr => by
    interval_cases r <;> omega
  have hshift : 16 * e = 32 * (e / 2) + 16 * (e % 2) := by omega
  simp only [VV.elem, VV.lane, bitsOf, BitVec.extractLsb'_toNat, Nat.shiftRight_eq_div_pow]
  rw [hhalf _ _ (Nat.mod_lt e (by decide)), Nat.div_div_eq_div_mul, ← pow_add, ← hshift]

/-- RNE16 gives a code of 16 bits (05 R93). -/
theorem rne16_lt (w : Word32) : rne16 w < 65536 := by
  have hsigned : ∀ neg mag, mag ≤ bf16.infCode → bf16.signed neg mag < 65536 := fun neg mag h => by
    have h' : mag ≤ 32640 := h
    have hsign : bf16.signed neg mag = (if neg then 32768 else 0) + mag := rfl
    rw [hsign]
    split <;> omega
  unfold rne16
  cases f32 w with
  | nan => exact (show bf16.nanCode < 65536 by decide)
  | inf neg => exact hsigned neg _ (Nat.le_refl _)
  | fin neg m e =>
    simp only [Fmt.convert]
    split
    · next h => exact hsigned neg _ (h.trans (by decide))
    · exact hsigned neg _ (Nat.le_refl _)

/-- Two codes of 16 bits in one word. -/
theorem bitsOf_pair {a b r : Nat} (ha : a < 65536) (hb : b < 65536) (hr : r < 2) :
    bitsOf (BitVec.ofNat 32 (a + 65536 * b)) (16 * r) 16 = if r = 0 then a else b := by
  rw [bitsOf, BitVec.toNat_ofNat]
  interval_cases r
  · rw [if_pos rfl]
    omega
  · rw [if_neg (by decide)]
    omega

end Sys2Proof.Machine
end
section
/-! SUPPORT. Completions of the matrix engine, and the residue checks that fail (06 R127, R134 to R142, 17 R426 to R458). -/

namespace Sys2Proof.Machine

/-! ## What a completion does besides its signal -/

/-- Word j of what MZRD reads of a row: a word of the half, or two words rounded by RNE16 (17 R458). -/
def TileRow.readLane (row : TileRow) (h : Bool) (ft : FType) (j : Nat) : PWord :=
  match ft with
  | .f32 => row.word (32 * bitN h + j)
  | .bf16 => ⟨BitVec.ofNat 32 (rne16 (row.word (2 * j)).w + 65536 * rne16 (row.word (2 * j + 1)).w), (row.word (2 * j)).p || (row.word (2 * j + 1)).p⟩

/-- What an MZRD writes into its v register. -/
def MOp.mzrdOut (o : MOp) (row : TileRow) (h : Bool) (ft : FType) : VV := vvOfWords o.psn ((List.range 32).map (row.readLane h ft))

theorem MOp.lane_mzrdOut (o : MOp) (row : TileRow) (h : Bool) (ft : FType) {j : Nat} (hj : j < 32) :
    (o.mzrdOut row h ft).lane j = ⟨(row.readLane h ft j).w, o.psn || (row.readLane h ft j).p⟩ := by
  have hword : ((List.range 32).map (row.readLane h ft)).getD j ⟨0, false⟩ = row.readLane h ft j := by
    rw [List.getD_eq_getElem?_getD, List.getElem?_map, List.getElem?_range hj, Option.map_some, Option.getD_some]
  rw [MOp.mzrdOut, lane_vvOfWords _ _ hj, hword]

/-- Element e of an MZRD .bf16 is word e of the row, rounded. -/
theorem MOp.elem_mzrdOut (o : MOp) (row : TileRow) (h : Bool) {e : Nat} (he : e < 64) : (o.mzrdOut row h .bf16).elem .bf16 e = rne16 (row.word e).w := by
  rw [VV.elem_bf16, MOp.lane_mzrdOut o row h .bf16 (show e / 2 < 32 by omega)]
  simp only [TileRow.readLane]
  rw [bitsOf_pair (rne16_lt _) (rne16_lt _) (Nat.mod_lt e (by decide))]
  split
  · next h0 => rw [show 2 * (e / 2) = e by omega]
  · next h0 => rw [show 2 * (e / 2) + 1 = e by omega]

/-- The write of the F slot to a v register that is still to complete. -/
def Ctx.laterWrite (x : Ctx) (now v : Nat) : Option (Nat × VV × Nat × Word32) := x.vold.find? fun e => e.1 = v && decide (now < e.2.2.1)

theorem Ctx.matrixV_of_none {x : Ctx} {now v : Nat} (h : x.laterWrite now v = none) (u : VV) : (x.matrixV now v u).regs = x.regs.setV v u := by
  rw [Ctx.laterWrite] at h
  simp only [Ctx.matrixV, h]

/-- A write of the F slot that completes later comes after that of the engine in its lanes, and until then the register reads as the engine wrote it (03 R57). -/
theorem Ctx.matrixV_of_some {x : Ctx} {now v : Nat} {f : Nat × VV × Nat × Word32} (h : x.laterWrite now v = some f) (u : VV) :
    (x.matrixV now v u).regs = x.regs.setV v (VV.merge f.2.2.2 (x.regs.getV v) u) ∧ (x.matrixV now v u).vNow now v = u := by
  rw [Ctx.laterWrite] at h
  have hv : f.1 = v := by
    have hf := List.find?_some h
    simp only [Bool.and_eq_true, decide_eq_true_eq] at hf
    exact hf.1
  have hfind : (x.vold.map fun e => if e.1 = v then (v, u, e.2.2) else e).find? (fun e => e.1 = v && decide (now < e.2.2.1)) = some (v, u, f.2.2) := by
    rw [List.find?_map]
    have hsame : ((fun e : Nat × VV × Nat × Word32 => decide (e.1 = v) && decide (now < e.2.2.1)) ∘ fun e => if e.1 = v then (v, u, e.2.2) else e) =
        fun e => decide (e.1 = v) && decide (now < e.2.2.1) := by
      funext e
      by_cases he : e.1 = v <;> simp [he]
    rw [hsame, h, Option.map_some, if_pos hv]
  simp only [Ctx.matrixV, h]
  refine ⟨trivial, ?_⟩
  simp only [Ctx.vNow, hfind]

theorem State.mxFinal_mzrd {o : MOp} {v : Nat} {h : Bool} {ft : FType} {row : TileRow} (hkind : o.kind = .mzrd v h ft row) (s : State) (c : Nat) :
    s.mxFinal c o = s.updCtx c o.ctx fun x => x.matrixV s.cycle v (o.mzrdOut row h ft) := by
  simp only [State.mxFinal, hkind]
  rfl

theorem State.mxFinal_mtwid {o : MOp} {t : Twid} {r : Word64} (hkind : o.kind = .mtwid t r) (s : State) (c : Nat) :
    s.mxFinal c o = s.updCore c fun k => { k with mx := { k.mx with
      bfc := BitVec.ofNat 64 (t.nm1 + 2 ^ 16 * bitN t.inv + 2 ^ 17 * bitsOf r 0 30 + 2 ^ 48 * bitsOf r 48 4)
      hirad := BitVec.ofNat 18 (bitsOf r 30 18), twidDone := some t } } := by
  simp only [State.mxFinal, hkind]

theorem State.mxFinal_mfmt {o : MOp} {a b : EType} {d : Bool} (hkind : o.kind = .mfmt a b d) (s : State) (c : Nat) :
    s.mxFinal c o = s.updCore c fun k => { k with mx := { k.mx with fmt := fmtWord a b d } } := by
  simp only [State.mxFinal, hkind]

/-- It leaves the semaphores and the tiles. -/
theorem State.core?_mxFinal {s : State} {c : Nat} {k : Core} (hk : s.core? c = some k) (o : MOp) :
    ∃ k', (s.mxFinal c o).core? c = some k' ∧ k'.sems = k.sems ∧ k'.mx.tiles = k.mx.tiles := by
  cases hkind : o.kind with
  | mtwid t r =>
    rw [State.mxFinal_mtwid hkind]
    exact ⟨_, (State.core?_updCore_same ..).trans (congrArg (Option.map _) hk), rfl, rfl⟩
  | mfmt a b d =>
    rw [State.mxFinal_mfmt hkind]
    exact ⟨_, (State.core?_updCore_same ..).trans (congrArg (Option.map _) hk), rfl, rfl⟩
  | mzrd v h ft row =>
    rw [State.mxFinal_mzrd hkind]
    cases hx : k.ctx? o.ctx with
    | none => exact ⟨k, by simp only [State.updCtx, State.core?_updCore_same, hk, Option.map_some, hx], rfl, rfl⟩
    | some x => exact ⟨_, State.core?_updCtx_same _ hk hx, rfl, rfl⟩
  | mma | mbld | mzst | mzld | mtrn | mbfly | mdrain | mzwr | mzero => exact ⟨k, by simp only [State.mxFinal, hkind, hk], rfl, rfl⟩

/-! ## Completions -/

/-- The core with an operation of its engine marked as complete. -/
def Core.completed (k : Core) (id : Nat) : Core := { k with mx := k.mx.updOp id fun o => { o with fin := true } }

/-- Every operation with the number is. -/
theorem Core.fin_of_completed {k : Core} {id : Nat} {p : MOp} (hp : p ∈ (k.completed id).mx.run ++ (k.completed id).mx.port) (hid : p.id = id) :
    p.fin = true := by
  have hmap : (k.completed id).mx.run ++ (k.completed id).mx.port =
      (k.mx.run ++ k.mx.port).map fun o => if o.id = id then { o with fin := true } else o := (List.map_append ..).symm
  rw [hmap] at hp
  obtain ⟨q, -, rfl⟩ := List.mem_map.1 hp
  split at hid
  · next h => rw [if_pos h]
  · next h => exact absurd hid h

/-! ## Residue checks that fail -/

/-- An operation that is put off by the cycles that a re-execution costs; the one whose check has failed takes what is condemned of it (06 R134, R135). -/
def MOp.putOff (id cost : Nat) (bad : List Nat) (o : MOp) : MOp := { o with waited := o.waited + cost, bad := if o.id = id then bad else o.bad }

/-- The core whose engine runs an operation again. -/
def Core.putOff (k : Core) (id cost now : Nat) (bad : Option (List Nat)) : Core :=
  { k with mx := { k.mx with
    run := k.mx.run.map (MOp.putOff id cost (bad.getD [])), port := k.mx.port.map (MOp.putOff id cost (bad.getD [])), clock := now + cost
    err := if bad.isSome then mxCount (mxCount k.mx.err 0) 16 else mxCount k.mx.err 0 } }

/-- The operations of an engine that is put off. -/
theorem Core.mem_putOff {k : Core} {id cost now : Nat} {bad : Option (List Nat)} {p : MOp}
    (hp : p ∈ (k.putOff id cost now bad).mx.run ++ (k.putOff id cost now bad).mx.port) : ∃ q ∈ k.mx.run ++ k.mx.port, p = q.putOff id cost (bad.getD []) := by
  have hmap : (k.putOff id cost now bad).mx.run ++ (k.putOff id cost now bad).mx.port = (k.mx.run ++ k.mx.port).map (MOp.putOff id cost (bad.getD [])) :=
    (List.map_append ..).symm
  rw [hmap] at hp
  obtain ⟨q, hq, rfl⟩ := List.mem_map.1 hp
  exact ⟨q, hq, rfl⟩

/-- The core of an owner that issues nothing meanwhile. -/
def Core.delayIssue (k : Core) (n cost now : Nat) : Core := if k.issuing = some n then { k with freeAt := max k.freeAt now + cost } else k

@[simp] theorem Core.delayIssue_mx (k : Core) (n cost now : Nat) : (k.delayIssue n cost now).mx = k.mx := by
  unfold Core.delayIssue
  split <;> rfl

@[simp] theorem Core.ctx?_delayIssue (k : Core) (n cost now m : Nat) : (k.delayIssue n cost now).ctx? m = k.ctx? m := by
  unfold Core.delayIssue
  split <;> rfl

theorem Core.delayIssue_freeAt {k : Core} {n : Nat} (h : k.issuing = some n) (cost now : Nat) :
    (k.delayIssue n cost now).freeAt = max k.freeAt now + cost := by
  rw [Core.delayIssue, if_pos h]

/-- The owner of the engine issues nothing meanwhile. -/
def State.putOffOwner (s : State) (c cost now : Nat) : Option Nat → State
  | none => s
  | some n => (s.updCore c (·.delayIssue n cost now)).updCtx c n fun x => { x with holdUntil := max x.holdUntil now + cost }

/-- That changes when its core issues and how long it is held. -/
theorem State.core?_putOffOwner {s : State} {c : Nat} {k : Core} (hk : s.core? c = some k) (cost now : Nat) (own : Option Nat) :
    ∃ k', (s.putOffOwner c cost now own).core? c = some k' ∧ k'.mx = k.mx ∧
      (∀ n x, own = some n → k.ctx? n = some x → k'.ctx? n = some { x with holdUntil := max x.holdUntil now + cost }) ∧
      (∀ n, own = some n → k.issuing = some n → k'.freeAt = max k.freeAt now + cost) := by
  cases own with
  | none => exact ⟨k, hk, rfl, fun _ _ h => absurd h (by simp), fun _ h => absurd h (by simp)⟩
  | some n =>
    have hk1 : (s.updCore c (·.delayIssue n cost now)).core? c = some (k.delayIssue n cost now) := (State.core?_updCore_same ..).trans (congrArg (Option.map _) hk)
    cases hx : k.ctx? n with
    | none =>
      refine ⟨_, ?_, k.delayIssue_mx n cost now, fun m x hm hmx => ?_, fun m hm hi => Core.delayIssue_freeAt (hm ▸ hi) cost now⟩
      · simp only [State.putOffOwner, State.updCtx, State.core?_updCore_same, hk, Option.map_some, Core.ctx?_delayIssue, hx]
      · rw [← Option.some.inj hm, hx] at hmx
        cases hmx
    | some y =>
      refine ⟨_, State.core?_updCtx_same _ hk1 ((k.ctx?_delayIssue n cost now n).trans hx), k.delayIssue_mx n cost now, fun m x hm hmx => ?_,
        fun m hm hi => Core.delayIssue_freeAt (hm ▸ hi) cost now⟩
      obtain rfl : n = m := Option.some.inj hm
      obtain rfl : y = x := Option.some.inj (hx.symm.trans hmx)
      exact Core.ctx?_setCtx_same _ n _

/-! ## The events -/

section
variable {s : State} {c id : Nat} {k : Core} {o : MOp} (hk : (s.mxSettle c).core? c = some k) (hop : k.mxOp id = some o)
include hk hop

/-- The operation of a core that an event names. -/
theorem State.bind_mxOp : (((s.mxSettle c).core? c).bind fun k => (k.mxOp id).map fun o => (k, o)) = some (k, o) := by
  rw [hk, Option.bind_some, hop, Option.map_some]

section
variable (hfin : o.fin = false) (hthrough : k.mxThrough (s.mxSettle c).cycle o = true) (hclock : k.mx.clock ≤ (s.mxSettle c).cycle)
include hfin hthrough hclock

/-- The completion of an operation whose last effect has happened. -/
theorem State.mxComplete_of_through : s.mxComplete c id =
    ((((((s.mxSettle c).mxFinal c o).updCore c fun k => k.completed id).post1 c o.ctx o.sync).postOnce 1 (.matrixQueueStart c)).afterCommand c) := by
  simp only [State.mxComplete, State.bind_mxOp hk hop, hfin, hthrough, hclock, decide_true, Bool.and_self, Bool.false_eq_true, if_false, if_true]
  rfl

/-- The core after it. -/
theorem State.core?_mxComplete {k2 : Core} (hk2 : ((s.mxSettle c).mxFinal c o).core? c = some k2) :
    ∃ k', (s.mxComplete c id).core? c = some k' ∧ (k2.completed id).Signalled o.sync k' := by
  have hk3 : (((s.mxSettle c).mxFinal c o).updCore c fun k => k.completed id).core? c = some (k2.completed id) := by
    rw [State.core?_updCore_same, hk2, Option.map_some]
  obtain ⟨k4, hk4, h4⟩ := State.core?_post1 hk3 o.ctx o.sync
  obtain ⟨k', hk', h'⟩ := ((State.Stays.postOnce _ 1 (.matrixQueueStart c)).trans (.afterCommand _ c)).cores c k4 hk4
  exact ⟨k', (congrArg (State.core? · c) (State.mxComplete_of_through hk hop hfin hthrough hclock)).trans hk', h4.stays h'⟩

/-- Its contexts keep their registers, and the writes of the F slot that are to complete. -/
theorem State.ctx?_mxComplete {n : Nat} {x : Ctx} (hx : ((s.mxSettle c).mxFinal c o).ctx? c n = some x) :
    ∃ x', (s.mxComplete c id).ctx? c n = some x' ∧ x'.regs = x.regs ∧ x'.vold = x.vold := by
  have hx1 : (((s.mxSettle c).mxFinal c o).updCore c fun k => k.completed id).ctx? c n = some x := by
    refine (State.ctx?_updCore _ c ?_ c n).trans hx
    exact fun _ => rfl
  obtain ⟨x2, hx2, h2⟩ := State.ctx?_post1 hx1 o.ctx o.sync
  obtain ⟨x', hx', h'⟩ := ((State.KeepsTasks.postOnce _ 1 (.matrixQueueStart c)).trans (.afterCommand _ c)).ctx? hx2
  rw [Ctx.SameTask] at h'
  refine ⟨x', (congrArg (State.ctx? · c n) (State.mxComplete_of_through hk hop hfin hthrough hclock)).trans hx', ?_, ?_⟩
  · rw [h']; exact h2.regs
  · rw [h']; exact h2.vold

/-- The event of a completion: its signal, with what the operation does besides. -/
theorem completes_of_through {i : Instr} (hexec : exec i s = .next (s.mxComplete c id)) {k2 : Core}
    (hk2 : ((s.mxSettle c).mxFinal c o).core? c = some k2) (hsems : k2.sems = k.sems) (htiles : k2.mx.tiles = k.mx.tiles) {also : State → Core → Prop}
    (halso : ∀ k', k'.mx = (k2.completed id).mx → also (s.mxComplete c id) k') :
    ∃ t k', exec i s = .next t ∧ t.core? c = some k' ∧ (∀ p ∈ k'.mx.run ++ k'.mx.port, p.id = id → p.fin = true) ∧
      (o.sync.si ≠ 0 → k'.sem o.sync.ss.toNat = (k.sem o.sync.ss.toNat).signal o.sync.si.toNat) ∧ k'.mx.tiles = k.mx.tiles ∧ also t k' := by
  obtain ⟨k', hk', h'⟩ := State.core?_mxComplete hk hop hfin hthrough hclock hk2
  have hmx : k'.mx = (k2.completed id).mx := by rw [h'.rest]
  refine ⟨_, k', hexec, hk', fun p hp => Core.fin_of_completed (k := k2) (by rwa [hmx] at hp), fun hsi => (h'.sem hsi).trans ?_, ?_, halso k' hmx⟩
  · rw [Core.sem, show (k2.completed id).sems = k.sems from hsems, Core.sem]
  · rw [hmx]
    exact htiles

end

/-- A residue check that fails at its cycle. -/
theorem State.mxMismatch_of_due {cost : Nat} (hchecked : o.checked = some ((s.mxSettle c).cycle, cost)) (hclock : k.mx.clock ≤ (s.mxSettle c).cycle)
    (bad : Option (List Nat)) :
    s.mxMismatch c id bad = (((s.mxSettle c).setCore c (k.putOff id cost (s.mxSettle c).cycle bad)).postOnce cost (.matrixQueueStart c)).putOffOwner c cost
      (s.mxSettle c).cycle k.mxown := by
  have hdue : (decide ((s.mxSettle c).cycle ≠ (s.mxSettle c).cycle) || decide ((s.mxSettle c).cycle < k.mx.clock)) = false := by
    simp only [ne_eq, not_true, decide_false, Nat.not_lt.2 hclock, Bool.or_self]
  simp only [State.mxMismatch, State.bind_mxOp hk hop, hchecked, hdue, Bool.false_eq_true, if_false]
  cases hown : k.mxown with
  | none => rw [State.putOffOwner, Core.putOff, hown]; rfl
  | some n => simp only [State.putOffOwner, Core.putOff, hown, State.postOnce_cycle, State.setCore_cycle]; rfl

/-- The event of a check that fails: its count, and everything put off by the re-execution. -/
theorem runsAgain_of_due {i : Instr} {cost : Nat} {bad : Option (List Nat)} (hexec : exec i s = .next (s.mxMismatch c id bad))
    (hchecked : o.checked = some ((s.mxSettle c).cycle, cost)) (hclock : k.mx.clock ≤ (s.mxSettle c).cycle) :
    ∃ t k', exec i s = .next t ∧ t.core? c = some k' ∧ k'.mx.err = (if bad.isSome then mxCount (mxCount k.mx.err 0) 16 else mxCount k.mx.err 0) ∧
      k'.mx.clock = (s.mxSettle c).cycle + cost ∧ k'.mx.tiles = k.mx.tiles ∧
      (∀ p ∈ k'.mx.run ++ k'.mx.port, ∃ q ∈ k.mx.run ++ k.mx.port, p.id = q.id ∧ p.waited = q.waited + cost ∧ (p.id = id → p.bad = bad.getD []) ∧
        (p.id ≠ id → p.bad = q.bad)) ∧
      (∀ n x, k.mxown = some n → k.ctx? n = some x → ∃ x', k'.ctx? n = some x' ∧ x'.holdUntil = max x.holdUntil (s.mxSettle c).cycle + cost ∧
        x'.regs = x.regs ∧ x'.pc = x.pc) ∧
      (∀ n, k.mxown = some n → k.issuing = some n → k'.freeAt = max k.freeAt (s.mxSettle c).cycle + cost) := by
  let k1 := k.putOff id cost (s.mxSettle c).cycle bad
  have hk1 : (((s.mxSettle c).setCore c k1).postOnce cost (.matrixQueueStart c)).core? c = some k1 := by
    rw [State.core?_postOnce, State.core?_setCore_same]
  obtain ⟨k', hk', hmx, hctx, hfree⟩ := State.core?_putOffOwner hk1 cost (s.mxSettle c).cycle k.mxown
  rw [State.mxMismatch_of_due hk hop hchecked hclock] at hexec
  refine ⟨_, k', hexec, hk', by rw [hmx]; rfl, by rw [hmx]; rfl, by rw [hmx]; rfl, fun p hp => ?_, fun n x hn hx => ⟨_, hctx n x hn hx, rfl, rfl, rfl⟩, hfree⟩
  rw [hmx] at hp
  obtain ⟨q, hq, rfl⟩ := Core.mem_putOff hp
  exact ⟨q, hq, rfl, rfl, fun h => if_pos h, fun h => if_neg h⟩

/-- What an MZRD writes into its v register, with its poison, and against a write of the F slot that completes later. -/
theorem mzrdCompletion_writes (hfin : o.fin = false) (hthrough : k.mxThrough (s.mxSettle c).cycle o = true) (hclock : k.mx.clock ≤ (s.mxSettle c).cycle)
    {v : Nat} {h : Bool} {ft : FType} {row : TileRow} (hkind : o.kind = .mzrd v h ft row) {x : Ctx} (hx : k.ctx? o.ctx = some x) :
    ∃ x', (s.mxComplete c id).ctx? c o.ctx = some x' ∧
      (x.laterWrite (s.mxSettle c).cycle v = none → x'.regs = x.regs.setV v (o.mzrdOut row h ft)) ∧
      (∀ f, x.laterWrite (s.mxSettle c).cycle v = some f → x'.regs = x.regs.setV v (VV.merge f.2.2.2 (x.regs.getV v) (o.mzrdOut row h ft)) ∧
        x'.vNow (s.mxSettle c).cycle v = o.mzrdOut row h ft) := by
  have hx1 : ((s.mxSettle c).mxFinal c o).ctx? c o.ctx = some (x.matrixV (s.mxSettle c).cycle v (o.mzrdOut row h ft)) := by
    rw [State.mxFinal_mzrd hkind]
    exact State.ctx?_updCtx_of_some ((State.ctx?_of_core? hk).trans hx) _
  obtain ⟨x', hx', hregs, hvold⟩ := State.ctx?_mxComplete hk hop hfin hthrough hclock hx1
  refine ⟨x', hx', fun hlater => hregs.trans (Ctx.matrixV_of_none hlater _), fun f hlater => ?_⟩
  obtain ⟨hset, hnow⟩ := Ctx.matrixV_of_some hlater (o.mzrdOut row h ft)
  refine ⟨hregs.trans hset, ?_⟩
  rw [Ctx.vNow, hvold, hregs]
  exact hnow

end

/-- Settles O32: every completion is the same event but for what its operation does besides its signal; every check that fails is the same event but for its count. -/
theorem matrixCompletionsSignal : Obligations.MatrixCompletionsSignal := by
  unfold Obligations.MatrixCompletionsSignal
  refine ⟨?_, ?_⟩
  · rintro s s1 c id k o rfl hk hop hfin hthrough hclock done
    obtain ⟨k2, hk2, hsems, htiles⟩ := State.core?_mxFinal hk o
    have hplain := fun (i : Instr) (hexec : exec i s = .next (s.mxComplete c id)) =>
      completes_of_through hk hop hfin hthrough hclock hexec hk2 hsems htiles (also := fun _ _ => True) fun _ _ => trivial
    refine ⟨fun _ _ _ _ _ hev => hplain _ ?mma, fun _ _ _ hev => hplain _ ?mbld, fun _ _ _ hev => hplain _ ?mzst, fun _ _ _ hev => hplain _ ?mzld,
      fun _ _ _ hev => hplain _ ?mtrn, fun _ _ _ _ _ hev => hplain _ ?mbfly, fun t r hkind hev => ?mtwid, fun a b d hkind hev => ?mfmt,
      fun _ hev => hplain _ ?mdrain, fun v h ft row hkind hev => ?mzrd, fun _ _ _ _ _ _ hev => hplain _ ?mzwr, fun _ _ hev => hplain _ ?mzero⟩
    case mma => change execMmaCompletion s = _; simp only [execMmaCompletion, hev, State.mxChecked]
    case mbld => change execMbldCompletion s = _; simp only [execMbldCompletion, hev]
    case mzst => change execMzstCompletion s = _; simp only [execMzstCompletion, hev]
    case mzld => change execMzldCompletion s = _; simp only [execMzldCompletion, hev]
    case mtrn => change execMtrnCompletion s = _; simp only [execMtrnCompletion, hev, State.mxChecked]
    case mbfly => change execMbflyCompletion s = _; simp only [execMbflyCompletion, hev, State.mxChecked]
    case mdrain => change execMdrainStart s = _; simp only [execMdrainStart, hev]
    case mzwr => change execMzwrCompletion s = _; simp only [execMzwrCompletion, hev]
    case mzero => change execMzeroCompletion s = _; simp only [execMzeroCompletion, hev]
    case mtwid =>
      rw [State.mxFinal_mtwid hkind, State.core?_updCore_same, hk, Option.map_some, Option.some.injEq] at hk2
      subst hk2
      refine completes_of_through hk hop hfin hthrough hclock ?_ ?_ hsems htiles fun k' hmx => by rw [hmx]; rfl
      · change execMtwidCompletion s = _; simp only [execMtwidCompletion, hev]
      · rw [State.mxFinal_mtwid hkind, State.core?_updCore_same, hk, Option.map_some]
    case mfmt =>
      rw [State.mxFinal_mfmt hkind, State.core?_updCore_same, hk, Option.map_some, Option.some.injEq] at hk2
      subst hk2
      refine completes_of_through hk hop hfin hthrough hclock ?_ ?_ hsems htiles fun k' hmx => by rw [hmx]; rfl
      · change execMfmtCompletion s = _; simp only [execMfmtCompletion, hev]
      · rw [State.mxFinal_mfmt hkind, State.core?_updCore_same, hk, Option.map_some]
    case mzrd =>
      refine completes_of_through hk hop hfin hthrough hclock ?_ hk2 hsems htiles fun _ _ x hx => ?_
      · change execMzrdCompletion s = _; simp only [execMzrdCompletion, hev]
      · obtain ⟨x', hx', hnone, hsome⟩ := mzrdCompletion_writes hk hop hfin hthrough hclock hkind hx
        refine ⟨x', o.mzrdOut row h ft, hx', fun hft j hj => ?_, fun hft => ?_, hnone, hsome⟩
        · subst hft
          exact o.lane_mzrdOut row h .f32 hj
        · subst hft
          exact ⟨fun e he => o.elem_mzrdOut row h he, fun j hj => (congrArg PWord.p (o.lane_mzrdOut row h .bf16 hj)).trans (Bool.or_assoc ..).symm⟩
  · rintro s _ c id t cost k o bad rfl hk hop hchecked rfl hclock again checks
    have hagain := fun (i : Instr) (bad : Option (List Nat)) (hexec : exec i s = .next (s.mxMismatch c id bad)) =>
      runsAgain_of_due hk hop hexec hchecked hclock
    refine ⟨fun z d q b hkind => ⟨⟨fun hev => hagain _ none ?_, fun hev => hagain _ (some bad) ?_⟩, ?cost⟩,
      fun a b hkind => ⟨fun hev => hagain _ none ?_, fun hev => hagain _ (some bad) ?_⟩,
      fun a b d e hkind => ⟨fun hev => hagain _ none ?_, fun hev => hagain _ (some bad) ?_⟩⟩
    case cost =>
      simp only [MOp.checked, hkind] at hchecked
      split at hchecked
      · exact (congrArg Prod.snd (Option.some.inj hchecked)).symm
      · cases hchecked
    · change execMmaCompletion s = _; simp only [execMmaCompletion, hev, State.mxChecked]
    · change execMmaCompletion s = _; simp only [execMmaCompletion, hev, State.mxChecked]
    · change execMtrnCompletion s = _; simp only [execMtrnCompletion, hev, State.mxChecked]
    · change execMtrnCompletion s = _; simp only [execMtrnCompletion, hev, State.mxChecked]
    · change execMbflyCompletion s = _; simp only [execMbflyCompletion, hev, State.mxChecked]
    · change execMbflyCompletion s = _; simp only [execMbflyCompletion, hev, State.mxChecked]

end Sys2Proof.Machine
end
section
/-! SUPPORT. QSAVE and QREST (12 R295 to R297, 18 R478, R479). -/

namespace Sys2Proof.Machine

/-! ## The issue -/

/-- What QSAVE does as it enters its queue: where its context has not taken PREEMPT, the commands before its number freeze (12 R296). -/
def State.freezeForSave (n id : Nat) (took : Bool) (s : State) : State := if took then s else s.freezeCommands s.cur (fun m => m == n) (some id)

/-- What QREST does: it holds its context while it restores the records from an address on (12 R297). -/
def State.holdForRestore (s : State) (n : Nat) (a : Word64) (w : Sync) : State :=
  (s.updCtx s.cur n fun x => { x with holdQ := .qrest a 0 w [] }).post 1 (.qrestCompletion s.cur n)

/-- An update of a core depends on what it makes of that core alone. -/
theorem State.updCore_congr {s : State} {c : Nat} {k : Core} (hk : s.core? c = some k) {f g : Core → Core} (h : f k = g k) : s.updCore c f = s.updCore c g := by
  simp only [State.updCore, hk, h]

/-- The issue of a command whose wait is met and whose queue has room. -/
theorem State.qIssue_of_room {s : State} {k : Core} {w : Sync} (hk : s.core? s.cur = some k) (hmet : w.wt = 0 ∨ (k.sem w.ws.toNat).met w.wt.toNat = true)
    (hroom : ¬16 ≤ (k.qcmds.filter fun q => !q.started).length) (n : Nat) (x : Ctx) (i : Instr) (kind : QKind) (f : State → State) :
    (s.qIssue k n x i w kind f).finish = (f (s.updCore s.cur fun k' => { k' with
      nextCmd := k'.nextCmd + 1
      qcmds := k'.qcmds ++ [⟨k'.nextCmd, n, kind, w, engineWord i, false, 0, false, 0, [], Instr.guardPsn s.bun.old i⟩] })).postOnce 0
        (.streamCommandStart s.cur) := by
  rw [State.qIssue, State.syncWait_of_met hmet, Try.bind_ok, if_neg hroom]
  simp only [Try.finish, State.updCore_cur]
  congr 2
  exact State.updCore_congr hk rfl

section
variable {s : State} {k : Core} {n : Nat} {x : Ctx} {o : OpQsave} (hiss : s.issues k n x) (hg : s.passes o.g .pk)
include hiss hg

theorem qsaveOp_of_unprivileged (hpriv : s.privileged s.cur n = false) (w : Sync) : qsaveOp s o w = .next (s.trap 0x03 (privInfo 5 0x0C 0)) := by
  rw [qsaveOp, qSlot, guarded_of_passes hiss hg]
  simp only [hpriv, Bool.not_false, if_true, Try.finish]

theorem qrestOp_of_unprivileged (hpriv : s.privileged s.cur n = false) (w : Sync) : qrestOp s o w = .next (s.trap 0x03 (privInfo 5 0x0D 0)) := by
  rw [qrestOp, qSlot, guarded_of_passes hiss hg]
  simp only [hpriv, Bool.not_false, if_true, Try.finish]

section
variable (hpriv : s.privileged s.cur n = true) (hp : (s.bun.old.getXY o.fs o.a.toNat).p = false)
  (halign : (s.bun.old.getXY o.fs o.a.toNat).v.toNat % 64 = 0)
include hpriv hp halign

/-- A QSAVE that passes its checks issues its command. -/
theorem qsaveOp_of_checked (w : Sync) : qsaveOp s o w =
    .next (s.qIssue k n x (.qsave o) w (.qsave (s.bun.old.getXY o.fs o.a.toNat).v) (.freezeForSave n k.nextCmd x.tookPreempt)).finish := by
  rw [qsaveOp, qSlot, guarded_of_passes hiss hg]
  simp only [hpriv, Bool.not_true, hp, halign, ne_eq, not_true, Bool.false_eq_true, if_false]
  rfl

/-- A QREST that passes its checks holds its context, once its wait is met. -/
theorem qrestOp_of_checked (w : Sync) : qrestOp s o w =
    .next ((s.syncWait k x .q w).bind fun t _ => .ok (t.holdForRestore n (s.bun.old.getXY o.fs o.a.toNat).v w)
      (t.holdForRestore n (s.bun.old.getXY o.fs o.a.toNat).v w)).finish := by
  rw [qrestOp, qSlot, guarded_of_passes hiss hg]
  simp only [hpriv, Bool.not_true, hp, halign, ne_eq, not_true, Bool.false_eq_true, if_false]
  rfl

end
end

/-! ## What becomes of them -/

/-- A QSAVE that starts posts its completion. -/
theorem State.startsTo_qsave {t : State} {c n : Nat} {k : Core} {x : Ctx} {q : QCmd} (hk : t.core? c = some k) (hq : k.qcmds = [q]) (hx : k.ctx? n = some x)
    {a : Word64} (hkind : q.kind = .qsave a) : (t.qStart c q).StartsTo c n x q (State.Working q.kind (.qsaveCompletion c q.id)) := by
  simp only [State.qStart, hkind]
  exact hkind ▸ State.startsTo_working hk hq hx (fun _ => State.core?_postOnce ..) rfl (State.mem_postOnce ..)

/-- QREST of an end record: its context goes on, with the signal of the operation (12 R297). -/
theorem execQrestCompletion_of_end {s s1 : State} {c n pos : Nat} {x : Ctx} {addr : Word64} {w : Sync} {ws : List PWord} (hev : s.ev = .qrestCompletion c n)
    (hx : s.ctx? c n = some x) (hhold : x.holdQ = .qrest addr pos w []) (hfenced : ((s.core? c).any fun k => k.fenced n k.nextCmd 4) = false)
    (hread : s.readWords c false (addr.toNat + 64 * pos) 16 = (s1, .got ws)) (hclean : ∀ v ∈ ws, v.p = false) (hend : wordsBits ws 0 8 = 0) :
    exec .qrestCompletion s = .next (((s1.updCtx c n fun x => { x with holdQ := .none }).post1 c n w).retryRetire c n) := by
  have hpsn : ws.any (·.p) = false := List.any_eq_false.2 fun v hv => by simp [hclean v hv]
  change execQrestCompletion s = _
  simp only [execQrestCompletion, hev, hx, Option.map_some, hhold, hfenced, Bool.false_eq_true, if_false, hread, hpsn, List.isEmpty_nil, Bool.not_true,
    Bool.and_false, hend, if_true]

/-- QREST of a record that it restores at once goes on to the next. -/
theorem execQrestCompletion_of_record {s s1 s2 : State} {c n pos : Nat} {x : Ctx} {addr : Word64} {w : Sync} {ws : List PWord}
    (hev : s.ev = .qrestCompletion c n) (hx : s.ctx? c n = some x) (hhold : x.holdQ = .qrest addr pos w [])
    (hfenced : ((s.core? c).any fun k => k.fenced n k.nextCmd 4) = false)
    (hread : s.readWords c false (addr.toNat + 64 * pos) 16 = (s1, .got ws)) (hclean : ∀ v ∈ ws, v.p = false) (hmore : wordsBits ws 0 8 ≠ 0)
    (hdone : s1.restoreRecord c n (wordsBits ws) = .done s2) :
    exec .qrestCompletion s = .next ((s2.updCtx c n fun x => { x with holdQ := .qrest addr (pos + 1) w [] }).postOnce 1 (.qrestCompletion c n)) := by
  have hpsn : ws.any (·.p) = false := List.any_eq_false.2 fun v hv => by simp [hclean v hv]
  change execQrestCompletion s = _
  simp only [execQrestCompletion, hev, hx, Option.map_some, hhold, hfenced, Bool.false_eq_true, if_false, hread, hpsn, List.isEmpty_nil, Bool.not_true,
    Bool.and_false, hmore, hdone]

/-- A context of a core after the end record of its QREST, and the semaphore that it signals. -/
theorem State.qrestEnd {s : State} {c n : Nat} {k : Core} {x : Ctx} (hk : s.core? c = some k) (hx : k.ctx? n = some x) (w : Sync) :
    ∃ k' x', (((s.updCtx c n fun x => { x with holdQ := .none }).post1 c n w).retryRetire c n).core? c = some k' ∧ k'.ctx? n = some x' ∧ x'.holdQ = .none ∧
      (w.si ≠ 0 → k'.sem w.ss.toNat = (k.sem w.ss.toNat).signal w.si.toNat) := by
  have hk1 := State.core?_updCtx_same (fun x => { x with holdQ := .none }) hk hx
  obtain ⟨k', hk', hsig⟩ := State.core?_post1 hk1 n w
  obtain ⟨x', hx', hwoken⟩ := State.ctx?_post1 (State.ctx?_updCtx_of_some ((State.ctx?_of_core? hk).trans hx) fun x => { x with holdQ := .none }) n w
  exact ⟨k', x', (State.core?_retryRetire ..).trans hk', (State.ctx?_of_core? hk').symm.trans hx', hwoken.holdQ, hsig.sem⟩

/-! ## The operations in both their forms -/

section
variable {s : State} {k : Core} {n : Nat} {x : Ctx} {o : OpQsave} (hiss : s.issues k n x) (hg : s.passes o.g .pk)
  (hpriv : s.privileged s.cur n = true) (hp : (s.bun.old.getXY o.fs o.a.toNat).p = false)
  (halign : (s.bun.old.getXY o.fs o.a.toNat).v.toNat % 64 = 0) {i : Instr} {w : Sync}
include hiss hg hpriv hp halign

section
variable (hexec : exec i s = qsaveOp s o w)
include hexec

/-- A QSAVE with its wait met and room in its queue enters it. -/
theorem qsave_enters (hmet : w.wt = 0 ∨ (k.sem w.ws.toNat).met w.wt.toNat = true) (hroom : ¬16 ≤ (k.qcmds.filter fun q => !q.started).length) :
    exec i s = .next ((State.freezeForSave n k.nextCmd x.tookPreempt (s.updCore s.cur fun k' => { k' with
      nextCmd := k'.nextCmd + 1
      qcmds := k'.qcmds ++ [⟨k'.nextCmd, n, .qsave (s.bun.old.getXY o.fs o.a.toNat).v, w, engineWord (.qsave o), false, 0, false, 0, [],
        Guard.psn o.g .pk s.bun.old⟩] })).postOnce 0 (.streamCommandStart s.cur)) := by
  rw [hexec, qsaveOp_of_checked hiss hg hpriv hp halign, State.qIssue_of_room hiss.1 hmet hroom]
  rfl

theorem qsave_stalls (hmet : w.wt = 0 ∨ (k.sem w.ws.toNat).met w.wt.toNat = true) (hfull : 16 ≤ (k.qcmds.filter fun q => !q.started).length) :
    exec i s = .next s.stall := by
  rw [hexec, qsaveOp_of_checked hiss hg hpriv hp halign, State.qIssue, State.syncWait_of_met hmet, Try.bind_ok, if_pos hfull, Try.finish_wait]

theorem qsave_blocks (hmet : ¬(w.wt = 0 ∨ (k.sem w.ws.toNat).met w.wt.toNat = true)) (hsat : Slot.q ∉ x.sat) : BlocksOn s i n x .q w :=
  blocksOn_of_syncWait hiss (hexec.trans (qsaveOp_of_checked hiss hg hpriv hp halign w)) hmet hsat

/-- A QSAVE of a context that has taken PREEMPT is at work with the event that it posted, where nothing is queued before it. -/
theorem qsave_works (hmet : w.wt = 0 ∨ (k.sem w.ws.toNat).met w.wt.toNat = true) (htook : x.tookPreempt = true) (hq : k.qcmds = []) (hf : x.fences = []) :
    ∃ t u k', exec i s = .next t ∧ exec .streamCommandStart { t with ev := .streamCommandStart s.cur } = .next u ∧ u.core? s.cur = some k' ∧
      (∃ q, k'.qcmds = [q] ∧ q.kind = .qsave (s.bun.old.getXY o.fs o.a.toNat).v ∧ q.started = true ∧ q.sync = w) ∧
      ∃ d, (d, Event.qsaveCompletion s.cur k.nextCmd) ∈ u.agenda := by
  have henters : s.Enters k n x i w (.qsave (s.bun.old.getXY o.fs o.a.toNat).v) := by
    refine ⟨.qsave o, hexec.trans ((qsaveOp_of_checked hiss hg hpriv hp halign w).trans ?_)⟩
    rw [htook]
    rfl
  obtain ⟨t, u, k', ht, hu, hk', ⟨⟨q, hmem, hkind⟩, hagenda⟩, -, hqueue⟩ := henters.runs hiss hmet hq hf trivial nofun
    (effect := State.Working (.qsave (s.bun.old.getXY o.fs o.a.toNat).v) (.qsaveCompletion s.cur k.nextCmd))
    fun t q hkind _ _ hid _ hk => by
      obtain ⟨-, -, hx⟩ := hiss
      rw [← hkind, ← hid]
      exact State.startsTo_qsave hk (by rw [Core.enqueue_qcmds, hq, List.nil_append]) hx hkind
  refine ⟨t, u, k', ht, hu, hk', ?_, hagenda⟩
  obtain hnil | ⟨q', hone, hstarted, -, -, hsync⟩ := hqueue
  · rw [hnil] at hmem
    cases hmem
  · rw [hone] at hmem
    obtain rfl := List.mem_singleton.1 hmem
    exact ⟨q, hone, hkind, hstarted, hsync⟩

end

section
variable (hexec : exec i s = qrestOp s o w)
include hexec

/-- A QREST whose wait is met holds its context; where its record is an end record the context goes on. -/
theorem qrest_holds (hmet : w.wt = 0 ∨ (k.sem w.ws.toNat).met w.wt.toNat = true) :
    ∃ t, exec i s = .next t ∧ t.ctx? s.cur n = some { x with holdQ := .qrest (s.bun.old.getXY o.fs o.a.toNat).v 0 w [] } ∧
      (s.cycle + 1, Event.qrestCompletion s.cur n) ∈ t.agenda := by
  refine ⟨s.holdForRestore n (s.bun.old.getXY o.fs o.a.toNat).v w, ?_, ?_, ?_⟩
  · rw [hexec, qrestOp_of_checked hiss hg hpriv hp halign, State.syncWait_of_met hmet, Try.bind_ok, Try.finish_ok]
  · obtain ⟨hk, -, hx⟩ := hiss
    exact State.ctx?_updCtx_of_some ((State.ctx?_of_core? hk).trans hx) _
  · have hcycle := State.mem_post (s.updCtx s.cur n fun x => { x with holdQ := .qrest (s.bun.old.getXY o.fs o.a.toNat).v 0 w [] }) 1 (.qrestCompletion s.cur n)
    rwa [State.updCtx_cycle] at hcycle

theorem qrest_blocks (hmet : ¬(w.wt = 0 ∨ (k.sem w.ws.toNat).met w.wt.toNat = true)) (hsat : Slot.q ∉ x.sat) : BlocksOn s i n x .q w :=
  blocksOn_of_syncWait hiss (hexec.trans (qrestOp_of_checked hiss hg hpriv hp halign w)) hmet hsat

end
end

/-! ## The completion of QSAVE -/

/-- Once the records are written, what they hold is removed and the command ends (12 R296). -/
theorem execQsaveCompletion_of_written {s s2 : State} {c : Nat} {k : Core} {y : QCmd} {a : Word64} (hev : s.ev = .qsaveCompletion c y.id)
    (hk : (s.mxSettle c).core? c = some k) (hy : k.qcmd y.id = some y) (hkind : y.kind = .qsave a) (hstarted : y.started = true) (hfaulted : y.faulted = false)
    (hstop : k.stopped y.ctx y.id = true)
    (hwritten : (s.mxSettle c).writeRecords c y.ctx y.id a.toNat y.psn y.prog ((k.saveRecords y.ctx y.id).drop y.prog) = (s2, .got ())) :
    exec .qsaveCompletion s = .next ((s2.updCore c fun k => k.removeSaved y.ctx y.id).qDone c y) := by
  change execQsaveCompletion s = _
  simp only [execQsaveCompletion, hev, hk, Option.bind_some, hy, Option.map_some, hkind, hstarted, Bool.not_true, hfaulted, Bool.or_self, Bool.false_eq_true,
    if_false, hstop, hwritten]

/-- A core from which a QSAVE has removed what it saved. -/
theorem State.core?_qsaveEnd {s : State} {c : Nat} {k : Core} (hk : s.core? c = some k) (y : QCmd) :
    ∃ k', ((s.updCore c fun k => k.removeSaved y.ctx y.id).qDone c y).core? c = some k' ∧ (∀ z ∈ k'.qcmds, z.id ≠ y.id) ∧
      (∀ f ∈ k'.frozen, Frozen.ctx f ≠ y.ctx) ∧ (∀ q r, (q, some r) ∈ k'.sregs → r.alloc = true → r.owner ≠ y.ctx) ∧
      (y.sync.si ≠ 0 → k'.sem y.sync.ss.toNat = (k.sem y.sync.ss.toNat).signal y.sync.si.toNat) := by
  have hk1 : (s.updCore c fun k => k.removeSaved y.ctx y.id).core? c = some (k.removeSaved y.ctx y.id) :=
    (State.core?_updCore_same ..).trans (congrArg (Option.map _) hk)
  obtain ⟨k', hk', hsig⟩ := State.core?_qDone hk1 y
  refine ⟨k', hk', fun z hz => ?_, fun f hf => ?_, fun q r hr halloc => ?_, hsig.sem⟩
  · rw [hsig.qcmds, Core.dropQ_qcmds, List.mem_filter] at hz
    exact of_decide_eq_true hz.2
  · have hfrozen : k'.frozen = k.frozen.filter fun f => Frozen.ctx f ≠ y.ctx := by rw [hsig.rest]; rfl
    rw [hfrozen, List.mem_filter] at hf
    exact of_decide_eq_true hf.2
  · rw [hsig.sregs] at hr
    have hleft := (List.mem_filter.1 hr).2
    simp only [halloc, Bool.true_and, Bool.not_eq_true', decide_eq_false_iff_not] at hleft
    exact hleft

/-- Settles O45: QSAVE and QREST pass the same checks in both their forms; the events of their records follow. -/
theorem saveAndRestore : Obligations.SaveAndRestore := by
  unfold Obligations.SaveAndRestore
  refine ⟨?issue, fun s c => ⟨?save, ?restore⟩⟩
  case save =>
    rintro _ s2 k1 k2 y a hev rfl hk hy hkind hstarted hfaulted hstop hwritten hk2
    obtain ⟨k', hk', hrest⟩ := State.core?_qsaveEnd hk2 y
    exact ⟨_, k', execQsaveCompletion_of_written hev hk hy hkind hstarted hfaulted hstop hwritten, hk', hrest⟩
  case restore =>
    intro n k x s1 k1 x1 addr pos w ws hev hk hx hhold hfenced hread hclean hk1 hx1
    have hctx : s.ctx? c n = some x := (State.ctx?_of_core? hk).trans hx
    have hany : ((s.core? c).any fun k => k.fenced n k.nextCmd 4) = false := by rw [hk, Option.any_some, hfenced]
    refine ⟨fun hend => ?_, fun s2 x2 hmore hdone hx2 => ?_⟩
    · obtain ⟨k', x', hgoes⟩ := State.qrestEnd hk1 hx1 w
      exact ⟨_, k', x', execQrestCompletion_of_end hev hctx hhold hany hread hclean hend, hgoes⟩
    · refine ⟨_, _, execQrestCompletion_of_record hev hctx hhold hany hread hclean hmore hdone, ?_, rfl⟩
      rw [State.ctx?_eq, State.core?_postOnce]
      exact State.ctx?_updCtx_of_some hx2 _
  case issue =>
    intro s k n x w o hiss hg a saves restores
    refine ⟨?_, fun hpriv => ⟨qsaveOp_of_unprivileged hiss hg hpriv Sync.none, qrestOp_of_unprivileged hiss hg hpriv Sync.none⟩⟩
    intro hpriv hp halign met full
    have hsaves : ∀ i w, exec i s = qsaveOp s o w → (w.wt = 0 ∨ (k.sem w.ws.toNat).met w.wt.toNat = true) → ¬full → saves i w := by
      intro i w hexec hmet hroom
      refine ⟨fun htook => ?_, fun htook => ?_, qsave_works hiss hg hpriv hp halign hexec hmet⟩
      · rw [qsave_enters hiss hg hpriv hp halign hexec hmet hroom, htook]
        rfl
      · rw [qsave_enters hiss hg hpriv hp halign hexec hmet hroom, htook, State.freezeForSave, if_neg Bool.false_ne_true, State.updCore_cur]
    have hrestores : ∀ i w, exec i s = qrestOp s o w → (w.wt = 0 ∨ (k.sem w.ws.toNat).met w.wt.toNat = true) → restores i w := by
      intro i w hexec hmet
      obtain ⟨t, ht, hx, hmem⟩ := qrest_holds hiss hg hpriv hp halign hexec hmet
      refine ⟨t, _, ht, hx, rfl, hmem, fun k0 s1 k1 x1 ws hk0 hfenced hread hclean hk1 hx1 hend => ?_⟩
      obtain ⟨k', x', hk', hx', hgoes, -⟩ := State.qrestEnd hk1 hx1 w
      have hany : (({ t with ev := .qrestCompletion s.cur n } : State).core? s.cur).any (fun k => k.fenced n k.nextCmd 4) = false := by
        rw [hk0, Option.any_some, hfenced]
      exact ⟨_, x', execQrestCompletion_of_end rfl hx rfl hany hread hclean hend, (State.ctx?_of_core? hk').trans hx', hgoes⟩
    exact ⟨fun hroom => ⟨hsaves _ _ rfl (.inl rfl) hroom, fun hmet => hsaves _ _ rfl hmet hroom⟩,
      fun hfull => ⟨qsave_stalls hiss hg hpriv hp halign rfl (.inl rfl) hfull, fun hmet => qsave_stalls hiss hg hpriv hp halign rfl hmet hfull⟩,
      hrestores _ _ rfl (.inl rfl), fun hmet => hrestores _ _ rfl hmet,
      fun hmet hsat => ⟨qsave_blocks hiss hg hpriv hp halign rfl hmet hsat, qrest_blocks hiss hg hpriv hp halign rfl hmet hsat⟩⟩

end Sys2Proof.Machine
end

section
/-! SUPPORT. The canonical form of memory (13 R303): what it says of each answer that an operation of the machine gives, and how it passes through
the ways in which the operations are put together. -/

namespace Sys2Proof.Machine

/-! ## What carries the canonical form -/

/-- Every state that an attempt may leave is canonical, and so is what it answers, as `v` says. -/
def Try.Inv {α : Type} (v : α → Prop) : Try α → Prop
  | .ok s a => s.Inv ∧ v a
  | .trap s _ _ => s.Inv
  | .wait s => s.Inv
  | .kill s _ _ => s.Inv

/-- The state that an outcome goes on with, if it does, is canonical. -/
def Canonical : Host.Outcome State Fault Refusal → Prop
  | .next t => t.Inv
  | .fault _ => True
  | .refused _ => True

/-- So is a state that may be there. -/
def OptInv : Option State → Prop
  | none => True
  | some t => t.Inv

/-- So are the states of a group of stores, before and after what was tried last. -/
def Performed.Inv (p : Performed) : Prop := p.s.Inv ∧ p.after.Inv

/-- So is the state in which a record of QREST has been restored. -/
def Restore.Inv : Restore → Prop
  | .done s => s.Inv
  | .later s _ _ _ => s.Inv
  | .wait => True
  | .bad _ => True

theorem OptInv.of_eq {o o' : Option State} (h : OptInv o) (e : o = o') : OptInv o' := e ▸ h

theorem Canonical.of_eq {o o' : Host.Outcome State Fault Refusal} (h : Canonical o) (e : o = o') : Canonical o' := e ▸ h

theorem Restore.Inv.of_eq {o o' : Restore} (h : o.Inv) (e : o = o') : o'.Inv := e ▸ h

theorem State.Inv.of_fst {α : Type} {p : State × α} {t : State} {a : α} (h : p.1.Inv) (e : p = (t, a)) : t.Inv := by
  subst e
  exact h

theorem Try.Inv.of_eq {α : Type} {v : α → Prop} {t t' : Try α} (h : t.Inv v) (e : t = t') : t'.Inv v := e ▸ h

/-- An update of the state that leaves memory. -/
theorem State.Inv.sameMem {s t : State} (hs : s.Inv) (h : t.mem = s.mem) : t.Inv := State.inv_of_mem h hs

theorem State.inv_ite {c : Prop} [Decidable c] {s t : State} (hs : s.Inv) (ht : t.Inv) : (if c then s else t).Inv := by
  split
  · exact hs
  · exact ht

theorem State.inv_ite_fst {α : Type} {c : Prop} [Decidable c] {p q : State × α} (hp : p.1.Inv) (hq : q.1.Inv) : (if c then p else q).1.Inv := by
  split
  · exact hp
  · exact hq

theorem State.Inv.forEach {s : State} (h : s.Inv) {α : Type} {l : List α} {f : State → α → State} (hf : ∀ t x, t.Inv → (f t x).Inv) :
    (s.forEach l f).Inv :=
  State.forEach_keeps State.Inv hf l s h

theorem State.Inv.foldl {s : State} (h : s.Inv) {α : Type} {l : List α} {f : State → α → State} (hf : ∀ t x, t.Inv → (f t x).Inv) :
    (l.foldl f s).Inv :=
  State.forEach_keeps State.Inv hf l s h

theorem State.inv_foldl_fst {α β : Type} {f : State × β → α → State × β} (hf : ∀ p x, p.1.Inv → (f p x).1.Inv) :
    ∀ (l : List α) {p : State × β}, p.1.Inv → (l.foldl f p).1.Inv
  | [], _, h => h
  | x :: l, p, h => State.inv_foldl_fst hf l (hf p x h)

theorem State.inv_getD {s : State} (h : s.Inv) {o : Option State} (ho : OptInv o) : (o.getD s).Inv := by
  cases o with
  | none => exact h
  | some t => exact ho

theorem Try.Inv.bind {α β : Type} {v : α → Prop} {w : β → Prop} {t : Try α} {f : State → α → Try β} (h : t.Inv v)
    (hf : ∀ s a, s.Inv → v a → (f s a).Inv w) : (t.bind f).Inv w := by
  cases t with
  | ok s a => exact hf s a h.1 h.2
  | trap s c i => exact h
  | wait s => exact h
  | kill s k a => exact h

theorem inv_slotOp {s : State} {f : Core → Nat → Ctx → State} (hf : ∀ k n x, (f k n x).Inv) : Canonical (slotOp s f) := by
  unfold slotOp
  split
  · trivial
  · exact hf _ _ _

end Sys2Proof.Machine
end

section
/-! SUPPORT. Every operation on the state keeps the canonical form of memory: time, contexts, traps, memory, translation, the stash (03, 10, 11, 12, 13). -/

namespace Sys2Proof.Machine

/-! ## Time and the agenda -/

theorem State.Inv.advance {s : State} (hs : s.Inv) (t : Nat) : (s.advance t).Inv := by
  unfold State.advance
  split
  exacts [hs, hs]

theorem State.Inv.post {s : State} (hs : s.Inv) (delay : Nat) (e : Event) : (s.post delay e).Inv := hs

theorem State.Inv.postOpen {s : State} (hs : s.Inv) (bound : Nat) (e : Event) : (s.postOpen bound e).Inv := hs

theorem State.Inv.postOnce {s : State} (hs : s.Inv) (delay : Nat) (e : Event) : (s.postOnce delay e).Inv := by
  unfold State.postOnce
  split
  exacts [hs, hs]

theorem State.Inv.emit {s : State} (hs : s.Inv) (o : Output) : (s.emit o).Inv := hs

/-! ## Parts of the machine -/

theorem State.Inv.setCore {s : State} (hs : s.Inv) (c : Nat) (k : Core) : (s.setCore c k).Inv := hs

theorem State.Inv.updCore {s : State} (hs : s.Inv) (c : Nat) (f : Core → Core) : (s.updCore c f).Inv := by
  unfold State.updCore
  split
  exacts [hs, hs]

theorem State.Inv.updCtx {s : State} (hs : s.Inv) (c n : Nat) (f : Ctx → Ctx) : (s.updCtx c n f).Inv := hs.updCore ..

theorem State.Inv.updPart {s : State} (hs : s.Inv) (p : Nat) (f : Part → Part) : (s.updPart p f).Inv := by
  unfold State.updPart
  split
  exacts [hs, hs]

theorem State.Inv.updLaunch {s : State} (hs : s.Inv) (l : Nat) (f : Launch → Launch) : (s.updLaunch l f).Inv := by
  unfold State.updLaunch
  split
  exacts [hs, hs]

theorem State.Inv.updCluster {s : State} (hs : s.Inv) (c : Nat) (f : Cluster → Cluster) : (s.updCluster c f).Inv := by
  unfold State.updCluster
  split
  exacts [hs, hs]

theorem State.Inv.updRouter {s : State} (hs : s.Inv) (r : Nat) (f : Router → Router) : (s.updRouter r f).Inv := by
  unfold State.updRouter
  split
  exacts [hs, hs]

theorem State.Inv.updSlice {s : State} (hs : s.Inv) (n : Nat) (f : Slice → Slice) : (s.updSlice n f).Inv := by
  unfold State.updSlice
  split
  exacts [hs, hs]

theorem State.Inv.updPort {s : State} (hs : s.Inv) (n : Nat) (f : Port → Port) : (s.updPort n f).Inv := by
  unfold State.updPort
  split
  exacts [hs, hs]

theorem State.Inv.updIssuer {s : State} (hs : s.Inv) (f : Ctx → Ctx) : (s.updIssuer f).Inv := by
  unfold State.updIssuer
  split
  exacts [hs, hs.updCtx ..]

/-! ## Contexts -/

theorem State.Inv.wakeControl {s : State} (hs : s.Inv) (p : Nat) : (s.wakeControl p).Inv := by
  unfold State.wakeControl
  split
  exacts [hs, hs.updCtx ..]

theorem State.Inv.notice {s : State} (hs : s.Inv) (p cause : Nat) (info : Word64) : (s.notice p cause info).Inv := (hs.updPart ..).wakeControl ..

theorem State.Inv.startTimer {s : State} (hs : s.Inv) (c n : Nat) : (s.startTimer c n).Inv := by
  unfold State.startTimer
  split
  exacts [State.inv_ite hs (State.inv_ite (hs.updCtx ..) ((hs.updCtx ..).post ..)), hs.updCtx .., hs]

theorem State.Inv.countIssue {s : State} (hs : s.Inv) (c n : Nat) : (s.countIssue c n).Inv := by
  unfold State.countIssue
  split
  exacts [hs.updCtx .., hs.updCtx ..]

theorem State.Inv.switchOut {s : State} (hs : s.Inv) (c n : Nat) (st : CtxState) : (s.switchOut c n st).Inv := by
  unfold State.switchOut
  extract_lets s1
  have hs1 : s1.Inv := by
    unfold s1
    split
    · exact hs
    · split
      exacts [hs, hs.countIssue ..]
  exact (hs1.updCtx ..).updCore ..

/-! ## Semaphores (12 R289, R290) -/

theorem State.Inv.putSem {s : State} (hs : s.Inv) (c n : Nat) (v : Sem) : (s.putSem c n v).Inv := hs.updCore ..

theorem State.Inv.signal {s : State} (hs : s.Inv) (c n inc by' : Nat) : (s.signal c n inc by').Inv := by
  unfold State.signal
  split
  exacts [hs, State.inv_ite ((hs.putSem ..).updCtx ..) (hs.putSem ..)]

theorem State.Inv.signalErr {s : State} (hs : s.Inv) (c n : Nat) : (s.signalErr c n).Inv := by
  unfold State.signalErr
  split
  exacts [hs, hs.putSem ..]

theorem State.Inv.post1 {s : State} (hs : s.Inv) (c ctx : Nat) (w : Sync) : (s.post1 c ctx w).Inv := by
  unfold State.post1
  split
  exacts [hs, hs.signal ..]

theorem State.Inv.postErr {s : State} (hs : s.Inv) (c : Nat) (w : Sync) : (s.postErr c w).Inv := by
  unfold State.postErr
  split
  exacts [hs, hs.signalErr ..]

/-! ## Traps (12 R284, R285) -/

theorem State.Inv.cancelStreams {s : State} (hs : s.Inv) (c n : Nat) : (s.cancelStreams c n).Inv := by
  unfold State.cancelStreams
  split
  exacts [hs, (hs.updCore ..).foldl fun _ _ ht => (ht.post ..).post ..]

theorem State.Inv.wakeRings {s : State} (hs : s.Inv) : (s.wakeRings).Inv := by
  unfold State.wakeRings
  refine hs.forEach fun t x ht => ?_
  split
  · exact ht
  · refine ht.forEach fun t1 x1 ht1 => ?_
    split
    · exact ht1
    · split
      exacts [ht1, ht1.postOnce ..]

theorem State.Inv.wakeFlows {s : State} (hs : s.Inv) (l : Nat) : (s.wakeFlows l).Inv := by
  unfold State.wakeFlows
  refine State.Inv.wakeRings (hs.forEach fun t x ht => ?_)
  split
  · exact ht
  · split
    exacts [(ht.postOnce ..).postOnce .., ht]

theorem State.Inv.endHolding {s : State} (hs : s.Inv) (c n : Nat) : (s.endHolding c n).Inv := by
  unfold State.endHolding
  extract_lets held s1
  have hs1 : s1.Inv := hs.updCtx ..
  split
  · exact hs1
  · split
    exacts [hs1.wakeFlows .., hs1]

theorem State.Inv.retryRetire {s : State} (hs : s.Inv) (c n : Nat) : (s.retryRetire c n).Inv := by
  unfold State.retryRetire
  split
  · exact hs
  · split
    exacts [hs.postOnce .., hs]

theorem State.Inv.kill {s : State} (hs : s.Inv) (c n cause : Nat) (info : Word64) : (s.kill c n cause info).Inv := by
  unfold State.kill
  split
  · exact hs
  · extract_lets s1 s2 s3 s4 s5 s6
    have hs1 : s1.Inv := (hs.switchOut ..).endHolding ..
    have hs2 : s2.Inv := hs1.updCtx ..
    have hs3 : s3.Inv := hs2.cancelStreams ..
    have hs4 : s4.Inv := (hs3.updCore ..).postOnce ..
    have hs5 : s5.Inv := by
      unfold s5
      split
      exacts [hs4.postOnce .., hs4]
    have hs6 : s6.Inv := by
      unfold s6
      split
      exacts [hs5.postOnce .., hs5]
    split
    exacts [hs6, (((hs6.updLaunch ..).post ..).postOnce ..).postOnce ..]

theorem State.Inv.tellLaunch {s : State} (hs : s.Inv) (c : Nat) : (s.tellLaunch c).Inv := by
  unfold State.tellLaunch
  split
  · exact hs
  · split
    · exact hs
    · split
      exacts [hs.postOnce .., hs]

theorem State.Inv.trap {s : State} (hs : s.Inv) (cause : Nat) (info : Word64) : (s.trap cause info).Inv := by
  unfold State.trap
  split
  exacts [hs, State.inv_ite ((((hs.sameMem (by rfl)).endHolding ..).updCtx ..).updCore ..) (((hs.sameMem (by rfl)).endHolding ..).kill ..)]

theorem State.Inv.poisonKill {s : State} (hs : s.Inv) (kind : Nat) (addr : Nat) : (s.poisonKill kind addr).Inv := by
  unfold State.poisonKill
  split
  exacts [hs, ((hs.sameMem (by rfl)).updCore ..).kill ..]

/-! ## The outcome of an attempt that accesses memory -/

theorem Try.Inv.finish {t : Try State} (h : t.Inv State.Inv) : t.finish.Inv := by
  cases t with
  | ok s t => exact h.2
  | trap s c i => exact State.Inv.trap h c i
  | wait s => exact h
  | kill s k a => exact State.Inv.poisonKill h k a

/-! ## Operands and the writes of results -/

theorem inv_guarded {s : State} (hs : s.Inv) {g : Guard} {b : Bank} {f : Core → Nat → Ctx → Try State} (hf : ∀ k n x, (f k n x).Inv State.Inv) :
    Canonical (guarded s g b f) :=
  inv_slotOp fun _ _ _ => State.inv_ite (Try.Inv.finish (hf _ _ _)) hs

theorem inv_guardedM {s : State} (hs : s.Inv) {g : Guard} {f : Core → Nat → Ctx → Try State} (hf : ∀ k n x, (f k n x).Inv State.Inv) :
    Canonical (guardedM s g f) :=
  inv_slotOp fun _ _ _ => State.inv_ite (Try.Inv.finish (hf _ _ _)) hs

theorem Try.inv_ite {α : Type} {v : α → Prop} {c : Prop} [Decidable c] {t u : Try α} (ht : t.Inv v) (hu : u.Inv v) : (if c then t else u).Inv v := by
  split
  · exact ht
  · exact hu

/-! ## Traps (12 R284, R285) -/

theorem State.Inv.enterAsync {s : State} (hs : s.Inv) (c n cause : Nat) (info : Word64) : (s.enterAsync c n cause info).Inv :=
  (hs.updCtx ..).updCore ..

theorem State.Inv.stall {s : State} (hs : s.Inv) : (s.stall).Inv := by
  unfold State.stall
  split
  exacts [hs, ((hs.sameMem (by rfl)).updCore ..).startTimer ..]

theorem State.Inv.block {s : State} (hs : s.Inv) : (s.block).Inv := by
  unfold State.block
  split
  exacts [hs, ((hs.sameMem (by rfl)).updCtx ..).startTimer ..]

theorem State.Inv.arm {s : State} (hs : s.Inv) (sl : Slot) (sem thr : Nat) (engine : Bool) : (s.arm sl sem thr engine).Inv := (hs.updIssuer ..).block

/-! ## Keys and fences (13 R304 to R307) -/

theorem State.Inv.seal {s : State} (hs : s.Inv) (sec k : Nat) : (s.seal sec k).Inv := hs

/-! ## Owners (11 R270) -/

theorem State.Inv.revoke {s : State} (hs : s.Inv) (own pa : Nat) : (s.revoke own pa).Inv :=
  State.inv_ite hs (State.inv_ite (hs.updCore ..) (hs.forEach fun _ _ ht => ht.updCore ..))

/-! ## Cache lines (10 R246 to R252, 13 R303, R306) -/

theorem State.Inv.settleWays {s : State} (hs : s.Inv) (n : Nat) : (s.settleWays n).Inv := hs.updSlice ..

theorem State.Inv.countLine {s : State} (hs : s.Inv) (a : Access) (pa : Nat) : (s.countLine a pa).1.Inv := by
  unfold State.countLine
  split
  exacts [hs.updSlice .., hs]

/-! ## Sectors (12 R302, 13 R304) -/

theorem State.Inv.dropDomainRows {s : State} (hs : s.Inv) (p e : Nat) : (s.dropDomainRows p e).Inv := hs

theorem State.Inv.abortLaunch {s : State} (hs : s.Inv) (l : Nat) : (s.abortLaunch l).Inv := (hs.updLaunch ..).post ..

theorem State.Inv.abortAll {s : State} (hs : s.Inv) (p : Nat) : (s.abortAll p).Inv := (hs.forEach fun _ _ ht => ht.abortLaunch ..).postOnce ..

theorem State.Inv.startSparing {s : State} (hs : s.Inv) (sec : Nat) : (s.startSparing sec).Inv := by
  unfold State.startSparing
  extract_lets bank src s1 src1
  have hs1 : s1.Inv := hs
  split
  · exact hs
  · split
    exacts [hs1, (hs1.sameMem (by rfl)).notice ..]

theorem State.Inv.countCorrected {s : State} (hs : s.Inv) (sec : Nat) : (s.countCorrected sec).Inv :=
  State.inv_ite (hs.sameMem (by rfl)) (State.inv_ite (hs.sameMem (by rfl)) ((hs.sameMem (by rfl)).startSparing ..))

theorem State.Inv.meet {s : State} (hs : s.Inv) (sec : Nat) (checks : List SectorCheck) : (s.meet sec checks).Inv := hs

/-! ## Translation -/

theorem State.Inv.walkFrom (part va : Nat) (u : Use) :
    ∀ (fuel : Nat) (table : Nat) (level : Nat) {s : State}, s.Inv → (s.walkFrom part va u fuel table level).1.Inv
  | 0, _, level, s, hs => by
    unfold State.walkFrom
    exact hs
  | fuel + 1, table, level, s, hs => by
    unfold State.walkFrom
    extract_lets
    split
    · next heq =>
      have ht1 := (State.inv_homeRead hs ..).of_fst heq
      extract_lets
      split
      · exact ht1
      · split
        · exact ht1
        · split
          exacts [ht1, ht1.walkFrom ..]

theorem State.Inv.walk {s : State} (hs : s.Inv) (part va : Nat) (u : Use) : (s.walk part va u).1.Inv := by
  unfold State.walk
  split
  exacts [hs, hs.walkFrom ..]

theorem State.Inv.useEntry {s : State} (hs : s.Inv) (c : Nat) (va : Nat) (u : Use) (e : TlbEntry) : (s.useEntry c va u e).1.Inv := by
  unfold State.useEntry
  extract_lets level f s1 s2 s3
  have hs1 : s1.Inv := State.inv_orPte hs ..
  have hs2 : s2.Inv := hs1.updCore ..
  have hs3 : s3.Inv := hs2.updCluster ..
  split
  · exact hs
  · split
    exacts [hs3, hs]

theorem State.Inv.translate {s : State} (hs : s.Inv) (c : Nat) (va : Nat) (u : Use) : (s.translate c va u).1.Inv := by
  unfold State.translate
  extract_lets
  split
  · exact hs.useEntry ..
  · split
    · exact (hs.updCore ..).useEntry ..
    · split
      · next heq => exact (hs.walk ..).of_fst heq
      · next heq =>
        have ht1 := (hs.walk ..).of_fst heq
        split
        exacts [ht1, (((State.inv_orPte ht1 ..).updCore ..).updCluster ..).useEntry ..]

theorem State.Inv.translateHome {s : State} (hs : s.Inv) (part va : Nat) (u : Use) : (s.translateHome part va u).1.Inv := by
  unfold State.translateHome
  split
  · next heq => exact (hs.walk ..).of_fst heq
  · next heq =>
    have ht1 := (hs.walk ..).of_fst heq
    split
    exacts [ht1, State.inv_orPte ht1 ..]

/-! ## The stash -/

theorem State.Inv.mergeWb {s : State} (hs : s.Inv) (q : Nat) (w : WriteBack) : (s.mergeWb q w).Inv := State.inv_homeWrite _ _ _ _ _ (hs.updCore ..)

theorem State.Inv.performWb {s : State} (hs : s.Inv) (q id : Nat) : (s.performWb q id).Inv := by
  unfold State.performWb
  split
  · exact hs
  · split
    exacts [hs, hs.foldl fun _ _ ht => ht.mergeWb ..]

theorem State.Inv.oldestWb {s : State} (hs : s.Inv) (q : Nat) : (s.oldestWb q).Inv := by
  unfold State.oldestWb
  split
  exacts [hs, hs.performWb ..]

theorem State.Inv.writeBackRow {s : State} (hs : s.Inv) (q n : Nat) : (s.writeBackRow q n).Inv := by
  unfold State.writeBackRow
  split
  · exact hs
  · split
    · exact hs
    · split
      exacts [hs, (hs.updCore ..).postOpen ..]

theorem State.Inv.ensureRow {s : State} (hs : s.Inv) (q block : Nat) (l : Leaf) : (s.ensureRow q block l).1.Inv := by
  unfold State.ensureRow
  split
  · exact hs
  · split
    · split
      exacts [hs.updCore .., hs]
    · extract_lets
      split
      · exact hs.updCore ..
      · split
        · extract_lets
          split
          exacts [hs, (hs.writeBackRow ..).updCore ..]
        · split
          exacts [hs.updCore .., hs]

theorem State.Inv.requestFill {s : State} (hs : s.Inv) (q block : Nat) (l : Leaf) : (s.requestFill q block l).Inv := by
  unfold State.requestFill
  split
  · exact hs
  · split
    exacts [hs, (hs.updCore ..).postOpen ..]

theorem State.Inv.flushWbs {s : State} (hs : s.Inv) (q pa : Nat) : (s.flushWbs q pa).Inv := by
  unfold State.flushWbs
  split
  exacts [hs, hs.forEach fun _ _ ht => ht.performWb ..]

theorem State.Inv.stashLoad {s : State} (hs : s.Inv) (c va n : Nat) : (s.stashLoad c va n).Inv fun _ => True := by
  unfold State.stashLoad
  split
  · next heq => exact (hs.translate ..).of_fst heq
  · next heq =>
    have ht1 := (hs.translate ..).of_fst heq
    extract_lets q lat hit await
    have hawait : ∀ (s : State), s.Inv → (await s).Inv := fun _ ht => (ht.updIssuer ..).block
    clear_value hit
    split
    · exact ⟨ht1, trivial⟩
    · split
      · next heq1 => exact (ht1.ensureRow ..).of_fst heq1
      · next heq1 => exact hawait _ ((ht1.ensureRow ..).of_fst heq1)
      · next heq1 => exact hawait _ (((ht1.ensureRow ..).of_fst heq1).requestFill ..)

theorem State.Inv.rowWrite {s : State} (hs : s.Inv) (q n off len val : Nat) (psn : Bool) : (s.rowWrite q n off len val psn).Inv := hs.updCore ..

theorem State.Inv.rowClean {s : State} (hs : s.Inv) (q n off : Nat) : (s.rowClean q n off).Inv := hs.updCore ..

theorem State.Inv.rowFor {s : State} (hs : s.Inv) (q block : Nat) (l : Leaf) : (s.rowFor q block l).1.Inv := by
  unfold State.rowFor
  split
  · next heq =>
    have ht1 := (hs.ensureRow ..).of_fst heq
    split
    exacts [(ht1.oldestWb ..).ensureRow .., ht1]
  · exact hs.ensureRow ..

theorem State.Inv.stashStore {s : State} (hs : s.Inv) (c ctx va n val : Nat) (psn anew : Bool) :
    (s.stashStore c ctx va n val psn anew).Inv State.Inv := by
  unfold State.stashStore
  split
  · next heq => exact (hs.translate ..).of_fst heq
  · next heq =>
    have ht1 := (hs.translate ..).of_fst heq
    extract_lets
    split
    · next heq1 => exact (ht1.rowFor ..).of_fst heq1
    · next heq1 => exact ((ht1.rowFor ..).of_fst heq1).stall
    · next heq1 =>
      have ht2 := (ht1.rowFor ..).of_fst heq1
      extract_lets s1 s2
      have hs1 : s1.Inv := by
        unfold s1
        split
        exacts [ht2.rowClean .., ht2]
      have hs2 : s2.Inv := (hs1.rowWrite ..).updCtx ..
      exact ⟨hs2, hs2⟩

/-! ## Release and acquire (11 R271) -/

theorem State.Inv.pushRelease {s : State} (hs : s.Inv) (r : Release) : (s.pushRelease r).1.Inv := by
  unfold State.pushRelease
  refine State.inv_foldl_fst (fun p x ht => ?_) _ hs
  split
  · exact ht
  · extract_lets
    split
    · exact ht
    · split
      · exact ht
      · split
        exacts [ht, ht.writeBackRow ..]

theorem State.Inv.startRelease {s : State} (hs : s.Inv) (c scope : Nat) : (s.startRelease c scope).1.Inv := hs.pushRelease ..

theorem State.Inv.releaseNow {s : State} (hs : s.Inv) (c scope : Nat) : (s.releaseNow c scope).Inv := by
  unfold State.releaseNow
  extract_lets s1
  have hs1 : s1.Inv := by
    unfold s1
    refine hs.foldl fun t x ht => ?_
    split
    exacts [ht, (ht.writeBackRow ..).performWb ..]
  exact hs1.foldl fun _ _ ht => ht.performWb ..

theorem State.Inv.dropWords {s : State} (hs : s.Inv) (q n : Nat) (words : List Nat) : (s.dropWords q n words).Inv := by
  unfold State.dropWords
  split
  exacts [hs, (hs.updCore ..).forEach fun _ _ ht => ht.updCore ..]

theorem State.Inv.acquire {s : State} (hs : s.Inv) (c scope : Nat) : (s.acquire c scope).Inv := by
  unfold State.acquire
  refine hs.forEach fun t x ht => ?_
  split
  · exact ht
  · refine ht.forEach fun t1 x1 ht1 => ?_
    split
    · exact ht1
    · split
      exacts [ht1.dropWords .., ht1]

theorem State.Inv.acquireBy {s : State} (hs : s.Inv) (c n scope : Nat) : (s.acquireBy c n scope).Inv := (hs.acquire ..).updCtx ..

theorem State.Inv.releaseHalf {s : State} (hs : s.Inv) (scope : Nat) : (s.releaseHalf scope).Inv State.Inv := by
  unfold State.releaseHalf
  split
  · exact hs
  · split
    · exact ⟨(hs.releaseNow ..).updIssuer .., (hs.releaseNow ..).updIssuer ..⟩
    · split
      · next heq =>
        have ht1 := State.Inv.of_fst (by
          split
          exacts [hs.startRelease .., hs.pushRelease ..]) heq
        split
        exacts [⟨ht1, ht1⟩, (ht1.updIssuer ..).stall]

theorem State.Inv.evictWord {s : State} (hs : s.Inv) (c va : Nat) (l : Leaf) : (s.evictWord c va l).Inv := by
  unfold State.evictWord
  extract_lets
  split
  exacts [hs.flushWbs .., (State.inv_homeWrite _ _ _ _ _ (hs.flushWbs ..)).dropWords ..]

end Sys2Proof.Machine
end

section
/-! SUPPORT. The canonical form of memory through operands, results, accesses, the engines' shared steps and control transfers (03, 07, 11, 15 to 19). -/

namespace Sys2Proof.Machine

/-! ## Operands and the writes of results -/

theorem State.Inv.writeXY {s : State} (hs : s.Inv) (y : Bool) (d : Reg5) (v : RV) (lat : Nat) : (s.writeXY y d v lat).Inv := hs.updIssuer ..

theorem State.Inv.writeC {s : State} (hs : s.Inv) (d : CReg) (v : RV) (lat : Nat) : (s.writeC d v lat).Inv := hs.updIssuer ..

theorem State.Inv.writeP {s : State} (hs : s.Inv) (b : Bank) (d : Reg5) (v : PV) (lat : Nat) : (s.writeP b d v lat).Inv := hs.updIssuer ..

theorem inv_iResult {s : State} (hs : s.Inv) (sl : ISlot) (g : Guard) (d : Reg5) (lat : Nat) (v : RV) : Canonical (iResult s sl g d lat v) :=
  inv_slotOp fun _ _ _ => State.inv_ite (hs.writeXY ..) hs

theorem inv_cResult {s : State} (hs : s.Inv) (g : Guard) (d : CReg) (lat : Nat) (v : RV) : Canonical (cResult s g d lat v) :=
  inv_slotOp fun _ _ _ => State.inv_ite (hs.writeC ..) hs

theorem inv_pResult {s : State} (hs : s.Inv) (g : Guard) (b : Bank) (d : Reg5) (lat : Nat) (v : PV) : Canonical (pResult s g b d lat v) :=
  inv_slotOp fun _ _ _ => State.inv_ite (hs.writeP ..) hs

theorem State.Inv.checkAddr {s : State} (hs : s.Inv) (base : RV) (a size : Nat) (write : Bool) : (s.checkAddr base a size write).Inv State.Inv := by
  unfold State.checkAddr
  split
  · exact hs
  · split
    · exact hs
    · split
      exacts [hs, ⟨hs, hs⟩]

/-! ## Predicate results -/

theorem inv_pvResult {s : State} (hs : s.Inv) (g : Guard) (d : Reg5) (lat : Nat) (v : PV) : Canonical (pvResult s g d lat v) :=
  inv_slotOp fun _ _ _ => hs.writeP ..

/-! ## Integer results -/

theorem inv_aluResult {s : State} (hs : s.Inv) (o : OpIA) (lat : Nat) (f : Word64 → Word64 → Word64) : Canonical (aluResult s o lat f) :=
  inv_iResult hs ..

theorem inv_aluUnary {s : State} (hs : s.Inv) (o : OpIA1) (f : Word64 → Word64) : Canonical (aluUnary s o f) := inv_iResult hs ..

theorem inv_divideResult {s : State} (hs : s.Inv) (o : OpIA) (f : Word64 → Word64 → Word64) : Canonical (divideResult s o f) :=
  inv_slotOp fun _ _ _ => State.inv_ite (State.inv_ite hs.stall ((hs.writeXY ..).updCore ..)) hs

theorem inv_addiCResult {s : State} (hs : s.Inv) (g : Guard) (d a : CReg) (imm : Word64) : Canonical (addiCResult s g d a imm) := inv_cResult hs ..

/-! ## The order of accesses -/

theorem State.Inv.releaseAfter {s : State} (hs : s.Inv) (pend : Core → Nat → List Nat) (scope : Nat) : (s.releaseAfter pend scope).Inv State.Inv := by
  unfold State.releaseAfter
  split
  · exact hs
  · split
    · exact hs.releaseHalf ..
    · split
      · exact hs.stall
      · split
        exacts [hs.stall, hs.releaseHalf ..]

theorem State.Inv.releaseAll {s : State} (hs : s.Inv) (mask scope : Nat) : (s.releaseAll mask scope).Inv State.Inv := hs.releaseAfter ..

theorem State.Inv.evictWords {s : State} (hs : s.Inv) (c a n : Nat) (l : Leaf) : (s.evictWords c a n l).Inv :=
  (hs.forEach fun _ _ ht => ht.evictWord ..).updCore ..

/-! ## Atomics -/

theorem State.Inv.atomLand {s : State} (hs : s.Inv) (c n : Nat) (y : ReadyAtomic) : (s.atomLand c n y).Inv := by
  unfold State.atomLand
  extract_lets t size s1
  have hs1 : s1.Inv := hs.evictWords ..
  split
  · next heq =>
    have ht1 := (State.inv_homeRead hs1 ..).of_fst heq
    extract_lets old src s2 s3
    have hs2 : s2.Inv := by
      unfold s2
      split
      exacts [ht1, State.inv_homePut ht1 ..]
    have hs3 : s3.Inv := hs2.updCtx ..
    exact hs3

theorem State.Inv.landLate {s : State} (hs : s.Inv) (c n : Nat) : (s.landLate c n).Inv := by
  unfold State.landLate
  split
  exacts [hs, (hs.updCtx ..).atomLand ..]

theorem inv_atomPerform {s : State} (hs : s.Inv) (n : Nat) (o : AtomOp) (l : Leaf) : (atomPerform s n o l).Inv := by
  unfold atomPerform
  split
  exacts [hs.updCtx .., hs.atomLand ..]

theorem inv_atomicOp {s : State} (hs : s.Inv) (o : AtomOp) : Canonical (atomicOp s o) := by
  unfold atomicOp
  refine inv_guarded hs fun _ _ _ => (hs.checkAddr ..).bind fun t t1 ht ht1 => ?_
  split
  · next heq => exact (ht.translate ..).of_fst heq
  · next heq =>
    have ht2 := (ht.translate ..).of_fst heq
    split
    exacts [(ht2.releaseAll ..).bind fun _ _ ht3 _ => ⟨ht3, inv_atomPerform ht3 ..⟩, ⟨ht2, inv_atomPerform ht2 ..⟩]

theorem inv_execAtomicResponse {s : State} (hs : s.Inv) : Canonical (execAtomicResponse s) := by
  unfold execAtomicResponse
  split
  · split
    exacts [hs, State.inv_ite ((hs.updCtx ..).acquireBy ..) (hs.updCtx ..)]
  · exact hs

/-! ## Accesses of the engines -/

theorem State.Inv.readVia {s : State} (hs : s.Inv) (c : Nat) (home : Bool) (va n : Nat) : (s.readVia c home va n).1.Inv := by
  unfold State.readVia
  split
  · exact hs
  · split
    · next heq => exact (hs.translate ..).of_fst heq
    · next heq =>
      have ht1 := (hs.translate ..).of_fst heq
      split
      · split
        · next heq1 => exact (State.inv_homeRead ht1 ..).of_fst heq1
      · extract_lets
        split
        · exact ht1
        · split
          · next heq1 => exact (ht1.ensureRow ..).of_fst heq1
          · next heq1 => exact (ht1.ensureRow ..).of_fst heq1
          · next heq1 => exact ((ht1.ensureRow ..).of_fst heq1).requestFill ..

theorem State.Inv.writeVia {s : State} (hs : s.Inv) (c ctx : Nat) (home : Bool) (va n val : Nat) (psn : Bool) :
    (s.writeVia c ctx home va n val psn).1.Inv := by
  unfold State.writeVia
  split
  · exact hs
  · split
    · next heq => exact (hs.translate ..).of_fst heq
    · next heq =>
      have ht1 := (hs.translate ..).of_fst heq
      extract_lets done q
      have hdone : ∀ (s : State), s.Inv → (done s).1.Inv := fun _ ht => ht.updCtx ..
      split
      · exact hdone _ (State.inv_homePut ht1 ..)
      · split
        · next heq1 => exact (ht1.ensureRow ..).of_fst heq1
        · next heq1 => exact (ht1.ensureRow ..).of_fst heq1
        · next heq1 => exact hdone _ (((ht1.ensureRow ..).of_fst heq1).rowWrite ..)

theorem State.Inv.readBytes (c : Nat) (home : Bool) (va : Nat) : ∀ (n : Nat) {s : State}, s.Inv → (s.readBytes c home va n).1.Inv
  | 0, s, hs => by
    unfold State.readBytes
    exact hs
  | n + 1, s, hs => by
    unfold State.readBytes
    split
    · next heq =>
      have ht1 := (hs.readVia ..).of_fst heq
      split
      · next heq1 => exact (ht1.readBytes ..).of_fst heq1
      · exact ht1.readBytes ..
    · exact hs.readVia ..

theorem State.Inv.readWords (c : Nat) (home : Bool) (va : Nat) : ∀ (n : Nat) {s : State}, s.Inv → (s.readWords c home va n).1.Inv
  | 0, s, hs => by
    unfold State.readWords
    exact hs
  | n + 1, s, hs => by
    unfold State.readWords
    split
    · next heq =>
      have ht1 := (hs.readVia ..).of_fst heq
      split
      · next heq1 => exact (ht1.readWords ..).of_fst heq1
      · exact ht1.readWords ..
    · next heq =>
      have ht1 := (hs.readVia ..).of_fst heq
      split
      · next heq1 => exact (ht1.readWords ..).of_fst heq1
      · exact ht1.readWords ..
    · next heq => exact (hs.readVia ..).of_fst heq
    · next heq => exact (hs.readVia ..).of_fst heq

theorem State.Inv.writeBytes (c ctx : Nat) (home : Bool) (va val : Nat) (psn : Bool) :
    ∀ (n : Nat) {s : State}, s.Inv → (s.writeBytes c ctx home va val psn n).1.Inv
  | 0, s, hs => by
    unfold State.writeBytes
    exact hs
  | n + 1, s, hs => by
    unfold State.writeBytes
    split
    · next heq => exact ((hs.writeVia ..).of_fst heq).writeBytes ..
    · exact hs.writeVia ..

/-! ## Engine commands (04 R83, 03 R58) -/

theorem State.Inv.syncWait {s : State} (hs : s.Inv) (k : Core) (x : Ctx) (sl : Slot) (w : Sync) : (s.syncWait k x sl w).Inv State.Inv := by
  unfold State.syncWait
  split
  exacts [⟨hs, hs⟩, hs.arm ..]

theorem State.Inv.ownedReg {s : State} (hs : s.Inv) (k : Core) (n q sl op : Nat) : (s.ownedReg k n q sl op).Inv State.Inv := by
  unfold State.ownedReg
  split
  exacts [⟨hs, hs⟩, hs]

/-! ## Stream registers -/

theorem State.Inv.updSreg {s : State} (hs : s.Inv) (c q : Nat) (f : SReg → SReg) : (s.updSreg c q f).Inv := hs.updCore ..

theorem State.Inv.updStrm {s : State} (hs : s.Inv) (c q : Nat) (f : Strm → Strm) : (s.updStrm c q f).Inv := hs.updSreg ..

/-! ## Waking -/

theorem State.Inv.wakeCore {s : State} (hs : s.Inv) (c : Nat) : (s.wakeCore c).Inv := by
  unfold State.wakeCore
  split
  · exact hs
  · extract_lets s1 s2 s3 s4 s5 s6 s7
    have hs1 : s1.Inv := by
      unfold s1
      refine hs.forEach fun t x ht => ?_
      split
      · exact ht
      · split
        exacts [ht, ht.postOnce ..]
    have hs2 : s2.Inv := by
      unfold s2
      refine hs1.forEach fun t x ht => ?_
      split
      exacts [ht.postOnce .., ht.postOnce .., ht.postOnce .., ht.postOnce .., ht.postOnce .., ht.postOnce .., ht, ht, ht]
    have hs3 : s3.Inv := by
      unfold s3
      split
      exacts [hs2.postOnce .., hs2]
    have hs4 : s4.Inv := by
      unfold s4
      split
      exacts [hs3.postOnce .., hs3]
    have hs5 : s5.Inv := by
      unfold s5
      split
      exacts [hs4, hs4.postOnce ..]
    have hs6 : s6.Inv := by
      unfold s6
      split
      exacts [hs5, hs5.postOnce ..]
    have hs7 : s7.Inv := by
      unfold s7
      refine hs6.forEach fun t x ht => ?_
      split
      exacts [ht, ht.postOnce ..]
    refine hs7.forEach fun t x ht => ?_
    split
    exacts [ht.postOnce .., ht.postOnce .., ht]

theorem State.Inv.wakeCluster {s : State} (hs : s.Inv) (c : Nat) : (s.wakeCluster c).Inv := hs.forEach fun _ _ ht => ht.wakeCore ..

/-! ## Faults -/

theorem State.Inv.countKill {s : State} (hs : s.Inv) (c n cause : Nat) : (s.countKill c n cause).Inv := by
  unfold State.countKill
  split
  · exact hs
  · split
    exacts [hs, hs.updLaunch ..]

theorem State.Inv.reportFault {s : State} (hs : s.Inv) (c n : Nat) (f : SFault) : (s.reportFault c n f).Inv := by
  unfold State.reportFault
  split
  · exact hs
  · split
    exacts [hs.countKill .., hs.updCtx ..]

theorem State.Inv.faultStream {s : State} (hs : s.Inv) (c q cause addr : Nat) : (s.faultStream c q cause addr).Inv := by
  unfold State.faultStream
  split
  · exact hs
  · extract_lets s1 gone s2
    have hs1 : s1.Inv := hs.updSreg ..
    have hs2 : s2.Inv := hs1.reportFault ..
    split
    exacts [hs2.updSreg .., (hs2.updSreg ..).postOnce ..]

theorem State.Inv.resumeFault {s : State} (hs : s.Inv) (c : Nat) (f : SFault) : (s.resumeFault c f).Inv := by
  unfold State.resumeFault
  split
  · split
    · exact hs
    · split
      exacts [(hs.updSreg ..).postOnce .., hs]
  · exact (hs.updCore ..).wakeCore ..
  · exact (hs.updCore ..).wakeCore ..
  · exact (hs.updCore ..).wakeCore ..
  · exact hs

/-! ## Poison that kills (12 R301) -/

theorem State.Inv.poisonLater {s : State} (hs : s.Inv) (c n kind addr : Nat) : (s.poisonLater c n kind addr).Inv := by
  unfold State.poisonLater
  split
  · exact hs
  · extract_lets dies s1
    have hs1 : s1.Inv := by
      unfold s1
      split
      exacts [hs, hs.updCore ..]
    split
    exacts [hs1.countKill .., hs1.updCtx .., hs1.kill .., hs1.kill ..]

/-! ## Commands -/

theorem State.Inv.fenceStep (c n : Nat) : ∀ (l : List FenceWait) {s : State}, s.Inv → (s.fenceStep c n l).1.Inv
  | [], s, hs => by
    unfold State.fenceStep
    exact hs
  | f :: fs, s, hs => by
    unfold State.fenceStep
    split
    · exact hs
    · extract_lets cmds r
      have hr : r.1.Inv := by
        unfold r
        split
        · exact hs
        · split
          · next heq =>
            exact State.Inv.of_fst (by
              split
              exacts [hs.startRelease .., hs.pushRelease ..]) heq
      clear_value r
      split
      · split
        · split
          · exact (hr.acquireBy ..).fenceStep ..
          · split
            · next heq => exact (hr.fenceStep ..).of_fst heq
        · split
          · exact (hr.acquireBy ..).fenceStep ..
          · split
            · next heq => exact (hr.fenceStep ..).of_fst heq

theorem State.Inv.tryFences {s : State} (hs : s.Inv) (c : Nat) : (s.tryFences c).Inv := by
  unfold State.tryFences
  refine hs.forEach fun t x ht => ?_
  split
  · exact ht
  · split
    · exact ht
    · split
      · next heq =>
        have ht1 := (ht.fenceStep ..).of_fst heq
        exact State.inv_ite ((ht1.updCtx ..).wakeCore ..) (ht1.updCtx ..)

theorem State.Inv.lookBarriers {s : State} (hs : s.Inv) (c : Nat) : (s.lookBarriers c).Inv := by
  unfold State.lookBarriers
  split
  · exact hs
  · split
    exacts [hs.postOnce .., hs]

theorem State.Inv.afterCommand {s : State} (hs : s.Inv) (c : Nat) : (s.afterCommand c).Inv := ((hs.tryFences ..).wakeCore ..).lookBarriers ..

/-! ## Fetch -/

theorem State.Inv.fetchWords (c : Nat) : ∀ (fuel : Nat) (n : Nat) (a : VAddr) {s : State}, s.Inv → (s.fetchWords c fuel n a).1.Inv
  | 0, _, _, s, hs => by
    unfold State.fetchWords
    exact hs
  | fuel + 1, n, a, s, hs => by
    unfold State.fetchWords
    split
    · exact hs
    · split
      · next heq => exact (hs.translate ..).of_fst heq
      · next heq =>
        have ht1 := (hs.translate ..).of_fst heq
        extract_lets
        split
        · next heq1 =>
          have ht2 := (State.inv_homeWords _ _ _ _ ht1).of_fst heq1
          split
          · next heq2 => exact (ht2.fetchWords ..).of_fst heq2
          · next heq2 => exact (ht2.fetchWords ..).of_fst heq2

theorem State.Inv.freshBundle {s : State} (hs : s.Inv) (c : Nat) (pc : VAddr) : (s.freshBundle c pc).1.Inv := by
  unfold State.freshBundle
  split
  · next heq => exact (hs.translate ..).of_fst heq
  · next heq =>
    have ht1 := (hs.translate ..).of_fst heq
    split
    · next heq1 =>
      have ht2 := (State.inv_homeWords _ _ _ _ ht1).of_fst heq1
      extract_lets
      split
      · next heq2 => exact (ht2.fetchWords ..).of_fst heq2
      · next heq2 => exact (ht2.fetchWords ..).of_fst heq2

theorem State.Inv.fetchBundle {s : State} (hs : s.Inv) (c : Nat) (pc : VAddr) : (s.fetchBundle c pc).1.Inv := by
  unfold State.fetchBundle
  split
  · next heq => exact (hs.freshBundle ..).of_fst heq
  · next heq =>
    have ht1 := (hs.freshBundle ..).of_fst heq
    split
    · exact ht1.updCore ..
    · split
      · exact ht1
      · extract_lets s1
        have hs1 : s1.Inv := ht1
        split
        exacts [hs1, hs1.updCore ..]

theorem State.Inv.nextBundle {s : State} (hs : s.Inv) (c : Nat) (x : Ctx) : (s.nextBundle c x).1.Inv := by
  unfold State.nextBundle
  split
  exacts [hs, hs.fetchBundle ..]

/-! ## Checks on a whole bundle -/

theorem State.Inv.begin {s : State} (hs : s.Inv) (c n : Nat) (x : Ctx) (b : Raw) : (s.begin c n x b).Inv := (hs.sameMem (by rfl)).updCtx ..

/-! ## After a bundle -/

theorem State.Inv.trapAfter {s : State} (hs : s.Inv) (c n : Nat) (info : Word64) : (s.trapAfter c n info).Inv := by
  unfold State.trapAfter
  split
  · exact hs
  · split
    exacts [(hs.updCtx ..).updCore .., hs.updCtx ..]

theorem State.Inv.finish {s : State} (hs : s.Inv) (c n : Nat) : (s.finish c n).Inv := by
  unfold State.finish
  extract_lets fresh next s1
  have hs1 : s1.Inv := (hs.updCtx ..).updCore ..
  split
  · exact hs
  · exact hs
  · exact hs.updCtx ..
  · exact (hs.updCtx ..).switchOut ..
  · exact (hs.updCtx ..).updCore ..
  · split
    exacts [hs1.startTimer .., hs1]
  · exact (hs.updCtx ..).updCore ..
  · exact ((hs.updCtx ..).updCore ..).trapAfter ..

/-! ## Issue among the contexts of a core -/

theorem State.Inv.resumeTimer {s : State} (hs : s.Inv) (c n : Nat) : (s.resumeTimer c n).Inv := by
  unfold State.resumeTimer
  split
  · split
    exacts [hs, State.inv_ite (hs.updCtx ..) ((hs.updCtx ..).postOnce ..)]
  · exact hs

theorem State.Inv.selectCtx {s : State} (hs : s.Inv) (c : Nat) : (s.selectCtx c).Inv := by
  unfold State.selectCtx
  split
  exacts [hs, ((hs.resumeTimer ..).updCore ..).updCtx ..]

theorem State.Inv.yieldNow {s : State} (hs : s.Inv) (c n : Nat) : (s.yieldNow c n).Inv := (hs.switchOut ..).updCtx ..

/-! ## Control transfers and the other instructions of the C slot -/

theorem inv_transfer {s : State} (hs : s.Inv) {g : Guard} {always : Bool} {f : Ctx → Try State} (hf : ∀ x, (f x).Inv State.Inv) :
    Canonical (transfer s g always f) := by
  unfold transfer
  refine inv_slotOp fun _ _ _ => Try.Inv.finish ?_
  split
  · exact hs
  · split
    exacts [hs, hf ..]

theorem inv_openWindow {s : State} (hs : s.Inv) (tkn : Bool) (tgt : VAddr) (call : Bool) : (openWindow s tkn tgt call).Inv State.Inv :=
  ⟨hs.updIssuer .., hs.updIssuer ..⟩

theorem inv_openTo {s : State} (hs : s.Inv) (v : RV) : (openTo s v).Inv State.Inv := by
  unfold openTo
  split
  · exact hs
  · split
    exacts [hs, inv_openWindow hs ..]

theorem inv_jumpOp {w : Nat} {s : State} (hs : s.Inv) (g : Guard) (disp : BitVec w) (call : Bool) : Canonical (jumpOp s g disp call) :=
  inv_transfer hs fun _ => inv_openWindow hs ..

theorem inv_brcOp {w : Nat} {s : State} (hs : s.Inv) (g : Guard) (a : CReg) (cc : Cond) (disp : BitVec w) : Canonical (brcOp s g a cc disp) := by
  unfold brcOp
  refine inv_transfer hs fun x => ?_
  extract_lets
  split
  exacts [hs, inv_openWindow hs ..]

theorem inv_execMwb (o : OpMwb) {s : State} (hs : s.Inv) : Canonical (execMwb o s) := by
  unfold execMwb
  refine inv_transfer hs fun x => ?_
  extract_lets
  split
  · exact hs
  · split
    exacts [inv_openTo hs .., inv_openWindow hs ..]

theorem inv_execRet (o : OpN) {s : State} (hs : s.Inv) : Canonical (execRet o s) := by
  unfold execRet
  refine inv_transfer hs fun x => ?_
  split
  exacts [inv_openTo hs .., inv_openWindow hs ..]

theorem inv_execLoop (o : OpLoop) {s : State} (hs : s.Inv) : Canonical (execLoop o s) := by
  unfold execLoop
  refine inv_slotOp fun _ _ _ => Try.Inv.finish ?_
  split
  · exact hs
  · split
    · extract_lets v n1 start level beyond s1
      have hs1 : s1.Inv := hs.updIssuer ..
      split
      · exact hs
      · split
        exacts [hs, ⟨hs1, hs1⟩]
    · exact ⟨hs, hs⟩

theorem State.Inv.resumeTold {s : State} (hs : s.Inv) (c n : Nat) : (s.resumeTold c n).Inv := by
  unfold State.resumeTold
  split
  exacts [hs, (hs.updCtx ..).resumeFault ..]

theorem inv_execEret (o : OpN) {s : State} (hs : s.Inv) : Canonical (execEret o s) := by
  unfold execEret
  refine inv_slotOp fun _ _ _ => Try.Inv.finish ?_
  split
  · exact hs
  · split
    · split
      · exact hs
      · split
        exacts [hs, ⟨((hs.sameMem (by rfl)).updIssuer ..).resumeTold .., ((hs.sameMem (by rfl)).updIssuer ..).resumeTold ..⟩]
    · exact ⟨hs, hs⟩

theorem inv_trapOp {s : State} (hs : s.Inv) (g : Guard) (info : Word64) : Canonical (trapOp s g info) :=
  inv_slotOp fun _ _ _ => State.inv_ite (hs.sameMem (by rfl)) hs

theorem inv_execYield (o : OpN) {s : State} (hs : s.Inv) : Canonical (execYield o s) := inv_slotOp fun _ _ _ => State.inv_ite (hs.sameMem (by rfl)) hs

theorem State.Inv.switchAfter {s : State} (hs : s.Inv) : (s.switchAfter).Inv := hs.updCore ..

theorem inv_execRetire (o : OpN) {s : State} (hs : s.Inv) : Canonical (execRetire o s) :=
  inv_slotOp fun _ _ _ => State.inv_ite (((hs.sameMem (by rfl)).updIssuer ..).switchAfter.post ..) hs

theorem inv_execHalt (o : OpN) {s : State} (hs : s.Inv) : Canonical (execHalt o s) :=
  inv_slotOp fun _ _ _ => State.inv_ite (State.inv_ite (((hs.sameMem (by rfl)).updIssuer ..).startTimer ..) (((hs.sameMem (by rfl)).landLate ..).kill ..).switchAfter) hs

theorem inv_execFetchFault {s : State} (hs : s.Inv) : Canonical (execFetchFault s) := by
  unfold execFetchFault
  split
  · split
    · exact hs
    · split
      · next heq => exact (((hs.nextBundle ..).of_fst heq).begin ..).trap ..
      · exact hs
  · exact hs

theorem inv_execBundleWithPmZero {s : State} (hs : s.Inv) : Canonical (execBundleWithPmZero s) := by
  unfold execBundleWithPmZero
  split
  · split
    · exact hs
    · split
      · exact hs
      · next heq =>
        have ht1 := (hs.nextBundle ..).of_fst heq
        exact State.inv_ite ((ht1.begin ..).finish ..) (State.inv_ite ((ht1.begin ..).stall.finish ..) ht1)
  · exact hs

theorem inv_execIssueCounterYield {s : State} (hs : s.Inv) : Canonical (execIssueCounterYield s) := by
  unfold execIssueCounterYield
  split
  · split
    exacts [hs, State.inv_ite (hs.yieldNow ..) hs]
  · exact hs

end Sys2Proof.Machine
end

section
/-! SUPPORT. The canonical form of memory through streams, the grid and the matrix engine (06, 07, 17). -/

namespace Sys2Proof.Machine

/-! ## Reading an element -/

theorem State.Inv.readElem {s : State} (hs : s.Inv) (c : Nat) (d : Desc) (a : Int) (sub : Nat) : (s.readElem c d a sub).1.Inv := by
  unfold State.readElem
  split
  · exact hs
  · extract_lets bits r
    have hr : r.1.Inv := by
      unfold r
      split
      exacts [hs.readVia .., hs.readBytes ..]
    clear_value r
    split
    exacts [hr, hr]

theorem State.Inv.takeIdx {s : State} (hs : s.Inv) (c q : Nat) (d : Desc) (t : Strm) (i : Nat) : (s.takeIdx c q d t i).1.Inv := by
  unfold State.takeIdx
  split
  · exact hs
  · extract_lets
    split
    · exact hs
    · split
      · exact hs
      · split
        · exact hs
        · split
          · exact hs
          · extract_lets
            split
            · next heq =>
              have ht1 := (hs.readElem ..).of_fst heq
              split
              exacts [ht1, ht1.updStrm ..]
            · next heq => exact (hs.readElem ..).of_fst heq
            · next heq => exact (hs.readElem ..).of_fst heq
            · next heq => exact (hs.readElem ..).of_fst heq

theorem State.Inv.takeScale {s : State} (hs : s.Inv) (c q : Nat) (d : Desc) (t : Strm) (i : Nat) : (s.takeScale c q d t i).1.Inv := by
  unfold State.takeScale
  extract_lets
  split
  · exact hs
  · split
    · exact hs
    · split
      · next heq => exact ((hs.readVia ..).of_fst heq).updStrm ..
      · next heq => exact (hs.readVia ..).of_fst heq
      · next heq => exact (hs.readVia ..).of_fst heq
      · next heq => exact (hs.readVia ..).of_fst heq

theorem State.Inv.fetchElem {s : State} (hs : s.Inv) (c q : Nat) (d : Desc) (t : Strm) (i : Nat) : (s.fetchElem c q d t i).1.Inv := by
  unfold State.fetchElem
  split
  · exact hs
  · split
    · next heq =>
      have ht1 := (hs.takeIdx ..).of_fst heq
      split
      · next heq1 =>
        have ht2 := (ht1.takeScale ..).of_fst heq1
        extract_lets
        split
        · next heq2 => exact (ht2.readElem ..).of_fst heq2
        · next heq2 => exact (ht2.readElem ..).of_fst heq2
        · next heq2 => exact (ht2.readElem ..).of_fst heq2
        · next heq2 => exact (ht2.readElem ..).of_fst heq2
      · next heq1 => exact (ht1.takeScale ..).of_fst heq1
      · next heq1 => exact (ht1.takeScale ..).of_fst heq1
      · next heq1 => exact (ht1.takeScale ..).of_fst heq1
    · next heq => exact (hs.takeIdx ..).of_fst heq
    · next heq => exact (hs.takeIdx ..).of_fst heq
    · next heq => exact (hs.takeIdx ..).of_fst heq

/-! ## Buffers (07 R170) -/

theorem State.Inv.afterTake {s : State} (hs : s.Inv) (c : Nat) : (s.afterTake c).Inv := by
  unfold State.afterTake
  split
  · exact hs
  · refine hs.forEach fun t x ht => ?_
    split
    · exact ht
    · split
      · split
        · exact ht.postOnce ..
        · split
          exacts [ht, ht.postOnce ..]
      · split
        · exact ht.postOnce ..
        · split
          exacts [ht.postOnce .., ht]

/-! ## Delivery -/

theorem State.Inv.pump (c q : Nat) : ∀ (n : Nat) {s : State}, s.Inv → (s.pump c q n).1.Inv
  | 0, s, hs => by
    unfold State.pump
    exact hs
  | n + 1, s, hs => by
    unfold State.pump
    split
    · exact hs
    · split
      · split
        · exact hs
        · split
          · exact hs
          · extract_lets bits put
            have hput : ∀ (s : State) (e : Elem), s.Inv → (put s e).Inv := fun _ _ ht => ht.updStrm ..
            split
            · exact hs
            · split
              · exact hs.updStrm ..
              · split
                · exact (hput _ _ hs).pump ..
                · split
                  · next heq => exact (hput _ _ ((hs.fetchElem ..).of_fst heq)).pump ..
                  · next heq => exact (hs.fetchElem ..).of_fst heq
                  · exact hs.postOnce ..
                  · next heq => exact ((((hs.fetchElem ..).of_fst heq).updSreg ..).poisonLater ..).postOnce ..
      · exact hs

theorem State.Inv.deliver {s : State} (hs : s.Inv) (c q : Nat) : (s.deliver c q).Inv := by
  unfold State.deliver
  split
  · exact hs
  · split
    · split
      · exact hs
      · split
        · exact (hs.updStrm ..).postOnce ..
        · split
          · next heq =>
            have ht1 := (hs.pump ..).of_fst heq
            split
            exacts [ht1, ht1.postOnce ..]
          · next heq => exact (hs.pump ..).of_fst heq
          · next heq => exact (hs.pump ..).of_fst heq
    · exact hs

/-! ## Performing -/

theorem State.Inv.writeBits {s : State} (hs : s.Inv) (c ctx : Nat) (home : Bool) (va sub n val : Nat) (psn : Bool) :
    (s.writeBits c ctx home va sub n val psn).1.Inv := by
  unfold State.writeBits
  extract_lets
  split
  · exact hs.writeBytes ..
  · split
    · next heq => exact ((hs.readBytes ..).of_fst heq).writeBytes ..
    · next heq => exact (hs.readBytes ..).of_fst heq
    · next heq => exact (hs.readBytes ..).of_fst heq
    · next heq => exact (hs.readBytes ..).of_fst heq

theorem State.Inv.writeElems (c ctx : Nat) (d : Desc) (v : Int) (i k : Nat) :
    ∀ (l : List (Nat × Bool)) {s : State}, s.Inv → (s.writeElems c ctx d v i k l).Inv
  | [], s, hs => by
    unfold State.writeElems
    exact ⟨hs, hs⟩
  | (code, p) :: l, s, hs => by
    unfold State.writeElems
    extract_lets
    split
    · exact ⟨hs, hs⟩
    · split
      · next heq => exact ((State.inv_ite_fst (hs.writeVia ..) (hs.writeBits ..)).of_fst heq).writeElems ..
      · next heq =>
        have ht1 := (State.inv_ite_fst (hs.writeVia ..) (hs.writeBits ..)).of_fst heq
        exact ⟨hs, ht1⟩

theorem State.Inv.writeCodes {s : State} (hs : s.Inv) (c ctx : Nat) (d : Desc) (v : Int) (i : Nat) (l : List (Nat × Bool)) :
    (s.writeCodes c ctx d v i l).Inv := by
  unfold State.writeCodes
  extract_lets
  split
  · exact hs.writeElems ..
  · split
    · next heq =>
      have ht1 := (hs.writeBits ..).of_fst heq
      exact ⟨ht1, ht1⟩
    · next heq =>
      have ht1 := (hs.writeBits ..).of_fst heq
      exact ⟨hs, ht1⟩
    · exact hs.writeElems ..

theorem State.Inv.blockByte {s : State} (hs : s.Inv) (c q : Nat) (d : Desc) (t : Strm) (i : Nat) (es : List Elem) :
    (s.blockByte c q d t i es).1.Inv := by
  unfold State.blockByte
  extract_lets ws put
  have hput : ∀ (s : State) (b : Nat), s.Inv → (put s b).1.Inv := by
    intro t1 x1 ht
    unfold put
    split
    · next heq => exact ((ht.writeVia ..).of_fst heq).updStrm ..
    · next heq => exact (ht.writeVia ..).of_fst heq
    · next heq => exact (ht.writeVia ..).of_fst heq
    · next heq => exact (ht.writeVia ..).of_fst heq
  split
  · exact hput _ _ hs
  · split
    · exact hs
    · split
      · next heq =>
        have ht1 := (hs.readVia ..).of_fst heq
        extract_lets
        split
        exacts [hput _ _ ht1, ht1.updStrm ..]
      · next heq => exact (hs.readVia ..).of_fst heq
      · next heq => exact (hs.readVia ..).of_fst heq
      · next heq => exact (hs.readVia ..).of_fst heq

theorem State.Inv.performGroup {s : State} (hs : s.Inv) (c q : Nat) (d : Desc) (t : Strm) (i : Nat) (es : List Elem) :
    (s.performGroup c q d t i es).Inv := by
  unfold State.performGroup
  split
  · exact ⟨hs, hs⟩
  · split
    · next heq =>
      have ht1 := (hs.takeIdx ..).of_fst heq
      extract_lets
      split
      · split
        · next heq1 => exact ((ht1.blockByte ..).of_fst heq1).writeCodes ..
        · next heq1 =>
          have ht2 := (ht1.blockByte ..).of_fst heq1
          exact ⟨hs, ht2⟩
        · next heq1 =>
          have ht2 := (ht1.blockByte ..).of_fst heq1
          exact ⟨hs, ht2⟩
        · next heq1 =>
          have ht2 := (ht1.blockByte ..).of_fst heq1
          exact ⟨hs, ht2⟩
      · exact ht1.writeCodes ..
    · next heq =>
      have ht1 := (hs.takeIdx ..).of_fst heq
      exact ⟨hs, ht1⟩
    · next heq =>
      have ht1 := (hs.takeIdx ..).of_fst heq
      exact ⟨hs, ht1⟩
    · next heq =>
      have ht1 := (hs.takeIdx ..).of_fst heq
      exact ⟨hs, ht1⟩

theorem State.Inv.performStore (c q : Nat) : ∀ (n : Nat) {s : State}, s.Inv → (s.performStore c q n).1.Inv
  | 0, s, hs => by
    unfold State.performStore
    exact hs
  | n + 1, s, hs => by
    unfold State.performStore
    split
    · exact hs
    · split
      · split
        · exact hs
        · extract_lets es p took
          have hp : p.Inv := hs.performGroup ..
          have htook : ∀ (s : State), s.Inv → (took s).Inv := fun _ ht => ht.updStrm ..
          split
          · exact hs
          · split
            · exact (htook _ hp.1).performStore ..
            · exact htook _ hp.2
            · exact (htook _ hp.1).postOnce ..
            · exact (((htook _ hp.1).updSreg ..).poisonLater ..).postOnce ..
      · exact hs

theorem State.Inv.streamFaultNow {s : State} (hs : s.Inv) (c q : Nat) : (s.streamFaultNow c q).Inv := by
  unfold State.streamFaultNow
  split
  · exact hs
  · split
    · split
      · exact hs
      · split
        · extract_lets p
          have hp : p.Inv := hs.performGroup ..
          split
          exacts [hp.2.faultStream .., hs.postOnce .., hp.2, hs.postOnce ..]
        · split
          · next heq => exact ((hs.fetchElem ..).of_fst heq).faultStream ..
          · next heq => exact (hs.fetchElem ..).of_fst heq
          · exact hs.postOnce ..
    · exact hs

theorem State.Inv.retireStream {s : State} (hs : s.Inv) (c q : Nat) : (s.retireStream c q).Inv := by
  unfold State.retireStream
  split
  · exact hs
  · extract_lets alone s1 through named free s2
    have hs1 : s1.Inv := by
      unfold s1
      split
      · exact hs.updStrm ..
      · split
        exacts [hs.updStrm .., hs]
    have hs2 : s2.Inv := hs1.updSreg ..
    split
    exacts [hs1, (hs2.post1 ..).afterCommand ..]

/-! ## Runs of a core's grid (07 R160 to R162) -/

theorem State.Inv.gridEnd {s : State} (hs : s.Inv) (c : Nat) (r : GRun) (held : Bool) : (s.gridEnd c r held).Inv :=
  ((((hs.updCore ..).post1 ..).foldl fun _ _ ht => ht.post1 ..).afterCommand ..).afterTake ..

theorem State.Inv.gridTick {s : State} (hs : s.Inv) (c : Nat) : (s.gridTick c).Inv := by
  unfold State.gridTick
  split
  · exact hs
  · split
    · exact hs
    · extract_lets ii total through src next
      split
      · exact hs.gridEnd ..
      · split
        · exact hs.gridEnd ..
        · clear_value next
          split
          · exact hs
          · split
            · exact hs
            · extract_lets r src1 k s1
              have hs1 : s1.Inv := (hs.setCore ..).afterTake ..
              split
              · exact hs1.postOnce ..
              · split
                exacts [hs1.gridEnd .., hs1]

theorem inv_execGrunCompletion {s : State} (hs : s.Inv) : Canonical (execGrunCompletion s) := by
  unfold execGrunCompletion
  split
  exacts [hs.gridTick .., hs]

theorem inv_execGstopBoundary {s : State} (hs : s.Inv) : Canonical (execGstopBoundary s) := by
  unfold execGstopBoundary
  split
  · split
    · exact hs
    · split
      exacts [hs.gridEnd .., hs]
  · exact hs

theorem State.Inv.gridStop {s : State} (hs : s.Inv) (c n : Nat) (w : Sync) : (s.gridStop c n w).Inv := by
  unfold State.gridStop
  split
  exacts [hs.post1 .., (hs.updCore ..).postOnce ..]

/-! ## The loader (07 R159) -/

theorem State.Inv.gridLoaded {s : State} (hs : s.Inv) (c : Nat) (l : GLoad) (g : Grid) : (s.gridLoaded c l g).Inv :=
  ((hs.updCore ..).post1 ..).afterCommand ..

theorem State.Inv.gridRead (c : Nat) (l : GLoad) : ∀ (n : Nat) {s : State}, s.Inv → (s.gridRead c l n).1.Inv
  | 0, s, hs => by
    unfold State.gridRead
    exact hs
  | n + 1, s, hs => by
    unfold State.gridRead
    split
    · exact hs
    · split
      · next heq => exact (((hs.readWords ..).of_fst heq).updCore ..).gridRead ..
      · next heq => exact (hs.readWords ..).of_fst heq
      · next heq => exact (hs.readWords ..).of_fst heq
      · next heq => exact (hs.readWords ..).of_fst heq

theorem inv_execGcfgLoadEnd {s : State} (hs : s.Inv) : Canonical (execGcfgLoadEnd s) := by
  unfold execGcfgLoadEnd
  split
  · split
    · exact hs
    · split
      · exact hs
      · split
        · exact hs.gridLoaded ..
        · split
          · next heq =>
            have ht1 := (hs.gridRead ..).of_fst heq
            split
            exacts [ht1, ht1.gridLoaded ..]
          · next heq =>
            have ht1 := (hs.gridRead ..).of_fst heq
            extract_lets s1
            have hs1 : s1.Inv := ht1.reportFault ..
            split
            · split
              exacts [hs1, hs1.gridLoaded ..]
            · exact hs1.updCore ..
          · next heq => exact (hs.gridRead ..).of_fst heq
          · next heq => exact (hs.gridRead ..).of_fst heq
  · exact hs

/-! ## Starts (06 R125 to R127) -/

theorem State.Inv.mxStart {s : State} (hs : s.Inv) (c : Nat) (o : MOp) : (s.mxStart c o).Inv := by
  unfold State.mxStart
  extract_lets o1 s1 s2 s3
  have hs1 : s1.Inv := hs.updCore ..
  have hs2 : s2.Inv := by
    unfold s2
    split
    exacts [hs1, hs1]
  have hs3 : s3.Inv := by
    unfold s3
    split
    · exact (hs2.post ..).postOnce ..
    · exact hs2.postOnce ..
    · exact hs2.postOnce ..
    · exact hs2.postOnce ..
    · exact hs2
    · exact hs2
    · exact hs2
    · exact hs2
    · exact hs2
    · exact hs2
    · exact hs2
    · exact hs2
  exact hs3

theorem State.Inv.mxStartAll (c : Nat) : ∀ (l : List MOp) (held : Bool) {s : State}, s.Inv → (s.mxStartAll c l held).Inv
  | [], _, s, hs => by
    unfold State.mxStartAll
    exact hs
  | o :: os, held, s, hs => by
    unfold State.mxStartAll
    split
    · exact hs
    · split
      exacts [(hs.mxStart ..).mxStartAll .., hs.mxStartAll ..]

theorem State.Inv.mxSettle {s : State} (hs : s.Inv) (c : Nat) : (s.mxSettle c).Inv := by
  unfold State.mxSettle
  split
  · exact hs
  · split
    · exact hs
    · extract_lets k' s1
      have hs1 : s1.Inv := (hs.setCore ..).afterTake ..
      exact hs1.foldl fun _ _ ht => State.inv_ite ht (State.inv_ite (ht.postOnce ..) (State.inv_ite (ht.postOnce ..) ht))

theorem inv_execMatrixQueueStart {s : State} (hs : s.Inv) : Canonical (execMatrixQueueStart s) := by
  unfold execMatrixQueueStart
  split
  · extract_lets s1
    have hs1 : s1.Inv := hs.mxSettle ..
    split
    · exact hs1
    · split
      · exact hs1.postOnce ..
      · extract_lets s2
        have hs2 : s2.Inv := hs1.mxStartAll ..
        split
        · exact hs2
        · extract_lets s3
          have hs3 : s3.Inv := by
            unfold s3
            split
            exacts [hs2, hs2.foldl fun _ _ ht => State.inv_ite (ht.postOnce ..) ht]
          split
          exacts [hs3.postOnce .., hs3]
  · exact hs

/-! ## Completions -/

theorem State.Inv.mxFinal {s : State} (hs : s.Inv) (c : Nat) (o : MOp) : (s.mxFinal c o).Inv := by
  unfold State.mxFinal
  split
  exacts [hs.updCore .., hs.updCore .., hs.updCtx .., hs, hs, hs, hs, hs, hs, hs, hs, hs]

theorem State.Inv.mxComplete {s : State} (hs : s.Inv) (c id : Nat) : (s.mxComplete c id).Inv := by
  unfold State.mxComplete
  extract_lets s1
  have hs1 : s1.Inv := hs.mxSettle ..
  split
  · exact hs1
  · split
    · exact hs1
    · split
      · exact ((((hs1.mxFinal ..).updCore ..).post1 ..).postOnce ..).afterCommand ..
      · split
        exacts [hs1.postOnce .., hs1]

theorem State.Inv.mxMismatch {s : State} (hs : s.Inv) (c id : Nat) (bad : Option (List Nat)) : (s.mxMismatch c id bad).Inv := by
  unfold State.mxMismatch
  extract_lets s1
  have hs1 : s1.Inv := hs.mxSettle ..
  split
  · exact hs1
  · split
    · exact hs1
    · split
      · exact hs1
      · extract_lets late err src k s2
        have hs2 : s2.Inv := (hs1.setCore ..).postOnce ..
        split
        exacts [hs2, (hs2.updCore ..).updCtx ..]

theorem State.Inv.mxChecked {s : State} (hs : s.Inv) (c id : Nat) (chk : ResidueCheck) : (s.mxChecked c id chk).Inv := by
  unfold State.mxChecked
  split
  exacts [hs.mxComplete .., hs.mxMismatch .., hs.mxMismatch ..]

theorem inv_execMmaCompletion {s : State} (hs : s.Inv) : Canonical (execMmaCompletion s) := by
  unfold execMmaCompletion
  split
  exacts [hs.mxChecked .., hs]

theorem inv_execMbldCompletion {s : State} (hs : s.Inv) : Canonical (execMbldCompletion s) := by
  unfold execMbldCompletion
  split
  exacts [hs.mxComplete .., hs]

theorem inv_execMzstCompletion {s : State} (hs : s.Inv) : Canonical (execMzstCompletion s) := by
  unfold execMzstCompletion
  split
  exacts [hs.mxComplete .., hs]

theorem inv_execMzldCompletion {s : State} (hs : s.Inv) : Canonical (execMzldCompletion s) := by
  unfold execMzldCompletion
  split
  exacts [hs.mxComplete .., hs]

theorem inv_execMtrnCompletion {s : State} (hs : s.Inv) : Canonical (execMtrnCompletion s) := by
  unfold execMtrnCompletion
  split
  exacts [hs.mxChecked .., hs]

theorem inv_execMbflyCompletion {s : State} (hs : s.Inv) : Canonical (execMbflyCompletion s) := by
  unfold execMbflyCompletion
  split
  exacts [hs.mxChecked .., hs]

theorem inv_execMtwidCompletion {s : State} (hs : s.Inv) : Canonical (execMtwidCompletion s) := by
  unfold execMtwidCompletion
  split
  exacts [hs.mxComplete .., hs]

theorem inv_execMfmtCompletion {s : State} (hs : s.Inv) : Canonical (execMfmtCompletion s) := by
  unfold execMfmtCompletion
  split
  exacts [hs.mxComplete .., hs]

theorem inv_execMdrainStart {s : State} (hs : s.Inv) : Canonical (execMdrainStart s) := by
  unfold execMdrainStart
  split
  exacts [hs.mxComplete .., hs]

theorem inv_execMzrdCompletion {s : State} (hs : s.Inv) : Canonical (execMzrdCompletion s) := by
  unfold execMzrdCompletion
  split
  exacts [hs.mxComplete .., hs]

theorem inv_execMzwrCompletion {s : State} (hs : s.Inv) : Canonical (execMzwrCompletion s) := by
  unfold execMzwrCompletion
  split
  exacts [hs.mxComplete .., hs]

theorem inv_execMzeroCompletion {s : State} (hs : s.Inv) : Canonical (execMzeroCompletion s) := by
  unfold execMzeroCompletion
  split
  exacts [hs.mxComplete .., hs]

theorem inv_execMcfgClear {s : State} (hs : s.Inv) : Canonical (execMcfgClear s) := by
  unfold execMcfgClear
  split
  · extract_lets s1
    have hs1 : s1.Inv := hs.mxSettle ..
    split
    · exact hs1
    · split
      · split
        exacts [((hs1.updCore ..).updCtx ..).retryRetire .., hs1]
      · exact hs1
  · exact hs

/-! ## The M-slot instructions (17 R417) -/

theorem inv_mxIllegal {s : State} (hs : s.Inv) (op : Nat) : (mxIllegal s op).Inv State.Inv := hs

theorem State.Inv.mxIssue {s : State} (hs : s.Inv) (k : Core) (n : Nat) (x : Ctx) (i : Instr) (w : Sync) (port : Bool) (kind : MKind) :
    (s.mxIssue k n x i w port kind).Inv State.Inv := by
  unfold State.mxIssue
  refine (hs.syncWait ..).bind fun t t1 ht ht1 => ?_
  split
  · exact ht.stall
  · extract_lets id o s1 s2
    have hs1 : s1.Inv := ht.updCore ..
    have hs2 : s2.Inv := by
      unfold s2
      split
      · split
        exacts [hs1, hs1]
      · exact hs1.postOnce ..
    exact ⟨hs2, hs2⟩

theorem inv_mxSlot {s : State} (hs : s.Inv) {g : Guard} {op : Nat} {bad : Bool} {f : State → Core → Nat → Ctx → Try State}
    (hf : ∀ t k n x, t.Inv → (f t k n x).Inv State.Inv) : Canonical (mxSlot s g op bad f) := by
  unfold mxSlot
  refine inv_guardedM hs fun k n x => ?_
  extract_lets s1
  have hs1 : s1.Inv := hs.mxSettle ..
  split
  · exact ⟨hs1, hs1⟩
  · split
    · exact inv_mxIllegal hs1 ..
    · split
      exacts [hs1, hf _ _ _ _ hs1]

theorem State.Inv.mxStream {s : State} (hs : s.Inv) (k : Core) (n q op : Nat) (fmt : Option (EType × Bool)) :
    (s.mxStream k n q op fmt).Inv State.Inv := by
  unfold State.mxStream
  refine (hs.ownedReg ..).bind fun t t1 ht ht1 => ?_
  extract_lets
  split
  · exact ht.stall
  · split
    · exact inv_mxIllegal ht ..
    · split
      · split
        exacts [⟨ht, ht⟩, inv_mxIllegal ht ..]
      · exact inv_mxIllegal ht ..
      · exact ⟨ht, ht⟩

theorem inv_mmaOp {s : State} (hs : s.Inv) (o : OpMma) (w : Sync) (zero : Bool) : Canonical (mmaOp s o w zero) := by
  unfold mmaOp
  exact inv_mxSlot hs fun _ _ _ _ ht => (ht.mxStream ..).bind fun _ _ ht1 ht2 => ht1.mxIssue ..

theorem inv_mbldOp {s : State} (hs : s.Inv) (o : OpMbld) (w : Sync) : Canonical (mbldOp s o w) :=
  inv_mxSlot hs fun _ _ _ _ ht => (ht.mxStream ..).bind fun _ _ ht1 _ => ht1.mxIssue ..

theorem inv_mtileOp {s : State} (hs : s.Inv) (o : OpMtile) (w : Sync) (store : Bool) : Canonical (mtileOp s o w store) := by
  unfold mtileOp
  exact inv_mxSlot hs fun _ _ _ _ ht => (ht.mxStream ..).bind fun _ _ ht1 ht2 => ht1.mxIssue ..

theorem inv_mtrnOp {s : State} (hs : s.Inv) (o : OpMtrn) (w : Sync) : Canonical (mtrnOp s o w) := inv_mxSlot hs fun _ _ _ _ ht => ht.mxIssue ..

theorem inv_mbflyOp {s : State} (hs : s.Inv) (o : OpMbfly) (w : Sync) : Canonical (mbflyOp s o w) := by
  unfold mbflyOp
  refine inv_mxSlot hs fun t k n x ht => ?_
  split
  · exact inv_mxIllegal ht ..
  · split
    · exact inv_mxIllegal ht ..
    · split
      · exact inv_mxIllegal ht ..
      · split
        exacts [inv_mxIllegal ht .., ht.mxIssue ..]

theorem inv_mtwidOp {s : State} (hs : s.Inv) (o : OpMtwid) (w : Sync) : Canonical (mtwidOp s o w) := by
  unfold mtwidOp
  refine inv_mxSlot hs fun t k n x ht => ?_
  split
  exacts [inv_mxIllegal ht .., ht.mxIssue ..]

theorem inv_mfmtOp {s : State} (hs : s.Inv) (o : OpMfmt) (w : Sync) : Canonical (mfmtOp s o w) := by
  unfold mfmtOp
  refine inv_mxSlot hs fun t k n x ht => ?_
  split
  · exact inv_mxIllegal ht ..
  · split
    exacts [ht, ht.mxIssue ..]

theorem inv_mdrainOp {s : State} (hs : s.Inv) (o : OpN) (w : Sync) : Canonical (mdrainOp s o w) := inv_mxSlot hs fun _ _ _ _ ht => ht.mxIssue ..

theorem inv_mzrdOp {s : State} (hs : s.Inv) (o : OpMrow) (w : Sync) : Canonical (mzrdOp s o w) := inv_mxSlot hs fun _ _ _ _ ht => ht.mxIssue ..

theorem inv_mzwrOp {s : State} (hs : s.Inv) (o : OpMrow) (w : Sync) : Canonical (mzwrOp s o w) := inv_mxSlot hs fun _ _ _ _ ht => ht.mxIssue ..

theorem inv_mzeroOp {s : State} (hs : s.Inv) (o : OpMzero) (w : Sync) : Canonical (mzeroOp s o w) := inv_mxSlot hs fun _ _ _ _ ht => ht.mxIssue ..

theorem inv_execMcfg (o : OpMcfg) {s : State} (hs : s.Inv) : Canonical (execMcfg o s) := by
  unfold execMcfg
  refine inv_mxSlot hs fun t k n x ht => ?_
  split
  exacts [inv_mxIllegal ht .., ⟨((ht.updCore ..).updCtx ..).postOnce .., ((ht.updCore ..).updCtx ..).postOnce ..⟩]

end Sys2Proof.Machine
end

section
/-! SUPPORT. The canonical form of memory through the Q slot and the special registers (07, 18, 04 R86 to R88). -/

namespace Sys2Proof.Machine

/-! ## Issue (18 R461) -/

theorem inv_qIllegal {s : State} (hs : s.Inv) (op : Nat) : (qIllegal s op).Inv State.Inv := hs

theorem State.Inv.qIssue {s : State} (hs : s.Inv) (k : Core) (n : Nat) (x : Ctx) (i : Instr) (w : Sync) (kind : QKind) {f : State → State}
    (hf : ∀ t, t.Inv → (f t).Inv) : (s.qIssue k n x i w kind f).Inv State.Inv := by
  unfold State.qIssue
  refine (hs.syncWait ..).bind fun t t1 ht ht1 => ?_
  split
  exacts [ht.stall, ⟨(hf _ (ht.updCore ..)).postOnce .., (hf _ (ht.updCore ..)).postOnce ..⟩]

theorem inv_qSlot {s : State} (hs : s.Inv) {g : Guard} {f : State → Core → Nat → Ctx → Try State}
    (hf : ∀ t k n x, t.Inv → (f t k n x).Inv State.Inv) : Canonical (qSlot s g f) := inv_guarded hs fun _ _ _ => hf _ _ _ _ hs

theorem inv_qsetOp {s : State} (hs : s.Inv) (o : OpQset) (w : Sync) : Canonical (qsetOp s o w) := by
  unfold qsetOp
  refine inv_qSlot hs fun t k n x ht => ?_
  extract_lets
  split
  · exact ht
  · split
    · exact inv_qIllegal ht ..
    · split
      exacts [ht, ht.qIssue _ _ _ _ _ _ fun _ ht1 => ht1.updSreg ..]

theorem inv_qstrmOp {s : State} (hs : s.Inv) (o : OpQstrm) (w : Sync) (op : Nat) (i : Instr) (store ix : Bool) :
    Canonical (qstrmOp s o w op i store ix) :=
  inv_qSlot hs fun _ _ _ _ ht => (ht.ownedReg ..).bind fun _ _ ht1 _ => ht1.qIssue _ _ _ _ _ _ fun _ ht3 => ht3

theorem inv_copyOp {s : State} (hs : s.Inv) (o : OpQcopy) {f : State → Core → Nat → Ctx → Word64 → Word64 → Word64 → Try State}
    (hf : ∀ t k n x a b c, t.Inv → (f t k n x a b c).Inv State.Inv) : Canonical (copyOp s o f) := by
  unfold copyOp
  refine inv_qSlot hs fun t k n x ht => ?_
  extract_lets
  split
  exacts [ht, hf _ _ _ _ _ _ _ ht]

theorem inv_qcopyOp {s : State} (hs : s.Inv) (o : OpQcopy) (w : Sync) : Canonical (qcopyOp s o w) := by
  unfold qcopyOp
  refine inv_copyOp hs _ fun t k n x a b c ht => ?_
  split
  exacts [inv_qIllegal ht .., ht.qIssue _ _ _ _ _ _ fun _ ht1 => ht1]

theorem inv_qccopyOp {s : State} (hs : s.Inv) (o : OpQcopy) (w : Sync) : Canonical (qccopyOp s o w) := by
  unfold qccopyOp
  refine inv_copyOp hs _ fun t k n x a b c ht => ?_
  extract_lets
  split
  · exact inv_qIllegal ht ..
  · split
    · exact ht
    · split
      exacts [ht, ht.qIssue _ _ _ _ _ _ fun _ ht1 => ht1]

theorem inv_qrcopyOp {s : State} (hs : s.Inv) (o : OpQcopy) (w : Sync) : Canonical (qrcopyOp s o w) := by
  unfold qrcopyOp
  refine inv_copyOp hs _ fun t k n x a b c ht => ?_
  split
  · exact inv_qIllegal ht ..
  · split
    exacts [ht, ht.qIssue _ _ _ _ _ _ fun _ ht1 => ht1]

theorem inv_gcfgOp {s : State} (hs : s.Inv) (o : OpGcfg) (w : Sync) : Canonical (gcfgOp s o w) := by
  unfold gcfgOp
  refine inv_qSlot hs fun t k n x ht => ?_
  extract_lets
  split
  exacts [ht, ht.qIssue _ _ _ _ _ _ fun _ ht1 => ht1]

theorem inv_grunOp {s : State} (hs : s.Inv) (o : OpGrun) (w : Sync) : Canonical (grunOp s o w) := by
  unfold grunOp
  refine inv_qSlot hs fun t k n x ht => ?_
  extract_lets
  split
  · exact ht
  · split
    · exact inv_qIllegal ht ..
    · split
      exacts [ht, ht.qIssue _ _ _ _ _ _ fun _ ht1 => ht1]

theorem inv_gstopOp {s : State} (hs : s.Inv) (o : OpN) (w : Sync) : Canonical (gstopOp s o w) :=
  inv_qSlot hs fun _ _ _ _ ht => (ht.syncWait ..).bind fun _ _ ht1 _ => ⟨ht1.gridStop .., ht1.gridStop ..⟩

theorem inv_stashOp {s : State} (hs : s.Inv) (o : OpStash) (w : Sync) (sub : Nat) (i : Instr) : Canonical (stashOp s o w sub i) := by
  unfold stashOp
  refine inv_qSlot hs fun t k n x ht => ?_
  extract_lets
  split
  · exact ht
  · split
    exacts [inv_qIllegal ht .., ht.qIssue _ _ _ _ _ _ fun _ ht1 => ht1]

/-! ## Starts (07 R172 Table 11) -/

theorem State.Inv.qDone {s : State} (hs : s.Inv) (c : Nat) (q : QCmd) : (s.qDone c q).Inv := ((hs.updCore ..).post1 ..).afterCommand ..

theorem State.Inv.freeOrphan {s : State} (hs : s.Inv) (c q : Nat) : (s.freeOrphan c q).Inv := by
  unfold State.freeOrphan
  split
  · exact hs
  · split
    exacts [hs.updCore .., hs]

theorem State.Inv.qFault {s : State} (hs : s.Inv) (c : Nat) (q : QCmd) (reg cause addr : Nat) : (s.qFault c q reg cause addr).Inv := by
  unfold State.qFault
  extract_lets s1
  have hs1 : s1.Inv := hs.reportFault ..
  split
  exacts [((hs1.updCore ..).forEach fun _ _ ht => ht.freeOrphan ..).afterCommand .., hs1.updCore ..]

theorem State.Inv.startStream {s : State} (hs : s.Inv) (c id n q : Nat) (store ix : Bool) (sync : Sync) (word : Word32) (at' : Nat) (psn : Bool) :
    (s.startStream c id n q store ix sync word at' psn).Inv := by
  unfold State.startStream
  split
  · exact hs
  · extract_lets r bad onM total t s1 s2 s3
    have hs1 : s1.Inv := hs.updSreg ..
    have hs2 : s2.Inv := by
      unfold s2
      split
      · split
        exacts [hs1.updSreg .., hs1]
      · exact hs1
    have hs3 : s3.Inv := by
      unfold s3
      split
      exacts [hs2.reportFault .., hs2]
    split
    · exact hs3.postOnce ..
    · split
      · exact hs3.postOnce ..
      · split
        · exact hs3
        · split
          exacts [hs3, hs3.postOnce ..]

theorem State.Inv.startRun {s : State} (hs : s.Inv) (c : Nat) (q : QCmd) (bind : Word64) (turns : Nat) (keep : Bool) :
    (s.startRun c q bind turns keep).Inv := by
  unfold State.startRun
  split
  · exact hs
  · split
    exacts [((hs.updCore ..).reportFault ..).afterCommand .., (hs.updCore ..).postOnce ..]

theorem State.Inv.qStart {s : State} (hs : s.Inv) (c : Nat) (q : QCmd) : (s.qStart c q).Inv := by
  unfold State.qStart
  extract_lets s1
  have hs1 : s1.Inv := hs.updCore ..
  split
  · exact hs1.postOnce ..
  · exact (hs1.updCore ..).startStream ..
  · split
    exacts [hs1.qDone .., hs1]
  · exact hs1
  · exact hs1.postOnce ..
  · exact (hs1.updCore ..).postOnce ..
  · exact hs1.startRun ..
  · exact hs1.postOnce ..
  · split
    exacts [hs1.qDone .., hs1.postOnce ..]

theorem State.Inv.qStartAll (c : Nat) : ∀ (l : List QCmd) {s : State}, s.Inv → (s.qStartAll c l).Inv
  | [], s, hs => by
    unfold State.qStartAll
    exact hs
  | q :: qs, s, hs => by
    unfold State.qStartAll
    split
    · exact hs
    · split
      exacts [(hs.qStart ..).qStartAll .., hs.qStartAll ..]

theorem inv_execStreamCommandStart {s : State} (hs : s.Inv) : Canonical (execStreamCommandStart s) := by
  unfold execStreamCommandStart
  split
  · split
    exacts [hs, hs.qStartAll ..]
  · exact hs

/-! ## The events of streams -/

theorem State.Inv.kickGrid {s : State} (hs : s.Inv) (c : Nat) : (s.kickGrid c).Inv := by
  unfold State.kickGrid
  split
  exacts [hs, hs.postOnce ..]

theorem inv_execStreamDataArrival {s : State} (hs : s.Inv) : Canonical (execStreamDataArrival s) := by
  unfold execStreamDataArrival
  split
  · extract_lets s1
    have hs1 : s1.Inv := ((((hs.mxSettle ..).afterTake ..).deliver ..).mxSettle ..).kickGrid ..
    split
    · exact hs1
    · split
      · exact hs1
      · split
        · exact hs1
        · split
          exacts [hs1.postOnce .., hs1]
  · exact hs

theorem inv_execStoreStreamElementPerformed {s : State} (hs : s.Inv) : Canonical (execStoreStreamElementPerformed s) := by
  unfold execStoreStreamElementPerformed
  split
  · extract_lets s1
    have hs1 : s1.Inv := hs.mxSettle ..
    split
    · exact hs1
    · extract_lets again
      have hagain : ∀ (s : State), s.Inv → (again s).Inv := fun _ ht => State.inv_ite (ht.postOnce ..) ht
      split
      · split
        · exact hs1
        · split
          · next heq =>
            have ht1 := (hs1.performStore ..).of_fst heq
            extract_lets s2
            have hs2 : s2.Inv := (ht1.mxSettle ..).kickGrid ..
            split
            · exact hs2
            · split
              · exact hs2.postOnce ..
              · split
                exacts [hs2.postOnce .., hagain _ hs2]
      · exact hagain _ hs1
  · exact hs

theorem State.Inv.abandonOp {s : State} (hs : s.Inv) (c q : Nat) : OptInv (s.abandonOp c q) := by
  unfold State.abandonOp
  split
  · exact trivial
  · extract_lets
    split
    exacts [trivial, (hs.updCore ..).updStrm ..]

theorem inv_execStreamElementFault {s : State} (hs : s.Inv) : Canonical (execStreamElementFault s) := by
  unfold execStreamElementFault
  split
  · extract_lets s1
    have hs1 : s1.Inv := hs.mxSettle ..
    split
    · next heq => exact ((hs1.abandonOp ..).of_eq heq).postOnce ..
    · exact hs1.streamFaultNow ..
  · exact hs

theorem State.Inv.freeIndex {s : State} (hs : s.Inv) (c q : Nat) : (s.freeIndex c q).Inv := by
  unfold State.freeIndex
  split
  · exact hs
  · split
    · split
      exacts [hs.updSreg .., hs]
    · exact hs

theorem inv_execStreamRetire {s : State} (hs : s.Inv) : Canonical (execStreamRetire s) := by
  unfold execStreamRetire
  split
  · extract_lets s1 s2 gone
    have hs1 : s1.Inv := hs.mxSettle ..
    have hs2 : s2.Inv := hs1.retireStream ..
    exact (State.inv_ite ((hs1.freeIndex ..).retireStream ..) hs2).freeOrphan ..
  · exact hs

/-! ## QSET (07 R164, R165, 18 R481) -/

theorem inv_execQsetCompletion {s : State} (hs : s.Inv) : Canonical (execQsetCompletion s) := by
  unfold execQsetCompletion
  split
  · split
    · exact hs
    · split
      · split
        · exact (State.inv_ite ((hs.updCore ..).updSreg ..) (hs.updCore ..)).qDone ..
        · split
          · next heq => exact ((((hs.readWords ..).of_fst heq).updSreg ..).qDone ..).postOnce ..
          · next heq => exact (hs.readWords ..).of_fst heq
          · next heq => exact (((hs.readWords ..).of_fst heq).updSreg ..).qFault ..
          · next heq => exact (hs.readWords ..).of_fst heq
      · exact hs
      · exact hs
      · exact hs
      · exact hs
      · exact hs
      · exact hs
      · exact hs
      · exact hs
  · exact hs

/-! ## Copies (18 R471, R472) -/

theorem State.Inv.copyReads (c d a : Nat) : ∀ (l : List (Nat × Nat)) {s : State}, s.Inv → (s.copyReads c d a l).1.Inv
  | [], s, hs => by
    unfold State.copyReads
    exact hs
  | (p, n) :: ps, s, hs => by
    unfold State.copyReads
    split
    · next heq =>
      have ht1 := (hs.readBytes ..).of_fst heq
      split
      · next heq1 => exact (ht1.copyReads ..).of_fst heq1
      · exact ht1.copyReads ..
    · next heq => exact (hs.readBytes ..).of_fst heq
    · next heq => exact (hs.readBytes ..).of_fst heq
    · next heq => exact (hs.readBytes ..).of_fst heq

theorem State.Inv.copyWrites (c ctx : Nat) (gp : Bool) : ∀ (l : List (Nat × Nat × Nat × Bool)) {s : State}, s.Inv → (s.copyWrites c ctx gp l).1.Inv
  | [], s, hs => by
    unfold State.copyWrites
    exact hs
  | (p, n, v, psn) :: ps, s, hs => by
    unfold State.copyWrites
    split
    · next heq => exact ((hs.writeVia ..).of_fst heq).copyWrites ..
    · exact hs.writeVia ..

theorem State.Inv.pagesFault (c : Nat) (u : Use) (a : Nat) : ∀ (fuel : Nat) (n : Nat) {s : State}, s.Inv → (s.pagesFault c u a fuel n).1.Inv
  | 0, _, s, hs => by
    unfold State.pagesFault
    exact hs
  | fuel + 1, n, s, hs => by
    unfold State.pagesFault
    split
    · exact hs
    · split
      · exact hs
      · split
        · next heq => exact (hs.translate ..).of_fst heq
        · next heq => exact ((hs.translate ..).of_fst heq).pagesFault ..

theorem State.Inv.qcopyRow {s : State} (hs : s.Inv) (c : Nat) (q : QCmd) (d a n : Nat) : (s.qcopyRow c q d a n).Inv := by
  unfold State.qcopyRow
  split
  · exact hs.qDone ..
  · extract_lets
    split
    · next heq =>
      have ht1 := (hs.copyReads ..).of_fst heq
      split
      · next heq1 =>
        have ht2 := (ht1.copyWrites ..).of_fst heq1
        exact State.inv_ite ((ht2.updCore ..).qDone ..) ((ht2.updCore ..).postOpen ..)
      · next heq1 => exact ((ht1.copyWrites ..).of_fst heq1).qFault ..
      · next heq1 => exact (ht1.copyWrites ..).of_fst heq1
      · next heq1 => exact (ht1.copyWrites ..).of_fst heq1
    · next heq => exact ((hs.copyReads ..).of_fst heq).qFault ..
    · next heq => exact (hs.copyReads ..).of_fst heq
    · next heq => exact (hs.copyReads ..).of_fst heq

theorem State.Inv.qccopyNow {s : State} (hs : s.Inv) (c : Nat) (q : QCmd) (d a : Nat) (v : Word64) : (s.qccopyNow c q d a v).Inv := by
  unfold State.qccopyNow
  extract_lets
  split
  · next heq => exact ((hs.pagesFault ..).of_fst heq).qFault ..
  · next heq =>
    have ht1 := (hs.pagesFault ..).of_fst heq
    split
    · next heq1 => exact ((ht1.pagesFault ..).of_fst heq1).qFault ..
    · next heq1 =>
      have ht2 := (ht1.pagesFault ..).of_fst heq1
      split
      · next heq2 =>
        have ht3 := (ht2.copyReads ..).of_fst heq2
        split
        · next heq3 =>
          have ht4 := (ht3.readVia ..).of_fst heq3
          split
          · split
            · exact ht4
            · split
              · next heq4 =>
                have ht5 := (ht4.copyWrites ..).of_fst heq4
                split
                · next heq5 => exact (((((ht5.translate ..).of_fst heq5).releaseNow ..).evictWords ..).writeVia ..).qDone ..
                · exact ht4.qFault ..
              · exact ht4.qFault ..
              · exact ht4
          · exact ((ht4.updCore ..).postErr ..).afterCommand ..
        · next heq3 => exact ((ht3.readVia ..).of_fst heq3).qFault ..
        · next heq3 => exact (ht3.readVia ..).of_fst heq3
      · next heq2 => exact ((ht2.copyReads ..).of_fst heq2).qFault ..
      · next heq2 => exact (ht2.copyReads ..).of_fst heq2

theorem inv_execCopyCompletion {s : State} (hs : s.Inv) : Canonical (execCopyCompletion s) := by
  unfold execCopyCompletion
  split
  · split
    · exact hs
    · split
      · exact hs
      · split
        exacts [hs.qcopyRow .., hs.qccopyNow .., hs.postOnce .., hs, hs, hs, hs, hs, hs]
  · exact hs

/-! ## Stash commands (10 R243, R244) -/

theorem State.Inv.stashRow {s : State} (hs : s.Inv) (c : Nat) (q : QCmd) (op a n : Nat) : (s.stashRow c q op a n).Inv := by
  unfold State.stashRow
  extract_lets next rows block va
  have hnext : ∀ (s : State) (ids : List Nat), s.Inv → (next s ids).Inv := fun _ _ ht => (ht.updCore ..).postOnce ..
  split
  · split
    exacts [hs.qDone .., hs]
  · split
    · next heq => exact ((hs.translate ..).of_fst heq).qFault ..
    · next heq =>
      have ht1 := (hs.translate ..).of_fst heq
      extract_lets t l here s1
      have hs1 : s1.Inv := (ht1.postOnce ..).postOnce ..
      split
      · split
        · next heq1 => exact ((ht1.ensureRow ..).of_fst heq1).qFault ..
        · next heq1 => exact (ht1.ensureRow ..).of_fst heq1
        · next heq1 =>
          have ht2 := (ht1.ensureRow ..).of_fst heq1
          extract_lets s2
          have hs2 : s2.Inv := ht2.updCore ..
          split
          · exact hs2
          · split
            exacts [hnext _ _ hs2, hs2.requestFill ..]
      · clear_value here
        split
        exacts [hnext _ _ hs1, hnext _ _ (hs1.updCore ..)]
      · clear_value here
        split
        · exact hnext _ _ ht1
        · split
          · exact ht1
          · split
            · exact hnext _ _ ht1
            · split
              exacts [ht1, hnext _ _ (ht1.writeBackRow ..)]
      · clear_value here
        split
        exacts [hnext _ _ ht1, hnext _ _ (ht1.dropWords ..)]

theorem inv_execStashCommandCompletion {s : State} (hs : s.Inv) : Canonical (execStashCommandCompletion s) := by
  unfold execStashCommandCompletion
  split
  · split
    · exact hs
    · split
      · exact hs
      · split
        exacts [hs.stashRow .., hs, hs, hs, hs, hs, hs, hs, hs]
  · exact hs

/-! ## What a write does -/

theorem State.Inv.clearCounters {s : State} (hs : s.Inv) (p k : Nat) : (s.clearCounters p k).Inv := hs

theorem State.Inv.rearm {s : State} (hs : s.Inv) (p : Nat) : (s.rearm p).Inv := by
  unfold State.rearm
  extract_lets
  split
  · exact hs
  · refine hs.forEach fun _ _ ht => State.inv_ite ht (ht.forEach fun t1 x1 ht1 => ?_)
    split
    exacts [ht1, ht1]

theorem State.Inv.reprelim {s : State} (hs : s.Inv) (p : Nat) : (s.reprelim p).Inv := by
  unfold State.reprelim
  split
  · exact hs
  · refine hs.forEach fun t x ht => ?_
    split
    · exact ht
    · split
      · exact ht
      · split
        exacts [ht, ht.postOnce ..]

theorem State.Inv.regate {s : State} (hs : s.Inv) (p : Nat) : (s.regate p).Inv := by
  unfold State.regate
  extract_lets
  split
  · exact hs
  · refine hs.forEach fun t x ht => ?_
    split
    · exact ht
    · split
      exacts [ht, ht.postOnce ..]

theorem State.Inv.writeSr {s : State} (hs : s.Inv) (c n r : Nat) (v : Word64) : (s.writeSr c n r v).Inv := by
  unfold State.writeSr
  extract_lets p src s1
  have hs1 : s1.Inv := by
    unfold s1
    split
    exacts [hs, hs]
  split
  · split
    exacts [hs1, hs1]
  · exact (hs.updPart ..).regate ..
  · exact hs
  · split
    exacts [hs, hs.updPart ..]
  · exact ((hs.updPart ..).rearm ..).reprelim ..
  · exact hs
  · exact hs
  · exact hs
  · split
    exacts [hs, hs]
  · exact hs
  · exact hs
  · exact (hs.updRouter ..).post ..
  · exact hs.updCore ..
  · exact hs.updCore ..
  · split
    · exact State.inv_ite (hs.post ..) ((hs.updPart ..).clearCounters ..)
    · split
      exacts [hs, (hs.updPart ..).updCtx ..]

theorem inv_execMfsr (o : OpS) {s : State} (hs : s.Inv) : Canonical (execMfsr o s) := by
  unfold execMfsr
  refine inv_slotOp fun _ _ _ => Try.Inv.finish ?_
  split
  · exact hs.mxSettle ..
  · split
    · exact ⟨hs.mxSettle .., hs.mxSettle ..⟩
    · split
      exacts [hs.mxSettle .., ⟨(hs.mxSettle ..).writeC .., (hs.mxSettle ..).writeC ..⟩]

theorem inv_execMtsr (o : OpS) {s : State} (hs : s.Inv) : Canonical (execMtsr o s) := by
  unfold execMtsr
  refine inv_slotOp fun _ _ _ => Try.Inv.finish ?_
  split
  · exact hs
  · split
    · exact ⟨hs, hs⟩
    · split
      · exact hs
      · split
        exacts [hs, ⟨hs.writeSr .., hs.writeSr ..⟩]

/-! ## The writes with effects of their own -/

theorem inv_execStstatWrite {s : State} (hs : s.Inv) : Canonical (execStstatWrite s) := by
  unfold execStstatWrite
  split
  exacts [hs.updCore .., hs]

theorem inv_execFlogstWrite {s : State} (hs : s.Inv) : Canonical (execFlogstWrite s) := by
  unfold execFlogstWrite
  split
  exacts [hs.updRouter .., hs]

theorem inv_execFqstatWrite {s : State} (hs : s.Inv) : Canonical (execFqstatWrite s) := by
  unfold execFqstatWrite
  split
  exacts [hs.updRouter .., hs]

theorem inv_execLpstatWrite {s : State} (hs : s.Inv) : Canonical (execLpstatWrite s) := by
  unfold execLpstatWrite
  split
  exacts [hs.updPort .., hs]

theorem inv_execNotstatWrite {s : State} (hs : s.Inv) : Canonical (execNotstatWrite s) := by
  unfold execNotstatWrite
  split
  exacts [hs.updPart .., hs]

theorem inv_execSilcntWrite {s : State} (hs : s.Inv) : Canonical (execSilcntWrite s) := by
  unfold execSilcntWrite
  split
  exacts [hs.updCore .., hs]

theorem inv_execCrctlWrite {s : State} (hs : s.Inv) : Canonical (execCrctlWrite s) := by
  unfold execCrctlWrite
  split
  · extract_lets s1
    have hs1 : s1.Inv := (hs.updPart ..).clearCounters ..
    split
    exacts [hs1, hs.updPart ..]
  · exact hs

end Sys2Proof.Machine
end

section
/-! SUPPORT. The canonical form of memory through flows (08). -/

namespace Sys2Proof.Machine

/-! ## Rows of flow sends and their acknowledgements (08 R187, R199, R209, R210) -/

theorem State.Inv.ackRows {s : State} (hs : s.Inv) (rows : List Nat) : (s.ackRows rows).Inv := hs.forEach fun _ _ ht => ht.postOpen ..

theorem State.Inv.loseRows {s : State} (hs : s.Inv) (rows : List Nat) : (s.loseRows rows).Inv := hs.forEach fun _ _ ht => ht.postOpen ..

theorem State.Inv.fanRows {s : State} (hs : s.Inv) (rows : List Nat) (k : Nat) : (s.fanRows rows k).Inv := by
  unfold State.fanRows
  split
  exacts [hs.ackRows .., hs]

/-! ## Drops (08 R187, R204, R205) -/

theorem State.Inv.drop {s : State} (hs : s.Inv) (r inp why : Nat) (p : Packet) : (s.drop r inp why p).Inv := by
  unfold State.drop
  split
  exacts [hs, (State.inv_ite (hs.updRouter ..) ((hs.updRouter ..).notice ..)).loseRows ..]

/-! ## Sending on -/

theorem State.Inv.takeOut {s : State} (hs : s.Inv) (r key due cost : Nat) : (s.takeOut r key due cost).1.Inv := by
  unfold State.takeOut
  split
  exacts [hs, hs.updRouter ..]

theorem State.Inv.sendMesh {s : State} (hs : s.Inv) (r port due : Nat) (p : Packet) : (s.sendMesh r port due p).Inv := by
  unfold State.sendMesh
  split
  · exact hs.loseRows ..
  · split
    · next heq =>
      have ht1 := (hs.takeOut ..).of_fst heq
      exact ht1

theorem State.Inv.sendTransit {s : State} (hs : s.Inv) (r ep due : Nat) (p : Packet) : (s.sendTransit r ep due p).Inv := by
  unfold State.sendTransit
  split
  · next heq =>
    have ht1 := (hs.takeOut ..).of_fst heq
    split
    · next heq1 =>
      have ht2 := (ht1.takeOut ..).of_fst heq1
      exact ht2

theorem State.Inv.loseRow {s : State} (hs : s.Inv) (r va : Nat) (p : Packet) : (s.loseRow r va p).Inv := ((hs.updRouter ..).notice ..).loseRows ..

theorem State.Inv.toEndpoint {s : State} (hs : s.Inv) (r ep inp due : Nat) (p : Packet) : (s.toEndpoint r ep inp due p).Inv := by
  unfold State.toEndpoint
  split
  · exact hs.loseRows ..
  · extract_lets dk va addressed
    split
    · exact hs.drop ..
    · clear_value dk
      split
      · exact hs
      · exact hs
      · split
        · next heq => exact ((hs.translateHome ..).of_fst heq).loseRow ..
        · next heq => exact ((hs.translateHome ..).of_fst heq).sendTransit ..
      · split
        exacts [hs.drop .., hs.sendTransit ..]
      · split
        exacts [hs.drop .., hs.sendTransit ..]
      · exact hs.sendTransit ..

theorem State.Inv.output {s : State} (hs : s.Inv) (r inp due : Nat) (e : Rec128) (p : Packet) : (s.output r inp due e p).Inv := by
  unfold State.output
  extract_lets p1 s1 s2
  have hs1 : s1.Inv := hs.fanRows ..
  have hs2 : s2.Inv := hs1.forEach fun _ _ ht => ht.sendMesh ..
  split
  exacts [hs2.toEndpoint .., hs2]

/-! ## Combine groups (08 R189 to R196) -/

theorem State.Inv.foldOne {s : State} (hs : s.Inv) (r : Nat) (e : Rec128) (q : Round) (c : Contribution) : (s.foldOne r e q c).1.Inv := by
  unfold State.foldOne
  extract_lets
  split
  · next heq => exact (hs.takeOut ..).of_fst heq

theorem State.Inv.foldReady (r inp : Nat) (e : Rec128) : ∀ (fuel : Nat) (q : Round) {s : State}, s.Inv → (s.foldReady r inp e fuel q).1.Inv
  | 0, q, s, hs => by
    unfold State.foldReady
    exact hs
  | fuel + 1, q, s, hs => by
    unfold State.foldReady
    split
    · exact hs
    · split
      · next heq =>
        have ht1 := (hs.foldOne ..).of_fst heq
        exact (State.inv_ite ((ht1.fanRows ..).output ..) ht1).foldReady ..

theorem State.Inv.foldAll (r : Nat) (e : Rec128) (q : Round) : ∀ (l : List Contribution) {s : State}, s.Inv → (s.foldAll r e q l).1.Inv
  | [], s, hs => by
    unfold State.foldAll
    exact hs
  | c :: cs, s, hs => by
    unfold State.foldAll
    split
    · next heq =>
      have ht1 := (hs.foldOne ..).of_fst heq
      split
      · next heq1 => exact (ht1.foldAll ..).of_fst heq1

theorem State.Inv.join {s : State} (hs : s.Inv) (r inp : Nat) (e : Rec128) (p : Packet) : (s.join r inp e p).Inv := by
  unfold State.join
  split
  · exact hs
  · extract_lets flow seq q c q1 s1 complete f
    have hs1 : s1.Inv := hs.updRouter ..
    have hf : f.1.Inv := by
      unfold f
      split
      · split
        exacts [hs1.foldAll .., hs1]
      · exact hs1.foldReady ..
    clear_value f
    split
    · split
      exacts [State.inv_ite (hf.updRouter ..) ((hf.updRouter ..).output ..), hf.updRouter ..]

/-! ## Matching (08 R187, R188, R193) -/

theorem State.Inv.matchPacket {s : State} (hs : s.Inv) (r port : Nat) (p : Packet) : OptInv (s.matchPacket r port p) := by
  unfold State.matchPacket
  split
  · exact hs
  · split
    · exact hs.drop ..
    · split
      · exact hs.drop ..
      · split
        · extract_lets
          split
          exacts [hs.drop .., hs.output ..]
        · split
          · extract_lets
            split
            · exact hs.drop ..
            · split
              exacts [trivial, hs.join ..]
          · exact hs.output ..

theorem State.Inv.retryPorts (r : Nat) : ∀ (l : List (Nat × Packet)) (held : List (Nat × BitVec 2)) {s : State}, s.Inv → (s.retryPorts r l held).1.Inv
  | [], _, s, hs => by
    unfold State.retryPorts
    exact hs
  | (port, p) :: l, held, s, hs => by
    unfold State.retryPorts
    split
    · split
      · next heq => exact ((hs.retryPorts ..).of_fst heq).updRouter ..
    · split
      · next heq =>
        have ht1 := (hs.matchPacket ..).of_eq heq
        split
        · next heq1 => exact (ht1.retryPorts ..).of_fst heq1
      · split
        · next heq => exact ((hs.retryPorts ..).of_fst heq).updRouter ..

theorem State.Inv.settlePorts (r : Nat) : ∀ (n : Nat) {s : State}, s.Inv → (s.settlePorts r n).Inv
  | 0, s, hs => by
    unfold State.settlePorts
    exact hs
  | n + 1, s, hs => by
    unfold State.settlePorts
    split
    · exact hs
    · split
      · exact hs
      · split
        · next heq => exact (((hs.updRouter ..).retryPorts ..).of_fst heq).settlePorts ..
        · next heq => exact ((hs.updRouter ..).retryPorts ..).of_fst heq

theorem State.Inv.arrive {s : State} (hs : s.Inv) (r port : Nat) (p : Packet) : (s.arrive r port p).Inv := by
  unfold State.arrive
  split
  · exact hs.loseRows ..
  · extract_lets p1 wait
    have hwait : ∀ (s : State), s.Inv → (wait s).Inv := fun _ ht => ht.updRouter ..
    split
    · exact hwait _ hs
    · split
      · exact hwait _ hs
      · next heq => exact ((hs.matchPacket ..).of_eq heq).settlePorts ..

theorem inv_execPacketArrival {s : State} (hs : s.Inv) : Canonical (execPacketArrival s) := by
  unfold execPacketArrival
  split
  exacts [hs.arrive .., hs]

/-! ## Landing at a stash (08 R198, R199, R206 to R209) -/

theorem State.Inv.landWord {s : State} (hs : s.Inv) (q n off : Nat) (x : PWord × Nat) : (s.landWord q n off x).Inv := by
  unfold State.landWord
  split
  exacts [hs.rowWrite .., hs.rowWrite ..]

theorem State.Inv.landWatch {s : State} (hs : s.Inv) (r cc va n : Nat) : (s.landWatch r cc va n).Inv := hs.forEach fun _ _ ht => ht.updCore ..

theorem State.Inv.stashLand {s : State} (hs : s.Inv) (r va : Nat) (pin : Bool) (p : Packet) : (s.stashLand r va pin p).1.Inv := by
  unfold State.stashLand
  split
  · exact hs
  · split
    · next heq => exact (hs.translate ..).of_fst heq
    · next heq =>
      have ht1 := (hs.translate ..).of_fst heq
      extract_lets
      split
      · exact ht1
      · split
        · next heq1 => exact (ht1.ensureRow ..).of_fst heq1
        · next heq1 => exact (ht1.ensureRow ..).of_fst heq1
        · next heq1 =>
          have ht2 := (ht1.ensureRow ..).of_fst heq1
          extract_lets s1 filling s2 s3
          have hs1 : s1.Inv := by
            unfold s1
            split
            exacts [ht2.updCore .., ht2]
          have hs2 : s2.Inv := hs1.requestFill ..
          have hs3 : s3.Inv := hs1.foldl fun _ _ ht => ht.landWord ..
          split
          · exact hs1
          · split
            exacts [hs2, (hs3.landWatch ..).wakeCluster ..]

theorem State.Inv.signalRow {s : State} (hs : s.Inv) (r : Nat) (d : Rec128) (p : Packet) : (s.signalRow r d p).Inv := by
  unfold State.signalRow
  extract_lets
  split
  · exact hs
  · split
    · exact hs
    · extract_lets m v s1
      have hs1 : s1.Inv := hs.putSem ..
      split
      · exact hs1
      · split
        exacts [hs1.updCtx .., hs1]

theorem State.Inv.markChannel {s : State} (hs : s.Inv) (r : Nat) (d : Rec128) (p : Packet) (lost : Bool) : (s.markChannel r d p lost).Inv := by
  unfold State.markChannel
  split
  exacts [hs, (hs.updCore ..).postOnce ..]

theorem State.Inv.landedRow {s : State} (hs : s.Inv) (r : Nat) (d : Rec128) (p : Packet) : (s.landedRow r d p).Inv :=
  ((hs.signalRow ..).markChannel ..).ackRows ..

theorem State.Inv.park {s : State} (hs : s.Inv) (r ep va cause : Nat) (p : Packet) : (s.park r ep va cause p).Inv :=
  (((hs.updRouter ..).notice ..).postOnce ..).post ..

theorem State.Inv.landStash {s : State} (hs : s.Inv) (r ep : Nat) (p : Packet) : (s.landStash r ep p).Inv := by
  unfold State.landStash
  extract_lets d va wait
  have hwait : ∀ (s : State), s.Inv → (wait s).Inv := fun _ ht => ht.updRouter ..
  split
  · exact hs.loseRows ..
  · split
    · exact hwait _ hs
    · split
      · next heq => exact ((hs.stashLand ..).of_fst heq).landedRow ..
      · next heq =>
        have ht1 := (hs.stashLand ..).of_fst heq
        exact ht1
      · next heq =>
        have ht1 := (hs.stashLand ..).of_fst heq
        split
        · exact ht1.loseRows ..
        · split
          exacts [hwait _ ht1, ht1.park ..]

theorem State.Inv.settleDeliveries {s : State} (hs : s.Inv) (r : Nat) : (s.settleDeliveries r).Inv := by
  unfold State.settleDeliveries
  split
  exacts [hs, State.inv_ite hs ((hs.updRouter ..).forEach fun _ _ ht => ht.landStash ..)]

theorem State.Inv.loseParked {s : State} (hs : s.Inv) (r : Nat) (x : Parked) : (s.loseParked r x).Inv := (hs.markChannel ..).loseRow ..

theorem State.Inv.retryRows {s : State} (hs : s.Inv) (r : Nat) (sel : Parked → Bool) : (s.retryRows r sel).Inv := by
  unfold State.retryRows
  split
  · exact hs
  · extract_lets one
    have hone : ∀ (a : State × List Parked) (x : Parked), a.1.Inv → (one a x).1.Inv := by
      intro x0 x1 ht
      unfold one
      extract_lets
      split
      · exact ht
      · split
        · exact ht.loseParked ..
        · split
          · next heq => exact ((ht.stashLand ..).of_fst heq).landedRow ..
          · next heq => exact ((ht.stashLand ..).of_fst heq).postOnce ..
          · next heq => exact (ht.stashLand ..).of_fst heq
    split
    · next heq =>
      have ht1 := (State.inv_foldl_fst (fun _ _ ht => hone _ _ ht) _ hs).of_fst heq
      exact State.inv_ite ((ht1.updRouter ..).settleDeliveries ..) (ht1.updRouter ..)

theorem State.Inv.retryParked {s : State} (hs : s.Inv) (r : Nat) (sel : Nat → Bool) : (s.retryParked r sel).Inv := hs.retryRows ..

theorem inv_execParkedRowRetry {s : State} (hs : s.Inv) : Canonical (execParkedRowRetry s) := by
  unfold execParkedRowRetry
  split
  exacts [((hs.retryRows ..).updRouter ..).forEach fun _ _ ht => ht.postOnce .., hs]

theorem inv_execFlowRowLost {s : State} (hs : s.Inv) : Canonical (execFlowRowLost s) := by
  unfold execFlowRowLost
  split
  · split
    · exact hs
    · extract_lets lim old rest s1 s2 s3
      have hs1 : s1.Inv := hs.updRouter ..
      have hs2 : s2.Inv := hs1.forEach fun _ _ ht => ht.loseParked ..
      have hs3 : s3.Inv := by
        unfold s3
        split
        exacts [hs2, hs2.settleDeliveries ..]
      clear_value rest
      split
      exacts [hs3, hs3.postOnce ..]
  · exact hs

/-! ## The other endpoints -/

theorem State.Inv.poisonSenders {s : State} (hs : s.Inv) (rows : List Nat) : (s.poisonSenders rows).Inv := by
  unfold State.poisonSenders
  refine hs.forEach fun t x ht => ?_
  split
  · exact ht
  · split
    exacts [ht.poisonLater .., ht]

theorem State.Inv.landHome {s : State} (hs : s.Inv) (r : Nat) (p : Packet) : (s.landHome r p).Inv := by
  unfold State.landHome
  extract_lets ws s1 s2
  have hs1 : s1.Inv := State.inv_homeWrite _ _ _ _ _ hs
  have hs2 : s2.Inv := by
    unfold s2
    refine hs1.forEach fun t x ht => ?_
    split
    exacts [ht, ht.updCtx ..]
  exact hs2.ackRows ..

theorem State.Inv.landFabric {s : State} (hs : s.Inv) (p : Packet) : (s.landFabric p).Inv := by
  unfold State.landFabric
  extract_lets n own s1
  have hs1 : s1.Inv := hs.updSlice ..
  split
  · exact hs.loseRows ..
  · split
    exacts [hs.loseRows .., (State.inv_ite (hs1.ackRows ..) hs1).postOnce ..]

theorem State.Inv.linkSend {s : State} (hs : s.Inv) (port : Nat) (l : Option Nat) (p : Packet) : (s.linkSend port l p).Inv := by
  unfold State.linkSend
  split
  exacts [hs, (State.inv_ite ((hs.updPort ..).emit ..) (hs.updPort ..)).post ..]

theorem State.Inv.landLink {s : State} (hs : s.Inv) (r : Nat) (p : Packet) : (s.landLink r p).Inv := by
  unfold State.landLink
  split
  exacts [(hs.poisonSenders ..).loseRows .., (hs.linkSend ..).ackRows ..]

theorem State.Inv.landHost {s : State} (hs : s.Inv) (p : Packet) : (s.landHost p).Inv := by
  unfold State.landHost
  split
  exacts [(hs.poisonSenders ..).loseRows .., (hs.emit ..).ackRows ..]

theorem inv_execRowLanding {s : State} (hs : s.Inv) : Canonical (execRowLanding s) := by
  unfold execRowLanding
  split
  · refine State.inv_ite ?_ (hs.landStash ..)
    split
    exacts [hs.arrive .., hs.landHome .., hs.landFabric .., hs.landLink .., hs.landHost .., hs]
  · exact hs

/-! ## Acknowledgements -/

theorem State.Inv.afterRow {s : State} (hs : s.Inv) (x : SendRow) : (s.afterRow x).Inv := by
  unfold State.afterRow
  extract_lets s1 s2 s3
  have hs1 : s1.Inv := hs.updCore ..
  have hs2 : s2.Inv := by
    unfold s2
    refine (hs1.afterCommand ..).forEach fun t x1 ht => ?_
    split
    · exact ht
    · split
      exacts [ht.postOnce .., ht]
  have hs3 : s3.Inv := by
    unfold s3
    refine hs2.forEach fun t x1 ht => ?_
    split
    exacts [ht.postOnce .., ht, ht, ht, ht, ht, ht]
  exact (hs3.postOnce ..).postOnce ..

theorem inv_execLandingAcknowledgement {s : State} (hs : s.Inv) : Canonical (execLandingAcknowledgement s) := by
  unfold execLandingAcknowledgement
  split
  · split
    · exact hs
    · split
      · exact hs
      · split
        exacts [hs, ((hs.sameMem (by rfl)).post1 ..).afterRow ..]
  · exact hs

theorem inv_execLossAcknowledgement {s : State} (hs : s.Inv) : Canonical (execLossAcknowledgement s) := by
  unfold execLossAcknowledgement
  split
  · split
    exacts [hs, State.inv_ite (hs.sameMem (by rfl)) (((((hs.sameMem (by rfl)).postErr ..).updCore ..).updCtx ..).afterRow ..)]
  · exact hs

/-! ## Sending rows (08 R181, R200, 18 R473) -/

theorem State.Inv.sendRow {s : State} (hs : s.Inv) (c ctx cmd : Nat) (sync : Sync) (flow seq rank : Nat) (ws : List PWord) :
    (s.sendRow c ctx cmd sync flow seq rank ws).Inv :=
  hs

theorem inv_execFlowRowSend {s : State} (hs : s.Inv) : Canonical (execFlowRowSend s) := by
  unfold execFlowRowSend
  split
  · split
    · exact hs
    · split
      · split
        · exact hs
        · extract_lets
          split
          · next heq =>
            have ht1 := (hs.readWords ..).of_fst heq
            extract_lets ws s1 s2
            have hs1 : s1.Inv := ht1.sendRow ..
            have hs2 : s2.Inv := hs1.updCore ..
            split
            exacts [(hs2.updCore ..).afterCommand .., hs2]
          · next heq => exact ((hs.readWords ..).of_fst heq).qFault ..
          · next heq => exact (hs.readWords ..).of_fst heq
          · next heq => exact (hs.readWords ..).of_fst heq
      · exact hs
      · exact hs
      · exact hs
      · exact hs
      · exact hs
      · exact hs
      · exact hs
      · exact hs
  · exact hs

end Sys2Proof.Machine
end

section
/-! SUPPORT. The canonical form of memory through the Y slot, fabric invocations, loads and stores (09, 11, 07 R178 to R180, 16, 18). -/

namespace Sys2Proof.Machine

/-! ## Semaphores (18 R495, 12 R289, R290) -/

theorem inv_semsetOp {s : State} (hs : s.Inv) (g : Guard) (sem imm : Nat) : Canonical (semsetOp s g sem imm) :=
  inv_slotOp fun _ _ _ => State.inv_ite (hs.putSem ..) hs

theorem inv_semwaitOp {s : State} (hs : s.Inv) (g : Guard) (sem thr : Nat) : Canonical (semwaitOp s g sem thr) := by
  unfold semwaitOp
  refine inv_guarded hs fun k n x => ?_
  split
  exacts [⟨hs, hs⟩, hs.arm ..]

/-! ## The channel command queue (09 R215, R216) -/

theorem inv_yIllegal {s : State} (hs : s.Inv) (op : Nat) : (yIllegal s op).Inv State.Inv := hs

theorem State.Inv.yReady {s : State} (hs : s.Inv) (k : Core) (w : Sync) (x : Ctx) : (s.yReady k w x).Inv State.Inv := by
  unfold State.yReady
  refine (hs.syncWait ..).bind fun t t1 ht ht1 => ?_
  split
  exacts [ht.stall, ⟨ht, ht⟩]

theorem State.Inv.yEnter {s : State} (hs : s.Inv) (k : Core) (n : Nat) (i : Instr) (w : Sync) (kind : YKind) (delay : Nat) (e : Nat → Event) :
    (s.yEnter k n i w kind delay e).Inv State.Inv :=
  ⟨(hs.updCore ..).post .., (hs.updCore ..).post ..⟩

theorem State.Inv.yIssue {s : State} (hs : s.Inv) (k : Core) (n : Nat) (i : Instr) (w : Sync) (kind : YKind) (x : Ctx) (delay : Nat)
    (e : Nat → Event) : (s.yIssue k n i w kind x delay e).Inv State.Inv :=
  (hs.yReady ..).bind fun _ _ ht _ => ht.yEnter ..

theorem inv_channelOp {s : State} (hs : s.Inv) (o : OpCh) (w : Sync) (op kind : Nat) (i : Instr) (y : YKind) :
    Canonical (channelOp s o w op kind i y) := by
  unfold channelOp
  refine inv_guarded hs fun k n x => ?_
  split
  exacts [inv_yIllegal hs .., hs.yIssue ..]

theorem inv_chstartOp {s : State} (hs : s.Inv) (o : OpCh) (w : Sync) : Canonical (chstartOp s o w) := by
  unfold chstartOp
  refine inv_guarded hs fun k n x => ?_
  extract_lets
  split
  · exact inv_yIllegal hs ..
  · split
    · exact inv_yIllegal hs ..
    · refine (hs.yReady ..).bind fun t t1 ht ht1 => ?_
      split
      · exact inv_yIllegal ht ..
      · split
        · exact inv_yIllegal ht ..
        · extract_lets
          split
          · exact ht
          · split
            exacts [ht, ht.yEnter ..]

theorem inv_semaddOp {s : State} (hs : s.Inv) (o : OpSem) (w : Sync) : Canonical (semaddOp s o w) := inv_guarded hs fun _ _ _ => hs.yIssue ..

theorem inv_drainOp {s : State} (hs : s.Inv) (o : OpN) (w : Sync) : Canonical (drainOp s o w) := inv_guarded hs fun _ _ _ => hs.yIssue ..

theorem inv_stepOp {s : State} (hs : s.Inv) (o : OpStep) (w : Sync) : Canonical (stepOp s o w) := inv_guarded hs fun _ _ _ => hs.yIssue ..

theorem State.Inv.yDone {s : State} (hs : s.Inv) (c : Nat) (y : YCmd) (err : Bool) : (s.yDone c y err).Inv :=
  (State.inv_ite ((hs.updCore ..).postErr ..) ((hs.updCore ..).post1 ..)).afterCommand ..

/-! ## SEMADD, DRAIN and STEP -/

theorem inv_execSemaddApply {s : State} (hs : s.Inv) : Canonical (execSemaddApply s) := by
  unfold execSemaddApply
  split
  · split
    · exact hs
    · split
      · extract_lets si ss s1 s2 s3
        have hs1 : s1.Inv := hs.updCore ..
        have hs2 : s2.Inv := by
          unfold s2
          split
          exacts [hs1, hs1.signal ..]
        have hs3 : s3.Inv := by
          unfold s3
          split
          exacts [hs1.signal .., hs2.post1 ..]
        exact hs3.afterCommand ..
      · exact hs
      · exact hs
      · exact hs
      · exact hs
      · exact hs
      · exact hs
  · exact hs

theorem inv_execDrainStart {s : State} (hs : s.Inv) : Canonical (execDrainStart s) := by
  unfold execDrainStart
  split
  · split
    · exact hs
    · split
      · split
        · extract_lets lost s1
          have hs1 : s1.Inv := hs.yDone ..
          refine hs1.forEach fun t x ht => ?_
          split
          exacts [ht.postOnce .., ht, ht, ht, ht, ht, ht]
        · exact hs
      · exact hs
      · exact hs
      · exact hs
      · exact hs
      · exact hs
      · exact hs
  · exact hs

theorem State.Inv.stepOn {s : State} (hs : s.Inv) (c : Nat) (y : YCmd) (launch : Bool) : (s.stepOn c y launch).Inv := by
  unfold State.stepOn
  split
  · exact hs
  · split
    · exact hs
    · extract_lets free busy put
      have hput : ∀ (s : State) (r : Release), s.Inv → (put s r).Inv := fun _ _ ht => ht.updCore ..
      split
      · exact hs
      · split
        · split
          · exact hs
          · split
            · next heq => exact (hput _ _ ((hs.startRelease ..).of_fst heq)).postOnce ..
        · split
          · next heq =>
            have ht1 := (hs.pushRelease ..).of_fst heq
            split
            · exact hput _ _ ht1
            · extract_lets s1
              have hs1 : s1.Inv := (ht1.releaseNow ..).updCore ..
              split
              exacts [hs1, hs1.postOnce ..]

theorem inv_execStepBarrierOpen {s : State} (hs : s.Inv) : Canonical (execStepBarrierOpen s) := by
  unfold execStepBarrierOpen
  split
  · split
    · exact hs
    · extract_lets ks s1
      have hs1 : s1.Inv := by
        unfold s1
        split
        exacts [hs, hs.postOnce ..]
      split
      exacts [hs1, hs1.forEach fun _ _ ht => ht.forEach fun _ _ ht1 => (ht1.acquireBy ..).yDone ..]
  · exact hs

/-! ## Point-to-point channels (09 R217, R218) -/

theorem State.Inv.chsendOn {s : State} (hs : s.Inv) (c : Nat) (y : YCmd) (h : Chan) (ch : Nat) : (s.chsendOn c y h ch).Inv := by
  unfold State.chsendOn
  split
  · exact hs
  · extract_lets
    split
    · next heq => exact (((hs.readWords ..).of_fst heq).sendRow ..).updCore ..
    · next heq =>
      have ht1 := (hs.readWords ..).of_fst heq
      extract_lets s1
      have hs1 : s1.Inv := ht1.reportFault ..
      split
      · split
        exacts [hs1.yDone .., (hs1.yDone ..).postOnce ..]
      · exact hs1.updCore ..
    · next heq => exact (hs.readWords ..).of_fst heq
    · next heq => exact (hs.readWords ..).of_fst heq

theorem State.Inv.sendCredit {s : State} (hs : s.Inv) (c : Nat) (h : Chan) : (s.sendCredit c h).Inv := by
  unfold State.sendCredit
  split
  exacts [hs, hs]

theorem inv_execCreditTokenArrival {s : State} (hs : s.Inv) : Canonical (execCreditTokenArrival s) := by
  unfold execCreditTokenArrival
  split
  exacts [(hs.updCore ..).postOnce .., hs]

theorem inv_execChrecvCompletion {s : State} (hs : s.Inv) : Canonical (execChrecvCompletion s) := by
  unfold execChrecvCompletion
  split
  · split
    · exact hs
    · split
      exacts [hs, State.inv_ite ((hs.updCore ..).yDone ..) hs]
  · exact hs

/-! ## FENCE (11 R272, R273) -/

theorem inv_execFence (o : OpFence) {s : State} (hs : s.Inv) : Canonical (execFence o s) := by
  unfold execFence
  refine inv_guarded hs fun k n x => ?_
  extract_lets sc mask f s1 s2
  split
  · exact ⟨hs, hs⟩
  · split
    · exact Try.Inv.bind (Try.inv_ite (v := State.Inv) ⟨hs, hs⟩ (State.Inv.releaseAfter hs ..)) fun _ _ ht _ =>
        ⟨State.Inv.acquireBy ht .., State.Inv.acquireBy ht ..⟩
    · have hs2 : s2.Inv := State.Inv.tryFences (State.Inv.updCtx (State.Inv.updCore hs ..) ..) ..
      exact ⟨hs2, hs2⟩

/-! ## Time (09 R233, R234, 18 R483, 19 R514) -/

theorem inv_execRdtime (o : OpRdtime) {s : State} (hs : s.Inv) : Canonical (execRdtime o s) :=
  inv_slotOp fun _ _ _ => State.inv_ite (hs.writeXY ..) hs

theorem State.Inv.armGate {s : State} (hs : s.Inv) (c i : Nat) (g : Gate) : (s.armGate c i g).Inv := (hs.updCore ..).post ..

theorem inv_execTstart (o : OpTstart) {s : State} (hs : s.Inv) : Canonical (execTstart o s) := by
  unfold execTstart
  refine inv_guarded hs fun k n x => ?_
  extract_lets
  split
  · exact hs
  · split
    exacts [hs.stall, ⟨hs.armGate .., hs.armGate ..⟩]

theorem inv_execTimeGateFire {s : State} (hs : s.Inv) : Canonical (execTimeGateFire s) := by
  unfold execTimeGateFire
  split
  · split
    · exact hs
    · split
      · exact hs
      · split
        exacts [hs.postOnce .., (hs.updCore ..).signal ..]
  · exact hs

/-! ## Memory, as a fabric slice reaches it -/

theorem State.Inv.fabricRead {s : State} (hs : s.Inv) (sl : Nat) (own : Bool) (p : Packet) (va n : Nat) : (s.fabricRead sl own p va n).1.Inv := by
  unfold State.fabricRead
  split
  · exact hs
  · split
    · next heq => exact (hs.translateHome ..).of_fst heq
    · next heq =>
      have ht1 := (hs.translateHome ..).of_fst heq
      split
      · exact ht1
      · split
        · next heq1 => exact (State.inv_homeRead ht1 ..).of_fst heq1

theorem State.Inv.fabricWrite {s : State} (hs : s.Inv) (sl : Nat) (p : Packet) (va n val : Nat) (psn : Bool) :
    (s.fabricWrite sl p va n val psn).1.Inv := by
  unfold State.fabricWrite
  split
  · exact hs
  · split
    · next heq => exact (hs.translateHome ..).of_fst heq
    · next heq =>
      have ht1 := (hs.translateHome ..).of_fst heq
      split
      exacts [ht1, State.inv_homePut ht1 ..]

theorem State.Inv.fabricBytes (sl : Nat) (p : Packet) (va : Nat) : ∀ (n : Nat) {s : State}, s.Inv → (s.fabricBytes sl p va n).1.Inv
  | 0, s, hs => by
    unfold State.fabricBytes
    exact hs
  | n + 1, s, hs => by
    unfold State.fabricBytes
    split
    · next heq =>
      have ht1 := (hs.fabricRead ..).of_fst heq
      split
      · next heq1 => exact (ht1.fabricBytes ..).of_fst heq1
      · exact ht1.fabricBytes ..
    · exact hs.fabricRead ..

theorem State.Inv.fabricPuts (sl : Nat) (p : Packet) (va val : Nat) (psn : Bool) :
    ∀ (n : Nat) {s : State}, s.Inv → (s.fabricPuts sl p va val psn n).1.Inv
  | 0, s, hs => by
    unfold State.fabricPuts
    exact hs
  | n + 1, s, hs => by
    unfold State.fabricPuts
    split
    · next heq => exact ((hs.fabricWrite ..).of_fst heq).fabricPuts ..
    · exact hs.fabricWrite ..

theorem State.Inv.fabricWords (sl : Nat) (p : Packet) (va : Nat) : ∀ (n : Nat) {s : State}, s.Inv → (s.fabricWords sl p va n).1.Inv
  | 0, s, hs => by
    unfold State.fabricWords
    exact hs
  | n + 1, s, hs => by
    unfold State.fabricWords
    split
    · next heq =>
      have ht1 := (hs.fabricRead ..).of_fst heq
      split
      · next heq1 => exact (ht1.fabricWords ..).of_fst heq1
      · exact ht1.fabricWords ..
    · next heq => exact (hs.fabricRead ..).of_fst heq
    · next heq => exact (hs.fabricRead ..).of_fst heq
    · next heq => exact (hs.fabricRead ..).of_fst heq

/-! ## Streams -/

theorem State.Inv.fabricElem {s : State} (hs : s.Inv) (sl : Nat) (p : Packet) (d : Desc) (a : Int) (sub : Nat) :
    (s.fabricElem sl p d a sub).1.Inv := by
  unfold State.fabricElem
  split
  · exact hs
  · extract_lets bits r
    have hr : r.1.Inv := by
      unfold r
      split
      exacts [hs.fabricRead .., hs.fabricBytes ..]
    clear_value r
    split
    exacts [hr, hr]

theorem State.Inv.fabricIdx {s : State} (hs : s.Inv) (sl : Nat) (r : FRun) (t : FStrm) (i : Nat) : (s.fabricIdx sl r t i).1.Inv := by
  unfold State.fabricIdx
  extract_lets
  split
  · exact hs
  · split
    · exact hs
    · split
      · exact hs
      · split
        · exact hs
        · extract_lets
          split
          · next heq =>
            have ht1 := (hs.fabricElem ..).of_fst heq
            split
            exacts [ht1, ht1]
          · next heq => exact (hs.fabricElem ..).of_fst heq
          · next heq => exact (hs.fabricElem ..).of_fst heq
          · next heq => exact (hs.fabricElem ..).of_fst heq

theorem State.Inv.fabricScale {s : State} (hs : s.Inv) (sl : Nat) (r : FRun) (t : FStrm) (i : Nat) : (s.fabricScale sl r t i).1.Inv := by
  unfold State.fabricScale
  extract_lets
  split
  · exact hs
  · split
    · next heq => exact (hs.fabricRead ..).of_fst heq
    · next heq => exact (hs.fabricRead ..).of_fst heq
    · next heq => exact (hs.fabricRead ..).of_fst heq
    · next heq => exact (hs.fabricRead ..).of_fst heq

theorem State.Inv.fabricFetch {s : State} (hs : s.Inv) (sl : Nat) (r : FRun) (t : FStrm) : (s.fabricFetch sl r t).1.Inv := by
  unfold State.fabricFetch
  split
  · exact hs
  · split
    · next heq =>
      have ht1 := (hs.fabricIdx ..).of_fst heq
      split
      · next heq1 =>
        have ht2 := (ht1.fabricScale ..).of_fst heq1
        extract_lets
        split
        · next heq2 => exact (ht2.fabricElem ..).of_fst heq2
        · next heq2 => exact (ht2.fabricElem ..).of_fst heq2
        · next heq2 => exact (ht2.fabricElem ..).of_fst heq2
        · next heq2 => exact (ht2.fabricElem ..).of_fst heq2
      · exact ht1.fabricScale ..
    · exact hs.fabricIdx ..

theorem State.Inv.fabricBits {s : State} (hs : s.Inv) (sl : Nat) (p : Packet) (va sub n val : Nat) (psn : Bool) :
    (s.fabricBits sl p va sub n val psn).1.Inv := by
  unfold State.fabricBits
  split
  · exact hs.fabricWrite ..
  · extract_lets
    split
    · next heq => exact ((hs.fabricBytes ..).of_fst heq).fabricPuts ..
    · next heq => exact (hs.fabricBytes ..).of_fst heq
    · next heq => exact (hs.fabricBytes ..).of_fst heq
    · next heq => exact (hs.fabricBytes ..).of_fst heq

theorem State.Inv.fabricCodes (sl : Nat) (p : Packet) (d : Desc) (i : Nat) (v : Int) :
    ∀ (l : List (Nat × Bool)) {s : State}, s.Inv → (s.fabricCodes sl p d i v l).1.Inv
  | [], s, hs => by
    unfold State.fabricCodes
    exact hs
  | (code, x) :: l, s, hs => by
    unfold State.fabricCodes
    extract_lets
    split
    · exact hs
    · split
      · next heq => exact ((hs.fabricBits ..).of_fst heq).fabricCodes ..
      · exact hs.fabricBits ..

theorem State.Inv.fabricGroup {s : State} (hs : s.Inv) (sl : Nat) (r : FRun) (t : FStrm) : (s.fabricGroup sl r t).1.Inv := by
  unfold State.fabricGroup
  extract_lets d es i ws rest b
  split
  · exact hs
  · split
    · next heq =>
      have ht1 := (hs.fabricIdx ..).of_fst heq
      extract_lets w
      have hw : w.1.Inv := by
        unfold w
        split
        · split
          · next heq1 => exact ((ht1.fabricWrite ..).of_fst heq1).fabricCodes ..
          · exact ht1.fabricWrite ..
        · exact ht1.fabricCodes ..
      clear_value w
      split
      exacts [hw, hw, hw, hw]
    · exact hs.fabricIdx ..

/-! ## The invocation -/

theorem State.Inv.fabricEnd {s : State} (hs : s.Inv) (sl status addr : Nat) (r : FRun) : (s.fabricEnd sl status addr r).Inv :=
  ((hs.updSlice ..).postOpen ..).postOnce ..

theorem State.Inv.fabricDescs (sl : Nat) (r : FRun) : ∀ (l : List Nat) {s : State}, s.Inv → (s.fabricDescs sl r l).1.Inv
  | [], s, hs => by
    unfold State.fabricDescs
    exact hs
  | j :: js, s, hs => by
    unfold State.fabricDescs
    extract_lets
    split
    · exact hs.fabricDescs ..
    · split
      · exact hs
      · split
        · next heq =>
          have ht1 := (hs.fabricWords ..).of_fst heq
          split
          exacts [ht1, ht1.fabricDescs ..]
        · next heq => exact (hs.fabricWords ..).of_fst heq
        · next heq => exact (hs.fabricWords ..).of_fst heq
        · next heq => exact (hs.fabricWords ..).of_fst heq

theorem State.Inv.fabricBegin {s : State} (hs : s.Inv) (sl : Nat) (r : FRun) : (s.fabricBegin sl r).1.Inv := by
  unfold State.fabricBegin
  extract_lets
  split
  · exact hs
  · split
    · exact hs
    · split
      · next heq =>
        have ht1 := (hs.fabricDescs ..).of_fst heq
        split
        · exact ht1
        · split
          · next heq1 =>
            have ht2 := (ht1.fabricWords ..).of_fst heq1
            split
            · exact ht2
            · extract_lets
              split
              exacts [ht2.updSlice .., ht2.updSlice ..]
          · next heq1 => exact (ht1.fabricWords ..).of_fst heq1
          · next heq1 => exact (ht1.fabricWords ..).of_fst heq1
          · next heq1 => exact (ht1.fabricWords ..).of_fst heq1
      · next heq => exact (hs.fabricDescs ..).of_fst heq
      · next heq => exact (hs.fabricDescs ..).of_fst heq
      · next heq => exact (hs.fabricDescs ..).of_fst heq

theorem inv_execFabricInvocationStart {s : State} (hs : s.Inv) : Canonical (execFabricInvocationStart s) := by
  unfold execFabricInvocationStart
  split
  · split
    · exact hs
    · split
      · extract_lets s1 s2
        have hs1 : s1.Inv := hs.updSlice ..
        have hs2 : s2.Inv := by
          unfold s2
          split
          exacts [hs1, hs1.ackRows ..]
        split
        · next heq => exact (((hs2.fabricBegin ..).of_fst heq).updSlice ..).post ..
        · next heq => exact ((hs2.fabricBegin ..).of_fst heq).fabricEnd ..
        · next heq => exact ((hs2.fabricBegin ..).of_fst heq).fabricEnd ..
        · next heq => exact (hs2.fabricBegin ..).of_fst heq
      · exact hs
  · exact hs

theorem State.Inv.fabricLoads (sl : Nat) (g : GRun) (r : FRun) : ∀ (l : List Nat) {s : State}, s.Inv → (s.fabricLoads sl g r l).1.Inv
  | [], s, hs => by
    unfold State.fabricLoads
    exact hs
  | p :: ps, s, hs => by
    unfold State.fabricLoads
    split
    · split
      · exact hs.fabricLoads ..
      · split
        · next heq => exact ((hs.fabricFetch ..).of_fst heq).fabricLoads ..
        · next heq => exact (hs.fabricFetch ..).of_fst heq
        · next heq => exact (hs.fabricFetch ..).of_fst heq
        · next heq => exact (hs.fabricFetch ..).of_fst heq
    · exact hs.fabricLoads ..

theorem State.Inv.fabricStores (sl : Nat) (g : GRun) (r : FRun) : ∀ (l : List (Nat × PWord)) {s : State}, s.Inv → (s.fabricStores sl g r l).1.Inv
  | [], s, hs => by
    unfold State.fabricStores
    exact hs
  | (p, w) :: ps, s, hs => by
    unfold State.fabricStores
    split
    · extract_lets
      split
      · exact hs.fabricStores ..
      · split
        · next heq => exact ((hs.fabricGroup ..).of_fst heq).fabricStores ..
        · next heq => exact (hs.fabricGroup ..).of_fst heq
        · next heq => exact (hs.fabricGroup ..).of_fst heq
        · next heq => exact (hs.fabricGroup ..).of_fst heq
    · exact hs.fabricStores ..

theorem State.Inv.fabricFlush (sl : Nat) (g : GRun) (r : FRun) (status : Nat × Nat) :
    ∀ (l : List Nat) {s : State}, s.Inv → (s.fabricFlush sl g r status l).1.Inv
  | [], s, hs => by
    unfold State.fabricFlush
    exact hs
  | p :: ps, s, hs => by
    unfold State.fabricFlush
    split
    · exact hs.fabricFlush ..
    · split
      · exact hs.fabricFlush ..
      · split
        · next heq => exact ((hs.fabricGroup ..).of_fst heq).fabricFlush ..
        · next heq => exact ((hs.fabricGroup ..).of_fst heq).fabricFlush ..
        · next heq => exact ((hs.fabricGroup ..).of_fst heq).fabricFlush ..
        · next heq => exact ((hs.fabricGroup ..).of_fst heq).fabricFlush ..

theorem State.Inv.fabricTick {s : State} (hs : s.Inv) (sl : Nat) (x : Slice) (r : FRun) (g : GRun) : (s.fabricTick sl x r g).Inv := by
  unfold State.fabricTick
  extract_lets ii stop turn g'
  have hstop : ∀ (s : State) (r : FRun) (c a : Nat), s.Inv → (stop s r c a).Inv := by
    intro t x1 x2 x3 ht
    unfold stop
    split
    · next heq => exact ((ht.fabricFlush ..).of_fst heq).fabricEnd ..
  split
  · split
    exacts [hstop _ _ _ _ hs, (hs.updSlice ..).post ..]
  · split
    · next heq =>
      have ht1 := (hs.fabricLoads ..).of_fst heq
      split
      · exact ht1
      · extract_lets
        split
        · next heq1 => exact (((ht1.fabricStores ..).of_fst heq1).updSlice ..).post ..
        · next heq1 => exact hstop _ _ _ _ ((ht1.fabricStores ..).of_fst heq1)
        · next heq1 => exact hstop _ _ _ _ ((ht1.fabricStores ..).of_fst heq1)
        · next heq1 => exact (ht1.fabricStores ..).of_fst heq1
    · next heq => exact hstop _ _ _ _ ((hs.fabricLoads ..).of_fst heq)
    · next heq => exact hstop _ _ _ _ ((hs.fabricLoads ..).of_fst heq)
    · next heq => exact (hs.fabricLoads ..).of_fst heq

theorem inv_execFabricInvocationEnd {s : State} (hs : s.Inv) : Canonical (execFabricInvocationEnd s) := by
  unfold execFabricInvocationEnd
  split
  · split
    · exact hs
    · split
      exacts [hs.fabricTick .., hs]
  · exact hs

/-! ## Loads and stores -/

theorem inv_loadInto {s : State} (hs : s.Inv) (o : MemOp) : (loadInto s o).Inv State.Inv :=
  (hs.checkAddr ..).bind fun _ _ ht _ => (ht.stashLoad ..).bind fun _ _ ht2 _ => ⟨ht2.writeXY .., ht2.writeXY ..⟩

theorem inv_ldOp {s : State} (hs : s.Inv) (o : MemOp) : Canonical (ldOp s o) := inv_guarded hs fun _ _ _ => inv_loadInto hs ..

theorem inv_ldaOp {s : State} (hs : s.Inv) (o : MemOp) : Canonical (ldaOp s o) :=
  inv_guarded hs fun _ _ _ => (inv_loadInto hs ..).bind fun _ _ ht _ => ⟨ht.updIssuer .., ht.updIssuer ..⟩

theorem inv_chkaOp {s : State} (hs : s.Inv) (o : MemOp) : Canonical (chkaOp s o) := by
  unfold chkaOp
  refine inv_guarded hs fun k n x => ?_
  split
  exacts [⟨hs, hs⟩, inv_loadInto hs ..]

theorem inv_ldacqOp {s : State} (hs : s.Inv) (o : MemOp) : Canonical (ldacqOp s o) := by
  unfold ldacqOp
  refine inv_guarded hs fun _ _ _ => (hs.checkAddr ..).bind fun t t1 ht ht1 => ?_
  split
  · next heq => exact (ht.translate ..).of_fst heq
  · next heq =>
    have ht2 := (ht.translate ..).of_fst heq
    extract_lets s1
    have hs1 : s1.Inv := ht2.evictWords ..
    split
    · next heq1 =>
      have ht3 := (State.inv_homeRead hs1 ..).of_fst heq1
      exact ⟨(((ht3.sameMem (by rfl)).writeXY ..).acquireBy ..).updCore .., (((ht3.sameMem (by rfl)).writeXY ..).acquireBy ..).updCore ..⟩

theorem inv_stOp {s : State} (hs : s.Inv) (o : MemOp) : Canonical (stOp s o) :=
  inv_guarded hs fun _ _ _ => (hs.checkAddr ..).bind fun _ _ ht _ => ht.stashStore ..

theorem inv_strelOp {s : State} (hs : s.Inv) (o : MemOp) : Canonical (strelOp s o) := by
  unfold strelOp
  refine inv_guarded hs fun _ _ _ => (hs.checkAddr ..).bind fun t t1 ht ht1 => ?_
  split
  · next heq => exact (ht.translate ..).of_fst heq
  · next heq =>
    have ht2 := (ht.translate ..).of_fst heq
    exact (ht2.releaseAll ..).bind fun _ _ ht3 _ => ⟨(State.inv_homePut (ht3.evictWords ..) ..).updCtx ..,
      (State.inv_homePut (ht3.evictWords ..) ..).updCtx ..⟩

end Sys2Proof.Machine
end

section
/-! SUPPORT. The canonical form of memory through rings, links and the Draft (09 R219 to R231, 08 R201, R202). -/

namespace Sys2Proof.Machine

/-! ## Instances -/

theorem State.Inv.updChan {s : State} (hs : s.Inv) (c ch : Nat) (f : Chan → Chan) : (s.updChan c ch f).Inv := hs.updCore ..

theorem State.Inv.updRing {s : State} (hs : s.Inv) (c ch : Nat) (f : RingRun → RingRun) : (s.updRing c ch f).Inv := hs.updChan ..

theorem State.Inv.emptyPool {s : State} (hs : s.Inv) (c : Nat) (h : Chan) : (s.emptyPool c h).Inv := by
  unfold State.emptyPool
  split
  exacts [hs, hs.updPort ..]

theorem State.Inv.newInstance {s : State} (hs : s.Inv) (c ch id ctx : Nat) (sync : Sync) : (s.newInstance c ch id ctx sync).Inv := by
  unfold State.newInstance
  split
  · exact hs
  · split
    exacts [hs.postErr .., (hs.updChan ..).postOnce ..]

/-! ## Aborts (09 R225, R226) -/

theorem State.Inv.sendToken {s : State} (hs : s.Inv) (port : Nat) (t : Token) : (s.sendToken port t).Inv := by
  unfold State.sendToken
  split
  · exact hs
  · split
    exacts [hs, hs]

/-! ## Steps (09 R220) -/

theorem State.Inv.sendRing {s : State} (hs : s.Inv) (c dport : Nat) (h : Chan) (r : RingRun) (step row : Nat) (wide : Bool) (ws : List PWord) :
    (s.sendRing c dport h r step row wide ws).Inv :=
  hs.linkSend ..

theorem State.Inv.sendFirst {s : State} (hs : s.Inv) (c dport : Nat) (h : Chan) (r : RingRun) : (s.sendFirst c dport h r).Inv :=
  hs.forEach fun _ _ ht => State.inv_ite (ht.sendRing ..) (ht.sendRing ..)

theorem State.Inv.ringRow {s : State} (hs : s.Inv) (c ch dport : Nat) (h : Chan) (r : RingRun) (p : Packet) : (s.ringRow c ch dport h r p).Inv := by
  unfold State.ringRow
  extract_lets step j last op base ws r' ws' base' f got full src s1
  have hf : f.2.Inv := by
    unfold f
    split
    · split
      · split
        · exact State.Inv.sendRing hs ..
        · exact State.inv_ite (State.Inv.sendRing hs ..) hs
      · exact State.Inv.sendRing hs ..
    · exact State.inv_ite (State.Inv.sendRing hs ..) hs
  have hs1 : s1.Inv := State.Inv.updRing hf ..
  exact State.inv_ite (State.Inv.postOnce hs1 ..) hs1

theorem State.Inv.stale {s : State} (hs : s.Inv) (port : Nat) : (s.stale port).Inv := hs.updPort ..

theorem State.Inv.ringArrive {s : State} (hs : s.Inv) (port : Nat) (p : Packet) : OptInv (s.ringArrive port p) := by
  unfold State.ringArrive
  split
  · exact hs.stale ..
  · extract_lets i pooled pool
    have hpool : OptInv pool := by
      unfold pool
      split
      exacts [trivial, hs.updPort ..]
    split
    · exact hs.stale ..
    · split
      · split
        exacts [hpool, hs.stale ..]
      · split
        · split
          · exact hpool
          · split
            · split
              exacts [trivial, hs.updRing ..]
            · split
              exacts [hs.stale .., hs.ringRow ..]
        · split
          exacts [hpool, hs.stale ..]

theorem State.Inv.settleRing (port : Nat) : ∀ (l : List Packet) {s : State}, s.Inv → (s.settleRing port l).Inv
  | [], s, hs => by
    unfold State.settleRing
    exact hs.updPort ..
  | p :: l, s, hs => by
    unfold State.settleRing
    split
    · next heq => exact ((hs.ringArrive ..).of_eq heq).settleRing ..
    · exact hs.updPort ..

theorem State.Inv.settleRings {s : State} (hs : s.Inv) : (s.settleRings).Inv := by
  unfold State.settleRings
  refine hs.forEach fun t x ht => ?_
  split
  · exact ht
  · split
    exacts [ht, ht.settleRing ..]

theorem inv_execRingPacketArrival {s : State} (hs : s.Inv) : Canonical (execRingPacketArrival s) := by
  unfold execRingPacketArrival
  split
  · split
    · exact hs
    · split
      exacts [hs.settleRing .., hs]
  · exact hs

theorem State.Inv.abortRing {s : State} (hs : s.Inv) (c ch : Nat) (tokens : Bool) : (s.abortRing c ch tokens).Inv := by
  unfold State.abortRing
  split
  · exact hs
  · split
    · exact hs
    · extract_lets g s1 s2 s3 s4 s5
      have hs1 : s1.Inv := hs.emptyPool ..
      have hs2 : s2.Inv := by
        unfold s2
        clear_value g
        split
        · exact hs
        · split
          exacts [(hs1.sendToken ..).sendToken .., hs1]
      have hs3 : s3.Inv := by
        unfold s3
        split
        exacts [hs2, hs2.postErr ..]
      have hs4 : s4.Inv := by
        unfold s4
        split
        exacts [hs3, hs3.postErr ..]
      have hs5 : s5.Inv := hs4.updChan ..
      exact ((hs5.afterCommand ..).tellLaunch ..).settleRings.wakeRings

theorem State.Inv.ringEarly (c ch : Nat) : ∀ (l : List Packet) {s : State}, s.Inv → (s.ringEarly c ch l).Inv
  | [], s, hs => by
    unfold State.ringEarly
    exact hs
  | p :: l, s, hs => by
    unfold State.ringEarly
    split
    · exact hs
    · split
      exacts [(hs.ringRow ..).ringEarly .., hs]

theorem State.Inv.ringLoaded {s : State} (hs : s.Inv) (c ch : Nat) (h : Chan) (r : RingRun) (g : Ring) : (s.ringLoaded c ch h r g).Inv := by
  unfold State.ringLoaded
  extract_lets r1 early mine pooled s1 s2
  have hs1 : s1.Inv := hs.updPort ..
  have hs2 : s2.Inv := hs1.updRing ..
  split
  exacts [hs2.postOnce .., ((hs2.sendFirst ..).ringEarly ..).settleRings]

theorem State.Inv.ringLoad {s : State} (hs : s.Inv) (c ch : Nat) (h : Chan) (r : RingRun) (g : Ring) : (s.ringLoad c ch h r g).Inv := by
  unfold State.ringLoad
  split
  · exact hs.ringLoaded ..
  · split
    · next heq =>
      have ht1 := (hs.readWords ..).of_fst heq
      split
      exacts [(ht1.abortRing ..).poisonLater .., (ht1.updRing ..).post ..]
    · next heq => exact (((hs.readWords ..).of_fst heq).abortRing ..).notice ..
    · next heq => exact (hs.readWords ..).of_fst heq
    · next heq => exact (hs.readWords ..).of_fst heq

theorem inv_execRingInstanceStart {s : State} (hs : s.Inv) : Canonical (execRingInstanceStart s) := by
  unfold execRingInstanceStart
  split
  · split
    · exact hs
    · split
      · split
        · exact hs
        · split
          · exact hs.ringLoad ..
          · split
            exacts [hs, (((hs.updRing ..).post ..).post ..).settleRings]
      · exact hs
  · exact hs

theorem State.Inv.ringWrite {s : State} (hs : s.Inv) (c ch : Nat) (h : Chan) (r : RingRun) : (s.ringWrite c ch h r).Inv :=
  (hs.updRing ..).forEach fun _ _ ht => (ht.sameMem (by rfl)).post ..

theorem State.Inv.ringDone {s : State} (hs : s.Inv) (c ch : Nat) (h : Chan) (r : RingRun) : (s.ringDone c ch h r).Inv := by
  unfold State.ringDone
  extract_lets s1 s2 s3
  have hs1 : s1.Inv := hs.updChan ..
  have hs2 : s2.Inv := by
    unfold s2
    split
    exacts [hs1.postErr .., hs1.post1 ..]
  have hs3 : s3.Inv := by
    unfold s3
    split
    exacts [hs2, hs2.newInstance ..]
  exact (hs3.afterCommand ..).wakeRings

theorem inv_execRingInstanceCompletion {s : State} (hs : s.Inv) : Canonical (execRingInstanceCompletion s) := by
  unfold execRingInstanceCompletion
  split
  · split
    · exact hs
    · split
      · exact hs
      · split
        · exact hs
        · split
          · exact hs.ringWrite ..
          · split
            exacts [hs, hs.ringDone ..]
  · exact hs

theorem inv_execRemoteTimeout {s : State} (hs : s.Inv) : Canonical (execRemoteTimeout s) := by
  unfold execRemoteTimeout
  split
  · split
    · exact hs
    · split
      · exact hs
      · split
        · exact hs
        · split
          exacts [hs.postOnce .., (hs.abortRing ..).notice ..]
  · exact hs

theorem inv_execAbortTokenArrival {s : State} (hs : s.Inv) : Canonical (execAbortTokenArrival s) := by
  unfold execAbortTokenArrival
  split
  · split
    · exact hs
    · split
      exacts [hs, ((hs.updChan ..).abortRing ..).sendToken ..]
  · exact hs

/-! ## Commits (09 R227, 22 R568) -/

theorem inv_execRingCommit {s : State} (hs : s.Inv) : Canonical (execRingCommit s) := by
  unfold execRingCommit
  split
  exacts [hs.forEach fun _ _ ht => ((ht.forEach fun _ _ ht1 => ht1.abortRing ..).updPart ..).post .., hs]

theorem State.Inv.readRing {s : State} (hs : s.Inv) (p n : Nat) : (s.readRing p n).1.Inv := by
  unfold State.readRing
  split
  · exact hs
  · extract_lets
    split
    · exact hs
    · split
      · next heq => exact (hs.translateHome ..).of_fst heq
      · next heq =>
        have ht1 := (hs.translateHome ..).of_fst heq
        split
        · next heq1 => exact (State.inv_homeRead ht1 ..).of_fst heq1

theorem inv_execRingCommitReread {s : State} (hs : s.Inv) : Canonical (execRingCommitReread s) := by
  unfold execRingCommitReread
  split
  · split
    · exact hs
    · split
      · exact hs
      · extract_lets s1 lim due
        have hs1 : s1.Inv := hs.forEach fun _ _ ht => ht.abortRing ..
        split
        · exact hs1
        · split
          · next heq =>
            have ht1 := (hs1.readRing ..).of_fst heq
            extract_lets chans flows s2 s3 s4
            have hs2 : s2.Inv := ht1.forEach fun _ _ ht => ht.updPort ..
            have hs3 : s3.Inv := hs2.forEach fun _ _ ht => ht.updChan ..
            have hs4 : s4.Inv := hs3.updPart ..
            exact hs4.settleRings
  · exact hs

/-! ## The start of channel commands (09 R215 to R217, R222, R226) -/

theorem State.Inv.yTry {s : State} (hs : s.Inv) (c : Nat) (y : YCmd) : (s.yTry c y).Inv := by
  unfold State.yTry
  split
  · exact hs
  · extract_lets held s1 s2
    have hs1 : s1.Inv := hs.updCore ..
    have hs2 : s2.Inv := hs.updCore ..
    split
    · exact hs
    · split
      · split
        · exact hs
        · split
          · exact hs
          · split
            · exact hs.chsendOn ..
            · split
              exacts [hs, (hs1.updChan ..).chsendOn ..]
      · split
        · exact hs
        · split
          exacts [hs, (State.inv_ite (hs1.sendCredit ..) hs1).postOnce ..]
      · split
        · exact hs
        · split
          exacts [hs2.newInstance .., hs2.updChan .., (hs2.postErr ..).afterCommand ..]
      · exact (hs.abortRing ..).yDone ..
      · split
        exacts [hs, hs.postOnce ..]
      · exact hs.postOnce ..
      · exact hs.stepOn ..

theorem inv_execChannelCommandStart {s : State} (hs : s.Inv) : Canonical (execChannelCommandStart s) := by
  unfold execChannelCommandStart
  split
  · split
    · exact hs
    · refine hs.forEach fun t x ht => ?_
      split
      exacts [ht, ht.yTry ..]
  · exact hs

/-! ## Links (09 R229 to R231, 13 R312) -/

theorem inv_execLinkTraining {s : State} (hs : s.Inv) : Canonical (execLinkTraining s) := by
  unfold execLinkTraining
  split
  · split
    · exact hs
    · split
      exacts [hs, ((hs.updPort ..).sameMem (by rfl)).forEach fun _ _ ht => State.inv_ite ht (ht.emit ..)]
  · exact hs

theorem inv_execLinkTimeout {s : State} (hs : s.Inv) : Canonical (execLinkTimeout s) := by
  unfold execLinkTimeout
  split
  · split
    · exact hs
    · split
      · exact hs
      · split
        · exact hs.postOnce ..
        · extract_lets ls s1 s2
          have hs1 : s1.Inv := hs.updPort ..
          have hs2 : s2.Inv := hs1.forEach fun _ _ ht => (ht.updLaunch ..).postOnce ..
          split
          exacts [hs2, hs2.notice ..]
  · exact hs

theorem inv_execLinkPacketArrival {s : State} (hs : s.Inv) : Canonical (execLinkPacketArrival s) := by
  unfold execLinkPacketArrival
  split
  · split
    · exact hs
    · split
      · exact hs
      · extract_lets s1 s2 src s3
        have hs1 : s1.Inv := hs.updPort ..
        have hs2 : s2.Inv := hs.updPort ..
        have hs3 : s3.Inv := hs1.updPort ..
        split
        · split
          exacts [hs.updPort .., hs2]
        · split
          exacts [hs3, hs3.postOnce ..]
        · exact State.inv_ite (hs1.post ..) (hs1.post ..)
  · exact hs

/-! ## The Draft -/

theorem State.Inv.loadDraft {s : State} (hs : s.Inv) (q : Launch) (l : List DraftRec) : (s.loadDraft q l).Inv :=
  hs.forEach fun _ _ ht => ht.updRouter ..

end Sys2Proof.Machine
end

section
/-! SUPPORT. The canonical form of memory through work, placement and scheduling (02). -/

namespace Sys2Proof.Machine

/-! ## What the scheduler reads and writes, under a partition's page tables -/

theorem State.Inv.partWords (p : Nat) : ∀ (fuel : Nat) (va : Nat) (n : Nat) {s : State}, s.Inv → (s.partWords p fuel va n).1.Inv
  | 0, _, _, s, hs => by
    unfold State.partWords
    exact hs
  | fuel + 1, va, n, s, hs => by
    unfold State.partWords
    split
    · exact hs
    · split
      · exact hs
      · split
        · next heq => exact (hs.translateHome ..).of_fst heq
        · next heq =>
          have ht1 := (hs.translateHome ..).of_fst heq
          extract_lets
          split
          · next heq1 =>
            have ht2 := (State.inv_homeWords _ _ _ _ ht1).of_fst heq1
            split
            · next heq2 => exact (ht2.partWords ..).of_fst heq2
            · next heq2 => exact (ht2.partWords ..).of_fst heq2

theorem State.Inv.readPart {s : State} (hs : s.Inv) (p va n : Nat) : (s.readPart p va n).1.Inv := by
  unfold State.readPart
  split
  · exact hs.partWords ..
  · split
    · next heq => exact (hs.partWords ..).of_fst heq
    · next heq => exact (hs.partWords ..).of_fst heq

theorem State.Inv.writePart {s : State} (hs : s.Inv) (p va : Nat) (w : PWord) : (s.writePart p va w).1.Inv := by
  unfold State.writePart
  split
  · exact hs
  · split
    · next heq => exact (hs.translateHome ..).of_fst heq
    · next heq => exact State.inv_homePut ((hs.translateHome ..).of_fst heq) ..

theorem State.Inv.writesPart (p va : Nat) : ∀ (l : List PWord) {s : State}, s.Inv → (s.writesPart p va l).1.Inv
  | [], s, hs => by
    unfold State.writesPart
    exact hs
  | w :: ws, s, hs => by
    unfold State.writesPart
    split
    · next heq => exact (hs.writePart ..).of_fst heq
    · next heq => exact ((hs.writePart ..).of_fst heq).writesPart ..

/-! ## Queues (02 R28 to R34, R571) -/

theorem State.Inv.queueFault {s : State} (hs : s.Inv) (p q : Nat) (f : Nat × Word64) : (s.queueFault p q f).Inv := by
  unfold State.queueFault
  split
  exacts [hs, (State.inv_ite hs (hs.notice ..)).updPart ..]

theorem State.Inv.readQueue {s : State} (hs : s.Inv) (p q : Nat) : (s.readQueue p q).1.Inv := by
  unfold State.readQueue
  split
  · exact hs
  · split
    · next heq => exact ((hs.readPart ..).of_fst heq).queueFault ..
    · next heq => exact (hs.readPart ..).of_fst heq

theorem State.Inv.setQueueErr {s : State} (hs : s.Inv) (p q : Nat) : (s.setQueueErr p q).Inv := by
  unfold State.setQueueErr
  split
  · exact hs
  · split
    · next heq => exact ((hs.readPart ..).of_fst heq).writePart ..
    · next heq => exact (hs.readPart ..).of_fst heq

theorem State.Inv.readHead {s : State} (hs : s.Inv) (p q : Nat) : (s.readHead p q).1.Inv := by
  unfold State.readHead
  split
  · next heq => exact (hs.readQueue ..).of_fst heq
  · next heq =>
    have ht1 := (hs.readQueue ..).of_fst heq
    extract_lets s1 whole
    have hs1 : s1.Inv := by
      unfold s1
      split
      exacts [ht1.setQueueErr .., ht1]
    have hwhole : ∀ (s : State), s.Inv → (whole s).Inv := fun _ ht => ht.updPart ..
    split
    · exact hs1
    · split
      · exact hwhole _ hs1
      · split
        · next heq1 => exact ((hs1.readPart ..).of_fst heq1).queueFault ..
        · next heq1 => exact hwhole _ ((hs1.readPart ..).of_fst heq1)

theorem State.Inv.lookQueue {s : State} (hs : s.Inv) (p q : Nat) : (s.lookQueue p q).1.Inv := by
  unfold State.lookQueue
  split
  · next heq => exact (hs.readHead ..).of_fst heq
  · next heq => exact ((hs.readHead ..).of_fst heq).updPart ..

theorem inv_execQtailWrite {s : State} (hs : s.Inv) : Canonical (execQtailWrite s) := by
  unfold execQtailWrite
  split
  · split
    · exact hs
    · split
      · exact hs
      · split
        · exact hs
        · extract_lets s1
          have hs1 : s1.Inv := hs.updPart ..
          split
          · next heq => exact ((hs1.readQueue ..).of_fst heq).updPart ..
          · next heq =>
            have ht1 := (hs1.readQueue ..).of_fst heq
            split
            exacts [ht1.setQueueErr .., ((ht1.updPart ..).lookQueue ..).postOnce ..]
  · exact hs

/-! ## Entries and images (02 R21 to R23, R30) -/

theorem State.Inv.imagePart {s : State} (hs : s.Inv) (p va n : Nat) : (s.imagePart p va n).1.Inv := by
  unfold State.imagePart
  split
  · next heq => exact (hs.readPart ..).of_fst heq
  · next heq => exact (hs.readPart ..).of_fst heq

theorem State.Inv.coreRec {s : State} (hs : s.Inv) (p limg cores : Nat) (ws : List PWord) : (s.coreRec p limg cores ws).1.Inv := by
  have hstep (a : State × Bool) (t : Nat) (ha : a.1.Inv) :
      (match a.1.readPart p (limg + t) 1 with
        | (s, .inl _) => (s, a.2)
        | (s, .inr _) => (s, false)).1.Inv := by
    split
    · next heq => exact (ha.readPart ..).of_fst heq
    · next heq => exact (ha.readPart ..).of_fst heq
  unfold State.coreRec
  extract_lets
  split
  · exact hs
  · split
    · next heq => exact (State.inv_foldl_fst hstep _ hs).of_fst heq
    · next heq =>
      have ht1 := (State.inv_foldl_fst hstep _ hs).of_fst heq
      split
      · exact ht1
      · split
        · next heq1 => exact (ht1.imagePart ..).of_fst heq1
        · next heq1 => exact (ht1.imagePart ..).of_fst heq1

theorem State.Inv.coreRecs (p limg cores : Nat) : ∀ (l : List (List PWord)) {s : State}, s.Inv → (s.coreRecs p limg cores l).1.Inv
  | [], s, hs => by
    unfold State.coreRecs
    exact hs
  | w :: ws, s, hs => by
    unfold State.coreRecs
    split
    · next heq => exact (hs.coreRec ..).of_fst heq
    · next heq =>
      have ht1 := (hs.coreRec ..).of_fst heq
      split
      · next heq1 => exact (ht1.coreRecs ..).of_fst heq1
      · next heq1 => exact (ht1.coreRecs ..).of_fst heq1

theorem State.Inv.gridImages (p limg : Nat) : ∀ (l : List (List PWord)) {s : State}, s.Inv → (s.gridImages p limg l).1.Inv
  | [], s, hs => by
    unfold State.gridImages
    exact hs
  | w :: ws, s, hs => by
    unfold State.gridImages
    split
    · exact hs
    · split
      · next heq => exact (hs.readPart ..).of_fst heq
      · next heq =>
        have ht1 := (hs.readPart ..).of_fst heq
        split
        · next heq1 => exact (ht1.gridImages ..).of_fst heq1
        · next heq1 => exact (ht1.gridImages ..).of_fst heq1

theorem State.Inv.readImage {s : State} (hs : s.Inv) (p limg : Nat) : (s.readImage p limg).1.Inv := by
  unfold State.readImage
  split
  · next heq => exact (hs.imagePart ..).of_fst heq
  · next heq =>
    have ht1 := (hs.imagePart ..).of_fst heq
    extract_lets
    split
    · exact ht1
    · split
      · next heq1 => exact (ht1.imagePart ..).of_fst heq1
      · next heq1 =>
        have ht2 := (ht1.imagePart ..).of_fst heq1
        split
        · exact ht2
        · split
          · exact ht2
          · split
            · next heq2 => exact (ht2.imagePart ..).of_fst heq2
            · next heq2 =>
              have ht3 := (ht2.imagePart ..).of_fst heq2
              split
              · next heq3 => exact (ht3.coreRecs ..).of_fst heq3
              · next heq3 =>
                have ht4 := (ht3.coreRecs ..).of_fst heq3
                split
                · exact ht4
                · split
                  · next heq4 => exact (ht4.imagePart ..).of_fst heq4
                  · next heq4 =>
                    have ht5 := (ht4.imagePart ..).of_fst heq4
                    split
                    · next heq5 => exact (ht5.gridImages ..).of_fst heq5
                    · next heq5 => exact (ht5.gridImages ..).of_fst heq5

/-! ## Completion records and signals (02 R35, R45 to R47) -/

theorem State.Inv.complete {s : State} (hs : s.Inv) (p : Nat) (e : Entry) (status killed first tstart : Nat) :
    (s.complete p e status killed first tstart).Inv := by
  unfold State.complete
  extract_lets w s1 s2 s3
  have hs1 : s1.Inv := by
    unfold s1
    split
    · exact hs
    · split
      · next heq => exact (hs.writesPart ..).of_fst heq
      · exact hs.notice ..
  have hs2 : s2.Inv := by
    unfold s2
    split
    exacts [hs1, hs1.updPart ..]
  have hs3 : s3.Inv := by
    unfold s3
    split
    exacts [hs2, hs2]
  exact hs3.postOnce ..

theorem State.Inv.completeUnrun {s : State} (hs : s.Inv) (p : Nat) (e : Entry) (status : Nat) : (s.completeUnrun p e status).Inv := hs.complete ..

theorem inv_execLaunchSemaphoreWrite {s : State} (hs : s.Inv) : Canonical (execLaunchSemaphoreWrite s) := by
  unfold execLaunchSemaphoreWrite
  split
  · split
    · exact hs
    · split
      · exact hs
      · split
        exacts [hs, (hs.updPart ..).postOnce ..]
  · exact hs

/-! ## Dispatch (02 R32, R33) -/

theorem State.Inv.readyHead {s : State} (hs : s.Inv) (p q : Nat) : (s.readyHead p q).1.Inv := by
  unfold State.readyHead
  split
  · next heq => exact (hs.readHead ..).of_fst heq
  · next heq => exact (hs.readHead ..).of_fst heq

theorem State.Inv.bestQueue (p : Nat) : ∀ (l : List Nat) (best : Option (Nat × QDesc × Entry)) {s : State}, s.Inv → (s.bestQueue p l best).1.Inv
  | [], best, s, hs => by
    unfold State.bestQueue
    exact hs
  | q :: qs, best, s, hs => by
    unfold State.bestQueue
    split
    · exact hs
    · split
      · exact hs.bestQueue ..
      · split
        · next heq => exact ((hs.readyHead ..).of_fst heq).bestQueue ..
        · next heq =>
          have ht1 := (hs.readyHead ..).of_fst heq
          split
          exacts [ht1.bestQueue .., ht1.bestQueue ..]

theorem State.Inv.judgeEntry {s : State} (hs : s.Inv) (p lseq : Nat) (e : Entry) : (s.judgeEntry p lseq e).Inv := by
  unfold State.judgeEntry
  split
  · exact hs.completeUnrun ..
  · split
    · split
      · exact hs.completeUnrun ..
      · split
        · next heq => exact ((hs.readImage ..).of_fst heq).completeUnrun ..
        · next heq =>
          have ht1 := (hs.readImage ..).of_fst heq
          split
          exacts [ht1.completeUnrun .., (ht1.updPart ..).postOnce ..]
    · split
      · exact hs.completeUnrun ..
      · split
        · next heq => exact ((hs.readImage ..).of_fst heq).completeUnrun ..
        · next heq =>
          have ht1 := (hs.readImage ..).of_fst heq
          split
          exacts [ht1.completeUnrun .., (ht1.updPart ..).postOnce ..]

theorem inv_execDispatch {s : State} (hs : s.Inv) : Canonical (execDispatch s) := by
  unfold execDispatch
  split
  · split
    · exact hs
    · split
      · exact hs
      · split
        · next heq => exact (hs.bestQueue ..).of_fst heq
        · next heq =>
          have ht1 := (hs.bestQueue ..).of_fst heq
          split
          · next heq1 => exact ((ht1.writePart ..).of_fst heq1).queueFault ..
          · next heq1 => exact ((((ht1.writePart ..).of_fst heq1).updPart ..).judgeEntry ..).postOnce ..
  · exact hs

theorem State.Inv.ageQueue {s : State} (hs : s.Inv) (p q : Nat) : (s.ageQueue p q).Inv := by
  unfold State.ageQueue
  split
  · next heq => exact (hs.lookQueue ..).of_fst heq
  · next heq => exact ((hs.lookQueue ..).of_fst heq).updPart ..

theorem State.Inv.withWork (p : Nat) : ∀ (l : List Nat) {s : State}, s.Inv → (s.withWork p l).1.Inv
  | [], s, hs => by
    unfold State.withWork
    exact hs
  | q :: qs, s, hs => by
    unfold State.withWork
    split
    · next heq =>
      have ht1 := (hs.readHead ..).of_fst heq
      split
      · next heq1 => exact (ht1.withWork ..).of_fst heq1

theorem State.Inv.unbindIdle {s : State} (hs : s.Inv) (p : Nat) : (s.unbindIdle p).Inv := by
  unfold State.unbindIdle
  split
  · next heq =>
    have ht1 := (hs.withWork ..).of_fst heq
    split
    · next heq1 => exact ((ht1.withWork ..).of_fst heq1).updPart ..

theorem inv_execResidencyQuantumBoundary {s : State} (hs : s.Inv) : Canonical (execResidencyQuantumBoundary s) := by
  unfold execResidencyQuantumBoundary
  split
  · split
    · exact hs
    · extract_lets quantum s1 s2 s3
      have hs1 : s1.Inv := hs
      have hs2 : s2.Inv := hs1.forEach fun _ _ ht => ht.ageQueue ..
      have hs3 : s3.Inv := hs2.unbindIdle ..
      split
      exacts [hs1, (hs3.updPart ..).postOnce ..]
  · exact hs

/-! ## Placement and task start (02 R37 to R39) -/

theorem State.Inv.freeClusters {s : State} (hs : s.Inv) (q : Launch) : (s.freeClusters q).Inv := by
  unfold State.freeClusters
  extract_lets s1 mine s2 delay s3
  have hs1 : s1.Inv := by
    unfold s1
    refine hs.forEach fun _ _ ht => State.Inv.updCore ((((ht.forEach fun _ _ ht1 => ht1.loseParked ..).updRouter ..).forEach fun _ _ ht1 =>
      State.inv_ite (ht1.loseRows ..) (ht1.arrive ..)).forEach fun t1 x1 ht1 => ?_) ..
    split
    exacts [ht1, ht1.emptyPool ..]
  have hs2 : s2.Inv := (hs1.sameMem (by rfl)).settleRings
  have hs3 : s3.Inv := hs2.forEach fun _ _ ht => State.inv_ite (ht.updCluster ..) ((ht.updCluster ..).post ..)
  exact hs3.postOnce ..

theorem State.Inv.startLaunch {s : State} (hs : s.Inv) (l : Nat) (q : Launch) : (s.startLaunch l q).Inv :=
  (((hs.loadDraft ..).forEach fun _ _ ht => ht.updCore ..).updLaunch ..).postOnce ..

theorem State.Inv.placeSelected {s : State} (hs : s.Inv) (p : Nat) : (s.placeSelected p).Inv := by
  unfold State.placeSelected
  split
  · exact hs
  · split
    · exact (hs.updPart ..).completeUnrun ..
    · split
      · exact hs
      · split
        · exact (hs.updPart ..).completeUnrun ..
        · split
          · exact hs
          · extract_lets q s1 l cold limpt due s2 s3 s4
            have hs1 : s1.Inv := hs.updPart ..
            have hs2 : s2.Inv := hs1.forEach fun _ _ ht => (ht.updCluster ..).forEach fun _ _ ht1 => ht1.setCore ..
            have hs3 : s3.Inv := hs2.forEach fun _ _ ht => ht.updCluster ..
            have hs4 : s4.Inv := hs3
            split
            exacts [(hs1.notice ..).completeUnrun .., (hs4.post ..).postOnce ..]

theorem inv_execLaunchPlacement {s : State} (hs : s.Inv) : Canonical (execLaunchPlacement s) := by
  unfold execLaunchPlacement
  split
  · extract_lets s1
    have hs1 : s1.Inv := by
      unfold s1
      refine hs.forEach fun t x ht => ?_
      split
      · exact ht
      · split
        · exact ht
        · split
          exacts [ht.postOnce .., ht.startLaunch ..]
    exact hs1.placeSelected ..
  · exact hs

theorem inv_execClusterPowerGate {s : State} (hs : s.Inv) : Canonical (execClusterPowerGate s) := by
  unfold execClusterPowerGate
  split
  · split
    exacts [hs, State.inv_ite hs (State.inv_ite (hs.postOnce ..) ((hs.updCluster ..).forEach fun _ _ ht => (ht.sameMem (by rfl))))]
  · exact hs

/-! ## Completion (02 R45 to R47, 12 R298, R570) -/

theorem State.Inv.abandonCommands {s : State} (hs : s.Inv) (c : Nat) : (s.abandonCommands c).Inv := by
  unfold State.abandonCommands
  split
  exacts [hs, (hs.forEach fun _ _ ht => ht.abortRing ..).updCore ..]

theorem State.Inv.endTasks {s : State} (hs : s.Inv) (l : Nat) : (s.endTasks l).Inv := by
  unfold State.endTasks
  refine hs.forEach fun _ _ ht => State.Inv.abandonCommands (ht.forEach fun t1 x1 ht1 => ?_) ..
  split
  · exact ht1
  · split
    exacts [ht1, (ht1.landLate ..).kill ..]

theorem State.Inv.flushStash {s : State} (hs : s.Inv) (c : Nat) : (s.flushStash c).Inv := by
  unfold State.flushStash
  split
  · exact hs
  · extract_lets s1 s2
    have hs1 : s1.Inv := by
      unfold s1
      refine hs.forEach fun t x ht => ?_
      split
      exacts [ht, (State.inv_ite ht (ht.writeBackRow ..)).flushWbs ..]
    have hs2 : s2.Inv := hs1.forEach fun _ _ ht => ht.performWb ..
    exact hs2.updCore ..

theorem inv_execLaunchCompletion {s : State} (hs : s.Inv) : Canonical (execLaunchCompletion s) := by
  unfold execLaunchCompletion
  split
  · split
    · exact hs
    · extract_lets s1 cores done q s2 f status first s3 s4
      have hs1 : s1.Inv := by
        unfold s1
        split
        exacts [hs.endTasks .., hs]
      have hs2 : s2.Inv := hs1.forEach fun _ _ ht => ht.flushStash ..
      have hs3 : s3.Inv := hs2.complete ..
      have hs4 : s4.Inv := by
        unfold s4
        split
        exacts [hs3.updPart .., hs3]
      split
      exacts [hs1, ((hs4.sameMem (by rfl)).freeClusters ..).wakeRings]
  · exact hs

/-! ## LAUNCH (16 R405 to R407) -/

theorem State.Inv.launchResult {s : State} (hs : s.Inv) (p : Nat) (q : RV) : (s.launchResult p q).1.Inv := by
  unfold State.launchResult
  split
  · exact hs
  · split
    · exact hs
    · split
      · next heq => exact (hs.readPart ..).of_fst heq
      · next heq =>
        have ht1 := (hs.readPart ..).of_fst heq
        extract_lets
        split
        · exact ht1
        · split
          exacts [ht1, ht1]

theorem State.Inv.launchSlot {s : State} (hs : s.Inv) (p slot : Nat) : (s.launchSlot p slot).1.Inv := by
  unfold State.launchSlot
  split
  · exact hs
  · split
    · next heq => exact (hs.translateHome ..).of_fst heq
    · next heq => exact (hs.translateHome ..).of_fst heq

theorem inv_execLaunch (o : OpC3) {s : State} (hs : s.Inv) : Canonical (execLaunch o s) := by
  unfold execLaunch
  refine inv_guarded hs fun k n x => ?_
  extract_lets
  split
  · exact hs
  · split
    · exact hs
    · split
      · exact hs
      · split
        · next heq => exact (hs.translate ..).of_fst heq
        · next heq =>
          have ht1 := (hs.translate ..).of_fst heq
          refine (ht1.releaseAll ..).bind fun t t1 ht ht2 => ?_
          split
          · next heq1 =>
            have ht3 := (State.inv_homeWords _ _ _ _ ht).of_fst heq1
            split
            · exact ht3
            · extract_lets hold
              have hhold : ∀ (s : State) (r slot pa ed : Nat), s.Inv → Try.Inv State.Inv (hold s r slot pa ed) := fun _ _ _ _ _ ht4 =>
                ⟨(ht4.updCtx ..).postOpen .., (ht4.updCtx ..).postOpen ..⟩
              split
              · next heq2 =>
                have ht4 := (ht3.launchResult ..).of_fst heq2
                split
                · exact ht4.stall
                · split
                  · next heq3 => exact (ht4.launchSlot ..).of_fst heq3
                  · next heq3 => exact hhold _ _ _ _ _ ((ht4.launchSlot ..).of_fst heq3)
              · next heq2 => exact hhold _ _ _ _ _ ((ht3.launchResult ..).of_fst heq2)

theorem inv_execLaunchAppend {s : State} (hs : s.Inv) : Canonical (execLaunchAppend s) := by
  unfold execLaunchAppend
  split
  · split
    · exact hs
    · split
      · extract_lets p done s1 s2
        have hdone : ∀ (s : State), s.Inv → (done s).Inv := fun _ ht => ht.updCtx ..
        have hs1 : s1.Inv := State.inv_homeWrite _ _ _ _ _ hs
        have hs2 : s2.Inv := hs1.updPart ..
        split
        exacts [hdone _ hs, (hdone _ (hs2.lookQueue ..)).postOnce ..]
      · exact hs
  · exact hs

end Sys2Proof.Machine
end

section
/-! SUPPORT. The canonical form of memory through the instructions that hold their context, and fills and write-backs (08, 10, 16, 18, 19). -/

namespace Sys2Proof.Machine

/-! ## Privileged instructions that hold their context -/

theorem inv_privOp {s : State} (hs : s.Inv) {g : Guard} {op : Nat} {f : Core → Nat → Ctx → Try State}
    (hf : ∀ k n x, (f k n x).Inv State.Inv) : Canonical (privOp s g op f) := by
  unfold privOp
  refine inv_guarded hs fun k n x => ?_
  split
  exacts [hf .., hs]

theorem State.Inv.endHold {s : State} (hs : s.Inv) (c n d v : Nat) (psn : Bool) : (s.endHold c n d v psn).Inv := hs.updCtx ..

theorem State.Inv.holdWith {s : State} (hs : s.Inv) (n : Nat) (h : Hold) : (s.holdWith n h).Inv := hs.updCtx ..

/-! ## Rows given up -/

theorem State.Inv.dropFill {s : State} (hs : s.Inv) (q block : Nat) : (s.dropFill q block).Inv := (hs.updCore ..).forEach fun _ _ ht => ht.updCore ..

theorem State.Inv.retryMisses {s : State} (hs : s.Inv) (q : Nat) : (s.retryMisses q).Inv := by
  unfold State.retryMisses
  split
  exacts [hs, hs.forEach fun _ _ ht => ht.updCore ..]

theorem State.Inv.emptyRow {s : State} (hs : s.Inv) (q n : Nat) : (s.emptyRow q n).Inv := by
  unfold State.emptyRow
  split
  exacts [hs, (((hs.writeBackRow ..).flushWbs ..).dropFill ..).dropWords ..]

/-! ## TLBI (19 R504 to R508, 10 R262) -/

theorem inv_execTlbi (o : OpTlbi) {s : State} (hs : s.Inv) : Canonical (execTlbi o s) := by
  unfold execTlbi
  refine inv_privOp hs fun k n x => ?_
  extract_lets a b go
  have hgo : ∀ (all : Bool) (reach : Nat), Try.Inv State.Inv (go all reach) := fun _ _ => ⟨((hs.holdWith ..).sameMem (by rfl)).postOpen ..,
    ((hs.holdWith ..).sameMem (by rfl)).postOpen ..⟩
  split
  · exact hgo ..
  · split
    exacts [hs, hgo ..]

theorem State.Inv.dropTlb {s : State} (hs : s.Inv) (p : Nat) (all : Bool) (addr : Nat) (cores clusters : List Nat) :
    (s.dropTlb p all addr cores clusters).Inv :=
  (hs.forEach fun _ _ ht => ht.updCore ..).forEach fun _ _ ht => ht.updCluster ..

theorem State.Inv.emptyPage {s : State} (hs : s.Inv) (p : Nat) (all : Bool) (addr q : Nat) : (s.emptyPage p all addr q).Inv := by
  unfold State.emptyPage
  extract_lets
  split
  exacts [hs, (hs.forEach fun _ _ ht => ht.performWb ..).forEach fun _ _ ht => ht.emptyRow ..]

theorem State.Inv.landTranslated {s : State} (hs : s.Inv) (p : Nat) (all : Bool) (addr : Nat) (tiles : List Nat) :
    (s.landTranslated p all addr tiles).Inv := by
  unfold State.landTranslated
  extract_lets
  refine (hs.sameMem (by rfl)).forEach fun t x ht => ?_
  split
  exacts [ht.landHome .., ht]

theorem inv_execTlbiCompletion {s : State} (hs : s.Inv) : Canonical (execTlbiCompletion s) := by
  unfold execTlbiCompletion
  split
  · split
    · extract_lets p cores clusters a s1 s2 z s3 s4
      have hs1 : s1.Inv := hs.dropTlb ..
      have hs2 : s2.Inv := (hs1.forEach fun _ _ ht => ht.emptyPage ..).landTranslated ..
      have hs3 : s3.Inv := hs2.forEach fun _ _ ht => ht.retryParked ..
      have hs4 : s4.Inv := hs3.forEach fun _ _ ht => ht.landLate ..
      split
      exacts [hs, (hs4.updCtx ..).forEach fun _ _ ht => ht.wakeCluster ..]
    · exact hs
  · exact hs

/-! ## FENSET (16 R395 to R397) -/

theorem inv_execFenset (o : OpC2) {s : State} (hs : s.Inv) : Canonical (execFenset o s) := by
  unfold execFenset
  refine inv_privOp hs fun k n x => ?_
  extract_lets a pt idx slice l p r s1 s2
  have hs1 : s1.Inv := by
    unfold s1
    split
    · exact hs
    · split
      exacts [hs.updSlice .., hs.forEach fun _ _ ht => ht.updCore ..]
  have hs2 : s2.Inv := (hs1.sameMem (by rfl)).updCtx ..
  split
  · split
    · exact hs
    · split
      · exact hs
      · split
        exacts [hs.stall, ⟨hs2, hs2⟩]
  · split
    · exact hs
    · split
      · exact hs
      · split
        exacts [hs.stall, ⟨hs2, hs2⟩]

/-! ## EVAC (16 R392, R393, 10 R254, R255) -/

theorem inv_execEvac (o : OpC2) {s : State} (hs : s.Inv) : Canonical (execEvac o s) := by
  unfold execEvac
  refine inv_privOp hs fun k n x => ?_
  extract_lets a s1 s2
  have hs1 : s1.Inv := hs.holdWith ..
  have hs2 : s2.Inv := hs1
  split
  · exact hs
  · split
    exacts [hs, ⟨hs2, hs2⟩]

theorem State.Inv.moveRow {s : State} (hs : s.Inv) (q n l : Nat) : (s.moveRow q n l).Inv := by
  unfold State.moveRow
  extract_lets take
  have htake : ∀ (s : State) (m : Nat), s.Inv → (take s m).Inv := fun _ _ ht => ht.updCore ..
  split
  · exact hs
  · split
    · exact htake _ _ hs
    · split
      exacts [hs, htake _ _ (hs.emptyRow ..)]

theorem State.Inv.freeze {s : State} (hs : s.Inv) (of : Event → Option Nat) (c f : Nat) : (s.freeze of c f).Inv := by
  unfold State.freeze
  split
  exacts [hs, (hs.mxSettle ..).updCore ..]

theorem State.Inv.moveFreeze {s : State} (hs : s.Inv) (q : Nat) (blocks : List Nat) : (s.moveFreeze q blocks).Inv := (hs.freeze ..).updCore ..

theorem State.Inv.evacQuarter {s : State} (hs : s.Inv) (q l : Nat) : (s.evacQuarter q l).1.Inv := by
  unfold State.evacQuarter
  split
  · exact hs.updCluster ..
  · extract_lets lost pinned others s1 s2
    have hs1 : s1.Inv := hs.forEach fun _ _ ht => ht.emptyRow ..
    have hs2 : s2.Inv := hs1.forEach fun _ _ ht => ht.moveRow ..
    exact hs2.updCore ..

theorem State.Inv.evacWork (l : Nat) : ∀ (l' : List Nat) {s : State}, s.Inv → (s.evacWork l l').1.Inv
  | [], s, hs => by
    unfold State.evacWork
    exact hs
  | q :: qs, s, hs => by
    unfold State.evacWork
    split
    · next heq =>
      have ht1 := (hs.evacQuarter ..).of_fst heq
      split
      · next heq1 => exact (((ht1.moveFreeze ..).evacWork ..).of_fst heq1).wakeCluster ..

theorem inv_execEvacCompletion {s : State} (hs : s.Inv) : Canonical (execEvacCompletion s) := by
  unfold execEvacCompletion
  split
  · split
    · extract_lets
      split
      · exact hs
      · split
        · split
          · next heq => exact ((((hs.evacWork ..).of_fst heq).forEach fun _ _ ht => (State.inv_leaveLines ht ..).updSlice ..).endHold ..).updCtx ..
        · exact hs.endHold ..
    · exact hs
  · exact hs

/-! ## DRAFTLD (16 R383 to R386, 08 R203) -/

theorem State.Inv.replaceDraft {s : State} (hs : s.Inv) (c : Nat) (ws : List PWord) : (s.replaceDraft c ws).Inv := by
  unfold State.replaceDraft
  split
  · exact hs
  · split
    exacts [hs, hs.loadDraft ..]

theorem inv_execDraftld (o : OpC3) {s : State} (hs : s.Inv) : Canonical (execDraftld o s) := by
  unfold execDraftld
  refine inv_privOp hs fun k n x => ?_
  extract_lets a b ends s1
  have hends : ∀ (s : State) (r : Nat), s.Inv → Try.Inv State.Inv (ends s r) := fun _ _ ht => ⟨(ht.writeC ..).endHolding ..,
    (ht.writeC ..).endHolding ..⟩
  have hs1 : s1.Inv := hs.holdWith ..
  split
  · exact hs
  · split
    · exact hs
    · split
      exacts [hends _ _ hs, ⟨hs, hs⟩]
    · split
      · exact hs.stall
      · split
        exacts [hends _ _ (hs.replaceDraft ..), ⟨hs, hs⟩]
    · split
      exacts [(hs1.sameMem (by rfl)).stall, ⟨hs, hs⟩]

theorem State.Inv.draftWords (c addr : Nat) : ∀ (fuel : Nat) (ws : List PWord) (n : Nat) {s : State}, s.Inv → (s.draftWords c addr fuel ws n).1.Inv
  | 0, ws, _, s, hs => by
    unfold State.draftWords
    exact hs
  | fuel + 1, ws, n, s, hs => by
    unfold State.draftWords
    extract_lets
    split
    · exact hs
    · split
      · next heq => exact ((hs.readWords ..).of_fst heq).draftWords ..
      · next heq => exact (hs.readWords ..).of_fst heq
      · next heq => exact (hs.readWords ..).of_fst heq
      · next heq => exact (hs.readWords ..).of_fst heq

theorem State.Inv.draftldRead {s : State} (hs : s.Inv) (c n : Nat) (addr len : Word64) (bad : Bool) (ws : List PWord) (q : Launch) :
    (s.draftldRead c n addr len bad ws q).1.Inv := by
  unfold State.draftldRead
  split
  · exact hs
  · split
    · exact hs
    · split
      · next heq => exact (hs.draftWords ..).of_fst heq
      · next heq => exact (hs.draftWords ..).of_fst heq
      · next heq => exact (hs.draftWords ..).of_fst heq
      · next heq =>
        have ht1 := (hs.draftWords ..).of_fst heq
        split
        exacts [ht1, ht1]

theorem inv_execDraftldCompletion {s : State} (hs : s.Inv) : Canonical (execDraftldCompletion s) := by
  unfold execDraftldCompletion
  split
  · split
    · extract_lets put held late due
      have hput : ∀ (s : State) (due : Option Nat) (ws : List PWord) (out : DraftEnd),
        s.Inv → (put s due ws out).Inv := fun _ _ _ _ ht => State.inv_ite ((ht.updCtx ..).postOnce ..) (ht.updCtx ..)
      split
      · exact hput _ _ _ _ hs
      · split
        · exact hput _ _ _ _ hs
        · split
          · next heq => exact hput _ _ _ _ ((hs.draftldRead ..).of_fst heq)
    · exact hs
  · exact hs

/-! ## The end of RETIRE (18 R489, 02 R45) -/

theorem inv_execRetireAccepted {s : State} (hs : s.Inv) : Canonical (execRetireAccepted s) := by
  unfold execRetireAccepted
  split
  · split
    · exact hs
    · split
      · exact hs
      · extract_lets s1 s2 s3 s4 s5
        have hs1 : s1.Inv := (hs.landLate ..).switchOut ..
        have hs2 : s2.Inv := hs1.updCtx ..
        have hs3 : s3.Inv := by
          unfold s3
          split
          exacts [hs2, hs2.countKill ..]
        have hs4 : s4.Inv := hs3.forEach fun _ _ ht => ht.postOnce ..
        have hs5 : s5.Inv := hs4.afterCommand ..
        split
        exacts [hs5, ((hs5.postOnce ..).postOnce ..).postOnce ..]
  · exact hs

/-! ## Fills and write-backs (10 R239, R242) -/

theorem State.Inv.fillRow {s : State} (hs : s.Inv) (q : Nat) (f : Fill) (ws : List PWord) : (s.fillRow q f ws).Inv := hs.updCore ..

theorem inv_execStashFillArrival {s : State} (hs : s.Inv) : Canonical (execStashFillArrival s) := by
  unfold execStashFillArrival
  split
  · split
    · exact hs
    · extract_lets
      split
      · next heq =>
        have ht1 := (State.inv_homeWords _ _ _ _ ((hs.flushWbs ..).meet ..)).of_fst heq
        extract_lets s1
        have hs1 : s1.Inv := by
          unfold s1
          split
          exacts [ht1, (ht1.fillRow ..).forEach fun _ _ ht => ht.updCore ..]
        exact ((hs1.dropFill ..).retryMisses ..).wakeCluster ..
  · exact hs

theorem inv_execWriteBackPerformed {s : State} (hs : s.Inv) : Canonical (execWriteBackPerformed s) := by
  unfold execWriteBackPerformed
  split
  exacts [(((hs.performWb ..).forEach fun _ _ ht => ht.tryFences ..).retryMisses ..).wakeCluster .., hs]

end Sys2Proof.Machine
end

section
/-! SUPPORT. The canonical form of memory through events, pre-emption, save and restore, operating points and reset (12, 14). -/

namespace Sys2Proof.Machine

/-! ## Events and notices -/

theorem State.Inv.takeAsync {s : State} (hs : s.Inv) (c n cause : Nat) (info : Word64) : (s.takeAsync c n cause info).Inv := by
  unfold State.takeAsync
  split
  · exact hs
  · split
    exacts [hs.enterAsync .., hs.kill ..]

theorem inv_execEventTaken {s : State} (hs : s.Inv) : Canonical (execEventTaken s) := by
  unfold execEventTaken
  split
  · split
    · exact hs
    · split
      · exact hs
      · split
        · exact (hs.updCtx ..).takeAsync ..
        · exact (hs.updCtx ..).takeAsync ..
        · exact (hs.updCtx ..).takeAsync ..
        · exact (hs.updCtx ..).takeAsync ..
        · exact hs
  · exact hs

theorem inv_execNoticeTaken {s : State} (hs : s.Inv) : Canonical (execNoticeTaken s) := by
  unfold execNoticeTaken
  split
  · split
    · exact hs
    · extract_lets
      split
      · split
        exacts [hs, (State.inv_ite ((hs.updPart ..).updRouter ..) (hs.updPart ..)).takeAsync ..]
      · exact hs
  · exact hs

theorem inv_execWatchdog {s : State} (hs : s.Inv) : Canonical (execWatchdog s) := by
  unfold execWatchdog
  split
  · split
    · extract_lets
      split
      · exact hs
      · split
        · exact hs
        · split
          · exact hs.postOnce ..
          · split
            exacts [(hs.landLate ..).kill .., hs.updCtx ..]
    · exact hs
  · exact hs

/-! ## The freeze (12 R293, R294) -/

theorem State.Inv.freezeCommands {s : State} (hs : s.Inv) (c : Nat) (sel : Nat → Bool) (own : Option Nat) : (s.freezeCommands c sel own).Inv := by
  unfold State.freezeCommands
  extract_lets s1 s2 s3 s4 s5
  have hs1 : s1.Inv := hs.mxSettle ..
  have hs2 : s2.Inv := hs1.forEach fun _ _ ht => ht.abortRing ..
  have hs3 : s3.Inv := hs2.updCore ..
  have hs4 : s4.Inv := by
    unfold s4
    refine hs3.forEach fun t x ht => ?_
    split
    · exact ht
    · split
      exacts [State.inv_getD ht (ht.abandonOp ..), ht]
  have hs5 : s5.Inv := by
    unfold s5
    split
    · exact hs4
    · split
      exacts [(hs4.updCore ..).postOnce .., hs4]
  exact hs5.wakeCore ..

/-! ## Requests (12 R292, R298) -/

theorem inv_execPrectlGo {s : State} (hs : s.Inv) : Canonical (execPrectlGo s) := by
  unfold execPrectlGo
  split
  · split
    · exact hs
    · extract_lets cl s1
      have hs1 : s1.Inv := hs.updPart ..
      split
      · exact hs.updPart ..
      · split
        · exact hs.updPart ..
        · exact (((hs1.updLaunch ..).forEach fun _ _ ht => (ht.freezeCommands ..).updCore ..).post ..).postOnce ..
  · exact hs

theorem inv_execPreemptLimitExpiry {s : State} (hs : s.Inv) : Canonical (execPreemptLimitExpiry s) := by
  unfold execPreemptLimitExpiry
  split
  · split
    · exact hs
    · split
      · split
        exacts [hs.postOnce .., (hs.endTasks ..).postOnce ..]
      · exact hs
  · exact hs

/-! ## QSAVE (18 R478, R479) -/

theorem inv_qsaveOp {s : State} (hs : s.Inv) (o : OpQsave) (w : Sync) : Canonical (qsaveOp s o w) := by
  unfold qsaveOp
  refine inv_qSlot hs fun t k n x ht => ?_
  extract_lets
  split
  · exact ht
  · split
    · exact ht
    · split
      exacts [ht, ht.qIssue _ _ _ _ _ _ fun _ ht1 => State.inv_ite ht1 (ht1.freezeCommands ..)]

theorem State.Inv.writeRecords (c n id a : Nat) (psn : Bool) : ∀ (i : Nat) (l : List Nat) {s : State}, s.Inv → (s.writeRecords c n id a psn i l).1.Inv
  | _, [], s, hs => by
    unfold State.writeRecords
    exact hs
  | i, r :: rs, s, hs => by
    unfold State.writeRecords
    split
    · next heq => exact (((hs.writeVia ..).of_fst heq).updCore ..).writeRecords ..
    · next heq => exact (hs.writeVia ..).of_fst heq
    · next heq => exact (hs.writeVia ..).of_fst heq
    · next heq => exact (hs.writeVia ..).of_fst heq

theorem inv_execQsaveCompletion {s : State} (hs : s.Inv) : Canonical (execQsaveCompletion s) := by
  unfold execQsaveCompletion
  split
  · extract_lets s1
    have hs1 : s1.Inv := hs.mxSettle ..
    split
    · exact hs1
    · split
      · split
        · exact hs1
        · split
          · exact hs1.postOnce ..
          · split
            · next heq => exact (((hs1.writeRecords ..).of_fst heq).updCore ..).qDone ..
            · next heq => exact ((hs1.writeRecords ..).of_fst heq).postOnce ..
            · next heq => exact ((hs1.writeRecords ..).of_fst heq).qFault ..
            · next heq => exact (hs1.writeRecords ..).of_fst heq
      · exact hs1
      · exact hs1
      · exact hs1
      · exact hs1
      · exact hs1
      · exact hs1
      · exact hs1
      · exact hs1
  · exact hs

/-! ## QREST (12 R297, 18 R478, R479) -/

theorem inv_qrestOp {s : State} (hs : s.Inv) (o : OpQsave) (w : Sync) : Canonical (qrestOp s o w) := by
  unfold qrestOp
  refine inv_qSlot hs fun t k n x ht => ?_
  extract_lets
  split
  · exact ht
  · split
    · exact ht
    · split
      exacts [ht, (ht.syncWait ..).bind fun _ _ ht1 _ => ⟨(ht1.updCtx ..).post .., (ht1.updCtx ..).post ..⟩]

theorem inv_restored (w : Sync) (i : Instr) {f : State → Host.Outcome State Fault Refusal} (hf : restored w i = some f) {s : State} (hs : s.Inv) :
    Canonical (f s) := by
  unfold restored at hf
  split at hf
  all_goals cases hf
  exacts [inv_mfmtOp hs .., inv_mdrainOp hs .., inv_mmaOp hs .., inv_mmaOp hs .., inv_mbldOp hs .., inv_mtileOp hs .., inv_mtileOp hs ..,
    inv_mtrnOp hs .., inv_mbflyOp hs .., inv_mtwidOp hs .., inv_qsetOp hs .., inv_qstrmOp hs .., inv_qstrmOp hs .., inv_qstrmOp hs ..,
      inv_qstrmOp hs .., inv_qcopyOp hs .., inv_qccopyOp hs .., inv_qrcopyOp hs .., inv_gcfgOp hs .., inv_grunOp hs .., inv_stashOp hs ..,
        inv_stashOp hs .., inv_stashOp hs .., inv_stashOp hs .., inv_qsaveOp hs .., inv_channelOp hs .., inv_channelOp hs .., inv_chstartOp hs ..,
          inv_channelOp hs .., inv_semaddOp hs .., inv_drainOp hs .., inv_stepOp hs ..]

theorem State.Inv.enter {s : State} (hs : s.Inv) (c n : Nat) (ops : List Nat) (slot : Word32) (next : Nat) (sent : Bool)
    {f : State → Host.Outcome State Fault Refusal} (hf : ∀ t, t.Inv → Canonical (f t)) : (s.enter c n ops slot next sent f).Inv := by
  unfold State.enter
  split
  · extract_lets id regs src s1
    have hs1 : s1.Inv := (hs.sameMem (by rfl)).updCtx ..
    split
    · next heq =>
      have ht1 := (hf _ hs1).of_eq heq
      split
      exacts [((ht1.updCore ..).sameMem (by rfl)).updCtx .., trivial, trivial, trivial, trivial, trivial, trivial, trivial]
    · exact trivial
    · exact trivial
  · exact trivial

theorem State.Inv.enterCommand {s : State} (hs : s.Inv) (c n queue : Nat) (slot : Word32) (w : Sync) (ops : List Nat) (next : Nat) (sent : Bool) :
    (s.enterCommand c n queue slot w ops next sent).Inv := by
  unfold State.enterCommand
  extract_lets
  split
  · trivial
  · split
    · trivial
    · split
      · trivial
      · next hf => exact State.Inv.enter hs _ _ _ _ _ _ fun _ ht => inv_restored w _ hf ht

theorem State.Inv.restoreRecord {s : State} (hs : s.Inv) (c n : Nat) (f : Nat → Nat → Nat) : (s.restoreRecord c n f).Inv := by
  unfold State.restoreRecord
  extract_lets kind slot w q run o o1
  split
  · exact trivial
  · clear_value kind
    split
    · exact hs.enterCommand ..
    · split
      · exact trivial
      · split
        · next heq =>
          have ht1 := (hs.enter _ _ _ _ _ _ fun _ ht => inv_qsetOp ht ..).of_eq heq
          split
          · exact ht1
          · split
            exacts [ht1, ht1.enterCommand ..]
        · exact hs.enter _ _ _ _ _ _ fun _ ht => inv_qsetOp ht ..
    · split
      · exact trivial
      · split
        · next heq => exact ((hs.enter _ _ _ _ _ _ fun _ ht => inv_gcfgOp ht ..).of_eq heq).updCore ..
        · exact hs.enter _ _ _ _ _ _ fun _ ht => inv_gcfgOp ht ..
    · split
      · exact trivial
      · split
        exacts [trivial, hs.armGate ..]
    · exact trivial

theorem State.Inv.qrestStop {s : State} (hs : s.Inv) (c n cause addr : Nat) : (s.qrestStop c n cause addr).Inv :=
  ((hs.updCtx ..).retryRetire ..).reportFault ..

theorem inv_execQrestCompletion {s : State} (hs : s.Inv) : Canonical (execQrestCompletion s) := by
  unfold execQrestCompletion
  split
  · split
    · extract_lets a put
      have hput : ∀ (s : State) (pos : Nat) (late : List (Nat × Word32 × Sync × Nat)),
        s.Inv → (put s pos late).Inv := fun _ _ _ ht => (ht.updCtx ..).postOnce ..
      split
      · next heq => exact ((State.inv_ite_fst hs (hs.readWords ..)).of_fst heq).postOnce ..
      · next heq => exact ((State.inv_ite_fst hs (hs.readWords ..)).of_fst heq).qrestStop ..
      · next heq => exact ((State.inv_ite_fst hs (hs.readWords ..)).of_fst heq).qrestStop ..
      · next heq =>
        have ht1 := (State.inv_ite_fst hs (hs.readWords ..)).of_fst heq
        extract_lets
        split
        · exact ht1.qrestStop ..
        · split
          · split
            · exact ht1
            · split
              · next heq1 => exact hput _ _ _ ((ht1.enterCommand ..).of_eq heq1)
              · exact ht1.postOnce ..
              · exact ht1.postOnce ..
              · exact ht1.qrestStop ..
          · split
            · exact ((ht1.updCtx ..).post1 ..).retryRetire ..
            · split
              · next heq1 => exact hput _ _ _ ((ht1.restoreRecord ..).of_eq heq1)
              · next heq1 => exact hput _ _ _ ((ht1.restoreRecord ..).of_eq heq1)
              · exact ht1.postOnce ..
              · exact ht1.qrestStop ..
    · exact hs
  · exact hs

/-! ## Silent-error defence -/

theorem inv_execShadowLatchReplay {s : State} (hs : s.Inv) : Canonical (execShadowLatchReplay s) := by
  unfold execShadowLatchReplay
  split
  exacts [((hs.updCore ..).freeze ..).updRouter .., hs]

theorem State.Inv.nextSparing {s : State} (hs : s.Inv) : (s.nextSparing).Inv := by
  unfold State.nextSparing
  split
  exacts [hs, (hs.sameMem (by rfl)).startSparing ..]

theorem inv_execRowSparing {s : State} (hs : s.Inv) : Canonical (execRowSparing s) := by
  unfold execRowSparing
  split
  · exact hs.countCorrected ..
  · exact hs
  · exact hs
  · split
    · exact hs
    · extract_lets b put src m s1 src1 m1
      have hs1 : s1.Inv := (hs.sameMem (by rfl)).startSparing ..
      split
      · split
        exacts [hs1.nextSparing, hs1]
      · split
        exacts [(hs.sameMem (by rfl)).nextSparing, hs]
  · exact hs

/-! ## The agenda when the clock changes -/

theorem State.Inv.rerate {s : State} (hs : s.Inv) (pause : Nat) (f : Module → Module) : (s.rerate pause f).Inv := hs

/-! ## Operating points (14 R319 to R322) -/

theorem inv_execOpreqGo {s : State} (hs : s.Inv) : Canonical (execOpreqGo s) := by
  unfold execOpreqGo
  split
  · extract_lets t src s1 src1 s2
    have hs1 : s1.Inv := by
      unfold s1
      split
      exacts [hs, hs]
    have hs2 : s2.Inv := hs1
    refine State.inv_ite hs1 (State.inv_ite (hs1.post ..) ?_)
    split
    exacts [hs2, hs1]
  · exact hs

theorem inv_execOperatingPointStepEnd {s : State} (hs : s.Inv) : Canonical (execOperatingPointStepEnd s) := by
  unfold execOperatingPointStepEnd
  split
  exacts [State.inv_ite ((State.inv_ite (hs.sameMem (by rfl)) (hs.rerate ..)).forEach fun _ _ ht => ht.postOnce ..) hs, hs]

/-! ## Temperature (14 R324) -/

theorem inv_execThermalThrottle {s : State} (hs : s.Inv) : Canonical (execThermalThrottle s) := by
  unfold execThermalThrottle
  split
  exacts [hs.rerate .., hs]

theorem inv_execThermalRecovery {s : State} (hs : s.Inv) : Canonical (execThermalRecovery s) := by
  unfold execThermalRecovery
  split
  exacts [hs.rerate .., hs]

/-! ## Reset and bring-up (14 R326) -/

theorem State.inv_bringUp (s : State) (f : Fuses) : (s.bringUp f).Inv := by
  unfold State.bringUp
  extract_lets s1 s2 src
  have hs1 : s1.Inv := State.inv_resetWith ..
  have hs2 : s2.Inv := hs1
  split
  exacts [hs2, hs2]

theorem inv_execThermalReset {s : State} (hs : s.Inv) : Canonical (execThermalReset s) := by
  unfold execThermalReset
  split
  exacts [State.inv_bringUp .., hs]

theorem inv_execModuleReset {s : State} (hs : s.Inv) : Canonical (execModuleReset s) := by
  unfold execModuleReset
  split
  exacts [State.inv_bringUp .., hs]

end Sys2Proof.Machine
end

section
/-! SUPPORT. The canonical form of memory through predicates, management and the F slot (13, 18, 19). -/

namespace Sys2Proof.Machine

/-! ## Predicate instructions -/

theorem inv_predResult {s : State} (hs : s.Inv) (sl : PSlot) (g : Guard) (d : Reg5) (lat : Nat) (v : PV) : Canonical (predResult s sl g d lat v) := by
  unfold predResult
  split
  exacts [inv_pResult hs .., inv_pResult hs .., inv_pvResult hs ..]

/-! ## The partition map (13 R308, R309) -/

theorem State.Inv.rebuildPart {s : State} (hs : s.Inv) (p : Nat) (e : MapEntry) : (s.rebuildPart p e).Inv :=
  State.inv_ite ((hs.sameMem (by rfl)).post ..) (hs.sameMem (by rfl))

theorem State.Inv.gateCluster {s : State} (hs : s.Inv) (cl : Nat) : (s.gateCluster cl).Inv := by
  unfold State.gateCluster
  split
  · exact hs
  · split
    exacts [hs, (hs.updCluster ..).forEach fun _ _ ht => (ht.sameMem (by rfl))]

theorem State.Inv.flushSlices {s : State} (hs : s.Inv) (old m : PartMap) : (s.flushSlices old m).Inv :=
  hs.forEach fun _ _ ht => State.inv_ite (State.inv_leaveLines ht ..) ht

theorem State.Inv.reconfigure {s : State} (hs : s.Inv) (m : PartMap) (changed : List Nat) : (s.reconfigure m changed).Inv := by
  unfold State.reconfigure
  extract_lets old holds s1 s2 s3 s4 s5 s6 src
  have hs1 : s1.Inv := hs.flushSlices ..
  have hs2 : s2.Inv := hs1.forEach fun _ _ ht => ht.forEach fun _ _ ht1 => State.inv_eraseDomain ht1 ..
  have hs3 : s3.Inv := hs2.forEach fun _ _ ht => ht.gateCluster ..
  have hs4 : s4.Inv := hs3.forEach fun _ _ ht => ht.rebuildPart ..
  have hs5 : s5.Inv := by
    unfold s5
    refine hs4.forEach fun _ _ ht => State.inv_ite ht ?_
    split
    exacts [State.inv_fillRegion ht .., State.inv_fillRegion (ht.sameMem (by rfl)) ..]
  have hs6 : s6.Inv := hs5.forEach fun _ _ ht => ht.forEach fun _ _ ht1 => ht1.updPort ..
  exact hs6

theorem inv_execReconfigurationRequest {s : State} (hs : s.Inv) : Canonical (execReconfigurationRequest s) := by
  unfold execReconfigurationRequest
  split
  exacts [State.inv_ite (hs.emit ..) ((hs.reconfigure ..).emit ..), hs]

/-! ## SPDM (13 R313, R314) -/

theorem State.Inv.spdm {s : State} (hs : s.Inv) (code : Nat) (part link : Option Nat) (about : List Nat) : (s.spdm code part link about).Inv := by
  unfold State.spdm
  split
  · exact hs
  · split
    · split
      exacts [hs, hs]
    · split
      exacts [hs, hs]

theorem inv_execGetDigests {s : State} (hs : s.Inv) : Canonical (execGetDigests s) := by
  unfold execGetDigests
  split
  exacts [hs.spdm .., hs]

theorem inv_execGetCertificate {s : State} (hs : s.Inv) : Canonical (execGetCertificate s) := by
  unfold execGetCertificate
  split
  exacts [hs.spdm .., hs]

theorem inv_execChallenge {s : State} (hs : s.Inv) : Canonical (execChallenge s) := by
  unfold execChallenge
  split
  exacts [(hs.sameMem (by rfl)).spdm .., hs]

theorem inv_execGetMeasurements {s : State} (hs : s.Inv) : Canonical (execGetMeasurements s) := by
  unfold execGetMeasurements
  split
  · split
    · exact hs.spdm ..
    · split
      exacts [hs, hs]
  · exact hs

theorem inv_execKeyExchange {s : State} (hs : s.Inv) : Canonical (execKeyExchange s) := by
  unfold execKeyExchange
  split
  exacts [State.inv_ite (hs.spdm ..) ((hs.sameMem (by rfl)).spdm ..), hs]

theorem inv_execFinish {s : State} (hs : s.Inv) : Canonical (execFinish s) := by
  unfold execFinish
  split
  · split
    · exact hs
    · split
      exacts [(hs.sameMem (by rfl)).spdm .., hs]
  · exact hs

/-! ## Key release (13 R315) -/

theorem inv_execKeyload {s : State} (hs : s.Inv) : Canonical (execKeyload s) := by
  unfold execKeyload
  split
  · split
    · exact hs
    · split
      exacts [hs, ((hs.updPart ..).sameMem (by rfl)).emit ..]
  · exact hs

theorem inv_execKeyclear {s : State} (hs : s.Inv) : Canonical (execKeyclear s) := by
  unfold execKeyclear
  split
  · split
    exacts [hs, (State.inv_eraseDomain hs ..).emit ..]
  · exact hs

/-! ## The host port (13 R317) -/

theorem State.Inv.landHostRows {s : State} (hs : s.Inv) (p : Nat) : (s.landHostRows p).Inv := by
  unfold State.landHostRows
  extract_lets
  refine (hs.sameMem (by rfl)).forEach fun t x ht => ?_
  split
  exacts [ht.landHome .., ht]

theorem State.Inv.sendHost {s : State} (hs : s.Inv) (p : Nat) (x : Packet) : (s.sendHost p x).Inv := hs

theorem State.Inv.hostStore (p : Nat) : ∀ (fuel : Nat) (va : Nat) (data : List Byte) {s : State}, s.Inv → (s.hostStore p fuel va data).Inv
  | 0, _, _, s, hs => by
    unfold State.hostStore
    exact hs
  | fuel + 1, va, data, s, hs => by
    unfold State.hostStore
    split
    · exact hs
    · extract_lets here s1
      have hs1 : s1.Inv := by
        unfold s1
        split
        · next heq => exact (((hs.translateHome ..).of_fst heq).notice ..).emit ..
        · next heq => exact ((hs.translateHome ..).of_fst heq).sendHost ..
      exact hs1.hostStore ..

theorem State.Inv.pf0Write {s : State} (hs : s.Inv) (off : Nat) (v : Word64) : (s.pf0Write off v).Inv := by
  unfold State.pf0Write
  split
  · exact hs
  · split
    exacts [State.inv_ite (hs.post ..) (hs.updPart ..), hs]

theorem inv_execHostWrite {s : State} (hs : s.Inv) : Canonical (execHostWrite s) := by
  unfold execHostWrite
  split
  · split
    · exact hs.pf0Write ..
    · exact (hs.landHostRows ..).post ..
    · exact (hs.landHostRows ..).post ..
    · split
      exacts [hs.hostStore .., hs]
  · exact hs

theorem State.Inv.hostLoad (p : Nat) : ∀ (fuel : Nat) (va : Nat) (n : Nat) {s : State}, s.Inv → (s.hostLoad p fuel va n).1.Inv
  | 0, _, _, s, hs => by
    unfold State.hostLoad
    exact hs
  | fuel + 1, va, n, s, hs => by
    unfold State.hostLoad
    split
    · exact hs
    · extract_lets
      split
      · next heq => exact ((hs.translateHome ..).of_fst heq).notice ..
      · next heq =>
        have ht1 := (hs.translateHome ..).of_fst heq
        split
        · next heq1 =>
          have ht2 := (State.inv_homeRead ht1 ..).of_fst heq1
          split
          · next heq2 => exact (ht2.hostLoad ..).of_fst heq2

theorem inv_execHostRead {s : State} (hs : s.Inv) : Canonical (execHostRead s) := by
  unfold execHostRead
  split
  · extract_lets word no
    have hword : ∀ (s : State) (v : Nat), s.Inv → (word s v).Inv := fun _ _ ht => ht.emit ..
    have hno : ∀ (s : State), s.Inv → (no s).Inv := fun _ ht => ht.emit ..
    split
    · split
      exacts [hword _ _ hs, hno _ hs]
    · split
      exacts [hword _ _ hs, hno _ hs]
    · split
      exacts [hword _ _ hs, hno _ hs]
    · split
      · split
        · next heq =>
          have ht1 := ((hs.landHostRows ..).hostLoad ..).of_fst heq
          exact ht1
      · exact hno _ hs
  · exact hs

/-! ## TDISP (13 R318) -/

theorem State.Inv.abortSelected {s : State} (hs : s.Inv) (p : Nat) : (s.abortSelected p).Inv := by
  unfold State.abortSelected
  split
  exacts [hs, (hs.updPart ..).completeUnrun ..]

theorem inv_execTdiError {s : State} (hs : s.Inv) : Canonical (execTdiError s) := by
  unfold execTdiError
  split
  · exact State.inv_ite hs ((((hs.updPart ..).forEach fun _ _ ht => ht.abortLaunch ..).abortSelected ..).forEach fun _ _ ht => State.inv_eraseDomain
      ht ..)
  · exact hs

theorem inv_execTdispRequest {s : State} (hs : s.Inv) : Canonical (execTdispRequest s) := by
  unfold execTdispRequest
  split
  · split
    · exact hs
    · split
      exacts [(hs.updPart ..).emit .., hs]
  · exact hs

/-! ## The F slot -/

theorem State.Inv.writeV {s : State} (hs : s.Inv) (d : Reg5) (v : VV) (lat : Nat) (lanes : Word32) : (s.writeV d v lat lanes).Inv := hs.updIssuer ..

theorem inv_vResult {s : State} (hs : s.Inv) (g : Guard) (d : Reg5) (lat : Nat) (new : List Lane) : Canonical (vResult s g d lat new) :=
  inv_slotOp fun _ _ _ => hs.writeV ..

theorem inv_v2Op {s : State} (hs : s.Inv) (o : OpV2) (lat : Nat) (f : Val → Val → Val) : Canonical (v2Op s o lat f) := inv_vResult hs ..

theorem inv_v3Op {s : State} (hs : s.Inv) (o : OpV3) (f : Val → Val → Val → Val) : Canonical (v3Op s o f) := inv_vResult hs ..

theorem inv_v1Op {s : State} (hs : s.Inv) (o : OpV1) (lat : Nat) (f : Nat → Nat) : Canonical (v1Op s o lat f) := inv_vResult hs ..

theorem inv_vrndOp {s : State} (hs : s.Inv) (g : Guard) (d a : Reg5) (t : FType) (rm : RMode) : Canonical (vrndOp s g d a t rm) := inv_vResult hs ..

theorem inv_vpackOp {s : State} (hs : s.Inv) (g : Guard) (d a b : Reg5) (cc : BitVec 3) : Canonical (vpackOp s g d a b cc) := inv_vResult hs ..

theorem inv_vbcastOp {s : State} (hs : s.Inv) (g : Guard) (d a : Reg5) (t : FType) (idx : Nat) : Canonical (vbcastOp s g d a t idx) :=
  inv_vResult hs ..

theorem inv_testOp {s : State} (hs : s.Inv) (g : Guard) (d : Reg5) (t : FType) (h : Bool) (srcs : List Reg5) (f : List Val → Bool) :
    Canonical (testOp s g d t h srcs f) :=
  inv_pvResult hs ..

theorem inv_execVred (o : OpVred) {s : State} (hs : s.Inv) : Canonical (execVred o s) := inv_slotOp fun _ _ _ => hs.writeV ..

theorem inv_execVscan (o : OpVred) {s : State} (hs : s.Inv) : Canonical (execVscan o s) := inv_slotOp fun _ _ _ => hs.writeV ..

/-! ## The memory instructions of the F slot -/

theorem State.Inv.vCheck {s : State} (hs : s.Inv) (o : VMemOp) (r : Regs) : (s.vCheck o r).Inv State.Inv := by
  unfold State.vCheck
  extract_lets act addrs align badLane
  split
  · exact hs
  · clear_value badLane
    split
    · exact hs
    · split
      · exact hs
      · split
        exacts [hs, ⟨hs, hs⟩]

theorem State.Inv.vTranslate (u : Use) : ∀ (l : List Piece) {s : State}, s.Inv → (s.vTranslate u l).Inv State.Inv
  | [], s, hs => by
    unfold State.vTranslate
    exact ⟨hs, hs⟩
  | p :: ps, s, hs => by
    unfold State.vTranslate
    split
    · next heq => exact (hs.translate ..).of_fst heq
    · next heq => exact ((hs.translate ..).of_fst heq).vTranslate ..

theorem State.Inv.vFull (u : Use) : ∀ (l : List Piece) {s : State}, s.Inv → (s.vFull u l).Inv State.Inv
  | [], s, hs => by
    unfold State.vFull
    exact ⟨hs, hs⟩
  | p :: ps, s, hs => by
    unfold State.vFull
    split
    · next heq => exact (hs.translate ..).of_fst heq
    · next heq =>
      have ht1 := (hs.translate ..).of_fst heq
      split
      · next heq1 => exact (ht1.ensureRow ..).of_fst heq1
      · exact ht1.vFull ..
      · exact ht1.vFull ..

theorem State.Inv.vLoad (blocked : Option Bool) :
    ∀ (l : List Piece) (acc : List (Piece × Loaded)) {s : State}, s.Inv → (s.vLoad blocked l acc).Inv fun _ => True
  | [], acc, s, hs => by
    unfold State.vLoad
    split
    exacts [⟨hs, trivial⟩, hs]
  | p :: ps, acc, s, hs => by
    unfold State.vLoad
    split
    · next heq =>
      obtain ⟨ht1, -⟩ := (hs.stashLoad ..).of_eq heq
      exact ht1.vLoad ..
    · next heq => exact (hs.stashLoad ..).of_eq heq
    · next heq => exact ((hs.stashLoad ..).of_eq heq).vLoad ..
    · next heq => exact (hs.stashLoad ..).of_eq heq

theorem inv_vloadOp {s : State} (hs : s.Inv) (o : VMemOp) : Canonical (vloadOp s o) := by
  unfold vloadOp
  refine inv_slotOp fun _ _ _ => State.inv_ite hs (Try.Inv.finish ((hs.vCheck ..).bind fun t t1 ht ht1 => (ht.vTranslate ..).bind fun t2 t3 ht2 ht3
    => (ht2.vFull ..).bind fun t4 t5 ht4 ht5 => ?_))
  split
  · next heq =>
    obtain ⟨ht6, -⟩ := (ht4.vLoad ..).of_eq heq
    exact ⟨ht6.writeV .., ht6.writeV ..⟩
  · next heq => exact (ht4.vLoad ..).of_eq heq
  · exact ht4
  · exact ht4

theorem State.Inv.vStore (n : Nat) (v : VV) (gp : Bool) (first : Piece → Bool) :
    ∀ (l : List Piece) {s : State}, s.Inv → (s.vStore n v gp first l).Inv State.Inv
  | [], s, hs => by
    unfold State.vStore
    exact ⟨hs, hs⟩
  | p :: ps, s, hs => by
    unfold State.vStore
    split
    · next heq =>
      obtain ⟨ht1, ht1v⟩ := (hs.stashStore ..).of_eq heq
      exact ht1.vStore ..
    · next heq => exact (hs.stashStore ..).of_eq heq
    · next heq => exact (hs.stashStore ..).of_eq heq
    · next heq => exact (hs.stashStore ..).of_eq heq

theorem State.Inv.vStoreAll {s : State} (hs : s.Inv) (n : Nat) (v : VV) (gp : Bool) (first : Piece → Bool) (ps : List Piece) :
    (s.vStoreAll n v gp first ps).Inv State.Inv := by
  unfold State.vStoreAll
  extract_lets store src
  have hstore : ∀ (s : State), s.Inv → Try.Inv Inv (store s) := fun _ ht => ht.vStore ..
  split
  · next heq =>
    have ht1 := (hstore _ hs).of_eq heq
    split
    · exact ht1
    · split
      · next heq1 =>
        obtain ⟨ht2, ht2v⟩ := (hstore _ (hs.sameMem (by rfl))).of_eq heq1
        exact ⟨ht2, ht2⟩
      · exact hstore _ (hs.sameMem (by rfl))
  · exact hstore _ hs

theorem inv_vstoreOp {s : State} (hs : s.Inv) (o : VMemOp) : Canonical (vstoreOp s o) := by
  unfold vstoreOp
  refine inv_slotOp fun _ _ _ => State.inv_ite hs (Try.Inv.finish ((hs.vCheck ..).bind fun t t1 ht ht1 => (ht.vTranslate ..).bind fun t2 t3 ht2 ht3
    => (ht2.vFull ..).bind fun t4 t5 ht4 ht5 => ?_))
  split
  · next heq =>
    obtain ⟨ht6, ht6v⟩ := (ht4.vStoreAll ..).of_eq heq
    exact ⟨ht6, ht6⟩
  · exact ht4.stall
  · exact ht4
  · exact ht4

/-! ## A bundle that stalls or is undone -/

theorem State.Inv.stallWith {s0 : State} (hs0 : s0.Inv) (s : State) (c n : Nat) : (s0.stallWith s c n).Inv := by
  unfold State.stallWith
  split
  exacts [((hs0.stall.updCtx ..).sameMem (by rfl)).postOnce .., hs0.stall]

theorem State.Inv.undoTo {s0 : State} (hs0 : s0.Inv) (cause : Nat) (info : Word64) : (s0.undoTo cause info).Inv := by
  unfold State.undoTo
  split
  exacts [hs0.poisonKill .., hs0.trap ..]

theorem State.Inv.landAfterWrites {s : State} (hs : s.Inv) (p : Nat) : (s.landAfterWrites p).Inv := by
  unfold State.landAfterWrites
  split
  exacts [hs, hs.forEach fun _ _ ht => ht.forEach fun _ _ ht1 => State.inv_ite ht1 (ht1.landLate ..)]

end Sys2Proof.Machine
end

section
/-! SUPPORT. A step keeps the canonical form of memory: the meanings of the instructions, the attempt of a bundle, the events. -/

namespace Sys2Proof.Machine

/-! ## One instruction or event -/

theorem inv_exec {s : State} (hs : s.Inv) (i : Instr) : Canonical (exec i s) := by
  unfold exec
  cases i with
  | br _ | call _ | br64 _ | call64 _ => exact inv_jumpOp hs ..
  | brc _ | brc64 _ => exact inv_brcOp hs ..
  | ret _ => exact inv_execRet _ hs
  | loop _ => exact inv_execLoop _ hs
  | eret _ => exact inv_execEret _ hs
  | trap _ | trap64 _ => exact inv_trapOp hs ..
  | yield _ => exact inv_execYield _ hs
  | retire _ => exact inv_execRetire _ hs
  | halt _ => exact inv_execHalt _ hs
  | launch _ => exact inv_execLaunch _ hs
  | mfsr _ => exact inv_execMfsr _ hs
  | mtsr _ => exact inv_execMtsr _ hs
  | tlbi _ => exact inv_execTlbi _ hs
  | fenset _ => exact inv_execFenset _ hs
  | evac _ => exact inv_execEvac _ hs
  | draftld _ => exact inv_execDraftld _ hs
  | cmpC _ | cmpiC _ | pandC _ | porC _ | pxorC _ | pnotC _ | psetC _ | pmovC _ | cmpI _ | cmpiI _ | cmpiC64 _
  | psetC64 _ | cmpiI64 _ => exact inv_pResult hs ..
  | addiC _ | addiC64 _ => exact inv_addiCResult hs ..
  | liC _ | xmovC _ | liC64 _ => exact inv_cResult hs ..
  | add _ | sub _ | mul _ | mulh _ | and _ | or _ | xor _ | andn _ | shl _ | shr _ | sra _ | rotl _ | min _
  | max _ => exact inv_aluResult hs ..
  | addiI _ | sel _ | liI _ | lih _ | lea _ | bfx _ | bfi _ | xmovI _ | addiI64 _ | sel64 _ | liI64 _
  | lih64 _ | lea64 _ | bfxImm _ | bfiImm _ => exact inv_iResult hs ..
  | div _ | rem _ => exact inv_divideResult hs ..
  | clz _ | popc _ | abs _ => exact inv_aluUnary hs ..
  | ld _ | ld64 _ => exact inv_ldOp hs ..
  | st _ | st64 _ => exact inv_stOp hs ..
  | lda _ | lda64 _ => exact inv_ldaOp hs ..
  | chka _ | chka64 _ => exact inv_chkaOp hs ..
  | ldacq _ | ldacq64 _ => exact inv_ldacqOp hs ..
  | strel _ | strel64 _ => exact inv_strelOp hs ..
  | pandIF _ | porIF _ | pxorIF _ | pnotIF _ | psetIF _ | pmovIF _ | psetIF64 _ => exact inv_predResult hs ..
  | vadd _ | vsub _ | vmul _ | vmax _ | vmin _ | vldexp _ => exact inv_v2Op hs ..
  | vabs _ | vneg _ | vexp2 _ | vlog2 _ | vrcp _ | vrsq _ => exact inv_v1Op hs ..
  | vrnd _ | vrnd64 _ => exact inv_vrndOp hs ..
  | vred _ => exact inv_execVred _ hs
  | vscan _ => exact inv_execVscan _ hs
  | vperm _ | viota _ | vmov _ | vunpk _ | vsel _ | vcvt _ | vcswap _ => exact inv_vResult hs ..
  | vbcast _ | vbcast64 _ => exact inv_vbcastOp hs ..
  | vpack _ | vpack64 _ => exact inv_vpackOp hs ..
  | vld _ | vgath _ | vld64 _ | vgath64 _ => exact inv_vloadOp hs ..
  | vst _ | vscat _ | vst64 _ | vscat64 _ => exact inv_vstoreOp hs ..
  | mcfg _ => exact inv_execMcfg _ hs
  | mfmt _ | mfmt64 _ _ => exact inv_mfmtOp hs ..
  | mdrain _ | mdrain64 _ _ => exact inv_mdrainOp hs ..
  | mma _ | mmaz _ | mma64 _ _ | mmaz64 _ _ => exact inv_mmaOp hs ..
  | mbld _ | mbld64 _ _ => exact inv_mbldOp hs ..
  | mzero _ | mzero64 _ _ => exact inv_mzeroOp hs ..
  | mzrd _ | mzrd64 _ _ => exact inv_mzrdOp hs ..
  | mzwr _ | mzwr64 _ _ => exact inv_mzwrOp hs ..
  | mzst _ | mzld _ | mzst64 _ _ | mzld64 _ _ => exact inv_mtileOp hs ..
  | mtrn _ | mtrn64 _ _ => exact inv_mtrnOp hs ..
  | mbfly _ | mbfly64 _ _ => exact inv_mbflyOp hs ..
  | mtwid _ | mtwid64 _ _ => exact inv_mtwidOp hs ..
  | qset _ | qset64 _ _ => exact inv_qsetOp hs ..
  | qld _ | qst _ | qgath _ | qscat _ | qld64 _ _ | qst64 _ _ | qgath64 _ _ | qscat64 _ _ => exact inv_qstrmOp hs ..
  | qcopy _ | qcopy64 _ _ => exact inv_qcopyOp hs ..
  | qrcopy _ | qrcopy64 _ _ => exact inv_qrcopyOp hs ..
  | qccopy _ | qccopy64 _ _ => exact inv_qccopyOp hs ..
  | gcfg _ | gcfg64 _ _ => exact inv_gcfgOp hs ..
  | grun _ | grun64 _ _ => exact inv_grunOp hs ..
  | gstop _ | gstop64 _ _ => exact inv_gstopOp hs ..
  | qsave _ | qsave64 _ _ => exact inv_qsaveOp hs ..
  | qrest _ | qrest64 _ _ => exact inv_qrestOp hs ..
  | spin _ | sunpin _ | swb _ | sinv _ | spin64 _ _ | sunpin64 _ _ | swb64 _ _ | sinv64 _ _ => exact inv_stashOp hs ..
  | semset _ | semset64 _ => exact inv_semsetOp hs ..
  | semadd _ | semadd64 _ _ => exact inv_semaddOp hs ..
  | semwait _ | semwait64 _ => exact inv_semwaitOp hs ..
  | fence _ => exact inv_execFence _ hs
  | drain _ | drain64 _ _ => exact inv_drainOp hs ..
  | step _ | step64 _ _ => exact inv_stepOp hs ..
  | aadd _ | aand _ | aor _ | axor _ | amin _ | amax _ | aswp _ | aadd64 _ | aand64 _ | aor64 _ | axor64 _
  | amin64 _ | amax64 _ | aswp64 _ | acas _ => exact inv_atomicOp hs ..
  | chsend _ | chrecv _ | chabort _ | chsend64 _ _ | chrecv64 _ _ | chabort64 _ _ => exact inv_channelOp hs ..
  | chstart _ | chstart64 _ _ => exact inv_chstartOp hs ..
  | tstart _ => exact inv_execTstart _ hs
  | rdtime _ => exact inv_execRdtime _ hs
  | mwb _ => exact inv_execMwb _ hs
  | vfma _ | vfms _ => exact inv_v3Op hs ..
  | vcmp _ | vclass _ => exact inv_testOp hs ..
  | qtailWrite => exact inv_execQtailWrite hs
  | residencyQuantumBoundary => exact inv_execResidencyQuantumBoundary hs
  | dispatch => exact inv_execDispatch hs
  | launchPlacement => exact inv_execLaunchPlacement hs
  | launchSemaphoreWrite => exact inv_execLaunchSemaphoreWrite hs
  | launchCompletion => exact inv_execLaunchCompletion hs
  | clusterPowerGate => exact inv_execClusterPowerGate hs
  | issueCounterYield => exact inv_execIssueCounterYield hs
  | eventTaken => exact inv_execEventTaken hs
  | noticeTaken => exact inv_execNoticeTaken hs
  | stashFillArrival => exact inv_execStashFillArrival hs
  | watchdog => exact inv_execWatchdog hs
  | timeGateFire => exact inv_execTimeGateFire hs
  | prectlGo => exact inv_execPrectlGo hs
  | preemptLimitExpiry => exact inv_execPreemptLimitExpiry hs
  | matrixQueueStart => exact inv_execMatrixQueueStart hs
  | mmaCompletion => exact inv_execMmaCompletion hs
  | mbldCompletion => exact inv_execMbldCompletion hs
  | mzstCompletion => exact inv_execMzstCompletion hs
  | mzldCompletion => exact inv_execMzldCompletion hs
  | mtrnCompletion => exact inv_execMtrnCompletion hs
  | mbflyCompletion => exact inv_execMbflyCompletion hs
  | mtwidCompletion => exact inv_execMtwidCompletion hs
  | mfmtCompletion => exact inv_execMfmtCompletion hs
  | mdrainStart => exact inv_execMdrainStart hs
  | mzrdCompletion => exact inv_execMzrdCompletion hs
  | mzwrCompletion => exact inv_execMzwrCompletion hs
  | mzeroCompletion => exact inv_execMzeroCompletion hs
  | mcfgClear => exact inv_execMcfgClear hs
  | streamCommandStart => exact inv_execStreamCommandStart hs
  | streamElementFault => exact inv_execStreamElementFault hs
  | streamRetire => exact inv_execStreamRetire hs
  | qsetCompletion => exact inv_execQsetCompletion hs
  | gcfgLoadEnd => exact inv_execGcfgLoadEnd hs
  | grunCompletion => exact inv_execGrunCompletion hs
  | gstopBoundary => exact inv_execGstopBoundary hs
  | fabricInvocationStart => exact inv_execFabricInvocationStart hs
  | fabricInvocationEnd => exact inv_execFabricInvocationEnd hs
  | packetArrival => exact inv_execPacketArrival hs
  | flowRowSend => exact inv_execFlowRowSend hs
  | rowLanding => exact inv_execRowLanding hs
  | landingAcknowledgement => exact inv_execLandingAcknowledgement hs
  | lossAcknowledgement => exact inv_execLossAcknowledgement hs
  | parkedRowRetry => exact inv_execParkedRowRetry hs
  | flowRowLost => exact inv_execFlowRowLost hs
  | creditTokenArrival => exact inv_execCreditTokenArrival hs
  | channelCommandStart => exact inv_execChannelCommandStart hs
  | chrecvCompletion => exact inv_execChrecvCompletion hs
  | ringInstanceStart => exact inv_execRingInstanceStart hs
  | ringPacketArrival => exact inv_execRingPacketArrival hs
  | ringInstanceCompletion => exact inv_execRingInstanceCompletion hs
  | remoteTimeout => exact inv_execRemoteTimeout hs
  | abortTokenArrival => exact inv_execAbortTokenArrival hs
  | ringCommit => exact inv_execRingCommit hs
  | ringCommitReread => exact inv_execRingCommitReread hs
  | linkTimeout => exact inv_execLinkTimeout hs
  | linkPacketArrival => exact inv_execLinkPacketArrival hs
  | linkTraining => exact inv_execLinkTraining hs
  | stepBarrierOpen => exact inv_execStepBarrierOpen hs
  | drainStart => exact inv_execDrainStart hs
  | semaddApply => exact inv_execSemaddApply hs
  | atomicResponse => exact inv_execAtomicResponse hs
  | draftldCompletion => exact inv_execDraftldCompletion hs
  | tlbiCompletion => exact inv_execTlbiCompletion hs
  | evacCompletion => exact inv_execEvacCompletion hs
  | retireAccepted => exact inv_execRetireAccepted hs
  | stashCommandCompletion => exact inv_execStashCommandCompletion hs
  | copyCompletion => exact inv_execCopyCompletion hs
  | qsaveCompletion => exact inv_execQsaveCompletion hs
  | opreqGo => exact inv_execOpreqGo hs
  | operatingPointStepEnd => exact inv_execOperatingPointStepEnd hs
  | thermalThrottle => exact inv_execThermalThrottle hs
  | thermalRecovery => exact inv_execThermalRecovery hs
  | thermalReset => exact inv_execThermalReset hs
  | moduleReset => exact inv_execModuleReset hs
  | reconfigurationRequest => exact inv_execReconfigurationRequest hs
  | getDigests => exact inv_execGetDigests hs
  | getCertificate => exact inv_execGetCertificate hs
  | challenge => exact inv_execChallenge hs
  | getMeasurements => exact inv_execGetMeasurements hs
  | keyExchange => exact inv_execKeyExchange hs
  | finish => exact inv_execFinish hs
  | keyload => exact inv_execKeyload hs
  | keyclear => exact inv_execKeyclear hs
  | rowSparing => exact inv_execRowSparing hs
  | shadowLatchReplay => exact inv_execShadowLatchReplay hs
  | hostWrite => exact inv_execHostWrite hs
  | hostRead => exact inv_execHostRead hs
  | tdiError => exact inv_execTdiError hs
  | crctlWrite => exact inv_execCrctlWrite hs
  | flogstWrite => exact inv_execFlogstWrite hs
  | fqstatWrite => exact inv_execFqstatWrite hs
  | ststatWrite => exact inv_execStstatWrite hs
  | lpstatWrite => exact inv_execLpstatWrite hs
  | notstatWrite => exact inv_execNotstatWrite hs
  | silcntWrite => exact inv_execSilcntWrite hs
  | fetchFault => exact inv_execFetchFault hs
  | bundleWithPmZero => exact inv_execBundleWithPmZero hs
  | writeBackPerformed => exact inv_execWriteBackPerformed hs
  | launchAppend => exact inv_execLaunchAppend hs
  | qrestCompletion => exact inv_execQrestCompletion hs
  | streamDataArrival => exact inv_execStreamDataArrival hs
  | storeStreamElementPerformed => exact inv_execStoreStreamElementPerformed hs
  | tdispRequest => exact inv_execTdispRequest hs

/-! ## The attempt of a bundle -/

theorem inv_slotOutcome {s : State} (hs : s.Inv) (t : SlotWord) : Canonical (slotOutcome s t) := by
  unfold slotOutcome
  split
  · exact inv_exec hs _
  · exact hs.trap ..

theorem inv_waitAll : ∀ (ts : List SlotWord) {s : State} (_ : s.Inv) (blocked : Bool), Canonical (waitAll s ts blocked)
  | [], _, hs, _ => hs
  | t :: ts, s, hs, blocked => by
    have ht : Canonical (slotOutcome { s with bun := { s.bun with status := .normal } } t) :=
      inv_slotOutcome (hs.sameMem (by rfl)) t
    unfold waitAll
    split
    next _ heq => exact inv_waitAll ts (ht.of_eq heq) _
    next => exact ht

theorem inv_performAll {s0 : State} (hs0 : s0.Inv) (c n : Nat) :
    ∀ (ts : List SlotWord) {s : State} (_ : s.Inv), Canonical (performAll s0 c n s ts)
  | [], _, hs => hs
  | t :: ts, s, hs => by
    have ht := inv_slotOutcome hs t
    unfold performAll
    split
    next s' heq =>
      have hs' : s'.Inv := ht.of_eq heq
      split
      · exact hs0.undoTo ..
      · split
        · exact hs0.stallWith ..
        · exact inv_performAll hs0 c n ts hs'
    next => exact ht

/-- The outcome that `runSlots` picks is that of one of the slots. -/
theorem canonical_of_find?_outcome {s : State} (hs : s.Inv) {ts : List SlotWord}
    {p : SlotWord × Host.Outcome State Fault Refusal → Bool} {r : SlotWord × Host.Outcome State Fault Refusal}
    (h : (ts.map fun t => (t, slotOutcome s t)).find? p = some r) : Canonical r.2 := by
  obtain ⟨t, -, rfl⟩ := List.mem_map.1 (List.mem_of_find?_eq_some h)
  exact inv_slotOutcome hs t

theorem inv_runSlots {s : State} (hs : s.Inv) (c n : Nat) (ts : List SlotWord) : Canonical (runSlots s c n ts) := by
  unfold runSlots
  extract_lets
  split
  next heq => exact canonical_of_find?_outcome hs heq
  next =>
    split
    · exact inv_waitAll _ hs _
    · split
      next heq => exact canonical_of_find?_outcome hs heq
      next => exact inv_performAll hs c n _ (hs.sameMem (by rfl))

theorem Canonical.finishOutcome {o : Host.Outcome State Fault Refusal} (h : Canonical o) (c n : Nat) :
    Canonical (finishOutcome c n o) := by
  cases o with
  | next s => exact State.Inv.finish h c n
  | fault e => trivial
  | refused r => trivial

theorem inv_attemptRaw {s : State} (hs : s.Inv) (c n : Nat) (x : Ctx) (b : Raw) : Canonical (attemptRaw s c n x b) := by
  have hb := hs.begin c n x b
  unfold attemptRaw
  extract_lets
  split
  · exact hb.trap ..
  · split
    · exact hb.trap ..
    · split
      · exact inv_exec (hs.sameMem (by rfl)) _
      · split
        · exact State.Inv.finish hb.stall c n
        · exact (inv_runSlots hb c n _).finishOutcome c n

theorem inv_attempt {s : State} (hs : s.Inv) (c n : Nat) : Canonical (attempt s c n) := by
  have hi := (hs.countIssue c n).landLate c n
  unfold attempt
  extract_lets
  split
  · exact hi
  · split
    · exact hi.kill ..
    · split
      · exact inv_exec (hi.sameMem (by rfl)) _
      · split
        · exact inv_exec (hi.sameMem (by rfl)) _
        · split
          · exact inv_exec (hi.sameMem (by rfl)) _
          · have ht := hi.updCtx c n fun x => { x with yreq := x.yreq && x.win.isSome }
            split
            · exact inv_exec (ht.sameMem (by rfl)) _
            next heq => exact inv_attemptRaw ((ht.nextBundle _ _).of_fst heq) c n _ _

theorem inv_issueCore {s : State} (hs : s.Inv) (c : Nat) : Canonical (issueCore s c) := by
  unfold issueCore
  split
  · exact hs.selectCtx c
  · exact inv_attempt hs c _

/-! ## A step -/

theorem Canonical.afterEvent {o : Host.Outcome State Fault Refusal} (h : Canonical o) (e : Event) : Canonical (afterEvent e o) := by
  unfold Machine.afterEvent
  split
  next s =>
    have hs : s.Inv := h
    split
    · exact hs.postOnce ..
    · exact hs.landAfterWrites _
    · exact hs.landAfterWrites _
    · split
      · exact hs
      · exact hs.tellLaunch _
  next => exact h

theorem inv_happen {s : State} (hs : s.Inv) (e : Event) : Canonical (happen s e) := by
  unfold happen
  split
  · exact (inv_exec (hs.sameMem (by rfl)) _).afterEvent e
  · split
    · exact hs.post ..
    · exact (inv_exec (hs.sameMem (by rfl)) _).afterEvent e

theorem inv_advanceModule {s : State} (hs : s.Inv) : Canonical (advanceModule s) := by
  unfold advanceModule
  split
  · split
    · exact inv_happen ((hs.advance _).sameMem (by rfl)) _
    · split
      · exact inv_happen ((hs.advance _).sameMem (by rfl)) _
      · exact inv_issueCore (hs.advance _) _
  · exact inv_happen ((hs.advance _).sameMem (by rfl)) _
  · exact inv_issueCore (hs.advance _) _
  · exact hs.advance _

/-- Settles O6: every function that a step runs keeps the canonical form of memory, down to the writes of bytes. -/
theorem stepKeepsTheInvariant : Obligations.StepKeepsTheInvariant := by
  unfold Obligations.StepKeepsTheInvariant
  intro s t hs hstep
  exact (inv_advanceModule hs).of_eq hstep

end Sys2Proof.Machine
end

section
/-! SUPPORT. What the accesses of memory, the failures of sectors and the end of a launch that has not run leave of the partitions: the state of TDISP
(13 R318), and all of them where lines leave a slice (10 R246). -/

namespace Sys2Proof.Machine

/-! ## What leaves every partition -/

theorem State.forEach_parts {α : Type} {f : State → α → State} (h : ∀ (s : State) (x : α), (f s x).parts = s.parts) (l : List α) (s : State) :
    (s.forEach l f).parts = s.parts :=
  State.forEach_keeps (fun t => t.parts = s.parts) (fun t x ht => (h t x).trans ht) l s rfl

@[simp] theorem State.wakeControl_parts (s : State) (p : Nat) : (s.wakeControl p).parts = s.parts := by
  unfold State.wakeControl
  split <;> simp

@[simp] theorem State.revoke_parts (s : State) (own pa : Nat) : (s.revoke own pa).parts = s.parts := by
  unfold State.revoke
  dsimp only
  split
  · rfl
  · split
    · simp
    · exact forEach_parts (fun _ _ => by simp) _ s

@[simp] theorem State.setHbmWord_parts (s : State) (pa : Nat) (w : PWord) : (s.setHbmWord pa w).parts = s.parts :=
  State.forEach_parts (fun t i => State.setHbmByte_parts t (pa + i) _) (List.range 4) s

@[simp] theorem State.writeSector_parts (s : State) (x : Line) (i : Nat) : (s.writeSector x i).parts = s.parts := by
  unfold State.writeSector
  refine (State.forEach_parts (fun t j => by simp) _ _).trans ?_
  dsimp only
  split
  · rfl
  · exact State.forEach_parts (fun t j => by simp) _ s

@[simp] theorem State.writeLine_parts (s : State) (x : Line) : (s.writeLine x).parts = s.parts :=
  State.forEach_parts (fun t i => by split <;> simp) _ s

@[simp] theorem State.leaveLine_parts (s : State) (n : Nat) (x : Line) : (s.leaveLine n x).parts = s.parts :=
  (State.writeLine_parts _ x).trans (State.updSlice_parts ..)

@[simp] theorem State.leaveLines_parts (s : State) (n : Nat) (sel : Line → Bool) : (s.leaveLines n sel).parts = s.parts := by
  unfold State.leaveLines
  split
  · rfl
  · exact State.forEach_parts (fun t x => by simp) _ s

@[simp] theorem State.placeLine_parts (s : State) (n : Nat) (x : Line) (allowed : List Nat) (retained : Bool) :
    (s.placeLine n x allowed retained).parts = s.parts := by
  unfold State.placeLine
  split
  · simp
  · next v _ => cases v <;> simp

@[simp] theorem State.setLine_parts (s : State) (n : Nat) (y : Line) : (s.setLine n y).parts = s.parts := by
  unfold State.setLine
  split
  · simp
  · split <;> simp

@[simp] theorem State.countLine_parts (s : State) (a : Access) (pa : Nat) : (s.countLine a pa).1.parts = s.parts := by
  unfold State.countLine
  split <;> simp

@[simp] theorem State.mergeWord_parts (own : Nat) (acc : State × Line) (j : Nat) (w : PWord) (mask : Nat) :
    (State.mergeWord own acc j w mask).1.parts = acc.1.parts := by
  unfold State.mergeWord
  split
  · rfl
  · dsimp only
    split <;> simp

theorem State.mergeWords_parts (own first : Nat) : ∀ (l : List ((PWord × Nat) × Nat)) (acc : State × Line),
    (l.foldl (fun acc w => State.mergeWord own acc (first + w.2) w.1.1 w.1.2) acc).1.parts = acc.1.parts
  | [], _ => rfl
  | w :: l, acc => (State.mergeWords_parts own first l _).trans (State.mergeWord_parts ..)

@[simp] theorem State.abortLaunch_parts (s : State) (l : Nat) : (s.abortLaunch l).parts = s.parts :=
  (State.post_parts ..).trans (State.updLaunch_parts ..)

@[simp] theorem State.abortAll_parts (s : State) (p : Nat) : (s.abortAll p).parts = s.parts :=
  (State.postOnce_parts ..).trans (State.forEach_parts State.abortLaunch_parts _ s)

/-- Erasing a domain changes a partition by its key alone. -/
theorem State.eraseDomain_part? (s : State) (p e : Nat) :
    (s.eraseDomain p e).part? p = (s.part? p).map fun q => { q with keys := Tab.set none q.keys e none } := by
  have hparts : ((s.forEach (s.slices.map (·.1)) fun s n => s.leaveLines n fun x => x.part == p && x.ed == e).dropDomainRows p e).parts = s.parts :=
    State.forEach_parts (fun t n => by simp) _ s
  refine (State.part?_updPart_same ..).trans ?_
  rw [State.part?, hparts]
  rfl

/-! ## What leaves the state of TDISP -/

/-- A partition is there, and its state of TDISP is `d`. -/
def State.TdiIs (p d : Nat) (s : State) : Prop := ∃ q, s.part? p = some q ∧ q.tdist = d

namespace State.TdiIs

variable {p d : Nat} {s : State}

theorem of_parts {t : State} (h : s.TdiIs p d) (hparts : t.parts = s.parts) : t.TdiIs p d := by
  obtain ⟨q, hq, hd⟩ := h
  exact ⟨q, by rwa [State.part?, hparts], hd⟩

theorem fst {α : Type} {r : State × α} {t : State} {a : α} (h : r.1.TdiIs p d) (he : r = (t, a)) : t.TdiIs p d := by
  subst he
  exact h

theorem forEach {α : Type} {f : State → α → State} (h : s.TdiIs p d) (hf : ∀ (t : State) (x : α), t.TdiIs p d → (f t x).TdiIs p d) (l : List α) :
    (s.forEach l f).TdiIs p d := State.forEach_keeps (State.TdiIs p d) hf l s h

theorem updPart (h : s.TdiIs p d) (p' : Nat) {f : Part → Part} (hf : ∀ q, (f q).tdist = q.tdist) : (s.updPart p' f).TdiIs p d := by
  obtain ⟨q, hq, hd⟩ := h
  by_cases hp : p = p'
  · subst hp
    exact ⟨f q, (State.part?_updPart_same s p f).trans (congrArg _ hq), (hf q).trans hd⟩
  · exact ⟨q, (State.part?_updPart_ne s f hp).trans hq, hd⟩

theorem notice (h : s.TdiIs p d) (p' cause : Nat) (info : Word64) : (s.notice p' cause info).TdiIs p d :=
  (h.updPart p' fun _ => by split <;> rfl).of_parts (State.wakeControl_parts ..)

theorem eraseDomain (h : s.TdiIs p d) (p' e : Nat) : (s.eraseDomain p' e).TdiIs p d := by
  unfold State.eraseDomain
  refine updPart (of_parts h ?_) p' fun _ => rfl
  exact State.forEach_parts (fun t n => by simp) _ s

theorem fence (h : s.TdiIs p d) (p' : Nat) : (s.fence p').TdiIs p d := by
  unfold State.fence
  refine of_parts (forEach (updPart h p' ?_) (fun _ e ht => ht.eraseDomain p' e) (List.range 8)) (State.abortAll_parts ..)
  exact fun _ => rfl

theorem countIntegrity (h : s.TdiIs p d) (p' : Nat) : (s.countIntegrity p').TdiIs p d := by
  have hcount : ∀ n, (s.updPart p' fun q => { q with seccnt := n }).TdiIs p d := fun _ => h.updPart p' fun _ => rfl
  unfold State.countIntegrity
  split
  · exact h
  · dsimp only
    split
    · exact (hcount _).fence p'
    · exact hcount _

theorem startSparing (h : s.TdiIs p d) (sec : Nat) : (s.startSparing sec).TdiIs p d := by
  have hmodule : ∀ m, ({ s with module := m } : State).TdiIs p d := fun _ => h
  unfold State.startSparing
  dsimp only
  split
  · exact h
  · split
    · exact h
    · exact (hmodule _).notice ..

theorem countCorrected (h : s.TdiIs p d) (sec : Nat) : (s.countCorrected sec).TdiIs p d := by
  have hmodule : ∀ m, ({ s with module := m } : State).TdiIs p d := fun _ => h
  unfold State.countCorrected
  dsimp only
  split
  · exact h
  · split
    · exact h
    · exact (hmodule _).startSparing sec

theorem checkSector (h : s.TdiIs p d) (a : Access) (sec : Nat) : (s.checkSector a sec).1.TdiIs p d := by
  have hfails : ∀ info, ((s.notice a.part 0x13 info).countIntegrity a.part).TdiIs p d := fun info => (h.notice _ _ info).countIntegrity _
  unfold State.checkSector
  split
  · exact h.notice ..
  · exact h.notice ..
  · exact hfails _
  · split
    · exact h
    · exact hfails _
  · split
    · exact h.countCorrected sec
    · exact hfails _

/-! ## Reads and writes of home memory -/

theorem fillSector {acc : State × List PWord} (h : acc.1.TdiIs p d) (a : Access) (no : Nat) (whole : Nat → Bool) (i : Nat) :
    (State.fillSector a no whole acc i).1.TdiIs p d := by
  have hread : (if whole i then (acc.1, true) else acc.1.checkSector a (2 * no + i)).1.TdiIs p d := by
    split
    · exact h
    · exact h.checkSector a _
  unfold State.fillSector
  dsimp only
  split
  · next heq => exact hread.fst heq
  · next heq => exact hread.fst heq

theorem openLine (h : s.TdiIs p d) (a : Access) (no : Nat) (whole : Nat → Bool) : (s.openLine a no whole).1.TdiIs p d := by
  have hsettled : ((s.settleWays (s.homeSlice (128 * no))).countLine a (128 * no)).1.TdiIs p d :=
    h.of_parts ((State.countLine_parts ..).trans (State.updSlice_parts ..))
  unfold State.openLine
  dsimp only
  generalize (s.settleWays (s.homeSlice (128 * no))).countLine a (128 * no) = r at hsettled ⊢
  obtain ⟨t, retained⟩ := r
  dsimp only
  split
  · refine hsettled.of_parts ?_
    dsimp only
    split <;> simp
  · have hfill := fillSector (fillSector (acc := (t, [])) hsettled a no whole 0) a no whole 1
    dsimp only
    split
    · exact hfill
    · exact hfill.of_parts (State.placeLine_parts ..)

theorem lineWords (h : s.TdiIs p d) (a : Access) (pa n : Nat) : (s.lineWords a pa n).1.TdiIs p d := by
  unfold State.lineWords
  split
  · exact h
  · exact h.openLine ..

theorem homeWords (a : Access) : ∀ (fuel : Nat) {s : State} (_ : s.TdiIs p d) (pa n : Nat), (s.homeWords a fuel pa n).1.TdiIs p d
  | 0, _, h, _, _ => h
  | fuel + 1, _, h, pa, n => by
    simp only [State.homeWords]
    split
    · exact h
    · exact homeWords a fuel (h.lineWords ..) _ _

theorem homeRead (h : s.TdiIs p d) (a : Access) (pa n : Nat) : (s.homeRead a pa n).1.TdiIs p d :=
  homeWords a ((pa + n - pa / 4 * 4 + 3) / 4 + 1) h (pa / 4 * 4) ((pa + n - pa / 4 * 4 + 3) / 4)

theorem lineWrite (h : s.TdiIs p d) (a : Access) (own pa : Nat) (ws : List (PWord × Nat)) : (s.lineWrite a own pa ws).TdiIs p d := by
  unfold State.lineWrite
  dsimp only
  split
  · exact h
  · split
    · exact h.forEach (fun _ _ ht => ht.notice ..) _
    · generalize hr : State.openLine s a (pa / 128) _ = r
      have hopen : r.1.TdiIs p d := hr ▸ h.openLine a (pa / 128) _
      split
      · exact hopen.forEach (fun _ _ ht => ht.notice ..) _
      · exact hopen.of_parts ((State.setLine_parts ..).trans (State.mergeWords_parts own (pa % 128 / 4) ws.zipIdx r))

theorem homeWrite (a : Access) (own : Nat) : ∀ (fuel : Nat) {s : State} (_ : s.TdiIs p d) (pa : Nat) (ws : List (PWord × Nat)),
    (s.homeWrite a own fuel pa ws).TdiIs p d
  | 0, _, h, _, _ => h
  | fuel + 1, _, h, pa, ws => by
    simp only [State.homeWrite]
    split
    · exact h
    · exact homeWrite a own fuel (h.lineWrite ..) _ _

theorem homePut (h : s.TdiIs p d) (a : Access) (pa n val : Nat) (psn : Bool) : (s.homePut a pa n val psn).TdiIs p d := homeWrite a 0 _ h _ _

/-! ## Walks -/

theorem orPte (h : s.TdiIs p d) (part pa bits : Nat) : (s.orPte part pa bits).TdiIs p d := by
  unfold State.orPte
  split
  next heq =>
  have hread := (h.homeRead ⟨part, 0, none, none⟩ pa 8).fst heq
  split
  · exact hread
  · exact hread.homePut ..

theorem walkFrom (part va : Nat) (u : Use) : ∀ (fuel : Nat) {s : State} (_ : s.TdiIs p d) (table level : Nat),
    (s.walkFrom part va u fuel table level).1.TdiIs p d
  | 0, _, h, _, _ => h
  | fuel + 1, _, h, table, level => by
    have hread := h.homeRead ⟨part, 0, none, none⟩ (table + 8 * levelIndex va level) 8
    simp only [State.walkFrom]
    split_ifs
    · exact hread
    · exact hread
    · exact hread
    · exact walkFrom part va u fuel hread _ _

theorem translateHome (h : s.TdiIs p d) (part va : Nat) (u : Use) : (s.translateHome part va u).1.TdiIs p d := by
  have hwalk : (s.walk part va u).1.TdiIs p d := by
    unfold State.walk
    split
    · exact h
    · exact walkFrom part va u 3 h _ _
  unfold State.translateHome
  split
  · next heq => exact hwalk.fst heq
  · next heq =>
    split
    · exact hwalk.fst heq
    · exact (hwalk.fst heq).orPte ..

/-! ## The end of a launch that has not run -/

theorem writesPart (part : Nat) : ∀ (ws : List PWord) {s : State} (_ : s.TdiIs p d) (va : Nat), (s.writesPart part va ws).1.TdiIs p d
  | [], _, h, _ => h
  | w :: ws, s, h, va => by
    have hword : (s.writePart part va w).1.TdiIs p d := by
      unfold State.writePart
      split
      · exact h
      · split
        · next heq => exact (h.translateHome ..).fst heq
        · next heq => exact ((h.translateHome ..).fst heq).homePut ..
    unfold State.writesPart
    split
    · next heq => exact hword.fst heq
    · next heq => exact writesPart part ws (hword.fst heq) _

theorem complete (h : s.TdiIs p d) (part : Nat) (e : Entry) (status killed first tstart : Nat) :
    (s.complete part e status killed first tstart).TdiIs p d := by
  unfold State.complete
  extract_lets w t u v
  have ht : t.TdiIs p d := by
    unfold t
    split
    · exact h
    · split
      · next heq => exact (writesPart part _ h _).fst heq
      · exact h.notice ..
  have hu : u.TdiIs p d := by
    unfold u
    split
    · exact ht
    · exact ht.updPart part fun _ => rfl
  have hv : v.parts = u.parts := by
    unfold v
    split
    · exact State.emit_parts ..
    · rfl
  exact hu.of_parts ((State.postOnce_parts ..).trans hv)

theorem abortSelected (h : s.TdiIs p d) (part : Nat) : (s.abortSelected part).TdiIs p d := by
  have hfree : (s.updPart part fun x => { x with selected := none }).TdiIs p d := h.updPart part fun _ => rfl
  unfold State.abortSelected
  split
  · exact h
  · exact hfree.complete ..

end State.TdiIs

end Sys2Proof.Machine
end

section
/-! SUPPORT. Management requests (13 R308 to R318): what each request answers. -/

namespace Sys2Proof.Machine

/-! ## The partition map (13 R309) -/

/-- Whether a partition holds off a change of its entry: it has launches, or TDISP locks it. -/
def State.holdsMap (s : State) (p : Nat) : Bool :=
  !(s.launchesOf p).isEmpty || (match s.part? p with | none => false | some q => q.tdist == 1 || q.tdist == 2)

theorem State.holdsMap_eq_false_iff (s : State) (p : Nat) :
    s.holdsMap p = false ↔ s.launchesOf p = [] ∧ ∀ q, s.part? p = some q → q.tdist ≠ 1 ∧ q.tdist ≠ 2 := by
  unfold State.holdsMap
  cases s.part? p with
  | none => simp
  | some q => simp

theorem execReconfigurationRequest_of_ev {s : State} {m : PartMap} (hev : s.ev = .reconfigurationRequest m) :
    let changed := (List.range 8).filter fun p => PartMap.raw m p != PartMap.raw s.module.map p
    exec .reconfigurationRequest s = .next (if s.module.booterr ≠ 0 || PartMap.refused m s.module.fuses || changed.any s.holdsMap then s.emit (.mgmt false)
      else (s.reconfigure m changed).emit (.mgmt true)) := by
  show execReconfigurationRequest s = _
  unfold execReconfigurationRequest
  rw [hev]
  rfl

/-! ## SPDM (13 R313, R314) -/

theorem State.spdm_of_answers {s : State} {pt link : Option Nat} (hans : s.answers link = true) (hpart : ∀ q, pt = some q → (s.part? q).isSome = true)
    (code : Nat) (about : List Nat) : s.spdm code pt link about = s.emit (.spdm code link (Config.spdmBody code (s.layerKeys pt ++ about))) := by
  unfold State.spdm
  rw [hans]
  cases pt with
  | none => rfl
  | some p => simp [Option.isSome_iff_ne_none.1 (hpart p rfl)]

@[simp] theorem State.spdm_module (s : State) (code : Nat) (pt link : Option Nat) (about : List Nat) : (s.spdm code pt link about).module = s.module := by
  unfold State.spdm
  split_ifs
  all_goals rfl

@[simp] theorem State.spdm_free (s : State) (code : Nat) (pt link : Option Nat) (about : List Nat) : (s.spdm code pt link about).free = s.free := by
  unfold State.spdm
  split_ifs
  all_goals rfl

/-- What the Gradrir core answers with a code: its message, the cores and memory as they were. -/
theorem State.spdm_replies {s u : State} {pt link : Option Nat} (hans : u.answers link = true) (hpart : ∀ q, pt = some q → (u.part? q).isSome = true)
    (hout : u.out = s.out) (hcores : u.cores = s.cores) (hmem : u.mem = s.mem) (code : Nat) (about : List Nat) :
    ∃ b, (u.spdm code pt link about).out = s.out ++ [.spdm code link b] ∧ (u.spdm code pt link about).cores = s.cores ∧
      (u.spdm code pt link about).mem = s.mem := by
  rw [State.spdm_of_answers hans hpart]
  exact ⟨_, congrArg (· ++ _) hout, hcores, hmem⟩

theorem execGetDigests_of_ev {s : State} {pt link : Option Nat} (hev : s.ev = .getDigests pt link) :
    exec .getDigests s = .next (s.spdm 0x81 pt link []) := by
  show execGetDigests s = _
  unfold execGetDigests
  rw [hev]

theorem execGetCertificate_of_ev {s : State} {pt link : Option Nat} (hev : s.ev = .getCertificate pt link) :
    exec .getCertificate s = .next (s.spdm 0x82 pt link []) := by
  show execGetCertificate s = _
  unfold execGetCertificate
  rw [hev]

theorem execChallenge_of_ev {s : State} {pt link : Option Nat} {nonce : Nat} (hev : s.ev = .challenge pt link nonce) :
    exec .challenge s = .next (({ s with free := s.free + 1 } : State).spdm 0x83 pt link [nonce, (Config.drbg s.free).toNat]) := by
  show execChallenge s = _
  unfold execChallenge
  rw [hev]

theorem execGetMeasurements_of_some {s : State} {pt link ses : Option Nat} {i : Nat} {d : BitVec 512} (hev : s.ev = .getMeasurements pt link ses i)
    (hd : s.measurement pt ses i = some d) : exec .getMeasurements s = .next (s.spdm 0xE0 pt link [i, d.toNat]) := by
  show execGetMeasurements s = _
  unfold execGetMeasurements
  rw [hev]
  dsimp only
  rw [hd]

theorem execGetMeasurements_of_none {s : State} {pt link ses : Option Nat} {i : Nat} (hev : s.ev = .getMeasurements pt link ses i)
    (hans : s.answers link = true) (hd : s.measurement pt ses i = none) : exec .getMeasurements s = .next (s.emit (.mgmt false)) := by
  show execGetMeasurements s = _
  unfold execGetMeasurements
  rw [hev]
  dsimp only
  rw [hd, hans]
  rfl

/-- The state in which a session has begun, before its answer. -/
def State.openSession (s : State) (pt link : Option Nat) : State :=
  { s with
    module := { s.module with
      sessions := s.module.sessions ++ [⟨s.module.nextSession, pt, pt.map (PartMap.entry s.module.map), false, link, 0⟩]
      nextSession := s.module.nextSession + 1 }
    free := s.free + 1 }

theorem execKeyExchange_of_answers {s : State} {pt link : Option Nat} {data : Nat} (hev : s.ev = .keyExchange pt link data) (hans : s.answers link = true)
    (hpart : ∀ q, pt = some q → (s.part? q).isSome = true) :
    exec .keyExchange s = .next ((s.openSession pt link).spdm 0xE4 pt link [s.module.nextSession, data, (Config.drbg s.free).toNat]) := by
  show execKeyExchange s = _
  unfold execKeyExchange State.openSession
  rw [hev]
  dsimp only
  rw [hans]
  cases pt with
  | none => rfl
  | some p => simp only [Option.isNone_eq_false_iff.2 (hpart p rfl)]; rfl

theorem State.measurement_isSome {s : State} {pt ses : Option Nat} {i : Nat} (hlow : 1 ≤ i) (hhigh : i ≤ 3) : (s.measurement pt ses i).isSome = true := by
  obtain rfl | rfl | rfl : i = 1 ∨ i = 2 ∨ i = 3 := by omega
  all_goals rfl

/-! ## Sessions -/

theorem execFinish_of_none {s : State} {id : Nat} {v : Nat} (hev : s.ev = .finish id v) (hnone : ∀ q ∈ s.module.sessions, q.id ≠ id) :
    exec .finish s = .next (s.emit (.mgmt false)) := by
  have hfind : (s.module.sessions.find? fun q => q.id = id) = none := List.find?_eq_none.2 fun q hq => by simpa using hnone q hq
  show execFinish s = _
  unfold execFinish
  rw [hev]
  dsimp only
  rw [hfind]

theorem execFinish_of_wrong {s : State} {id v : Nat} {q : Session} (hev : s.ev = .finish id v)
    (hfind : s.module.sessions.find? (fun q => q.id = id) = some q) (hwrong : Config.finishOk id v = false) :
    ∃ t, exec .finish s = .next t ∧ ∀ z ∈ t.module.sessions, z.id ≠ id := by
  refine ⟨State.emit { s with module := { s.module with sessions := s.module.sessions.filter fun (t : Session) => t.id ≠ id } } (.mgmt false),
    ?_, fun z hz => of_decide_eq_true (List.mem_filter.1 hz).2⟩
  show execFinish s = _
  unfold execFinish
  rw [hev]
  dsimp only
  rw [hfind]
  dsimp only
  rw [hwrong]
  rfl

/-- The sessions when one of them stands. -/
def standing (id : Nat) (l : List Session) : List Session := l.map fun t => if t.id = id then { t with live := true } else t

theorem live_of_mem_standing {id : Nat} {l : List Session} {z : Session} (hz : z ∈ standing id l) (hid : z.id = id) : z.live = true := by
  obtain ⟨y, -, rfl⟩ := List.mem_map.1 hz
  by_cases h : y.id = id
  · rw [if_pos h]
  · rw [if_neg h] at hid
    exact absurd hid h

theorem filter_standing (id : Nat) : ∀ l : List Session, (standing id l).filter (fun z => z.id ≠ id) = l.filter fun z => z.id ≠ id
  | [] => rfl
  | y :: l => by
    have ih := filter_standing id l
    rw [show standing id (y :: l) = (if y.id = id then { y with live := true } else y) :: standing id l from rfl]
    by_cases h : y.id = id
    · rw [if_pos h, List.filter_cons_of_neg (by simp [h]), List.filter_cons_of_neg (by simp [h]), ih]
    · rw [if_neg h, List.filter_cons_of_pos (by simp [h]), List.filter_cons_of_pos (by simp [h]), ih]

theorem execFinish_of_right {s : State} {id v : Nat} {q : Session} (hev : s.ev = .finish id v)
    (hfind : s.module.sessions.find? (fun q => q.id = id) = some q) (hright : Config.finishOk id v = true) :
    exec .finish s = .next (State.spdm { s with module := { s.module with sessions := standing id s.module.sessions } } 0xE5 q.part q.link [id]) := by
  show execFinish s = _
  unfold execFinish
  rw [hev]
  dsimp only
  rw [hfind]
  dsimp only
  rw [hright]
  rfl

/-! ## Key release (13 R315) -/

theorem State.part?_of_keyTarget {s : State} {id domain p : Nat} {x : Part} {q : Session} (h : s.keyTarget id domain = some (p, x, q)) :
    s.part? p = some x := by
  unfold State.keyTarget at h
  split at h
  · cases h
  · split at h
    · cases h
    · split at h
      · cases h
      · next hpart =>
        split_ifs at h
        cases h
        exact hpart

/-- A digest that a key load carries is bound to its session. -/
def bindDigest (id : Nat) (digest : BitVec 512) (l : List Session) : List Session :=
  l.map fun t => if t.id = id && digest ≠ 0 then { t with image := digest } else t

theorem image_of_mem_bindDigest {id : Nat} {digest : BitVec 512} {l : List Session} {z : Session} (hdigest : digest ≠ 0)
    (hz : z ∈ bindDigest id digest l) (hid : z.id = id) : z.image = digest := by
  obtain ⟨y, -, rfl⟩ := List.mem_map.1 hz
  by_cases h : y.id = id
  · exact congrArg Session.image (if_pos (by simp only [h, hdigest, ne_eq, not_false_eq_true, decide_true, Bool.and_self]))
  · simp only [h, decide_false, Bool.false_and, Bool.false_eq_true, if_false] at hid

theorem execKeyload_of_refused {s : State} {id domain p : Nat} {material : BitVec 768} {digest : BitVec 512} {x : Part} {q : Session}
    (hev : s.ev = .keyload id domain material digest) (hkey : s.keyTarget id domain = some (p, x, q))
    (h : Tab.get none x.keys domain ≠ none ∨ x.fenced = true ∨ q.entry ≠ some x.entry) : exec .keyload s = .next (s.emit (.mgmt false)) := by
  have hcond : ((Tab.get none x.keys domain).isSome || x.fenced || q.entry != some x.entry) = true := by
    simpa [Option.isSome_iff_ne_none, or_assoc] using h
  show execKeyload s = _
  unfold execKeyload
  rw [hev]
  dsimp only
  rw [hkey]
  dsimp only
  rw [if_pos hcond]

/-- The state after a key load: the partition holds the key under its domain, the session its digest. -/
def State.loadKey (s : State) (p domain id : Nat) (k : KeyDomain) : State :=
  let t := s.updPart p fun x => { x with keys := Tab.set none x.keys domain (some k) }
  { t with module := { t.module with sessions := bindDigest id k.digest t.module.sessions } }

theorem State.part?_loadKey {s : State} {p : Nat} {x : Part} (hpart : s.part? p = some x) (domain id : Nat) (k : KeyDomain) :
    (s.loadKey p domain id k).part? p = some { x with keys := Tab.set none x.keys domain (some k) } :=
  (State.part?_updPart_same ..).trans (congrArg _ hpart)

theorem State.sessions_loadKey (s : State) (p domain id : Nat) (k : KeyDomain) :
    (s.loadKey p domain id k).module.sessions = bindDigest id k.digest s.module.sessions :=
  congrArg (fun m : Module => bindDigest id k.digest m.sessions) (State.updPart_module s p _)

theorem execKeyload_of_free {s : State} {id domain p : Nat} {material : BitVec 768} {digest : BitVec 512} {x : Part} {q : Session}
    (hev : s.ev = .keyload id domain material digest) (hkey : s.keyTarget id domain = some (p, x, q))
    (hfree : Tab.get none x.keys domain = none) (hfence : x.fenced = false) (hentry : q.entry = some x.entry) :
    exec .keyload s = .next ((s.loadKey p domain id ⟨2 * material.toNat + 1, material, digest⟩).emit (.mgmt true)) := by
  have hcond : ((Tab.get none x.keys domain).isSome || x.fenced || q.entry != some x.entry) = false := by simp [hfree, hfence, hentry]
  show execKeyload s = _
  unfold execKeyload
  rw [hev]
  dsimp only
  rw [hkey]
  dsimp only
  rw [hcond]
  rfl

theorem execKeyclear_of_target {s : State} {id domain p : Nat} {x : Part} {q : Session} (hev : s.ev = .keyclear id domain)
    (hkey : s.keyTarget id domain = some (p, x, q)) : exec .keyclear s = .next ((s.eraseDomain p domain).emit (.mgmt true)) := by
  show execKeyclear s = _
  unfold execKeyclear
  rw [hev]
  dsimp only
  rw [hkey]

theorem State.keys_eraseDomain {s : State} {p domain : Nat} {x : Part} (hpart : s.part? p = some x) (hwf : Tab.wf none x.keys = true) :
    ∃ x', (s.eraseDomain p domain).part? p = some x' ∧ Tab.get none x'.keys domain = none :=
  ⟨_, (s.eraseDomain_part? p domain).trans (congrArg _ hpart), Tab.get_set_wf none none domain hwf⟩

/-! ## The host port (13 R317) -/

theorem execHostWrite_aperture_of_closed {s : State} {p : Nat} {off : VAddr} {data : List Byte} {ide : Bool}
    (hev : s.ev = .hostWrite p (.aperture off) data ide) (hclosed : s.takesHost p ide = false) :
    exec .hostWrite s = .next (s.emit (.hostError p)) := by
  show execHostWrite s = _
  unfold execHostWrite
  rw [hev]
  dsimp only
  rw [hclosed]
  rfl

theorem State.hostStore_nil (s : State) (p fuel va : Nat) : s.hostStore p fuel va [] = s := by
  cases fuel <;> rfl

theorem State.hostStore_of_fault {s s1 : State} {p va cause : Nat} {info : Word64} {data : List Byte} (hdata : data ≠ [])
    (hblock : va % 256 + data.length ≤ 256) (h : s.translateHome p va .write = (s1, .fault cause info)) :
    s.hostStore p (data.length + 1) va data = (s1.notice p cause info).emit (.hostError p) := by
  have hhere : data.length ≤ 256 - va % 256 := by omega
  rw [State.hostStore, if_neg (by simpa using hdata)]
  dsimp only
  rw [h, List.drop_of_length_le hhere, State.hostStore_nil]

/-- Bytes that lie in one block of 256 go in one packet. -/
theorem State.hostStore_of_leaf {s s1 : State} {p va : Nat} {l : Leaf} {data : List Byte} (hdata : data ≠ [])
    (hblock : va % 256 + data.length ≤ 256) (h : s.translateHome p va .write = (s1, .leaf l)) :
    s.hostStore p (data.length + 1) va data = s1.sendHost p (hostPacket p va (va % 4) data l (s1.homeSlice l.pa) (s1.rangeAt p va)) := by
  have hhere : data.length ≤ 256 - va % 256 := by omega
  rw [State.hostStore, if_neg (by simpa using hdata)]
  dsimp only
  rw [h, List.take_of_length_le hhere, List.drop_of_length_le hhere, State.hostStore_nil]

theorem execHostWrite_aperture_of_open {s : State} {p : Nat} {off : VAddr} {data : List Byte} {ide : Bool}
    (hev : s.ev = .hostWrite p (.aperture off) data ide) (hopen : s.takesHost p ide = true) :
    exec .hostWrite s = .next (s.hostStore p (data.length + 1) off.toNat data) := by
  show execHostWrite s = _
  unfold execHostWrite
  rw [hev]
  dsimp only
  rw [hopen]
  rfl

theorem execHostRead_aperture_of_closed {s : State} {p n : Nat} {off : VAddr} {ide : Bool}
    (hev : s.ev = .hostRead p (.aperture off) n ide) (hclosed : s.takesHost p ide = false) :
    exec .hostRead s = .next (s.emit (.hostData p .unsupported)) := by
  show execHostRead s = _
  unfold execHostRead
  rw [hev]
  dsimp only
  rw [hclosed]
  rfl

theorem execHostRead_aperture_of_open {s : State} {p n : Nat} {off : VAddr} {ide : Bool}
    (hev : s.ev = .hostRead p (.aperture off) n ide) (hopen : s.takesHost p ide = true) :
    exec .hostRead s = .next (((s.landHostRows p).hostLoad p (n + 1) off.toNat n).1.emit
      (.hostData p ((s.landHostRows p).hostLoad p (n + 1) off.toNat n).2)) := by
  show execHostRead s = _
  unfold execHostRead
  rw [hev]
  dsimp only
  rw [hopen]
  rfl

theorem State.hostLoad_zero (s : State) (p fuel va : Nat) : s.hostLoad p fuel va 0 = (s, .data []) := by
  cases fuel <;> rfl

theorem HostAnswer.join_nil (a : HostAnswer) : a.join (.data []) = a := by
  cases a with
  | data b => exact congrArg HostAnswer.data (List.append_nil b)
  | unsupported => rfl
  | abort => rfl

theorem State.hostLoad_of_fault {s s1 : State} {p va n cause : Nat} {info : Word64} (hn : 0 < n)
    (h : s.translateHome p va .read = (s1, .fault cause info)) : s.hostLoad p (n + 1) va n = (s1.notice p cause info, .unsupported) := by
  rw [State.hostLoad, if_neg (by omega)]
  dsimp only
  rw [h]

/-- Bytes that lie in one block of 256 are read in one piece. -/
theorem State.hostLoad_of_leaf {s s1 s2 : State} {p va n v : Nat} {l : Leaf} {psn : Bool} (hn : 0 < n) (hblock : va % 256 + n ≤ 256)
    (h : s.translateHome p va .read = (s1, .leaf l)) (hread : s1.homeRead ⟨p, l.ed, none, s1.rangeAt p va⟩ l.pa n = (s2, v, psn)) :
    s.hostLoad p (n + 1) va n = (s2, if psn || l.psn then .abort else .data (bytesOf v n)) := by
  have hhere : min n (256 - va % 256) = n := by omega
  rw [State.hostLoad, if_neg (by omega)]
  dsimp only
  rw [h]
  dsimp only
  rw [hhere, hread]
  dsimp only
  rw [Nat.sub_self, State.hostLoad_zero]
  dsimp only
  rw [HostAnswer.join_nil]

theorem execHostWrite_qtail {s : State} {p q : Nat} {data : List Byte} {ide : Bool} (hev : s.ev = .hostWrite p (.qtail q) data ide) :
    exec .hostWrite s = .next ((s.landHostRows p).post 0 (.qtailWrite p q (BitVec.ofNat 32 (bytesNat data)) ide)) := by
  show execHostWrite s = _
  unfold execHostWrite
  rw [hev]

theorem execHostWrite_lsem {s : State} {p i : Nat} {data : List Byte} {ide : Bool} (hev : s.ev = .hostWrite p (.lsem i) data ide) :
    exec .hostWrite s = .next ((s.landHostRows p).post 0 (.launchSemaphoreWrite p i (BitVec.ofNat 32 (bytesNat data)) ide)) := by
  show execHostWrite s = _
  unfold execHostWrite
  rw [hev]

theorem execHostRead_qtail {s : State} {p q n : Nat} {ide : Bool} {x : Part} (hev : s.ev = .hostRead p (.qtail q) n ide)
    (hopen : s.takesHost p ide = true) (hpart : s.part? p = some x) :
    exec .hostRead s = .next (s.emit (.hostData p (.data (bytesOf (x.qtail q) n)))) := by
  show execHostRead s = _
  unfold execHostRead
  rw [hev]
  dsimp only
  rw [hopen, hpart]
  rfl

theorem execHostRead_lsem {s : State} {p i n : Nat} {ide : Bool} {x : Part} (hev : s.ev = .hostRead p (.lsem i) n ide)
    (hopen : s.takesHost p ide = true) (hpart : s.part? p = some x) :
    ∃ v, exec .hostRead s = .next (s.emit (.hostData p (.data (bytesOf v n)))) ∧
      v % 65536 = (Tab.get ⟨0, false, false⟩ x.lsems (i % 256)).val.toNat := by
  let m := Tab.get ⟨0, false, false⟩ x.lsems (i % 256)
  refine ⟨m.val.toNat + fieldAt 16 (bitN m.err) + fieldAt 17 (bitN m.ovf), ?_, ?_⟩
  · show execHostRead s = _
    unfold execHostRead
    rw [hev]
    dsimp only
    rw [hopen, hpart]
    rfl
  · have hval : m.val.toNat < 65536 := m.val.isLt
    show (m.val.toNat + bitN m.err * 2 ^ 16 + bitN m.ovf * 2 ^ 17) % 65536 = m.val.toNat
    omega

/-! ## TDISP (13 R318) -/

theorem execTdiError_of_part {s : State} {p : Nat} {q : Part} (hev : s.ev = .tdiError p) (hpart : s.part? p = some q) :
    ∃ t q', exec .tdiError s = .next t ∧ t.part? p = some q' ∧ q'.tdist = 3 := by
  have hlocked : (s.updPart p fun q => { q with tdist := 3 }).TdiIs p 3 := ⟨_, (State.part?_updPart_same ..).trans (congrArg _ hpart), rfl⟩
  have haborted := (hlocked.of_parts (State.forEach_parts State.abortLaunch_parts
    ((s.updPart p fun q => { q with tdist := 3 }).launchesOf p) _)).abortSelected p
  obtain ⟨q', hq', htdist⟩ := haborted.forEach (fun _ e ht => ht.eraseDomain p e) [1, 2, 3, 4, 5, 6, 7]
  refine ⟨_, q', ?_, hq', htdist⟩
  show execTdiError s = _
  unfold execTdiError
  rw [hev]
  dsimp only
  rw [hpart]
  rfl

/-- The requests of TDISP that a partition in a state takes. -/
def tdispTakes (st tdist : BitVec 2) : Prop := st = 0 ∨ (st = 1 ∧ tdist = 0) ∨ (st = 2 ∧ tdist = 1)

theorem execTdispRequest_of_taken {s : State} {p : Nat} {st : BitVec 2} {q : Part} (hev : s.ev = .tdispRequest p st) (hpart : s.part? p = some q)
    (h : tdispTakes st q.tdist) : exec .tdispRequest s = .next ((s.updPart p fun q => { q with tdist := st }).emit (.mgmt true)) := by
  have hcond : (st = 0 || (st = 1 && q.tdist = 0) || (st = 2 && q.tdist = 1)) = true := by simpa [tdispTakes, or_assoc] using h
  show execTdispRequest s = _
  unfold execTdispRequest
  rw [hev]
  dsimp only
  rw [hpart]
  dsimp only
  rw [if_pos hcond]

theorem execTdispRequest_of_refused {s : State} {p : Nat} {st : BitVec 2} {q : Part} (hev : s.ev = .tdispRequest p st) (hpart : s.part? p = some q)
    (h : ¬tdispTakes st q.tdist) : exec .tdispRequest s = .next (s.emit (.mgmt false)) := by
  have hcond : ¬(st = 0 || (st = 1 && q.tdist = 0) || (st = 2 && q.tdist = 1)) = true := by simpa [tdispTakes, or_assoc] using h
  show execTdispRequest s = _
  unfold execTdispRequest
  rw [hev]
  dsimp only
  rw [hpart]
  dsimp only
  rw [if_neg hcond]

/-! ## The requests together -/

/-- Settles O59: each request by what its meaning answers where its conditions hold and where one fails. -/
theorem managementRequests : Obligations.ManagementRequests := by
  unfold Obligations.ManagementRequests
  intro s
  refine ⟨?map, ?spdm, fun id v => execFinish_of_none, fun id v q => execFinish_of_wrong, ?finish, ?keyload, ?keyclear, ?write, ?read, ?plain, ?tdisp⟩
  case map =>
    intro m hev
    dsimp only
    rw [execReconfigurationRequest_of_ev hev]
    refine ⟨fun hno => congrArg _ (if_pos ?_), fun hboot hgood hfree => congrArg _ (if_neg ?_)⟩
    · simp only [Bool.or_eq_true, decide_eq_true_eq, List.any_eq_true, or_assoc]
      refine hno.imp_right (Or.imp_right ?_)
      rintro ⟨p, hp, hheld⟩
      exact ⟨p, hp, by rwa [← s.holdsMap_eq_false_iff, Bool.not_eq_false] at hheld⟩
    · have hnone : (((List.range 8).filter fun p => PartMap.raw m p != PartMap.raw s.module.map p).any s.holdsMap) = false :=
        List.any_eq_false.2 fun p hp => by rw [(s.holdsMap_eq_false_iff p).2 (hfree p hp)]; exact Bool.false_ne_true
      simp [hboot, hgood, hnone]
  case spdm =>
    intro pt link hans hpart
    refine ⟨fun hev => ?digests, fun hev => ?certificate, fun nonce hev => ?challenge,
      fun ses i hev => ⟨fun d hd => ?measured, State.measurement_isSome, ?entry, execGetMeasurements_of_none hev hans⟩, fun e hev => ?exchange⟩
    case digests => exact ⟨_, execGetDigests_of_ev hev, State.spdm_replies hans hpart rfl rfl rfl _ _⟩
    case certificate => exact ⟨_, execGetCertificate_of_ev hev, State.spdm_replies hans hpart rfl rfl rfl _ _, State.spdm_free ..⟩
    case challenge =>
      exact ⟨_, execChallenge_of_ev hev, State.spdm_replies (u := { s with free := s.free + 1 }) hans hpart rfl rfl rfl _ _⟩
    case measured =>
      exact ⟨_, execGetMeasurements_of_some hev hd, State.spdm_replies hans hpart rfl rfl rfl _ _, State.spdm_free ..⟩
    case entry =>
      rintro rfl hpt
      exact (Option.isSome_map ..).trans hpt
    case exchange =>
      exact ⟨_, execKeyExchange_of_answers hev hans hpart, State.spdm_replies (u := s.openSession pt link) hans hpart rfl rfl rfl _ _,
        congrArg Module.nextSession (State.spdm_module ..), congrArg Module.sessions (State.spdm_module ..)⟩
  case finish =>
    intro id v q hev hfind hright
    refine ⟨_, execFinish_of_right hev hfind hright, fun z hz hid => ?_, ?_⟩
    · rw [State.spdm_module] at hz
      exact live_of_mem_standing hz hid
    · rw [State.spdm_module]
      exact filter_standing id _
  case keyload =>
    intro id domain material digest p x q hev hkey
    refine ⟨fun hfree hfence hentry => ?_, execKeyload_of_refused hev hkey⟩
    have hpart := State.part?_loadKey (State.part?_of_keyTarget hkey) domain id ⟨2 * material.toNat + 1, material, digest⟩
    exact ⟨_, _, execKeyload_of_free hev hkey hfree hfence hentry, hpart, Tab.get_set_some ..,
      fun hdigest z hz hid => image_of_mem_bindDigest hdigest (State.sessions_loadKey s .. ▸ hz) hid⟩
  case keyclear =>
    intro id domain p x q hev hkey
    exact ⟨execKeyclear_of_target hev hkey, State.keys_eraseDomain (State.part?_of_keyTarget hkey)⟩
  case write =>
    intro p off data ide hev
    refine ⟨execHostWrite_aperture_of_closed hev, fun hopen hdata hblock => ⟨fun s1 cause info h => ?_, fun s1 l h => ?_⟩⟩
    · rw [execHostWrite_aperture_of_open hev hopen, State.hostStore_of_fault hdata hblock h]
    · rw [execHostWrite_aperture_of_open hev hopen, State.hostStore_of_leaf hdata hblock h]
  case read =>
    intro p off n ide hev
    refine ⟨execHostRead_aperture_of_closed hev, fun hopen hn hblock => ⟨fun s1 cause info h => ?_, fun s1 s2 l v psn h hread => ?_⟩⟩
    · rw [execHostRead_aperture_of_open hev hopen, State.hostLoad_of_fault hn h]
    · rw [execHostRead_aperture_of_open hev hopen, State.hostLoad_of_leaf hn hblock h hread]
  case plain =>
    intro p ide x hopen hpart
    exact ⟨fun q data => execHostWrite_qtail, fun i data => execHostWrite_lsem, fun q n hev => execHostRead_qtail hev hopen hpart,
      fun i n hev => execHostRead_lsem hev hopen hpart⟩
  case tdisp =>
    intro p q hpart
    refine ⟨fun hev => execTdiError_of_part hev hpart, fun st hev => ⟨fun h => ?_, fun h0 h1 h2 => ?_⟩⟩
    · exact ⟨_, _, execTdispRequest_of_taken hev hpart h, (State.part?_updPart_same ..).trans (congrArg _ hpart), rfl⟩
    · exact execTdispRequest_of_refused hev hpart fun h => h.elim h0 fun h => h.elim h1 h2

end Sys2Proof.Machine
end
